-- ==== Sys2Proof/Word.lean ====
section
/-!
DEFINITION. The word types of the model, the bit-field helpers every register access goes through,
and the sparse map in canonical form that holds registers and memories.
-/
namespace Sys2Proof

/-- A byte (R4: every multi-byte structure is little-endian). -/
abbrev Byte := BitVec 8
/-- A register or an instruction word (R23). -/
abbrev Word := BitVec 32
/-- A 64-bit value: an object word, a general register, an accumulator window. -/
abbrev DWord := BitVec 64
/-- Hall time, in hall-time units of 1/256 ns (R3). -/
abbrev HT := BitVec 64

/-- Bits `[hi:lo]` of a number (the notation of R2). -/
def bits (x hi lo : Nat) : Nat := (x >>> lo) % 2 ^ (hi + 1 - lo)

/-- Bit `n` of a number. -/
def bit (x n : Nat) : Bool := x.testBit n

/-- `x` with bits `[hi:lo]` replaced by `v`. -/
def setBits (x hi lo v : Nat) : Nat :=
  x - (bits x hi lo) * 2 ^ lo + (v % 2 ^ (hi + 1 - lo)) * 2 ^ lo

/-- Field `[hi:lo]` of a register word. -/
def fld (w : Word) (hi lo : Nat) : Nat := bits w.toNat hi lo

/-- A register word with field `[hi:lo]` replaced. -/
def setFld (w : Word) (hi lo v : Nat) : Word := BitVec.ofNat 32 (setBits w.toNat hi lo v)

/-- 1 for true, 0 for false: a one-bit field. -/
def b2n (b : Bool) : Nat := if b then 1 else 0

/-- The `n`-bit two's complement reading of a number below `2^n`. -/
def sext (n x : Nat) : Int := if x % 2 ^ n < 2 ^ (n - 1) then (x % 2 ^ n : Nat) else (x % 2 ^ n : Nat) - (2 ^ n : Nat)

/-- The low `n` bits of an integer in two's complement. -/
def wrapInt (n : Nat) (x : Int) : Nat := (x % (2 ^ n : Nat)).toNat

/-- `x` clamped to the `n`-bit unsigned range: a saturating counter. -/
def satNat (n x : Nat) : Nat := min x (2 ^ n - 1)

/-- `x` clamped to the `n`-bit signed range. -/
def satInt (n : Nat) (x : Int) : Int := max (-(2 ^ (n - 1) : Nat)) (min x ((2 ^ (n - 1) : Nat) - 1))

/-- A bit vector read as a signed number. -/
abbrev sInt {n : Nat} (x : BitVec n) : Int := x.toInt

/-! ### Sparse maps

A memory, a register file or a table with a fixed content at reset is a list of (key, value) pairs in ONE
canonical form: keys strictly rising, and no pair whose value is what an unlisted key reads as. -/

/-- What key `k` of the map holds; `d` says what an unlisted key reads as. -/
def mget {α : Type} (d : Nat → α) : List (Nat × α) → Nat → α
  | [], k => d k
  | (k', v) :: m, k => if k = k' then v else mget d m k

/-- The map with the pair for `k` put in its place. -/
def mput {α : Type} : List (Nat × α) → Nat → α → List (Nat × α)
  | [], k, v => [(k, v)]
  | (k', v') :: m, k, v =>
    if k < k' then (k, v) :: (k', v') :: m else if k = k' then (k, v) :: m else (k', v') :: mput m k v

/-- The map with `k` set to `v`; setting the value an unlisted key reads as removes the pair. -/
def mset {α : Type} [DecidableEq α] (d : Nat → α) (m : List (Nat × α)) (k : Nat) (v : α) : List (Nat × α) :=
  if v = d k then m.filter fun kv => kv.1 ≠ k else mput m k v

/-- Every key of the map is at least `lo`, keys rise strictly, and no pair holds the default. -/
def mwfFrom {α : Type} [DecidableEq α] (d : Nat → α) : Nat → List (Nat × α) → Bool
  | _, [] => true
  | lo, (k, v) :: m => decide (lo ≤ k) && decide (v ≠ d k) && mwfFrom d (k + 1) m

/-- The canonical form of a sparse map. -/
def mwf {α : Type} [DecidableEq α] (d : Nat → α) (m : List (Nat × α)) : Bool := mwfFrom d 0 m

/-- The map without the keys from `lo` to `hi` inclusive. -/
def mdrop {α : Type} (lo hi : Nat) (m : List (Nat × α)) : List (Nat × α) :=
  m.filter fun kv => kv.1 < lo || hi < kv.1

/-! ### Small list helpers -/

/-- Element `i` of a list replaced by `f` of it; out of range changes nothing. -/
def modAt {α : Type} (i : Nat) (f : α → α) : List α → List α
  | [] => []
  | x :: xs => match i with
    | 0 => f x :: xs
    | i + 1 => x :: modAt i f xs

/-- `[lo, lo+1, …]`, `n` numbers. -/
def rangeFrom (lo n : Nat) : List Nat := (List.range n).map (· + lo)

/-- The little-endian number that a list of bytes holds (R4). -/
def leNat : List Byte → Nat
  | [] => 0
  | b :: bs => b.toNat + 256 * leNat bs

/-- The `n` little-endian bytes of a number (R4). -/
def natLe : Nat → Nat → List Byte
  | 0, _ => []
  | n + 1, x => BitVec.ofNat 8 x :: natLe n (x / 256)

/-- Ceiling division. -/
def ceilDiv (a b : Nat) : Nat := (a + (b - 1)) / b

/-- The largest integer whose square is at most `x`, found bit by bit from `2^n`. -/
def isqrtFrom : Nat → Nat → Nat → Nat
  | 0, _, r => r
  | n + 1, x, r => let t := r + 2 ^ n
                   isqrtFrom n x (if t * t ≤ x then t else r)

/-- The integer square root of a number below `2^(2n)`. -/
def isqrt (n x : Nat) : Nat := isqrtFrom n x 0

end Sys2Proof
end

