-- ==== Sys2Proof/Types.lean ====
section
/-!
DEFINITION. The names the commands and the state are written in: the two parts, source classes, ports,
outcome codes and the other small alternatives of the spec.
-/
namespace Sys2Proof

/-- The two parts of the family (R1): the Dornex T3 TSU of a die and the Limrudin D3 distributor. -/
inductive PartId where
  | tsu | dist
  deriving DecidableEq, Repr

/-- A step engine: the TSU's one, or the one of lantern tile `t` (chapter "The step engine"). -/
inductive EngSel where
  | tsu
  | tile (t : Fin 8)
  deriving DecidableEq, Repr

/-- The part an engine belongs to. -/
def EngSel.part : EngSel → PartId
  | .tsu => .tsu
  | .tile _ => .dist

/-- The tile of an engine; 0 for the TSU, which has none. -/
def EngSel.tileNo : EngSel → Nat
  | .tsu => 0
  | .tile t => t.val

/-- The number of an engine in the state: 0 the TSU's, 1 + t that of tile t. -/
def EngSel.key : EngSel → Nat
  | .tsu => 0
  | .tile t => 1 + t.val

/-- The instance of an engine's register blocks. -/
def EngSel.inst (e : EngSel) : Nat := e.tileNo

/-- What the engine's own checks find while an instruction issues (R205): nothing, a parity error in a register it reads, or a
residue mismatch in its arithmetic. -/
inductive SelfCheck where
  | good | parity | residue
  deriving DecidableEq, Repr

/-- The context that issues an instruction; `idle` counts the engine cycles before it in which nothing issued (R195). -/
structure CtxRef where
  eng : EngSel
  ctx : Fin 16
  check : SelfCheck := .good
  idle : Nat := 0
  deriving DecidableEq, Repr

/-- The source classes of R24; value 7 is reserved and no source carries it. -/
inductive Cls where
  | host | host2 | engine | link | hkp | i3c | debug
  deriving DecidableEq, Repr

/-- The number of a source class (R24). -/
def Cls.num : Cls → Nat
  | .host => 0 | .host2 => 1 | .engine => 2 | .link => 3 | .hkp => 4 | .i3c => 5 | .debug => 6

/-- The outcome codes of R7. -/
inductive Code where
  | ok | state | perm | range | epoch | busy | fenced | late | integrity
  deriving DecidableEq, Repr

/-- The 4-bit value of an outcome code (R7). -/
def Code.num : Code → Nat
  | .ok => 0 | .state => 1 | .perm => 2 | .range => 3 | .epoch => 4 | .busy => 5 | .fenced => 6 | .late => 7 | .integrity => 8

/-- The outcome code a 4-bit value names; codes 0x9 to 0xF are never produced (R7) and are read as INTEGRITY,
since a result that carries one can only be corrupt. -/
def Code.ofNum : Nat → Code
  | 0 => .ok | 1 => .state | 2 => .perm | 3 => .range | 4 => .epoch | 5 => .busy | 6 => .fenced | 7 => .late | _ => .integrity

/-- Code priority of R8 among rejections: the first failing condition in the order FENCED, PERM, RANGE, EPOCH,
STATE, BUSY is reported. -/
def firstFail (fenced perm range epoch state busy : Bool) : Code :=
  if fenced then .fenced else if perm then .perm else if range then .range else if epoch then .epoch
  else if state then .state else if busy then .busy else .ok

/-- Who issues a register access: its class, and for ENGINE the engine and context (R24, R363). -/
structure Src where
  cls : Cls
  tile : Nat := 0
  ctx : Nat := 0
  deriving DecidableEq, Repr

/-- The context field a journal record gives a register access of this source (R363). -/
def Src.jctx (s : Src) : Nat := if s.cls = .engine then s.ctx else 0x10 + s.cls.num

/-- A step-link port of a part. A TSU has SL0 to SL3; a distributor's ports are numbered as R117 numbers them:
DP0 to DP255, UP0 to UP15 and PP0 to PP1. -/
inductive Port where
  | sl (n : Fin 4)
  | dp (n : Fin 256)
  | up (n : Fin 16)
  | pp (n : Fin 2)
  deriving DecidableEq, Repr

/-- The part a port belongs to. -/
def Port.part : Port → PartId
  | .sl _ => .tsu
  | _ => .dist

/-- An external reference of the time source (R65, R68). -/
inductive RefSrc where
  | ext10m | pps | ptp
  deriving DecidableEq, Repr

/-- The port number of R117: SL0 to SL3 are 0 to 3, DP0 to DP255 are 0 to 255, UP0 to UP15 are 256 to 271, PP0 and PP1
are 272 and 273. -/
def Port.num : Port → Nat
  | .sl n => n.val
  | .dp n => n.val
  | .up n => 256 + n.val
  | .pp n => 272 + n.val

/-- The lantern tile and local port number of a distributor port (R408). -/
def portTile (n : Nat) : Nat := if n < 256 then n / 32 else if n < 272 then (n - 256) / 2 else if n = 272 then 0 else 7

/-- The local port number within its tile (R91, R408). -/
def portLocal (n : Nat) : Nat := if n < 256 then n % 32 else if n < 272 then 32 + (n - 256) % 2 else 34

/-- The port number of local port `k` of tile `t`; none where R408 gives none. -/
def portOf (t k : Nat) : Option Nat :=
  if k < 32 then some (32 * t + k)
  else if k < 34 then some (256 + 2 * t + (k - 32))
  else if k = 34 ∧ t = 0 then some 272
  else if k = 34 ∧ t = 7 then some 273
  else none

/-- Where SIG sends its signal (R244): the local object, every live member, or the member of a rank (sub 0x00 to 0x02). -/
inductive SigTo where
  | here | live | rank
  deriving DecidableEq, Repr

/-- The relation of TCMP (R242): AFT, BEF, EQ, NBEF. -/
inductive TRel where
  | aft | bef | eq | nbef
  deriving DecidableEq, Repr

/-- A unit whose errors make a trend (R376, R377): a lane, a row of an SRAM, a combiner lane of a tile (0 in the TSU), an HBM channel, a row of
an HBM stack. -/
inductive TrendUnit where
  | lane (g : Fin 1370)
  | sramRow (mem : Fin 64) (row : BitVec 16)
  | cmbLane (tile : Fin 8) (lane : Fin 72)
  | hbmChannel (c : Fin 768)
  | hbmRow (stack : Fin 24) (row : BitVec 21)
  deriving DecidableEq, Repr

/-- The key of a unit in the tables of trends. -/
def TrendUnit.key : TrendUnit → Nat
  | .lane g => g.val
  | .cmbLane t l => 0x10000 + 256 * t.val + l.val
  | .hbmChannel c => 0x20000 + c.val
  | .sramRow m r => 0x1000000 + 0x10000 * m.val + r.toNat
  | .hbmRow k r => 0x40000000 + 0x200000 * k.val + r.toNat

/-- The unit a key names. -/
def TrendUnit.ofKey (k : Nat) : TrendUnit :=
  if k < 0x10000 then .lane (Fin.ofNat 1370 k)
  else if k < 0x20000 then .cmbLane (Fin.ofNat 8 (k / 256 - 256)) (Fin.ofNat 72 (k % 256))
  else if k < 0x1000000 then .hbmChannel (Fin.ofNat 768 (k - 0x20000))
  else if k < 0x40000000 then .sramRow (Fin.ofNat 64 (k / 0x10000 - 0x100)) (BitVec.ofNat 16 k)
  else .hbmRow (Fin.ofNat 24 (k / 0x200000 - 0x200)) (BitVec.ofNat 21 k)

/-- The number a reference source bears in records: the port field of TIME_EVENT (log entry 7). -/
def RefSrc.num : RefSrc → Nat
  | .ext10m => 0 | .pps => 1 | .ptp => 2

/-! ### What commands carry -/

/-- What a NEG flit carries (R117). -/
structure NegFlit where
  node : Nat
  port : Nat
  domain : Nat
  tier : Nat
  vmin : Nat
  vmax : Nat
  strong : Bool
  spare : Bool
  fault : Nat
  deriving DecidableEq, Repr

/-- What a received SYNC carries (R131), with its rxts `t2` and whether it was marked uncalibrated (R112). -/
structure SyncRx where
  t1 : HT
  t2 : HT
  t4 : HT
  xn : Nat
  xnAns : Nat
  code : Nat
  tscal : Bool
  source : Bool
  setgen : Nat
  hops : Nat
  uncal : Bool
  deriving DecidableEq, Repr

/-- A time of a PTP message: TAI seconds and nanoseconds, and the sum of the correction fields in 2^-16 ns. -/
structure PtpTime where
  sec : Nat
  ns : Nat
  corr : Int
  deriving DecidableEq, Repr

/-- What an Announce says of its transmitter, in the order in which the default best master clock algorithm of IEEE 1588-2019 compares it. -/
structure PtpData where
  prio1 : Byte
  cls : Byte
  accuracy : Byte
  variance : BitVec 16
  prio2 : Byte
  grandmaster : BitVec 64
  steps : BitVec 16
  sender : BitVec 80
  deriving DecidableEq, Repr

/-- A message of IEEE 1588 that the time-receiver takes (R67). A two-step Sync has no origin of its own, a two-step peer delay response no
turnaround; `back` is the time-stamp at which a response to this part's request came; a turnaround is in 2^-16 ns. -/
inductive PtpMsg where
  | announce (d : PtpData)
  | sync (sender : BitVec 80) (seq : BitVec 16) (origin : Option PtpTime)
  | followUp (sender : BitVec 80) (seq : BitVec 16) (origin : PtpTime)
  | delayResp (sender : BitVec 80) (rx : PtpTime)
  | pdelayResp (seq : BitVec 16) (back : HT) (turn : Option Int)
  | pdelayFollowUp (seq : BitVec 16) (turn : Int)
  deriving DecidableEq, Repr

/-- One 8-byte lane of a fabric beat: its object index, its data and whether it is fully enabled (R175). -/
structure Lane where
  idx : Fin 8192
  word : DWord
  full : Bool
  deriving DecidableEq, Repr

/-- A beat on the fabric port's aperture (R175): a read at an offset, or a write of up to four lanes. -/
inductive FabricBeat where
  | read (off : Fin 65536)
  | write (lanes : List Lane)
  deriving DecidableEq, Repr

/-- What a ring frame carries beside its command and arguments (R161): ADDR, HSEQ and CRC as received. -/
structure RingHdr where
  addr : BitVec 9
  hseq : BitVec 3
  crc : BitVec 16
  deriving DecidableEq, Repr

/-- Where an ENUM frame arrives: at the next keeper of the branch, or back at the core after a round trip in ns (R161, R165). -/
inductive EnumAt where
  | keeper
  | core (rlat : Fin 65536)
  deriving DecidableEq, Repr

/-- An error that a stored word of an engine's memory has taken: IMEM or DMEM, the word, single-bit or double-bit (R204). -/
structure Upset where
  imem : Bool
  word : Nat
  double : Bool
  deriving DecidableEq, Repr

/-- An element of a partial as it travels. -/
inductive WElem where
  | sum (hdr : DWord) (limbs : List DWord)
  | loc (value : DWord) (rank : BitVec 20) (nan : Word)
  | word (v : DWord)
  | hist (counts : List DWord)
  | vote (distinct : BitVec 5) (pairs : List (DWord × DWord))
  | scan (rank : BitVec 20) (values : List (BitVec 128))
  deriving DecidableEq, Repr

/-- An uncorrected HBM error found by a fetch or by the patrol: stack, channel, row. -/
structure HbmAt where
  stack : Fin 24
  ch : Fin 32
  row : BitVec 21
  deriving DecidableEq, Repr

/-- A boot image as the ROM finds it: its header, whether the hash of its key is the slot's, and whether its signature verifies. -/
structure BootImage where
  magic : Word
  length : Word
  svn : Word
  key : Byte
  hashOk : Bool
  sigOk : Bool
  deriving DecidableEq, Repr

/-- What the package reads from its fuses beside the life-cycle state (R468): node ID, MIN_SVN and the revoke bits of the two key slots. -/
structure Fuses where
  node : BitVec 17
  minSvn : Word
  revoked : Fin 4
  deriving DecidableEq, Repr

/-- The rounding modes of R220. -/
inductive Rnd where
  | rne | rtz | rup | rdn
  deriving DecidableEq, Repr

/-- fn[10:8] of a rounding mode (R220). -/
def Rnd.num : Rnd → Nat
  | .rne => 0 | .rtz => 1 | .rup => 2 | .rdn => 3

/-- The rounding mode of fn[10:8]; 0b100 to 0b111 are none. -/
def Rnd.ofNum : Nat → Option Rnd
  | 0 => some .rne | 1 => some .rtz | 2 => some .rup | 3 => some .rdn | _ => none

/-- An indirect space of R40: the keepers' words, the journal, the lifetime record. -/
inductive IndSpace where
  | kpr | jnl | lif
  deriving DecidableEq, Repr

/-- A fetch of an indirect space that completes (R40): the distributor's journal, with an HBM error found at the word and whether it was
uncorrected; a keeper's word. -/
inductive FetchDone where
  | journal (err : Option (HbmAt × Bool))
  | keeper (data : Word)
  deriving DecidableEq, Repr

/-- A release of RST_N: what the TSU samples (R425, R444), or what the distributor reads (R461, R468). -/
inductive ResetAt where
  | tsu (node : BitVec 20) (macrosOk : Bool)
  | dist (f : Fuses) (oscIn norOk : Bool)
  deriving DecidableEq, Repr

/-- Where a job's instant is reached: a slot of the TSU, or a job context of the distributor. -/
inductive JobAt where
  | slot (c : Fin 16)
  | root (k : Fin 1024)
  deriving DecidableEq, Repr

/-- A frame that a leaf or pod root relays to a member (R307, R319): its origin HT, the member's node, and the job root it came from. -/
structure RelayTo where
  origin : HT
  node : BitVec 20
  root : BitVec 20
  deriving DecidableEq, Repr

/-- Where a syndrome frame arrives (R340): at a TSU, by a port, with its BULK address; or at the A leaf, for a chunk. -/
inductive SyndAt where
  | member (port : Fin 4) (addr : BitVec 96)
  | leaf (set : Fin 128) (slot : Fin 32) (half : Fin 2) (block : Word)
  deriving DecidableEq, Repr

/-! ### What twins send each other (R15, R272, R318, R335, R350) -/

namespace Machine

/-- A journal record (R362): SOURCE split into its node, block and context fields, `num` the writer's record number
since the wipe (bits [15:0] of it are SEQ), the payload as one 16-byte little-endian number. -/
structure JRec where
  ht : HT
  node : Nat
  blk : Nat
  ctx : Nat
  ty : Nat
  seq : Nat
  num : Nat
  payload : BitVec 128
  deriving DecidableEq, Repr

/-- A word of a phase map (R270): the node of a rank, or VACANT. -/
structure MapWord where
  node : Nat
  vacant : Bool
  deriving DecidableEq, Repr

/-- An entry of a chain (R336). -/
structure ChainEntry where
  pos : Nat
  mirror : Bool
  index : Nat
  deriving DecidableEq, Repr

/-- A rise counted in a leaf's ramp ledger (R272, R273): held until fixed, then reserved. -/
structure Rise where
  handle : Nat
  rank : Nat
  window : Nat
  fixed : Bool
  heldAt : HT
  deriving DecidableEq, Repr

/-- What a leaf keeps of a RAMP_REQ it has acted on, for the fixes that follow (R273). -/
structure RampJob where
  e : HT
  actedAt : HT
  plw : Nat
  span : Nat
  pre : Bool
  ranks : List Nat
  deriving DecidableEq, Repr

/-- The ramp ledger of a leaf: rises, falls by window, and the requests acted on by handle. -/
structure Ledger where
  rises : List Rise := []
  falls : List (Nat × Nat) := []
  jobs : List (Nat × RampJob) := []
  deriving DecidableEq, Repr

/-- A checkpoint slot in the copy of a job: state, L_open, gate sequence, B, WOFS and WLEN. -/
structure SlotCopy where
  index : Nat
  state : Nat
  lOpen : HT
  gateSeq : Nat
  b : Nat
  wofs : Nat
  wlen : Nat
  deriving DecidableEq, Repr

/-- The copy of a job that the root of the other domain keeps (R15): what its epoch, its gates and its commits need to go on. `moved` says that the
control domain moves with it, `waits` that the sender waits for the acknowledgement; `state` is PLN_JSTATE.STATE. -/
structure JobCopy where
  k : Nat
  state : Nat
  handle : Nat
  gen : Nat
  epoch : Nat
  tile : Nat
  ctx : Nat
  n : Nat
  floor : Nat
  lead : Nat
  deadline : Nat
  plw : Nat
  span : Nat
  mapOffs : List Nat
  map : Nat
  words : List MapWord
  fenced : List Nat
  leafOf : List (Nat × Nat)
  gateSeq : Nat
  collSeq : Nat
  resultSeq : Nat
  gateOpen : Bool
  launched : Bool
  fromArmed : Bool
  gates : List (Nat × List MapWord × Nat × HT)
  slots : List SlotCopy
  moved : Bool
  waits : Bool
  deriving DecidableEq, Repr

/-- The copy of a slot that a leaf SNAP has set up at the other leaf of the pair (R335); without entries, that every slot of the job is FREE (R349). -/
structure ChainCopy where
  ctx : Nat
  handle : Nat
  gen : Nat
  set : Fin 128
  slot : Fin 32
  freeMask : Nat
  entries : List ChainEntry
  deriving DecidableEq, Repr

/-- What arrives from the twin over the peer ports: the acknowledgement of what was mirrored for job context `k`, a job's copy, a journal record of a job
(R15, R318, R350), a chain slot's copy (R335), the ramp ledger (R272). -/
inductive TwinMsg where
  | ack (k : Fin 1024)
  | job (c : JobCopy)
  | record (r : JRec)
  | chain (c : ChainCopy)
  | ledger (l : Ledger)
  deriving DecidableEq, Repr

end Machine

end Sys2Proof
end

