-- ==== Sys2Proof/Config.lean ====
section
/-!
DEFINITION. The constants an implementation fixes and the values the spec leaves open. Nothing in Lean can evaluate an
opaque constant here: a claim about one holds for every value it may have.
-/
namespace Sys2Proof.Config

/-- The free value drawn by the step whose index is given: `State.freeIdx` counts the values drawn (log entry 2). -/
opaque freeBits : Nat → BitVec 64

/-- The filter behind "filtered θ" (SRV_Pp_OFS, R137, R143), which the spec names and does not give: new filtered offset
from the old one and the offset of the latest valid exchange, in 2^-8 hu (log entry 3). -/
opaque thetaFilter : Int → Int → Int

/-- The change of the DAC's code per second, in 2^-32 of a code, that holds the OCXO against a learned ageing slope (R70): the gain of the
board's control input is not the spec's to give (log entry 120). -/
opaque ageingCode : Int → Int

/-- Repair rows of an HBM stack (R377), whose number the spec does not give (log entry 22). -/
opaque repairRows : Nat → Nat

/-- The section of a sectioned hall that a node lies in (R20): node IDs are the operator's to assign, and the spec gives the part no other way to tell
(log entry 59). -/
opaque sectionOf : Nat → Nat

end Sys2Proof.Config
end

