-- ==== Sys2Proof/Machine/Codes.lean ====
section
/-!
DEFINITION. Check codes: the CRC-32 of frames and of the lifetime record (R103, R372) and the CRC-16 of ring frames (R161).
-/
namespace Sys2Proof.Machine

/-- One bit of a reflected CRC-32 register. -/
def crc32Bit (c : BitVec 32) : BitVec 32 :=
  if c.getLsbD 0 then (c >>> 1) ^^^ 0xEDB88320#32 else c >>> 1

/-- One byte into a reflected CRC-32 register. -/
def crc32Byte (c : BitVec 32) (b : Byte) : BitVec 32 :=
  Nat.repeat crc32Bit 8 (c ^^^ b.zeroExtend 32)

/-- The CRC-32 of R103: generator 0x04C1_1DB7 in reflected order, all ones at first, result complemented. -/
def crc32 (bs : List Byte) : BitVec 32 := ~~~ (bs.foldl crc32Byte 0xFFFFFFFF#32)

/-- One bit of the CRC-16 register. -/
def crc16Bit (c : BitVec 16) : BitVec 16 :=
  if c.getLsbD 15 then (c <<< 1) ^^^ 0x1021#16 else c <<< 1

/-- The CRC-16 of R161, polynomial 0x1021 and initial 0xFFFF, over bytes taken most significant bit first. -/
def crc16 (bs : List Byte) : BitVec 16 :=
  bs.foldl (fun c b => Nat.repeat crc16Bit 8 (c ^^^ (BitVec.zeroExtend 16 b).shiftLeft 8)) 0xFFFF#16

/-- One bit of the reflected CRC-64 of R324: polynomial 0x42F0E1EBA9EA3693 reflected. -/
def crc64RBit (c : Nat) : Nat := if c % 2 = 1 then (c / 2) ^^^ 0xC96C5795D7870F42 else c / 2

/-- One bit of the CRC-64 of R324, not reflected. -/
def crc64Bit (c : Nat) : Nat := if c / 2 ^ 63 % 2 = 1 then (c * 2 % 2 ^ 64) ^^^ 0x42F0E1EBA9EA3693 else c * 2 % 2 ^ 64

/-- Applies a step eight times. -/
def eight (f : Nat → Nat) (c : Nat) : Nat := f (f (f (f (f (f (f (f c)))))))

/-- The 128-bit digest of a byte stream (R324). -/
def digest128 (bs : List Byte) : Nat :=
  let lo := bs.foldl (fun c b => eight crc64RBit (c ^^^ b.toNat)) (2 ^ 64 - 1)
  let hi := bs.foldl (fun c b => eight crc64Bit (c ^^^ (b.toNat * 2 ^ 56))) 0
  (lo ^^^ (2 ^ 64 - 1)) + 2 ^ 64 * hi

end Sys2Proof.Machine
end

