-- ==== Sys2Proof/Machine/Combine.lean ====
section
/-!
DEFINITION. The arithmetic of the combiner (R279–R293, R300): shapes, formats, exact accumulation, partials, their merge, and
the result the job root delivers. Nothing here reads the state.
-/
namespace Sys2Proof.Machine

/-! ### Shapes (R279, R280) -/

/-- Fields of a shape word, descriptor bytes [3:0]. -/
def shOp (sh : Nat) : Nat := bits sh 3 0
def shIfmt (sh : Nat) : Nat := bits sh 7 4
def shSigned (sh : Nat) : Bool := sh.testBit 8
def shMovable (sh : Nat) : Bool := sh.testBit 9
def shRmode (sh : Nat) : Nat := bits sh 11 10
def shOfmt (sh : Nat) : Nat := bits sh 15 12
/-- Number of elements. -/
def shN (sh : Nat) : Nat := bits sh 23 16 + 1
/-- BINS of R279: bins minus 1. -/
def shBins (sh : Nat) : Nat := bits sh 31 24

/-- Integer formats are codes 6 to 9. -/
def shInt (sh : Nat) : Bool := decide (6 ≤ shIfmt sh)

/-- Bytes of an element. -/
def fmtBytes : Nat → Nat
  | 0 => 8 | 1 => 4 | 2 => 2 | 3 => 2 | 4 => 1 | 5 => 1 | 6 => 1 | 7 => 2 | 8 => 4 | _ => 8

/-- A combination R280 permits, with the fields it leaves unused zero. -/
def shapeOk (sh : Nat) : Bool :=
  let op := shOp sh
  let f := shIfmt sh
  let n := shN sh
  let fl := !shInt sh
  let sumF := op = 0 && fl
  f ≤ 9 && op ≤ 12
    && (op = 9 || shBins sh = 0)
    && (sumF || (shRmode sh = 0 && shOfmt sh = 0))
    && (!sumF || shOfmt sh ≤ 5 || shOfmt sh = 15)
    && (!shSigned sh || (shInt sh && (op ≤ 4 || op = 9 || op = 10)))
    && (match op with
        | 5 | 6 | 7 | 9 => shInt sh
        | 10 => shInt sh && n ≤ 16
        | 11 | 12 => f = 9 && n ≤ 4
        | _ => true)

/-- Limbs of the accumulator of a format (R282). -/
def fmtLimbs : Nat → Nat
  | 0 => 34 | 1 => 5 | 2 => 5 | 9 => 2 | _ => 1

/-- F of R282. -/
def fmtF : Nat → Nat
  | 0 => 1074 | 1 => 149 | 2 => 149 | 3 => 24 | 4 => 9 | 5 => 16 | _ => 0

/-- Worst-case bytes of a result's elements (R300). -/
def worstElems (sh : Nat) : Nat :=
  let n := shN sh
  let wide := if shIfmt sh = 9 then 16 else 8
  match shOp sh with
  | 0 => if shInt sh then n * wide else if shOfmt sh = 15 then n * (8 + 8 * fmtLimbs (shIfmt sh)) else 8 * n
  | 3 | 4 => 16 * n
  | 9 => 8 * (shBins sh + 2)
  | 10 => 2 * n * wide
  | 11 | 12 => 16 * n
  | _ => 8 * n

/-- The worst case of R281 for the reductions of one operation. -/
def worstCase (shapes : List Nat) : Nat := 64 + shapes.foldl (fun t sh => t + 16 + worstElems sh) 0

/-! ### Formats (R279, R282, R283) -/

/-- Exponent bits, fraction bits and bias of a floating format. -/
def fmtParams : Nat → Nat × Nat × Nat
  | 0 => (11, 52, 1023) | 1 => (8, 23, 127) | 2 => (8, 7, 127) | 3 => (5, 10, 15) | 4 => (4, 3, 7) | _ => (5, 2, 15)

/-- A decoded floating element. -/
inductive CmbVal where
  | nan
  | inf (neg : Bool)
  | fin (neg : Bool) (k : Nat)
  deriving DecidableEq, Repr

/-- Decodes a floating element; `k` is its magnitude in units of 2^-F (R283). -/
def cmbDecode (f x : Nat) : CmbVal :=
  let (eb, mb, bias) := fmtParams f
  let neg := x.testBit (eb + mb)
  let e := bits x (eb + mb - 1) mb
  let m := x % 2 ^ mb
  if f = 4 && e = 15 && m = 7 then .nan
  else if f ≠ 4 && e = 2 ^ eb - 1 then (if m = 0 then .inf neg else .nan)
  else
    let up := fmtF f + 1 - bias - mb
    .fin neg (if e = 0 then m * 2 ^ up else (2 ^ mb + m) * 2 ^ (up + e - 1))

/-- An integer element's value (R283). -/
def cmbInt (sh x : Nat) : Int :=
  let w := 8 * fmtBytes (shIfmt sh)
  if shSigned sh then sext w x else (x % 2 ^ w : Nat)

/-- The canonical NaN of a format (R287). -/
def cmbNan : Nat → Nat
  | 0 => 0x7FF8000000000000 | 1 => 0x7FC00000 | 2 => 0x7FC0 | 3 => 0x7E00 | 5 => 0x7E | _ => 0x7F

/-- Length of a magnitude in bits. -/
def cmbLen (x : Nat) : Nat := if x = 0 then 0 else Nat.log2 x + 1

/-- Whether rounding goes away from zero: mode 0 RNE, 1 RTZ, 2 RUP, 3 RDN. -/
def cmbRoundUp (rm : Nat) (neg odd : Bool) (rem half : Nat) : Bool :=
  match rm with
  | 0 => decide (half < rem) || (rem = half && odd)
  | 2 => !neg && rem ≠ 0
  | 3 => neg && rem ≠ 0
  | _ => false

/-- What an overflow delivers: the format's infinity or its largest finite value (R287). -/
def cmbOverflow (f rm : Nat) (neg : Bool) : Nat :=
  let (eb, mb, _) := fmtParams f
  let s := if neg then 2 ^ (eb + mb) else 0
  let inf := (2 ^ eb - 1) * 2 ^ mb
  if f = 4 then s + 0x7E
  else if rm = 0 || (rm = 2 && !neg) || (rm = 3 && neg) then s + inf else s + inf - 1

/-- `mag` × 2^-F rounded once into a format; the flag is OVERFLOW, which E4M3 sets (R287). -/
def cmbRound (f rm : Nat) (neg : Bool) (mag fracBits : Nat) : Nat × Bool :=
  let (eb, mb, bias) := fmtParams f
  let s := if neg then 2 ^ (eb + mb) else 0
  let low := fracBits + 1 - bias - mb
  let q := if low + (mb + 1) < cmbLen mag then cmbLen mag - (mb + 1) else low
  let m0 := mag / 2 ^ q
  let rem := mag % 2 ^ q
  let m := if q ≠ 0 && cmbRoundUp rm neg (m0 % 2 = 1) rem (2 ^ q / 2) then m0 + 1 else m0
  let code := if q = low && m < 2 ^ mb then m else (q - low + 1) * 2 ^ mb + (m - 2 ^ mb)
  let top := if f = 4 then 0x7F else (2 ^ eb - 1) * 2 ^ mb
  if code < top then (s + code, false) else (cmbOverflow f rm neg, f = 4)

/-! ### Partials (R284–R286) -/

/-- An element of a partial. Sum: accumulator, NANCNT, PINF, NINF, NEGZ. Loc: value, rank, NANCNT; while NANCNT is not 0 the rank
is the lowest that contributed a NaN. -/
inductive PElem where
  | sum (acc : Int) (nan : Nat) (pinf ninf negz : Bool)
  | loc (value rank nan : Nat)
  | word (v : Nat)
  | hist (counts : List Nat)
  | vote (distinct : Nat) (pairs : List (Nat × Nat))
  deriving DecidableEq, Repr

/-- One element as contributed by a rank; HIST and SCAN are handled over all elements. -/
def elemOf (sh rank x : Nat) : PElem :=
  let f := shIfmt sh
  match shOp sh with
  | 0 =>
    if shInt sh then .sum (cmbInt sh x) 0 false false false
    else match cmbDecode f x with
      | .nan => .sum 0 1 false false false
      | .inf n => .sum 0 0 (!n) n false
      | .fin n k => .sum (if n then -(k : Int) else k) 0 false false (n && k = 0)
  | 1 | 2 | 3 | 4 => .loc x rank (if !shInt sh && cmbDecode f x = .nan then 1 else 0)
  | 8 =>
    let zero := if shInt sh then x = 0 else cmbDecode f x = .fin false 0 || cmbDecode f x = .fin true 0
    .word (if zero then 0 else 1)
  | 11 | 12 => .vote 1 [(x, 1)]
  | _ => .word x

/-- HIST over the elements a member contributed (R289). -/
def histOf (sh : Nat) (xs : List Nat) : PElem :=
  let n := shBins sh + 1
  .hist (xs.foldl (fun c x =>
    let v := cmbInt sh x
    let i := if 0 ≤ v ∧ v < n then v.toNat else n
    modAt i (· + 1) c) (List.replicate (n + 1) 0))

/-- The order of R288 on two values: −1, 0 or 1. −0 lies below +0. -/
def cmbKey (sh x : Nat) : Int :=
  if shInt sh then cmbInt sh x
  else
    let (eb, mb, _) := fmtParams (shIfmt sh)
    let m : Int := (x % 2 ^ (eb + mb) : Nat)
    if x.testBit (eb + mb) then -m - 1 else m

/-- The MIN, MAX and LOC merge (R286, R288). -/
def mergeLoc (sh v1 r1 n1 v2 r2 n2 : Nat) : PElem :=
  let a := cmbKey sh v1
  let b := cmbKey sh v2
  let low := shOp sh = 1 || shOp sh = 3
  if n1 ≠ 0 || n2 ≠ 0 then
    .loc (if n1 ≠ 0 then v1 else v2) (if n1 = 0 then r2 else if n2 = 0 then r1 else min r1 r2) (n1 + n2)
  else if a = b then .loc v1 (min r1 r2) 0
  else if (low && a < b) || (!low && b < a) then .loc v1 r1 0 else .loc v2 r2 0

/-- Adds a pair to a list in ascending value. -/
def addPair (p : Nat × Nat) : List (Nat × Nat) → List (Nat × Nat)
  | [] => [p]
  | q :: qs => if p.1 < q.1 then p :: q :: qs else if p.1 = q.1 then (q.1, q.2 + p.2) :: qs else q :: addPair p qs

/-- The merge of two elements of one reduction (R286). -/
def mergeElem (sh : Nat) : PElem → PElem → PElem
  | .sum a n p i z, .sum b m q j y => .sum (a + b) (n + m) (p || q) (i || j) (z && y)
  | .loc v r n, .loc w t m => mergeLoc sh v r n w t m
  | .word a, .word b =>
    match shOp sh with
    | 5 => .word (a &&& b)
    | 6 => .word (a ||| b)
    | 7 => .word (a ^^^ b)
    | _ => .word (a + b)
  | .hist a, .hist b => .hist (List.zipWith (· + ·) a b)
  | .vote d a, .vote e b =>
    if d = 17 || e = 17 then .vote 17 []
    else
      let m := b.foldl (fun l p => addPair p l) a
      if 16 < m.length then .vote 17 [] else .vote m.length m
  | x, _ => x

/-- A reduction's accumulated partial: elements by index, SCAN entries by ascending rank. -/
structure Red where
  shape : Nat := 0
  nspill : Nat := 0
  spill : Nat := 0
  poison : Bool := false
  integrity : Bool := false
  elems : List (Nat × Option PElem) := []
  scan : List (Nat × List Int) := []
  contributors : Nat := 0
  deriving DecidableEq, Repr

/-- Merges an element into index `i`. -/
def Red.put (r : Red) (i : Nat) (x : PElem) : Red :=
  let v := match mget (fun _ => none) r.elems i with
    | some y => mergeElem r.shape y x
    | none => x
  { r with elems := mset (fun _ => none) r.elems i (some v) }

/-- Inserts SCAN values at a rank; the values of one rank that come in several frames join in order (R286, R290). -/
def addScan (rank : Nat) (vs : List Int) : List (Nat × List Int) → List (Nat × List Int)
  | [] => [(rank, vs)]
  | q :: qs => if rank < q.1 then (rank, vs) :: q :: qs else if rank = q.1 then (q.1, q.2 ++ vs) :: qs else q :: addScan rank vs qs

/-- Absorbs the elements of one frame of a member's contribution, from element index `first` (R283). -/
def Red.absorb (r : Red) (rank first : Nat) (xs : List Nat) : Red :=
  match shOp r.shape with
  | 9 => r.put 0 (histOf r.shape xs)
  | 10 => { r with scan := addScan rank (xs.map (cmbInt r.shape)) r.scan }
  | _ => (xs.zipIdx).foldl (fun t p => t.put (first + p.2) (elemOf t.shape rank p.1)) r

/-- Merges a finished partial (R286). -/
def Red.merge (a b : Red) : Red :=
  let e := b.elems.foldl (fun t p => match p.2 with
    | some x => t.put p.1 x
    | none => t) a
  { e with
    scan := b.scan.foldl (fun l p => addScan p.1 p.2 l) e.scan
    poison := a.poison || b.poison, integrity := a.integrity || b.integrity, contributors := a.contributors + b.contributors }

/-! ### Wire form (R284, R285) -/

/-- The magnitude that START, PMASK and the limbs spell, from limb `j` of the mask up. -/
def limbMag : Nat → Nat → List Nat → Nat → Nat
  | 0, _, _, _ => 0
  | n + 1, mask, ls, j =>
    if mask % 2 = 1 then ls.headD 0 * 2 ^ (64 * j) + limbMag n (mask / 2) (ls.drop 1) (j + 1)
    else limbMag n (mask / 2) ls (j + 1)

/-- Set bits of a 34-bit mask. -/
def popCount (m : Nat) : Nat := ((List.range 34).filter fun k => m.testBit k).length

/-- Reads a travelling element; none where it breaks R284, or is not one of the shape's operation. -/
def readElem (sh : Nat) : WElem → Option PElem
  | .sum h ls =>
    let v := h.toNat
    let mask := bits v 43 10
    let start := bits v 9 4
    let mag := limbMag 34 mask (ls.map BitVec.toNat) start
    let overw := (List.range 34).any fun j => mask.testBit j && fmtLimbs (shIfmt sh) ≤ start + j
    if shOp sh ≠ 0 || overw || popCount mask ≠ ls.length || (mag = 0 && (bits v 0 0 ≠ 0 || start ≠ 0 || mask ≠ 0)) then none
    else some (.sum (if v.testBit 0 then -(mag : Int) else mag) (bits v 63 44) (v.testBit 1) (v.testBit 2) (v.testBit 3))
  | .loc v r n => if 1 ≤ shOp sh ∧ shOp sh ≤ 4 then some (.loc v.toNat r.toNat n.toNat) else none
  | .word v => if 5 ≤ shOp sh ∧ shOp sh ≤ 8 then some (.word v.toNat) else none
  | .hist c => if shOp sh = 9 ∧ c.length = shBins sh + 2 then some (.hist (c.map BitVec.toNat)) else none
  | .vote d ps => if shOp sh = 11 ∨ shOp sh = 12 then some (.vote d.toNat (ps.map fun p => (p.1.toNat, p.2.toNat))) else none
  | .scan _ _ => none

/-- Absorbs one element of a partial's frame at index `i`; one that breaks R284 poisons the instance (R292). -/
def Red.absorbW (r : Red) (i : Nat) (w : WElem) : Red :=
  match w with
  | .scan k vs => if shOp r.shape = 10 then { r with scan := addScan k.toNat (vs.map BitVec.toInt) r.scan } else { r with poison := true }
  | x => match readElem r.shape x with
    | some p => r.put i p
    | none => { r with poison := true }

/-- The travelling form of a SUM element: header and nonzero limbs of |acc| (R284). -/
def sumWords (acc : Int) (nan : Nat) (pinf ninf negz : Bool) (limbs : Nat) : List Nat :=
  let mag := acc.natAbs
  let ls := (List.range limbs).map fun i => mag / 2 ^ (64 * i) % 2 ^ 64
  let start := ((List.range limbs).find? fun i => ls.getD i 0 ≠ 0).getD 0
  let mask := (List.range limbs).foldl (fun m i => if ls.getD i 0 ≠ 0 then m + 2 ^ (i - start) else m) 0
  (2 ^ 44 * (nan % 2 ^ 20) + 2 ^ 10 * mask + 16 * start + 8 * b2n negz + 4 * b2n ninf + 2 * b2n pinf
    + b2n (decide (acc < 0))) :: ls.filter (· ≠ 0)

/-- An element of a partial as 8-byte words (R284, R285). -/
def elemWords (sh : Nat) : PElem → List Nat
  | .sum a n p i z => sumWords a n p i z (fmtLimbs (shIfmt sh))
  | .loc v r n => [v, r + 2 ^ 32 * (n % 2 ^ 32)]
  | .word v => [v]
  | .hist c => c
  | .vote d ps => d :: ps.flatMap fun p => [p.1, p.2]

/-! ### The result (R287–R291, R300) -/

/-- Little-endian bytes of 8-byte words. -/
def wordsLe (ws : List Nat) : List Byte := ws.flatMap (natLe 8)

/-- A rounded element of a floating SUM, with OVERFLOW (R287). -/
def sumResult (sh : Nat) (acc : Int) (nan : Nat) (pinf ninf negz : Bool) : Nat × Bool :=
  let f := shOfmt sh
  let rm := shRmode sh
  let (eb, mb, _) := fmtParams f
  let s (neg : Bool) := if neg then 2 ^ (eb + mb) else 0
  let inf (neg : Bool) : Nat × Bool := if f = 4 then (s neg + 0x7E, true) else (s neg + (2 ^ eb - 1) * 2 ^ mb, false)
  if nan ≠ 0 || (pinf && ninf) then (cmbNan f, false)
  else if pinf then inf false
  else if ninf then inf true
  else if acc = 0 then (s (negz || rm = 3), false)
  else cmbRound f rm (acc < 0) (acc.natAbs * 2 ^ (1074 - fmtF (shIfmt sh))) 1074

/-- Result bytes of one element, OVERFLOW and INF_CONFLICT (R287–R291, R300). `n` is the count of contributors. -/
def elemResult (sh n : Nat) : PElem → List Byte × Bool × Bool
  | .sum a c p i z =>
    if shInt sh then (natLe (if shIfmt sh = 9 then 16 else 8) (wrapInt 128 a), false, false)
    else if shOfmt sh = 15 then (wordsLe (sumWords a c p i z (fmtLimbs (shIfmt sh))), false, p && i)
    else
      let r := sumResult sh a c p i z
      (natLe 8 r.1, r.2, p && i)
  | .loc v r c =>
    let x := if c ≠ 0 then cmbNan (shIfmt sh) else v
    (natLe 8 x ++ (if 3 ≤ shOp sh then natLe 8 r else []), false, false)
  | .word v => (natLe 8 v, false, false)
  | .hist c => (wordsLe c, false, false)
  | .vote d ps =>
    let best := ps.foldl (fun b p => if b.2 < p.2 then p else b) ((0 : Nat), 0)
    let un := d = 1
    let mj := d ≠ 17 && n < 2 * best.2
    (natLe 8 best.1 ++ natLe 4 best.2 ++ natLe 1 d
      ++ natLe 1 (b2n un + 2 * b2n mj + 4 * b2n (if shOp sh = 11 then un else mj)) ++ natLe 2 0, false, false)

/-- NaN contributions of an element. -/
def elemNan : Option PElem → Nat
  | some (.sum _ n _ _ _) => n
  | some (.loc _ _ n) => n
  | _ => 0

/-- The result code of a reduction at the job root: INTEGRITY, RANGE for POISON or another shape, else OK (R292, R293, R302). -/
def Red.code (r : Red) (own : Nat) : Code :=
  if r.integrity then .integrity else if r.poison || r.shape ≠ own then .range else .ok

/-- The 16-byte header of R300 and the elements after it. -/
def resultBytes (sh : Nat) (c : Code) (conflict overw : Bool) (nan contributors : Nat) (els : List Byte) : List Byte :=
  natLe 1 sh
    ++ natLe 1 (c.num + 16 * b2n conflict + 32 * b2n overw + 64 * b2n (c = .ok && shOp sh = 0 && !shInt sh && shOfmt sh = 15))
    ++ natLe 1 (shN sh - 1) ++ natLe 1 (shBins sh) ++ natLe 4 (satNat 32 nan) ++ natLe 4 contributors
    ++ natLe 4 (16 + els.length) ++ els

/-- The result of a reduction other than SCAN at the job root, whose own shape is `own`. -/
def Red.result (r : Red) (own : Nat) : List Byte :=
  let c := r.code own
  if c ≠ .ok then resultBytes own c false false 0 r.contributors []
  else
    let rs := r.elems.filterMap fun p => p.2.map (elemResult own r.contributors)
    let nan := r.elems.foldl (fun t p => t + elemNan p.2) 0
    resultBytes own c (rs.any fun x => x.2.2) (rs.any fun x => x.2.1) nan r.contributors (rs.flatMap (·.1))

/-- Sum of the values at index `i` of SCAN entries. -/
def scanSum (l : List (Nat × List Int)) (i : Nat) : Int := l.foldl (fun t p => t + p.2.getD i 0) 0

/-- What SCAN delivers to a rank: exclusive prefixes, then totals (R290). -/
def Red.scanResult (r : Red) (own rank : Nat) : List Byte :=
  let c := r.code own
  if c ≠ .ok then resultBytes own c false false 0 r.contributors []
  else
    let w := if shIfmt own = 9 then 16 else 8
    let below := r.scan.filter fun p => p.1 < rank
    let out (l : List (Nat × List Int)) : List Byte := (List.range (shN own)).flatMap fun i => natLe w (wrapInt 128 (scanSum l i))
    resultBytes own c false false 0 r.contributors (out below ++ out r.scan)

/-- The words of a partial (R284, R285): of SCAN one entry per contributor. -/
def Red.words (r : Red) : List Nat :=
  if shOp r.shape = 10 then
    r.scan.flatMap fun p => p.1 :: p.2.flatMap fun v => [wrapInt 64 v, wrapInt 64 (v / (2 ^ 64 : Nat))]
  else r.elems.flatMap fun p => match p.2 with
    | some x => elemWords r.shape x
    | none => []

end Sys2Proof.Machine
end

