-- ==== Sys2Proof/Syntax.lean ====
section
/-!
DEFINITION. The commands of the block: one constructor for each row of the opcode table, in its order, with the row's operands. A command
is a register access, an event of a port, a pin or the clock, a frame received, or an instruction that a context issues.

What the operands mean, unless a constructor says otherwise: `p` the part the command is for; `src` the source of a register access; `port`
the port that receives, or whose timer runs out; `e` a step engine, `c` one of its contexts, `x` the context that issues an instruction,
with what the engine's own checks find (log entry 14); `handle`, `gen`, `epoch` the job fields of a frame's header; `crcOk` whether a flit's
CRC is good; `tdec`, `place` the start of the block in which a frame's delimiter came and its place in it; `check` whether the residues of the sums a
combining point is about to add agree. What a part measures (a time-stamp, a phase, a temperature, an error found) is an operand, for the spec
gives the machine no more of the physical world than these.
-/
namespace Sys2Proof

/-- The commands. Each constructor's line names its row and the rule that describes it. -/
inductive Instr where
  /-- REGISTER_WRITE (R26). -/
  | registerWrite (p : PartId) (src : Src) (addr : BitVec 26) (v : Word) (whole : Bool)
  /-- STAGING_LO_WRITE (R32). -/
  | stagingLoWrite (p : PartId) (src : Src) (addr : BitVec 26) (v : Word)
  /-- STAT_READ (R29). -/
  | statRead (p : PartId) (src : Src) (addr : BitVec 26)
  /-- SYS_UPDATE (R35). -/
  | sysUpdate (p : PartId) (src : Src) (mask : Word)
  /-- SYS_UPD_AT_HI (R35). -/
  | sysUpdAtHi (p : PartId) (src : Src) (v : Word)
  /-- SYS_UPD_CANCEL (R36). -/
  | sysUpdCancel (p : PartId) (src : Src) (v : Word)
  /-- UPDATE_STROBE (R35). -/
  | updateStrobe (p : PartId)
  /-- STROBE (R37). -/
  | strobe (handle : BitVec 16) (gen : Byte) (epoch mask : Word) (tick : HT)
  /-- GUARDED_PAIR (R38). -/
  | guardedPair (p : PartId) (src : Src) (addr : BitVec 26) (v : Word)
  /-- SYS_UNLOCK (R39). -/
  | sysUnlock (p : PartId) (src : Src) (key : Word)
  /-- IADDR_WRITE (R40). -/
  | iaddrWrite (p : PartId) (src : Src) (sp : IndSpace) (v : Word)
  /-- IDATA_ACCESS (R40). -/
  | idataAccess (p : PartId) (src : Src) (sp : IndSpace) (write : Option Word)
  /-- IDATA_FETCH_DONE (R40). -/
  | idataFetchDone (d : FetchDone)
  /-- CMB_RSTAT_READ (R41). -/
  | cmbRstatRead (src : Src) (c : Fin 16)
  /-- SYS_SEAL (R43). -/
  | sysSeal (p : PartId) (src : Src) (v : Word)
  /-- SYS_LCREQ (R46). -/
  | sysLcreq (p : PartId) (src : Src) (target : Fin 4) (force : Bool)
  /-- LCS_ACK (R441). -/
  | lcsAck (p : PartId)
  /-- LCS_ERR (R441). -/
  | lcsErr (p : PartId)
  /-- LCS_TIMEOUT (R441). -/
  | lcsTimeout (p : PartId)
  /-- WIPE_END (R47). -/
  | wipeEnd (p : PartId)
  /-- RST_N (R444). -/
  | rstN (r : ResetAt)
  /-- HT_SET_LOAD (R54). -/
  | htSetLoad (p : PartId)
  /-- CALINFO (R145). -/
  | calinfo (port : Port) (eff calHt : HT) (sec : BitVec 48) (ns : BitVec 30) (rate : Word) (utc : BitVec 16)
  /-- CALENDAR_LOAD (R57). -/
  | calendarLoad (p : PartId)
  /-- OVEN_SAMPLE (R61). -/
  | ovenSample (pin ext10m : Bool)
  /-- OSC_LOST (R63). -/
  | oscLost
  /-- REFERENCE_QUALIFIES (R68). -/
  | referenceQualifies (r : RefSrc)
  /-- REFERENCE_LOST (R68). -/
  | referenceLost (r : RefSrc)
  /-- HOLDOVER_SECOND (R70). -/
  | holdoverSecond (p : PartId) (bound : Nat)
  /-- HOLDOVER_EXPIRY (R59). -/
  | holdoverExpiry (p : PartId)
  /-- DAC_UPDATE (R64). -/
  | dacUpdate (asked : Int) (slope : Option Int)
  /-- PPS_EDGE (R66). -/
  | ppsEdge (stamp : HT)
  /-- PPS_MISSING (R66). -/
  | ppsMissing
  /-- PTP_MESSAGE (R67). -/
  | ptpMessage (port1 : Bool) (domain : Byte) (stamp : HT) (m : PtpMsg)
  /-- TDC_EVENT (R74). -/
  | tdcEvent (e : EngSel) (un : Fin 2) (ch : Fin 9) (src : Byte) (raw : Fin 256) (falling : Bool) (k level : Nat)
  /-- COARSE_WRAP (R76). -/
  | coarseWrap (e : EngSel) (un : Fin 2)
  /-- TDC_RSTAT_READ (R79). -/
  | tdcRstatRead (e : EngSel) (un : Fin 2) (src : Src)
  /-- TDC_CAL_GO (R81). -/
  | tdcCalGo (e : EngSel) (un : Fin 2) (src : Src)
  /-- TDC_CAL_DONE (R81). -/
  | tdcCalDone (e : EngSel) (un : Fin 2) (hits taps : List (List Nat))
  /-- TEMP_BAND_CHANGE (R84). -/
  | tempBandChange (band : Fin 8) (load : Fin 4)
  /-- DTC_OUT_AT_HI (R86). -/
  | dtcOutAtHi (e : EngSel) (n : Fin 8) (src : Src) (v : Word)
  /-- DTC_OUT_CANCEL (R86). -/
  | dtcOutCancel (e : EngSel) (n : Fin 8) (src : Src)
  /-- TRIGGER_FIRE (R87). -/
  | triggerFire (e : EngSel) (n : Fin 8)
  /-- DTC_CAL (R90). -/
  | dtcCal (e : EngSel) (src : Src) (mask : Byte)
  /-- DTC_CAL_DONE (R90). -/
  | dtcCalDone (e : EngSel) (n : Fin 8) (d : List Int)
  /-- PRT_CTRL_EN (R116). -/
  | prtCtrlEn (port : Port) (src : Src) (en : Bool)
  /-- PRT_CTRL_RETRAIN (R116). -/
  | prtCtrlRetrain (port : Port) (src : Src) (en : Bool)
  /-- FAR_END_SIGNAL (R116). -/
  | farEndSignal (port : Port) (mask : Fin 32)
  /-- EQUALISATION_CONVERGED (R116). -/
  | equalisationConverged (port : Port) (rx tx : Fin 32)
  /-- CODEWORD_LOCK (R116). -/
  | codewordLock (port : Port)
  /-- TRAINING_TIMEOUT (R116). -/
  | trainingTimeout (port : Port)
  /-- CODEWORD_LOCK_LOSS (R98). `k` of 16 consecutive codewords are uncorrectable. -/
  | codewordLockLoss (port : Port) (k : Fin 17)
  /-- LANE_LOSS (R121). -/
  | laneLoss (port : Port) (lane : Fin 5)
  /-- NEG (R117). -/
  | neg (port : Port) (f : NegFlit) (crcOk : Bool)
  /-- NEG_INTERVAL (R117). -/
  | negInterval (port : Port)
  /-- IDLE (R100). -/
  | idle (port : Port) (hb : HT) (ackE ackN credit : BitVec 16) (spare crcOk : Bool)
  /-- ACK (R108). -/
  | ack (port : Port) (ackE ackN credit : BitVec 16) (crcOk : Bool)
  /-- NAK (R108). -/
  | nak (port : Port) (express : Bool) (seq : BitVec 16) (crcOk : Bool)
  /-- RETRAIN (R100). `sub` is the subtype of an LCTL flit that has no row of its own: 0x06, or one that R100 does not define. -/
  | retrain (port : Port) (sub : Byte) (crcOk : Bool)
  /-- FRAME_RECEIVE (R101). -/
  | frameReceive (port : Port) (express : Bool) (hdr body : List Byte) (crc : Word) (tdec : Int) (place : Nat)
  /-- HEARTBEAT_DUE (R105). -/
  | heartbeatDue (port : Port)
  /-- ACK_DUE (R108). -/
  | ackDue (port : Port)
  /-- NAK_REPEAT (R108). -/
  | nakRepeat (port : Port) (express : Bool)
  /-- REPLAY_TIMEOUT (R109). -/
  | replayTimeout (port : Port) (express : Bool)
  /-- LATENCY_CALIBRATION (R114). -/
  | latencyCalibration (port : Port)
  /-- LATENCY_CALIBRATION_DONE (R114). -/
  | latencyCalibrationDone (port : Port) (tx rx : List (Option Int))
  /-- PRT_SWAP (R120). -/
  | prtSwap (port : Port) (src : Src) (v : Word)
  /-- SWAP_REQ (R120). -/
  | swapReq (port : Port) (farDir : Fin 2) (ln : Fin 4) (block : Word) (crcOk : Bool)
  /-- SWAP_SWITCH (R120). -/
  | swapSwitch (port : Port) (ready : Word)
  /-- SWAP_ACK (R120). -/
  | swapAck (port : Port) (block : Word) (crcOk : Bool)
  /-- BULK_TRANSFER (R122). -/
  | bulkTransfer (n : Fin 4) (slot : Fin 16) (ty : Byte) (tag : BitVec 16) (addr : BitVec 96) (data : List Byte)
  /-- BULK_TRANSFER_DONE (R123). -/
  | bulkTransferDone (n : Fin 4) (tag : BitVec 16)
  /-- SYNC_INTERVAL (R130). -/
  | syncInterval (port : Port)
  /-- SYNC (R131). -/
  | sync (port : Port) (m : SyncRx)
  /-- DREQ (R131). -/
  | dreq (port : Port) (xn : BitVec 16) (rxts : HT)
  /-- SERVO_HOLD_TIMEOUT (R138). -/
  | servoHoldTimeout (port : Port)
  /-- REVERT_TIMEOUT (R142). -/
  | revertTimeout (p : PartId)
  /-- SLEW_END (R143). -/
  | slewEnd (p : PartId)
  /-- TWIN_SOURCE_TIMEOUT (R126). -/
  | twinSourceTimeout
  /-- DIFF_INTERVAL (R127). -/
  | diffInterval (p : PartId)
  /-- DIFF (R127). -/
  | diff (offs : List (Nat × Nat × Int))
  /-- SRV_LCAL_ARM (R136). -/
  | srvLcalArm (t : Fin 8) (src : Src) (x y : Fin 512)
  /-- SRV_LCAL_GO (R136). -/
  | srvLcalGo (t : Fin 8) (src : Src) (x y : Fin 512) (arm : Bool)
  /-- LOOPBACK_CALIBRATION_DONE (R136). -/
  | loopbackCalibrationDone (t : Fin 8)
  /-- BEACON (R150). -/
  | beacon (bht : HT)
  /-- KEEPER_BEACON_EDGE (R154). -/
  | keeperBeaconEdge (i : Fin 256) (phi : Int) (n str : Nat)
  /-- KEEPER_TRIGGER_FIRE (R159). -/
  | keeperTriggerFire (i : Fin 256) (out : Fin 4) (n str : Nat)
  /-- ENUM (R161). -/
  | enum (b : Fin 4) (count : Fin 65) (h : RingHdr) (at_ : EnumAt)
  /-- BEACON_FRAME (R151). -/
  | beaconFrame (rx : Fin 260) (h : RingHdr) (n : Word) (bht : HT)
  /-- KEEPER_WRITE (R161). -/
  | keeperWrite (rx : Fin 260) (h : RingHdr) (w : Fin 64) (data : Word)
  /-- KEEPER_READ (R161). -/
  | keeperRead (rx : Fin 260) (h : RingHdr) (w : Fin 64) (n str : Nat)
  /-- TARM (R159). -/
  | tarm (rx : Fin 260) (h : RingHdr) (mask : Fin 16) (target : HT) (n str : Nat)
  /-- TCAN (R161). -/
  | tcan (rx : Fin 260) (h : RingHdr) (mask : Fin 16)
  /-- FPREP (R163). -/
  | fprep (rx : Fin 260) (h : RingHdr) (k inc : Word) (chgid : Byte) (init : Bool)
  /-- FCOMMIT (R163). -/
  | fcommit (rx : Fin 260) (h : RingHdr) (k : Word) (chgid : Byte) (cancel : Bool)
  /-- RDATA (R161). -/
  | rdata (rx : Fin 260) (h : RingHdr) (w : Fin 64) (data : Word)
  /-- FACK (R162). -/
  | fack (rx : Fin 260) (h : RingHdr) (k : Word) (chgid : Byte)
  /-- FDONE (R162). -/
  | fdone (rx : Fin 260) (h : RingHdr) (k : Word) (chgid : Byte) (miss : Bool)
  /-- TEVT (R159). -/
  | tevt (rx : Fin 260) (h : RingHdr) (cmd : Fin 16) (out : Fin 4) (code : Fin 16) (t : HT)
  /-- RING_FRAME_RESEND (R160). -/
  | ringFrameResend (hop : Fin 260)
  /-- KPR_CTRL_EN (R165). -/
  | kprCtrlEn (src : Src) (en : Bool)
  /-- KPR_FCMD_GO (R162). -/
  | kprFcmdGo (src : Src) (init : Bool)
  /-- KPR_TAT_HI (R159). -/
  | kprTatHi (src : Src) (v : Word)
  /-- KPR_TCAN (R167). -/
  | kprTcan (src : Src) (v : Word)
  /-- SOB_SIG_HI (R173). -/
  | sobSigHi (e : EngSel) (src : Src) (v : Word)
  /-- SIG_FRAME (R174). -/
  | sigFrame (handle : BitVec 16) (gen : Byte) (epoch : Word) (entries : List (BitVec 16 × DWord))
  /-- FABRIC_SIGNAL_WRITE (R175). -/
  | fabricSignalWrite (beat : FabricBeat)
  /-- SIGNAL_ACCEPT (R176). -/
  | signalAccept (e : EngSel)
  /-- CONDITION_EVALUATION (R181). -/
  | conditionEvaluation (e : EngSel)
  /-- TIMER_SATISFIED (R181). -/
  | timerSatisfied (e : EngSel) (i : Fin 8192)
  /-- OBJECT_WINDOW_READ (R192). -/
  | objectWindowRead (e : EngSel) (src : Src) (obj : Fin 8192) (w : Fin 4)
  /-- OBJECT_WINDOW_WRITE (R192). -/
  | objectWindowWrite (e : EngSel) (src : Src) (obj : Fin 8192) (v : Word)
  /-- SOB_RESET (R180). -/
  | sobReset (e : EngSel) (src : Src) (v vN : Word)
  /-- SOB_RESET_DONE (R180). -/
  | sobResetDone (e : EngSel)
  /-- BALANCE_CHECK_DONE (R179). -/
  | balanceCheckDone (slot : Fin 16)
  /-- WICK_BIND (R182). -/
  | wickBind (n : Fin 256) (src : Src) (v : Word)
  /-- WICK_UNBIND (R183). -/
  | wickUnbind (n : Fin 256) (src : Src) (v : Word)
  /-- WICK_ASSERT (R187). -/
  | wickAssert
  /-- WICK_ACK (R184). -/
  | wickAck (n : Fin 256) (held : Bool)
  /-- PL_HOLD_EXPIRY (R183). -/
  | plHoldExpiry (n : Fin 256)
  /-- PRELIGHT_STAGE (R189). -/
  | prelightStage (slot : Fin 16)
  /-- SEN_CTRL_EN (R201). -/
  | senCtrlEn (e : EngSel) (src : Src) (en : Bool)
  /-- PLL_LOCK (R201). -/
  | pllLock (e : EngSel)
  /-- SCRUB_READ (R204). -/
  | scrubRead (e : EngSel) (upsets : List Upset)
  /-- CTX_START (R206). -/
  | ctxStart (e : EngSel) (c : Fin 16) (src : Src)
  /-- CTX_STOP (R206). -/
  | ctxStop (e : EngSel) (c : Fin 16) (src : Src)
  /-- CTX_CLEAR (R206). -/
  | ctxClear (e : EngSel) (c : Fin 16) (src : Src)
  /-- CTX_STEP (R206). -/
  | ctxStep (e : EngSel) (c : Fin 16) (src : Src)
  /-- STOP_COMPLETE (R207). -/
  | stopComplete (e : EngSel) (c : Fin 16)
  /-- IMEM_WINDOW_WRITE (R210). -/
  | imemWindowWrite (e : EngSel) (src : Src) (word : BitVec 18) (v : Word)
  /-- DMEM_WINDOW_WRITE (R210). -/
  | dmemWindowWrite (e : EngSel) (src : Src) (word : BitVec 18) (v : Word)
  /-- CONTEXT_REGISTER_WINDOW_WRITE (R211). -/
  | contextRegisterWindowWrite (e : EngSel) (src : Src) (word : BitVec 11) (v : Word)
  /-- ASYNC_COMPLETION (R239). -/
  | asyncCompletion (e : EngSel)
  /-- FX (R215). -/
  | fx (x : CtxRef) (imm : BitVec 26)
  /-- ADD (R218). -/
  | add (x : CtxRef) (d a b : Fin 32)
  /-- SUB (R218). -/
  | sub (x : CtxRef) (d a b : Fin 32)
  /-- AND (R218). -/
  | and (x : CtxRef) (d a b : Fin 32)
  /-- OR (R218). -/
  | or (x : CtxRef) (d a b : Fin 32)
  /-- XOR (R218). -/
  | xor (x : CtxRef) (d a b : Fin 32)
  /-- SHL (R218). -/
  | shl (x : CtxRef) (d a b : Fin 32)
  /-- SHR (R218). -/
  | shr (x : CtxRef) (d a b : Fin 32)
  /-- SAR (R218). -/
  | sar (x : CtxRef) (d a b : Fin 32)
  /-- MIN (R218). -/
  | min (x : CtxRef) (d a b : Fin 32)
  /-- MAX (R218). -/
  | max (x : CtxRef) (d a b : Fin 32)
  /-- MOV (R218). -/
  | mov (x : CtxRef) (d a : Fin 32)
  /-- MUL (R218). -/
  | mul (x : CtxRef) (d a b : Fin 32)
  /-- MULH (R218). -/
  | mulh (x : CtxRef) (d a b : Fin 32)
  /-- CMPEQ (R218). -/
  | cmpeq (x : CtxRef) (d : Fin 8) (a b : Fin 32)
  /-- CMPLT (R218). -/
  | cmplt (x : CtxRef) (d : Fin 8) (a b : Fin 32)
  /-- CMPLTU (R218). -/
  | cmpltu (x : CtxRef) (d : Fin 8) (a b : Fin 32)
  /-- ADDI (R219). -/
  | addi (x : CtxRef) (d a : Fin 32) (imm : BitVec 16)
  /-- ANDI (R219). -/
  | andi (x : CtxRef) (d a : Fin 32) (imm : BitVec 16)
  /-- ORI (R219). -/
  | ori (x : CtxRef) (d a : Fin 32) (imm : BitVec 16)
  /-- XORI (R219). -/
  | xori (x : CtxRef) (d a : Fin 32) (imm : BitVec 16)
  /-- LUI (R219). -/
  | lui (x : CtxRef) (d : Fin 32) (imm : BitVec 16)
  /-- BR (R224). -/
  | br (x : CtxRef) (cond : Option (Fin 8 × Bool)) (off : BitVec 16)
  /-- BEQ (R224). -/
  | beq (x : CtxRef) (a b : Fin 32) (off : BitVec 16)
  /-- BNE (R224). -/
  | bne (x : CtxRef) (a b : Fin 32) (off : BitVec 16)
  /-- BLT (R224). -/
  | blt (x : CtxRef) (a b : Fin 32) (off : BitVec 16)
  /-- BGE (R224). -/
  | bge (x : CtxRef) (a b : Fin 32) (off : BitVec 16)
  /-- BLTU (R224). -/
  | bltu (x : CtxRef) (a b : Fin 32) (off : BitVec 16)
  /-- BGEU (R224). -/
  | bgeu (x : CtxRef) (a b : Fin 32) (off : BitVec 16)
  /-- CALL (R224). -/
  | call (x : CtxRef) (a : Fin 32) (off : BitVec 16)
  /-- RET (R224). -/
  | ret (x : CtxRef) (a : Fin 32)
  /-- HALT (R224). -/
  | halt (x : CtxRef)
  /-- FADD (R221). -/
  | fadd (x : CtxRef) (md : Rnd) (d a b : Fin 32)
  /-- FSUB (R221). -/
  | fsub (x : CtxRef) (md : Rnd) (d a b : Fin 32)
  /-- FMUL (R221). -/
  | fmul (x : CtxRef) (md : Rnd) (d a b : Fin 32)
  /-- FDIV (R221). -/
  | fdiv (x : CtxRef) (md : Rnd) (d a b : Fin 32)
  /-- FSQRT (R221). -/
  | fsqrt (x : CtxRef) (md : Rnd) (d a : Fin 32)
  /-- FMIN (R221). -/
  | fmin (x : CtxRef) (d a b : Fin 32)
  /-- FMAX (R221). -/
  | fmax (x : CtxRef) (d a b : Fin 32)
  /-- FFMA (R221). -/
  | ffma (x : CtxRef) (md : Rnd) (d a b : Fin 32)
  /-- FCVT_F2I (R222). -/
  | fcvtF2i (x : CtxRef) (md : Rnd) (d a : Fin 32)
  /-- FCVT_F2U (R222). -/
  | fcvtF2u (x : CtxRef) (md : Rnd) (d a : Fin 32)
  /-- FCVT_I2F (R222). -/
  | fcvtI2f (x : CtxRef) (md : Rnd) (d a : Fin 32)
  /-- FCVT_U2F (R222). -/
  | fcvtU2f (x : CtxRef) (md : Rnd) (d a : Fin 32)
  /-- FCVT_RI (R222). -/
  | fcvtRi (x : CtxRef) (md : Rnd) (d a : Fin 32)
  /-- FCMP_EQ (R223). -/
  | fcmpEq (x : CtxRef) (d : Fin 8) (a b : Fin 32)
  /-- FCMP_LT (R223). -/
  | fcmpLt (x : CtxRef) (d : Fin 8) (a b : Fin 32)
  /-- FCMP_LE (R223). -/
  | fcmpLe (x : CtxRef) (d : Fin 8) (a b : Fin 32)
  /-- FCMP_UN (R223). -/
  | fcmpUn (x : CtxRef) (d : Fin 8) (a b : Fin 32)
  /-- LD (R226). -/
  | ld (x : CtxRef) (d a : Fin 32) (imm : BitVec 16)
  /-- LDW (R226). -/
  | ldw (x : CtxRef) (d a : Fin 32) (imm : BitVec 16)
  /-- LDH (R226). -/
  | ldh (x : CtxRef) (d a : Fin 32) (off : BitVec 10)
  /-- LDB (R226). -/
  | ldb (x : CtxRef) (d a : Fin 32) (off : BitVec 10)
  /-- ST (R227). -/
  | st (x : CtxRef) (d a : Fin 32) (imm : BitVec 16)
  /-- STW (R227). -/
  | stw (x : CtxRef) (d a : Fin 32) (imm : BitVec 16)
  /-- STH (R227). -/
  | sth (x : CtxRef) (d a : Fin 32) (off : BitVec 10)
  /-- STB (R227). -/
  | stb (x : CtxRef) (d a : Fin 32) (off : BitVec 10)
  /-- GETC (R228). -/
  | getc (x : CtxRef) (d a : Fin 32) (imm : BitVec 16)
  /-- PUTC (R228). -/
  | putc (x : CtxRef) (d a : Fin 32) (imm : BitVec 16)
  /-- HTR (R242). -/
  | htr (x : CtxRef) (td : Fin 8)
  /-- TADD (R242). -/
  | tadd (x : CtxRef) (td ta : Fin 8) (a : Fin 32) (imm : BitVec 15)
  /-- TDIFF (R242). -/
  | tdiff (x : CtxRef) (td ta : Fin 8) (a : Fin 32)
  /-- TCMP (R242). -/
  | tcmp (x : CtxRef) (p td ta : Fin 8) (r : TRel)
  /-- WAITT (R242). -/
  | waitt (x : CtxRef) (ta : Fin 8) (a : Fin 32)
  /-- WAITT_TARGET (R242). -/
  | waittTarget (e : EngSel) (c : Fin 16)
  /-- TRIG (R243). -/
  | trig (x : CtxRef) (ta : Fin 8) (a : Fin 32) (imm : BitVec 15)
  /-- CAPT (R243). -/
  | capt (x : CtxRef) (td : Fin 8) (a : Fin 32) (ch : BitVec 5)
  /-- SIG (R244). -/
  | sig (x : CtxRef) (obj : Fin 8192) (a : Fin 32) (dst : SigTo)
  /-- WAIT (R245). -/
  | wait (x : CtxRef) (obj : Fin 8192) (a : Fin 32) (consume timed : Bool) (td : Fin 8)
  /-- WAIT_DEADLINE (R245). -/
  | waitDeadline (e : EngSel) (c : Fin 16)
  /-- POLL (R244). -/
  | poll (x : CtxRef) (obj : Fin 8192) (a : Fin 32) (consume : Bool)
  /-- OBJSET (R178). -/
  | objset (x : CtxRef) (obj : Fin 8192) (a : Fin 32)
  /-- OBJGET (R244). -/
  | objget (x : CtxRef) (obj : Fin 8192) (a : Fin 32) (stamp : Bool)
  /-- BIND (R244). -/
  | bind (x : CtxRef) (obj : Fin 8192) (a : Fin 32) (consume oneshot : Bool) (plgrp : Fin 16)
  /-- BIND_UNBIND (R244). -/
  | bindUnbind (x : CtxRef) (obj : Fin 8192) (a : Fin 32) (consume oneshot : Bool) (plgrp : Fin 16)
  /-- PRELIT (R189). -/
  | prelit (x : CtxRef) (ta : Fin 8) (a : Fin 32)
  /-- CGUARD (R244). -/
  | cguard (x : CtxRef) (obj : Fin 8192) (a : Fin 32) (wick : Fin 256)
  /-- ARM (R246). -/
  | arm (x : CtxRef) (obj : Fin 8192) (a : Fin 32) (timed : Bool) (td : Fin 8)
  /-- RELEASE (R246). -/
  | release (x : CtxRef) (obj : Fin 8192) (a : Fin 32)
  /-- GATE (R246). -/
  | gate (x : CtxRef) (obj : Fin 8192) (a : Fin 32) (n : Fin 8)
  /-- CONTRIB (R246). -/
  | contrib (x : CtxRef) (obj : Fin 8192) (a : Fin 32)
  /-- RESULT (R248). -/
  | result (x : CtxRef) (d a b : Fin 32) (td : Option (Fin 8))
  /-- LAUNCH (R246). -/
  | launch (x : CtxRef) (a : Fin 32) (ta : Fin 8) (obj : Fin 8192)
  /-- PHASE (R246). -/
  | phase (x : CtxRef) (a : Fin 32) (ta : Fin 8) (obj : Fin 8192)
  /-- PLAN (R246). -/
  | plan (x : CtxRef) (a : Fin 32) (ta : Fin 8) (obj : Fin 8192)
  /-- SNAP (R249). -/
  | snap (x : CtxRef) (obj : Fin 8192) (a : Fin 32)
  /-- WINDOW (R249). -/
  | window (x : CtxRef) (a : Fin 32) (ta : Fin 8) (obj : Fin 8192)
  /-- COMMIT (R350). -/
  | commit (x : CtxRef) (obj : Fin 8192) (a : Fin 32)
  /-- REBUILD (R352). -/
  | rebuild (x : CtxRef) (obj : Fin 8192) (a : Fin 32)
  /-- EVICT (R316). -/
  | evict (x : CtxRef) (obj : Fin 8192) (a : Fin 32)
  /-- SHADOW_START (R322). -/
  | shadowStart (x : CtxRef) (obj : Fin 8192) (a : Fin 32)
  /-- SHADOW_ADMIT (R326). -/
  | shadowAdmit (x : CtxRef) (obj : Fin 8192) (a : Fin 32)
  /-- SHADOW_ABANDON (R326). -/
  | shadowAbandon (x : CtxRef) (obj : Fin 8192) (a : Fin 32)
  /-- JNL (R250). -/
  | jnl (x : CtxRef) (d a b : Fin 32) (code : Byte)
  /-- JFLUSH (R250). -/
  | jflush (x : CtxRef) (obj : Fin 8192) (a : Fin 32)
  /-- UPD (R250). -/
  | upd (x : CtxRef) (a : Fin 32) (ta : Fin 8) (obj : Fin 8192) (job : Bool)
  /-- JOBCMD (R240). -/
  | jobcmd (origin : HT) (node : BitVec 20) (handle : BitVec 16) (gen : Byte) (epoch : Word) (opcode sub : Nat) (operand tick : DWord) (tag : Fin 8)
  /-- JOBCMD_DONE (R240). -/
  | jobcmdDone (handle : BitVec 16) (gen : Byte) (epoch : Word) (tag : Fin 8) (code : Code) (value : DWord) (late : Word)
  /-- ARM_REQ (R259). -/
  | armReq (origin : HT) (node root : BitVec 20) (handle : BitVec 16) (gen : Byte) (rank : BitVec 20) (earliest : HT) (leaf : BitVec 20) (v3 : Bool)
  /-- ORDER_HOLD_RELEASE (R260). -/
  | orderHoldRelease
  /-- ARM_TIMEOUT (R259). -/
  | armTimeout (k : Fin 1024)
  /-- ARM_ACK (R254). -/
  | armAck (dst : Option RelayTo) (handle : BitVec 16) (gen : Byte) (epoch : Word) (l : HT) (floor : BitVec 4) (pre : Word)
  /-- ARM_REFUSE (R254). -/
  | armRefuse (handle : BitVec 16) (gen : Byte) (code : Code)
  /-- RELEASE_REQ (R275). -/
  | releaseReq (origin : HT) (node : BitVec 20) (handle : BitVec 16) (gen : Byte) (rank : BitVec 20)
  /-- RELEASE_AT (R275). -/
  | releaseAt (handle : BitVec 16) (gen : Byte) (epoch : Word) (f : HT)
  /-- RELEASE_TICK (R275). -/
  | releaseTick (c : Fin 16)
  /-- RELEASE_AT_TIMEOUT (R275). -/
  | releaseAtTimeout (c : Fin 16)
  /-- GATE_FRAME (R262). -/
  | gateFrame (origin : HT) (handle : BitVec 16) (gen : Byte) (epoch : Word) (status : DWord) (seq : BitVec 16) (n : Byte)
  /-- GATE_PART (R262). -/
  | gatePart (handle : BitVec 16) (gen : Byte) (epoch : Word) (or_ and_ : DWord) (count : Word) (seq : BitVec 16)
  /-- GATE_DEADLINE (R265). -/
  | gateDeadline (k : Fin 1024) (missing : List (BitVec 20))
  /-- LAUNCH_FRAME (R267). -/
  | launchFrame (handle : BitVec 16) (gen : Byte) (epoch : Word) (l : HT) (gateSeq : BitVec 16) (forGate : Bool) (resSeq : BitVec 16) (status : DWord × DWord × Nat)
  /-- LAUNCH_INSTANT (R254). -/
  | launchInstant (j : JobAt)
  /-- ABORT (R254). -/
  | abort (handle : BitVec 16) (gen : Byte) (epoch : Word)
  /-- REPLAN (R318). -/
  | replan (dst : Option RelayTo) (handle : BitVec 16) (gen : Byte) (epoch : Word) (dom : Fin 2)
  /-- PHASE_FRAME (R271). -/
  | phaseFrame (dst : Option RelayTo) (handle : BitVec 16) (gen : Byte) (epoch : Word) (t : HT) (map : Fin 16) (rank : BitVec 20)
  /-- PHASE_TICK (R271). -/
  | phaseTick (j : JobAt)
  /-- RESTORE (R352). -/
  | restore (handle : BitVec 16) (gen : Byte) (epoch : Word) (tr : HT) (gateSeq : BitVec 16)
  /-- REPLAY_END (R254). -/
  | replayEnd (handle : BitVec 16) (gen : Byte) (epoch : Word) (tick : HT)
  /-- RAMP_REQ (R273). -/
  | rampReq (origin : HT) (node : BitVec 20) (handle : BitVec 16) (e : HT) (plw : BitVec 16) (span : Byte) (pre : Bool) (ranks : List (BitVec 20))
  /-- RAMP_OFFER (R273). -/
  | rampOffer (handle : BitVec 16) (leaf : BitVec 20) (offer : Sum HT Code)
  /-- RAMP_FIX (R273). -/
  | rampFix (handle : BitVec 16) (l : HT)
  /-- RAMP_CONFIRM (R273). -/
  | rampConfirm (handle : BitVec 16) (leaf : BitVec 20) (l : HT) (pre : List (Nat × Nat))
  /-- RAMP_HOLD_LAPSE (R273). -/
  | rampHoldLapse (handle : BitVec 16)
  /-- CONTRIB_FRAME (R283). -/
  | contribFrame (origin : HT) (handle : BitVec 16) (gen : Byte) (epoch : Word) (seq : BitVec 16) (coll : Bool) (idx : Fin 4) (shape : Word) (nspill : Byte) (spill : DWord) (rank : BitVec 20) (first : Byte) (elems : List DWord) (last check : Bool)
  /-- PARTIAL (R286). -/
  | partialFrame (handle : BitVec 16) (gen : Byte) (epoch : Word) (seq : BitVec 16) (coll : Bool) (idx : Fin 4) (shape : Word) (nspill : Byte) (spill : DWord) (poison integrity : Bool) (first : Byte) (elems : List WElem) (contributors : BitVec 20) (last check : Bool)
  /-- RESULT_FRAME (R301). -/
  | resultFrame (handle : BitVec 16) (gen : Byte) (epoch : Word) (coll : Bool) (seq : BitVec 16) (idx : Fin 4) (last : Bool) (data : List Byte)
  /-- SCAN_RESULT (R290). -/
  | scanResult (handle : BitVec 16) (gen : Byte) (epoch : Word) (coll : Bool) (seq : BitVec 16) (idx : Fin 4) (last : Bool) (data : List Byte)
  /-- SPILL_IN (R297). -/
  | spillIn (port : Fin 4) (handle : BitVec 16) (gen : Byte) (epoch : Word) (seq : BitVec 16) (coll : Bool) (idx : Fin 4) (shape : Word) (nspill : Byte) (spill : DWord) (rank : BitVec 20) (first : Byte) (elems : List DWord) (last : Bool) (contributors : BitVec 20) (check : Bool)
  /-- SPILL_OUT (R298). -/
  | spillOut (node : BitVec 20) (handle : BitVec 16) (gen : Byte) (epoch : Word) (seq : BitVec 16) (coll : Bool) (idx : Fin 4) (code : Code) (poison integrity : Bool) (first : Byte) (elems : List WElem) (last check : Bool)
  /-- SPILL_TIMEOUT (R298). -/
  | spillTimeout (p : PartId) (t : Fin 8) (check : Bool)
  /-- QUEUE_GRANT (R296). -/
  | queueGrant (t : Fin 8) (check : Bool)
  /-- SUSPECT_TIMEOUT (R308). -/
  | suspectTimeout (pos : Fin 512)
  /-- CONFIRM_TIMEOUT (R309). -/
  | confirmTimeout (pos : Fin 512)
  /-- ONESIDE_TIMEOUT (R308). -/
  | onesideTimeout (pos : Fin 512)
  /-- SUSPECT (R309). -/
  | suspect (node : BitVec 20) (since : HT)
  /-- CONFIRM (R309). -/
  | confirm (node : BitVec 20) (heard : Bool)
  /-- DEAD (R317). -/
  | dead (origin : HT) (src node : BitVec 20) (cause : Fin 6) (dies : List (BitVec 20))
  /-- MIRROR_ACK (R318). -/
  | mirrorAck (m : Machine.TwinMsg)
  /-- MIRROR_TIMEOUT (R318). -/
  | mirrorTimeout (k : Fin 1024)
  /-- FENCE (R313). -/
  | fence
  /-- SELF_FENCE (R313). -/
  | selfFence
  /-- UNFENCE (R315). -/
  | unfence
  /-- FSTATE (R313). -/
  | fstate (n : Fin 256) (fenced : Bool)
  /-- SUSPECT_RPT (R308). -/
  | suspectRpt (node : BitVec 20)
  /-- EVICT_REQ (R316). -/
  | evictReq (node : BitVec 20)
  /-- UNFENCE_REQ (R315). -/
  | unfenceReq (node : BitVec 20)
  /-- MBR_FENCE_FENCE (R308). -/
  | mbrFenceFence (src : Src) (pos : Fin 512)
  /-- MBR_FENCE_UNFENCE (R315). -/
  | mbrFenceUnfence (src : Src) (pos : Fin 512)
  /-- PATH_LOST (R312). -/
  | pathLost (node : BitVec 20)
  /-- LEAF_LOST (R311). -/
  | leafLost (origin : HT) (src leaf twin : BitVec 20)
  /-- SHADOW_ON (R322). -/
  | shadowOn (dst : Option RelayTo) (handle : BitVec 16) (gen : Byte) (epoch : Word) (shadow : Bool) (partner : BitVec 20)
  /-- SHADOW_OFF (R326). -/
  | shadowOff (dst : Option RelayTo) (handle : BitVec 16) (gen : Byte) (epoch : Word) (admitted : Bool) (rank : BitVec 20)
  /-- DIGEST (R325). -/
  | digest (handle : BitVec 16) (gen : Byte) (epoch : Word) (node : BitVec 20) (seq : BitVec 16) (coll shadow : Bool) (digest : BitVec 128)
  /-- MISMATCH (R327). -/
  | mismatch (handle : BitVec 16) (gen : Byte) (epoch : Word) (seq : BitVec 16) (coll : Bool)
  /-- CONDSUSP (R329). -/
  | condsusp (node : BitVec 20) (bin : Fin 32) (clear : Bool)
  /-- HLT_SENT_RES3 (R328). -/
  | hltSentRes3 (src : Src) (v : Word)
  /-- HLT_BIN_CLR (R329). -/
  | hltBinClr (src : Src) (mask : Word)
  /-- MBR_JEVT_READ (R320). -/
  | mbrJevtRead (src : Src)
  /-- FR_PERIOD (R330). -/
  | frPeriod (liveSeconds : Nat)
  /-- SNAP_REQ (R341). -/
  | snapReq (handle : BitVec 16) (gen : Byte) (epoch : Word) (node : BitVec 20) (slot : Fin 32) (b wofs : Word) (wlen : BitVec 16)
  /-- OPEN (R341). -/
  | openEpoch (p : PartId) (handle : BitVec 16) (gen : Byte) (epoch : Word) (slot : Fin 32) (l : HT) (b wofs : Word) (wlen : BitVec 16)
  /-- OPEN_REFUSE (R341). -/
  | openRefuse (handle : BitVec 16) (gen : Byte) (epoch : Word) (slot : Fin 32) (code : Code)
  /-- LEAF_WINDOW_OPEN (R344). -/
  | leafWindowOpen (set : Fin 128) (slot : Fin 32)
  /-- LEAF_WINDOW_CLOSE (R345). -/
  | leafWindowClose (set : Fin 128) (slot : Fin 32)
  /-- BULK_DATA (R339). -/
  | bulkData (n : Fin 256) (handle : BitVec 16) (gen : Byte) (epoch : Word) (slot : Fin 32) (half : Fin 2) (block off : Word) (data : List Byte)
  /-- BULK_ZERO (R339). -/
  | bulkZero (n : Fin 256) (handle : BitVec 16) (gen : Byte) (epoch : Word) (slot : Fin 32) (half : Fin 2) (block : Word)
  /-- BULK_RESEND (R353). -/
  | bulkResend (n : Fin 256) (handle : BitVec 16) (gen : Byte) (epoch : Word) (slot : Fin 32) (half : Fin 2) (block off : Word) (data : List Byte)
  /-- SLOW_PATH_MERGE (R346). -/
  | slowPathMerge (set : Fin 128) (slot : Fin 32)
  /-- SYND (R340). -/
  | synd (at_ : SyndAt) (handle : BitVec 16) (gen : Byte) (epoch off : Word) (data : List Byte)
  /-- BULK_RESTORE (R435). -/
  | bulkRestore (port : Fin 4) (handle : BitVec 16) (gen : Byte) (epoch : Word) (addr : BitVec 96) (off : Word) (data : List Byte)
  /-- PREPARE (R349). -/
  | prepare (handle : BitVec 16) (gen : Byte) (epoch : Word) (slot : Fin 32)
  /-- PREPARE_TIMEOUT (R349). -/
  | prepareTimeout (handle : BitVec 16) (slot : Fin 32)
  /-- PREPARED (R350). -/
  | prepared (handle : BitVec 16) (gen : Byte) (epoch : Word) (leaf : BitVec 20) (slot : Fin 32) (answer : Fin 5)
  /-- COMMIT_MESSAGE (R349). -/
  | commitMessage (p : PartId) (handle : BitVec 16) (gen : Byte) (epoch : Word) (slot : Fin 32)
  /-- DISCARD (R351). -/
  | discard (p : PartId) (handle : BitVec 16) (gen : Byte) (epoch : Word) (slot : Fin 32) (code : Code)
  /-- REBUILD_REQ (R353). -/
  | rebuildReq (handle : BitVec 16) (gen : Byte) (epoch mask : Word) (ts : HT) (pairs : List (BitVec 20 × BitVec 20))
  /-- REBUILD_WINDOW (R353). -/
  | rebuildWindow (handle : BitVec 16)
  /-- REBUILT (R352). -/
  | rebuilt (handle : BitVec 16) (gen : Byte) (epoch : Word) (leaf : BitVec 20) (code : Code) (erasures : Fin 4)
  /-- FABRIC_COMPLETION (R432). -/
  | fabricCompletion (lifetime err : Bool)
  /-- SPILL_RETRY (R367). -/
  | spillRetry
  /-- LIF_CTRL_LOAD (R374). -/
  | lifCtrlLoad (p : PartId) (src : Src)
  /-- LIF_CTRL_SAVE (R374). -/
  | lifCtrlSave (p : PartId) (src : Src)
  /-- LIF_CTRL_FRESH (R374). -/
  | lifCtrlFresh (p : PartId) (src : Src)
  /-- SAVE_INTERVAL (R375). -/
  | saveInterval (p : PartId)
  /-- LIFETIME_SAVE_DONE (R375). -/
  | lifetimeSaveDone (p : PartId) (ok : Bool)
  /-- TREND_UPDATE (R376). -/
  | trendUpdate (p : PartId) (events : List (TrendUnit × Nat))
  /-- HBM_CHANNEL_MOVE_DONE (R377). -/
  | hbmChannelMoveDone (c : Fin 768)
  /-- MGMT_READ (R413). -/
  | mgmtRead (port : Port) (addr : Word) (n1 : Fin 8) (tag : BitVec 16)
  /-- MGMT_WRITE (R413). -/
  | mgmtWrite (port : Port) (addr : Word) (tag : BitVec 16) (words : List Word)
  /-- RSP (R423). -/
  | rsp (port : Port) (tag : BitVec 16) (code : Code) (done : Fin 9) (words : List Word)
  /-- TIL_MREQ_GO (R423). -/
  | tilMreqGo (t : Fin 8) (src : Src)
  /-- MREQ_TIMEOUT (R423). -/
  | mreqTimeout (t : Fin 8)
  /-- WS_REGACC (R442). -/
  | wsRegacc (p : PartId) (write : Bool) (word : BitVec 24) (data : Word)
  /-- WS_MBIST (R442). -/
  | wsMbist (p : PartId) (go : Bool) (fail : Option (BitVec 16))
  /-- PERST_N (R463). -/
  | perstN (seven : Bool)
  /-- SUPPLY_FAULT (R457). -/
  | supplyFault
  /-- HELD_RESET_RELEASE (R457). -/
  | heldResetRelease (f : Fuses) (oscIn norOk : Bool)
  /-- THERMTRIP (R453). -/
  | thermtrip
  /-- BAND_SAMPLE (R452). -/
  | bandSample (tiles : List (Fin 8 × Int)) (stks : List (Fin 24 × Int))
  /-- HBM_TRAINED (R468). -/
  | hbmTrained (stks : BitVec 24)
  /-- BOOT_ROM (R470). -/
  | bootRom (a0 b0 a7 b7 : Option BootImage)
  /-- MESH_EDGE_DOWN (R451). -/
  | meshEdgeDown (t u : Fin 8)
  /-- MESH_ISOLATION (R451). -/
  | meshIsolation (t : Fin 8)
  /-- HKP_WATCHDOG_EXPIRY (R420). -/
  | hkpWatchdogExpiry
  /-- HKP_KICK (R420). -/
  | hkpKick (src : Src) (v : Word)
  /-- HKP_CTRL_TAKEOVER (R420). -/
  | hkpCtrlTakeover (src : Src)
  /-- HKP_H2P3 (R420). -/
  | hkpH2p3 (src : Src) (v : Word)
  /-- HKP_P2H3 (R420). -/
  | hkpP2h3 (src : Src) (v : Word)
  /-- I3C_PRIVATE_WRITE (R465). -/
  | i3cPrivateWrite (seven : Bool) (addr : Word) (words : List Word)
  /-- I3C_PRIVATE_READ (R465). -/
  | i3cPrivateRead (seven : Bool) (n : Fin 1024)
  /-- CALINFO_INTERVAL (R57). -/
  | calinfoInterval
  /-- MESH_EDGE_UP (R451). -/
  | meshEdgeUp (t u : Fin 8)
  /-- REBUILD_PREP_TO (R353). -/
  | rebuildPrepTo (handle : BitVec 16)
  /-- T_R_REACHED (R352). -/
  | tRReached (j : JobAt)
  /-- CROSSING_FIFO_OVERRUN (R160). -/
  | crossingFifoOverrun (rx : Fin 260)
  /-- PATROL_SCRUB (R419). -/
  | patrolScrub (err : Option (HbmAt × Bool))
  /-- ILLEGAL (R217). -/
  | illegal (x : CtxRef) (word : Word)
  /-- IFETCH (R203). -/
  | ifetch (x : CtxRef)
  deriving DecidableEq, Repr

end Sys2Proof
end

