-- ==== Sys2Proof/Machine/State.lean ====
section
/-!
DEFINITION. The state of the block: everything the spec gives a Dornex T3 TSU and a Limrudin D3 distributor, as plain data,
and the queue of the commands that wait. A register's word lives in its part's register map (`Part.regs`) and nowhere else,
unless a structure below names it; sparse maps are in the canonical form of `mwf`.
-/
namespace Sys2Proof.Machine

/-! ### Journal (R362–R370) -/

/-- A part's journal. The TSU keeps at most 2,048 records on die (R366) and spills them to the host (R367);
the distributor's tiles share one ring in HBM (R370). -/
structure Journal where
  /-- TSU: records on die, oldest first. Distributor: the ring, oldest first. -/
  recs : List JRec := []
  /-- Records numbered since the wipe (JNL_HEAD). -/
  count : Nat := 0
  /-- Distributor: next SEQ of each tile (TIL_JSEQ), by tile; reset 0. -/
  tileSeq : List (Nat × Nat) := []
  /-- Distributor: records in each tile's 64-entry write buffer, by tile; reset 0. -/
  wbuf : List (Nat × Nat) := []
  /-- TSU: numbers of the records whose spill write is outstanding. -/
  outstanding : List Nat := []
  /-- TSU: numbers of the records whose spill write failed and is repeated (R367). -/
  failed : List Nat := []
  /-- TSU: numbers, at or above SPILL_WR, reported complete or discarded. -/
  settled : List Nat := []
  /-- TSU: next record number to send to the host ring. -/
  nextSpill : Nat := 0
  /-- TSU: JNL_SPILL_WR. -/
  spillWr : Nat := 0
  /-- Discards not yet reported by a LOSS record: how many, and the HT and SEQ of the first (R368). -/
  loss : Option (Nat × HT × Nat) := none
  deriving DecidableEq, Repr

/-! ### Register space (R23–R49) -/

/-- A guarded operation whose value has been written and whose complement must be the very next write (R38). -/
structure GuardOpen where
  addr : Nat
  value : Word
  src : Src
  deriving DecidableEq, Repr

/-- An outstanding asynchronous operation of a step-engine context: engine, context, and the tag of its completion
record (R239). -/
structure OpRef where
  eng : EngSel
  ctx : Nat
  tag : Nat
  seq : Nat := 0
  deriving DecidableEq, Repr

/-- How a strobe was requested (R35, R36): at once, by register, by UPD, or by a STROBE frame of given class and type. -/
inductive StrobeKind where
  | immediate
  | register
  | upd (pc : Nat) (op : Option OpRef)
  | frame (cls ty : Nat)
  deriving DecidableEq, Repr

/-- A queued strobe: its target, the instant from which it is due (its target, or just after the present where that had passed), its block
mask and its requester. It applies on the tick of that instant (`State.tickAt`). -/
structure StrobeReq where
  target : HT
  due : HT
  mask : Nat
  src : Src
  kind : StrobeKind
  /-- Its target had already passed when it was queued. -/
  late : Bool := false
  deriving DecidableEq, Repr

/-- A life-cycle request at the life-cycle store (R46, R441). -/
structure LcRequest where
  target : Nat
  force : Bool
  src : Src
  deriving DecidableEq, Repr

/-! ### Time base (R50–R72) -/

/-- The HT count of a part and what steers it. -/
structure TimeBase where
  ht : HT := 0
  /-- The 24-bit sub-hu accumulator of R50. -/
  sub : Nat := 0
  /-- Edges of the time clock since reset: the coarse count of R74. -/
  edgeNo : Nat := 0
  /-- The servo's part of the rate adjustment, -(kp e + I)/T of R139, signed, units of 2^-40; SLEWRATE and the limit of ±2^-12 come to it
  as it is applied (`TimeBase.applied`). -/
  rate : Int := 0
  /-- The remaining slew REM of R143, signed, in 2^-24 hu. -/
  rem : Int := 0
  /-- An accepted HT set, loaded on the next tick (R54). -/
  htSet : Option (HT × Src) := none
  /-- HOLD_S is counting: the part entered HOLDOVER and has not locked again (R58). -/
  holding : Bool := false
  /-- The rate adjustment at the entry to HOLDOVER (R70). -/
  holdRate : Int := 0
  /-- HT at the entry to HOLDOVER, or at the HT set that restarted its count (R55, R70). -/
  holdAt : HT := 0
  /-- Whether the follower has locked to a domain since reset (R60). -/
  everLocked : Bool := false
  /-- Whether the follower is locked to the domain it follows (R60). -/
  locked : Bool := false
  /-- Received CALINFOs waiting for their effective ticks: tick, CAL_HT, CAL_S, CAL_NS, CAL_RATE, UTC_OFF (R145). -/
  calinfo : List (HT × List Nat) := []
  deriving DecidableEq, Repr

/-- The term that R69 has added to CAL_RATE, and the whole seconds of HT for which it stays there. -/
structure CalTerm where
  term : Int
  from_ : HT
  until_ : HT
  deriving DecidableEq, Repr

/-- The time-receiver of R67. -/
structure PtpState where
  /-- The selected transmitter, by what its Announce carries, and the HT of its latest Sync or Announce (R68). -/
  best : Option PtpData := none
  heard : HT := 0
  /-- A two-step Sync that waits for its Follow_Up: sequence and time-stamp. -/
  wait : Option (Nat × HT) := none
  /-- The latest Sync that is complete: its origin in hu of TAI and its time-stamp. -/
  last : Option (Int × HT) := none
  /-- A two-step peer delay response that waits for its follow-up: sequence, departure of the request, arrival of the response. -/
  peer : Option (Nat × HT × HT) := none
  /-- Mean path delay in hu. -/
  delay : Int := 0
  /-- Consecutive Sync intervals within ±100 ns (R68). -/
  good : Nat := 0
  deriving DecidableEq, Repr

/-- The reference loop of a distributor (R61–R70). -/
structure OscState where
  /-- Milliseconds for which the oven pin has been high (R61). -/
  ovenMs : Nat := 0
  /-- The first oven sample since reset has been taken (R59). -/
  sampled : Bool := false
  /-- The time-clock PLL took OSC_IN at reset (R461), not AON_CLK. -/
  pllOnOsc : Bool := true
  /-- The oscillator input was lost; the PLL runs free until a reset (R63). -/
  lost : Bool := false
  ext10mQual : Bool := false
  ppsQual : Bool := false
  ptpQual : Bool := false
  /-- Consecutive 1PPS edges within ±50 ns of prediction, and consecutive missing pulses (R68). -/
  ppsGood : Nat := 0
  ppsMiss : Nat := 0
  /-- HT of the last 1PPS edge. -/
  ppsLast : Option HT := none
  /-- The time-receiver (R67). -/
  ptp : PtpState := {}
  /-- The term the loop has added to CAL_RATE to remove the calendar error (R69). -/
  calTerm : Option CalTerm := none
  /-- The code last written to the DAC (R64). -/
  dac : Nat := 0x8000
  /-- The codes of the previous 1,000 s: how many in the running second and their sum, and the sums of whole seconds, the latest first
  (R70). -/
  dacN : Nat := 0
  dacSum : Nat := 0
  dacSecs : List Nat := []
  /-- The code held in HOLDOVER, in 2^-32 of a code: the ageing slope moves it once a second (R70). -/
  holdCode : Int := 0
  deriving DecidableEq, Repr

/-! ### Interval measurement and fine triggers (R73–R94) -/

/-- A converted TDC event waiting in its channel's FIFO (R79, R80). -/
structure TdcResult where
  value : DWord
  ovf : Bool
  uncal : Bool
  stale : Bool
  falling : Bool
  seq : Nat
  raw : Nat
  deriving DecidableEq, Repr

/-- A start event of INTERVAL mode: the number of its time-clock edge, its fraction and its start sequence (R75). -/
structure TdcStart where
  edge : Nat
  frac : Int
  seq : Nat
  deriving DecidableEq, Repr

/-- One TDC unit. Tables and counters are sparse by channel 0 to 8. -/
structure TdcUnit where
  /-- EDGE[0..256] per channel; unlisted: the nominal table of R82. -/
  edges : List (Nat × List Nat) := []
  /-- Hits of the latest or running calibration per channel and raw code (R81). -/
  hits : List (Nat × List Nat) := []
  fifos : List (Nat × List TdcResult) := []
  /-- Result sequence per channel (R80). -/
  chSeq : List (Nat × Nat) := []
  /-- The latest result of each channel that went to the time-transfer logic or the reference loop (R92, R93). -/
  taken : List (Nat × Option TdcResult) := []
  /-- Instants, in hu of the time clock, of each channel's latest accepted edge and latest converted event (R77, R78). -/
  lastAcc : List (Nat × Option Int) := []
  lastConv : List (Nat × Option Int) := []
  /-- Selected edges counted by the prescaler since the configuration became active. -/
  presc : List (Nat × Nat) := []
  startSeq : Nat := 0
  start : Option TdcStart := none
  prevStart : Option TdcStart := none
  /-- The wrap bit of R76 for the latest start. -/
  wrapped : Bool := false
  /-- Taps bypassed on each channel's line (R81, R83). -/
  taps : List (Nat × List Nat) := []
  /-- The temperature band has changed since the running calibration began (R84). -/
  bandMoved : Bool := false
  /-- The time-transfer logic holds the unit (R92). -/
  held : Bool := false
  /-- An automatic calibration waits for the hold to end (R84). -/
  autoWait : Bool := false
  /-- The unit has been enabled since reset (R84). -/
  everEnabled : Bool := false
  deriving DecidableEq, Repr

/-- An armed fine trigger (R86): its target, the HT it was armed at, the record context of its requester. -/
structure Trigger where
  target : HT
  armedAt : HT
  jctx : Nat
  deriving DecidableEq, Repr

/-- The pulse of a fine trigger (R87): HT of the edge E it starts at, the delay tap it goes through, its width in ns, whether it is active low. -/
structure Pulse where
  edge : HT
  tap : Nat
  width : Nat
  low : Bool
  deriving DecidableEq, Repr

/-- One fine-trigger output. -/
structure DtcOut where
  /-- Armed triggers in target order, at most 4. -/
  armed : List Trigger := []
  /-- CODE[0..255] after a successful calibration; none: CODE[h] = h (R90). -/
  codes : Option (List Nat) := none
  /-- Tap codes whose tap a spare bypasses (R90). -/
  taps : List Nat := []
  /-- The output calibrates: its pin is held inactive, and its stop channel listens to the loopback (R90). -/
  calibrating : Bool := false
  /-- The pulse of the latest firing (R87). -/
  pulse : Option Pulse := none
  deriving DecidableEq, Repr

/-! ### Step links (R95–R124) -/

/-- Where an outgoing frame goes. The spec gives routes between parts, not the port each frame leaves by, except on
the links of one port; so a frame names its addressee. -/
inductive Dest where
  | port (n : Nat)
  | node (n : Nat)
  | jobRoot (handle : Nat)
  | members (handle : Nat)
  | rank (handle rank : Nat)
  | leaf (dom : Nat)
  | leaves (handle : Nat)
  | twin
  | up
  | down
  deriving DecidableEq, Repr

/-- A frame the part has originated: header fields of R101, and its payload as the list of its fields in the order of
the table that defines its type. -/
structure Frame where
  cls : Nat
  ty : Nat
  tsi : Bool := false
  nojob : Bool := false
  handle : Nat := 0
  gen : Nat := 0
  epoch : Nat := 0
  origin : HT := 0
  fields : List Nat := []
  data : List Byte := []
  /-- Flits it occupies (LEN plus 1, R101). -/
  flits : Nat := 1
  deriving DecidableEq, Repr

/-- A frame sent or waiting to be sent: on a named port it has a place in a sequence space and a send count (R107–R109). -/
structure Sent where
  dest : Dest
  frame : Frame
  seq : Nat := 0
  /-- Started on its port; until then it waits (R104). -/
  started : Bool := false
  sends : Nat := 0
  retx : Bool := false
  /-- The latest transmission's time-stamp of R111, in TIME and STEP frames; TXTS where TSI is 1 (R110, R112). -/
  txts : Option HT := none
  /-- The logical lane its delimiter must lie on (R114, R131). -/
  lane : Option Nat := none
  /-- It waits to be resent (R108, R109). -/
  again : Bool := false
  /-- The CRC-32 of the latest transmission (R103). -/
  crc : Option Word := none
  /-- TAG of the bulk transfer it belongs to. -/
  xfer : Option Nat := none
  deriving DecidableEq, Repr

/-- A single flit the part has sent (R100): IDLE, or LCTL with its subtype, with its content. -/
structure FlitOut where
  port : Nat
  sub : Option Nat
  fields : List Nat
  deriving DecidableEq, Repr

/-- A lane swap in progress on a port (R120). -/
structure Swap where
  /-- 0: the local transmitter moves, 1: the local receiver. -/
  dir : Nat
  lane : Nat
  /-- The block at which the selection switches, and its start. -/
  block : Nat
  at_ : HT
  /-- The request came from the far end. -/
  remote : Bool
  /-- Trigger code of the spare record (R377): 0 command, 1 trend. -/
  trig : Nat := 0
  deriving DecidableEq, Repr

/-- A host transfer on a port's bulk stream (R122, R123). -/
structure BulkXfer where
  tag : Nat
  slot : Nat
  ty : Nat
  addr : Nat
  bytes : Nat
  /-- Frames of it queued and not yet acknowledged. -/
  left : Nat
  /-- Handle, generation and epoch its frames carry; bytes queued so far, and those not yet taken from the host (R123). -/
  job : Nat × Nat × Nat := (0, 0, 0)
  off : Nat := 0
  rest : List Byte := []
  deriving DecidableEq, Repr

/-- A frame delivered by the link layer and not yet acted on by its class's user. -/
structure Delivered where
  port : Nat
  frame : Frame
  rxts : HT
  uncal : Bool
  deriving DecidableEq, Repr

/-- The CAL frames a latency calibration sends: how many of them all have gone, and the first place for the next (R114). -/
structure CalRun where
  sent : Nat := 0
  next : Nat := 0
  deriving DecidableEq, Repr

/-- One step-link port beyond its registers. -/
structure PortSt where
  /-- Consecutive training failures, and attempts with fewer than 4 usable lanes (R116). -/
  fails : Nat := 0
  laneFails : Nat := 0
  /-- Physical lanes out of use until the next full training (R119, R121): transmit lanes in bits 0 to 4, receive in 5 to 9. -/
  retired : Nat := 0
  swap : Option Swap := none
  /-- A latency calibration is running (R114), and one is due and not yet started. -/
  calibrating : Bool := false
  calRun : Option CalRun := none
  calWait : Bool := false
  /-- The FEC field read on entering TRAIN (R97). -/
  fec : Nat := 0
  txExp : Nat := 0
  txNorm : Nat := 0
  rxExp : Nat := 0
  rxNorm : Nat := 0
  /-- A NAK is outstanding in the express, normal space (R108). -/
  nakExp : Bool := false
  nakNorm : Bool := false
  /-- Frames received since the last acknowledgement. -/
  ackDue : Bool := false
  /-- HT since which no acknowledgement has advanced the express, normal space (R109). -/
  advExp : HT := 0
  advNorm : HT := 0
  /-- Normal-space credit in flits granted by the far end (R106). -/
  credit : Nat := 512
  lastIdle : HT := 0
  /-- The transmitter's next place (`placeSlot`), and the flits left of the express frame on the wire and of the normal frame that is on the
  wire or suspended (R104). -/
  place : Nat := 0
  express : Nat := 0
  normal : Nat := 0
  /-- Marker pulses of the transmitter and the receiver: start-of-frame delimiters of TIME and STEP frames (R91). -/
  markTx : Nat := 0
  markRx : Nat := 0
  /-- TSI frames of this direction wait for a swap (R120). -/
  holdTsi : Bool := false
  bulk : List BulkXfer := []
  /-- HT at entry to NEGOTIATE, with which block 0 of both directions starts, and its fraction in 1/25 hu (R99; log entry 9). -/
  negAt : HT := 0
  negFrac : Nat := 0
  /-- HT of the latest heartbeat or frame heard (R305). -/
  heard : Option HT := none
  deriving DecidableEq, Repr

/-! ### Time transfer (R125–R149) -/

/-- An exchange begun at a downstream end (R132): SYNC k with its XN, t1, t2 and SETGEN, t3 once its DREQ has started, and whether both ends were
calibrated. -/
structure Exchange where
  xn : Nat
  t1 : HT
  t2 : HT
  t3 : Option HT := none
  gen : Nat
  /-- Physical lanes that carried the SYNC's and the DREQ's delimiter. -/
  f : Nat
  r : Nat
  cal : Bool
  deriving DecidableEq, Repr

/-- One direction's lane survey (R134), in 2^-8 hu: the running mean, the latest deviations by lane, and the values of each lane since it was
mapped in. -/
structure Survey where
  uf : Int := 0
  dev : List (Nat × List Int) := []
  since : List (Nat × Nat) := []
  deriving DecidableEq, Repr

/-- The servo state of one port, beyond its registers. -/
structure PortSrv where
  valid : Nat := 0
  lockRun : Nat := 0
  unlockRun : Nat := 0
  /-- The exchange number this end, as upstream end, gave its last SYNC. -/
  xn : Nat := 0
  /-- Upstream end: the latest DREQ received: its XN and rxts. -/
  dreq : Option (Nat × HT) := none
  /-- Downstream end: exchanges that wait for their t4, oldest first (R132), and the XN last answered. -/
  open_ : List Exchange := []
  answered : Option Nat := none
  /-- SETGEN of the latest exchange that has steered (R140). -/
  gen : Option Nat := none
  lastValid : Option HT := none
  /-- PATHF in 2^-8 hu. -/
  pathf : Int := 0
  /-- Filtered offset in 2^-8 hu (SRV_Pp_OFS). -/
  theta : Int := 0
  /-- Lane survey per direction (R134). -/
  dn : Survey := {}
  up : Survey := {}
  deriving DecidableEq, Repr

/-- The part's reference selection and servo. -/
structure Servo where
  /-- The time port by number (R141). -/
  tport : Option Nat := none
  /-- 0 none, 1 domain A or upstream, 2 domain B or twin. -/
  followed : Nat := 0
  /-- The integral term I of R139 in 2^-8 hu scaled by 2^16. -/
  integ : Int := 0
  /-- Roles that R126 has changed: a secondary that has become the source; the primary, which follows its twin as a secondary would. -/
  source : Bool := false
  asSecondary : Bool := false
  /-- The HT since which no reference has been LOCKED (R126). -/
  noRef : Option HT := some 0
  setgen : Nat := 0
  /-- The HT since which PREF has been eligible (R142). -/
  prefSince : Option HT := none
  /-- Latest pairwise offsets received in DIFF, or measured (R127). -/
  diffs : List (Nat × Int) := []
  /-- Loopback calibration per tile: exchanges done, discarded, sum of offsets (R136). -/
  lcal : List (Nat × (Nat × Nat × Int)) := []
  deriving DecidableEq, Repr

/-! ### Region keepers (R150–R168) -/

/-- A frequency change held by a keeper (R163). -/
structure HeldChange where
  k : Nat
  inc : Nat
  chgid : Nat
  init : Bool
  committed : Bool
  deriving DecidableEq, Repr

/-- One region keeper, by its index. -/
structure Keeper where
  branch : Nat := 0
  pos : Nat := 0
  enumerated : Bool := false
  /-- K_CTRL and K_MESH. -/
  ctrl : Word := 0
  mesh : Word := 0
  inc : Nat := 0
  /-- The 88-bit LHT accumulator in 2^-24 hu at the latest beacon edge, after its adjustment (R153, R154). -/
  acc : Nat := 0
  /-- K_LHT_HI's latch (R168). -/
  lhtLatch : HT := 0
  /-- KSTRC at the latest beacon edge (R156). -/
  kstrc : Nat := 0
  /-- The number of the latest beacon edge, once a BEACON frame has labelled one (R151). -/
  bcn : Nat := 0
  bcnKnown : Bool := false
  /-- C_m in 2^-24 hu and φ_m in 2^-8 hu of the latest beacon edge (R151, R154). -/
  edgeC : Int := 0
  edgePhi : Int := 0
  /-- D of the latest labelled beacon in 2^-8 hu, and whether it is still to be used (R154). -/
  d : Int := 0
  dFresh : Bool := false
  /-- X(m) of the latest beacon edge, and the part of it spread over the interval that follows, in 2^-8 hu (R154). -/
  x : Int := 0
  owed : Int := 0
  running : Bool := false
  khtValid : Bool := false
  stat : Word := 0
  xcnt : Word := 0
  /-- Armed targets per output, in target order, each with whether it was already reached when its TARM arrived (R159). -/
  armed : List (Nat × List (HT × Bool)) := []
  /-- Latest firing and lateness per output. -/
  last : List (Nat × (HT × Nat)) := []
  /-- The latest pulse of each KTRG output: LHT of the edge from which it lasts one local cycle, and its level (R159). -/
  ktrg : List (Nat × Option (HT × Bool)) := []
  held : Option HeldChange := none
  /-- The beacon edge on which FSWITCH was last asserted, for one local cycle (R163). -/
  fswitch : Option Nat := none
  deriving DecidableEq, Repr

/-- What a ring frame says (R161): CMD, ADDR, BCN and ARG. -/
structure RingFrame where
  cmd : Nat
  addr : Nat
  bcn : Nat
  arg : Nat
  deriving DecidableEq, Repr

/-- A ring frame at its sender, a keeper by index or 256 + branch for the core (R160): the keeper's own or one it forwards; the 128 bits it has been
sent as, with HSEQ and CRC, once it has; and how often in succession it has been resent. -/
structure RingSent where
  hop : Nat
  frame : RingFrame
  own : Bool := true
  wire : Option (BitVec 128) := none
  resends : Nat := 0
  deriving DecidableEq, Repr

/-- One station of the ring (R160, R161): HSEQ of the next frame it sends, whether it last sent one of its own, and the HSEQ it expects next. -/
structure RingHop where
  seq : Nat := 0
  lastOwn : Bool := false
  expect : Nat := 0
  deriving DecidableEq, Repr

/-- The TSU's side of the keepers. -/
structure KeeperCore where
  keepers : List (Nat × Keeper) := []
  /-- Frames that wait at the ring's senders or are not yet acknowledged, newest last, and the stations: keepers by index, the core's end of branch b
  as 256 + b (R160). -/
  ring : List RingSent := []
  hops : List (Nat × RingHop) := []
  /-- Number of the next beacon (R150). -/
  nextBcn : Nat := 0
  /-- Branches whose ENUM has not returned (R165). -/
  enumLeft : List Nat := []
  /-- The requested change: beacon, INC, INIT; MISS seen, FDONE replies (R162). -/
  chgK : Nat := 0
  chgInc : Nat := 0
  chgInit : Bool := false
  miss : Bool := false
  dones : Nat := 0
  initialised : Bool := false
  /-- The fetched word of the indirect space, whether it is there, and the index being fetched (R40). -/
  ready : Bool := false
  data : Word := 0
  fetching : Option Nat := none
  deriving DecidableEq, Repr

/-! ### Lifetime and spares (R372–R378) -/

/-- A part's lifetime record and the state of its saves. -/
structure Lifetime where
  /-- TSU: the words staged in LIF words 0 to 1,023 for a LOAD, sparse (R374). -/
  words : List (Nat × Word) := []
  /-- The record loaded, to whose counts those made since power-up are added (R374, R375); none loaded: all zero. -/
  base : List (Nat × Word) := []
  /-- Counts made since power-up, by the byte offset of their field in R372. -/
  counts : List (Nat × Nat) := []
  saveGen : Nat := 0
  /-- TSU: completions a running save still waits for, of 128; lifetime writes outstanding on the fabric; and those of them that an abandoned save has
  left, which complete first (R432). -/
  saveLeft : Nat := 0
  saveOut : Nat := 0
  saveVoid : Nat := 0
  /-- The record being saved: its 1,024 words. -/
  image : List Word := []
  /-- Learned slope of the OCXO in 10^-18 per day (AGEING). -/
  ageing : Int := 0
  /-- Band hysteresis of R373: TC_HIGH has been reached since TC_LOW. -/
  hot : Bool := false
  /-- Trends by unit key (R376). -/
  trends : List (Nat × Nat) := []
  /-- Events counted since the last trend update, by unit key. -/
  events : List (Nat × Nat) := []
  /-- Lanes g retired (RETIRED of R372). -/
  retired : List Nat := []
  /-- Spares used, by 2^20 × kind + unit. -/
  spares : List (Nat × Nat) := []
  /-- SRAM rows in error, by unit key, the latest first (R377). -/
  recent : List Nat := []
  /-- Distributor: the two copies in NOR by number, 1,024 words each; unlisted: no copy there (R375). -/
  nor : List (Nat × List Word) := []
  deriving DecidableEq, Repr

/-! ### Sync objects, wicks and the step engine (R169–R212) -/

/-- A sync object (R169): its word, its 40-bit time-stamp, and the MODE and VALUE of its claim (R179). -/
structure SyncObj where
  word : DWord := 0
  stamp : Nat := 0
  claim : DWord := 0
  /-- A TIMER's tick of satisfaction, fixed when it is armed: the tick of its target, or the next tick where that has passed
  (R181). -/
  due : HT := 0
  deriving DecidableEq, Repr

/-- A signal on its way to the signal unit: its source in the order of R176 (0 internal completion, 1 SIG frame, 2 fabric
aperture, 3 register write, 4 step engine), the record context of the source, and for a SIG frame whether its handle names a
slot. -/
structure Signal where
  src : Nat
  idx : Nat
  word : DWord
  jctx : Nat
  noSlot : Bool := false
  /-- A fabric lane that is not fully enabled (R175). -/
  partly : Bool := false
  deriving DecidableEq, Repr

/-- One wick (R182–R190). `state` is 0 UNBOUND, 1 BOUND, 2 PENDING, 3 ASSERTED, 4 LIT (SOB_WKn_STATE). -/
structure Wick where
  state : Nat := 0
  slot : Nat := 0
  obj : Nat := 0
  thr : Nat := 0
  consume : Bool := false
  oneshot : Bool := false
  region : Nat := 0
  plgrp : Nat := 0
  /-- Raised, or to be raised, by pre-light. -/
  prelit : Bool := false
  /-- Of a pre-lit wick: the PRELIT of its slot that raises it, and that one's L (R189). -/
  plId : Nat := 0
  plAt : HT := 0
  /-- HT of the latest acknowledge; WICKn falls on the next time-clock edge (R183, R184). -/
  litAt : HT := 0
  /-- Counted in SOB_CNT.DEFER already (R187). -/
  deferred : Bool := false
  /-- WACKn is still 1 after WICKn fell (R184). -/
  ackHeld : Bool := false
  /-- SOB_WKn_LAST: HT bits [39:8] of the latest rise. -/
  last : Nat := 0
  deriving DecidableEq, Repr

/-- The completion record of an operation (R239), and the results that follow it for GATE and CONTRIB (R266, R300). -/
structure CompRec where
  value : DWord
  late : Nat
  code : Code
  epoch : Nat
  handle : Nat
  gen : Nat
  extra : Nat
  results : List Byte
  deriving DecidableEq, Repr

/-- An asynchronous operation of a context, under its tag (R239): its sequence, opcode and sub value, the PC it was issued at,
its completion object, the job context it acts for in a tile, and operands it keeps. Complete once it has its record. -/
structure Op where
  seq : Nat
  opcode : Nat
  sub : Nat
  pc : Nat
  obj : Nat
  job : Nat
  args : List Nat
  result : Option CompRec
  deriving DecidableEq, Repr

/-- What a WAITING context waits for (R200): an object's condition with an optional deadline; a tick; or, held, for one of its eight operations to
complete (R198). `a` is the register that takes the outcome. -/
inductive Waiting where
  | obj (idx thr : Nat) (consume : Bool) (deadline : Option HT) (a : Nat)
  | tick (target : HT) (a : Nat)
  | held
  deriving DecidableEq, Repr

/-- One context (R193, R206–R208, R215). PC, windows, FADDR and STATE with CAUSE are its registers. -/
structure Ctx where
  g : List (Nat × DWord) := []
  t : List (Nat × HT) := []
  p : Nat := 0
  /-- Prefixes issued and not yet used, in issue order, and the PC of the first (R215, R216). -/
  fx : List Nat := []
  fxPc : Nat := 0
  /-- The PC has run past index 65,535: it is 65,536, of which the register holds the low 16 bits (R225). -/
  pastEnd : Bool := false
  /-- A STEP runs (R206, R208). -/
  stepping : Bool := false
  wait : Option Waiting := none
  /-- Operations by tag (R239). -/
  ops : List (Nat × Op) := []
  /-- The 8-bit count of accepted asynchronous operations (R239). -/
  opSeq : Nat := 0
  deriving DecidableEq, Repr

/-- A step engine: its memories, contexts, objects and signal unit. -/
structure Engine where
  /-- IMEM by word, DMEM by byte; unlisted: zero. -/
  imem : List (Nat × Word) := []
  dmem : List (Nat × Byte) := []
  /-- Words with a stored double-bit error (R204): IMEM words by index, DMEM words by byte address div 8. -/
  badI : List Nat := []
  badD : List Nat := []
  /-- Words with a stored single-bit error, likewise. -/
  oneI : List Nat := []
  oneD : List Nat := []
  /-- The context that issued last and the engine cycle in which it did (R195). -/
  last : Nat := 15
  cycle : Nat := 0
  /-- The first cycle in which each context may issue next, and in which the divide unit is free (R196, R197). -/
  ready : List (Nat × Nat) := []
  divFree : Nat := 0
  /-- The scrubber's next word: IMEM, then DMEM (R204). -/
  scrub : Nat := 0
  ctxs : List (Nat × Ctx) := []
  objs : List (Nat × SyncObj) := []
  /-- Signals that have arrived and not been accepted, oldest first (R176). -/
  signals : List Signal := []
  /-- Objects changed and not yet evaluated, oldest first (R176, R181). -/
  evals : List Nat := []
  /-- A running SOB_RESET (R180). -/
  resetRange : Option (Nat × Nat) := none
  /-- The object image latched per source class (R192): object word and time-stamp. -/
  latch : List (Nat × (DWord × Nat)) := []
  /-- The staged +0 words of the object window, per source class (R192). -/
  low : List (Nat × Option Word) := []
  deriving DecidableEq, Repr

/-- A launch a member has accepted and whose instant has not been acted on (R267–R269). -/
structure PendLaunch where
  at_ : HT
  gate : Bool
  late : Nat
  refused : Nat
  /-- Its job has left the slot: the triggers fire and the record is written, and no state changes (R254, R269). -/
  void : Bool := false
  deriving DecidableEq, Repr

/-- A PRELIT of a slot (R189, R274): its number, L, the stages still waiting as (instant, group), and the pre-lit wicks that rose at or
after L. -/
structure Prelit where
  id : Nat
  at_ : HT
  stages : List (HT × Nat)
  late : Nat := 0
  deriving DecidableEq, Repr

/-- What a GATE or CONTRIB of a slot has been delivered (R301): its tag and operation sequence, whether it is a collective, its gate
or collective sequence, the shapes of its reductions, the 64-byte units of the result store it reserves, and the bytes received
per reduction with whether the last frame has come. -/
structure ResHold where
  tag : Nat
  opSeq : Nat
  coll : Bool
  seq : Nat
  shapes : List Nat
  units : Nat
  got : List (Nat × (List Byte × Bool)) := []
  deriving DecidableEq, Repr

/-- A result channel (R41): the pending result with its SEQ, OVERWRITE, and the window with its SEQ. -/
structure Chan where
  pend : Option (Nat × List Byte) := none
  overw : Bool := false
  winSeq : Nat := 0
  win : List Byte := []
  deriving DecidableEq, Repr

/-- The checkpoint epoch of a member that its OPEN has announced (R341): its slot, window offset and length, blocks, L_open, and whether
the OPEN object has been signalled. -/
structure MemberEpoch where
  slot : Nat
  wofs : Nat
  wlen : Nat
  b : Nat
  base : HT
  opened : Bool := false
  deriving DecidableEq, Repr

/-- A job slot of a TSU beyond its SYS_SLOTc registers (R252–R277). -/
structure Slot where
  /-- ARM descriptor: control domain, job root, triggers (destination, offset) (R257). -/
  domain : Nat := 0
  root : Nat := 0
  trigs : List (DWord × DWord) := []
  /-- Identity asked for by the outstanding ARM: handle, generation, rank. -/
  asked : Nat × Nat × Nat := (0, 0, 0)
  /-- Epoch, handle and generation of the job the slot last was in or asked for, for the completion records that follow (R239). -/
  freed : Nat × Nat × Nat := (0, 0, 0)
  /-- The next gate's sequence (R262), and the next collective's (R280). -/
  gateSeq : Nat := 0
  collSeq : Nat := 0
  /-- The job has launched (R254). -/
  launched : Bool := false
  /-- PRE of the ARM record in ns (R274). -/
  pre : Nat := 0
  launches : List PendLaunch := []
  /-- A REPLAN that waits for a launch instant: its epoch (R254). -/
  replanDue : Option Nat := none
  /-- The received PHASEs whose ticks have not come, by tick: T, map, rank, epoch (R271). -/
  phases : List (HT × Nat × Nat × Nat) := []
  /-- RESTOREs received: the ticks at which REPLAY begins (R352). -/
  replayAt : List HT := []
  /-- REPLAY_ENDs received: the ticks from which the slot is RUNNING (R254). -/
  runAt : List HT := []
  /-- RELEASE: when it was issued, its release tick, whether the balance check has ended, and the objects it made DIRTY (R275). -/
  relIssued : HT := 0
  relTick : Option HT := none
  balanced : Bool := false
  dirtied : Nat := 0
  /-- PRELITs whose wicks have not all risen, oldest first, of which only the last may have stages; and how many there have been (R189). -/
  prelits : List Prelit := []
  plCount : Nat := 0
  /-- Results of the slot's gates and collectives (R301), and the number of the next result (R300). -/
  results : List ResHold := []
  resultSeq : Nat := 0
  /-- The bins of the DIGEST frames sent: sequence, collective, bin (R327). -/
  digests : List (Nat × Bool × Nat) := []
  /-- SHADOW: 0 none, 1 shadow, 2 shadowed; and the partner node (R322). -/
  shadow : Nat := 0
  partner : Nat := 0
  /-- The checkpoint epoch in progress (R341–R345). -/
  snap : Option MemberEpoch := none
  deriving DecidableEq, Repr
/-! ### Job contexts of a job root (R252–R277) -/

/-- Who issued a job command (R240): an engine of the job root, by its operation; or a member, by its node and tag. -/
inductive Req where
  | own (op : OpRef)
  | member (node tag : Nat)
  deriving DecidableEq, Repr

/-- The gate a job root holds open (R263–R265), or whose results it sends. -/
structure GateRoot where
  op : OpRef
  n : Nat
  lead : Nat
  deadline : Nat
  /-- Reduction descriptors' shapes (R279). -/
  shapes : List Nat
  seq : Nat
  cseq : Nat
  count : Nat := 0
  or_ : DWord := 0
  and_ : DWord := BitVec.allOnes 64
  /-- HT of the first contribution, and of the partial that completed the combination. -/
  first : Option HT := none
  fullAt : Option HT := none
  deriving DecidableEq, Repr

/-- A PHASE accepted for a job (R271): its switch tick, map index and words, and who asked. -/
structure PhaseRoot where
  tick : HT
  map : Nat
  words : List MapWord
  req : Req
  deriving DecidableEq, Repr

/-- A launch sent and whose instant has not been acted on, with the LAUNCH command that sent it, if one did. -/
structure LaunchRoot where
  at_ : HT
  req : Option Req
  late : Nat
  /-- The last gate of a replay that has a record: REPLAY_END goes out with its instant (R356). -/
  ends : Bool := false
  deriving DecidableEq, Repr

/-- Planning in progress (R273): earliest, round, offers by leaf, confirmations, and what it is for. -/
structure Planning where
  earliest : HT
  round : Nat := 0
  offers : List (Nat × HT) := []
  confirmed : List Nat := []
  /-- Placements confirmed, as PRE in ns by rank. -/
  pres : List (Nat × Nat) := []
  leaves : List (Nat × List Nat)
  /-- The PLAN that asked; none: the planning of an ARM, or of a return to ARMED (R271). -/
  op : Option OpRef
  deriving DecidableEq, Repr

/-- A member matched at ARM (R259): its rank, node, TIMED earliest, and whether its link runs protocol version 3. -/
structure Matched where
  rank : Nat
  node : Nat
  earliest : HT
  v3 : Bool
  deriving DecidableEq, Repr

/-- A shadow (R322–R326): the node, the rank it shadows, the START that waits for its ARM_REQ, the count of consecutive matches,
eligibility, the ADMIT that waits, and the digests of the two: sequence, collective, digest. -/
structure Shadow where
  node : Nat
  rank : Nat
  start : Option Req
  on : Bool := false
  count : Nat := 0
  eligible : Bool := false
  admitReq : Option Req := none
  own : List (Nat × Bool × Nat) := []
  theirs : List (Nat × Bool × Nat) := []
  /-- Sequences already judged, latest first. -/
  judged : List (Nat × Bool) := []
  frozen : Bool := false
  deriving DecidableEq, Repr

/-- A standalone collective open at the job root (R247). -/
structure CollRoot where
  op : OpRef
  seq : Nat
  shape : Nat
  deriving DecidableEq, Repr

/-- What waits for the twin's acknowledgement (R312, R318, R350): an advance with its cause and node, and whether the control domain moves with it; the
move of the control domain in an admission; or the commit of a slot. -/
inductive Mirror where
  | advance (cause node : Nat) (moved : Bool)
  | move
  | commit (slot : Nat)
  deriving DecidableEq, Repr

/-- A job event (R320): kind, rank, node. -/
structure JobEvent where
  kind : Nat
  rank : Nat
  node : Nat
  deriving DecidableEq, Repr

/-- A checkpoint slot of a job at its job root (R341–R351): 0 free, 2 open, 3 with its commit record. -/
structure EpochSlot where
  state : Nat := 0
  /-- Requests not yet opened, by node, with B, WOFS and WLEN. -/
  asked : List (Nat × (Nat × Nat × Nat)) := []
  lOpen : HT := 0
  gateSeq : Nat := 0
  b : Nat := 0
  wofs : Nat := 0
  wlen : Nat := 0
  /-- Leaves that have answered PREPARE, and the COMMIT that asked. -/
  prep : List Nat := []
  op : Option OpRef := none
  deriving DecidableEq, Repr

/-- A REBUILD in progress at the job root (R352): leaves that have answered and how many must, the largest erasure count, and T_R. -/
structure RebuildRoot where
  op : OpRef
  tr : HT
  got : List Nat := []
  need : Nat
  most : Nat := 0
  shapeInv : Bool
  lastSlot : Nat
  deriving DecidableEq, Repr

/-- A RESTORE sent, whose T_R has not come (R352): T_R, the REBUILD that sent it, the largest erasure count, the gate sequence and SHAPEINV. -/
structure ReplayRoot where
  tr : HT
  op : OpRef
  most : Nat
  gateSeq : Nat
  shapeInv : Bool
  deriving DecidableEq, Repr

/-- A job context (R256). `state` is PLN_JSTATE.STATE: 0 FREE, 1 ARMING, 2 ARMED, 3 RUNNING, 4 GATED, 5 REPLAN, 6 REPLAY, 7 DRAINING. -/
structure Job where
  state : Nat := 0
  handle : Nat := 0
  gen : Nat := 0
  epoch : Nat := 0
  /-- Control domain, and whether it moves at the next advance (R312). -/
  domain : Nat := 0
  moveDomain : Bool := false
  /-- Tile and context whose DMEM holds the descriptors and maps. -/
  tile : Nat := 0
  ctx : Nat := 0
  n : Nat := 0
  require : Nat := 0
  floor : Nat := 0
  lead : Nat := 0
  deadline : Nat := 0
  plw : Nat := 0
  span : Nat := 8
  armTo : Nat := 1000
  armAt : HT := 0
  earliest : HT := 0
  mapOffs : List Nat := []
  map : Nat := 0
  /-- The map in force, by rank. -/
  words : List MapWord := []
  /-- Members removed by a fence. -/
  fenced : List Nat := []
  armOp : Option OpRef := none
  matched : List Matched := []
  planning : Option Planning := none
  /-- Instant planned for the first launch. -/
  planned : HT := 0
  launched : Bool := false
  /-- The job came to REPLAN from ARMED (R271), and the gate was opened from REPLAY. -/
  fromArmed : Bool := false
  greplay : Bool := false
  /-- A removal waits for the launch whose instant has not come (R331). -/
  replanAt : Bool := false
  gateSeq : Nat := 0
  collSeq : Nat := 0
  gate : Option GateRoot := none
  launches : List LaunchRoot := []
  /-- Latest launch instant sent (R264: a second gate cannot open before it). -/
  lastL : Option HT := none
  /-- Phases accepted and not yet in effect, by tick. -/
  phases : List PhaseRoot := []
  relOp : Option OpRef := none
  /-- Nodes whose release has arrived (R256). -/
  released : List Nat := []
  /-- The leaf each node's ARM_REQ came through (log entry 16). -/
  leafOf : List (Nat × Nat) := []
  shadows : List Shadow := []
  /-- EVICT commands that wait for their node's DEAD. -/
  evicts : List (Nat × Req) := []
  /-- Job-wide strobes sent: tick applied, lateness, who asked. -/
  upds : List (HT × Nat × Req) := []
  colls : List CollRoot := []
  /-- Number of the next result (R300). -/
  resultSeq : Nat := 0
  /-- What waits for the twin, oldest first, with the HT it was sent at. -/
  mirrors : List (HT × Mirror) := []
  /-- Job events, oldest first; whether one was discarded (R320); MBR_JNOTIFY of this context. -/
  events : List JobEvent := []
  eventLost : Bool := false
  notify : Word := 0
  slots : List (Nat × EpochSlot) := []
  rebuild : Option RebuildRoot := none
  replay : Option ReplayRoot := none
  /-- SHAPEINV of the last REBUILD (R356). -/
  shapeInv : Bool := false
  /-- Digests of the gates since the job was armed: sequence, map words, digest (R356). -/
  gates : List (Nat × List MapWord × Nat × HT) := []
  /-- Registers of ch. "The continuity store" held per job: CST_J*. -/
  jcost : Nat := 0
  deriving DecidableEq, Repr

/-- Requests, notices and forwarded job commands a distributor holds until ORIGIN_HT + ORDER_HOLD (R240, R260, R317). A LEAF_LOST names the lost leaf
and, where it is known, that leaf's twin. -/
inductive HeldKind where
  | armReq (handle gen rank : Nat) (earliest : HT) (leaf : Nat) (v3 : Bool)
  | releaseReq (handle gen rank : Nat)
  | rampReq (handle : Nat) (e : HT) (plw span : Nat) (pre : Bool) (ranks : List Nat)
  | dead (node cause : Nat)
  | leafLost (leaf : Nat) (twin : Option Nat)
  | jobCmd (handle gen epoch opcode sub operand : Nat) (tick : HT) (tag : Nat)
  deriving DecidableEq, Repr

structure Held where
  origin : HT
  node : Nat
  kind : HeldKind
  deriving DecidableEq, Repr

/-- What a leaf or pod root has learnt of a job it relays frames for (R307, R319): generation, epoch, job root, and the nodes of the
members below it. -/
structure Relay where
  gen : Nat
  epoch : Nat
  root : Nat
  members : List Nat
  /-- Epochs that PHASE frames relayed will bring, with their ticks (R271, R319). -/
  coming : List (HT × Nat) := []
  deriving DecidableEq, Repr

/-- A gate's contributions merged at a leaf or pod root (R262). -/
structure GatePart where
  handle : Nat
  gen : Nat
  epoch : Nat
  seq : Nat
  count : Nat
  or_ : DWord
  and_ : DWord
  deriving DecidableEq, Repr

/-- A spill in progress (R297, R298): the target position, the copy of the contributions kept, the instant of the last SPILL_IN, whether LAST has
gone, the port last used, and whether that port has left UP since. -/
structure SpillOut where
  target : Nat
  copy : List Red
  sentAt : HT
  lastSent : Bool
  port : Nat := 0
  lost : Bool := false
  deriving DecidableEq, Repr

/-- A reduction instance at a combining point (R294, R296). -/
structure Inst where
  tile : Nat
  handle : Nat
  gen : Nat
  epoch : Nat
  seq : Nat
  coll : Bool
  idx : Nat
  /-- It holds a lane group; otherwise it waits in the queue with its inputs in HBM. -/
  granted : Bool
  red : Red
  waiting : List Red := []
  /-- Senders whose contribution is complete, and members these account for. -/
  done : Nat := 0
  spill : Option SpillOut := none
  /-- First rank or node seen to mismatch (R292). -/
  badRank : Nat := 0
  /-- Complete at a job root: its gate waits for the others (R264). -/
  ready : Bool := false
  deriving DecidableEq, Repr

/-- What a detector keeps of a node (R305–R309): state 0 ALIVE, 1 SUSPECT, 2 FENCED; cause; RPT; TSKEW; when it was last heard
here, and the twin's report; the confirmations held; the bins it is suspect in. -/
structure NodeSt where
  node : Nat := 0
  state : Nat := 0
  cause : Nat := 0
  rpt : Bool := false
  tskew : Bool := false
  skewAt : Option HT := none
  heard : HT := 0
  /-- The HT since which the twin reports it silent. -/
  twinSince : Option HT := none
  confirmed : Bool := false
  twinConfirmed : Bool := false
  cond : Nat := 0
  deriving DecidableEq, Repr

/-! ### The continuity store at a leaf (R335–R354) -/

/-- A staged slow-path frame (R346): of a rebuild or not, its sender's position, chunk and data times its coefficient. -/
structure Staged where
  resend : Bool
  pos : Nat
  chunk : Nat
  term : List Byte
  deriving DecidableEq, Repr

/-- A chain's epoch slot at a leaf (R349). Bytes are kept in chunks of 4,096, the slice of one BULK frame; chunk 64k + 32h + i is slice i
of half h of block k; an unlisted chunk is all zero. -/
structure ChainSlot where
  /-- 0 FREE, 1 READY, 2 FILLING, 3 SETTLING, 4 PREPARED, 5 COMMITTED, 6 REBUILDING (CST_SSTATE.STATE). -/
  state : Nat := 0
  /-- The job context, and the leaf SNAP that waits. -/
  ctx : Nat := 0
  op : Option OpRef := none
  entries : List ChainEntry := []
  freeMask : Nat := 0
  lOpen : HT := 0
  b : Nat := 0
  wofs : Nat := 0
  wlen : Nat := 0
  /-- Windows opened and closed. -/
  opened : Nat := 0
  closed : Nat := 0
  /-- Frames absorbed: sender's position and chunk (R339). -/
  absorbed : List (Nat × Nat) := []
  /-- Accumulator buffers, and parity in HBM, by chunk (R345). -/
  acc : List (Nat × List Byte) := []
  parity : List (Nat × List Byte) := []
  /-- Mirror copies by position and chunk (R347). -/
  mirrors : List (Nat × (Nat × List Byte)) := []
  staged : List Staged := []
  /-- Positions marked LAGGING, and the slow blocks counted: position and block (R346). -/
  lagging : List Nat := []
  slow : List (Nat × Nat) := []
  /-- A PREPARE waits for this slot (R349). -/
  prep : Bool := false
  /-- Rebuild: the survivors' terms, the RESEND frames absorbed, the syndromes received, and the chunks recovered. -/
  terms : List (Nat × List Byte) := []
  resent : List (Nat × Nat) := []
  synd : List (Nat × List Byte) := []
  done : List Nat := []
  erasures : Nat := 0
  unrecov : Bool := false
  deriving DecidableEq, Repr

/-- A rebuild at a leaf (R352–R354): slots still to rebuild, the first in progress; start of its window 0; next window to close; erased
positions with their targets; whether it answers REBUILT, or the operation that asked; the largest erasure count. -/
structure LeafRebuild where
  slots : List Nat
  start : HT
  window : Nat := 0
  erased : List (Nat × Nat)
  op : Option OpRef
  most : Nat := 0
  deriving DecidableEq, Repr

/-- A leaf's job context (R335): handle, generation, the epoch it has last learnt, and its rebuild. -/
structure ChainCtx where
  handle : Nat
  gen : Nat
  epoch : Nat := 0
  rebuild : Option LeafRebuild := none
  deriving DecidableEq, Repr

/-- The HBM stacks (R419, R468, R377): stacks trained, their bands and repaired rows, channels retired (32 × stack + channel) and being moved,
uncorrected errors by channel, and the next location of the patrol. -/
structure Hbm where
  trained : List Nat := []
  bands : List (Nat × Nat) := []
  rows : List (Nat × Nat) := []
  retired : List Nat := []
  moving : List Nat := []
  /-- Channels whose move a second uncorrected error began (R377). -/
  byError : List Nat := []
  uncorr : List (Nat × Nat) := []
  deriving DecidableEq, Repr


/-! ### The two parts and the whole state -/

/-- What a TSU and a distributor both have. -/
structure Part where
  /-- Register words by byte address, active copies; unlisted: the reset value of R386. -/
  regs : List (Nat × Word) := []
  /-- Pending copies of BW registers that differ from the active copy, by byte address (R33). -/
  pend : List (Nat × Word) := []
  /-- Staging words by class and *_LO address (R32); unlisted: the current low half. -/
  stage : List (Nat × Option Word) := []
  /-- Selections held once per source class (R410), by class and address; unlisted: zero. -/
  sel : List (Nat × Word) := []
  /-- Classes whose next write is unlocked (R39). -/
  unlocked : List Cls := []
  guard : Option GuardOpen := none
  lcReq : Option LcRequest := none
  /-- The life-cycle store, which persists across reset (R45): the TSU's fuse interface, the distributor's package fuses. -/
  lcStore : Nat := 0
  /-- What RESET will record when the wipe ends: transition flag, old state, new state, FORCE (R47, R365). -/
  wipeInfo : Nat × Nat × Nat × Nat := (0, 0, 0, 0)
  strobes : List StrobeReq := []
  tb : TimeBase := {}
  jnl : Journal := {}
  tdc : List (Nat × TdcUnit) := []
  dtc : List (Nat × DtcOut) := []
  /-- Outputs still to calibrate, by engine (tile) number, first first, each with the record context of the command that named it (R90). -/
  dtcCalQ : List (Nat × List (Nat × Nat)) := []
  ports : List (Nat × PortSt) := []
  psrv : List (Nat × PortSrv) := []
  srv : Servo := {}
  lif : Lifetime := {}
  /-- Frames originated, newest last, with their link state where the port is named. -/
  sent : List Sent := []
  /-- Single flits sent (R100), newest last. -/
  flits : List FlitOut := []
  /-- Frames the link layer has delivered (R101), newest last. -/
  delivered : List Delivered := []
  /-- Code and data of the last response of a source class, by class: RP_RSP of the TSU's register port for HOST (R429), the capture of WS_REGACC
  and REGACC for DEBUG (R442, R466), a completion's data for the PCIe endpoints (R412). -/
  resp : List (Nat × (Nat × Word)) := []
  /-- The WS_MBIST data register (R442). -/
  mbist : Word := 0
  /-- Bulk transfers reported on the stream interface: port, TAG and outcome code (R122, R123), newest last. -/
  bulkSts : List (Nat × Nat × Code) := []
  deriving DecidableEq, Repr

/-- A completion that an asynchronous operation has reached and that its engine has not yet written (R239): the operation, code,
VALUE, lateness, bytes [31:24] and results. -/
structure Deferred where
  op : OpRef
  code : Code
  value : DWord
  late : Nat := 0
  extra : Nat := 0
  results : List Byte := []
  /-- The outcome is in the journal already (R9). -/
  told : Bool := false
  deriving DecidableEq, Repr

/-- A mailbox request that waits for its RSP (R423). -/
structure Mreq where
  port : Nat
  tag : Nat
  write : Bool
  n : Nat
  deriving DecidableEq, Repr

/-- The package of a distributor: resets, supplies, mesh, boot, I3C (R450–R470). -/
structure Pkg where
  /-- PWR_FLT_N and THERMTRIP_N are low; either holds the package in reset (R453, R457). -/
  pwrFlt : Bool := false
  tripped : Bool := false
  /-- RST_N has been driven low since the trip (R453). -/
  rstLow : Bool := false
  /-- Tiles whose ports are held DOWN for want of an edge (R451). -/
  isolated : List Nat := []
  /-- The xSPI balls are high impedance (R470). -/
  xspiHiZ : Bool := false
  /-- SVN of the image started, and the candidate (R470). -/
  image : Option (Nat × Nat) := none
  /-- Highest band of the tiles, as last sampled (R452). -/
  bands : List (Nat × Nat) := []
  /-- HT of the active housekeeping processor's last kick (R420). -/
  kicked : HT := 0
  /-- Interrupts raised to the active processor: mail, and the rise of a tile's fault condition (R209, R416, R420). -/
  hkpIrq : Nat := 0
  /-- The address of each management tile's I3C target, and the words its last private read returned (R465), by tile. -/
  i3cAddr : List (Nat × Nat) := []
  i3cData : List (Nat × List Word) := []
  /-- Fuses read at reset (R468): MIN_SVN, and the revoke bits of the two key slots. -/
  minSvn : Nat := 0
  revoked : Nat := 0
  /-- Each endpoint's resets seen (R463), by tile. -/
  perst : List (Nat × Nat) := []
  deriving DecidableEq, Repr

/-- The whole state. -/
structure State where
  tsu : Part := {}
  dist : Part := {}
  osc : OscState := {}
  kc : KeeperCore := {}
  /-- Engines: 0 the TSU's, 1 + t that of lantern tile t. -/
  engines : List (Nat × Engine) := []
  /-- The TSU's wicks. -/
  wicks : List (Nat × Wick) := []
  /-- The present taper window and the budget used in it, by region (R187). -/
  taper : Nat × List (Nat × Nat) := (0, [])
  /-- The TSU's job slots. -/
  slots : List (Nat × Slot) := []
  /-- The result channels of the TSU's slots. -/
  chans : List (Nat × Chan) := []
  /-- The job contexts, by number. -/
  jobs : List (Nat × Job) := []
  /-- The copies of jobs of the other domain's root (R15). -/
  copies : List JobCopy := []
  /-- Generation of the latest accepted ARM by handle (R253). -/
  armGens : List (Nat × Nat) := []
  /-- Frames held for ordered action (R260). -/
  held : List Held := []
  ledger : Ledger := {}
  relays : List (Nat × Relay) := []
  gateParts : List GatePart := []
  /-- Nodes this distributor is a detector of, by position (MBR_NSEL.POS). -/
  nodes : List (Nat × NodeSt) := []
  /-- HLT_SENT_RES words written since the last compare, by 4 × class + w (R328). -/
  sentRes : List (Nat × Option Word) := []
  /-- Reduction instances of the distributor's combining tiles, in the order of their first input (R296). -/
  insts : List Inst := []
  /-- Rotation counter of each tile (R297). -/
  rotation : List (Nat × Nat) := []
  /-- The spilled instance the TSU holds, and the HT of its last SPILL_IN (R297, R298). -/
  spilled : Option (Inst × HT) := none
  /-- The continuity store of a leaf: slots by 32 × set + slot, and job contexts by number. -/
  chains : List (Nat × ChainSlot) := []
  chainCtxs : List (Nat × ChainCtx) := []
  /-- Last node seen to hold a rank of a job, as handle, rank, node (R352, log entry 16). -/
  rankNodes : List (Nat × Nat × Nat) := []
  hbm : Hbm := {}
  /-- Words returned by reads of the fabric aperture (R175), newest last. -/
  fabricRd : List DWord := []
  /-- RESTORE transfers delivered to the host on the receive bulk streams (R435), newest last. -/
  hostBulk : List Delivered := []
  /-- Requests outstanding in the tiles' mailboxes, by tile (R423). -/
  mreqs : List (Nat × Mreq) := []
  /-- The distributor's journal space: a fetch is running for the index, or the word at the index is there (R40). -/
  jnlFetch : Option Nat := none
  jnlReady : Bool := false
  /-- The fetched word held an uncorrected error (R419). -/
  jnlBad : Bool := false
  /-- The package (R450–R470). -/
  pkg : Pkg := {}
  /-- The TSU's hard macros do not carry version 3.2 (R425). -/
  macroBad : Bool := false
  /-- Completions not yet written, oldest first. -/
  todo : List Deferred := []
  /-- Free values drawn so far: the MODEL's own field (log entry 2). -/
  freeIdx : Nat := 0
  /-- Commands that wait, first in first out. -/
  pending : List Instr := []
  deriving DecidableEq, Repr

/-- Why the block stops. No rule of the spec stops a part: every rejected command ends with an outcome code and the part
goes on. Raised by nothing; it is here because the interface has faults. Safe. -/
inductive Fault where
  | stuck
  deriving DecidableEq, Repr

/-- Why a command has no meaning. -/
inductive Refusal where
  /-- Raised by an arm of `exec` whose command has no meaning yet. Safe: the model stops. -/
  | notModelled (mnemonic : String)
  deriving DecidableEq, Repr

/-- The machine right after reset: every register at the reset value its map gives, both parts wiping (SYS_LIFECYCLE.WIPING
reads 1 at reset), nothing queued. -/
def State.reset : State := {}

end Sys2Proof.Machine
end

