-- ==== Sys2Proof/Machine/Frames.lean ====
section
/-!
DEFINITION. Frames as bytes: the payload layouts of the frame types, the header, the pad, the CRC-32 and the flits that carry them (R100–R103), and
the places of flit slots in a block (R98, R111).
-/
namespace Sys2Proof.Machine

/-! ### Payloads -/

/-- Where a type puts its payload fields: offset and width of each, then those of a group of fields that repeats from `from_` on; `data` is where
data bytes follow. -/
structure Layout where
  fixed : List (Nat × Nat)
  from_ : Nat := 0
  group : List Nat := []
  data : Nat := 0

/-- Fields one after another from an offset. -/
def inRow (off : Nat) : List Nat → List (Nat × Nat)
  | [] => []
  | w :: ws => (off, w) :: inRow (off + w) ws

/-- The layout of a continuity message, whose code is its first field (R360). -/
def messageLayout : Nat → Option Layout
  | 1 => some ⟨inRow 0 [1, 1, 8, 8, 2], 0, [], 0⟩
  | 2 => some ⟨inRow 0 [1, 1, 4, 4, 2], 0, [], 0⟩
  | 3 => some ⟨inRow 0 [1, 1, 8, 4, 4, 2], 0, [], 0⟩
  | 4 | 8 => some ⟨inRow 0 [1, 1, 1], 0, [], 0⟩
  | 5 | 7 => some ⟨inRow 0 [1, 1], 0, [], 0⟩
  | 6 => some ⟨inRow 0 [1, 1, 1, 2], 0, [], 0⟩
  | 9 => some ⟨inRow 0 [1, 4, 8, 1, 1], 15, [3, 3], 0⟩
  | 10 => some ⟨inRow 0 [1, 1, 1], 0, [], 0⟩
  | _ => none

/-- The layout of a STEP frame (R276, R332). -/
def stepLayout (ty code : Nat) : Option Layout :=
  match ty with
  | 0x10 => some ⟨inRow 0 [32, 8], 0, [], 0⟩
  | 0x11 => some ⟨inRow 0 [8, 1, 4], 0, [], 0⟩
  | 0x12 => some ⟨inRow 0 [1], 0, [], 0⟩
  | 0x13 => some ⟨inRow 0 [3], 0, [], 0⟩
  | 0x14 | 0x33 => some ⟨inRow 0 [8], 0, [], 0⟩
  | 0x20 => some ⟨inRow 0 [8, 2, 1], 0, [], 0⟩
  | 0x21 => some ⟨inRow 0 [8, 8, 4, 2], 0, [], 0⟩
  | 0x22 => some ⟨inRow 0 [8, 2, 1, 2], 0, [], 0⟩
  | 0x23 => some ⟨[(0, 2), (4, 4)], 0, [], 0⟩
  | 0x30 => some ⟨inRow 0 [8, 1, 3], 0, [], 0⟩
  | 0x31 => some ⟨inRow 0 [4], 0, [], 0⟩
  | 0x32 => messageLayout code
  | 0x40 => some ⟨inRow 0 [1, 1, 8, 8, 1], 0, [], 0⟩
  | 0x41 => some ⟨inRow 18 [1, 1, 8, 4], 0, [], 0⟩
  | 0x50 => some ⟨inRow 0 [2, 8, 2, 1, 1, 4], 18, [3], 0⟩
  | 0x51 | 0x52 => some ⟨inRow 0 [2, 8, 1], 0, [], 0⟩
  | 0x53 => some ⟨inRow 0 [2, 8], 0, [], 0⟩
  | 0x60 => some ⟨inRow 0 [4, 8], 0, [], 0⟩
  | 0x80 => some ⟨inRow 0 [3, 8], 0, [], 0⟩
  | 0x81 | 0x82 | 0x89 => some ⟨inRow 0 [3, 1], 0, [], 0⟩
  | 0x83 | 0x84 => some ⟨[], 0, [], 0⟩
  | 0x85 => some ⟨inRow 0 [1, 3], 0, [], 0⟩
  | 0x86 | 0x87 | 0x88 | 0x8A => some ⟨inRow 0 [3], 0, [], 0⟩
  | 0x8B | 0x8C => some ⟨inRow 0 [1, 3], 0, [], 0⟩
  | 0x8D => some ⟨inRow 0 [2, 1, 1, 16], 0, [], 0⟩
  | 0x8E => some ⟨inRow 0 [2, 1], 0, [], 0⟩
  | 0x8F => some ⟨inRow 0 [3, 1, 1], 0, [], 0⟩
  | _ => none

/-- The layout of a frame's payload. The spec places no field of DIFF beside TXTS, nor any of what a leaf tells its twin of a chain, so these have
none (log entry 128). -/
def Frame.layout (f : Frame) : Option Layout :=
  match f.cls, f.ty with
  | 1, 0x01 => some ⟨inRow 0 [8, 8, 2, 2, 1, 1, 1, 3], 0, [], 0⟩
  | 1, 0x02 => some ⟨inRow 0 [8, 2, 1], 0, [], 0⟩
  | 1, 0x03 => some ⟨inRow 0 [8, 8, 8, 6, 4, 4, 2], 0, [], 0⟩
  | 1, 0xFF => some ⟨inRow 0 [8], 0, [], 0⟩
  | 2, ty => stepLayout ty (f.fields.headD 0)
  | 3, 0x01 => some ⟨inRow 0 [1], 1, [2, 8], 0⟩
  | 4, _ => some ⟨inRow 0 [2, 1, 1, 4, 1, 1, 2] ++ inRow 12 [3] ++ inRow 16 [4, 4, 8], 0, [], 32⟩
  | 5, 0x01 | 5, 0x02 => some ⟨inRow 0 [4, 1, 2], 12, [4], 0⟩
  | 5, 0x03 => some ⟨inRow 0 [2, 1, 1], 4, [4], 0⟩
  | 6, _ => some ⟨inRow 0 [12, 4], 0, [], 16⟩
  | _, _ => none

/-- The places of fields beyond the fixed ones: the group's widths over and over. -/
def groupPlaces (g : List Nat) : Nat → Nat → Nat → List (Nat × Nat)
  | 0, _, _ => []
  | n + 1, off, i => (off, g.getD (i % g.length) 0) :: groupPlaces g n (off + g.getD (i % g.length) 0) (i + 1)

/-- The payload bytes of a frame: its fields in their places, little-endian, the rest zero, then its data (R101). -/
def Frame.payload (f : Frame) : Option (List Byte) :=
  f.layout.map fun l =>
    let more := if l.group.isEmpty then [] else groupPlaces l.group (f.fields.length - l.fixed.length) l.from_ 0
    let at_ := ((l.fixed ++ more).zip f.fields).map fun x => (x.1.1, x.1.2, x.2)
    let len := at_.foldl (fun n x => max n (x.1 + x.2.1)) l.data
    let num := at_.foldl (fun n x => n + (x.2.2 % 256 ^ x.2.1) * 256 ^ x.1) 0
    natLe len num ++ f.data

/-! ### Headers, pad and CRC (R101, R103) -/

/-- Flits of a frame with `n` payload bytes: n flits carry 62n − 28 − PAD (R101). -/
def flitsOf (n : Nat) : Nat := (n + 28 + 61) / 62

/-- A frame with the flits its payload needs. -/
def Frame.sized (f : Frame) : Frame :=
  match f.payload with
  | some b => { f with flits := flitsOf b.length }
  | none => f

/-- The pad of a frame (R101). TIME, STEP and SIG frames fill their last flit with zero payload bytes (R131, R276, R332), the others with pad
(R339; log entry 128). -/
def Frame.pad (f : Frame) (n : Nat) : Nat := if f.cls ≤ 3 then 0 else 62 * f.flits - 28 - n

/-- The 24 header bytes of a sent frame (R101). -/
def Sent.header (x : Sent) (pad : Nat) : List Byte :=
  let f := x.frame
  natLe 2 (f.cls % 16 + 16 * (f.ty % 256) + 4096 * b2n f.tsi + 8192 * b2n x.retx + 16384 * b2n f.nojob) ++ natLe 2 (f.handle % 2 ^ 16)
    ++ natLe 1 (f.gen % 256) ++ natLe 1 (f.flits - 1) ++ natLe 2 (x.seq % 2 ^ 16) ++ natLe 4 (f.epoch % 2 ^ 32) ++ natLe 8 f.origin.toNat
    ++ natLe 2 pad ++ natLe 2 0

/-- Header, payload and pad of a sent frame: what its CRC covers (R103); none where the spec does not lay its payload out. -/
def Sent.covered (x : Sent) : Option (List Byte) :=
  x.frame.payload.map fun b => x.header (x.frame.pad b.length) ++ b ++ List.replicate (62 * x.frame.flits - 28 - b.length) 0

/-- The CRC-32 a sent frame carries (R103). -/
def Sent.mkCrc (x : Sent) : Option Word := x.covered.map crc32

/-- The tag bytes of flit `i` of `n` (R100): START, then CONT; EXP in express frames; END on the last. -/
def flitTag (express : Bool) (i n : Nat) : List Byte :=
  natLe 2 ((if i = 0 then 1 else 2) + 4 * b2n express + 8 * b2n (i + 1 = n))

/-- The flits of a sent frame, 64 bytes each: the tag and 62 bytes of header, payload, pad and CRC, the CRC little-endian (R100–R103). -/
def Sent.flitBytes (x : Sent) : Option (List (List Byte)) :=
  x.covered.map fun b =>
    let all := b ++ natLe 4 (crc32 b).toNat
    (List.range x.frame.flits).map fun i => flitTag (decide (x.frame.cls ≤ 4)) i x.frame.flits ++ (all.drop (62 * i)).take 62

/-! ### Slots of a block (R98, R111) -/

/-- Physical lane of a logical lane in a 15-bit lane map (PRT_Pp_LMAP). -/
def mapLane (m ln : Nat) : Nat := bits m (3 * ln + 2) (3 * ln)

/-- Bits and unit intervals of a codeword for the FEC mode: K and U of R111. -/
def fecK (strong : Bool) : Nat × Nat := if strong then (5140, 680) else (1200, 160)

/-- The data symbol of a START flit in slot `slot`: codeword j and symbol q of R111. -/
def slotSymbol (strong : Bool) (slot : Nat) : Nat × Nat :=
  let b := 512 * slot
  let k := (fecK strong).1
  (b / k, b % k / 10)

/-- The logical lane that carries a START flit's delimiter (R111). -/
def slotLane (strong : Bool) (slot : Nat) : Nat := (slotSymbol strong slot).2 % 4

/-- Unit intervals from the block's start (R111). -/
def slotUi (strong : Bool) (slot : Nat) : Nat :=
  let jq := slotSymbol strong slot
  (fecK strong).2 * jq.1 + 5 * (jq.2 / 4)

/-- Rounding of a sum in 1/25 hu to whole hu, half up (R111). -/
def round25 (x : Int) : HT := BitVec.ofInt 64 ((2 * x + 25) / 50)

/-- Block length in 1/25 hu (R98). -/
def blockLen (strong : Bool) : Nat := if strong then 5570560 else 327680

/-- Flit slots of a block (R98). -/
def slotsPerBlock (strong : Bool) : Nat := if strong then 1285 else 75

/-- A fill slot, which always carries an IDLE flit: 128m + 127 in strong mode (R98). -/
def isFill (strong : Bool) (slot : Nat) : Bool := strong && slot % 128 == 127

/-- Slots of a block that are no fill slots. Places in a direction count these, from block 0 on. -/
def placesPerBlock (strong : Bool) : Nat := if strong then 1275 else 75

/-- Block and slot of a place: after each 127 of a strong block stands a fill slot (R98). -/
def placeSlot (strong : Bool) (d : Nat) : Nat × Nat :=
  let k := placesPerBlock strong
  (d / k, if strong then d % k + d % k / 127 else d % k)

/-- The logical lane of the delimiter of a START flit at a place. -/
def placeLane (strong : Bool) (d : Nat) : Nat := slotLane strong (placeSlot strong d).2

/-- The first place whose slot begins at or after `x` (1/25 hu from the start of block 0). -/
def placeAfter (strong : Bool) (x : Int) : Nat :=
  let m := slotsPerBlock strong
  let k := ceilDiv (x.toNat * m) (blockLen strong)
  k / m * placesPerBlock strong + (if strong then k % m - k % m / 128 else k % m)

/-- When a place's slot begins, in 1/25 hu from the start of block 0. -/
def placeStart (strong : Bool) (d : Nat) : Nat :=
  let x := placeSlot strong d
  x.1 * blockLen strong + x.2 * blockLen strong / slotsPerBlock strong

/-- The first place from `d` on whose delimiter lies on a logical lane; `d` itself where none is asked for (R114, R131). -/
def laneFrom (strong : Bool) (d : Nat) : Option Nat → Nat
  | none => d
  | some ln => d + (((List.range 64).find? fun k => placeLane strong (d + k) == ln).getD 0)

end Sys2Proof.Machine
end

