-- ==== Sys2Proof/Machine/RegMap.lean ====
section
/-!
DEFINITION. The register maps (R381–R423): every register by name, where it lies in each part's address space, its access
code, its writable bits and its reset value; and the reading of a byte address.
-/
namespace Sys2Proof.Machine

/-- Access codes of R6 as the maps use them. `rcNoAlias` is an RC register whose read moves a result and which has no peek
alias (R383, R409); `gpN` is the _N register of a guarded pair (R38). -/
inductive Acc where
  | ro | rc | rcNoAlias | rw | bw | mw | gp | gpN | gk | wo
  deriving DecidableEq, Repr

/-- The groups of registers: a block, or the part of a block that repeats per port, context, wick, output, unit or tile. -/
inductive Grp where
  | sys | slot | tbs | srv | srvPort | srvTile | tdc | dtcOut | dtc | dtcCode | kpr | prt | sen | senCtx | sob | wick | cmb | hlt | jnl | lif | pro | cst | pln | mbr | osc | hbm | hkp | til
  deriving DecidableEq, Repr

/-- One row of a register table. -/
structure RegRow where
  grp : Grp
  off : Nat
  n : Nat
  stride : Nat
  acc : Acc
  wmask : Nat
  reset : Nat
  deriving DecidableEq, Repr

/-- Every register the two register maps list (R387–R404, R414–R422); a family replicated by build or a
numbered array is one name here, its members told apart by an instance and an index. -/
inductive RegName where
  | sysId  -- SYS_ID
  | sysVersion  -- SYS_VERSION
  | sysBuild  -- SYS_BUILD
  | sysNode  -- SYS_NODE
  | sysBoot  -- SYS_BOOT
  | sysSeal  -- SYS_SEAL
  | sysUnlock  -- SYS_UNLOCK
  | sysLifecycle  -- SYS_LIFECYCLE
  | sysLcreq  -- SYS_LCREQ
  | sysUpdate  -- SYS_UPDATE
  | sysUpdMask  -- SYS_UPD_MASK
  | sysUpdAtLo  -- SYS_UPD_AT_LO
  | sysUpdAtHi  -- SYS_UPD_AT_HI
  | sysUpdCancel  -- SYS_UPD_CANCEL
  | sysUpdPend  -- SYS_UPD_PEND
  | sysUpdQueue  -- SYS_UPD_QUEUE
  | sysLasterr  -- SYS_LASTERRc
  | sysIrqSrc  -- SYS_IRQ_SRC
  | sysIrqEn  -- SYS_IRQ_ENo
  | sysIrqOut  -- SYS_IRQ_OUT
  | sysTier  -- SYS_TIER
  | slotState  -- SYS_SLOTc_STATE
  | slotJob  -- SYS_SLOTc_JOB
  | slotEpoch  -- SYS_SLOTc_EPOCH
  | slotLLo  -- SYS_SLOTc_L_LO
  | slotLHi  -- SYS_SLOTc_L_HI
  | slotLate  -- SYS_SLOTc_LATE
  | slotStat  -- SYS_SLOTc_STAT
  | slotDrop  -- SYS_SLOTc_DROP
  | tbsHtLo  -- TBS_HT_LO
  | tbsHtHi  -- TBS_HT_HI
  | tbsHtsetLo  -- TBS_HTSET_LO
  | tbsHtsetHi  -- TBS_HTSET_HI
  | tbsHtsetHiN  -- TBS_HTSET_HI_N
  | tbsQual  -- TBS_QUAL
  | tbsHoldMax  -- TBS_HOLD_MAX
  | tbsHoldErr  -- TBS_HOLD_ERR
  | tbsCalHtLo  -- TBS_CAL_HT_LO
  | tbsCalHtHi  -- TBS_CAL_HT_HI
  | tbsCalSLo  -- TBS_CAL_S_LO
  | tbsCalSHi  -- TBS_CAL_S_HI
  | tbsCalNs  -- TBS_CAL_NS
  | tbsCalRate  -- TBS_CAL_RATE
  | tbsUtcOff  -- TBS_UTC_OFF
  | tbsStat  -- TBS_STAT
  | srvCtrl  -- SRV_CTRL
  | srvCfg  -- SRV_CFG
  | srvGain  -- SRV_GAIN
  | srvThr  -- SRV_THR
  | srvStepThr  -- SRV_STEP_THR
  | srvGate  -- SRV_GATE
  | srvState  -- SRV_STATE
  | srvStat  -- SRV_STAT
  | srvAb  -- SRV_AB
  | srvRem  -- SRV_REM
  | srvRate  -- SRV_RATE
  | srvPState  -- SRV_Pp_STATE
  | srvPOfs  -- SRV_Pp_OFS
  | srvPPath  -- SRV_Pp_PATH
  | srvPAsym  -- SRV_Pp_ASYM
  | srvPWdn  -- SRV_Pp_WDNl
  | srvPWup  -- SRV_Pp_WUPl
  | srvPCnt  -- SRV_Pp_CNT
  | srvLcal  -- SRV_LCAL
  | srvLcalStat  -- SRV_LCAL_STAT
  | srvLcalAsym  -- SRV_LCAL_ASYM
  | tdcCtrl  -- TDC_Uu_CTRL
  | tdcCal  -- TDC_Uu_CAL
  | tdcChCfg  -- TDC_Uu_CHc_CFG
  | tdcStat  -- TDC_Uu_STAT
  | tdcCount  -- TDC_Uu_COUNT
  | tdcCalst  -- TDC_Uu_CALST
  | tdcRsel  -- TDC_Uu_RSEL
  | tdcRstat  -- TDC_Uu_RSTAT
  | tdcRlo  -- TDC_Uu_RLO
  | tdcRhi  -- TDC_Uu_RHI
  | tdcBwt  -- TDC_Uu_BWT
  | tdcHits  -- TDC_Uu_HITS
  | dtcCfg  -- DTC_OUTn_CFG
  | dtcAtLo  -- DTC_OUTn_AT_LO
  | dtcAtHi  -- DTC_OUTn_AT_HI
  | dtcCancel  -- DTC_OUTn_CANCEL
  | dtcStatus  -- DTC_OUTn_STATUS
  | dtcStat  -- DTC_OUTn_STAT
  | dtcLastLo  -- DTC_OUTn_LAST_LO
  | dtcLastHi  -- DTC_OUTn_LAST_HI
  | dtcLate  -- DTC_OUTn_LATE
  | dtcIns  -- DTC_OUTn_INS
  | dtcCal  -- DTC_CAL
  | dtcCode  -- DTC_OUTn_CODE
  | kprCtrl  -- KPR_CTRL
  | kprCfg  -- KPR_CFG
  | kprInc  -- KPR_INC
  | kprBcn  -- KPR_BCN
  | kprBhtLo  -- KPR_BHT_LO
  | kprBhtHi  -- KPR_BHT_HI
  | kprNkeep  -- KPR_NKEEP
  | kprRing  -- KPR_RINGb
  | kprFinc  -- KPR_FINC
  | kprFat  -- KPR_FAT
  | kprFcmd  -- KPR_FCMD
  | kprFstat  -- KPR_FSTAT
  | kprTsel  -- KPR_TSEL
  | kprTatLo  -- KPR_TAT_LO
  | kprTatHi  -- KPR_TAT_HI
  | kprTcan  -- KPR_TCAN
  | kprStat  -- KPR_STAT
  | kprIaddr  -- KPR_IADDR
  | kprIdata  -- KPR_IDATA
  | prtCtrl  -- PRT_Pp_CTRL
  | prtCfg  -- PRT_Pp_CFG
  | prtState  -- PRT_Pp_STATE
  | prtLmap  -- PRT_Pp_LMAP
  | prtPeer  -- PRT_Pp_PEER
  | prtStat  -- PRT_Pp_STAT
  | prtCntCorr  -- PRT_Pp_CNT_CORR
  | prtCntUncorr  -- PRT_Pp_CNT_UNCORR
  | prtCntCrc  -- PRT_Pp_CNT_CRC
  | prtCntRetry  -- PRT_Pp_CNT_RETRY
  | prtCntProto  -- PRT_Pp_CNT_PROTO
  | prtCntLost  -- PRT_Pp_CNT_LOST
  | prtCntBulkdisc  -- PRT_Pp_CNT_BULKDISC
  | prtLerr  -- PRT_Pp_LERRl
  | prtTxlat  -- PRT_Pp_TXLATl
  | prtRxlat  -- PRT_Pp_RXLATl
  | prtSwapAtLo  -- PRT_Pp_SWAP_AT_LO
  | prtSwapAtHi  -- PRT_Pp_SWAP_AT_HI
  | prtSwap  -- PRT_Pp_SWAP
  | prtSwlate  -- PRT_Pp_SWLATE
  | senCtrl  -- SEN_CTRL
  | senCfg  -- SEN_CFG
  | senStatus  -- SEN_STATUS
  | senRun  -- SEN_RUN
  | senStat  -- SEN_STAT
  | senEccCnt  -- SEN_ECC_CNT
  | ctxCmd  -- SEN_CTXc_CMD
  | ctxState  -- SEN_CTXc_STATE
  | ctxPc  -- SEN_CTXc_PC
  | ctxIwin  -- SEN_CTXc_IWIN
  | ctxDwin  -- SEN_CTXc_DWIN
  | ctxFaddr  -- SEN_CTXc_FADDR
  | sobCfg  -- SOB_CFG
  | sobPlCfg  -- SOB_PL_CFG
  | sobSigIdx  -- SOB_SIG_IDX
  | sobSigLo  -- SOB_SIG_LO
  | sobSigHi  -- SOB_SIG_HI
  | sobReset  -- SOB_RESET
  | sobResetN  -- SOB_RESET_N
  | sobStatus  -- SOB_STATUS
  | sobStat  -- SOB_STAT
  | sobCnt  -- SOB_CNT
  | wkCfg  -- SOB_WKn_CFG
  | wkThrLo  -- SOB_WKn_THR_LO
  | wkThrHi  -- SOB_WKn_THR_HI
  | wkState  -- SOB_WKn_STATE
  | wkLast  -- SOB_WKn_LAST
  | cmbCfg  -- CMB_CFG
  | cmbStatus  -- CMB_STATUS
  | cmbStat  -- CMB_STAT
  | cmbCnt  -- CMB_CNT
  | cmbQocc  -- CMB_QOCC
  | cmbRstat  -- CMB_RSTATc
  | hltCfg  -- HLT_CFG
  | hltStatus  -- HLT_STATUS
  | hltSil  -- HLT_SIL
  | hltCondsusp  -- HLT_CONDSUSP
  | hltBinClr  -- HLT_BIN_CLR
  | hltSrcCnt  -- HLT_SRC_CNT
  | hltStat  -- HLT_STAT
  | hltSentExp  -- HLT_SENT_EXPw
  | hltSentRes  -- HLT_SENT_RESw
  | hltBin  -- HLT_BINb
  | jnlCfg  -- JNL_CFG
  | jnlHead  -- JNL_HEAD
  | jnlFill  -- JNL_FILL
  | jnlLost  -- JNL_LOST
  | jnlStat  -- JNL_STAT
  | jnlSpillCtrl  -- JNL_SPILL_CTRL
  | jnlSpillBaseLo  -- JNL_SPILL_BASE_LO
  | jnlSpillBaseHi  -- JNL_SPILL_BASE_HI
  | jnlSpillSize  -- JNL_SPILL_SIZE
  | jnlSpillWr  -- JNL_SPILL_WR
  | jnlSpillRd  -- JNL_SPILL_RD
  | jnlRingRd  -- JNL_RING_RD
  | jnlIpage  -- JNL_IPAGE
  | jnlIaddr  -- JNL_IADDR
  | jnlIdata  -- JNL_IDATA
  | lifCtrl  -- LIF_CTRL
  | lifCfg  -- LIF_CFG
  | lifSaveLo  -- LIF_SAVE_LO
  | lifSaveHi  -- LIF_SAVE_HI
  | lifStatus  -- LIF_STATUS
  | lifStat  -- LIF_STAT
  | lifThrLane  -- LIF_THR_LANE
  | lifThrUnit  -- LIF_THR_UNIT
  | lifThrWear  -- LIF_THR_WEAR
  | lifIaddr  -- LIF_IADDR
  | lifIdata  -- LIF_IDATA
  | proWinRd  -- PRO_WIN_RDc
  | proWinWr  -- PRO_WIN_WRc
  | cstCfg  -- CST_CFG
  | cstCap  -- CST_CAP
  | cstCsel  -- CST_CSEL
  | cstSstate  -- CST_SSTATE
  | cstSblk  -- CST_SBLK
  | cstSlLo  -- CST_SL_LO
  | cstSlHi  -- CST_SL_HI
  | cstSlag  -- CST_SLAG
  | cstJcommitted  -- CST_JCOMMITTED
  | cstJcostLo  -- CST_JCOST_LO
  | cstJcostHi  -- CST_JCOST_HI
  | cstRpl  -- CST_RPL
  | cstRplCnt  -- CST_RPL_CNT
  | cstStat  -- CST_STAT
  | cstCnt  -- CST_CNT
  | cstCnt2  -- CST_CNT2
  | plnCfg  -- PLN_CFG
  | plnRamp  -- PLN_RAMP
  | plnLead  -- PLN_LEAD
  | plnDeadline  -- PLN_DEADLINE
  | plnStat  -- PLN_STAT
  | plnCnt  -- PLN_CNT
  | plnJsel  -- PLN_JSEL
  | plnJstate  -- PLN_JSTATE
  | plnJepoch  -- PLN_JEPOCH
  | plnJlive  -- PLN_JLIVE
  | mbrCfg  -- MBR_CFG
  | mbrCfg2  -- MBR_CFG2
  | mbrFrCfg  -- MBR_FR_CFG
  | mbrNsel  -- MBR_NSEL
  | mbrNstate  -- MBR_NSTATE
  | mbrNsil  -- MBR_NSIL
  | mbrNcond  -- MBR_NCOND
  | mbrFence  -- MBR_FENCE
  | mbrJnotify  -- MBR_JNOTIFY
  | mbrJevt  -- MBR_JEVT
  | mbrJevtNode  -- MBR_JEVT_NODE
  | mbrFrEstLo  -- MBR_FR_EST_LO
  | mbrFrEstHi  -- MBR_FR_EST_HI
  | mbrFrFail  -- MBR_FR_FAIL
  | mbrStat  -- MBR_STAT
  | mbrCnt  -- MBR_CNT
  | oscCtrl  -- OSC_CTRL
  | oscDac  -- OSC_DAC
  | oscStatus  -- OSC_STATUS
  | oscStat  -- OSC_STAT
  | oscTodLo  -- OSC_TOD_NEXT_LO
  | oscTodHi  -- OSC_TOD_NEXT_HI
  | oscPtpCfg  -- OSC_PTP_CFG
  | hbmCfg  -- HBM_CFG
  | hbmSsel  -- HBM_SSEL
  | hbmSstatus  -- HBM_SSTATUS
  | hbmRetired  -- HBM_RETIRED
  | hbmChstatus  -- HBM_CHSTATUS
  | hbmTrend  -- HBM_TREND
  | hbmCap  -- HBM_CAP
  | hbmLasterr  -- HBM_LASTERR
  | hbmStat  -- HBM_STAT
  | hbmEcnt  -- HBM_ECNT
  | hkpStatus  -- HKP_STATUS
  | hkpCfg  -- HKP_CFG
  | hkpKick  -- HKP_KICK
  | hkpCtrl  -- HKP_CTRL
  | hkpH2p  -- HKP_H2Pi
  | hkpP2h  -- HKP_P2Hi
  | hkpBoot  -- HKP_BOOT
  | hkpStat  -- HKP_STAT
  | tilId  -- TIL_ID
  | tilCfg  -- TIL_CFG
  | tilStatus  -- TIL_STATUS
  | tilStat  -- TIL_STAT
  | tilMeshCnt  -- TIL_MESH_CNT
  | tilJseq  -- TIL_JSEQ
  | tilMreqPort  -- TIL_MREQ_PORT
  | tilMreqAddr  -- TIL_MREQ_ADDR
  | tilMreqGo  -- TIL_MREQ_GO
  | tilMreqStatus  -- TIL_MREQ_STATUS
  | tilMreqData  -- TIL_MREQ_DATAi
  deriving DecidableEq, Repr

/-- The registers in the order of the maps. -/
def names_sys : List RegName := [.sysId, .sysVersion, .sysBuild, .sysNode, .sysBoot, .sysSeal, .sysUnlock, .sysLifecycle, .sysLcreq, .sysUpdate, .sysUpdMask, .sysUpdAtLo, .sysUpdAtHi, .sysUpdCancel, .sysUpdPend, .sysUpdQueue, .sysLasterr, .sysIrqSrc, .sysIrqEn, .sysIrqOut, .sysTier]
def names_slot : List RegName := [.slotState, .slotJob, .slotEpoch, .slotLLo, .slotLHi, .slotLate, .slotStat, .slotDrop]
def names_tbs : List RegName := [.tbsHtLo, .tbsHtHi, .tbsHtsetLo, .tbsHtsetHi, .tbsHtsetHiN, .tbsQual, .tbsHoldMax, .tbsHoldErr, .tbsCalHtLo, .tbsCalHtHi, .tbsCalSLo, .tbsCalSHi, .tbsCalNs, .tbsCalRate, .tbsUtcOff, .tbsStat]
def names_srv : List RegName := [.srvCtrl, .srvCfg, .srvGain, .srvThr, .srvStepThr, .srvGate, .srvState, .srvStat, .srvAb, .srvRem, .srvRate]
def names_srvPort : List RegName := [.srvPState, .srvPOfs, .srvPPath, .srvPAsym, .srvPWdn, .srvPWup, .srvPCnt]
def names_srvTile : List RegName := [.srvLcal, .srvLcalStat, .srvLcalAsym]
def names_tdc : List RegName := [.tdcCtrl, .tdcCal, .tdcChCfg, .tdcStat, .tdcCount, .tdcCalst, .tdcRsel, .tdcRstat, .tdcRlo, .tdcRhi, .tdcBwt, .tdcHits]
def names_dtcOut : List RegName := [.dtcCfg, .dtcAtLo, .dtcAtHi, .dtcCancel, .dtcStatus, .dtcStat, .dtcLastLo, .dtcLastHi, .dtcLate, .dtcIns]
def names_dtc : List RegName := [.dtcCal]
def names_dtcCode : List RegName := [.dtcCode]
def names_kpr : List RegName := [.kprCtrl, .kprCfg, .kprInc, .kprBcn, .kprBhtLo, .kprBhtHi, .kprNkeep, .kprRing, .kprFinc, .kprFat, .kprFcmd, .kprFstat, .kprTsel, .kprTatLo, .kprTatHi, .kprTcan, .kprStat, .kprIaddr, .kprIdata]
def names_prt : List RegName := [.prtCtrl, .prtCfg, .prtState, .prtLmap, .prtPeer, .prtStat, .prtCntCorr, .prtCntUncorr, .prtCntCrc, .prtCntRetry, .prtCntProto, .prtCntLost, .prtCntBulkdisc, .prtLerr, .prtTxlat, .prtRxlat, .prtSwapAtLo, .prtSwapAtHi, .prtSwap, .prtSwlate]
def names_sen : List RegName := [.senCtrl, .senCfg, .senStatus, .senRun, .senStat, .senEccCnt]
def names_senCtx : List RegName := [.ctxCmd, .ctxState, .ctxPc, .ctxIwin, .ctxDwin, .ctxFaddr]
def names_sob : List RegName := [.sobCfg, .sobPlCfg, .sobSigIdx, .sobSigLo, .sobSigHi, .sobReset, .sobResetN, .sobStatus, .sobStat, .sobCnt]
def names_wick : List RegName := [.wkCfg, .wkThrLo, .wkThrHi, .wkState, .wkLast]
def names_cmb : List RegName := [.cmbCfg, .cmbStatus, .cmbStat, .cmbCnt, .cmbQocc, .cmbRstat]
def names_hlt : List RegName := [.hltCfg, .hltStatus, .hltSil, .hltCondsusp, .hltBinClr, .hltSrcCnt, .hltStat, .hltSentExp, .hltSentRes, .hltBin]
def names_jnl : List RegName := [.jnlCfg, .jnlHead, .jnlFill, .jnlLost, .jnlStat, .jnlSpillCtrl, .jnlSpillBaseLo, .jnlSpillBaseHi, .jnlSpillSize, .jnlSpillWr, .jnlSpillRd, .jnlRingRd, .jnlIpage, .jnlIaddr, .jnlIdata]
def names_lif : List RegName := [.lifCtrl, .lifCfg, .lifSaveLo, .lifSaveHi, .lifStatus, .lifStat, .lifThrLane, .lifThrUnit, .lifThrWear, .lifIaddr, .lifIdata]
def names_pro : List RegName := [.proWinRd, .proWinWr]
def names_cst : List RegName := [.cstCfg, .cstCap, .cstCsel, .cstSstate, .cstSblk, .cstSlLo, .cstSlHi, .cstSlag, .cstJcommitted, .cstJcostLo, .cstJcostHi, .cstRpl, .cstRplCnt, .cstStat, .cstCnt, .cstCnt2]
def names_pln : List RegName := [.plnCfg, .plnRamp, .plnLead, .plnDeadline, .plnStat, .plnCnt, .plnJsel, .plnJstate, .plnJepoch, .plnJlive]
def names_mbr : List RegName := [.mbrCfg, .mbrCfg2, .mbrFrCfg, .mbrNsel, .mbrNstate, .mbrNsil, .mbrNcond, .mbrFence, .mbrJnotify, .mbrJevt, .mbrJevtNode, .mbrFrEstLo, .mbrFrEstHi, .mbrFrFail, .mbrStat, .mbrCnt]
def names_osc : List RegName := [.oscCtrl, .oscDac, .oscStatus, .oscStat, .oscTodLo, .oscTodHi, .oscPtpCfg]
def names_hbm : List RegName := [.hbmCfg, .hbmSsel, .hbmSstatus, .hbmRetired, .hbmChstatus, .hbmTrend, .hbmCap, .hbmLasterr, .hbmStat, .hbmEcnt]
def names_hkp : List RegName := [.hkpStatus, .hkpCfg, .hkpKick, .hkpCtrl, .hkpH2p, .hkpP2h, .hkpBoot, .hkpStat]
def names_til : List RegName := [.tilId, .tilCfg, .tilStatus, .tilStat, .tilMeshCnt, .tilJseq, .tilMreqPort, .tilMreqAddr, .tilMreqGo, .tilMreqStatus, .tilMreqData]

/-- Where a register lies and how it behaves: group, offset in the group, members of its array, access code, writable
field bits, and the whole word after reset (R386). Values are the TSU's; `regInfo` makes the distributor's. -/
def row : RegName → RegRow
  | .sysId => ⟨.sys, 0, 1, 4, .ro, 0, 0x5a1f0d33⟩
  | .sysVersion => ⟨.sys, 4, 1, 4, .ro, 0, 0x30200⟩
  | .sysBuild => ⟨.sys, 8, 1, 4, .ro, 0, 0x80400404⟩
  | .sysNode => ⟨.sys, 0xc, 1, 4, .gk, 0xfffff, 0⟩
  | .sysBoot => ⟨.sys, 0x10, 1, 4, .ro, 0, 1⟩
  | .sysSeal => ⟨.sys, 0x14, 1, 4, .wo, 0, 0⟩
  | .sysUnlock => ⟨.sys, 0x18, 1, 4, .wo, 0, 0⟩
  | .sysLifecycle => ⟨.sys, 0x1c, 1, 4, .ro, 0, 0x100⟩
  | .sysLcreq => ⟨.sys, 0x20, 1, 4, .gk, 0, 0⟩
  | .sysUpdate => ⟨.sys, 0x24, 1, 4, .wo, 0, 0⟩
  | .sysUpdMask => ⟨.sys, 0x28, 1, 4, .rw, 0xffffffff, 0⟩
  | .sysUpdAtLo => ⟨.sys, 0x2c, 1, 4, .rw, 0xffffffff, 0⟩
  | .sysUpdAtHi => ⟨.sys, 0x30, 1, 4, .rw, 0xffffffff, 0⟩
  | .sysUpdCancel => ⟨.sys, 0x34, 1, 4, .wo, 0, 0⟩
  | .sysUpdPend => ⟨.sys, 0x38, 1, 4, .ro, 0, 0⟩
  | .sysUpdQueue => ⟨.sys, 0x3c, 1, 4, .ro, 0, 0⟩
  | .sysLasterr => ⟨.sys, 0x40, 7, 4, .rc, 0, 0⟩
  | .sysIrqSrc => ⟨.sys, 0x60, 1, 4, .ro, 0, 0⟩
  | .sysIrqEn => ⟨.sys, 0x70, 4, 4, .rw, 0x80003fff, 0⟩
  | .sysIrqOut => ⟨.sys, 0x80, 1, 4, .ro, 0, 0⟩
  | .sysTier => ⟨.sys, 0x90, 1, 4, .rw, 0xf, 0⟩
  | .slotState => ⟨.slot, 0, 1, 4, .ro, 0, 0⟩
  | .slotJob => ⟨.slot, 4, 1, 4, .ro, 0, 0⟩
  | .slotEpoch => ⟨.slot, 8, 1, 4, .ro, 0, 0⟩
  | .slotLLo => ⟨.slot, 0xc, 1, 4, .ro, 0, 0⟩
  | .slotLHi => ⟨.slot, 0x10, 1, 4, .ro, 0, 0⟩
  | .slotLate => ⟨.slot, 0x14, 1, 4, .ro, 0, 0⟩
  | .slotStat => ⟨.slot, 0x18, 1, 4, .rc, 0, 0⟩
  | .slotDrop => ⟨.slot, 0x1c, 1, 4, .rc, 0, 0⟩
  | .tbsHtLo => ⟨.tbs, 0, 1, 4, .ro, 0, 0⟩
  | .tbsHtHi => ⟨.tbs, 4, 1, 4, .ro, 0, 0⟩
  | .tbsHtsetLo => ⟨.tbs, 8, 1, 4, .rw, 0xffffffff, 0⟩
  | .tbsHtsetHi => ⟨.tbs, 0xc, 1, 4, .gp, 0xffffffff, 0⟩
  | .tbsHtsetHiN => ⟨.tbs, 0x10, 1, 4, .gpN, 0xffffffff, 0⟩
  | .tbsQual => ⟨.tbs, 0x14, 1, 4, .ro, 0, 0⟩
  | .tbsHoldMax => ⟨.tbs, 0x18, 1, 4, .bw, 0xffff, 1⟩
  | .tbsHoldErr => ⟨.tbs, 0x1c, 1, 4, .ro, 0, 0⟩
  | .tbsCalHtLo => ⟨.tbs, 0x20, 1, 4, .bw, 0xffffffff, 0⟩
  | .tbsCalHtHi => ⟨.tbs, 0x24, 1, 4, .bw, 0xffffffff, 0⟩
  | .tbsCalSLo => ⟨.tbs, 0x28, 1, 4, .bw, 0xffffffff, 0⟩
  | .tbsCalSHi => ⟨.tbs, 0x2c, 1, 4, .bw, 0xffff, 0⟩
  | .tbsCalNs => ⟨.tbs, 0x30, 1, 4, .bw, 0x3fffffff, 0⟩
  | .tbsCalRate => ⟨.tbs, 0x34, 1, 4, .bw, 0xffffffff, 0⟩
  | .tbsUtcOff => ⟨.tbs, 0x38, 1, 4, .bw, 0xffff, 0⟩
  | .tbsStat => ⟨.tbs, 0x3c, 1, 4, .rc, 0, 0⟩
  | .srvCtrl => ⟨.srv, 0, 1, 4, .bw, 3, 0⟩
  | .srvCfg => ⟨.srv, 4, 1, 4, .bw, 0xffffff0e, 0x4403c00⟩
  | .srvGain => ⟨.srv, 8, 1, 4, .bw, 0xffff, 0x275c⟩
  | .srvThr => ⟨.srv, 0xc, 1, 4, .bw, 0xffffffff, 0x1000010⟩
  | .srvStepThr => ⟨.srv, 0x10, 1, 4, .bw, 0xffffffff, 0x3e8⟩
  | .srvGate => ⟨.srv, 0x14, 1, 4, .bw, 0xffffffff, 0x200100⟩
  | .srvState => ⟨.srv, 0x18, 1, 4, .ro, 0, 0x1ff0000⟩
  | .srvStat => ⟨.srv, 0x1c, 1, 4, .rc, 0, 0⟩
  | .srvAb => ⟨.srv, 0x20, 1, 4, .ro, 0, 0⟩
  | .srvRem => ⟨.srv, 0x24, 1, 4, .ro, 0, 0⟩
  | .srvRate => ⟨.srv, 0x28, 1, 4, .ro, 0, 0⟩
  | .srvPState => ⟨.srvPort, 0, 1, 4, .ro, 0, 0⟩
  | .srvPOfs => ⟨.srvPort, 4, 1, 4, .ro, 0, 0⟩
  | .srvPPath => ⟨.srvPort, 8, 1, 4, .ro, 0, 0⟩
  | .srvPAsym => ⟨.srvPort, 0xc, 1, 4, .bw, 0xffffffff, 0⟩
  | .srvPWdn => ⟨.srvPort, 0x10, 5, 4, .ro, 0, 0⟩
  | .srvPWup => ⟨.srvPort, 0x30, 5, 4, .ro, 0, 0⟩
  | .srvPCnt => ⟨.srvPort, 0x50, 1, 4, .rc, 0, 0⟩
  | .srvLcal => ⟨.srvTile, 0x40, 1, 4, .gk, 0xc003ffff, 0⟩
  | .srvLcalStat => ⟨.srvTile, 0x44, 1, 4, .ro, 0, 0⟩
  | .srvLcalAsym => ⟨.srvTile, 0x48, 1, 4, .ro, 0, 0⟩
  | .tdcCtrl => ⟨.tdc, 0, 1, 4, .bw, 0x9f0003, 0x940000⟩
  | .tdcCal => ⟨.tdc, 4, 1, 4, .wo, 0, 0⟩
  | .tdcChCfg => ⟨.tdc, 0x10, 9, 4, .bw, 0xffffffff, 0x410000⟩
  | .tdcStat => ⟨.tdc, 0x40, 1, 4, .rc, 0, 0⟩
  | .tdcCount => ⟨.tdc, 0x44, 1, 4, .rc, 0, 0⟩
  | .tdcCalst => ⟨.tdc, 0x48, 1, 4, .ro, 0, 0x40000000⟩
  | .tdcRsel => ⟨.tdc, 0x4c, 1, 4, .rw, 0xf, 0⟩
  | .tdcRstat => ⟨.tdc, 0x50, 1, 4, .rcNoAlias, 0, 0⟩
  | .tdcRlo => ⟨.tdc, 0x54, 1, 4, .ro, 0, 0⟩
  | .tdcRhi => ⟨.tdc, 0x58, 1, 4, .ro, 0, 0⟩
  | .tdcBwt => ⟨.tdc, 0x400, 256, 4, .ro, 0, 0⟩
  | .tdcHits => ⟨.tdc, 0x800, 256, 4, .ro, 0, 0⟩
  | .dtcCfg => ⟨.dtcOut, 0, 1, 4, .bw, 0xfff00703, 0x400⟩
  | .dtcAtLo => ⟨.dtcOut, 4, 1, 4, .rw, 0xffffffff, 0⟩
  | .dtcAtHi => ⟨.dtcOut, 8, 1, 4, .rw, 0xffffffff, 0⟩
  | .dtcCancel => ⟨.dtcOut, 0xc, 1, 4, .wo, 0, 0⟩
  | .dtcStatus => ⟨.dtcOut, 0x10, 1, 4, .ro, 0, 0x10⟩
  | .dtcStat => ⟨.dtcOut, 0x14, 1, 4, .rc, 0, 0⟩
  | .dtcLastLo => ⟨.dtcOut, 0x18, 1, 4, .ro, 0, 0⟩
  | .dtcLastHi => ⟨.dtcOut, 0x1c, 1, 4, .ro, 0, 0⟩
  | .dtcLate => ⟨.dtcOut, 0x20, 1, 4, .ro, 0, 0⟩
  | .dtcIns => ⟨.dtcOut, 0x24, 1, 4, .ro, 0, 0⟩
  | .dtcCal => ⟨.dtc, 0x200, 1, 4, .wo, 0, 0⟩
  | .dtcCode => ⟨.dtcCode, 0, 256, 4, .ro, 0, 0⟩
  | .kprCtrl => ⟨.kpr, 0, 1, 4, .rw, 1, 0⟩
  | .kprCfg => ⟨.kpr, 4, 1, 4, .bw, 0xffff000f, 0x100000f⟩
  | .kprInc => ⟨.kpr, 8, 1, 4, .ro, 0, 0⟩
  | .kprBcn => ⟨.kpr, 0xc, 1, 4, .ro, 0, 0⟩
  | .kprBhtLo => ⟨.kpr, 0x10, 1, 4, .ro, 0, 0⟩
  | .kprBhtHi => ⟨.kpr, 0x14, 1, 4, .ro, 0, 0⟩
  | .kprNkeep => ⟨.kpr, 0x18, 1, 4, .ro, 0, 0⟩
  | .kprRing => ⟨.kpr, 0x20, 4, 4, .ro, 0, 0⟩
  | .kprFinc => ⟨.kpr, 0x30, 1, 4, .rw, 0xffffffff, 0⟩
  | .kprFat => ⟨.kpr, 0x34, 1, 4, .rw, 0xffffffff, 0⟩
  | .kprFcmd => ⟨.kpr, 0x38, 1, 4, .gk, 3, 0⟩
  | .kprFstat => ⟨.kpr, 0x3c, 1, 4, .ro, 0, 0⟩
  | .kprTsel => ⟨.kpr, 0x40, 1, 4, .rw, 0x1fff, 0x1000⟩
  | .kprTatLo => ⟨.kpr, 0x44, 1, 4, .rw, 0xffffffff, 0⟩
  | .kprTatHi => ⟨.kpr, 0x48, 1, 4, .rw, 0xffffffff, 0⟩
  | .kprTcan => ⟨.kpr, 0x4c, 1, 4, .wo, 0, 0⟩
  | .kprStat => ⟨.kpr, 0x50, 1, 4, .rc, 0, 0⟩
  | .kprIaddr => ⟨.kpr, 0x60, 1, 4, .rw, 0x80ffffff, 0x80000000⟩
  | .kprIdata => ⟨.kpr, 0x64, 1, 4, .rw, 0xffffffff, 0⟩
  | .prtCtrl => ⟨.prt, 0, 1, 4, .gk, 3, 0⟩
  | .prtCfg => ⟨.prt, 4, 1, 4, .bw, 0xffff0007, 0xa400004⟩
  | .prtState => ⟨.prt, 8, 1, 4, .ro, 0, 0⟩
  | .prtLmap => ⟨.prt, 0xc, 1, 4, .ro, 0, 0x46884688⟩
  | .prtPeer => ⟨.prt, 0x10, 1, 4, .ro, 0, 0⟩
  | .prtStat => ⟨.prt, 0x14, 1, 4, .rc, 0, 0⟩
  | .prtCntCorr => ⟨.prt, 0x18, 1, 4, .rc, 0, 0⟩
  | .prtCntUncorr => ⟨.prt, 0x1c, 1, 4, .rc, 0, 0⟩
  | .prtCntCrc => ⟨.prt, 0x20, 1, 4, .rc, 0, 0⟩
  | .prtCntRetry => ⟨.prt, 0x24, 1, 4, .rc, 0, 0⟩
  | .prtCntProto => ⟨.prt, 0x28, 1, 4, .rc, 0, 0⟩
  | .prtCntLost => ⟨.prt, 0x2c, 1, 4, .rc, 0, 0⟩
  | .prtCntBulkdisc => ⟨.prt, 0x30, 1, 4, .rc, 0, 0⟩
  | .prtLerr => ⟨.prt, 0x40, 5, 4, .rc, 0, 0⟩
  | .prtTxlat => ⟨.prt, 0x60, 5, 4, .ro, 0, 0x800⟩
  | .prtRxlat => ⟨.prt, 0x80, 5, 4, .ro, 0, 0xe00⟩
  | .prtSwapAtLo => ⟨.prt, 0xa0, 1, 4, .rw, 0xffffffff, 0⟩
  | .prtSwapAtHi => ⟨.prt, 0xa4, 1, 4, .rw, 0xffffffff, 0⟩
  | .prtSwap => ⟨.prt, 0xa8, 1, 4, .gk, 7, 0⟩
  | .prtSwlate => ⟨.prt, 0xac, 1, 4, .ro, 0, 0⟩
  | .senCtrl => ⟨.sen, 0, 1, 4, .rw, 1, 0⟩
  | .senCfg => ⟨.sen, 4, 1, 4, .bw, 0xff03, 0x1000⟩
  | .senStatus => ⟨.sen, 8, 1, 4, .ro, 0, 1⟩
  | .senRun => ⟨.sen, 0xc, 1, 4, .ro, 0, 0⟩
  | .senStat => ⟨.sen, 0x10, 1, 4, .rc, 0, 0⟩
  | .senEccCnt => ⟨.sen, 0x14, 1, 4, .rc, 0, 0⟩
  | .ctxCmd => ⟨.senCtx, 0, 1, 4, .wo, 0, 0⟩
  | .ctxState => ⟨.senCtx, 4, 1, 4, .ro, 0, 0⟩
  | .ctxPc => ⟨.senCtx, 8, 1, 4, .rw, 0xffff, 0⟩
  | .ctxIwin => ⟨.senCtx, 0xc, 1, 4, .rw, 0xffffffff, 0x1000000⟩
  | .ctxDwin => ⟨.senCtx, 0x10, 1, 4, .rw, 0xffffffff, 0x1000000⟩
  | .ctxFaddr => ⟨.senCtx, 0x14, 1, 4, .ro, 0, 0⟩
  | .sobCfg => ⟨.sob, 0, 1, 4, .bw, 0xff, 8⟩
  | .sobPlCfg => ⟨.sob, 4, 1, 4, .bw, 0xffffffff, 0x400c00a⟩
  | .sobSigIdx => ⟨.sob, 8, 1, 4, .rw, 0x1fff, 0⟩
  | .sobSigLo => ⟨.sob, 0xc, 1, 4, .wo, 0, 0⟩
  | .sobSigHi => ⟨.sob, 0x10, 1, 4, .wo, 0, 0⟩
  | .sobReset => ⟨.sob, 0x14, 1, 4, .gp, 0x1fff1fff, 0⟩
  | .sobResetN => ⟨.sob, 0x18, 1, 4, .gpN, 0xffffffff, 0⟩
  | .sobStatus => ⟨.sob, 0x1c, 1, 4, .ro, 0, 0⟩
  | .sobStat => ⟨.sob, 0x20, 1, 4, .rc, 0, 0⟩
  | .sobCnt => ⟨.sob, 0x24, 1, 4, .rc, 0, 0⟩
  | .wkCfg => ⟨.wick, 0, 1, 4, .rw, 0xffffffff, 0⟩
  | .wkThrLo => ⟨.wick, 4, 1, 4, .rw, 0xffffffff, 0⟩
  | .wkThrHi => ⟨.wick, 8, 1, 4, .rw, 0xffff, 0⟩
  | .wkState => ⟨.wick, 0xc, 1, 4, .ro, 0, 0⟩
  | .wkLast => ⟨.wick, 0x10, 1, 4, .ro, 0, 0⟩
  | .cmbCfg => ⟨.cmb, 0, 1, 4, .bw, 0xff01, 0x1400⟩
  | .cmbStatus => ⟨.cmb, 4, 1, 4, .ro, 0, 0x800⟩
  | .cmbStat => ⟨.cmb, 8, 1, 4, .rc, 0, 0⟩
  | .cmbCnt => ⟨.cmb, 0xc, 1, 4, .rc, 0, 0⟩
  | .cmbQocc => ⟨.cmb, 0x10, 1, 4, .rc, 0, 0⟩
  | .cmbRstat => ⟨.cmb, 0x100, 16, 4, .rcNoAlias, 0, 0⟩
  | .hltCfg => ⟨.hlt, 0, 1, 4, .bw, 0xffffff00, 0xc80400⟩
  | .hltStatus => ⟨.hlt, 4, 1, 4, .ro, 0, 0⟩
  | .hltSil => ⟨.hlt, 8, 1, 4, .ro, 0, 0⟩
  | .hltCondsusp => ⟨.hlt, 0xc, 1, 4, .ro, 0, 0⟩
  | .hltBinClr => ⟨.hlt, 0x10, 1, 4, .gk, 0, 0⟩
  | .hltSrcCnt => ⟨.hlt, 0x14, 1, 4, .rc, 0, 0⟩
  | .hltStat => ⟨.hlt, 0x18, 1, 4, .rc, 0, 0⟩
  | .hltSentExp => ⟨.hlt, 0x20, 4, 4, .rw, 0xffffffff, 0⟩
  | .hltSentRes => ⟨.hlt, 0x30, 4, 4, .wo, 0, 0⟩
  | .hltBin => ⟨.hlt, 0x40, 32, 4, .ro, 0, 0⟩
  | .jnlCfg => ⟨.jnl, 0, 1, 4, .bw, 0xfff, 0x100⟩
  | .jnlHead => ⟨.jnl, 4, 1, 4, .ro, 0, 0⟩
  | .jnlFill => ⟨.jnl, 8, 1, 4, .ro, 0, 0⟩
  | .jnlLost => ⟨.jnl, 0xc, 1, 4, .rc, 0, 0⟩
  | .jnlStat => ⟨.jnl, 0x10, 1, 4, .rc, 0, 0⟩
  | .jnlSpillCtrl => ⟨.jnl, 0x20, 1, 4, .rw, 1, 0⟩
  | .jnlSpillBaseLo => ⟨.jnl, 0x24, 1, 4, .rw, 0xffffffff, 0⟩
  | .jnlSpillBaseHi => ⟨.jnl, 0x28, 1, 4, .rw, 0xffffffff, 0⟩
  | .jnlSpillSize => ⟨.jnl, 0x2c, 1, 4, .rw, 0x1f, 7⟩
  | .jnlSpillWr => ⟨.jnl, 0x30, 1, 4, .ro, 0, 0⟩
  | .jnlSpillRd => ⟨.jnl, 0x34, 1, 4, .rw, 0xffffffff, 0⟩
  | .jnlRingRd => ⟨.jnl, 0x38, 1, 4, .rw, 0xffffffff, 0⟩
  | .jnlIpage => ⟨.jnl, 0x3c, 1, 4, .rw, 0xff, 0⟩
  | .jnlIaddr => ⟨.jnl, 0x40, 1, 4, .rw, 0x80ffffff, 0x80000000⟩
  | .jnlIdata => ⟨.jnl, 0x44, 1, 4, .ro, 0, 0⟩
  | .lifCtrl => ⟨.lif, 0, 1, 4, .wo, 0, 0⟩
  | .lifCfg => ⟨.lif, 4, 1, 4, .bw, 0xffff0770, 0x3c0520⟩
  | .lifSaveLo => ⟨.lif, 8, 1, 4, .rw, 0xffffffff, 0⟩
  | .lifSaveHi => ⟨.lif, 0xc, 1, 4, .rw, 0xffffffff, 0⟩
  | .lifStatus => ⟨.lif, 0x10, 1, 4, .ro, 0, 0⟩
  | .lifStat => ⟨.lif, 0x14, 1, 4, .rc, 0, 0⟩
  | .lifThrLane => ⟨.lif, 0x18, 1, 4, .bw, 0xffffffff, 0x100000⟩
  | .lifThrUnit => ⟨.lif, 0x1c, 1, 4, .bw, 0xffffffff, 0x400010⟩
  | .lifThrWear => ⟨.lif, 0x20, 1, 4, .bw, 0xffffffff, 0x100⟩
  | .lifIaddr => ⟨.lif, 0x40, 1, 4, .rw, 0x80ffffff, 0x80000000⟩
  | .lifIdata => ⟨.lif, 0x44, 1, 4, .rw, 0xffffffff, 0⟩
  | .proWinRd => ⟨.pro, 0, 7, 8, .rw, 0xffffffff, 0xffffffff⟩
  | .proWinWr => ⟨.pro, 4, 7, 8, .rw, 0xffffffff, 0xffffffff⟩
  | .cstCfg => ⟨.cst, 0, 1, 4, .bw, 0xffffffff, 0x140a0010⟩
  | .cstCap => ⟨.cst, 4, 1, 4, .ro, 0, 0⟩
  | .cstCsel => ⟨.cst, 0x10, 1, 4, .rw, 0x1ffe0, 0⟩
  | .cstSstate => ⟨.cst, 0x14, 1, 4, .ro, 0, 0⟩
  | .cstSblk => ⟨.cst, 0x18, 1, 4, .ro, 0, 0⟩
  | .cstSlLo => ⟨.cst, 0x1c, 1, 4, .ro, 0, 0⟩
  | .cstSlHi => ⟨.cst, 0x20, 1, 4, .ro, 0, 0⟩
  | .cstSlag => ⟨.cst, 0x24, 1, 4, .ro, 0, 0⟩
  | .cstJcommitted => ⟨.cst, 0x30, 1, 4, .ro, 0, 0⟩
  | .cstJcostLo => ⟨.cst, 0x34, 1, 4, .ro, 0, 0⟩
  | .cstJcostHi => ⟨.cst, 0x38, 1, 4, .ro, 0, 0⟩
  | .cstRpl => ⟨.cst, 0x40, 1, 4, .ro, 0, 0⟩
  | .cstRplCnt => ⟨.cst, 0x44, 1, 4, .rc, 0, 0⟩
  | .cstStat => ⟨.cst, 0x50, 1, 4, .rc, 0, 0⟩
  | .cstCnt => ⟨.cst, 0x54, 1, 4, .rc, 0, 0⟩
  | .cstCnt2 => ⟨.cst, 0x58, 1, 4, .rc, 0, 0⟩
  | .plnCfg => ⟨.pln, 0, 1, 4, .bw, 0xffffff00, 0x14140200⟩
  | .plnRamp => ⟨.pln, 4, 1, 4, .bw, 0xffffffff, 0x200020⟩
  | .plnLead => ⟨.pln, 8, 1, 4, .bw, 0xffffffff, 0x3e800c8⟩
  | .plnDeadline => ⟨.pln, 0xc, 1, 4, .bw, 0xffffffff, 0xc350⟩
  | .plnStat => ⟨.pln, 0x10, 1, 4, .rc, 0, 0⟩
  | .plnCnt => ⟨.pln, 0x14, 1, 4, .rc, 0, 0⟩
  | .plnJsel => ⟨.pln, 0x20, 1, 4, .rw, 0x3ff, 0⟩
  | .plnJstate => ⟨.pln, 0x24, 1, 4, .ro, 0, 0⟩
  | .plnJepoch => ⟨.pln, 0x28, 1, 4, .ro, 0, 0⟩
  | .plnJlive => ⟨.pln, 0x2c, 1, 4, .ro, 0, 0⟩
  | .mbrCfg => ⟨.mbr, 0, 1, 4, .bw, 0xffffffff, 0x1400c8⟩
  | .mbrCfg2 => ⟨.mbr, 4, 1, 4, .bw, 0xffffff00, 0x7d04000⟩
  | .mbrFrCfg => ⟨.mbr, 8, 1, 4, .bw, 0xffff000f, 0xe100004⟩
  | .mbrNsel => ⟨.mbr, 0x10, 1, 4, .rw, 0x1ff, 0⟩
  | .mbrNstate => ⟨.mbr, 0x14, 1, 4, .ro, 0, 0⟩
  | .mbrNsil => ⟨.mbr, 0x18, 1, 4, .ro, 0, 0⟩
  | .mbrNcond => ⟨.mbr, 0x1c, 1, 4, .ro, 0, 0⟩
  | .mbrFence => ⟨.mbr, 0x20, 1, 4, .gk, 0xc00001ff, 0⟩
  | .mbrJnotify => ⟨.mbr, 0x30, 1, 4, .rw, 0xff001fff, 0⟩
  | .mbrJevt => ⟨.mbr, 0x34, 1, 4, .rcNoAlias, 0, 0⟩
  | .mbrJevtNode => ⟨.mbr, 0x38, 1, 4, .ro, 0, 0⟩
  | .mbrFrEstLo => ⟨.mbr, 0x40, 1, 4, .ro, 0, 0⟩
  | .mbrFrEstHi => ⟨.mbr, 0x44, 1, 4, .ro, 0, 0⟩
  | .mbrFrFail => ⟨.mbr, 0x48, 1, 4, .ro, 0, 0⟩
  | .mbrStat => ⟨.mbr, 0x50, 1, 4, .rc, 0, 0⟩
  | .mbrCnt => ⟨.mbr, 0x54, 1, 4, .rc, 0, 0⟩
  | .oscCtrl => ⟨.osc, 0, 1, 4, .bw, 0xffff00f7, 0x3c0000⟩
  | .oscDac => ⟨.osc, 4, 1, 4, .rw, 0xfffff, 0x8000⟩
  | .oscStatus => ⟨.osc, 8, 1, 4, .ro, 0, 0⟩
  | .oscStat => ⟨.osc, 0xc, 1, 4, .rc, 0, 0⟩
  | .oscTodLo => ⟨.osc, 0x10, 1, 4, .rw, 0xffffffff, 0⟩
  | .oscTodHi => ⟨.osc, 0x14, 1, 4, .rw, 0xffff, 0⟩
  | .oscPtpCfg => ⟨.osc, 0x18, 1, 4, .bw, 0x37f, 0⟩
  | .hbmCfg => ⟨.hbm, 0, 1, 4, .bw, 0xff, 0x18⟩
  | .hbmSsel => ⟨.hbm, 4, 1, 4, .rw, 0x3ff, 0⟩
  | .hbmSstatus => ⟨.hbm, 8, 1, 4, .ro, 0, 0⟩
  | .hbmRetired => ⟨.hbm, 0xc, 1, 4, .ro, 0, 0⟩
  | .hbmChstatus => ⟨.hbm, 0x10, 1, 4, .ro, 0, 0⟩
  | .hbmTrend => ⟨.hbm, 0x14, 1, 4, .ro, 0, 0⟩
  | .hbmCap => ⟨.hbm, 0x18, 1, 4, .ro, 0, 0⟩
  | .hbmLasterr => ⟨.hbm, 0x1c, 1, 4, .ro, 0, 0⟩
  | .hbmStat => ⟨.hbm, 0x20, 1, 4, .rc, 0, 0⟩
  | .hbmEcnt => ⟨.hbm, 0x24, 1, 4, .rc, 0, 0⟩
  | .hkpStatus => ⟨.hkp, 0, 1, 4, .ro, 0, 0xfe000000⟩
  | .hkpCfg => ⟨.hkp, 4, 1, 4, .bw, 0xffff, 0x64⟩
  | .hkpKick => ⟨.hkp, 8, 1, 4, .wo, 0, 0⟩
  | .hkpCtrl => ⟨.hkp, 0xc, 1, 4, .gk, 0, 0⟩
  | .hkpH2p => ⟨.hkp, 0x10, 4, 4, .rw, 0xffffffff, 0⟩
  | .hkpP2h => ⟨.hkp, 0x20, 4, 4, .rw, 0xffffffff, 0⟩
  | .hkpBoot => ⟨.hkp, 0x30, 1, 4, .ro, 0, 0⟩
  | .hkpStat => ⟨.hkp, 0x34, 1, 4, .rc, 0, 0⟩
  | .tilId => ⟨.til, 0, 1, 4, .ro, 0, 0⟩
  | .tilCfg => ⟨.til, 4, 1, 4, .bw, 0xffff, 0x64⟩
  | .tilStatus => ⟨.til, 8, 1, 4, .ro, 0, 0⟩
  | .tilStat => ⟨.til, 0xc, 1, 4, .rc, 0, 0⟩
  | .tilMeshCnt => ⟨.til, 0x10, 1, 4, .rc, 0, 0⟩
  | .tilJseq => ⟨.til, 0x14, 1, 4, .ro, 0, 0⟩
  | .tilMreqPort => ⟨.til, 0x20, 1, 4, .rw, 0x1ff, 0⟩
  | .tilMreqAddr => ⟨.til, 0x24, 1, 4, .rw, 0xf3ffffff, 0⟩
  | .tilMreqGo => ⟨.til, 0x28, 1, 4, .wo, 0, 0⟩
  | .tilMreqStatus => ⟨.til, 0x2c, 1, 4, .ro, 0, 0⟩
  | .tilMreqData => ⟨.til, 0x30, 8, 4, .rw, 0xffffffff, 0⟩

/-- The registers of a group. -/
def groupNames : Grp → List RegName
  | .sys => names_sys
  | .slot => names_slot
  | .tbs => names_tbs
  | .srv => names_srv
  | .srvPort => names_srvPort
  | .srvTile => names_srvTile
  | .tdc => names_tdc
  | .dtcOut => names_dtcOut
  | .dtc => names_dtc
  | .dtcCode => names_dtcCode
  | .kpr => names_kpr
  | .prt => names_prt
  | .sen => names_sen
  | .senCtx => names_senCtx
  | .sob => names_sob
  | .wick => names_wick
  | .cmb => names_cmb
  | .hlt => names_hlt
  | .jnl => names_jnl
  | .lif => names_lif
  | .pro => names_pro
  | .cst => names_cst
  | .pln => names_pln
  | .mbr => names_mbr
  | .osc => names_osc
  | .hbm => names_hbm
  | .hkp => names_hkp
  | .til => names_til

/-- The block that a register's name prefix belongs to, numbered as in R34 (R411). -/
def blkOf : Grp → Nat
  | .sys | .slot => 0
  | .tbs => 1
  | .srv | .srvPort | .srvTile => 2
  | .prt => 3
  | .tdc => 4
  | .dtcOut | .dtc | .dtcCode => 5
  | .kpr => 6
  | .sen | .senCtx => 7
  | .sob | .wick => 8
  | .cmb => 9
  | .hlt => 10
  | .jnl => 11
  | .lif => 12
  | .pro => 13
  | .cst => 14
  | .pln => 15
  | .mbr => 16
  | .osc => 17
  | .hbm => 18
  | .hkp => 19
  | .til => 20

/-- Wicks built: 256, the build of the spec's SYS_BUILD example (DESIGN CHOICE, log entry 1). -/
def nWick : Nat := 256
/-- Keepers built: 256 on 4 branches (DESIGN CHOICE, log entry 1). -/
def nKeep : Nat := 256
def nBranch : Nat := 4
/-- Step-link ports built in the TSU: 4 (DESIGN CHOICE, log entry 1). -/
def nPort : Nat := 4

/-- Base of tile `t`'s register region (R405). -/
def tileBase (t : Nat) : Nat := 0x01000000 + 0x00100000 * t
/-- Base of an engine's window region: R381 for the TSU and R405 for tile `t`. -/
def winBase (t : Nat) : Nat := 0x02000000 + 0x00400000 * t

/-- Byte address of a group's instance `i` in a part; none where the part has no such instance. Instances are ports by their
number (R117), wicks, job slots; and for what a tile holds, tile × count + local number. -/
def grpBase (p : PartId) (g : Grp) (i : Nat) : Option Nat :=
  match p, g with
  | _, .sys => if i = 0 then some 0 else none
  | .tsu, .slot => if i < 16 then some (0x100 + 0x20 * i) else none
  | _, .tbs => if i = 0 then some 0x10000 else none
  | _, .srv => if i = 0 then some 0x20000 else none
  | .tsu, .srvPort => if i < nPort then some (0x20100 + 0x80 * i) else none
  | .tsu, .prt => if i < nPort then some (0x30000 + 0x400 * i) else none
  | .tsu, .tdc => if i < 2 then some (0x40000 + 0x1000 * i) else none
  | .tsu, .dtcOut => if i < 8 then some (0x50000 + 0x40 * i) else none
  | .tsu, .dtc => if i = 0 then some 0x50000 else none
  | .tsu, .dtcCode => if i < 8 then some (0x51000 + 0x400 * i) else none
  | .tsu, .kpr => if i = 0 then some 0x60000 else none
  | .tsu, .sen => if i = 0 then some 0x70000 else none
  | .tsu, .senCtx => if i < 16 then some (0x70100 + 0x20 * i) else none
  | .tsu, .sob => if i = 0 then some 0x80000 else none
  | .tsu, .wick => if i < nWick then some (0x81000 + 0x20 * i) else none
  | .tsu, .cmb => if i = 0 then some 0x90000 else none
  | .tsu, .hlt => if i = 0 then some 0xA0000 else none
  | _, .jnl => if i = 0 then some 0xB0000 else none
  | _, .lif => if i = 0 then some 0xC0000 else none
  | _, .pro => if i = 0 then some 0xD0000 else none
  | .dist, .cst => if i = 0 then some 0xE0000 else none
  | .dist, .pln => if i = 0 then some 0xF0000 else none
  | .dist, .mbr => if i = 0 then some 0x100000 else none
  | .dist, .osc => if i = 0 then some 0x110000 else none
  | .dist, .hbm => if i = 0 then some 0x120000 else none
  | .dist, .hkp => if i = 0 then some 0x130000 else none
  | .dist, .til => if i < 8 then some (tileBase i) else none
  | .dist, .srvTile => if i < 8 then some (tileBase i + 0x20000) else none
  | .dist, .srvPort => if i < 274 then some (tileBase (portTile i) + 0x20100 + 0x80 * portLocal i) else none
  | .dist, .prt => if i < 274 then some (tileBase (portTile i) + 0x30000 + 0x200 * portLocal i) else none
  | .dist, .tdc => if i < 16 then some (tileBase (i / 2) + 0x40000 + 0x1000 * (i % 2)) else none
  | .dist, .dtcOut => if i < 8 ∨ (56 ≤ i ∧ i < 64) then some (tileBase (i / 8) + 0x50000 + 0x40 * (i % 8)) else none
  | .dist, .dtc => if i = 0 ∨ i = 7 then some (tileBase i + 0x50000) else none
  | .dist, .dtcCode => if i < 8 ∨ (56 ≤ i ∧ i < 64) then some (tileBase (i / 8) + 0x51000 + 0x400 * (i % 8)) else none
  | .dist, .sen => if i < 8 then some (tileBase i + 0x70000) else none
  | .dist, .senCtx => if i < 128 then some (tileBase (i / 16) + 0x70100 + 0x20 * (i % 16)) else none
  | .dist, .sob => if i < 8 then some (tileBase i + 0x80000) else none
  | .dist, .cmb => if i < 8 then some (tileBase i + 0x90000) else none
  | _, _ => none

/-- Registers that a part's map leaves out of a block it has (R387, R403, R414, R417, R421). -/
def regAbsent (p : PartId) (n : RegName) : Bool :=
  match p, n with
  | .tsu, .sysTier | .tsu, .jnlRingRd | .tsu, .jnlIpage | .tsu, .cmbQocc => true
  | .dist, .cmbRstat => true
  | .dist, .sobCfg | .dist, .sobPlCfg => true
  | .dist, .jnlCfg | .dist, .jnlFill | .dist, .jnlSpillCtrl | .dist, .jnlSpillBaseLo | .dist, .jnlSpillBaseHi
  | .dist, .jnlSpillSize | .dist, .jnlSpillWr | .dist, .jnlSpillRd => true
  | .dist, .lifSaveLo | .dist, .lifSaveHi => true
  | _, _ => false

/-- Byte address of a register: part, name, instance of its group, index in its array. Absent registers answer an address
outside the space, where nothing is stored. -/
def addrOf (p : PartId) (n : RegName) (i : Nat := 0) (j : Nat := 0) : Nat :=
  match grpBase p (row n).grp i with
  | some b => b + (row n).off + (row n).stride * j
  | none => 0x04000000

/-- Writable bits of a register in a part, where the part differs from the TSU's map (R212, R304, R394, R416). -/
def wmaskOf (p : PartId) (n : RegName) (i : Nat) : Nat :=
  match p, n with
  | .tsu, .srvCfg => 0xFFFFFF06
  | .dist, .srvCfg => 0xFFFFFF0A
  | .dist, .sysIrqEn => 0x401FFFFF
  | .dist, .senCfg => 0x0000FF00
  | .dist, .cmbCfg => 0xFFFFFF00
  | .tsu, .prtCfg => 0xFFFF0005
  | .dist, .prtCfg => if i < 256 then 0xFFFF0007 else 0xFFFF0005
  | _, _ => (row n).wmask

/-- The whole word of a register after reset (R386), where it differs from the TSU's table. -/
def resetOf (p : PartId) (n : RegName) (i j : Nat) : Nat :=
  match p, n with
  | .dist, .sysId => 0x5A1F1D03
  | .dist, .sysVersion => 0x00010000
  | .dist, .sysBuild => 0x00001880
  | .dist, .tbsHoldMax => 0x00000E10
  | .dist, .prtCfg => if i < 256 then 0x0A400006 else 0x0A400004
  | .dist, .ctxIwin => 0x04000000
  | .dist, .ctxDwin => 0x10000000
  | .dist, .cmbCfg => 0x00401400
  | .dist, .cmbStatus => 0x00000008
  | .dist, .tilId => i + (if i = 0 ∨ i = 7 then 0x100 else 0)
  | _, .dtcCode => j
  | _, _ => (row n).reset

/-- A located register. -/
structure Loc where
  name : RegName
  inst : Nat
  idx : Nat
  peek : Bool
  deriving DecidableEq, Repr

/-- What a byte address of a part's space means (R381, R405). `hole` carries the protection block, if any. -/
inductive Target where
  | reg (l : Loc)
  | imem (e : EngSel) (word : Nat)
  | dmem (e : EngSel) (byte : Nat)
  | ctxWin (e : EngSel) (off : Nat)
  | objWin (e : EngSel) (off : Nat)
  | rdata (slot off : Nat)
  | hole (blk : Option Nat)
  | outside (blk : Option Nat)
  deriving DecidableEq, Repr

/-- The register of a group's name list at an offset within the group. -/
def findReg (p : PartId) (names : List RegName) (off : Nat) : Option (RegName × Nat) :=
  match names with
  | [] => none
  | n :: ns =>
    let r := row n
    if ¬ regAbsent p n ∧ r.off ≤ off ∧ off < r.off + r.n * r.stride ∧ (off - r.off) % r.stride = 0
    then some (n, (off - r.off) / r.stride) else findReg p ns off

/-- The register at an offset of an instance of a group, or the hole there. -/
def inGroup (p : PartId) (g : Grp) (inst off : Nat) (peek : Bool) : Target :=
  if (grpBase p g inst).isNone then .hole (some (blkOf g)) else
  match findReg p (groupNames g) off with
  | some (n, j) =>
    if peek ∧ (row n).acc ≠ .rc then .hole (some (blkOf g)) else .reg ⟨n, inst, j, peek⟩
  | none => .hole (some (blkOf g))

/-- The register of sub-block `b` at offset `o` in a TSU (`t` none) or in tile `t`'s region. -/
def inBlock (p : PartId) (t : Option Nat) (b o : Nat) (peek : Bool) : Target :=
  let tn := t.getD 0
  let g (gr : Grp) (inst off : Nat) : Target := inGroup p gr inst off peek
  match b with
  | 0 => if t.isSome then g .til tn o else if 0x100 ≤ o ∧ o < 0x300 then g .slot ((o - 0x100) / 0x20) (o % 0x20) else g .sys 0 o
  | 1 => if t.isSome then .hole none else g .tbs 0 o
  | 2 => if t.isSome ∧ o < 0x100 then g .srvTile tn o
         else if o < 0x100 then g .srv 0 o
         else if p = .dist ∧ t.isNone then .hole (some 2)
         else match (if p = .tsu then some ((o - 0x100) / 0x80) else portOf tn ((o - 0x100) / 0x80)) with
           | some n => g .srvPort n (o % 0x80)
           | none => .hole (some 2)
  | 3 => if p = .dist ∧ t.isNone then .hole (some 3)
         else if p = .tsu then g .prt (o / 0x400) (o % 0x400)
         else match portOf tn (o / 0x200) with
           | some n => g .prt n (o % 0x200)
           | none => .hole (some 3)
  | 4 => if p = .dist ∧ t.isNone then .hole (some 4) else if o < 0x2000 then g .tdc (2 * tn + o / 0x1000) (o % 0x1000) else .hole (some 4)
  | 5 => if p = .dist ∧ t.isNone then .hole (some 5)
         else if o < 0x200 then g .dtcOut (8 * tn + o / 0x40) (o % 0x40)
         else if o = 0x200 then g .dtc tn o
         else if 0x1000 ≤ o ∧ o < 0x3000 then g .dtcCode (8 * tn + (o - 0x1000) / 0x400) (o % 0x400)
         else .hole (some 5)
  | 6 => if p = .dist then .hole (some 6) else g .kpr 0 o
  | 7 => if p = .dist ∧ t.isNone then .hole (some 7)
         else if o < 0x100 then g .sen tn o
         else if o < 0x300 then g .senCtx (16 * tn + (o - 0x100) / 0x20) (o % 0x20)
         else .hole (some 7)
  | 8 => if p = .dist ∧ t.isNone then .hole (some 8)
         else if o < 0x1000 then g .sob tn o
         else if p = .tsu then g .wick ((o - 0x1000) / 0x20) (o % 0x20)
         else .hole (some 8)
  | 9 => if p = .dist ∧ t.isNone then .hole (some 9) else g .cmb tn o
  | 10 => if p = .dist then .hole (some 10) else g .hlt 0 o
  | 11 => if t.isSome then .hole none else g .jnl 0 o
  | 12 => if t.isSome then .hole none else g .lif 0 o
  | 13 => if t.isSome then .hole none else g .pro 0 o
  | 14 => if p = .tsu ∨ t.isSome then .hole none else g .cst 0 o
  | 15 => if p = .tsu ∨ t.isSome then .hole none else g .pln 0 o
  | 16 => if p = .tsu ∨ t.isSome then .hole none else g .mbr 0 o
  | 17 => if p = .tsu ∨ t.isSome then .hole none else g .osc 0 o
  | 18 => if p = .tsu ∨ t.isSome then .hole none else g .hbm 0 o
  | 19 => if p = .tsu ∨ t.isSome then .hole none else g .hkp 0 o
  | _ => .hole none

/-- The windows of an engine at an offset of its window region (R381, R385, R407). -/
def inWindow (p : PartId) (e : EngSel) (o : Nat) : Target :=
  let imemSize := if p = .tsu then 0x10000 else 0x40000
  let dmemSize := if p = .tsu then 0x10000 else 0x100000
  if o < 0x100000 then (if o < imemSize then .imem e (o / 4) else .outside (some 7))
  else if o < 0x200000 then (if o - 0x100000 < dmemSize then .dmem e (o - 0x100000) else .outside (some 7))
  else if o < 0x202000 then .ctxWin e (o - 0x200000)
  else if 0x300000 ≤ o ∧ o < 0x340000 then (if o - 0x300000 < 0x20000 then .objWin e (o - 0x300000) else .outside (some 8))
  else .hole none

/-- The meaning of a byte address of a part (R381, R405). -/
def locate (p : PartId) (addr : Nat) : Target :=
  if 0x4000000 ≤ addr then .outside none else
  let peek := decide (0x8000 ≤ addr % 0x10000)
  let o := addr % 0x8000
  match p with
  | .tsu =>
    if addr < 0xE0000 then inBlock .tsu none (addr / 0x10000) o peek
    else if addr < 0x2000000 then .hole none
    else if addr < 0x2400000 then inWindow .tsu .tsu (addr - 0x2000000)
    else if addr < 0x2440000 then .rdata ((addr - 0x2400000) / 0x4000) ((addr - 0x2400000) % 0x4000)
    else .hole none
  | .dist =>
    if addr < 0x140000 then inBlock .dist none (addr / 0x10000) o peek
    else if addr < 0x1000000 then .hole none
    else if addr < 0x1800000 then inBlock .dist (some ((addr - 0x1000000) / 0x100000)) (addr / 0x10000 % 16) o peek
    else if addr < 0x2000000 then .hole none
    else inWindow .dist (.tile (Fin.ofNat 8 ((addr - 0x2000000) / 0x400000))) ((addr - 0x2000000) % 0x400000)

/-- The protection block of an address (R42, R381, R407); none where no window covers it. -/
def blockOfTarget : Target → Option Nat
  | .reg l => some (blkOf (row l.name).grp)
  | .imem _ _ | .dmem _ _ | .ctxWin _ _ => some 7
  | .objWin _ _ => some 8
  | .rdata _ _ => some 9
  | .hole b => b
  | .outside b => b

/-- What an unwritten register word reads as: its reset value (R386). -/
def resetAt (p : PartId) (addr : Nat) : Word :=
  match locate p addr with
  | .reg l => BitVec.ofNat 32 (resetOf p l.name l.inst l.idx)
  | _ => 0

end Sys2Proof.Machine
end

