-- ==== Sys2Proof/Machine/Ops.lean ====
section
/-!
DEFINITION. The named operations every family is written over: reading and writing register words, the journal, outcome
records, hall time and its advance, frames and flits sent, free values, lifetime counts.
-/
namespace Sys2Proof.Machine

/-! ### Parts and register words -/

/-- The part a command is for. -/
def State.part (s : State) : PartId → Part
  | .tsu => s.tsu
  | .dist => s.dist

/-- The state with one part replaced. -/
def State.setPart (s : State) (p : PartId) (q : Part) : State :=
  match p with
  | .tsu => { s with tsu := q }
  | .dist => { s with dist := q }

/-- The state with one part changed by `f`. -/
def State.mod (s : State) (p : PartId) (f : Part → Part) : State := s.setPart p (f (s.part p))

/-- The active word at a byte address (R33: reads return the active copy). -/
def State.rdA (s : State) (p : PartId) (a : Nat) : Word := mget (resetAt p) (s.part p).regs a

/-- The state with the word at a byte address set; nothing is stored outside the 2^26-byte space. -/
def State.wrA (s : State) (p : PartId) (a : Nat) (v : Word) : State :=
  if a < 0x4000000 then s.mod p fun q => { q with regs := mset (resetAt p) q.regs a v } else s

/-- The active word of a register. -/
def State.rd (s : State) (p : PartId) (n : RegName) (i : Nat := 0) (j : Nat := 0) : Word := s.rdA p (addrOf p n i j)

/-- The state with a register's active word set. -/
def State.wr (s : State) (p : PartId) (n : RegName) (v : Word) (i : Nat := 0) (j : Nat := 0) : State :=
  s.wrA p (addrOf p n i j) v

/-- Field `[hi:lo]` of a register. -/
def State.fd (s : State) (p : PartId) (n : RegName) (hi lo : Nat) (i : Nat := 0) (j : Nat := 0) : Nat :=
  fld (s.rd p n i j) hi lo

/-- Bit `b` of a register. -/
def State.bt (s : State) (p : PartId) (n : RegName) (b : Nat) (i : Nat := 0) (j : Nat := 0) : Bool :=
  (s.rd p n i j).getLsbD b

/-- The state with field `[hi:lo]` of a register set. -/
def State.setF (s : State) (p : PartId) (n : RegName) (hi lo v : Nat) (i : Nat := 0) (j : Nat := 0) : State :=
  s.wr p n (setFld (s.rd p n i j) hi lo v) i j

/-- The state with bit `b` of a status register set (an event of a *_STAT register, R29). -/
def State.setB (s : State) (p : PartId) (n : RegName) (b : Nat) (i : Nat := 0) : State := s.setF p n b b 1 i

/-- A saturating counter field increased by `k`. -/
def State.bump (s : State) (p : PartId) (n : RegName) (hi lo k : Nat) (i : Nat := 0) (j : Nat := 0) : State :=
  s.setF p n hi lo (satNat (hi + 1 - lo) (s.fd p n hi lo i j + k)) i j

/-- The node ID a part announces (SYS_NODE, R389). -/
def State.node (s : State) (p : PartId) : Nat := s.fd p .sysNode 19 0

/-- Present hall time of a part. -/
def State.ht (s : State) (p : PartId) : HT := (s.part p).tb.ht

/-- A wipe is running (SYS_LIFECYCLE.WIPING, R47). -/
def State.wiping (s : State) (p : PartId) : Bool := s.bt p .sysLifecycle 8

/-- The life-cycle state (R45): 0 BLANK, 1 PROVISION, 2 SERVICE, 3 RETURN. -/
def State.lcState (s : State) (p : PartId) : Nat := s.fd p .sysLifecycle 1 0

/-- SYS_BOOT.OPEN: the part is not sealed (R43). -/
def State.isOpen (s : State) (p : PartId) : Bool := s.bt p .sysBoot 0

/-- The TSU is FENCED (HLT_STATUS.FENCED, R313). -/
def State.fenced (s : State) : Bool := s.bt .tsu .hltStatus 31

/-- The distributor's tier (SYS_TIER.TIER, R10). -/
def State.tier (s : State) : Nat := s.fd .dist .sysTier 2 0

/-- The distributor's domain (SYS_TIER.DOMAIN): 0 A, 1 B. -/
def State.domain (s : State) : Nat := s.fd .dist .sysTier 3 3

/-! ### Free values -/

/-- Draws a free value: a value the spec leaves open, which nothing constrains (log entry 2). -/
def State.draw (s : State) : DWord × State :=
  (Config.freeBits s.freeIdx, { s with freeIdx := s.freeIdx + 1 })

/-! ### Engines and completions -/

/-- An engine of the block. -/
def State.eng (s : State) (e : EngSel) : Engine := mget (fun _ => {}) s.engines e.key

/-- The state with an engine replaced. -/
def State.setEng (s : State) (e : EngSel) (v : Engine) : State :=
  { s with engines := mset (fun _ => {}) s.engines e.key v }

/-- The state with an engine changed by `f`. -/
def State.modEng (s : State) (e : EngSel) (f : Engine → Engine) : State := s.setEng e (f (s.eng e))

/-- An asynchronous operation, if the cause carries one, reaches its completion; its engine writes the record next (R239). -/
def State.completeOp (s : State) (op : Option OpRef) (c : Code) (v : DWord := 0) (late : Nat := 0) (extra : Nat := 0)
    (results : List Byte := []) : State :=
  match op with
  | some o => { s with todo := s.todo ++ [{ op := o, code := c, value := v, late := late, extra := extra, results := results }] }
  | none => s

/-- Completes an operation whose outcome the journal already holds (R9, R36). -/
def State.completeTold (s : State) (op : Option OpRef) (c : Code) : State :=
  match op with
  | some o => { s with todo := s.todo ++ [{ op := o, code := c, value := 0, told := true }] }
  | none => s

/-! ### The journal (R362–R371) -/

/-- Who writes a record: part, tile (0 in the TSU), block and context field of SOURCE (R363). -/
structure Who where
  p : PartId
  tile : Nat := 0
  blk : Nat
  ctx : Nat := 0x3F
  deriving DecidableEq, Repr

/-- Payload bytes: fields given as (first byte, bytes, value), little-endian, unlisted bytes zero (R365). -/
def pay : List (Nat × Nat × Nat) → Nat
  | [] => 0
  | (off, len, v) :: fs => (v % 256 ^ len) * 256 ^ off + pay fs

/-- The TSU's on-die ring size (R366). -/
def ringSize : Nat := 2048

/-- Numbers of settled spill records advance SPILL_WR over every consecutive number (R367). -/
def advanceSpill : Nat → Nat → List Nat → Nat
  | 0, wr, _ => wr
  | fuel + 1, wr, done => if done.contains wr then advanceSpill fuel (wr + 1) done else wr

/-- A record appended to the TSU's ring, or discarded when the ring is full; either way it takes its number (R366, R368).
Answers whether a record was lost. -/
def pushTsu (j : Journal) (mk : Nat → JRec) (now : HT) : Journal × Bool :=
  if j.recs.length < ringSize then
    ({ j with recs := j.recs ++ [mk j.count], count := j.count + 1 }, false)
  else
    let loss := match j.loss with
      | some (n, h, q) => some (n + 1, h, q)
      | none => some (1, now, j.count % 65536)
    let settled := j.settled ++ [j.count]
    let wr := advanceSpill (settled.length) j.spillWr settled
    ({ j with count := j.count + 1, loss := loss, settled := settled.filter (wr ≤ ·), spillWr := wr }, true)

/-- Outbound fabric writes outstanding, of which there are at most 16 (R432). -/
def State.fabricOut (s : State) : Nat := s.tsu.jnl.outstanding.length + s.tsu.lif.saveOut

/-- Records not yet sent go to the host ring in SEQ order while the host has room (R367), `room` at most (R432). Answers whether one was held
back for want of room at the host. -/
def spillScan (rd size room : Nat) : List JRec → Journal → Journal × Bool
  | [], j => (j, false)
  | r :: rs, j =>
    if r.num < j.nextSpill then spillScan rd size room rs j
    else if room ≤ j.outstanding.length then (j, false)
    else if (r.num + 2 ^ 32 - rd % 2 ^ 32) % 2 ^ 32 < size then
      spillScan rd size room rs { j with outstanding := j.outstanding ++ [r.num], nextSpill := r.num + 1 }
    else (j, true)

/-- Spills what may be spilled, while JNL_SPILL_CTRL.EN is 1 (R367). -/
def State.spillPump (s : State) : State :=
  if s.bt .tsu .jnlSpillCtrl 0 then
    let r := spillScan (s.rd .tsu .jnlSpillRd).toNat (2 ^ s.fd .tsu .jnlSpillSize 4 0) (16 - s.tsu.lif.saveOut) s.tsu.jnl.recs s.tsu.jnl
    let s1 := { s with tsu := { s.tsu with jnl := r.1 } }
    if r.2 then s1.setB .tsu .jnlStat 1 else s1
  else s

/-- Sends the writes of a running save as the fabric has room for them (R432), after the journal's (log entry 141). -/
def State.savePump (s : State) : State :=
  let l := s.tsu.lif
  let n := min (l.saveLeft + l.saveVoid - l.saveOut) (16 - s.fabricOut)
  s.mod .tsu fun q => { q with lif := { q.lif with saveOut := q.lif.saveOut + n } }

/-- The record a writer makes. -/
def State.mkRec (s : State) (w : Who) (h : HT) (ty payload seq num : Nat) : JRec :=
  { ht := h, node := s.node w.p + w.tile, blk := w.blk, ctx := w.ctx, ty := ty, seq := seq, num := num,
    payload := BitVec.ofNat 128 payload }

/-- One record into the TSU's ring. -/
def State.pushRec (s : State) (w : Who) (h : HT) (ty payload : Nat) : State :=
  let r := pushTsu s.tsu.jnl (fun n => s.mkRec w h ty payload (n % 65536) n) (s.ht .tsu)
  let s1 := { s with tsu := { s.tsu with jnl := r.1 } }
  if r.2 then (s1.bump .tsu .jnlLost 31 0 1).setB .tsu .jnlStat 2 else s1

/-- The pending LOSS record, written as soon as there is room (R368). -/
def State.flushLoss (s : State) : State :=
  match s.tsu.jnl.loss with
  | some (n, h, q) =>
    if s.tsu.jnl.recs.length < ringSize then
      let s1 := { s with tsu := { s.tsu with jnl := { s.tsu.jnl with loss := none } } }
      s1.pushRec { p := .tsu, blk := 11 } (s.ht .tsu) 0x0003 (pay [(0, 4, n), (4, 8, h.toNat), (12, 2, q)])
    else s
  | none => s

/-- The distributor's HBM ring size (R370). -/
def hbmRingSize : Nat := 2 ^ 29

/-- A record of a lantern tile's goes into the HBM ring, overwriting the oldest when it is full (R370). -/
def State.pushRing (s : State) (tile : Nat) (r : JRec) : State :=
  let j := s.dist.jnl
  let full := hbmRingSize ≤ j.recs.length
  let lost := full && decide ((s.rd .dist .jnlRingRd).toNat ≤ (j.recs.headD r).num % 2 ^ 32)
  let j1 := { j with
    recs := (if full then j.recs.drop 1 else j.recs) ++ [r]
    count := j.count + 1
    wbuf := mset (fun _ => 0) j.wbuf tile (min 64 (mget (fun _ => 0) j.wbuf tile + 1)) }
  let s1 := { s with dist := { s.dist with jnl := j1 } }
  if lost then (s1.bump .dist .jnlLost 31 0 1).setB .dist .jnlStat 2 else s1

/-- One record of a lantern tile into the HBM ring (R370). -/
def State.pushHbm (s : State) (w : Who) (h : HT) (ty payload : Nat) : State :=
  let j := s.dist.jnl
  let q := mget (fun _ => 0) j.tileSeq w.tile
  let s1 := s.pushRing w.tile (s.mkRec w h ty payload q j.count)
  s1.mod .dist fun v => { v with jnl := { v.jnl with tileSeq := mset (fun _ => 0) v.jnl.tileSeq w.tile ((q + 1) % 65536) } }

/-- A writer appends a numbered record for the instant `h` (R362, R364). A record due during a wipe is discarded
uncounted (R378). -/
def State.jnlAt (s : State) (w : Who) (h : HT) (ty payload : Nat) : State :=
  if s.wiping w.p then s else
  match w.p with
  | .tsu => ((s.flushLoss).pushRec w h ty payload).spillPump
  | .dist => s.pushHbm w h ty payload

/-- A record of the present instant. -/
def State.jnl (s : State) (w : Who) (ty payload : Nat) : State := s.jnlAt w (s.ht w.p) ty payload

/-- An OUTCOME record (R9, R365): code, major opcode or 0x40 or 0x41, PC or word offset or frame class and type, lateness. -/
def State.outcome (s : State) (w : Who) (c : Code) (op pc late : Nat) : State :=
  s.jnl w 0x0101 (pay [(0, 1, c.num), (1, 1, op), (2, 4, pc), (6, 4, satNat 32 late)])

/-- An OUTCOME record for a frame: CLASS in bits [3:0] and TYPE in bits [11:4] (R365). -/
def State.frameOutcome (s : State) (p : PartId) (blk : Nat) (c : Code) (cls ty late : Nat) (tile : Nat := 0) : State :=
  s.outcome { p := p, tile := tile, blk := blk, ctx := 0x20 } c 0x41 (cls + 16 * ty) late

/-- The record SPARE writes for a spare brought in or refused (R365, R377), and LIF_STAT.SPARE for one brought in (R380). -/
def State.spareRec (s : State) (p : PartId) (tile kind unit oldI newI trig : Nat) (c : Code) (trend left : Nat) : State :=
  let s1 := if c = .ok || c = .late then s.setB p .lifStat 4 else s
  s1.jnl { p := p, tile := tile, blk := 12 } 0x0400
    (pay [(0, 1, kind), (1, 1, unit), (2, 2, oldI), (4, 2, newI), (6, 1, trig), (7, 1, c.num), (8, 4, trend), (12, 4, left)])

/-! ### Hall time (R50–R56, R477) -/

/-- Signed difference of two HT values (R51). -/
def htDiff (a b : HT) : Int := (a - b).toInt

/-- `a` is at or after `b` under R51. -/
def atOrAfter (a b : HT) : Bool := decide (0 ≤ htDiff a b)

/-- `a` is after `b` under R51. -/
def after (a b : HT) : Bool := decide (0 < htDiff a b)

/-- The one difference with no valid sign (R51): the only HT operand a range check rejects. -/
def noSign (target now : HT) : Bool := target - now == 0x8000000000000000#64

/-- Rounding up to a tick, modulo 2^64 (R51). -/
def ceilTick (x : HT) : HT := (x + 0xFF#64) &&& 0xFFFFFFFFFFFFFF00#64

/-- Port state 0 DOWN to 7 FAULT (PRT_Pp_STATE.STATE). -/
def State.portState (s : State) (p : PartId) (n : Nat) : Nat := s.fd p .prtState 2 0 n

/-- A port in service (R53): LOCK, NEGOTIATE, CALIBRATE or UP. -/
def State.inService (s : State) (p : PartId) (n : Nat) : Bool :=
  let st := s.portState p n
  decide (3 ≤ st) && decide (st ≤ 6)

/-- The part's 1 GHz time clock runs: always in the distributor, and in the TSU while a port is in service (R53). -/
def State.clockRuns (s : State) (p : PartId) : Bool :=
  match p with
  | .dist => true
  | .tsu => (List.range nPort).any fun n => s.inService .tsu n

/-- The slew per time-clock edge in 2^-24 hu (R143). -/
def slewPerEdge : Nat := 429497

/-- The limit of the rate adjustment, 2^-12 in units of 2^-40 (R50, R139). -/
def rateLimit : Int := 268435456

/-- The rate adjustment per edge in 2^-24 hu: 256 hu times a fraction in 2^-40, rounded down (log entry 4). -/
def rateStep (rate : Int) : Int := rate / 256

/-- The rate adjustment with a slew of `d` per edge (2^-24 hu) in it, limited to ±2^-12 (R50, R139). -/
def TimeBase.rateWith (t : TimeBase) (d : Int) : Int := max (-rateLimit) (min rateLimit (t.rate + d * 256))

/-- The rate adjustment in force: RATE of R139, with SLEWRATE while a slew runs. -/
def TimeBase.applied (t : TimeBase) : Int :=
  t.rateWith (if t.rem = 0 then 0 else if 0 < t.rem then slewPerEdge else -(slewPerEdge : Int))

/-- What one edge adds to HT with a slew of `d` in it, in 2^-24 hu (R50, R143). -/
def TimeBase.perEdge (t : TimeBase) (d : Int) : Int := (2 ^ 32 : Nat) + rateStep (t.rateWith d)

/-- The whole edges of the slew, each of which applies `slewPerEdge`, and what its last edge applies (R143). -/
def TimeBase.slewEdges (t : TimeBase) : Nat × Nat := (t.rem.natAbs / slewPerEdge, t.rem.natAbs % slewPerEdge)

/-- The count after `k` time-clock edges (R50, R143): edges of the full slew, the edge of its remainder, edges without slew. -/
def TimeBase.edges (t : TimeBase) (k : Nat) : TimeBase :=
  let sg : Int := if 0 ≤ t.rem then 1 else -1
  let z := t.slewEdges
  let k1 := min k z.1
  let k2 := if z.1 < k ∧ z.2 ≠ 0 then 1 else 0
  let total : Int := t.sub + k1 * t.perEdge (sg * slewPerEdge) + k2 * t.perEdge (sg * z.2) + (k - k1 - k2 : Nat) * t.perEdge 0
  { t with
    ht := t.ht + BitVec.ofInt 64 (total / (2 ^ 24 : Nat))
    sub := (total % (2 ^ 24 : Nat)).toNat
    rem := t.rem - sg * (k1 * slewPerEdge + k2 * z.2 : Nat)
    edgeNo := t.edgeNo + k }

/-- Edges that add at least `need` when each adds `per`. -/
def edgesFor (need per : Int) : Nat := ((need + per - 1) / per).toNat

/-- Time-clock edges until HT is at or after `target`: 0 when it already is. -/
def TimeBase.edgesTo (t : TimeBase) (target : HT) : Nat :=
  let need : Int := htDiff target t.ht * (2 ^ 24 : Nat) - t.sub
  if need ≤ 0 then 0 else
  let sg : Int := if 0 ≤ t.rem then 1 else -1
  let z := t.slewEdges
  let k1 := edgesFor need (t.perEdge (sg * slewPerEdge))
  if k1 ≤ z.1 then k1 else
  let left := need - z.1 * t.perEdge (sg * slewPerEdge)
  if z.2 = 0 then z.1 + edgesFor left (t.perEdge 0) else z.1 + 1 + edgesFor (left - t.perEdge (sg * z.2)) (t.perEdge 0)

/-- Always-on edges until HT is at or after `target` (R53: 2,560 hu an edge). -/
def aonEdgesTo (now target : HT) : Nat :=
  let d := htDiff target now
  if d ≤ 0 then 0 else ((d + 2559) / 2560).toNat

/-- The HT count a part has at the first of its edges at or after `target` (R50, R53). -/
def State.advanced (s : State) (p : PartId) (target : HT) : TimeBase :=
  let t := (s.part p).tb
  if s.clockRuns p then t.edges (t.edgesTo target)
  else { t with ht := t.ht + BitVec.ofNat 64 (2560 * aonEdgesTo t.ht target) }

/-- Slots whose REPLAY_END named an instant that has come are RUNNING (R254); a gate they opened from REPLAY ends in RUNNING. -/
def State.endReplays (s : State) : State :=
  if s.fenced then s else
  s.slots.foldl (fun t kv =>
    let rest := kv.2.runAt.filter fun x => !atOrAfter (t.ht .tsu) x
    if rest = kv.2.runAt then t
    else
      let t1 := { t with slots := mset (fun _ => {}) t.slots kv.1 { kv.2 with runAt := rest } }
      if t.fd .tsu .slotState 2 0 kv.1 = 5 then t1.setF .tsu .slotState 2 0 2 kv.1
      else t1.setF .tsu .slotState 6 6 0 kv.1) s

/-- The next tick: the next whole nanosecond, or the next always-on edge while the time clock is stopped (R3, R477). -/
def State.nextTick (s : State) (p : PartId) : HT :=
  if s.clockRuns p then ceilTick (s.ht p + 1) else s.ht p + 2560

/-- The tick on which what is due at `x` acts: `x` rounded up to a tick, or while the time clock is stopped the first always-on edge at
which HT is at or after it (R35, R477). -/
def State.tickAt (s : State) (p : PartId) (x : HT) : HT :=
  if s.clockRuns p then ceilTick x else s.ht p + BitVec.ofNat 64 (2560 * aonEdgesTo (s.ht p) x)

/-! ### Frames and flits -/

/-- A frame the part originates; ORIGIN_HT is the present HT (R101), and TSI is 1 in a TIME frame (R112). `lane` is the logical lane asked for
its delimiter. -/
def State.send (s : State) (p : PartId) (d : Dest) (f : Frame) (lane : Option Nat := none) : State :=
  s.mod p fun q => { q with
    sent := q.sent ++ [{ dest := d, frame := { f with origin := q.tb.ht, tsi := f.tsi || decide (f.cls = 1) }.sized, lane := lane }] }

/-- A single flit the part sends on a port (R100). -/
def State.sendFlit (s : State) (p : PartId) (port : Nat) (sub : Option Nat) (fields : List Nat) : State :=
  s.mod p fun q => { q with flits := q.flits ++ [{ port := port, sub := sub, fields := fields }] }

/-- A STEP frame of no job. -/
def nojob (ty : Nat) (fields : List Nat) : Frame := { cls := 2, ty := ty, nojob := true, fields := fields }

/-- Job roots in the table for a node (R307). -/
def State.rootsFor (s : State) (node : Nat) : List Nat :=
  ((s.relays.filter fun x => x.2.members.contains node).map fun x => x.2.root).eraseDups

/-! ### The calendar (R56, R57) -/

/-- The calendar value of an HT value (R56): seconds and nanoseconds. -/
def calendarOf (calHt : HT) (calS calNs : Nat) (calRate : Int) (h : HT) : Nat × Nat :=
  let d := htDiff h calHt
  let c := d + d * calRate / (2 ^ 48 : Nat)
  let nsAll : Int := calNs + c / 256
  ((((calS : Int) + nsAll / 1000000000) % (2 ^ 48 : Nat)).toNat, (nsAll % 1000000000).toNat)

/-- The part's calendar anchor: CAL_HT, CAL_S, CAL_NS, CAL_RATE. -/
def State.anchor (s : State) (p : PartId) : HT × Nat × Nat × Int :=
  (BitVec.ofNat 64 ((s.rd p .tbsCalHtLo).toNat + 2 ^ 32 * (s.rd p .tbsCalHtHi).toNat),
   (s.rd p .tbsCalSLo).toNat + 2 ^ 32 * s.fd p .tbsCalSHi 15 0,
   s.fd p .tbsCalNs 29 0, (s.rd p .tbsCalRate).toInt)

/-- The part's calendar reading of an HT value. -/
def State.calendar (s : State) (p : PartId) (h : HT) : Nat × Nat :=
  let a := s.anchor p
  calendarOf a.1 a.2.1 a.2.2.1 a.2.2.2 h

/-- The calendar registers in the order of CALINFO (R145): CAL_HT, CAL_S, CAL_NS, CAL_RATE and UTC_OFF as words. -/
def calWords (vals : List Nat) : List (RegName × Nat) :=
  match vals with
  | [h, sec, ns, rate, utc] =>
    [(.tbsCalHtLo, h % 2 ^ 32), (.tbsCalHtHi, h / 2 ^ 32), (.tbsCalSLo, sec % 2 ^ 32), (.tbsCalSHi, sec / 2 ^ 32 % 2 ^ 16),
     (.tbsCalNs, ns % 2 ^ 30), (.tbsCalRate, rate % 2 ^ 32), (.tbsUtcOff, utc % 2 ^ 16)]
  | _ => []

/-- The values CALINFO carries (R145). -/
def State.calValues (s : State) (p : PartId) : List Nat :=
  let a := s.anchor p
  [a.1.toNat, a.2.1, a.2.2.1, (s.rd p .tbsCalRate).toNat, s.fd p .tbsUtcOff 15 0]

/-- The active calendar values of a part, UTC offset apart, set at once. -/
def State.setAnchor (s : State) (p : PartId) (h : HT) (sec ns : Nat) (rate : Int) : State :=
  (calWords [h.toNat, sec, ns, wrapInt 32 rate, s.fd p .tbsUtcOff 15 0]).foldl (fun t nv => t.wr p nv.1 (BitVec.ofNat 32 nv.2)) s

/-- The anchor moved to the latest whole nanosecond of the calendar at `h`, from which the calendar runs on at `rate` without a step
(R69). -/
def State.rebase (s : State) (p : PartId) (h : HT) (rate : Int) : State :=
  let a := s.anchor p
  let d := htDiff h a.1
  let cal := s.calendar p h
  s.setAnchor p (h - BitVec.ofInt 64 ((d + d * a.2.2.2 / (2 ^ 48 : Nat)) % 256)) cal.1 cal.2 rate

/-- A CALINFO frame with its effective tick (R130, R145); its first field is TXTS. -/
def calinfoFrame (eff : HT) (vals : List Nat) : Frame :=
  { cls := 1, ty := 3, nojob := true, fields := 0 :: eff.toNat :: vals, flits := 2 }

/-- A frame to every port at which the part is the upstream end (R145): the UP ports that serve. -/
def State.serveDown (s : State) (p : PartId) (f : Frame) : State :=
  ((List.range 274).filter fun n => s.portState p n == 6 && s.fd p .srvPState 2 0 n == 5).foldl (fun t n => t.send p (.port n) f) s

/-- The term of R69 leaves CAL_RATE once its whole seconds have run, and the change goes downstream (R57, R69). -/
def State.endCalTerm (s : State) : State :=
  match s.osc.calTerm with
  | some c =>
    if atOrAfter (s.ht .dist) c.until_ then
      let s1 := { s.rebase .dist c.until_ ((s.anchor .dist).2.2.2 - c.term) with osc := { s.osc with calTerm := none } }
      s1.serveDown .dist (calinfoFrame (s1.nextTick .dist) (s1.calValues .dist))
    else s
  | none => s

/-- What hall time's advance brings with it: SLEW_DONE where the slew has run out (R143, R149), the tiles' journal buffers drained (R370), in
a TSU the replays that end, in a distributor the calendar term that ends. -/
def State.passed (s : State) (p : PartId) (tb : TimeBase) : State :=
  let done := (s.part p).tb.rem ≠ 0 && tb.rem = 0
  let s1 := s.mod p fun q => { q with tb := tb, jnl := { q.jnl with wbuf := [] } }
  let s2 := if done then s1.setB p .srvStat 3 else s1
  match p with
  | .tsu => s2.endReplays
  | .dist => s2.endCalTerm

/-- Brings a part's hall time to the first edge at or after `target`; a target already reached changes nothing. A command
that stands for a timed event is that instant's arrival (log entry 5). -/
def State.reach (s : State) (p : PartId) (target : HT) : State :=
  if atOrAfter (s.ht p) target then s else s.passed p (s.advanced p target)

/-- One edge of the part's clock with nothing commanded. -/
def State.edge (s : State) (p : PartId) : State :=
  let tb := (s.part p).tb
  s.passed p (if s.clockRuns p then tb.edges 1 else { tb with ht := tb.ht + 2560 })

/-- Sets HT, journalling the step with the old and new HT (R54, R140, R365). The blocks on the links stay where they are, so their instants on
the HT scale move with it (R99; log entry 129). -/
def State.stepHt (s : State) (p : PartId) (h : HT) (sub : Nat) (w : Who) : State :=
  let old := s.ht p
  let move (v : PortSt) : PortSt := { v with negAt := v.negAt + (h - old) }
  let s1 := s.mod p fun q => { q with tb := { q.tb with ht := h, sub := sub }, ports := q.ports.foldl (fun m kv => mset (fun _ => {}) m kv.1 (move kv.2)) q.ports }
  s1.jnl w 0x0201 (pay [(0, 8, old.toNat), (8, 8, h.toNat)])

/-! ### Time quality (R58–R60) -/

/-- The time-quality code of a part (TBS_QUAL.QUAL). -/
def State.qual (s : State) (p : PartId) : Nat := s.fd p .tbsQual 2 0

/-- A change of the time-quality code: journalled with the old and new codes (R58). HOLDOVER sets its own status bit. -/
def State.setQual (s : State) (p : PartId) (code : Nat) : State :=
  let old := s.qual p
  if old = code then s else
  let s1 := (s.setF p .tbsQual 2 0 code).setB p .tbsStat 1
  let s2 := if code = 2 then s1.setB p .tbsStat 2 else s1.wr p .tbsHoldErr 0
  s2.jnl { p := p, blk := 1 } 0x0200 (pay [(0, 1, old), (1, 1, code)])

/-- A TIME_EVENT record: register block code, bit number, port and signed value in 2^-8 hu (R365). -/
def State.timeEvent (s : State) (p : PartId) (reg bitNo port : Nat) (v : Int) : State :=
  s.jnl { p := p, blk := if reg = 0 then 1 else if reg = 1 then 2 else 17 } 0x0202
    (pay [(0, 1, reg), (1, 1, bitNo), (2, 2, port), (4, 8, wrapInt 64 v)])

/-! ### Jobs, lifetime counts, trends -/

/-- Every job slot (TSU) or job context (distributor) is FREE. -/
def State.jobsFree (s : State) (p : PartId) : Bool :=
  match p with
  | .tsu => (List.range 16).all fun c => s.fd .tsu .slotState 2 0 c == 0
  | .dist => (s.jobs.all fun kv => kv.2.state == 0) && s.chainCtxs.isEmpty

/-- Adds to a count of the lifetime record, named by its first byte in R372. -/
def State.lifCount (s : State) (p : PartId) (off n : Nat) : State :=
  s.mod p fun q => { q with lif := { q.lif with
    counts := mset (fun _ => 0) q.lif.counts off (mget (fun _ => 0) q.lif.counts off + n) } }

/-- Counts events of a monitored unit for the next trend update (R376). -/
def State.unitEvent (s : State) (p : PartId) (key n : Nat) : State :=
  s.mod p fun q => { q with lif := { q.lif with
    events := mset (fun _ => 0) q.lif.events key (mget (fun _ => 0) q.lif.events key + n) } }

/-! ### Register protocol records -/

/-- Word offset of an address: address bits [25:2] (R26). -/
def wordOff (a : Nat) : Nat := a / 4 % 2 ^ 24

/-- The tile whose journal writer records an access to an address: the tile the address lies in, else tile 0 (log entry 6). -/
def tileOfAddr (p : PartId) (a : Nat) : Nat :=
  match p with
  | .tsu => 0
  | .dist => if 0x1000000 ≤ a ∧ a < 0x1800000 then (a - 0x1000000) / 0x100000
             else if 0x2000000 ≤ a ∧ a < 0x4000000 then (a - 0x2000000) / 0x400000 else 0

/-- The writer of a record about a register access. -/
def whoReg (p : PartId) (src : Src) (a : Nat) : Who :=
  { p := p, tile := tileOfAddr p a, blk := (blockOfTarget (locate p a)).getD 0, ctx := src.jctx }

/-- A configuration-write record (R49): `flags` bit 0 a pending copy, bit 1 a strobe record, which no access issues and
which a frame issues when its class is LINK (R363). -/
def State.cfgRec (s : State) (p : PartId) (src : Src) (a : Nat) (old new : Word) (flags : Nat) (h : HT) (c : Code := .ok) : State :=
  let w := whoReg p src a
  s.jnlAt (if flags = 2 then { w with ctx := if src.cls = .link then 0x20 else 0x3F } else w) h 0x0100
    (pay [(0, 4, wordOff a + 2 ^ 24 * src.cls.num + 2 ^ 27 * (if src.cls = .engine then src.ctx else 0)),
          (4, 4, old.toNat), (8, 4, new.toNat), (12, 1, flags), (13, 1, c.num)])

/-- An OUTCOME record for a register access (R9): 0x40 and the word offset. -/
def State.accessOutcome (s : State) (p : PartId) (src : Src) (a : Nat) (c : Code) (late : Nat) : State :=
  s.outcome (whoReg p src a) c 0x40 (wordOff a) late

end Sys2Proof.Machine
end

