-- ==== Sys2Proof/Machine/Bins.lean ====
section
/-!
DEFINITION. The condition bins of a TSU (R327, R329).
-/
namespace Sys2Proof.Machine

/-- The writer of the HLT block's records. -/
def hltWho : Who := { p := .tsu, blk := 10 }

/-- Sends CONDSUSP to the leaves of both domains (R329, R332). -/
def State.sendCond (s : State) (b : Nat) (clear : Bool) : State :=
  let f : Frame := { cls := 2, ty := 0x8F, nojob := true, fields := [s.node .tsu, b, b2n clear] }
  (s.send .tsu (.leaf 0) f).send .tsu (.leaf 1) f

/-- Counts an event in a bin and its source's field of HLT_SRC_CNT, whose low bit is `lo`; at BIN_THR the die becomes suspect for
the bin (R327, R329). -/
def State.binEvent (s : State) (b lo : Nat) : State :=
  let s1 := ((s.bump .tsu .hltSrcCnt (lo + 7) lo 1).bump .tsu .hltBin 15 0 1 0 b).setB .tsu .hltStat 0
  let thr := s1.fd .tsu .hltCfg 15 8
  if thr = 0 || s1.fd .tsu .hltBin 15 0 0 b < thr || s1.bt .tsu .hltCondsusp b then s1
  else (((s1.setF .tsu .hltCondsusp b b 1).setB .tsu .hltStat 3).jnl hltWho 0x0803 (pay [(0, 1, 1), (1, 1, b), (2, 3, s1.node .tsu)])).sendCond
    b false

/-- The bin the pins give now: 4 × TEMP_BAND + LOAD_CLASS (R327). -/
def State.presentBin (s : State) : Nat := s.fd .tsu .hltStatus 4 0

end Sys2Proof.Machine
end

