-- ==== Sys2Proof/Machine/Objects.lean ====
section
/-!
DEFINITION. Sync objects and signals (R169–R181, R192): the object word, the signal unit, OBJSET, balance, reset, conditions.
Wicks and waiting contexts, which conditions wake, are in Wicks and Engine.
-/
namespace Sys2Proof.Machine

/-! ### The object word (R169) -/

/-- Objects of an engine (R169). -/
def nObj : Nat := 8192

def oMode (w : DWord) : Nat := bits w.toNat 63 60
def oOwner (w : DWord) : Nat := bits w.toNat 59 56
def oDirty (w : DWord) : Bool := w.getLsbD 52
def oArmed (w : DWord) : Bool := w.getLsbD 51
/-- VALUE, bits [47:0]. -/
def oValue (w : DWord) : Nat := bits w.toNat 47 0

/-- A word with field `[hi:lo]` replaced. -/
def setDw (w : DWord) (hi lo v : Nat) : DWord := BitVec.ofNat 64 (setBits w.toNat hi lo v)

/-- An object of an engine. -/
def State.obj (s : State) (e : EngSel) (i : Nat) : SyncObj := mget (fun _ => {}) (s.eng e).objs i

/-- The state with an object replaced. -/
def State.setObj (s : State) (e : EngSel) (i : Nat) (o : SyncObj) : State :=
  s.modEng e fun v => { v with objs := mset (fun _ => {}) v.objs i o }

/-- HT bits [55:8]: the tick number a TIMER compares (R170). -/
def tick48 (h : HT) : Nat := bits h.toNat 55 8

/-- The signed 48-bit difference of R170. -/
def diff48 (a b : Nat) : Int := sext 48 (a + 2 ^ 48 - b % 2 ^ 48)

/-- A TIMER target with no valid sign (R170). -/
def noSign48 (target now : Nat) : Bool := (target + 2 ^ 48 - now) % 2 ^ 48 == 2 ^ 47

/-! ### Job slots as objects see them (R172, R178, R236) -/

/-- State of a TSU job slot (SYS_SLOTc_STATE.STATE): 0 FREE to 6 DRAINING. -/
def State.slotSt (s : State) (c : Nat) : Nat := s.fd .tsu .slotState 2 0 c

/-- The generation a slot's signals carry: SYS_SLOTc_JOB.GEN, and 0 in a tile (R172, R236). -/
def State.slotGen (s : State) (e : EngSel) (c : Nat) : Nat :=
  match e with
  | .tsu => s.fd .tsu .slotJob 31 24 c
  | .tile _ => 0

/-- The owning slot is FREE: in a tile no slot exists, so nothing is refused there for its state (R236; log entry 15). -/
def State.ownerFree (s : State) (e : EngSel) (c : Nat) : Bool := e == .tsu && s.slotSt c == 0

/-- The owning slot is DRAINING. -/
def State.ownerDraining (s : State) (e : EngSel) (c : Nat) : Bool := e == .tsu && s.slotSt c == 6

/-- The object lies in the range of a running SOB_RESET (R180). -/
def State.inReset (s : State) (e : EngSel) (i : Nat) : Bool :=
  match (s.eng e).resetRange with
  | some (a, b) => decide (a ≤ i) && decide (i ≤ b)
  | none => false

/-! ### Signals (R171, R172) -/

/-- The mode-specific rejection of R171. -/
def modeReject (w : DWord) (arg : Nat) : Code :=
  match oMode w with
  | 1 => if arg = 0 ∨ bits arg 47 32 ≠ 0 then .range else .ok
  | 2 | 4 => .ok
  | 3 => firstFail false false (bits arg 19 0 = 0 || bits arg 39 20 ≠ 0) false (bits arg 47 40 ≠ bits w.toNat 47 40) false
  | _ => .state

/-- What an accepted signal makes of the word (R171), and which event it raises: 0 none, 1 overrun, 2 overshoot, 3 non-monotone. -/
def signalWord (w : DWord) (arg : Nat) : DWord × Nat :=
  match oMode w with
  | 1 => let v := bits w.toNat 31 0 + arg
         if v > 0xFFFFFFFF then (setDw (setDw w 31 0 0xFFFFFFFF) 55 55 1, 0) else (setDw w 31 0 v, 0)
  | 2 => if oValue w = 0 then (setDw w 31 0 1, 0) else (setDw w 54 54 1, 1)
  | 3 => let t := bits w.toNat 39 20
         let c := bits w.toNat 19 0 + bits arg 19 0
         if t ≤ c then
           let w1 := setDw (setDw w 47 40 (bits w.toNat 47 40 + 1)) 19 0 0
           if t < c then (setDw w1 54 54 1, 2) else (w1, 0)
         else (setDw w 19 0 c, 0)
  | 4 => if oValue w < arg then (setDw w 47 0 arg, 0) else if arg = oValue w then (w, 0) else (setDw w 53 53 1, 3)
  | _ => (w, 0)

/-- The checks of R172 in their order; BUSY last, in a range that SOB_RESET or a wipe clears (R47, R180). -/
def State.signalCode (s : State) (e : EngSel) (g : Signal) : Code :=
  let o := s.obj e g.idx
  let w := o.word
  let slot := oOwner w
  if e = .tsu && s.fenced && (g.src = 1 || g.src = 2) then .fenced
  else if nObj ≤ g.idx || bits g.word.toNat 63 60 ≠ 0 || g.partly then .range
  else if g.noSlot then .state
  else if oMode w = 0 then .state
  else if oOwner g.word ≠ slot then .perm
  else if bits g.word.toNat 55 48 ≠ s.slotGen e slot then .epoch
  else if oDirty w || s.ownerDraining e slot || (s.ownerFree e slot && g.src ≠ 0) then .state
  else
    let c := modeReject w (oValue g.word)
    if c ≠ .ok then c else if s.inReset e g.idx || s.wiping e.part then .busy else .ok

/-- The writer of an engine's object records. -/
def sobWho (e : EngSel) (jctx : Nat) : Who := { p := e.part, tile := e.tileNo, blk := 8, ctx := jctx }

/-- An OBJ_EVENT record (R365): kind 0 overrun, 1 overshoot, 2 non-monotone, 3 rejected. -/
def State.objEvent (s : State) (e : EngSel) (g : Signal) (c : Code) (kind : Nat) : State :=
  s.jnl (sobWho e g.jctx) 0x0600
    (pay [(0, 2, g.idx), (2, 8, g.word.toNat), (10, 1, c.num), (11, 1, g.src), (12, 1, kind)])

/-- The time-stamp of an accepted signal: HT bits [47:8] (R169). -/
def stampOf (h : HT) : Nat := bits h.toNat 47 8

/-- The signal unit judges one signal and, if it accepts it, changes the word and time-stamp (R171, R172, R176). -/
def State.judge (s : State) (e : EngSel) (g : Signal) : Code × State :=
  let c := s.signalCode e g
  if c ≠ .ok then
    let s1 := (s.bump e.part .sobCnt 31 16 1 e.inst).setB e.part .sobStat 0 e.inst
    (c, s1.objEvent e g c 3)
  else
    let o := s.obj e g.idx
    let r := signalWord o.word (oValue g.word)
    let s1 := s.setObj e g.idx { o with word := r.1, stamp := stampOf (s.ht e.part) }
    let s2 := s1.modEng e fun v => { v with evals := v.evals ++ [g.idx] }
    match r.2 with
    | 0 => (.ok, s2)
    | 3 => (.ok, (s2.setB e.part .sobStat 2 e.inst).objEvent e g .ok 2)
    | k => (.ok, (s2.setB e.part .sobStat 1 e.inst).objEvent e g .ok (k - 1))

/-- A signal arrives (R176). -/
def State.sendSignal (s : State) (e : EngSel) (g : Signal) : State :=
  s.modEng e fun v => { v with signals := v.signals ++ [g] }

/-- SIGNAL_ACCEPT: the oldest signal is accepted or rejected (R176). -/
def signalAccept (e : EngSel) (s : State) : State :=
  match (s.eng e).signals with
  | [] => s
  | g :: gs => ((s.modEng e fun v => { v with signals := gs }).judge e g).2

/-- Accepts every signal that waits, oldest first. -/
def drainSignals : Nat → EngSel → State → State
  | 0, _, s => s
  | n + 1, e, s => drainSignals n e (signalAccept e s)

/-- A signal whose source learns the outcome: the earlier ones are accepted first (R173, R176). -/
def State.signalNow (s : State) (e : EngSel) (g : Signal) : Code × State :=
  (drainSignals (s.eng e).signals.length e s).judge e g

/-- A signal word for a slot: OWNER, GEN and ARG (R171). -/
def State.sigWord (s : State) (e : EngSel) (slot arg : Nat) : DWord :=
  BitVec.ofNat 64 (2 ^ 56 * slot + 2 ^ 48 * s.slotGen e slot + arg % 2 ^ 48)

/-- The slot whose job handle a frame names; a FREE slot holds no job (R174). -/
def State.slotOfHandle (s : State) (h : Nat) : Option Nat :=
  (List.range 16).find? fun c => s.slotSt c ≠ 0 && s.fd .tsu .slotState 31 16 c == h

/-- A STEP or SIG frame's generation and epoch are those of a slot (R174, R255). -/
def State.slotMatches (s : State) (c gen epoch : Nat) : Bool :=
  s.fd .tsu .slotJob 31 24 c == gen && (s.rd .tsu .slotEpoch c).toNat == epoch

/-- Counts a frame dropped for a slot (R255). -/
def State.slotDrop (s : State) (c : Nat) : State := (s.bump .tsu .slotDrop 31 0 1 c).setB .tsu .slotStat 1 c

/-- The FREE slot with an ARM outstanding for a frame's job (R255). -/
def State.freeSlotNamed (s : State) (h : Nat) : Option Nat :=
  (List.range 16).find? fun c => s.slotSt c = 0 && s.bt .tsu .slotState 5 c && s.fd .tsu .slotState 31 16 c = h

/-- A frame for a job that no slot is in: dropped, and counted in the FREE slot that names the job (R255). -/
def State.freeDrop (s : State) (h : Nat) : State :=
  match s.freeSlotNamed h with
  | some c => s.slotDrop c
  | none => s

/-- The signal an entry of a SIG frame makes: its 16-bit index, and a word of the job's OWNER and GEN; a word whose bits [63:48] are not
zero is malformed, and stands as it came (R172, R174; log entry 99). -/
def sigEntry (own : DWord) (noSlot : Bool) (x : BitVec 16 × DWord) : Signal :=
  let bad := decide (x.2 >>> 48 ≠ 0)
  { src := 1, idx := x.1.toNat, jctx := 0x20, noSlot := noSlot, partly := bad, word := if bad then x.2 else own ||| x.2 }

/-- SIG_FRAME: the entries of a SIG frame become signals in entry order; a stale generation or epoch drops the frame (R174). -/
def sigFrame (handle : BitVec 16) (gen : Byte) (epoch : Word) (entries : List (BitVec 16 × DWord)) (s : State) : State :=
  match s.slotOfHandle handle.toNat with
  | none => (entries.take 9).foldl (fun t x => t.sendSignal .tsu (sigEntry 0 true x)) s
  | some c =>
    if !s.slotMatches c gen.toNat epoch.toNat then s.slotDrop c
    else (entries.take 9).foldl (fun t x => t.sendSignal .tsu (sigEntry (BitVec.ofNat 64 (2 ^ 56 * c + 2 ^ 48 * gen.toNat)) false x)) s

/-- Lanes in ascending address order. -/
def insertLane (l : Lane) : List Lane → List Lane
  | [] => [l]
  | x :: xs => if x.idx ≤ l.idx then x :: insertLane l xs else l :: x :: xs

/-- FABRIC_SIGNAL_WRITE: up to four lanes of a written beat become signals in ascending address order, whatever order they are given in; a partly
enabled lane is rejected with RANGE. A read of the aperture returns zero (R175). -/
def fabricBeat (b : FabricBeat) (s : State) : State :=
  match b with
  | .read _ => { s with fabricRd := s.fabricRd ++ [0] }
  | .write lanes => ((lanes.take 4).foldr insertLane []).foldl (fun t l =>
      t.sendSignal .tsu { src := 2, idx := l.idx.val, word := l.word, jctx := 0x3F, partly := !l.full }) s

/-- A write of SOB_SIG_HI: the signal's outcome is the write's (R173). -/
def State.sigHiWrite (s : State) (e : EngSel) (lo hi : Word) (src : Src) : Code × State :=
  s.signalNow e { src := 3, idx := s.fd e.part .sobSigIdx 12 0 e.inst, word := hi ++ lo, jctx := src.jctx }

/-! ### OBJSET (R169, R170, R178) -/

/-- The word breaks the layout of R169 for the MODE written (R178). -/
def badLayout (w : DWord) : Bool :=
  let m := oMode w
  let v := oValue w
  (m = 1 && bits v 47 32 ≠ 0)
  || (m = 2 && 1 < v)
  || (m = 3 && (bits v 39 20 = 0 || bits v 39 20 ≤ bits v 19 0))
  || bits w.toNat 50 48 ≠ 0
  || (oArmed w && m ≠ 5)
  || (w.getLsbD 55 && m ≠ 1)
  || (w.getLsbD 54 && m ≠ 2 && m ≠ 3)
  || (w.getLsbD 53 && m ≠ 4)

/-- The tick at which a TIMER armed now is satisfied: the tick of its target, or the next tick where that has passed (R181). -/
def State.timerDue (s : State) (p : PartId) (target : Nat) : HT :=
  let now := s.ht p
  let d := diff48 target (tick48 now)
  if d ≤ 0 then s.nextTick p else now - BitVec.ofNat 64 (now.toNat % 256) + BitVec.ofInt 64 (256 * d)

/-- An OBJSET by a slot, with the checks of R178 in their order; answers the code and, for a TIMER already passed, the lateness
(R181). -/
def State.objset (s : State) (e : EngSel) (slot i : Nat) (img : DWord) : Code × Nat × State :=
  let o := s.obj e i
  let w := o.word
  let unused := oMode w = 0
  let m := oMode img
  let now := tick48 (s.ht e.part)
  let c : Code :=
    if s.ownerDraining e slot then .state
    else if oDirty w then .state
    else if !unused && oOwner w ≠ slot then .perm
    else if m = 0 || 6 ≤ m then (if unused then .state else .range)
    else if m = 4 && unused && e = .tsu && s.slotSt slot ≠ 0 && !s.bt .tsu .slotState 13 slot then .state
    else if badLayout img then .range
    else if m = 5 && noSign48 (oValue img) now then .range
    else if s.inReset e i then .busy
    else .ok
  if c ≠ .ok then (c, 0, s) else
  let w1 := setDw (setDw (setDw img 59 56 slot) 52 52 0) 51 51 (if m = 5 then 1 else 0)
  let s1 := s.setObj e i { o with word := w1, claim := if unused then w1 else o.claim
                                  due := if m = 5 then s.timerDue e.part (oValue img) else o.due }
  let s2 := s1.modEng e fun v => { v with evals := v.evals ++ [i] }
  if m = 5 && decide (0 ≤ diff48 now (oValue img)) then
    (.late, (htDiff (s.ht e.part) (BitVec.ofNat 64 (oValue img * 256)) % 2 ^ 56).toNat, s2)
  else (.ok, 0, s2)

/-! ### Balance and reset (R179, R180) -/

/-- The words of R179 agree with the claim: flags clear and MODE and value as the mode asks. -/
def wordBalanced (w claim : DWord) : Bool :=
  let flags := w.getLsbD 55 || w.getLsbD 54 || w.getLsbD 53 || oArmed w
  !flags && oMode w = oMode claim &&
    match oMode w with
    | 1 | 2 => oValue w = oValue claim
    | 3 => bits w.toNat 39 0 = bits claim.toNat 39 0
    | _ => true

/-- The objects a slot owns, ascending. -/
def State.ownedBy (s : State) (e : EngSel) (slot : Nat) : List Nat :=
  ((s.eng e).objs.filter fun kv => oMode kv.2.word ≠ 0 && oOwner kv.2.word == slot).map (·.1)

/-- A DIRTY record (R179, R365): index, present word, the claim's VALUE. -/
def State.dirtyRec (s : State) (i : Nat) (o : SyncObj) : State :=
  s.jnl { p := .tsu, blk := 8 } 0x0601 (pay [(0, 2, i), (2, 8, o.word.toNat), (10, 6, oValue o.claim)])

/-- An object becomes DIRTY (R179, R183). -/
def State.makeDirty (s : State) (i : Nat) : State :=
  let o := s.obj .tsu i
  if oDirty o.word then s else
  let o1 := { o with word := setDw o.word 52 52 1 }
  let s1 := ((s.setObj .tsu i o1).setB .tsu .sobStat 3).modEng .tsu fun v => { v with evals := v.evals ++ [i] }
  s1.dirtyRec i o1

/-- Starts the zeroing of a range (R47, R180): BUSY while one or a wipe runs, RANGE for LAST below FIRST. -/
def State.sobReset (s : State) (e : EngSel) (v : Word) : Code × State :=
  let first := fld v 12 0
  let last := fld v 28 16
  let c := firstFail false false (last < first) false false ((s.eng e).resetRange.isSome || s.wiping e.part)
  if c ≠ .ok then (c, s) else
  (.ok, ((s.modEng e fun g => { g with resetRange := some (first, last) }).setF e.part .sobStatus 31 31 1 e.inst).setF
    e.part .sobStatus 29 16 0 e.inst)

/-- SOB_RESET_DONE: the objects of the range that are UNUSED, DIRTY or owned by a FREE slot are zeroed, the others counted
(R180). -/
def sobResetDone (e : EngSel) (s : State) : State :=
  match (s.eng e).resetRange with
  | none => s
  | some (a, b) =>
    let keep (kv : Nat × SyncObj) : Bool :=
      e == .tsu && oMode kv.2.word ≠ 0 && !oDirty kv.2.word && s.slotSt (oOwner kv.2.word) ≠ 0
    let inR (k : Nat) : Bool := decide (a ≤ k) && decide (k ≤ b)
    let objs := (s.eng e).objs
    let skip := (objs.filter fun kv => inR kv.1 && keep kv).length
    let gone := (objs.filter fun kv => inR kv.1 && !keep kv).map (·.1)
    let s1 := s.modEng e fun g => { g with
      objs := objs.filter fun kv => !inR kv.1 || keep kv, resetRange := none, evals := g.evals ++ gone }
    (s1.setF e.part .sobStatus 31 31 0 e.inst).setF e.part .sobStatus 29 16 skip e.inst

/-- DIRTY objects of an engine (SOB_STATUS.DIRTY_CNT). -/
def State.dirtyCount (s : State) (e : EngSel) : Nat := ((s.eng e).objs.filter fun kv => oDirty kv.2.word).length

/-! ### Conditions (R181) -/

/-- A THR or CONSUME that R181 does not permit for a mode; CONSUME is permitted for COUNT and EVENT alone. -/
def condBad (w : DWord) (thr : Nat) (consume : Bool) : Bool :=
  (consume && oMode w ≠ 1 && oMode w ≠ 2) || (oMode w = 1 && (thr = 0 || 0xFFFFFFFF < thr))

/-- The condition of an object and threshold is met (R181). -/
def condMet (w : DWord) (thr : Nat) (now : HT) : Bool :=
  match oMode w with
  | 1 => decide (thr ≤ bits w.toNat 31 0)
  | 2 => oValue w = 1
  | 3 => bits w.toNat 47 40 ≠ thr % 256
  | 4 => decide (thr ≤ oValue w)
  | 5 => decide (0 ≤ diff48 (tick48 now) (oValue w))
  | _ => false

/-- The word after a met condition is consumed (R181). -/
def condConsume (w : DWord) (thr : Nat) : DWord :=
  match oMode w with
  | 1 => setDw w 31 0 (bits w.toNat 31 0 - thr)
  | 2 => setDw w 31 0 0
  | _ => w

/-- Consumes an object's condition. -/
def State.consume (s : State) (e : EngSel) (i thr : Nat) (c : Bool) : State :=
  if c then
    let o := s.obj e i
    s.setObj e i { o with word := condConsume o.word thr }
  else s

/-! ### The object window (R192) -/

/-- A read of the object window: +0 latches the object for the reading class, the others return the latched copy (R192). -/
def State.objWinRead (s : State) (e : EngSel) (off : Nat) (src : Src) : Word × State :=
  let i := off / 16
  let k := src.cls.num
  match off % 16 with
  | 0 =>
    let o := s.obj e i
    (o.word.truncate 32, s.modEng e fun v => { v with latch := mset (fun _ => (0, 0)) v.latch k (o.word, o.stamp) })
  | r =>
    let l := mget (fun _ => ((0 : DWord), 0)) (s.eng e).latch k
    ((if r = 4 then (l.1 >>> 32).truncate 32 else if r = 8 then BitVec.ofNat 32 l.2 else BitVec.ofNat 32 (l.2 / 2 ^ 32 % 256)), s)

/-- A write to the object window: +0 is staged, +4 applies the image as an OBJSET by the slot in its OWNER field, the others are
ignored (R192). -/
def State.objWinWrite (s : State) (e : EngSel) (off : Nat) (v : Word) (src : Src) : Code × Nat × State :=
  let i := off / 16
  let k := src.cls.num
  match off % 16 with
  | 0 => (.ok, 0, s.modEng e fun g => { g with low := mset (fun _ => none) g.low k (some v) })
  | 4 =>
    let lo := (mget (fun _ => none) (s.eng e).low k).getD ((s.obj e i).word.truncate 32)
    let img : DWord := v ++ lo
    let s1 := s.modEng e fun g => { g with low := mset (fun _ => none) g.low k none }
    s1.objset e (oOwner img) i img
  | _ => (.ok, 0, s)

end Sys2Proof.Machine
end

