-- ==== Sys2Proof/Machine/Engine.lean ====
section
/-!
DEFINITION. The step engine (R193–R212) and the exception model (R231–R233): contexts, registers, issue, prefixes, faults,
memories, and the acceptance and completion of asynchronous operations (R239).
-/
namespace Sys2Proof.Machine

/-! ### Contexts and registers (R193, R206) -/

/-- Instance of context `c`'s registers. -/
def ctxInst (e : EngSel) (c : Nat) : Nat := 16 * e.tileNo + c

def State.ctx (s : State) (e : EngSel) (c : Nat) : Ctx := mget (fun _ => {}) (s.eng e).ctxs c

def State.setCtx (s : State) (e : EngSel) (c : Nat) (v : Ctx) : State :=
  s.modEng e fun g => { g with ctxs := mset (fun _ => {}) g.ctxs c v }

/-- The state with one context changed. -/
def State.modCtx (s : State) (e : EngSel) (c : Nat) (f : Ctx → Ctx) : State := s.setCtx e c (f (s.ctx e c))

/-- SEN_CTXc_STATE.STATE: 0 STOPPED, 1 RUNNING, 2 WAITING, 3 STOPPING, 4 FAULTED. -/
def State.cst (s : State) (e : EngSel) (c : Nat) : Nat := s.fd e.part .ctxState 2 0 (ctxInst e c)

def State.setCst (s : State) (e : EngSel) (c v : Nat) : State := s.setF e.part .ctxState 2 0 v (ctxInst e c)

/-- The PC; past the last index of a full IMEM it is 65,536, at which a fetch faults (R203, R225). -/
def State.pc (s : State) (e : EngSel) (c : Nat) : Nat := s.fd e.part .ctxPc 15 0 (ctxInst e c) + if (s.ctx e c).pastEnd then 65536 else 0

def State.setPc (s : State) (e : EngSel) (c v : Nat) : State :=
  (s.wr e.part .ctxPc (BitVec.ofNat 32 (v % 65536)) (ctxInst e c)).modCtx e c fun x => { x with pastEnd := decide (65536 ≤ v) }

/-- g registers: g0 reads as zero and discards writes (R193). -/
def State.g (s : State) (e : EngSel) (c : Nat) (r : Fin 32) : DWord :=
  if r.val = 0 then 0 else mget (fun _ => 0) (s.ctx e c).g r.val

def State.setG (s : State) (e : EngSel) (c : Nat) (r : Fin 32) (v : DWord) : State :=
  if r.val = 0 then s else s.modCtx e c fun x => { x with g := mset (fun _ => 0) x.g r.val v }

/-- t registers (R193). -/
def State.t (s : State) (e : EngSel) (c : Nat) (r : Fin 8) : HT := mget (fun _ => 0) (s.ctx e c).t r.val

def State.setT (s : State) (e : EngSel) (c : Nat) (r : Fin 8) (v : HT) : State :=
  s.modCtx e c fun x => { x with t := mset (fun _ => 0) x.t r.val v }

/-- Predicates (R193, R214). -/
def State.pr (s : State) (e : EngSel) (c : Nat) (r : Fin 8) : Bool := (s.ctx e c).p.testBit r.val

def State.setP (s : State) (e : EngSel) (c : Nat) (r : Fin 8) (v : Bool) : State :=
  s.modCtx e c fun x => { x with p := setBits x.p r.val r.val (b2n v) }

/-- Instructions in a context's IWIN, and bytes in its DWIN (R203). -/
def State.iwinSize (s : State) (e : EngSel) (c : Nat) : Nat := 64 * s.fd e.part .ctxIwin 31 16 (ctxInst e c)
def State.dwinSize (s : State) (e : EngSel) (c : Nat) : Nat := 256 * s.fd e.part .ctxDwin 31 16 (ctxInst e c)
def State.iwinBase (s : State) (e : EngSel) (c : Nat) : Nat := 64 * s.fd e.part .ctxIwin 15 0 (ctxInst e c)
def State.dwinBase (s : State) (e : EngSel) (c : Nat) : Nat := 256 * s.fd e.part .ctxDwin 15 0 (ctxInst e c)

/-- Words of IMEM and bytes of DMEM (R202). -/
def imemWords (e : EngSel) : Nat := if e = .tsu then 16384 else 65536
def dmemBytes (e : EngSel) : Nat := if e = .tsu then 65536 else 1048576

/-- The writer of an engine's records for a context. -/
def senWho (e : EngSel) (ctx : Nat) : Who := { p := e.part, tile := e.tileNo, blk := 7, ctx := ctx }

/-! ### Faults (R209, R232, R233) -/

/-- A context faults: none of the instruction's results is written, the PC goes to the chain's first FX if a chain is open, and
one fault record is journalled; a lantern tile's first interrupts the active housekeeping processor (R209, R216). -/
def State.faultCtx (s : State) (e : EngSel) (c cause faddr : Nat) (word : Word) : State :=
  let x := s.ctx e c
  let i := ctxInst e c
  let pc := if x.fx.isEmpty then s.pc e c else x.fxPc
  let first := e ≠ .tsu && (List.range 16).all fun k => s.cst e k ≠ 4
  let s0 := if first then { s with pkg := { s.pkg with hkpIrq := s.pkg.hkpIrq + 1 } } else s
  let s1 := (s0.setPc e c pc).modCtx e c fun y => { y with fx := [], stepping := false, wait := none }
  let s2 := (s1.wr e.part .ctxState (BitVec.ofNat 32 (16 * (cause % 256) + 4)) i).wr e.part .ctxFaddr (BitVec.ofNat 32 faddr) i
  (s2.setB e.part .senStat 0 e.inst).jnl (senWho e c) 0x0500
    (pay [(0, 4, pc), (4, 4, word.toNat), (8, 4, faddr), (12, 1, cause), (13, 1, c)])

/-- Single-bit errors found in the words read are corrected, written back and counted (R204): IMEM words, DMEM words. -/
def State.eccCorrect (s : State) (e : EngSel) (ws : List Nat) (imem : Bool) : State :=
  let v := s.eng e
  let n := ((if imem then v.oneI else v.oneD).filter ws.contains).length
  if n = 0 then s else
  let s1 := s.modEng e fun g => if imem then { g with oneI := g.oneI.filter fun w => !ws.contains w }
                                else { g with oneD := g.oneD.filter fun w => !ws.contains w }
  (s1.bump e.part .senEccCnt 15 0 n e.inst).setB e.part .senStat 1 e.inst

/-- The 64-bit words that hold bytes `a` to `a + n − 1` of DMEM. -/
def dmemWords (a n : Nat) : List Nat := rangeFrom (a / 8) ((a + n + 7) / 8 - a / 8)

/-- A read of `n` bytes of DMEM, as the errors stored there see it. -/
def State.dmemSeen (s : State) (e : EngSel) (a n : Nat) : State := s.eccCorrect e (dmemWords a n) false

/-- Counts an uncorrected error (R204). -/
def State.eccUncorr (s : State) (e : EngSel) : State :=
  (s.bump e.part .senEccCnt 31 16 1 e.inst).setB e.part .senStat 2 e.inst

/-! ### Issue (R195, R213, R215, R216) -/

/-- How an issued instruction ends. -/
inductive Ends where
  /-- Complete; the PC advances. -/
  | done (s : State)
  /-- A taken branch, CALL or RET with its exact target (R225). -/
  | jump (target : Int) (s : State)
  /-- A fault with cause and FADDR (R233). -/
  | fault (cause faddr : Nat)
  /-- The context waits (R200). -/
  | wait (w : Waiting) (s : State)
  /-- Held: not issued, for want of a tag (R198). -/
  | held
  | halt (s : State)

/-- What an instruction does besides, where it does not fault. -/
def Ends.also (f : State → State) : Ends → Ends
  | .done s => .done (f s)
  | .jump t s => .jump t (f s)
  | .wait w s => .wait w (f s)
  | .halt s => .halt (f s)
  | x => x

/-- A context's instruction ends a chain; a STEP ends with it (R206, R216). -/
def State.retire (s : State) (e : EngSel) (c pc : Nat) : State :=
  let x := s.ctx e c
  let s1 := (s.setPc e c pc).modCtx e c fun y => { y with fx := [], stepping := false }
  if x.stepping then s1.setCst e c 0 else s1

/-- A check of the engine's own fails: a parity error or a residue mismatch (R205), which a TSU counts in a bin (R327). -/
def State.checkFault (s : State) (e : EngSel) (c : Nat) (parity : Bool) (word : Word) : State :=
  let t := (s.setB e.part .senStat (if parity then 3 else 4) e.inst).faultCtx e c (if parity then 0x0B else 0x0C) 0 word
  if e = .tsu then t.binEvent t.presentBin 16 else t

/-! ### The barrel (R195–R197) -/

/-- The issue interval k of an instruction word (R196). -/
def issueInterval (word : Word) : Nat :=
  let op := word.toNat / 2 ^ 26
  let fn := word.toNat % 2 ^ 11
  match op with
  | 0x00 => if fn = 0x10 || fn = 0x11 then 3 else 1
  | 0x10 => match fn % 256 with
    | 0 | 1 | 2 | 5 | 6 => 4
    | 3 => 24
    | 4 => 28
    | _ => 1
  | 0x11 | 0x12 | 0x13 => 4
  | 0x18 | 0x19 | 0x1A | 0x1E => 2
  | _ => 1

/-- FDIV and FSQRT, which share the divide unit (R197). -/
def divides (word : Word) : Bool := 24 ≤ issueInterval word

/-- The engine cycle in which a command's instruction issues: `idle` cycles after the latest one. -/
def State.cycleOf (s : State) (x : CtxRef) : Nat := (s.eng x.eng).cycle + 1 + x.idle

/-- The context that issues in a cycle: of those RUNNING whose issue cycle has come, the one whose number follows, modulo 16, that of the context that
issued last (R195). -/
def State.turnAt (s : State) (e : EngSel) (y : Nat) : Option Nat :=
  ((List.range 16).map fun k => ((s.eng e).last + 1 + k) % 16).find? fun c =>
    s.cst e c = 1 && decide (mget (fun _ => 0) (s.eng e).ready c ≤ y)

/-- A context issues in a cycle: the rotation goes on from it, its next issue is `k` cycles on, and it occupies the divide unit if it divides. -/
def State.tookTurn (s : State) (x : CtxRef) (y : Nat) (word : Word) : State :=
  s.modEng x.eng fun g => { g with
    last := x.ctx.val, cycle := y, ready := mset (fun _ => 0) g.ready x.ctx.val (y + issueInterval word)
    divFree := if divides word then y + issueInterval word else g.divFree }

/-- An open chain is abandoned with the PC at its first FX, and a wait with the PC at it (R206, R208). -/
def State.backOut (s : State) (e : EngSel) (c : Nat) : State :=
  let x := s.ctx e c
  (if x.fx.isEmpty then s else s.setPc e c x.fxPc).modCtx e c fun y => { y with fx := [], wait := none, stepping := false }

/-- An issue by a context: in turn (R195), and not while another divides where it would (R197), in which case it is held and competes again when the
unit is free. In STOPPING nothing issues, but the last instruction issued before the STOP may end: with a fault, which takes the context to FAULTED, or
without, which takes it to STOPPED; a wait is abandoned (R207, R208). -/
def State.inTurn (s : State) (x : CtxRef) (word : Word) (ended : State) : State :=
  let e := x.eng
  let c := x.ctx.val
  let y := s.cycleOf x
  if s.cst e c = 3 then
    match ended.cst e c with
    | 4 => ended
    | 2 => (s.backOut e c).setCst e c 0
    | _ => (ended.backOut e c).setCst e c 0
  else if s.turnAt e y ≠ some c then s
  else if divides word && decide (y < (s.eng e).divFree) then
    s.modEng e fun g => { g with cycle := y, ready := mset (fun _ => 0) g.ready c g.divFree }
  else ended.tookTurn x y word

/-- One instruction whose word is `word`: `prefixed` says that its definition takes a prefix, and `here` is 0, or the cause of an instruction that the
part lacks (R213, R215, R225, R233). -/
def State.executes (s : State) (x : CtxRef) (word : Word) (prefixed : Bool) (here : Nat) (body : Nat → Ends) : State :=
  let e := x.eng
  let c := x.ctx.val
  let pc := s.pc e c
  let fx := (s.ctx e c).fx
  if s.iwinSize e c ≤ pc then s.faultCtx e c 0x05 pc 0
  else if (s.eng e).badI.contains (s.iwinBase e c + pc) then (s.eccUncorr e).faultCtx e c 0x09 pc word
  else if here = 0x01 then s.faultCtx e c 0x01 0 word
  else if 3 ≤ fx.length || (!fx.isEmpty && !prefixed) then s.faultCtx e c 0x02 0 word
  else if here ≠ 0 then s.faultCtx e c here 0 word
  else if x.check = .parity then s.checkFault e c true word
  else match body pc with
    | .fault cause faddr => (if cause = 0x0A then s.eccUncorr e else s).faultCtx e c cause faddr word
    | .done t => if x.check = .residue then s.checkFault e c false word else t.retire e c (pc + 1)
    | .jump g t =>
      if x.check = .residue then s.checkFault e c false word
      else if g < 0 ∨ (s.iwinSize e c : Int) ≤ g then s.faultCtx e c 0x06 (wrapInt 32 g) word
      else t.retire e c g.toNat
    | .wait w t => (t.modCtx e c fun x => { x with wait := some w }).setCst e c 2
    | .held => (s.modCtx e c fun x => { x with wait := some .held }).setCst e c 2
    | .halt t => (t.retire e c (pc + 1)).setCst e c 0

/-- Issues one instruction in a RUNNING context whose turn it is (R195); its fetch corrects a single-bit error of its word (R204). -/
def State.issue (s : State) (x : CtxRef) (word : Word) (prefixed : Bool) (here : Nat) (body : Nat → Ends) : State :=
  let at_ := s.iwinBase x.eng x.ctx + s.pc x.eng x.ctx
  if s.cst x.eng x.ctx ≠ 1 && s.cst x.eng x.ctx ≠ 3 then s
  else s.inTurn x word ((s.executes x word prefixed here body).eccCorrect x.eng [at_] true)

/-- A prefix word: held for the next instruction (R215, R216). -/
def issueFx (y : CtxRef) (imm : Nat) (word : Word) (s : State) : State :=
  let e := y.eng
  let c := y.ctx.val
  if s.cst e c ≠ 1 && s.cst e c ≠ 3 then s else
  let pc := s.pc e c
  s.inTurn y word <|
    if s.iwinSize e c ≤ pc then s.faultCtx e c 0x05 pc 0
    else if (s.eng e).badI.contains (s.iwinBase e c + pc) then (s.eccUncorr e).faultCtx e c 0x09 pc word
    else ((s.setPc e c (pc + 1)).modCtx e c fun x =>
      { x with fx := x.fx ++ [imm % 2 ^ 26], fxPc := if x.fx.isEmpty then pc else x.fxPc }).eccCorrect e [s.iwinBase e c + pc] true

/-- The width and value of an immediate of `w` bits with its prefixes, truncated to 64 bits (R215). -/
def fxConcat (fx : List Nat) (w imm : Nat) : Nat × Nat :=
  let v := fx.foldl (fun acc p => acc * 2 ^ 26 + p) 0 * 2 ^ w + imm % 2 ^ w
  let n := min 64 (w + 26 * fx.length)
  (n, v % 2 ^ n)

/-- The immediate extended by sign (R215). -/
def State.immS (s : State) (e : EngSel) (c w imm : Nat) : Int :=
  let r := fxConcat (s.ctx e c).fx w imm
  sext r.1 r.2

/-- The immediate extended by zero (R215). -/
def State.immU (s : State) (e : EngSel) (c w imm : Nat) : Nat := (fxConcat (s.ctx e c).fx w imm).2

/-- A waiting context resumes: its outcome is written, the PC moves past the instruction, and a stepped context stops (R200,
R207, R208). -/
def State.resume (s : State) (e : EngSel) (c a : Nat) (out : DWord) : State :=
  let s1 := s.modCtx e c fun x => { x with wait := none }
  ((s1.setG e c (Fin.ofNat 32 a) out).setCst e c 1).retire e c (s.pc e c + 1)

/-! ### Memory (R202–R204, R226, R227) -/

/-- Byte of DMEM. -/
def Engine.byte (v : Engine) (a : Nat) : Byte := mget (fun _ => 0) v.dmem a

/-- `n` bytes of DMEM, little-endian. -/
def State.dmemRead (s : State) (e : EngSel) (a n : Nat) : Nat := leNat ((rangeFrom a n).map (s.eng e).byte)

/-- Stores a list of bytes (R204): a word rewritten in full loses its stored error; another is read, which corrects a single-bit error, and merged. -/
def State.dmemBlock (s : State) (e : EngSel) (a : Nat) (bs : List Byte) : State :=
  let n := bs.length
  let full (w : Nat) : Bool := decide (a ≤ 8 * w) && decide (8 * w + 8 ≤ a + n)
  (s.modEng e fun g => { g with
    dmem := (List.range n).foldl (fun m k => mset (fun _ => 0) m (a + k) (bs.getD k 0)) g.dmem
    badD := g.badD.filter (!full ·), oneD := g.oneD.filter (!full ·) }).dmemSeen e a n

/-- Stores `n` bytes of DMEM, little-endian (R204). -/
def State.dmemWrite (s : State) (e : EngSel) (a n v : Nat) : State := s.dmemBlock e a (natLe n v)

/-- The 64-bit words that hold bytes `a` to `a + n − 1` include one with a stored double-bit error. -/
def State.badDmem (s : State) (e : EngSel) (a n : Nat) : Bool :=
  (s.eng e).badD.any fun w => decide (a < 8 * w + 8) && decide (8 * w < a + n)

/-- The checks of R226 and R238 on an access: alignment to `w`, then bounds of `len` bytes; the DMEM address if they pass. -/
def State.dmemCheck (s : State) (e : EngSel) (c : Nat) (off w len : Nat) : Sum Nat Ends :=
  if off % w ≠ 0 then .inr (.fault 0x07 (off % 2 ^ 32))
  else if s.dwinSize e c < off + len then .inr (.fault 0x08 (off % 2 ^ 32))
  else .inl (s.dwinBase e c + off)

/-! ### Asynchronous operations (R198, R239) -/

/-- The job slot or job context an instruction acts for: the context's number, or g30 in a tile; none where g30 has a bit above
9 set (R236). -/
def State.jobOf (s : State) (e : EngSel) (c : Nat) : Option Nat :=
  match e with
  | .tsu => some c
  | .tile _ => if (s.g e c 30).toNat < 1024 then some (s.g e c 30).toNat else none

/-- Checks on a completion object (R239). -/
def State.complCode (s : State) (e : EngSel) (slot i : Nat) : Code :=
  let w := (s.obj e i).word
  if oMode w = 0 then .state
  else if oOwner w ≠ slot then .perm
  else if oDirty w || (oMode w ≠ 1 && oMode w ≠ 2) then .state
  else .ok

/-- The lowest tag whose previous operation has completed (R239). -/
def Ctx.freeTag (x : Ctx) : Option Nat :=
  (List.range 8).find? fun k => match x.ops.find? fun kv => kv.1 == k with
    | some kv => kv.2.result.isSome
    | none => true

/-- An operation of a context, whatever its state. -/
def State.op (s : State) (o : OpRef) : Option Op :=
  match (s.ctx o.eng o.ctx).ops.find? fun kv => kv.1 == o.tag with
  | some kv => if kv.2.seq = o.seq then some kv.2 else none
  | none => none

/-- The operations of a context that are outstanding, with their tags. -/
def State.outstanding (s : State) (e : EngSel) (c : Nat) : List (OpRef × Op) :=
  ((s.ctx e c).ops.filter fun kv => kv.2.result.isNone).map fun kv => (⟨e, c, kv.1, kv.2.seq⟩, kv.2)

/-- Outstanding operations of every context of an engine. -/
def State.outstandingAll (s : State) (e : EngSel) : List (OpRef × Op) :=
  (List.range 16).flatMap fun c => s.outstanding e c

/-- Accepts an asynchronous operation: it takes the lowest free tag and the next operation sequence; none when eight are
outstanding (R198, R239). -/
def State.accept (s : State) (e : EngSel) (c opcode sub pc obj job : Nat) (args : List Nat) : Option (OpRef × State) :=
  let x := s.ctx e c
  match x.freeTag with
  | none => none
  | some k =>
    let o : Op := { seq := x.opSeq, opcode := opcode, sub := sub, pc := pc, obj := obj, job := job, args := args, result := none }
    let ops := (x.ops.filter fun kv => kv.1 ≠ k) ++ [(k, o)]
    some (⟨e, c, k, x.opSeq⟩, s.setCtx e c { x with ops := ops, opSeq := (x.opSeq + 1) % 256 })

/-- The outcome word of R234. -/
def outWord (c : Code) (data : Nat) (flags : Nat := 0) : DWord :=
  BitVec.ofNat 64 (2 ^ 36 * (flags % 16) + 2 ^ 32 * c.num + data % 2 ^ 32)

/-- The outcome word of an accepted operation (R234). -/
def acceptWord (o : OpRef) : DWord := outWord .ok (o.tag + 2 ^ 8 * o.seq)

/-- Writes an instruction's outcome word and journals a code other than OK (R9, R235). -/
def State.report (s : State) (e : EngSel) (c a : Nat) (code : Code) (data : Nat) (opcode pc : Nat) : State :=
  let s1 := s.setG e c (Fin.ofNat 32 a) (outWord code data)
  if code = .ok then s1
  else s1.outcome (senWho e c) code opcode pc (if code = .late then data else 0)

/-- As `report`, where a record of another type stands for the outcome (R9). -/
def State.reportQuiet (s : State) (e : EngSel) (c a : Nat) (code : Code) (data : Nat) : State :=
  s.setG e c (Fin.ofNat 32 a) (outWord code data)

/-- Membership epoch, handle and generation in force for an operation: of the slot in a TSU, or of the job it last was in or asked
for; of the job context in a tile, which `jobId` gives (R239). -/
def State.slotId (s : State) (c : Nat) : Nat × Nat × Nat :=
  if s.slotSt c = 0 && !s.bt .tsu .slotState 5 c then (mget (fun _ => {}) s.slots c : Slot).freed
  else ((s.rd .tsu .slotEpoch c).toNat, s.fd .tsu .slotState 31 16 c, s.fd .tsu .slotJob 31 24 c)

/-- A context held for want of a tag issues again once one of its operations has completed (R198, R200). -/
def State.unhold (s : State) (e : EngSel) (c : Nat) : State :=
  if s.cst e c = 2 && (s.ctx e c).wait = some .held then (s.modCtx e c fun x => { x with wait := none }).setCst e c 1 else s

/-- ASYNC_COMPLETION: the oldest completion of an engine is written under its tag, its completion object is signalled, and a code
other than OK is journalled (R239). An operation already complete keeps its record. -/
def asyncCompletion (e : EngSel) (ids : Nat → Nat × Nat × Nat) (s : State) : State :=
  match s.todo.find? fun d => d.op.eng == e with
  | none => s
  | some d =>
    let s0 := { s with todo := s.todo.erase d }
    match s0.op d.op with
    | none => s0
    | some o =>
      if o.result.isSome then s0 else
      let id := if e = .tsu then s0.slotId d.op.ctx else ids o.job
      let rec_ : CompRec := { value := d.value, late := satNat 32 d.late, code := d.code, epoch := id.1, handle := id.2.1,
                              gen := id.2.2, extra := d.extra, results := d.results }
      let s1 := s0.modCtx e d.op.ctx fun x => { x with
        ops := x.ops.map fun kv => if kv.1 = d.op.tag then (kv.1, { kv.2 with result := some rec_ }) else kv }
      let s2 := s1.sendSignal e { src := 0, idx := o.obj, word := s1.sigWord e d.op.ctx 1, jctx := d.op.ctx }
      let s3 := s2.unhold e d.op.ctx
      if d.code = .ok || d.told then s3
      else s3.outcome (senWho e d.op.ctx) d.code o.opcode o.pc (if d.code = .late then d.late else 0)

/-- The 32-byte completion record (R239). -/
def recBytes (tag : Nat) (o : Op) (r : CompRec) : List Byte :=
  natLe 8 r.value.toNat ++ natLe 4 r.late ++ natLe 1 r.code.num ++ natLe 1 o.opcode ++ natLe 1 o.seq ++ natLe 1 tag
    ++ natLe 4 r.epoch ++ natLe 2 r.handle ++ natLe 1 r.gen ++ natLe 1 0 ++ natLe 8 r.extra

/-! ### Context commands (R201, R206–R208, R210, R211) -/

/-- A context-command record (R206, R365). -/
def State.ctxCmdRec (s : State) (e : EngSel) (c cmd : Nat) (code : Code) (src : Src) : State :=
  s.jnl (senWho e src.jctx) 0x0102
    (pay [(0, 1, c), (1, 1, cmd), (2, 1, code.num), (3, 1, s.cst e c), (4, 4, s.pc e c)])

/-- START and STEP end with RANGE (R206). -/
def State.startRange (s : State) (e : EngSel) (c : Nat) : Bool :=
  decide (s.iwinSize e c ≤ s.pc e c) || decide (imemWords e < s.iwinBase e c + s.iwinSize e c)
    || decide (dmemBytes e < s.dwinBase e c + s.dwinSize e c)

/-- The engine clock is ready (R201). -/
def State.pllReady (s : State) (e : EngSel) : Bool := s.bt e.part .senStatus 1 e.inst

/-- START (R206), its checks in the order of R8. -/
def State.ctxStart (s : State) (e : EngSel) (c : Nat) : Code × State :=
  let st := s.cst e c
  let code := firstFail false false (s.startRange e c) false (st ≠ 0 && st ≠ 3) (st = 3 || !s.pllReady e)
  if code ≠ .ok then (code, s) else (.ok, s.setCst e c 1)

/-- STOP (R206, R208): a wait is abandoned with the PC at it; a RUNNING context backs out of an open chain when its last instruction has ended. -/
def State.ctxStop (s : State) (e : EngSel) (c : Nat) : Code × State :=
  match s.cst e c with
  | 1 => (.ok, s.setCst e c 3)
  | 2 => (.ok, (s.backOut e c).setCst e c 0)
  | _ => (.state, s)

/-- CLEAR (R206). -/
def State.ctxClear (s : State) (e : EngSel) (c : Nat) : Code × State :=
  if s.cst e c = 4 then (.ok, s.wr e.part .ctxState 0 (ctxInst e c)) else (.state, s)

/-- STEP (R206, R216): the context issues one instruction or chain and stops. -/
def State.ctxStep (s : State) (e : EngSel) (c : Nat) : Code × State :=
  let st := s.cst e c
  let code := firstFail false false (s.startRange e c) false (st ≠ 0) (!s.pllReady e)
  if code ≠ .ok then (code, s) else (.ok, (s.modCtx e c fun x => { x with stepping := true }).setCst e c 1)

/-- A write of SEN_CTXc_CMD; an accepted command writes a context-command record (R206). -/
def State.ctxCommand (s : State) (e : EngSel) (c : Nat) (v : Word) (src : Src) : Code × State :=
  let cmd := v.toNat % 8
  let r := match cmd with
    | 1 => s.ctxStart e c
    | 2 => s.ctxStop e c
    | 3 => s.ctxClear e c
    | 4 => s.ctxStep e c
    | _ => (.range, s)
  if r.1 = .ok then (.ok, r.2.ctxCmdRec e c cmd .ok src) else r

/-- STOP_COMPLETE: the last issued instruction of a STOPPING context has completed (R207). -/
def stopComplete (e : EngSel) (c : Fin 16) (s : State) : State := if s.cst e c.val = 3 then (s.backOut e c.val).setCst e c.val 0 else s

/-- The context is RUNNING, WAITING or STOPPING (SEN_RUN.ACTIVE). -/
def State.ctxActive (s : State) (e : EngSel) (c : Nat) : Bool :=
  let st := s.cst e c
  st = 1 || st = 2 || st = 3

/-- A mask of contexts. -/
def ctxMask (f : Nat → Bool) : Nat :=
  (List.range 16).foldl (fun m c => m + if f c then 2 ^ c else 0) 0

/-- A write of SEN_CTRL.EN (R201): 0 ends with STATE while a context is active. -/
def State.senEnable (s : State) (e : EngSel) (en : Bool) : Code × State :=
  if !en && (List.range 16).any fun c => s.ctxActive e c then (.state, s)
  else
    let s1 := s.wr e.part .senCtrl (BitVec.ofNat 32 (b2n en)) e.inst
    (.ok, if en then s1 else s1.setF e.part .senStatus 1 1 0 e.inst)

/-- PLL_LOCK (R201). -/
def pllLock (e : EngSel) (s : State) : State :=
  if s.bt e.part .senCtrl 0 e.inst then s.setF e.part .senStatus 1 1 1 e.inst else s

/-- The engine clock is gated: it does not run, or no context is runnable and nothing is in flight, of which a register access, such as the read of
SEN_STATUS itself, is one (R201). A context held under R198 waits. -/
def State.gated (s : State) (e : EngSel) (access : Bool) : Bool :=
  !s.bt e.part .senCtrl 0 e.inst ||
  (!access && (List.range 16).all (fun c => s.cst e c ≠ 1 && s.cst e c ≠ 3) && (s.eng e).signals.isEmpty && (s.eng e).evals.isEmpty
    && !(s.todo.any fun d => d.op.eng == e))

/-- An error comes into a stored word: a second bit makes a single-bit error a double-bit one (R204). -/
def Engine.upset (v : Engine) (u : Upset) : Engine :=
  let add (l : List Nat) : List Nat := if l.contains u.word then l else l ++ [u.word]
  let ones := if u.imem then v.oneI else v.oneD
  let bads := if u.imem then v.badI else v.badD
  let dbl := u.double || ones.contains u.word || bads.contains u.word
  let ones1 := if dbl then ones.filter (· ≠ u.word) else add ones
  let bads1 := if dbl then add bads else bads
  if u.imem then { v with oneI := ones1, badI := bads1 } else { v with oneD := ones1, badD := bads1 }

/-- SCRUB_READ: the next word, IMEM then DMEM in turn, after the errors that stored words have taken since the last; a single-bit error is corrected, a
double-bit one journalled and left (R204). -/
def scrubRead (e : EngSel) (upsets : List Upset) (s0 : State) : State :=
  let s := s0.modEng e fun g => upsets.foldl Engine.upset g
  if s.fd e.part .senCfg 15 8 e.inst = 0 || s.wiping e.part then s else
  let n := imemWords e
  let total := n + dmemBytes e / 8
  let k := (s.eng e).scrub % total
  let inI := decide (k < n)
  let w := if inI then k else k - n
  let s1 := (s.modEng e fun g => { g with scrub := (k + 1) % total }).eccCorrect e [w] inI
  if (if inI then (s.eng e).badI else (s.eng e).badD).contains w then
    (s1.eccUncorr e).jnl (senWho e 0x3F) 0x0501 (pay [(0, 1, b2n (!inI)), (1, 1, 1), (2, 4, w)])
  else s1

/-- A write to an IMEM word (R210): STATE while a live context's IWIN covers it; it clears the word's stored error. -/
def State.imemWrite (s : State) (e : EngSel) (w : Nat) (v : Word) : Code × State :=
  if s.wiping e.part then (.busy, s)
  else if (List.range 16).any fun c => s.ctxActive e c && decide (s.iwinBase e c ≤ w) && decide (w < s.iwinBase e c + s.iwinSize e c)
  then (.state, s)
  else (.ok, s.modEng e fun g => { g with imem := mset (fun _ => 0) g.imem w v, badI := g.badI.filter (· ≠ w), oneI := g.oneI.filter (· ≠ w) })

/-- A read of the IMEM or DMEM window (R204): a single-bit error is corrected; a stored double-bit error returns the stored bits with INTEGRITY and
counts. -/
def State.imemRead (s : State) (e : EngSel) (w : Nat) : Code × Word × State :=
  let v := mget (fun _ => 0) (s.eng e).imem w
  if s.wiping e.part then (.busy, 0, s)
  else if (s.eng e).badI.contains w then (.integrity, v, s.eccUncorr e)
  else (.ok, v, s.eccCorrect e [w] true)

def State.dmemWinRead (s : State) (e : EngSel) (a : Nat) : Code × Word × State :=
  let v := BitVec.ofNat 32 (s.dmemRead e a 4)
  if s.wiping e.part then (.busy, 0, s)
  else if s.badDmem e a 4 then (.integrity, v, s.eccUncorr e)
  else (.ok, v, s.dmemSeen e a 4)

/-- A write to the DMEM window (R210): four bytes merged into their 64-bit word; a stored double-bit error in it is not removed
and the write ends with INTEGRITY (R204). -/
def State.dmemWinWrite (s : State) (e : EngSel) (a : Nat) (v : Word) : Code × State :=
  if s.wiping e.part then (.busy, s)
  else if s.badDmem e a 4 then (.integrity, s.eccUncorr e)
  else (.ok, s.dmemWrite e a 4 v.toNat)

/-- The context register window (R211): STATE unless STOPPED or FAULTED. The low word of a register is staged by the caller;
`lo` is the staged word. -/
def State.ctxWinWrite (s : State) (e : EngSel) (off : Nat) (lo v : Word) : Code × State :=
  let c := off / 512
  let o := off % 512
  if s.ctxActive e c then (.state, s)
  else if o < 256 then (.ok, if o % 8 = 4 then s.setG e c (Fin.ofNat 32 (o / 8)) (v ++ lo) else s)
  else if o < 320 then (.ok, if o % 8 = 4 then s.setT e c (Fin.ofNat 8 ((o - 256) / 8)) (v ++ lo) else s)
  else if o = 320 then (.ok, s.modCtx e c fun x => { x with p := v.toNat % 256 })
  else (.ok, s)

def State.ctxWinRead (s : State) (e : EngSel) (off : Nat) : Code × Word :=
  let c := off / 512
  let o := off % 512
  let half (d : DWord) : Word := if o % 8 = 4 then (d >>> 32).truncate 32 else d.truncate 32
  if s.ctxActive e c then (.state, 0)
  else if o < 256 then (.ok, half (s.g e c (Fin.ofNat 32 (o / 8))))
  else if o < 320 then (.ok, half (s.t e c (Fin.ofNat 8 ((o - 256) / 8))))
  else if o = 320 then (.ok, BitVec.ofNat 32 (s.ctx e c).p)
  else (.ok, 0)

end Sys2Proof.Machine
end

