-- ==== Sys2Proof/Machine/Fp.lean ====
section
/-!
DEFINITION. FP64 arithmetic of R220–R223: IEEE 754-2019 binary64, computed exactly and rounded once.
-/
namespace Sys2Proof.Machine

/-- A binary64 value: the canonical NaN, an infinity, or (−1)^neg · m · 2^e; zero has m = 0. -/
inductive FVal where
  | nan
  | inf (neg : Bool)
  | fin (neg : Bool) (m : Nat) (e : Int)
  deriving DecidableEq, Repr

/-- The value a word holds; subnormals in full (R220). -/
def fval (w : DWord) : FVal :=
  let neg := w.getLsbD 63
  let ex := bits w.toNat 62 52
  let fr := bits w.toNat 51 0
  if ex = 2047 then (if fr = 0 then .inf neg else .nan)
  else if ex = 0 then .fin neg fr (-1074)
  else .fin neg (2 ^ 52 + fr) ((ex : Int) - 1075)

/-- The canonical quiet NaN (R220). -/
def fNan : DWord := 0x7FF8000000000000

/-- A signed infinity. -/
def fInf (neg : Bool) : DWord := if neg then 0xFFF0000000000000 else 0x7FF0000000000000

/-- A signed zero. -/
def fZero (neg : Bool) : DWord := if neg then 0x8000000000000000 else 0

/-- Whether a magnitude with odd-ness `odd`, remainder `rem` of `2^sh` and anything below, is rounded away from zero. -/
def roundsUp (md : Rnd) (neg odd : Bool) (rem half : Nat) (sticky : Bool) : Bool :=
  match md with
  | .rne => half < rem || (rem = half && (sticky || odd))
  | .rtz => false
  | .rup => !neg && (rem ≠ 0 || sticky)
  | .rdn => neg && (rem ≠ 0 || sticky)

/-- The integer part of m·2^−sh rounded, sh > 0; `sticky` says that the exact magnitude lies above m within its last unit. -/
def shiftRound (md : Rnd) (neg : Bool) (m sh : Nat) (sticky : Bool) : Nat :=
  let q := m / 2 ^ sh
  if roundsUp md neg (q % 2 == 1) (m % 2 ^ sh) (2 ^ (sh - 1)) sticky then q + 1 else q

/-- The result of an overflow (R220). -/
def fOverflow (md : Rnd) (neg : Bool) : DWord :=
  let big : DWord := if neg then 0xFFEFFFFFFFFFFFFF else 0x7FEFFFFFFFFFFFFF
  match md with
  | .rne => fInf neg
  | .rtz => big
  | .rup => if neg then big else fInf neg
  | .rdn => if neg then fInf neg else big

/-- The word of a magnitude m·2^e with m below 2^53 and e at least −1074. -/
def fPack (neg : Bool) (m : Nat) (e : Int) : DWord :=
  let sign := 2 ^ 63 * b2n neg
  if m < 2 ^ 52 then BitVec.ofNat 64 (sign + m)
  else BitVec.ofNat 64 (sign + 2 ^ 52 * (e + 1075).toNat + (m - 2 ^ 52))

/-- (−1)^neg · m · 2^e rounded to binary64; `sticky` as in `shiftRound`, which needs m to have at least 54 bits when set. -/
def fRound (md : Rnd) (neg : Bool) (m : Nat) (e : Int) (sticky : Bool) : DWord :=
  if m = 0 then fZero neg else
  let len : Int := (Nat.log2 m + 1 : Nat)
  let q : Int := max (e + len - 53) (-1074)
  let m1 := if q ≤ e then m * 2 ^ (e - q).toNat else shiftRound md neg m (q - e).toNat sticky
  let r := if m1 = 2 ^ 53 then (2 ^ 52, q + 1) else (m1, q)
  if r.2 > 971 then fOverflow md neg else fPack neg r.1 r.2

/-- A signed exact value v·2^e rounded; an exact zero takes the sign of R220's default: minus only when rounding down. -/
def fRoundInt (md : Rnd) (v : Int) (e : Int) : DWord :=
  if v = 0 then fZero (md == .rdn) else fRound md (decide (v < 0)) v.natAbs e false

/-- The signed magnitude of a finite value. -/
def signed (neg : Bool) (m : Nat) : Int := if neg then -(m : Int) else m

/-- Sum (R221). -/
def fAdd (md : Rnd) (a b : DWord) : DWord :=
  match fval a, fval b with
  | .nan, _ | _, .nan => fNan
  | .inf x, .inf y => if x = y then fInf x else fNan
  | .inf x, _ => fInf x
  | _, .inf y => fInf y
  | .fin x m e, .fin y n f =>
    if m = 0 ∧ n = 0 then (if x = y then fZero x else fZero (md == .rdn))
    else
      let lo := min e f
      fRoundInt md (signed x m * (2 ^ (e - lo).toNat : Nat) + signed y n * (2 ^ (f - lo).toNat : Nat)) lo

/-- The word with its sign turned. -/
def fNeg (a : DWord) : DWord := a ^^^ 0x8000000000000000

/-- Difference (R221). -/
def fSub (md : Rnd) (a b : DWord) : DWord := fAdd md a (fNeg b)

/-- Product (R221). -/
def fMul (md : Rnd) (a b : DWord) : DWord :=
  match fval a, fval b with
  | .nan, _ | _, .nan => fNan
  | .inf x, .inf y => fInf (x != y)
  | .inf x, .fin y n _ => if n = 0 then fNan else fInf (x != y)
  | .fin x m _, .inf y => if m = 0 then fNan else fInf (x != y)
  | .fin x m e, .fin y n f => fRound md (x != y) (m * n) (e + f) false

/-- Quotient (R221). -/
def fDiv (md : Rnd) (a b : DWord) : DWord :=
  match fval a, fval b with
  | .nan, _ | _, .nan => fNan
  | .inf _, .inf _ => fNan
  | .inf x, .fin y _ _ => fInf (x != y)
  | .fin x _ _, .inf y => fZero (x != y)
  | .fin x m e, .fin y n f =>
    if n = 0 then (if m = 0 then fNan else fInf (x != y))
    else if m = 0 then fZero (x != y)
    else
      let num := m * 2 ^ 120
      fRound md (x != y) (num / n) (e - f - 120) (num % n ≠ 0)

/-- Square root (R221). -/
def fSqrt (md : Rnd) (a : DWord) : DWord :=
  match fval a with
  | .nan => fNan
  | .inf x => if x then fNan else fInf false
  | .fin x m e =>
    if m = 0 then fZero x
    else if x then fNan
    else
      let odd := e % 2 ≠ 0
      let num := m * 2 ^ (if odd then 121 else 120)
      let ex := if odd then e - 121 else e - 120
      let r := isqrt 90 num
      fRound md false r (ex / 2) (r * r ≠ num)

/-- Fused multiply-add a × b + c, rounded once (R221). -/
def fFma (md : Rnd) (a b c : DWord) : DWord :=
  match fval a, fval b, fval c with
  | .nan, _, _ | _, .nan, _ => fNan
  | .inf x, .inf y, z =>
    match z with
    | .nan => fNan
    | .inf w => if (x != y) = w then fInf w else fNan
    | .fin _ _ _ => fInf (x != y)
  | .inf x, .fin y n _, z | .fin y n _, .inf x, z =>
    if n = 0 then fNan else
    match z with
    | .nan => fNan
    | .inf w => if (x != y) = w then fInf w else fNan
    | .fin _ _ _ => fInf (x != y)
  | .fin _ _ _, .fin _ _ _, .nan => fNan
  | .fin _ _ _, .fin _ _ _, .inf w => fInf w
  | .fin x m e, .fin y n f, .fin w k g =>
    let p := m * n
    let s := x != y
    if p = 0 ∧ k = 0 then (if s = w then fZero s else fZero (md == .rdn))
    else
      let lo := min (e + f) g
      fRoundInt md (signed s p * (2 ^ (e + f - lo).toNat : Nat) + signed w k * (2 ^ (g - lo).toNat : Nat)) lo

/-- Order of two values that are not NaN: negative, zero or positive as a − b; equal zeros compare equal (R223). -/
def fCmp (a b : FVal) : Int :=
  match a, b with
  | .inf x, .inf y => if x = y then 0 else if x then -1 else 1
  | .inf x, _ => if x then -1 else 1
  | _, .inf y => if y then 1 else -1
  | .fin x m e, .fin y n f =>
    let lo := min e f
    signed x m * (2 ^ (e - lo).toNat : Nat) - signed y n * (2 ^ (f - lo).toNat : Nat)
  | _, _ => 0

/-- The value is a NaN. -/
def isNan (a : DWord) : Bool := fval a == .nan

/-- Minimum and maximum; a NaN operand gives the canonical NaN and −0 lies below +0 (R221). -/
def fMin (a b : DWord) : DWord :=
  if isNan a || isNan b then fNan
  else
    let c := fCmp (fval a) (fval b)
    if c < 0 then a else if 0 < c then b else if a.getLsbD 63 then a else b

def fMax (a b : DWord) : DWord :=
  if isNan a || isNan b then fNan
  else
    let c := fCmp (fval a) (fval b)
    if c < 0 then b else if 0 < c then a else if a.getLsbD 63 then b else a

/-- The integer nearest a finite value in a rounding mode (R222). -/
def fToInt (md : Rnd) (neg : Bool) (m : Nat) (e : Int) : Int :=
  if 0 ≤ e then signed neg (m * 2 ^ e.toNat) else signed neg (shiftRound md neg m (-e).toNat false)

/-- FCVT.F2I (R222). -/
def fF2I (md : Rnd) (a : DWord) : DWord :=
  match fval a with
  | .nan => 0x8000000000000000
  | .inf x => if x then 0x8000000000000000 else 0x7FFFFFFFFFFFFFFF
  | .fin x m e => BitVec.ofInt 64 (satInt 64 (fToInt md x m e))

/-- FCVT.F2U (R222). -/
def fF2U (md : Rnd) (a : DWord) : DWord :=
  match fval a with
  | .nan => 0
  | .inf x => if x then 0 else 0xFFFFFFFFFFFFFFFF
  | .fin x m e => BitVec.ofInt 64 (max 0 (min (2 ^ 64 - 1) (fToInt md x m e)))

/-- FCVT.I2F and U2F (R222). -/
def fI2F (md : Rnd) (a : DWord) : DWord := if a = 0 then 0 else fRoundInt md a.toInt 0
def fU2F (md : Rnd) (a : DWord) : DWord := if a = 0 then 0 else fRoundInt md a.toNat 0

/-- FCVT.RI: rounded to an integral value; an integral zero keeps the operand's sign (R222). -/
def fRI (md : Rnd) (a : DWord) : DWord :=
  match fval a with
  | .nan => fNan
  | .inf x => fInf x
  | .fin x m e =>
    if 0 ≤ e then a
    else
      let k := shiftRound md x m (-e).toNat false
      if k = 0 then fZero x else fRound .rne x k 0 false

end Sys2Proof.Machine
end

