-- ==== Sys2Proof/Machine/Words.lean ====
section
/-!
DEFINITION. The six instruction formats of R213 as words, and the sub values and fn fields of the instructions that have alternatives.
-/
namespace Sys2Proof.Machine

/-- F3: op, d, a, b, fn. -/
def wF3 (op d a b fn : Nat) : Word :=
  BitVec.ofNat 32 (2 ^ 26 * op + 2 ^ 21 * (d % 32) + 2 ^ 16 * (a % 32) + 2 ^ 11 * (b % 32) + fn % 2 ^ 11)

/-- FI: op, d, a, imm16. -/
def wFI (op d a imm : Nat) : Word :=
  BitVec.ofNat 32 (2 ^ 26 * op + 2 ^ 21 * (d % 32) + 2 ^ 16 * (a % 32) + imm % 2 ^ 16)

/-- FB: op, a, b, off16. -/
def wFB (op a b off : Nat) : Word :=
  BitVec.ofNat 32 (2 ^ 26 * op + 2 ^ 21 * (a % 32) + 2 ^ 16 * (b % 32) + off % 2 ^ 16)

/-- FO: op, obj, a, sub. -/
def wFO (op obj a sub : Nat) : Word :=
  BitVec.ofNat 32 (2 ^ 26 * op + 2 ^ 13 * (obj % 2 ^ 13) + 2 ^ 8 * (a % 32) + sub % 2 ^ 8)

/-- FT: op, td, ta, a, imm15. -/
def wFT (op td ta a imm : Nat) : Word :=
  BitVec.ofNat 32 (2 ^ 26 * op + 2 ^ 23 * (td % 8) + 2 ^ 20 * (ta % 8) + 2 ^ 15 * (a % 32) + imm % 2 ^ 15)

/-- FX: the long-immediate prefix. -/
def wFX (imm : Nat) : Word := BitVec.ofNat 32 (2 ^ 26 * 0x3F + imm % 2 ^ 26)

/-- imm15[1:0] of TCMP (R242). -/
def tRelNum : TRel → Nat
  | .aft => 0 | .bef => 1 | .eq => 2 | .nbef => 3

/-- The relation of an imm15 of TCMP, whose bits [14:2] are zero. -/
def tRelOf : Nat → Option TRel
  | 0 => some .aft | 1 => some .bef | 2 => some .eq | 3 => some .nbef | _ => none

/-- sub of SIG (R244). -/
def sigToNum : SigTo → Nat
  | .here => 0 | .live => 1 | .rank => 2

/-- Where a sub of SIG sends. -/
def sigToOf : Nat → Option SigTo
  | 0 => some .here | 1 => some .live | 2 => some .rank | _ => none

/-- sub of BIND (R244). -/
def bindSub (consume oneshot unbind : Bool) (plgrp : Fin 16) : Nat :=
  b2n consume + 2 * b2n oneshot + 4 * b2n unbind + 16 * plgrp

/-- fn of RESULT (R248). -/
def resultFn : Option (Fin 8) → Nat
  | some t => 2 ^ 10 + t.val
  | none => 0

end Sys2Proof.Machine
end

