-- ==== Sys2Proof/Machine/IsaCore.lean ====
section
/-!
DEFINITION. Step instruction set I (R213–R227): integer, FP64, control flow and memory instructions. Each names the context that
issues it and its fields; GETC and PUTC are in IsaStep.
-/
namespace Sys2Proof.Machine

/-- A register operation of opcode `op` on two g registers into a third. -/
def opRRR (x : CtxRef) (op fn : Nat) (d a b : Fin 32) (f : DWord → DWord → DWord) (s : State) : State :=
  s.issue x (wF3 op d a b fn) false 0 fun _ => .done (s.setG x.eng x.ctx d (f (s.g x.eng x.ctx a) (s.g x.eng x.ctx b)))

/-- A comparison of two g registers into a predicate. -/
def opCmp (x : CtxRef) (op fn : Nat) (d : Fin 8) (a b : Fin 32) (f : DWord → DWord → Bool) (s : State) : State :=
  s.issue x (wF3 op d a b fn) false 0 fun _ => .done (s.setP x.eng x.ctx d (f (s.g x.eng x.ctx a) (s.g x.eng x.ctx b)))

/-- An operation on one g register; `b` is zero. -/
def opRR (x : CtxRef) (op fn : Nat) (d a : Fin 32) (f : DWord → DWord) (s : State) : State :=
  s.issue x (wF3 op d a 0 fn) false 0 fun _ => .done (s.setG x.eng x.ctx d (f (s.g x.eng x.ctx a)))

/-- A logical immediate, extended by zero (R219). -/
def opImmU (x : CtxRef) (op : Nat) (d a : Fin 32) (imm : BitVec 16) (f : DWord → DWord → DWord) (s : State) : State :=
  s.issue x (wFI op d a imm.toNat) true 0 fun _ =>
    .done (s.setG x.eng x.ctx d (f (s.g x.eng x.ctx a) (BitVec.ofNat 64 (s.immU x.eng x.ctx 16 imm.toNat))))

/-- A conditional branch on two g registers (R224). -/
def opBranch (x : CtxRef) (op : Nat) (a b : Fin 32) (off : BitVec 16) (f : DWord → DWord → Bool) (s : State) : State :=
  s.issue x (wFB op a b off.toNat) true 0 fun pc =>
    if f (s.g x.eng x.ctx a) (s.g x.eng x.ctx b) then .jump ((pc : Int) + s.immS x.eng x.ctx 16 off.toNat) s else .done s

/-- A load of `w` bytes at a byte offset, extended by zero (R226). -/
def opLoad (x : CtxRef) (word : Word) (prefixed : Bool) (w : Nat) (d a : Fin 32) (ext : Int) (s : State) : State :=
  s.issue x word prefixed 0 fun _ =>
    let off := (s.g x.eng x.ctx a + BitVec.ofInt 64 ext).toNat
    match s.dmemCheck x.eng x.ctx off w w with
    | .inr e => e
    | .inl addr =>
      if s.badDmem x.eng addr w then .fault 0x0A (off % 2 ^ 32)
      else .done ((s.setG x.eng x.ctx d (BitVec.ofNat 64 (s.dmemRead x.eng addr w))).dmemSeen x.eng addr w)

/-- A store of the low `w` bytes of gd (R226, R227): less than a whole ECC word is read, merged and written back. -/
def opStore (x : CtxRef) (word : Word) (prefixed : Bool) (w : Nat) (d a : Fin 32) (ext : Int) (s : State) : State :=
  s.issue x word prefixed 0 fun _ =>
    let off := (s.g x.eng x.ctx a + BitVec.ofInt 64 ext).toNat
    match s.dmemCheck x.eng x.ctx off w w with
    | .inr e => e
    | .inl addr =>
      if w ≠ 8 ∧ s.badDmem x.eng addr w then .fault 0x0A (off % 2 ^ 32)
      else .done (s.dmemWrite x.eng addr w (s.g x.eng x.ctx d).toNat)

/-- The relation of a predicate branch: none is unconditional, else a predicate and whether it is inverted (R224). -/
def brField : Option (Fin 8 × Bool) → Nat
  | none => 0
  | some (p, inv) => 16 + 8 * b2n inv + p.val

/-- FX: a long-immediate prefix is held for the next instruction (R215). -/
def execFx (x : CtxRef) (imm : BitVec 26) (s : State) : Host.Outcome State Fault Refusal :=
  .next (issueFx x imm.toNat (wFX imm.toNat) s)

/-- ADD (R218). -/
def execAdd (x : CtxRef) (d a b : Fin 32) (s : State) : Host.Outcome State Fault Refusal :=
  .next (opRRR x 0x00 0x000 d a b (· + ·) s)

/-- SUB (R218). -/
def execSub (x : CtxRef) (d a b : Fin 32) (s : State) : Host.Outcome State Fault Refusal :=
  .next (opRRR x 0x00 0x001 d a b (· - ·) s)

/-- AND (R218). -/
def execAnd (x : CtxRef) (d a b : Fin 32) (s : State) : Host.Outcome State Fault Refusal :=
  .next (opRRR x 0x00 0x002 d a b (· &&& ·) s)

/-- OR (R218). -/
def execOr (x : CtxRef) (d a b : Fin 32) (s : State) : Host.Outcome State Fault Refusal :=
  .next (opRRR x 0x00 0x003 d a b (· ||| ·) s)

/-- XOR (R218). -/
def execXor (x : CtxRef) (d a b : Fin 32) (s : State) : Host.Outcome State Fault Refusal :=
  .next (opRRR x 0x00 0x004 d a b (· ^^^ ·) s)

/-- SHL (R218). -/
def execShl (x : CtxRef) (d a b : Fin 32) (s : State) : Host.Outcome State Fault Refusal :=
  .next (opRRR x 0x00 0x005 d a b (fun u v => u <<< (v.toNat % 64)) s)

/-- SHR (R218). -/
def execShr (x : CtxRef) (d a b : Fin 32) (s : State) : Host.Outcome State Fault Refusal :=
  .next (opRRR x 0x00 0x006 d a b (fun u v => u >>> (v.toNat % 64)) s)

/-- SAR (R218). -/
def execSar (x : CtxRef) (d a b : Fin 32) (s : State) : Host.Outcome State Fault Refusal :=
  .next (opRRR x 0x00 0x007 d a b (fun u v => u.sshiftRight (v.toNat % 64)) s)

/-- MIN (R218). -/
def execMin (x : CtxRef) (d a b : Fin 32) (s : State) : Host.Outcome State Fault Refusal :=
  .next (opRRR x 0x00 0x008 d a b (fun u v => if u.toInt < v.toInt then u else v) s)

/-- MAX (R218). -/
def execMax (x : CtxRef) (d a b : Fin 32) (s : State) : Host.Outcome State Fault Refusal :=
  .next (opRRR x 0x00 0x009 d a b (fun u v => if u.toInt > v.toInt then u else v) s)

/-- MOV (R218). -/
def execMov (x : CtxRef) (d a : Fin 32) (s : State) : Host.Outcome State Fault Refusal :=
  .next (opRR x 0x00 0x00A d a id s)

/-- MUL: the low 64 bits of the product (R218). -/
def execMul (x : CtxRef) (d a b : Fin 32) (s : State) : Host.Outcome State Fault Refusal :=
  .next (opRRR x 0x00 0x010 d a b (· * ·) s)

/-- MULH: the high 64 bits of the signed product (R218). -/
def execMulh (x : CtxRef) (d a b : Fin 32) (s : State) : Host.Outcome State Fault Refusal :=
  .next (opRRR x 0x00 0x011 d a b (fun u v => BitVec.ofInt 64 (u.toInt * v.toInt / (2 ^ 64 : Nat))) s)

/-- CMPEQ (R218). -/
def execCmpeq (x : CtxRef) (d : Fin 8) (a b : Fin 32) (s : State) : Host.Outcome State Fault Refusal :=
  .next (opCmp x 0x00 0x020 d a b (fun u v => u == v) s)

/-- CMPLT (R218). -/
def execCmplt (x : CtxRef) (d : Fin 8) (a b : Fin 32) (s : State) : Host.Outcome State Fault Refusal :=
  .next (opCmp x 0x00 0x021 d a b (fun u v => decide (u.toInt < v.toInt)) s)

/-- CMPLTU (R218). -/
def execCmpltu (x : CtxRef) (d : Fin 8) (a b : Fin 32) (s : State) : Host.Outcome State Fault Refusal :=
  .next (opCmp x 0x00 0x022 d a b (fun u v => decide (u.toNat < v.toNat)) s)

/-- ADDI (R219). -/
def execAddi (x : CtxRef) (d a : Fin 32) (imm : BitVec 16) (s : State) : Host.Outcome State Fault Refusal :=
  .next (s.issue x (wFI 0x01 d a imm.toNat) true 0 fun _ =>
    .done (s.setG x.eng x.ctx d (s.g x.eng x.ctx a + BitVec.ofInt 64 (s.immS x.eng x.ctx 16 imm.toNat))))

/-- ANDI (R219). -/
def execAndi (x : CtxRef) (d a : Fin 32) (imm : BitVec 16) (s : State) : Host.Outcome State Fault Refusal :=
  .next (opImmU x 0x02 d a imm (· &&& ·) s)

/-- ORI (R219). -/
def execOri (x : CtxRef) (d a : Fin 32) (imm : BitVec 16) (s : State) : Host.Outcome State Fault Refusal :=
  .next (opImmU x 0x03 d a imm (· ||| ·) s)

/-- XORI (R219). -/
def execXori (x : CtxRef) (d a : Fin 32) (imm : BitVec 16) (s : State) : Host.Outcome State Fault Refusal :=
  .next (opImmU x 0x04 d a imm (· ^^^ ·) s)

/-- LUI (R219). -/
def execLui (x : CtxRef) (d : Fin 32) (imm : BitVec 16) (s : State) : Host.Outcome State Fault Refusal :=
  .next (s.issue x (wFI 0x05 d 0 imm.toNat) true 0 fun _ =>
    .done (s.setG x.eng x.ctx d (BitVec.ofInt 64 (s.immS x.eng x.ctx 16 imm.toNat * 65536))))

/-- BR: unconditional, or on a predicate or its inverse (R224). -/
def execBr (x : CtxRef) (cond : Option (Fin 8 × Bool)) (off : BitVec 16) (s : State) : Host.Outcome State Fault Refusal :=
  .next (s.issue x (wFB 0x08 (brField cond) 0 off.toNat) true 0 fun pc =>
    let taken := match cond with
      | none => true
      | some (p, inv) => s.pr x.eng x.ctx p != inv
    if taken then .jump ((pc : Int) + s.immS x.eng x.ctx 16 off.toNat) s else .done s)

/-- BEQ (R224). -/
def execBeq (x : CtxRef) (a b : Fin 32) (off : BitVec 16) (s : State) : Host.Outcome State Fault Refusal :=
  .next (opBranch x 0x09 a b off (fun u v => u == v) s)

/-- BNE (R224). -/
def execBne (x : CtxRef) (a b : Fin 32) (off : BitVec 16) (s : State) : Host.Outcome State Fault Refusal :=
  .next (opBranch x 0x0a a b off (fun u v => u != v) s)

/-- BLT (R224). -/
def execBlt (x : CtxRef) (a b : Fin 32) (off : BitVec 16) (s : State) : Host.Outcome State Fault Refusal :=
  .next (opBranch x 0x0b a b off (fun u v => decide (u.toInt < v.toInt)) s)

/-- BGE (R224). -/
def execBge (x : CtxRef) (a b : Fin 32) (off : BitVec 16) (s : State) : Host.Outcome State Fault Refusal :=
  .next (opBranch x 0x0c a b off (fun u v => decide (v.toInt ≤ u.toInt)) s)

/-- BLTU (R224). -/
def execBltu (x : CtxRef) (a b : Fin 32) (off : BitVec 16) (s : State) : Host.Outcome State Fault Refusal :=
  .next (opBranch x 0x0d a b off (fun u v => decide (u.toNat < v.toNat)) s)

/-- BGEU (R224). -/
def execBgeu (x : CtxRef) (a b : Fin 32) (off : BitVec 16) (s : State) : Host.Outcome State Fault Refusal :=
  .next (opBranch x 0x0e a b off (fun u v => decide (v.toNat ≤ u.toNat)) s)

/-- CALL: the link goes to ga; a = 0 discards it (R224). -/
def execCall (x : CtxRef) (a : Fin 32) (off : BitVec 16) (s : State) : Host.Outcome State Fault Refusal :=
  .next (s.issue x (wFB 0x06 a 0 off.toNat) true 0 fun pc =>
    .jump ((pc : Int) + s.immS x.eng x.ctx 16 off.toNat) (s.setG x.eng x.ctx a (BitVec.ofNat 64 (pc + 1))))

/-- RET (R224): the target is ga taken exactly, as a signed value (R225). -/
def execRet (x : CtxRef) (a : Fin 32) (s : State) : Host.Outcome State Fault Refusal :=
  .next (s.issue x (wF3 0x07 0 a 0 0x000) false 0 fun _ => .jump (s.g x.eng x.ctx a).toInt s)

/-- HALT (R207, R224). -/
def execHalt (x : CtxRef) (s : State) : Host.Outcome State Fault Refusal :=
  .next (s.issue x (wF3 0x07 0 0 0 0x001) false 0 fun _ => .halt s)

/-- FADD (R221). -/
def execFadd (x : CtxRef) (md : Rnd) (d a b : Fin 32) (s : State) : Host.Outcome State Fault Refusal :=
  .next (opRRR x 0x10 (256 * md.num + 0x00) d a b (fAdd md) s)

/-- FSUB (R221). -/
def execFsub (x : CtxRef) (md : Rnd) (d a b : Fin 32) (s : State) : Host.Outcome State Fault Refusal :=
  .next (opRRR x 0x10 (256 * md.num + 0x01) d a b (fSub md) s)

/-- FMUL (R221). -/
def execFmul (x : CtxRef) (md : Rnd) (d a b : Fin 32) (s : State) : Host.Outcome State Fault Refusal :=
  .next (opRRR x 0x10 (256 * md.num + 0x02) d a b (fMul md) s)

/-- FDIV (R221). -/
def execFdiv (x : CtxRef) (md : Rnd) (d a b : Fin 32) (s : State) : Host.Outcome State Fault Refusal :=
  .next (opRRR x 0x10 (256 * md.num + 0x03) d a b (fDiv md) s)

/-- FSQRT (R221). -/
def execFsqrt (x : CtxRef) (md : Rnd) (d a : Fin 32) (s : State) : Host.Outcome State Fault Refusal :=
  .next (opRR x 0x10 (256 * md.num + 0x04) d a (fSqrt md) s)

/-- FMIN (R221). -/
def execFmin (x : CtxRef) (d a b : Fin 32) (s : State) : Host.Outcome State Fault Refusal :=
  .next (opRRR x 0x10 0x005 d a b fMin s)

/-- FMAX (R221). -/
def execFmax (x : CtxRef) (d a b : Fin 32) (s : State) : Host.Outcome State Fault Refusal :=
  .next (opRRR x 0x10 0x006 d a b fMax s)

/-- FFMA: ga × gb + gd, rounded once (R221). -/
def execFfma (x : CtxRef) (md : Rnd) (d a b : Fin 32) (s : State) : Host.Outcome State Fault Refusal :=
  .next (opRRR x 0x11 (256 * md.num) d a b (fun u v => fFma md u v (s.g x.eng x.ctx d)) s)

/-- FCVT.F2I (R222). -/
def execFcvtF2i (x : CtxRef) (md : Rnd) (d a : Fin 32) (s : State) : Host.Outcome State Fault Refusal :=
  .next (opRR x 0x12 (256 * md.num + 0x00) d a (fF2I md) s)

/-- FCVT.F2U (R222). -/
def execFcvtF2u (x : CtxRef) (md : Rnd) (d a : Fin 32) (s : State) : Host.Outcome State Fault Refusal :=
  .next (opRR x 0x12 (256 * md.num + 0x01) d a (fF2U md) s)

/-- FCVT.I2F (R222). -/
def execFcvtI2f (x : CtxRef) (md : Rnd) (d a : Fin 32) (s : State) : Host.Outcome State Fault Refusal :=
  .next (opRR x 0x12 (256 * md.num + 0x02) d a (fI2F md) s)

/-- FCVT.U2F (R222). -/
def execFcvtU2f (x : CtxRef) (md : Rnd) (d a : Fin 32) (s : State) : Host.Outcome State Fault Refusal :=
  .next (opRR x 0x12 (256 * md.num + 0x03) d a (fU2F md) s)

/-- FCVT.RI (R222). -/
def execFcvtRi (x : CtxRef) (md : Rnd) (d a : Fin 32) (s : State) : Host.Outcome State Fault Refusal :=
  .next (opRR x 0x12 (256 * md.num + 0x04) d a (fRI md) s)

/-- FCMP.EQ (R223). -/
def execFcmpEq (x : CtxRef) (d : Fin 8) (a b : Fin 32) (s : State) : Host.Outcome State Fault Refusal :=
  .next (opCmp x 0x13 0x000 d a b
    (fun u v => !isNan u && !isNan v && decide (fCmp (fval u) (fval v) = 0)) s)

/-- FCMP.LT (R223). -/
def execFcmpLt (x : CtxRef) (d : Fin 8) (a b : Fin 32) (s : State) : Host.Outcome State Fault Refusal :=
  .next (opCmp x 0x13 0x001 d a b
    (fun u v => !isNan u && !isNan v && decide (fCmp (fval u) (fval v) < 0)) s)

/-- FCMP.LE (R223). -/
def execFcmpLe (x : CtxRef) (d : Fin 8) (a b : Fin 32) (s : State) : Host.Outcome State Fault Refusal :=
  .next (opCmp x 0x13 0x002 d a b
    (fun u v => !isNan u && !isNan v && decide (fCmp (fval u) (fval v) ≤ 0)) s)

/-- FCMP.UN (R223). -/
def execFcmpUn (x : CtxRef) (d : Fin 8) (a b : Fin 32) (s : State) : Host.Outcome State Fault Refusal :=
  .next (opCmp x 0x13 0x003 d a b
    (fun u v => isNan u || isNan v) s)

/-- LD (R226). -/
def execLd (x : CtxRef) (d a : Fin 32) (imm : BitVec 16) (s : State) : Host.Outcome State Fault Refusal :=
  .next (opLoad x (wFI 0x18 d a imm.toNat) true 8 d a (s.immS x.eng x.ctx 16 imm.toNat) s)

/-- LDW (R226). -/
def execLdw (x : CtxRef) (d a : Fin 32) (imm : BitVec 16) (s : State) : Host.Outcome State Fault Refusal :=
  .next (opLoad x (wFI 0x19 d a imm.toNat) true 4 d a (s.immS x.eng x.ctx 16 imm.toNat) s)

/-- LDH (R226). -/
def execLdh (x : CtxRef) (d a : Fin 32) (off : BitVec 10) (s : State) : Host.Outcome State Fault Refusal :=
  .next (opLoad x (wF3 0x1A d a 0 (0 + off.toNat)) false 2 d a off.toInt s)

/-- LDB (R226). -/
def execLdb (x : CtxRef) (d a : Fin 32) (off : BitVec 10) (s : State) : Host.Outcome State Fault Refusal :=
  .next (opLoad x (wF3 0x1A d a 0 (1024 + off.toNat)) false 1 d a off.toInt s)

/-- ST (R226, R227). -/
def execSt (x : CtxRef) (d a : Fin 32) (imm : BitVec 16) (s : State) : Host.Outcome State Fault Refusal :=
  .next (opStore x (wFI 0x1b d a imm.toNat) true 8 d a (s.immS x.eng x.ctx 16 imm.toNat) s)

/-- STW (R226, R227). -/
def execStw (x : CtxRef) (d a : Fin 32) (imm : BitVec 16) (s : State) : Host.Outcome State Fault Refusal :=
  .next (opStore x (wFI 0x1c d a imm.toNat) true 4 d a (s.immS x.eng x.ctx 16 imm.toNat) s)

/-- STH (R226, R227). -/
def execSth (x : CtxRef) (d a : Fin 32) (off : BitVec 10) (s : State) : Host.Outcome State Fault Refusal :=
  .next (opStore x (wF3 0x1D d a 0 (0 + off.toNat)) false 2 d a off.toInt s)

/-- STB (R226, R227). -/
def execStb (x : CtxRef) (d a : Fin 32) (off : BitVec 10) (s : State) : Host.Outcome State Fault Refusal :=
  .next (opStore x (wF3 0x1D d a 0 (1024 + off.toNat)) false 1 d a off.toInt s)

end Sys2Proof.Machine
end

