-- ==== Sys2Proof/Machine/Time.lean ====
section
/-!
DEFINITION. Hall time and the reference (R50–R72): the strobe queue, HT set, calendar, quality code, oscillator, external
references and holdover.
-/
namespace Sys2Proof.Machine

/-! ### Strobe queue (R35, R36) -/

/-- Scheduled strobes a part's queue holds at most (R36). -/
def strobeCap : PartId → Nat
  | .tsu => 8
  | .dist => 64

/-- Scheduled strobes queued (SYS_UPD_QUEUE); an immediate strobe takes no place. -/
def Part.scheduled (q : Part) : List StrobeReq := q.strobes.filter fun r => r.kind ≠ .immediate

/-- Queues a strobe (R35, R36): RANGE where the target has no valid sign, BUSY where the queue is full, LATE where the
target is at or before the present, with its lateness against the tick it applies on. -/
def State.queueStrobe (s : State) (p : PartId) (src : Src) (kind : StrobeKind) (target : HT) (mask : Nat) :
    Code × Nat × State :=
  let now := s.ht p
  if noSign target now then (.range, 0, s)
  else if strobeCap p ≤ (s.part p).scheduled.length then (.busy, 0, s)
  else
    let late := atOrAfter now target
    let r : StrobeReq := { target := target, due := if late then now + 1 else target, mask := mask, src := src, kind := kind, late := late }
    let s1 := s.mod p fun q => { q with strobes := q.strobes ++ [r] }
    if late then (.late, (htDiff (s.nextTick p) target).toNat, s1) else (.ok, 0, s1)

/-- Requests an immediate strobe, at the first tick after the write (R35). -/
def State.immediateStrobe (s : State) (p : PartId) (src : Src) (mask : Nat) : State :=
  let t := s.ht p + 1
  s.mod p fun q => { q with strobes := q.strobes ++ [{ target := t, due := t, mask := mask, src := src, kind := .immediate }] }

/-- The removal of a queued strobe (R36): one OUTCOME record with STATE whose source is the requester, and a local UPD
completes with STATE. -/
def State.strobeRemoved (s : State) (p : PartId) (r : StrobeReq) : State :=
  let w : Who := { p := p, tile := r.src.tile, blk := 0, ctx := r.src.jctx }
  match r.kind with
  | .upd pc op => (s.outcome w .state 0x3E pc 0).completeTold op .state
  | .register => s.outcome w .state 0x40 (wordOff (addrOf p .sysUpdAtHi)) 0
  | .frame cls ty => s.outcome { w with ctx := 0x20 } .state 0x41 (cls + 16 * ty) 0
  | .immediate => s

/-- Removes the queued scheduled strobes that `f` picks, journalling each in queue order. -/
def State.removeStrobes (s : State) (p : PartId) (f : StrobeReq → Bool) : State :=
  let gone := (s.part p).strobes.filter fun r => r.kind ≠ .immediate && f r
  let s1 := s.mod p fun q => { q with strobes := q.strobes.filter fun r => !(r.kind ≠ .immediate && f r) }
  gone.foldl (fun t r => t.strobeRemoved p r) s1

/-! ### The reference each part follows (R60, R125, R141, R142) -/

/-- State of the servo at a port: 0 IDLE to 6 MEASURE (SRV_Pp_STATE.STATE). -/
def State.srvState (s : State) (p : PartId) (n : Nat) : Nat := s.fd p .srvPState 2 0 n

/-- The ports of a reference: 1 is domain A or the upstream, 2 is domain B or the twin (SRV_STATE.FOLLOWED). -/
def refPorts (p : PartId) (d : Nat) : List Nat :=
  match p, d with
  | .tsu, 1 => [0, 1]
  | .tsu, 2 => [2, 3]
  | .dist, 1 => rangeFrom 256 16
  | .dist, 2 => [272, 273]
  | _, _ => []

/-- A reference is eligible while it has a LOCKED port (R142). -/
def State.eligible (s : State) (p : PartId) (d : Nat) : Bool := (refPorts p d).any fun n => s.srvState p n == 3

/-- A hall root, if present, is in service: some upstream port is (R54). -/
def State.hallInService (s : State) : Bool := (rangeFrom 256 16).any fun n => s.inService .dist n

/-- A tier at which a distributor can be the time source (R54, R125). -/
def State.sourceTier (s : State) : Bool := s.tier = 3 || s.tier = 4 || (s.tier = 2 && !s.hallInService)

/-- The primary twin, which SRV_CFG.TWIN_PRI names by its domain (R125). -/
def State.primaryTwin (s : State) : Bool := s.domain == s.fd .dist .srvCfg 3 3

/-- The distributor acts as the primary twin: a primary that has found its twin acting as source follows as a secondary would (R126). -/
def State.actsPrimary (s : State) : Bool := s.primaryTwin && !s.dist.srv.asSecondary

/-- The part acts as the time source (R54, R125, R126). -/
def State.isSource (s : State) (p : PartId) : Bool :=
  match p with
  | .tsu => false
  | .dist => s.sourceTier && (s.dist.srv.source || s.actsPrimary)

/-- The average of the DAC codes of the previous 1,000 s (R70), in 2^-32 of a code; with none recorded the present code. -/
def OscState.average (o : OscState) : Int :=
  let n := o.dacN + 1000 * o.dacSecs.length
  if n = 0 then o.dac * 2 ^ 32 else ((o.dacSum + o.dacSecs.foldl (· + ·) 0) * 2 ^ 32 / n : Nat)

/-- Enters HOLDOVER: HOLD_S starts at 0, the error bound runs from 0, and the rate adjustment at entry is kept (R58, R70). A TRACEABLE
source's DAC keeps its average code, any other the last one written (R64, R70). -/
def State.enterHoldover (s : State) (p : PartId) : State :=
  let s1 := s.mod p fun q => { q with
    tb := { q.tb with locked := false, holding := true, holdRate := q.tb.applied, holdAt := q.tb.ht } }
  let s2 := if p = .dist then
      { s1 with osc := { s1.osc with holdCode := if s.qual .dist = 4 then s1.osc.average else s1.osc.dac * 2 ^ 32 } }
    else s1
  ((s2.setF p .tbsQual 31 16 0).wr p .tbsHoldErr 0).setQual p 2

/-- The follower's quality code after a change of its references (R60); a root that has lost every path to the hall roots loses its lock,
though it is then a source itself (R71). -/
def State.refreshQual (s : State) (p : PartId) : State :=
  let tb := (s.part p).tb
  let sv := (s.part p).srv
  let lockedNow := sv.followed ≠ 0 && s.eligible p sv.followed
  if tb.locked && !lockedNow then
    let s1 := s.mod p fun q => { q with tb := { q.tb with locked := false } }
    if 2 ≤ s.qual p then s1.enterHoldover p else s1.setQual p 0
  else if s.isSource p then s
  else if lockedNow then
    let carried := match sv.tport with
      | some n => s.fd p .srvPState 15 13 n
      | none => 0
    let s1 := s.mod p fun q => { q with tb := { q.tb with locked := true, everLocked := true, holding := false } }
    (s1.setF p .tbsQual 31 16 0).setQual p carried
  else if tb.everLocked then s
  else match p with
    | .tsu => s.setQual .tsu 0
    | .dist => if s.osc.sampled then s.setQual .dist (if s.bt .dist .oscStatus 1 then 0 else 1) else s

/-! ### HT set and calendar (R54–R57) -/

/-- Whether an HT set is accepted (R54): at a time source, or in a TSU with no port in service, with every job FREE. -/
def State.htSetAllowed (s : State) (p : PartId) : Bool :=
  (match p with
   | .dist => s.isSource .dist
   | .tsu => !s.clockRuns .tsu) && s.jobsFree p

/-- An accepted HT set waits for the first tick after its _N write (R54); a source's SETGEN counts it (R131). -/
def State.acceptHtSet (s : State) (p : PartId) (v : HT) (src : Src) : State :=
  (s.mod p fun q => { q with
    tb := { q.tb with htSet := some (v &&& 0xFFFFFFFFFFFFFF00#64, src) }
    srv := { q.srv with setgen := if p = .dist then (q.srv.setgen + 1) % 256 else q.srv.setgen } }).setB p .tbsStat 0

/-- HT_SET_LOAD: the accepted value loads on the next tick, queued strobes go, holdover and qualification timers restart
(R54, R55). -/
def loadHtSet (p : PartId) (s : State) : State :=
  match (s.part p).tb.htSet with
  | none => s
  | some (v, src) =>
    let s1 := s.reach p (s.nextTick p)
    let s2 := s1.stepHt p v 0 { p := p, blk := 1, ctx := src.jctx }
    let s3 := s2.mod p fun q => { q with tb := { q.tb with htSet := none, holdAt := q.tb.ht } }
    let s4 := s3.setF p .tbsQual 31 16 0
    let s5 := if p = .dist then { s4 with osc := { s4.osc with ppsGood := 0, ppsMiss := 0, ppsLast := none, ptp := { s4.osc.ptp with good := 0, heard := v } } } else s4
    s5.removeStrobes p fun _ => true

/-- A follower's load of calendar values: active at once, a strobe record of class LINK for each value that changes (R49,
R57). -/
def State.loadCalendar (s : State) (p : PartId) (vals : List Nat) (h : HT) : State :=
  (calWords vals).foldl (fun t nv =>
    let old := t.rd p nv.1
    let new := BitVec.ofNat 32 nv.2
    if old = new then t else (t.wr p nv.1 new).cfgRec p { cls := .link } (addrOf p nv.1) old new 2 h) s

/-- CALINFO: a follower takes the frame at a port at which it is the downstream end, in a TSU of its followed domain only; it relays it to
every port at which it is the upstream end and schedules its load. One that comes after its effective tick loads at once and is journalled
LATE (R57, R145). -/
def recvCalinfo (port : Port) (eff : HT) (calHt : HT) (sec ns : Nat) (rate : Word) (utc : Nat) (s : State) : State :=
  let p := port.part
  let vals := [calHt.toNat, sec, ns, rate.toNat, utc]
  let st := s.srvState p port.num
  let uses := 1 ≤ st && st ≤ 4 && (p = .dist || s.tsu.srv.followed == 1 + port.num / 2)
  if s.isSource p || !uses then s else
  let s1 := if p = .dist then s.serveDown .dist (calinfoFrame eff vals) else s
  if after (s.ht p) eff then
    let late := (htDiff (s.ht p) eff).toNat
    (s1.loadCalendar p vals (s.ht p)).frameOutcome p 1 .late 1 3 late
  else s1.mod p fun q => { q with tb := { q.tb with calinfo := q.tb.calinfo ++ [(eff, vals)] } }

/-- The first of some timed items in time, the earlier listed of equals (R51). -/
def firstDue {α : Type} : List (HT × α) → Option (HT × α)
  | [] => none
  | x :: xs => some (xs.foldl (fun m y => if after m.1 y.1 then y else m) x)

/-- CALENDAR_LOAD: at its effective tick the follower loads the next waiting anchor, rate and UTC offset together (R57); equal frames that
came by several ports are one load. -/
def calendarLoad (p : PartId) (s : State) : State :=
  match firstDue (s.part p).tb.calinfo with
  | none => s
  | some (eff, vals) =>
    let s1 := s.reach p eff
    (s1.loadCalendar p vals eff).mod p fun q => { q with tb := { q.tb with calinfo := q.tb.calinfo.filter (· ≠ (eff, vals)) } }

/-- CALINFO_INTERVAL: the time source sends anchor, rate and UTC offset downstream (R57). The rule does not say which tick the frame names:
it names the source's own next tick (log entry 121). -/
def calinfoInterval (s : State) : State :=
  if s.isSource .dist then s.serveDown .dist (calinfoFrame (s.nextTick .dist) (s.calValues .dist)) else s

/-! ### Oscillator and references (R61–R70) -/

/-- OSC_CTRL.REF_SEL. -/
def State.refSel (s : State) : Nat := s.fd .dist .oscCtrl 2 0

/-- The selected reference is qualified (R68): under REF_SEL 1 and 4 both of its sources are. -/
def State.refQualified (s : State) : Bool :=
  match s.refSel with
  | 1 => s.osc.ext10mQual && s.osc.ppsQual
  | 2 => s.osc.ppsQual
  | 3 => s.osc.ptpQual
  | 4 => s.osc.ext10mQual && s.osc.ptpQual
  | _ => false

/-- The selected reference's qualification after a change: status bits, and at a source HOLD_S and the code (R58, R59, R68). -/
def State.refreshRef (s : State) : State :=
  let was := s.bt .dist .oscStatus 6
  let now := s.refQualified
  let s1 := (s.setF .dist .oscStatus 6 6 (b2n now)).setF .dist .oscStatus 5 5 (b2n s.osc.ptpQual)
  if now && !was then
    let s2 := s1.setB .dist .oscStat 3
    if !s.isSource .dist then s2 else
    let s3 := (s2.mod .dist fun q => { q with tb := { q.tb with holding := false } }).setF .dist .tbsQual 31 16 0
    if s.osc.pllOnOsc && (s.qual .dist = 0 || s.qual .dist = 2) then s3.setQual .dist 4 else s3
  else if was && !now then
    let s2 := s1.setB .dist .oscStat 2
    if s.isSource .dist && s.qual .dist = 4 then s2.enterHoldover .dist else s2
  else s1

/-- A reference's own qualification. -/
def OscState.qualOf (o : OscState) : RefSrc → Bool
  | .ext10m => o.ext10mQual
  | .pps => o.ppsQual
  | .ptp => o.ptpQual

/-- A reference's own qualification changes, selected or not: the change is journalled, and what it makes of the selected reference follows
(R68). -/
def State.refChanges (s : State) (r : RefSrc) (on : Bool) : State :=
  if s.osc.qualOf r = on then s else
  let o := match r with
    | .ext10m => { s.osc with ext10mQual := on }
    | .pps => { s.osc with ppsQual := on }
    | .ptp => { s.osc with ptpQual := on }
  ({ s with osc := o }.timeEvent .dist 2 (if on then 3 else 2) r.num 0).refreshRef

/-- REFERENCE_QUALIFIES: a reference that meets its criterion of R68 becomes qualified. -/
def referenceQualifies (r : RefSrc) (s : State) : State :=
  match r with
  | .ext10m => (s.setF .dist .oscStatus 3 3 1).refChanges .ext10m true
  | .pps => if 16 ≤ s.osc.ppsGood then s.refChanges .pps true else s
  | .ptp => if 16 ≤ s.osc.ptp.good then s.refChanges .ptp true else s

/-- REFERENCE_LOST: a reference loses qualification under R68; the external 10 MHz may be off frequency with its edges still arriving, so its
presence is the next sample's. PTP is lost 3 s after the selected transmitter's latest Sync or Announce, and another may be selected then. -/
def referenceLost (r : RefSrc) (s : State) : State :=
  match r with
  | .ext10m => s.refChanges .ext10m false
  | .pps =>
    if s.osc.ppsMiss < 3 then s else
    let s1 := { s with osc := { s.osc with ppsGood := 0 } }
    (s1.setF .dist .oscStatus 4 4 0).refChanges .pps false
  | .ptp =>
    let s1 := s.reach .dist (s.osc.ptp.heard + 768000000000#64)
    { s1 with osc := { s1.osc with ptp := {} } }.refChanges .ptp false

/-- OVEN_SAMPLE: the oven-ready pin and whether external 10 MHz edges arrive, sampled every 1 ms (R59, R61). OVEN_OK rises once the pin has been
high for WARM_HOLD and falls on a low sample alone. -/
def ovenSample (pin ext10m : Bool) (s : State) : State :=
  let o := s.osc
  let first := !o.sampled
  let ms := if pin then o.ovenMs + 1 else 0
  let was := s.bt .dist .oscStatus 1
  let ok := pin && (was || decide (1000 * s.fd .dist .oscCtrl 31 16 ≤ ms))
  let s1 := { s with osc := { o with ovenMs := ms, sampled := true } }
  let s2 := (((s1.setF .dist .oscStatus 0 0 (b2n pin)).setF .dist .oscStatus 1 1 (b2n ok)).setF .dist .oscStatus 2 2
    (b2n (!o.lost && o.pllOnOsc))).setF .dist .oscStatus 3 3 (b2n ext10m)
  if s.isSource .dist then
    if !o.pllOnOsc then s2 else
    let s3 := if first && s.qual .dist = 0 then s2.setQual .dist 1 else s2
    let s4 := if was && !ok then (s3.setB .dist .oscStat 1).setQual .dist 1 else s3
    if ok && !was && s4.qual .dist = 1 then s4.setQual .dist (if s.refSel = 0 then 3 else 0) else s4
  else
    let s3 := if was && !ok then s2.setB .dist .oscStat 1 else s2
    s3.refreshQual .dist

/-- OSC_LOST: no oscillator edge for 200 ns; the PLL runs free and the code becomes FREE (R59, R63). -/
def oscLost (s : State) : State :=
  let s1 := { s with osc := { s.osc with lost := true } }
  let s2 := ((s1.setF .dist .oscStatus 2 2 0).setB .dist .oscStat 0).timeEvent .dist 2 0 0 0
  if s.isSource .dist then s2.setQual .dist 0 else s2

/-- HOLDOVER_SECOND: HOLD_S counts, a source's held code takes a second of the learned ageing slope, and a distributor's error bound runs on
by the part's own computation, whose result the command brings; a TSU's follows its formula (`State.holdErr`) (R58, R70). -/
def holdoverSecond (p : PartId) (bound : Nat) (s : State) : State :=
  let tb := (s.part p).tb
  if !tb.holding then s else
  let s1 := s.setF p .tbsQual 31 16 (min 65535 (s.fd p .tbsQual 31 16 + 1))
  if p = .tsu then s1 else
  let s2 := if s.isSource .dist then
      { s1 with osc := { s1.osc with holdCode := s1.osc.holdCode + Config.ageingCode s.dist.lif.ageing } }
    else s1
  if s.qual .dist = 2 then s2.wr .dist .tbsHoldErr (BitVec.ofNat 32 (satNat 32 bound)) else s2

/-- HOLDOVER_EXPIRY: HOLD_S reaches TBS_HOLD_MAX and the code becomes FREE (R59, R60, R70). -/
def holdoverExpiry (p : PartId) (s : State) : State :=
  if s.qual p = 2 && (s.part p).tb.holding && decide (s.fd p .tbsHoldMax 15 0 ≤ s.fd p .tbsQual 31 16)
  then s.setQual p 0 else s

/-- Width of the DAC in use (OSC_CTRL.DAC_BITS, R64). -/
def State.dacMax (s : State) : Nat :=
  match s.fd .dist .oscCtrl 7 6 with
  | 0 => 2 ^ 16 - 1
  | 1 => 2 ^ 18 - 1
  | _ => 2 ^ 20 - 1

/-- A code written to the DAC, with its place in the average of the previous 1,000 s (R64, R70). -/
def State.dacPut (s : State) (code : Nat) : State :=
  let o := s.osc
  let n := o.dacN + 1
  let sum := o.dacSum + code
  { s with osc :=
    if n < 1000 then { o with dac := code, dacN := n, dacSum := sum }
    else { o with dac := code, dacN := 0, dacSum := 0, dacSecs := (sum :: o.dacSecs).take 1000 } }

/-- A code the loop asks for, written at the nearer end of the range where it lies beyond it (R64). -/
def State.dacAsk (s : State) (asked : Int) : State :=
  let top : Int := s.dacMax
  let s1 := s.dacPut (max 0 (min top asked)).toNat
  if asked < 0 || top < asked then s1.setB .dist .oscStat 5 else s1

/-- DAC_UPDATE: once per millisecond a code is written to the DAC (R64, R65, R70, R129). Without DAC_AUTO, and at a source without a reference, it
is the manual code; a source in holdover holds its code with the ageing slope; else the loop's own, which comes with the command, but for a
follower that is not locked, which holds the last. -/
def dacUpdate (asked : Int) (s : State) : State :=
  if !s.bt .dist .oscCtrl 4 || (s.isSource .dist && s.refSel = 0) then s.dacPut (s.fd .dist .oscDac 19 0)
  else if s.isSource .dist then s.dacAsk (if s.dist.tb.holding then s.osc.holdCode / (2 ^ 32 : Nat) else asked)
  else if s.dist.tb.locked then s.dacAsk asked
  else s.dacPut s.osc.dac

/-! ### The source's calendar (R66–R69) -/

/-- The calendar's reading of an HT value in hu of TAI (R56). -/
def State.calHu (s : State) (h : HT) : Int :=
  let a := s.anchor .dist
  let d := htDiff h a.1
  ((a.2.1 : Int) * 1000000000 + a.2.2.1) * 256 + (d + d * a.2.2.2 / (2 ^ 48 : Nat))

/-- A whole second in hu. -/
def secondHu : Nat := 256000000000

/-- What one second of 1 ppm is in hu. -/
def ppmHu : Nat := 256000

/-- The term that removes an error of `e` hu, and for how many whole seconds: at most 1 ppm (R69). -/
def calTermFor (e : Int) : Int × Nat :=
  let n := max 1 (ceilDiv e.natAbs ppmHu)
  (max (-281474976) (min 281474976 (-(e * (2 ^ 48 : Nat)) / (n * secondHu : Nat))), n)

/-- The calendar correction of R69 at a qualified edge or update whose TAI reading of `h` is `tai` hu. An error of at most 100 µs is removed by a
term in CAL_RATE for whole seconds, from an anchor moved to the present so that the calendar does not step; a term that has not yet run a
whole second stands (log entry 122). A larger error rewrites the anchor in one step. CAL_RATE with the term stays within its 32 bits. -/
def State.correctCalendar (s : State) (h : HT) (tai : Int) : State :=
  let e := s.calHu h - tai
  let rate := (s.anchor .dist).2.2.2 - (match s.osc.calTerm with
    | some c => c.term
    | none => 0)
  let young := match s.osc.calTerm with
    | some c => decide (htDiff h c.from_ < (secondHu - ppmHu : Nat))
    | none => false
  let s1 :=
    if e.natAbs ≤ 25600000 then
      if young then s else
      let z := calTermFor e
      let sum := satInt 32 (rate + z.1)
      let c : CalTerm := ⟨sum - rate, h, h + BitVec.ofNat 64 (z.2 * secondHu)⟩
      { s.rebase .dist h sum with osc := { s.osc with calTerm := if e = 0 then none else some c } }
    else
      let ns := tai / 256
      let s0 := s.setAnchor .dist (h - BitVec.ofInt 64 (tai % 256)) (ns / 1000000000 % (2 ^ 48 : Nat)).toNat (ns % 1000000000).toNat rate
      ({ s0 with osc := { s0.osc with calTerm := none } }.setB .dist .tbsStat 3).timeEvent .dist 0 3 0 (e * 256)
  if s1.calValues PartId.dist == s.calValues PartId.dist then s1
  else s1.serveDown .dist (calinfoFrame (s1.nextTick .dist) (s1.calValues .dist))

/-- Counts a missing or misplaced 1PPS pulse (R66, R68). -/
def State.ppsMissed (s : State) : State :=
  { s.setB .dist .oscStat 4 with osc := { s.osc with ppsGood := 0, ppsMiss := s.osc.ppsMiss + 1 } }

/-- PPS_EDGE: a 1PPS edge with its time-stamp; it numbers the second of OSC_TOD_NEXT and corrects the calendar of a source that it steers
(R65, R66, R69). The prediction of R68 is one second after the last edge (log entry 123): the first edge has none, and is none of the 16. An
edge more than 1 µs from the expected second is a missing pulse and leaves OSC_TOD_NEXT alone (log entry 123). -/
def ppsEdge (stamp : HT) (s : State) : State :=
  let dev : Option Int := s.osc.ppsLast.map fun l => htDiff stamp (l + BitVec.ofNat 64 secondHu)
  if dev.any fun d => decide (ppmHu < d.natAbs) then { s.ppsMissed with osc := { s.ppsMissed.osc with ppsLast := some stamp } } else
  let tod := (s.rd .dist .oscTodLo).toNat + 2 ^ 32 * s.fd .dist .oscTodHi 15 0
  let good := if dev.any fun d => decide (d.natAbs ≤ 12800) then s.osc.ppsGood + 1 else 0
  let s1 := { s with osc := { s.osc with ppsGood := good, ppsMiss := 0, ppsLast := some stamp } }
  let next := (tod + 1) % 2 ^ 48
  let s2 := (s1.wr .dist .oscTodLo (BitVec.ofNat 32 next)).setF .dist .oscTodHi 15 0 (next / 2 ^ 32)
  let s3 := s2.setF .dist .oscStatus 4 4 1
  if s.isSource .dist && s.bt .dist .oscStatus 6 && (s.refSel = 1 || s.refSel = 2) then s3.correctCalendar stamp (tod * secondHu : Nat) else s3

/-- PPS_MISSING: no 1PPS edge within 1 µs of the expected second (R66). The rule does not move OSC_TOD_NEXT over it, and the model does not
(log entry 123). -/
def ppsMissing (s : State) : State :=
  let m := s.ppsMissed
  { m with osc := { m.osc with ppsLast := m.osc.ppsLast.map (· + BitVec.ofNat 64 secondHu) } }

/-! ### The PTP time-receiver (R67; IEEE 1588-2019, log entry 124) -/

/-- A PTP time in hu of TAI. -/
def ptpHu (t : PtpTime) : Int := ((t.sec : Int) * 1000000000 + t.ns) * 256 + t.corr / 256

/-- The order in which the default best master clock algorithm compares two transmitters: true where the first is better. -/
def ptpBetter (a b : PtpData) : Bool :=
  let key (d : PtpData) : List Nat := [d.prio1.toNat, d.cls.toNat, d.accuracy.toNat, d.variance.toNat, d.prio2.toNat, d.grandmaster.toNat,
    d.steps.toNat, d.sender.toNat]
  decide (key a < key b)

/-- The message comes from the selected transmitter. -/
def PtpState.selected (q : PtpState) (sender : BitVec 80) : Bool := q.best.any fun d => d.sender == sender

/-- A Sync of origin `t1` hu of TAI is complete: the offset against the present mapping is tested against R68, and a source that PTP steers
corrects its calendar (R69). -/
def State.ptpSync (s : State) (stamp : HT) (t1 : Int) : State :=
  let tai := t1 + s.osc.ptp.delay
  let e := s.calHu stamp - tai
  let q := s.osc.ptp
  let s1 := { s with osc := { s.osc with ptp := { q with wait := none, last := some (t1, stamp), good := if e.natAbs ≤ 25600 then q.good + 1 else 0 } } }
  if s.isSource .dist && s.bt .dist .oscStatus 6 && (s.refSel = 3 || s.refSel = 4) then s1.correctCalendar stamp tai else s1

/-- PTP_MESSAGE: a message on a management Ethernet port, with the time-stamp of its event: a Sync's arrival, or the departure of the request
that a response answers. The selected port and domain alone are heard, and of two transmitters the better (R67, R68). End-to-end delay comes
from Delay_Resp, peer delay from Pdelay_Resp, as OSC_PTP_CFG.P2P selects. -/
def ptpMessage (port1 : Bool) (domain : Byte) (stamp : HT) (m : PtpMsg) (s : State) : State :=
  if s.bt .dist .oscPtpCfg 8 != port1 || s.fd .dist .oscPtpCfg 6 0 != domain.toNat then s else
  let q := s.osc.ptp
  let p2p := s.bt .dist .oscPtpCfg 9
  let put (v : PtpState) : State := { s with osc := { s.osc with ptp := v } }
  match m with
  | .announce d =>
    let own := q.selected d.sender
    if own then put { q with best := some d, heard := s.ht .dist }
    else if q.best.all fun b => ptpBetter d b then put { best := some d, heard := s.ht .dist, delay := if p2p then q.delay else 0, peer := q.peer }
    else s
  | .sync sender seq origin =>
    if !q.selected sender then s else
    let s1 := put { q with heard := s.ht .dist, wait := some (seq.toNat, stamp) }
    match origin with
    | some t => s1.ptpSync stamp (ptpHu t)
    | none => s1
  | .followUp sender seq origin =>
    match q.wait with
    | some (k, at_) => if q.selected sender && k = seq.toNat then s.ptpSync at_ (ptpHu origin) else s
    | none => s
  | .delayResp sender rx =>
    match q.last with
    | some (t1, t2) => if q.selected sender && !p2p then put { q with delay := ((s.calHu t2 - t1) + (ptpHu rx - s.calHu stamp)) / 2 } else s
    | none => s
  | .pdelayResp seq back turn =>
    if !p2p then s else
    match turn with
    | some t => put { q with delay := (htDiff back stamp - t / 256) / 2, peer := none }
    | none => put { q with peer := some (seq.toNat, stamp, back) }
  | .pdelayFollowUp seq turn =>
    match q.peer with
    | some (k, out, back) => if p2p && k = seq.toNat then put { q with delay := (htDiff back out - turn / 256) / 2, peer := none } else s
    | none => s

end Sys2Proof.Machine
end

