-- ==== Sys2Proof/Machine/Tdc.lean ====
section
/-!
DEFINITION. Interval measurement (R73–R85, R91–R93): conversion, results, code-density calibration.
A unit is named by its engine (the TSU's or a tile's) and its number; instance 2 × tile + unit.
-/
namespace Sys2Proof.Machine

/-- Instance number of TDC unit `u` of an engine's part or tile. -/
def tdcInst (e : EngSel) (u : Fin 2) : Nat := 2 * e.tileNo + u.val

/-- A TDC unit of a part. -/
def State.tdcU (s : State) (p : PartId) (i : Nat) : TdcUnit := mget (fun _ => {}) (s.part p).tdc i

/-- The state with a TDC unit replaced. -/
def State.setTdc (s : State) (p : PartId) (i : Nat) (u : TdcUnit) : State :=
  s.mod p fun q => { q with tdc := mset (fun _ => {}) q.tdc i u }

/-- The nominal bin edges of R82: EDGE[i] = min(328 i, 65,535) for i ≤ 255, and a last edge that gives the last bin width 1. -/
def nominalEdges : List Nat := (List.range 256).map (fun i => min (328 * i) 65535) ++ [65536]

/-- EDGE[0..256] of a channel: the calibrated table, or the nominal one (R81, R82). -/
def TdcUnit.edgesOf (u : TdcUnit) (c : Nat) : List Nat := mget (fun _ => nominalEdges) u.edges c

/-- EDGE[i] of a channel's table. -/
def TdcUnit.edgeAt (u : TdcUnit) (c i : Nat) : Nat := (u.edgesOf c).getD i 65536

/-- WIDTH[i] of a channel's table: the difference of its edges, and 1 for i ≥ 200 of the nominal table (R82). -/
def TdcUnit.widthAt (u : TdcUnit) (c i : Nat) : Nat :=
  if (u.edges.any fun kv => kv.1 == c) = false ∧ 200 ≤ i then 1 else u.edgeAt c (i + 1) - u.edgeAt c i

/-- The fraction of R74: the bin centre in hu, rounded half up. -/
def TdcUnit.frac (u : TdcUnit) (c raw : Nat) : Nat := (2 * u.edgeAt c raw + u.widthAt c raw + 256) / 512

/-- Counts an event that is not converted (R77). -/
def State.tdcMiss (s : State) (p : PartId) (i : Nat) : State := (s.bump p .tdcCount 15 0 1 i).setB p .tdcStat 0 i

/-- Queues a result in its channel's FIFO; a full FIFO discards it and sets the channel's FOVF bit (R79). -/
def State.tdcQueue (s : State) (p : PartId) (i c : Nat) (r : TdcResult) : State :=
  let u := s.tdcU p i
  let f := mget (fun _ => []) u.fifos c
  if 16 ≤ f.length then s.setB p .tdcStat (16 + c) i
  else s.setTdc p i { u with fifos := mset (fun _ => []) u.fifos c (f ++ [r]) }

/-- The prescaler of R78: the first selected edge is accepted, then every 2^k-th. -/
def prescAccepts (count k : Nat) : Bool := count % 2 ^ k == 0

/-- The channel is one that the reference loop of tile 0 takes: 7 for the 1PPS input under REF_SEL 1 and 2, 6 for the external 10 MHz input under 1
and 4 (R93). -/
def State.tdcTaken (s : State) (p : PartId) (i c : Nat) : Bool :=
  p = .dist && i = 0 && ((c = 7 && (s.refSel = 1 || s.refSel = 2)) || (c = 6 && (s.refSel = 1 || s.refSel = 4)))

/-- The calibration of trigger output `c` has switched the stop channel to its loopback (R90). -/
def State.tdcLooped (s : State) (p : PartId) (i c : Nat) : Bool :=
  i % 2 = 0 && c < 8 && (mget (fun _ => {}) (s.part p).dtc (8 * (i / 2) + c)).calibrating

/-- What a channel listens to: SRC, EDGE, COND and PRESC of its configuration, or what the reference loop or a DTC calibration has switched it to
(R78, R90, R93). The loop takes rising edges (log entry 133). -/
def State.tdcInput (s : State) (p : PartId) (i c : Nat) : Nat × Nat × Nat × Nat :=
  let cfg := s.rd p .tdcChCfg i c
  if s.tdcTaken p i c then (if c = 7 then (0x08, 1, 0, 0) else (0x09, 1, 1, 10))
  else (if s.tdcLooped p i c then 0x02 else fld cfg 31 24, fld cfg 23 22, fld cfg 21 20, fld cfg 19 16)

/-- Whether a level passes the HYST qualifier of a channel: ps for which it lasts on a TSU's EVT input, mV by which it exceeds the threshold on an
analogue input of the distributor; internal sources have none (R78). -/
def State.tdcQualifies (s : State) (p : PartId) (i c src level : Nat) : Bool :=
  let step := fld (s.rd p .tdcChCfg i c) 15 14
  match p with
  | .tsu => src ≠ 1 || decide ([0, 100, 200, 400].getD step 0 ≤ level)
  | .dist => !(src = 1 || (8 ≤ src && src ≤ 10)) || decide ([0, 25, 50, 100].getD step 0 ≤ level)

/-- The start that a stop on edge `edge` with fraction `f` is measured against: the latest one, or the one before when both fall on one edge and the
stop came first (R75). -/
def TdcUnit.startFor (u : TdcUnit) (edge f : Nat) : Option TdcStart :=
  match u.start with
  | some a => if a.edge = edge ∧ a.frac < (f : Int) then u.prevStart else some a
  | none => none

/-- The INTERVAL coarse counter has passed 2^24 periods: the wrap bit, and CWRAP at the first wrap after a start (R76). -/
def State.tdcWrapped (s : State) (p : PartId) (i : Nat) : State :=
  let u := s.tdcU p i
  match u.start with
  | some a =>
    if u.wrapped || !s.bt p .tdcCtrl 1 i || (s.part p).tb.edgeNo < a.edge + 2 ^ 24 then s
    else (s.setTdc p i { u with wrapped := true }).setB p .tdcStat 2 i
  | none => s

/-- A result goes to its reader (R79): the time-transfer logic for the link unit, the reference loop or the DTC calibration for a channel these have
taken, and else the FIFO (R90, R92, R93). The channel's result sequence advances. -/
def State.tdcDeliver (s : State) (p : PartId) (i c : Nat) (r : TdcResult) : State :=
  let u := s.tdcU p i
  let u1 := { u with chSeq := mset (fun _ => 0) u.chSeq c ((mget (fun _ => 0) u.chSeq c + 1) % 65536) }
  if i % 2 = 1 || s.tdcTaken p i c || s.tdcLooped p i c then s.setTdc p i { u1 with taken := mset (fun _ => none) u1.taken c (some r) }
  else (s.setTdc p i u1).tdcQueue p i c r

/-- An accepted edge on the present time-clock edge E with its raw code and polarity (R74–R77, R80). Its instant on the time clock is 256 × the
number of E less the fraction; one within 8 ns of the channel's last converted event, or while the unit calibrates or is not enabled, is missed. -/
def State.tdcAccept (s0 : State) (p : PartId) (i c raw : Nat) (falling : Bool) : State :=
  let u0 := s0.tdcU p i
  let f := u0.frac c raw
  let edge := (s0.part p).tb.edgeNo
  let at_ : Int := 256 * edge - f
  let s := s0.setTdc p i { u0 with lastAcc := mset (fun _ => none) u0.lastAcc c (some at_) }
  if s.bt p .tdcCalst 31 i || !s.bt p .tdcCtrl 0 i || (mget (fun _ => none) u0.lastConv c).any (fun x => decide (at_ < x + 2048)) then s.tdcMiss p i
  else
    let u := s.tdcU p i
    let u1 := { u with lastConv := mset (fun _ => none) u.lastConv c (some at_) }
    let r (value : DWord) (ovf : Bool) (seq : Nat) : TdcResult :=
      { value := value, ovf := ovf, uncal := s.bt p .tdcCalst 30 i, stale := s.bt p .tdcCalst 29 i, falling := falling, seq := seq, raw := raw }
    if !s.bt p .tdcCtrl 1 i then
      (s.setTdc p i u1).tdcDeliver p i c (r (s.ht p - BitVec.ofNat 64 f) false (mget (fun _ => 0) u.chSeq c))
    else if c = 8 then
      let q := (u.startSeq + 1) % 65536
      s.setTdc p i { u1 with startSeq := q, prevStart := u.start, start := some ⟨edge, f, q⟩, wrapped := false }
    else match u.startFor edge f with
      | none => (s.bump p .tdcCount 31 16 1 i).setB p .tdcStat 1 i
      | some a =>
        let n := edge - a.edge
        let iv := wrapInt 32 ((256 * (n % 2 ^ 24) : Nat) + a.frac - f)
        (s.setTdc p i u1).tdcDeliver p i c (r (BitVec.ofNat 64 iv) (decide (2 ^ 24 ≤ n)) a.seq)

/-- One more hit for a raw code of a channel whose unit calibrates (R81). -/
def State.tdcHit (s : State) (p : PartId) (i c raw : Nat) : State :=
  let u := s.tdcU p i
  let h := mget (fun _ => []) u.hits c
  s.setTdc p i { u with hits := mset (fun _ => []) u.hits c ((List.range (max h.length (raw + 1))).map fun k => h.getD k 0 + b2n (k == raw)) }

/-- TDC_EVENT: an edge of the source with code `src`, captured on the time-clock edge `k` edges from the present with its raw code; `level` is what
the HYST qualifier judges. It counts as a hit if the unit calibrates on it (R81); if the channel listens to it, EDGE, COND, PRESC, HYST and HOLDOFF
decide whether it is accepted (R78). While a TSU's time clock is stopped nothing is converted or counted (R77). -/
def tdcEvent (e : EngSel) (un : Fin 2) (ch : Fin 9) (src : Byte) (raw : Fin 256) (falling : Bool) (k level : Nat) (s0 : State) : State :=
  let p := e.part
  let i := tdcInst e un
  let c := ch.val
  if !s0.clockRuns p then s0 else
  let s1 := (s0.passed p ((s0.part p).tb.edges k)).tdcWrapped p i
  let s := if src = 0x03 && s1.bt p .tdcCalst 31 i then s1.tdcHit p i c raw.val else s1
  let (from_, edges, cond, presc) := s.tdcInput p i c
  if !(if falling then edges.testBit 1 else edges.testBit 0) || src = 0 then s
  else if src.toNat ≠ from_ then (if s.tdcLooped p i c && src = 0x01 then s.tdcMiss p i else s)
  else
    let u := s.tdcU p i
    match cond with
    | 1 =>
      let n := mget (fun _ => 0) u.presc c
      let s2 := s.setTdc p i { u with presc := mset (fun _ => 0) u.presc c (n + 1) }
      if prescAccepts n presc then s2.tdcAccept p i c raw.val falling else s2
    | 2 =>
      let at_ : Int := 256 * (s.part p).tb.edgeNo - u.frac c raw.val
      let off := s.fd p .tdcChCfg 13 0 i c
      if !s.tdcQualifies p i c from_ level || (mget (fun _ => none) u.lastAcc c).any (fun x => decide (at_ < x + 256 * off)) then s
      else s.tdcAccept p i c raw.val falling
    | _ => s.tdcAccept p i c raw.val falling

/-- COARSE_WRAP: time runs to the next wrap of the INTERVAL coarse counter (R76); the first one after a start sets CWRAP. -/
def coarseWrap (e : EngSel) (un : Fin 2) (s : State) : State :=
  let p := e.part
  let i := tdcInst e un
  if !s.bt p .tdcCtrl 1 i || !s.clockRuns p then s else
  match (s.tdcU p i).start with
  | none => s
  | some a =>
    let n := (s.part p).tb.edgeNo - a.edge
    let k := if (s.tdcU p i).wrapped then 2 ^ 24 - n % 2 ^ 24 else 2 ^ 24 - n
    (s.passed p ((s.part p).tb.edges k)).tdcWrapped p i

/-- The RSTAT word of a result (R80). -/
def TdcResult.status (r : TdcResult) : Word :=
  BitVec.ofNat 32 (2 ^ 31 + 2 ^ 30 * b2n r.ovf + 2 ^ 29 * b2n r.uncal + 2 ^ 28 * b2n r.stale + 2 ^ 24 * b2n r.falling
    + 2 ^ 8 * (r.seq % 65536) + r.raw % 256)

/-- The oldest result of a channel leaves its FIFO (R79). -/
def State.tdcTake (s : State) (p : PartId) (i c : Nat) : Option TdcResult × State :=
  let u := s.tdcU p i
  match mget (fun _ => []) u.fifos c with
  | [] => (none, s)
  | r :: rs => (some r, s.setTdc p i { u with fifos := mset (fun _ => []) u.fifos c rs })

/-- A read of RSTAT: the oldest result of the channel in RSEL moves to RLO and RHI (R79). -/
def State.tdcReadRstat (s : State) (p : PartId) (i : Nat) : Word × State :=
  match s.tdcTake p i (s.fd p .tdcRsel 3 0 i) with
  | (none, s1) => (0, s1)
  | (some r, s1) =>
    (r.status, (s1.wr p .tdcRlo (r.value.truncate 32) i).wr p .tdcRhi ((r.value >>> 32).truncate 32) i)

/-- A calibration of a unit begins, with no hit counted (R81). -/
def State.tdcBegin (s : State) (p : PartId) (i : Nat) : State :=
  (s.setTdc p i { s.tdcU p i with hits := [], bandMoved := false, autoWait := false }).setF p .tdcCalst 31 31 1 i

/-- Starts a calibration of a unit (R81); GO while it runs or while the link unit is held ends with BUSY (R92). -/
def State.tdcStart (s : State) (p : PartId) (i : Nat) : Code × State :=
  if p = .tsu && s.macroBad then (.state, s)
  else if s.bt p .tdcCalst 31 i || (s.tdcU p i).held then (.busy, s)
  else (.ok, s.tdcBegin p i)

/-- An automatic start (R84): it waits for the hold of the link unit, or a running calibration, to end. -/
def State.tdcAuto (s : State) (p : PartId) (i : Nat) : State :=
  let u := s.tdcU p i
  if p = .tsu && s.macroBad then s
  else if u.held || s.bt p .tdcCalst 31 i then s.setTdc p i { u with autoWait := true }
  else s.tdcBegin p i

/-- Cumulative sums of hits: Σ_{j<i} h_j for i = 0 to 256. -/
def cumHits : Nat → List Nat → List Nat
  | acc, [] => [acc]
  | acc, h :: hs => acc :: cumHits (acc + h) hs

/-- The edges of R81 from 256 hit counts and N = 2^CAL_LOG2N. -/
def calEdges (n : Nat) (hits : List Nat) : List Nat :=
  ((cumHits 0 hits).take 256).map (fun c => (65536 * c + n / 2) / n) ++ [65536]

/-- Index of the last bin with hits, plus one. -/
def lastHit : List Nat → Nat
  | [] => 0
  | h :: hs =>
    match lastHit hs, h with
    | 0, 0 => 0
    | n, _ => n + 1

/-- A channel's calibration fails under R83: fewer than 128 bins hit, an empty bin below the last, a bin wider than 1,049
units, or more than 16 taps bypassed. -/
def calFails (n : Nat) (hits : List Nat) (taps : Nat) : Bool :=
  let e := calEdges n hits
  let used := (hits.filter (· ≠ 0)).length
  used < 128 || lastHit hits ≠ used || (e.zip (e.drop 1)).any (fun x => 1049 < x.2 - x.1) || 16 < taps

/-- σ_max of a channel from its actual cumulative shares, in 2^-8 hu, saturating at 255: the largest of
65,536 × √(c (N − c) / N³) over its edges, rounded down (R82; log entry 8). -/
def calSigma (n : Nat) (hits : List Nat) : Nat :=
  satNat 8 (((cumHits 0 hits).map fun c => isqrt 24 (2 ^ 32 * c * (n - c) / n ^ 3)).foldl max 0)

/-- The first `n` counts of two lists added; a count that a list has not is 0. -/
def addCounts : Nat → List Nat → List Nat → List Nat
  | 0, _, _ => []
  | n + 1, a, b => (a.headD 0 + b.headD 0) :: addCounts n a.tail b.tail

/-- Two counts of hits of one channel added, 256 of them. -/
def addHits (a b : List Nat) : List Nat := addCounts 256 a b

/-- A line's bypass list changes with a calibration (R83): one spare record, and the taps newly bypassed count. -/
def State.lineSpares (s : State) (p : PartId) (tile unit : Nat) (old new : List Nat) : State :=
  if old = new then s else
  (s.lifCount p 68 (new.filter fun k => !old.contains k).length).spareRec p tile 1 unit old.length new.length 3 .ok 0 (16 - new.length)

/-- TDC_CAL_DONE: collection ends with the hits of each of the nine channels that TDC_EVENT has not counted, and the taps bypassed on each line. The
tables replace the old ones together, or the calibration fails and the old ones stay (R81, R83); CAL_EVENT is its record (R9). N is that of CAL_LOG2N
at the end (log entry 133). A table made before the band changed last is stale, and an automatic start that waited begins (R84). -/
def tdcCalDone (e : EngSel) (un : Fin 2) (hits taps : List (List Nat)) (s : State) : State :=
  let p := e.part
  let i := tdcInst e un
  if !s.bt p .tdcCalst 31 i then s else
  let n := 2 ^ s.fd p .tdcCtrl 20 16 i
  let chans := List.range 9
  let u := s.tdcU p i
  let h (c : Nat) : List Nat := addHits (mget (fun _ => []) u.hits c) (hits.getD c [])
  let t (c : Nat) : List Nat := taps.getD c []
  let u1 := { u with hits := chans.foldl (fun m c => mset (fun _ => []) m c (h c)) u.hits }
  let w : Who := { p := p, tile := e.tileNo, blk := 4 }
  let s1 := (s.setTdc p i u1).setF p .tdcCalst 31 31 0 i
  let s4 := if chans.any fun c => calFails n (h c) (t c).length then
      (s1.setB p .tdcStat 3 i).jnl w 0x0301 (pay [(0, 1, 0), (1, 1, i), (2, 1, Code.integrity.num)])
    else
      let u2 := { u1 with
        edges := chans.foldl (fun m c => mset (fun _ => nominalEdges) m c (calEdges n (h c))) u.edges
        taps := chans.foldl (fun m c => mset (fun _ => []) m c (t c)) u.taps }
      let sigma := (chans.map fun c => calSigma n (h c)).foldl max 0
      let bins := (chans.map fun c => ((h c).filter (· ≠ 0)).length).foldl max 0
      let sp := (chans.map fun c => (t c).length).foldl max 0
      let cal := 2 ^ 29 * b2n u.bandMoved + 2 ^ 24 * (sp % 32) + 2 ^ 8 * (bins % 512) + sigma
      let s2 := ((s1.setTdc p i u2).wr p .tdcCalst (BitVec.ofNat 32 cal) i).setB p .tdcStat 4 i
      let s3 := s2.jnl w 0x0301 (pay [(0, 1, 0), (1, 1, i), (2, 1, 0), (3, 4, sigma)])
      chans.foldl (fun q c => q.lineSpares p e.tileNo c (mget (fun _ => []) u.taps c) (t c)) s3
  if u.autoWait then (s4.setTdc p i { s4.tdcU p i with autoWait := false }).tdcAuto p i else s4

/-- A band change of a part or tile: tables turn stale, those of a running calibration too, and units with AUTO_TEMP start a calibration (R84). -/
def State.tdcBandChange (s : State) (p : PartId) (tile : Nat) : State :=
  [2 * tile, 2 * tile + 1].foldl (fun t i =>
    let t1 := (t.setF p .tdcCalst 29 29 1 i).setTdc p i { t.tdcU p i with bandMoved := true }
    if t1.bt p .tdcCtrl 23 i then t1.tdcAuto p i else t1) s

/-- The effects of an update strobe on a unit's CTRL (R79, R84): clearing EN empties every FIFO, the first enable after reset
starts a calibration. -/
def State.tdcCtrlActive (s : State) (p : PartId) (i : Nat) (old new : Word) : State :=
  let u := s.tdcU p i
  if fld old 0 0 = 1 ∧ fld new 0 0 = 0 then s.setTdc p i { u with fifos := [], start := none, prevStart := none }
  else if fld old 0 0 = 0 ∧ fld new 0 0 = 1 then
    let s1 := s.setTdc p i { u with everEnabled := true, start := none, prevStart := none }
    if !u.everEnabled && fld new 23 23 = 1 then s1.tdcAuto p i else s1
  else s

/-- A channel's prescaler restarts at every strobe that changes its configuration (R78). -/
def State.tdcCfgActive (s : State) (p : PartId) (i c : Nat) : State :=
  let u := s.tdcU p i
  s.setTdc p i { u with presc := mset (fun _ => 0) u.presc c 0 }

/-! ### The link unit (R84, R91, R92) -/

/-- The number of the TDC link unit of a port (R91). -/
def linkUnit (p : PartId) (n : Nat) : Nat := if p = .dist then 2 * portTile n + 1 else 1

/-- SRC of a port's marker (R91): 0x40 + 2k, and one more for the receiver. -/
def markerSrc (p : PartId) (n : Nat) (rx : Bool) : Nat := 0x40 + 2 * (if p = .dist then portLocal n else n) + b2n rx

/-- The time-transfer logic measures with a link unit: a latency calibration of one of its ports, or a loopback calibration of its tile, runs
(R92, R114, R136). -/
def State.linkBusy (s : State) (p : PartId) (u : Nat) : Bool :=
  ((s.part p).ports.any fun kv => kv.2.calibrating && linkUnit p kv.1 == u) || (p = .dist && s.bt .dist .srvLcalStat 31 (u / 2))

/-- Holds or releases a link unit as its measurements begin and end; a release lets a waiting automatic calibration start (R84, R92). -/
def State.holdUnit (s : State) (p : PartId) (i : Nat) : State :=
  let u := s.tdcU p i
  let busy := s.linkBusy p i
  let s1 := s.setTdc p i { u with held := busy }
  if u.autoWait && !busy then (s1.setTdc p i { s1.tdcU p i with autoWait := false }).tdcAuto p i else s1

/-- The time-transfer logic enables the link unit of a port that comes into service (R92; log entry 69). -/
def State.linkEnable (s : State) (p : PartId) (n : Nat) : State :=
  let i := linkUnit p n
  let old := s.rd p .tdcCtrl i
  if old.getLsbD 0 then s else
  let new := setFld old 0 0 1
  (s.wr p .tdcCtrl new i).tdcCtrlActive p i old new

/-- The time-transfer logic points channels of the link unit at a port's markers, to time-stamp them: 0 at the transmitter's, 1 at the receiver's
(R91, R114; log entry 69). -/
def State.linkSelect (s : State) (p : PartId) (n : Nat) : State :=
  let i := linkUnit p n
  (((s.setF p .tdcChCfg 31 24 (markerSrc p n false) i 0).setF p .tdcChCfg 31 24 (markerSrc p n true) i 1).setF p .tdcCtrl 1 1 0 i).holdUnit p i

/-- A source code valid for a channel (the table "Source codes" of the chapter). -/
def tdcSrcOk (p : PartId) (i c v : Nat) : Bool :=
  let tile := i / 2
  let general := i % 2 == 0
  let wired := p = .tsu || tile == 0 || tile == 7
  v == 0x00 || v == 0x03
  || (v == 0x01 && general && wired && (if p = .tsu then c < 8 else c < 9))
  || (v == 0x02 && general && c < 8)
  || ((v == 0x08 || v == 0x09 || v == 0x0A) && general && p = .dist && tile == 0)
  || (decide (0x40 ≤ v) && decide (v ≤ 0x85) && !general)

end Sys2Proof.Machine
end

