-- ==== Sys2Proof/Machine/Dtc.lean ====
section
/-!
DEFINITION. Fine triggers and the DTC calibration (R86–R90). An output is named by its engine (the TSU's or a tile's) and its
number; instance 8 × tile + output.
-/
namespace Sys2Proof.Machine

/-- Instance number of fine-trigger output `n` of an engine's part or tile. -/
def dtcInst (e : EngSel) (n : Fin 8) : Nat := 8 * e.tileNo + n.val

/-- The part or tile has fine-trigger outputs: the TSU and lantern tiles 0 and 7 (R73). -/
def hasDtc (e : EngSel) : Bool := e.tileNo == 0 || e.tileNo == 7

def State.dtcO (s : State) (p : PartId) (i : Nat) : DtcOut := mget (fun _ => {}) (s.part p).dtc i

def State.setDtc (s : State) (p : PartId) (i : Nat) (o : DtcOut) : State :=
  s.mod p fun q => { q with dtc := mset (fun _ => {}) q.dtc i o }

/-- Inserts a trigger in target order (R86). -/
def insertTrig (t : Trigger) : List Trigger → List Trigger
  | [] => [t]
  | x :: xs => if after x.target t.target then t :: x :: xs else x :: insertTrig t xs

/-- Arms a fine trigger (R86, R89): FENCED while the TSU is FENCED; RANGE for a target with no valid sign or less than 8 ns
from an armed one; BUSY for a fifth, a disabled or calibrating output, or a stopped time clock. -/
def State.armFine (s : State) (p : PartId) (i : Nat) (target : HT) (jctx : Nat) : Code × State :=
  let o := s.dtcO p i
  let c := firstFail (p = .tsu && s.fenced) false
    (noSign target (s.ht p) || o.armed.any fun t => (htDiff target t.target).natAbs < 2048) false false
    (4 ≤ o.armed.length || !s.bt p .dtcCfg 0 i || s.bt p .dtcStatus 3 i || !s.clockRuns p)
  if c = .ok then (.ok, s.setDtc p i { o with armed := insertTrig ⟨target, s.ht p, jctx⟩ o.armed }) else (c, s)

/-- A TRIGGER record (R365): 0 fine or 1 keeper, output, keeper, code, target, lateness. -/
def State.trigRec (s : State) (p : PartId) (tile jctx kind out keeper : Nat) (c : Code) (target : HT) (late : Nat) : State :=
  s.jnl { p := p, tile := tile, blk := if kind = 0 then 5 else 6, ctx := jctx } 0x0302
    (pay [(0, 1, kind), (1, 1, out), (2, 2, keeper), (4, 1, c.num), (5, 8, target.toNat), (13, 3, min late (2 ^ 24 - 1))])

/-- Discards the armed triggers of an output with a code (R89): DROP, and one TRIGGER record each. -/
def State.dropFine (s : State) (p : PartId) (i : Nat) (c : Code) : State :=
  let o := s.dtcO p i
  if o.armed.isEmpty then s else
  let s1 := (s.setDtc p i { o with armed := [] }).setB p .dtcStat 2 i
  o.armed.foldl (fun q t => q.trigRec p (i / 8) t.jctx 0 (i % 8) 0 c t.target 0) s1

/-- Discards every armed fine trigger of a part (R89). -/
def State.dropAllFine (s : State) (p : PartId) (c : Code) : State :=
  (List.range (if p = .tsu then 8 else 64)).foldl (fun q i => q.dropFine p i c) s

/-- CODE[h] of an output: the calibrated table, or h before the first success (R87, R90). -/
def DtcOut.code (o : DtcOut) (h : Nat) : Nat :=
  match o.codes with
  | some l => l.getD h 0
  | none => h

/-- The part's last time-clock edge with HT at or before `t`, counted from the present: its HT (R87). -/
def State.edgeBefore (s : State) (p : PartId) (t : HT) : HT :=
  let tb := (s.part p).tb
  let k := tb.edgesTo t
  let h := (tb.edges k).ht
  if after h t then (tb.edges (k - 1)).ht else h

/-- The pulse an output places on the present edge for a fine offset `d`: through the tap CODE[d], WIDTH ns long, of polarity POL (R87). -/
def State.pulse (s : State) (p : PartId) (i : Nat) (d : Nat) : Pulse :=
  { edge := s.ht p, tap := (s.dtcO p i).code d, width := s.fd p .dtcCfg 10 8 i, low := s.bt p .dtcCfg 1 i }

/-- TRIGGER_FIRE: the first armed trigger of an output fires at its placed edge, or late and at once with d = 0, and its
instant is recorded (R87). A trigger passed over by a forward step of HT is not LATE (R144). -/
def triggerFire (e : EngSel) (n : Fin 8) (s : State) : State :=
  let p := e.part
  let i := dtcInst e n
  let o := s.dtcO p i
  match o.armed with
  | [] => s
  | t :: rest =>
    if !s.clockRuns p then s else
    let cfg := s.rd p .dtcCfg i
    let skew := sext 12 (fld cfg 31 20)
    let ins := s.fd p .dtcIns 11 0 i
    let t2 := t.target + BitVec.ofInt 64 skew
    let want := t2 - BitVec.ofNat 64 ins
    let lead := t.armedAt + 1024#64
    let onTime := s.edgeBefore p want
    let passed := after onTime want
    let late := after lead (if passed then want else onTime)
    let s1 := s.reach p (if late then lead else onTime)
    let d := if late || passed then 0 else min (htDiff want (s1.ht p)).toNat 255
    let placed := s1.ht p + BitVec.ofNat 64 (ins + d)
    let lateness := if late then (htDiff placed t2).toNat else 0
    let s2 := (s1.setDtc p i { o with armed := rest, pulse := some (s1.pulse p i d) }).setB p .dtcStat 0 i
    let s3 := (s2.wr p .dtcLastLo (placed.truncate 32) i).wr p .dtcLastHi ((placed >>> 32).truncate 32) i
    if late then
      ((s3.wr p .dtcLate (BitVec.ofNat 32 (satNat 32 lateness)) i).setB p .dtcStat 1 i).trigRec
        p (i / 8) t.jctx 0 (i % 8) 0 .late t.target lateness
    else s3

/-- Removes every armed trigger of an output (R86). -/
def State.cancelFine (s : State) (p : PartId) (i : Nat) : State := s.setDtc p i { s.dtcO p i with armed := [] }

/-- Starts the calibration of one output for a command of record context `jctx` (R90 steps 1 to 3): STATE, journalled under its source (R9), while
TDC unit 0 is uncalibrated or stale. -/
def State.dtcStartOne (s : State) (p : PartId) (tile n jctx : Nat) : Bool × State :=
  let u := 2 * tile
  let i := 8 * tile + n
  if s.bt p .tdcCalst 30 u || s.bt p .tdcCalst 29 u then
    (false, s.outcome { p := p, tile := tile, blk := 5, ctx := jctx } .state 0x40 (wordOff (addrOf p .dtcCal tile)) 0)
  else
    let s1 := (s.dropFine p i .busy).setF p .dtcStatus 3 3 1 i
    (true, s1.setDtc p i { s1.dtcO p i with calibrating := true })

/-- Starts the next output of the queue that can be calibrated. -/
def dtcNext (p : PartId) (tile : Nat) : List (Nat × Nat) → State → State
  | [], s => s.mod p fun q => { q with dtcCalQ := mset (fun _ => []) q.dtcCalQ tile [] }
  | n :: ns, s =>
    let r := s.dtcStartOne p tile n.1 n.2
    if r.1 then r.2.mod p fun q => { q with dtcCalQ := mset (fun _ => []) q.dtcCalQ tile ns }
    else dtcNext p tile ns r.2

/-- A write to DTC_CAL: each output in the mask in turn (R90). One written while an output calibrates adds its outputs, those waiting already apart,
behind the others (log entry 133). -/
def State.dtcCalWrite (s : State) (p : PartId) (tile mask jctx : Nat) : State :=
  let outs := ((List.range 8).filter fun n => mask.testBit n).map fun n => (n, jctx)
  let busy := (List.range 8).any fun n => s.bt p .dtcStatus 3 (8 * tile + n)
  if busy then
    let q := mget (fun _ => []) (s.part p).dtcCalQ tile
    s.mod p fun r => { r with dtcCalQ := mset (fun _ => []) r.dtcCalQ tile (q ++ outs.filter fun n => !q.any fun x => x.1 == n.1) }
  else dtcNext p tile outs s

/-- The tap code that minimises |D_k − 256 (INS + h)|, ties to the lower k (R90 step 6). -/
def bestCode (d : List Int) (target : Int) : Nat :=
  ((List.range 256).foldl (fun best k =>
    if (d.getD k 0 - target).natAbs < (d.getD best 0 - target).natAbs then k else best) 0)

/-- INS of R90 step 5: ceil(D_0 / 256). -/
def dtcInsOf (d : List Int) : Int := -((-(d.getD 0 0)) / 256)

/-- The tap codes whose step from the one before is negative or above 16 ps, 1,049 units of 2^-8 hu, which spares bypass (R90). -/
def dtcBad (d : List Int) : List Nat :=
  ((List.range 255).filter fun k =>
    let st := d.getD (k + 1) 0 - d.getD k 0
    decide (st < 0) || decide (1049 < st)).map (· + 1)

/-- The failures of R90: more than 16 bad taps, or a short line. -/
def dtcFails (d : List Int) : Bool :=
  16 < (dtcBad d).length || decide (d.getD 255 0 < 256 * (dtcInsOf d + 255) - 128)

/-- DTC_CAL_DONE: one output's measurement D_0 to D_255 ends; INS and CODE are set, or it fails with INTEGRITY, of which CAL_EVENT is the record
(R9), and the old ones stay; the next output of the mask starts (R90). -/
def dtcCalDone (e : EngSel) (n : Fin 8) (d : List Int) (s : State) : State :=
  let p := e.part
  let i := dtcInst e n
  if !s.bt p .dtcStatus 3 i then s else
  let o := { s.dtcO p i with calibrating := false }
  let w : Who := { p := p, tile := e.tileNo, blk := 5 }
  let s1 := (s.setF p .dtcStatus 3 3 0 i).setDtc p i o
  let s2 :=
    if dtcFails d then s1.jnl w 0x0301 (pay [(0, 1, 1), (1, 1, i), (2, 1, Code.integrity.num)])
    else
      let ins := dtcInsOf d
      let a := s1.setDtc p i { o with codes := some ((List.range 256).map fun (h : Nat) => bestCode d (256 * (ins + h))), taps := dtcBad d }
      let b := (a.wr p .dtcIns (BitVec.ofNat 32 (wrapInt 12 ins)) i).setF p .dtcStatus 4 4 0 i
      (b.jnl w 0x0301 (pay [(0, 1, 1), (1, 1, i), (2, 1, 0), (3, 4, wrapInt 32 ins)])).lineSpares p e.tileNo i o.taps (dtcBad d)
  dtcNext p e.tileNo (mget (fun _ => []) (s2.part p).dtcCalQ e.tileNo) s2

/-- The effect of an update strobe on an output's CFG: EN becoming 0 discards its armed triggers with STATE (R89). -/
def State.dtcCfgActive (s : State) (p : PartId) (i : Nat) (old new : Word) : State :=
  if fld old 0 0 = 1 ∧ fld new 0 0 = 0 then s.dropFine p i .state else s

end Sys2Proof.Machine
end

