-- ==== Sys2Proof/Machine/Keeper.lean ====
section
/-!
DEFINITION. Region keepers (R150–R168): the beacon, local hall time, keeper triggers, the ring, and frequency change.
A command about a keeper names it by index; edges and stretch are counted from its latest beacon edge.
-/
namespace Sys2Proof.Machine

def State.keeper (s : State) (k : Nat) : Keeper := mget (fun _ => {}) s.kc.keepers k

def State.setKeeper (s : State) (k : Nat) (v : Keeper) : State :=
  { s with kc := { s.kc with keepers := mset (fun _ => {}) s.kc.keepers k v } }

/-! ### The ring (R160, R161) -/

/-- Every keeper (R161). -/
def allKeepers : Nat := 0x100

/-- The 112 bits of a ring frame under its CRC, low byte first (R161). -/
def RingFrame.body (f : RingFrame) (hseq : Nat) : List Byte :=
  natLe 14 (f.addr % 512 + 2 ^ 9 * (hseq % 8) + 2 ^ 12 * (f.cmd % 16) + 2 ^ 16 * f.arg + 2 ^ 80 * f.bcn)

/-- The 128 bits of a ring frame (R161). -/
def RingFrame.bits (f : RingFrame) (hseq : Nat) : BitVec 128 :=
  BitVec.ofNat 128 (leNat (f.body hseq) + 2 ^ 112 * (crc16 (f.body hseq)).toNat)

def State.hop (s : State) (h : Nat) : RingHop := mget (fun _ => {}) s.kc.hops h

def State.setHop (s : State) (h : Nat) (v : RingHop) : State := { s with kc := { s.kc with hops := mset (fun _ => {}) s.kc.hops h v } }

/-- A frame's HSEQ as sent. -/
def RingSent.hseq (f : RingSent) : Option Nat := f.wire.map fun w => w.toNat / 512 % 8

/-- A sender sends the frame whose turn it is, while fewer than two await acknowledgement; it alternates between frames to forward and its own when
both wait (R160). -/
def State.ringStep (s : State) (h : Nat) : State :=
  if 2 ≤ (s.kc.ring.filter fun f => f.hop == h && f.wire.isSome).length then s else
  let v := s.hop h
  let waits (own : Bool) : Option Nat := s.kc.ring.findIdx? fun f => f.hop == h && f.wire.isNone && f.own == own
  match (waits !v.lastOwn).or (waits v.lastOwn) with
  | none => s
  | some i =>
    let own := ((s.kc.ring[i]?).map RingSent.own).getD true
    let s1 := { s with kc := { s.kc with ring := modAt i (fun f => { f with wire := some (f.frame.bits v.seq) }) s.kc.ring } }
    s1.setHop h { v with seq := (v.seq + 1) % 8, lastOwn := own }

/-- A sender sends what it may: at most two frames await acknowledgement. -/
def State.ringPump (s : State) (h : Nat) : State := (s.ringStep h).ringStep h

/-- A frame joins those of a sender. -/
def State.ringPut (s : State) (h : Nat) (own : Bool) (f : RingFrame) : State :=
  State.ringPump { s with kc := { s.kc with ring := s.kc.ring ++ [{ hop := h, frame := f, own := own }] } } h

/-- A frame originated (R161): a report by the keeper in ADDR; a command by the core, on the branch of an ENUM, on that of the keeper it names, or on
every branch in use. -/
def State.ringSend (s : State) (cmd addr bcn arg : Nat) : State :=
  let f : RingFrame := ⟨cmd, addr, bcn % 2 ^ 32, arg % 2 ^ 64⟩
  if 9 ≤ cmd then s.ringPut addr true f
  else if cmd = 1 then s.ringPut (256 + arg % 4) true f
  else if addr ≠ allKeepers then s.ringPut (256 + (s.keeper addr).branch) true f
  else ((List.range 4).filter fun b => s.bt .tsu .kprCfg b).foldl (fun t b => t.ringPut (256 + b) true f) s

/-- A KEEPER record (R365): code, change, FACK count, keeper, beacon. -/
def State.keeperRec (s : State) (code keeper beacon : Nat) : State :=
  s.jnl { p := .tsu, blk := 6 } 0x0303
    (pay [(0, 1, code), (1, 1, s.fd .tsu .kprFstat 23 16), (2, 2, s.fd .tsu .kprFstat 8 0), (4, 2, keeper), (6, 4, beacon)])

/-- A sender resends every frame not yet acknowledged; the sixteenth resend in succession of one sets RING_FAIL (R160). -/
def State.ringResend (s : State) (h : Nat) : State :=
  let mine (f : RingSent) : Bool := f.hop == h && f.wire.isSome
  let n := (s.kc.ring.filter mine).length
  let s1 := { s with kc := { s.kc with ring := s.kc.ring.map fun f => if mine f then { f with resends := f.resends + 1 } else f } }
  let k := s1.keeper h
  let s2 := if h < 256 && n ≠ 0 then s1.setKeeper h { k with xcnt := setFld k.xcnt 15 0 (satNat 16 (fld k.xcnt 15 0 + n)) } else s1
  if s.kc.ring.any fun f => mine f && f.resends == 15 then
    (s2.setB .tsu .kprStat 4).keeperRec Code.integrity.num h (s.rd .tsu .kprBcn).toNat
  else s2

/-- Keepers enumerated on the branches below `b`: the index of a keeper is this plus its position (log entry 13). -/
def State.kprBase (s : State) (b : Nat) : Nat := ((List.range b).map fun j => s.fd .tsu .kprRing 6 0 0 j).foldl (· + ·) 0

/-- The sender of the hop that ends at a receiver, a keeper by index or 256 + branch for the core. -/
def State.ringFrom (s : State) (rx : Nat) : Nat :=
  if rx < 256 then (if (s.keeper rx).pos = 0 then 256 + (s.keeper rx).branch else rx - 1)
  else
    let n := s.fd .tsu .kprRing 6 0 0 (rx - 256)
    if n = 0 then rx else s.kprBase (rx - 256) + n - 1

/-- A frame arrives at the receiver of a hop, whose sender is `from_` (R160, R161). A bad CRC or an HSEQ other than the next expected answers NAK, and
the sender resends. A good one is acknowledged. The core consumes every frame; a keeper discards one with a CMD of no meaning, consumes a command
addressed to itself, acts on a broadcast and forwards it, and forwards the rest. `act` is what a frame does where it is acted on. -/
def State.ringIn (s : State) (from_ rx : Nat) (h : RingHdr) (f : RingFrame) (fwd : RingFrame) (act : State → State) : State :=
  let v := s.hop rx
  if crc16 (f.body h.hseq.toNat) ≠ h.crc || h.hseq.toNat ≠ v.expect then s.ringResend from_ else
  let s1 := s.setHop rx { v with expect := (v.expect + 1) % 8 }
  let s2 := State.ringPump { s1 with kc := { s1.kc with ring := s1.kc.ring.eraseP fun x => x.hop == from_ && x.hseq == some h.hseq.toNat } } from_
  if 256 ≤ rx then (if 9 ≤ f.cmd && f.cmd ≤ 0xC then act s2 else s2)
  else if f.cmd = 0 || 0xC < f.cmd then s2
  else if 9 ≤ f.cmd then s2.ringPut rx false fwd
  else
    let s3 := if f.addr = rx || f.addr = allKeepers then act s2 else s2
    if f.addr = rx then s3 else s3.ringPut rx false fwd

/-- A command or report that passes on unchanged. -/
def State.ringRecv (s : State) (rx : Fin 260) (h : RingHdr) (cmd bcn arg : Nat) (act : State → State) : State :=
  let f : RingFrame := ⟨cmd, h.addr.toNat, bcn, arg⟩
  s.ringIn (s.ringFrom rx) rx h f f act

/-! ### Counting (R153, R154) -/

/-- NEDGE of R154. -/
def nedge (inc : Nat) : Nat := 2621440 * 65536 / inc

/-- The correction applied after `n` edges of the interval, in 2^-24 hu: spread evenly, the remainder carried exactly (R154). -/
def Keeper.slices (k : Keeper) (n : Nat) : Int :=
  let ne := nedge k.inc
  if ne = 0 then 0 else k.owed * 65536 * (min n ne : Nat) / (ne : Nat)

/-- The LHT accumulator `n` edges after the latest beacon edge, with `str` the STRETCH values sampled since (R153). -/
def Keeper.accAt (k : Keeper) (n str : Nat) : Int :=
  if k.running then (k.acc : Int) + (256 * k.inc * n + 32 * k.inc * str : Nat) + k.slices n else k.acc

/-- LHT in hu (R153). -/
def Keeper.lhtAt (k : Keeper) (n str : Nat) : HT := BitVec.ofInt 64 (k.accAt n str / (2 ^ 24 : Nat))

/-- KSTEP in 2^-8 hu. -/
def State.kstep (s : State) : Nat := s.fd .tsu .kprCfg 31 16 * 65536

/-- A keeper's status bit set. -/
def Keeper.flag (k : Keeper) (b : Nat) : Keeper := { k with stat := setFld k.stat b b 1 }

/-! ### Frequency change at a keeper (R163) -/

/-- What a keeper does about a held change at its beacon edge `m`: FDONE, with or without MISS, when the edge is the change's. -/
def State.changeAtEdge (s : State) (i m : Nat) : State :=
  let k := s.keeper i
  match k.held with
  | none => s
  | some h =>
    if !k.bcnKnown || h.k ≠ m then s
    else if !h.committed then
      (s.setKeeper i ({ k with held := none }.flag 4)).ringSend 0xB i h.k (2 ^ 32 * h.chgid + 2 ^ 40)
    else
      let k1 := { k with held := none, inc := h.inc }
      let k2 := if h.init then { k1 with acc := 0, kstrc := 0, edgeC := 0, x := 0, owed := 0, dFresh := false,
                                         running := true, khtValid := false } else { k1 with fswitch := some m }
      (s.setKeeper i k2).ringSend 0xB i h.k (2 ^ 32 * h.chgid)

/-- KEEPER_BEACON_EDGE: `n` edges and `str` stretch after the edge before, the keeper latches C_m and φ_m and corrects (R151,
R154, R157); then a change held for this edge takes place (R163). -/
def keeperBeaconEdge (i : Fin 256) (phi : Int) (n str : Nat) (s : State) : State :=
  let k := s.keeper i.val
  let c := k.accAt n str
  let m := if k.bcnKnown then (k.bcn + 1) % 2 ^ 32 else k.bcn
  let left := if k.running then k.owed * 65536 - k.slices n else 0
  let late := k.running && !k.dFresh
  let x := if k.running && k.dFresh then k.d - k.x else 0
  let steps := decide ((s.kstep : Int) < x.natAbs)
  let acc := c + left + (if steps then x * 65536 else 0)
  let k1 := { k with
    acc := wrapInt 88 acc, kstrc := (k.kstrc + str) % 2 ^ 32, bcn := m, edgeC := wrapInt 88 c, edgePhi := phi, x := x
    owed := if steps then 0 else x, dFresh := false, khtValid := k.khtValid || (k.running && !late) }
  let k2 := if late then k1.flag 1 else k1
  let k3 := if steps then k2.flag 3 else k2
  let s1 := s.setKeeper i.val k3
  (if late then s1.setB .tsu .kprStat 2 else s1).changeAtEdge i.val m

/-- BEACON_FRAME: the keeper labels its latest beacon edge with `n` and computes D, modulo 2^88 as LHT counts (R151, R154). -/
def beaconFrame (rx : Fin 260) (h : RingHdr) (n : Word) (bht : HT) (s : State) : State :=
  s.ringRecv rx h 0x2 n.toNat bht.toNat fun s =>
    let k := s.keeper rx.val
    let slip := k.bcnKnown && k.bcn ≠ n.toNat
    let tgt : Int := bht.toNat * 256 + k.mesh.toInt + k.edgePhi
    let d := (BitVec.ofInt 88 (tgt * 65536 - k.edgeC)).toInt / 65536
    let k1 := { k with bcn := n.toNat, bcnKnown := true, d := d, dFresh := true }
    s.setKeeper rx.val (if slip then k1.flag 2 else k1)

/-- FPREP: a change at least one beacon beyond the keeper's count is held and acknowledged; any other is ignored (R163). -/
def keeperFprep (rx : Fin 260) (h : RingHdr) (k : Word) (inc : Word) (chgid : Byte) (init : Bool) (s : State) : State :=
  s.ringRecv rx h 0x7 k.toNat (inc.toNat + 2 ^ 32 * chgid.toNat + 2 ^ 40 * b2n init) fun s =>
    let v := s.keeper rx.val
    if 1 ≤ (k - BitVec.ofNat 32 v.bcn).toInt then
      (s.setKeeper rx.val { v with held := some ⟨k.toNat, inc.toNat, chgid.toNat, init, false⟩ }).ringSend 0xA rx.val k.toNat
        (2 ^ 32 * chgid.toNat)
    else s

/-- FCOMMIT: commits or discards the held change (R163). -/
def keeperFcommit (rx : Fin 260) (h : RingHdr) (k : Word) (chgid : Byte) (cancel : Bool) (s : State) : State :=
  s.ringRecv rx h 0x8 k.toNat (2 ^ 32 * chgid.toNat + 2 ^ 41 * b2n cancel) fun s =>
    let v := s.keeper rx.val
    match v.held with
    | some x =>
      if x.chgid ≠ chgid.toNat then s
      else s.setKeeper rx.val { v with held := if cancel then none else some { x with committed := true } }
    | none => s

/-! ### Keeper triggers (R159) -/

/-- Inserts a target in target order. -/
def insertTarget (t : HT × Bool) : List (HT × Bool) → List (HT × Bool)
  | [] => [t]
  | x :: xs => if after x.1 t.1 then t :: x :: xs else x :: insertTarget t xs

/-- One output's part of a TARM: armed, or refused with RANGE, STATE or BUSY and reported (R159). -/
def State.tarmOne (s : State) (i out : Nat) (target : HT) (lht : HT) : State :=
  let k := s.keeper i
  let l := mget (fun _ => []) k.armed out
  let c := firstFail false false (l.any fun t => decide ((htDiff target t.1).natAbs * 65536 < 2 * k.inc)) false
    (!k.ctrl.getLsbD out) (4 ≤ l.length)
  if c = .ok then
    s.setKeeper i { k with armed := mset (fun _ => []) k.armed out (insertTarget (target, atOrAfter lht target) l) }
  else (s.setKeeper i (k.flag 6)).ringSend 0xC i (out + 16 * c.num) target.toNat

/-- TARM: a target for the outputs of a mask arrives `n` edges and `str` stretch after the beacon edge (R159). -/
def keeperTarm (rx : Fin 260) (h : RingHdr) (mask : Fin 16) (target : HT) (n str : Nat) (s : State) : State :=
  s.ringRecv rx h 0x5 mask.val target.toNat fun s =>
    let lht := (s.keeper rx.val).lhtAt n str
    ((List.range 4).filter fun o => mask.val.testBit o).foldl (fun t o => t.tarmOne rx.val o target lht) s

/-- TCAN: armed targets of the outputs of a mask go (R161). -/
def keeperTcan (rx : Fin 260) (h : RingHdr) (mask : Fin 16) (s : State) : State :=
  s.ringRecv rx h 0x6 mask.val 0 fun s =>
    let k := s.keeper rx.val
    s.setKeeper rx.val { k with armed := k.armed.filter fun kv => !mask.val.testBit kv.1 }

/-- KEEPER_TRIGGER_FIRE: the first target of an output that LHT has reached fires: KTRG pulses for one local cycle at the polarity of K_CTRL.TPOL, and
the firing is recorded; one already reached when its TARM came is reported LATE (R159). -/
def keeperFire (i : Fin 256) (out : Fin 4) (n str : Nat) (s : State) : State :=
  let k := s.keeper i.val
  match mget (fun _ => []) k.armed out.val with
  | [] => s
  | (t, late) :: rest =>
    let lht := k.lhtAt n str
    if !atOrAfter lht t then s else
    let lateness := (htDiff lht t).toNat
    let k1 := { k with armed := mset (fun _ => []) k.armed out.val rest
                       last := mset (fun _ => (0, 0)) k.last out.val (lht, satNat 32 lateness)
                       ktrg := mset (fun _ => none) k.ktrg out.val (some (lht, !k.ctrl.getLsbD 4)) }
    if late then (s.setKeeper i.val (k1.flag 5)).ringSend 0xC i.val (out.val + 16 * Code.late.num) lht.toNat
    else s.setKeeper i.val k1

/-! ### Keeper words (R168) -/

/-- A keeper word as a READ finds it, and the keeper after the read: RC words clear, K_LHT_LO latches (R168). -/
def Keeper.word (k : Keeper) (idx w n str : Nat) : Word × Keeper :=
  let o := (w - 16) / 4
  match w with
  | 0 => (BitVec.ofNat 32 (2 ^ 16 * k.branch + 2 ^ 8 * k.pos + idx), k)
  | 1 => (k.ctrl, k)
  | 2 => (k.mesh, k)
  | 3 => (BitVec.ofNat 32 k.inc, k)
  | 4 => let h := k.lhtAt n str
         (h.truncate 32, { k with lhtLatch := h })
  | 5 => ((k.lhtLatch >>> 32).truncate 32, k)
  | 6 => (BitVec.ofInt 32 (satInt 32 k.d), k)
  | 7 => (BitVec.ofNat 32 (k.kstrc + str), k)
  | 8 => (BitVec.ofNat 32 k.bcn, k)
  | 9 => (k.stat, { k with stat := 0 })
  | 10 => (k.xcnt, { k with xcnt := 0 })
  | _ =>
    if 16 ≤ w ∧ w < 32 then
      let l := mget (fun _ => ((0 : HT), 0)) k.last o
      ((match w % 4 with
        | 0 => l.1.truncate 32
        | 1 => (l.1 >>> 32).truncate 32
        | 2 => BitVec.ofNat 32 l.2
        | _ => BitVec.ofNat 32 (mget (fun _ => []) k.armed o).length), k)
    else (0, k)

/-- KEEPER_WRITE: K_CTRL and K_MESH are writable (R168). -/
def keeperWrite (rx : Fin 260) (h : RingHdr) (w : Fin 64) (data : Word) (s : State) : State :=
  s.ringRecv rx h 0x3 w.val data.toNat fun s =>
    let k := s.keeper rx.val
    match w.val with
    | 1 => s.setKeeper rx.val { k with ctrl := data &&& 0x1F }
    | 2 => s.setKeeper rx.val { k with mesh := data }
    | _ => s

/-- KEEPER_READ: the keeper replies RDATA (R161, R168). -/
def keeperRead (rx : Fin 260) (h : RingHdr) (w : Fin 64) (n str : Nat) (s : State) : State :=
  s.ringRecv rx h 0x4 w.val 0 fun s =>
    let r := (s.keeper rx.val).word rx.val w.val n str
    (s.setKeeper rx.val r.2).ringSend 0x9 rx.val w.val r.1.toNat

/-! ### The core (R150, R162, R165) -/

/-- KPR_FSTAT.STATE: 0 IDLE, 1 PREPARE, 2 COMMIT. -/
def State.chgState (s : State) : Nat := s.fd .tsu .kprFstat 27 26

/-- A change ends in IDLE with an outcome, journalled (R162). -/
def State.chgEnds (s : State) (c : Code) (bitNo : Nat) : State :=
  let s1 := ((s.setF .tsu .kprFstat 31 28 c.num).setF .tsu .kprFstat 27 26 0).setB .tsu .kprStat bitNo
  s1.keeperRec c.num 0 s.kc.chgK

/-- The change machine at beacon `n` (R162). -/
def State.chgAtBeacon (s : State) (n : Nat) : State :=
  let kc := s.kc
  let chg := s.fd .tsu .kprFstat 23 16
  let all := s.fd .tsu .kprNkeep 8 0
  if s.chgState = 1 && n = (kc.chgK + 2 ^ 32 - 1) % 2 ^ 32 then
    if s.fd .tsu .kprFstat 8 0 = all then
      (s.setF .tsu .kprFstat 27 26 2).ringSend 0x8 allKeepers kc.chgK (2 ^ 32 * chg)
    else (s.ringSend 0x8 allKeepers kc.chgK (2 ^ 32 * chg + 2 ^ 41)).chgEnds .late 6
  else if s.chgState = 2 && n = (kc.chgK + 1) % 2 ^ 32 then
    if kc.dones = all && !kc.miss then
      let s1 := s.wr .tsu .kprInc (BitVec.ofNat 32 kc.chgInc)
      ({ s1 with kc := { kc with initialised := kc.initialised || kc.chgInit } }).chgEnds .ok 5
    else s.chgEnds .integrity 7
  else s

/-- BEACON: beacon n crosses the KREF output at `bht`; its number and HT are recorded and broadcast, and a change moves on
(R150, R162). -/
def beacon (bht : HT) (s : State) : State :=
  if !s.bt .tsu .kprCtrl 0 then s else
  let n := s.kc.nextBcn
  let s1 := s.reach .tsu bht
  let s2 := ((s1.wr .tsu .kprBcn (BitVec.ofNat 32 n)).wr .tsu .kprBhtLo (bht.truncate 32)).wr .tsu .kprBhtHi ((bht >>> 32).truncate 32)
  let s3 := { s2 with kc := { s2.kc with nextBcn := (n + 1) % 2 ^ 32 } }
  (s3.ringSend 0x2 allKeepers n bht.toNat).chgAtBeacon n

/-- What the core makes of the counts (R165): KPR_NKEEP, and once the last branch has returned ENUM_MISMATCH where they differ from the build's; the
record's outcome code is open. -/
def State.enumCount (s : State) (news : Bool) : State :=
  let total := s.kprBase 4
  let s1 := s.setF .tsu .kprNkeep 8 0 (min 511 total)
  if news && s.kc.enumLeft.isEmpty && total ≠ nKeep then
    let d := s1.draw
    (d.2.setB .tsu .kprStat 0).keeperRec (d.1.toNat % 256) 0 (s.rd .tsu .kprBcn).toNat
  else s1

/-- ENUM: a keeper takes its place and index and passes the frame on with the count increased; back at the core the count fills KPR_RINGb and
KPR_NKEEP, and a total other than the build's sets ENUM_MISMATCH (R161, R165). -/
def enumFrame (b : Fin 4) (count : Fin 65) (h : RingHdr) (at_ : EnumAt) (s : State) : State :=
  let last := if count.val = 0 then 256 + b.val else s.kprBase b.val + count.val - 1
  let f : RingFrame := ⟨0x1, h.addr.toNat, count.val, b.val⟩
  match at_ with
  | .keeper =>
    let i := s.kprBase b.val + count.val
    s.ringIn last i h f { f with bcn := count.val + 1 } fun s => s.setKeeper i { s.keeper i with branch := b.val, pos := count.val, enumerated := true }
  | .core rlat =>
    if crc16 (f.body h.hseq.toNat) ≠ h.crc || h.hseq.toNat ≠ (s.hop (256 + b.val)).expect then s.ringResend last else
    let s0 := s.ringIn last (256 + b.val) h f f id
    let s1 := s0.wr .tsu .kprRing (BitVec.ofNat 32 (2 ^ 16 * rlat.val + count.val)) 0 b.val
    State.enumCount { s1 with kc := { s1.kc with enumLeft := s1.kc.enumLeft.filter (· ≠ b.val) } } (s.kc.enumLeft.contains b.val)

/-- RDATA at the core fills KPR_IDATA (R40, R161); the frame's ADDR is its source. -/
def recvRdata (rx : Fin 260) (h : RingHdr) (w : Fin 64) (data : Word) (s : State) : State :=
  s.ringRecv rx h 0x9 w.val data.toNat fun s =>
    if s.kc.fetching = some (64 * h.addr.toNat + w.val) then
      { s with kc := { s.kc with ready := true, data := data, fetching := none } }
    else s

/-- FACK at the core (R162). -/
def recvFack (rx : Fin 260) (h : RingHdr) (k : Word) (chgid : Byte) (s : State) : State :=
  s.ringRecv rx h 0xA k.toNat (2 ^ 32 * chgid.toNat) fun s =>
    if s.chgState = 1 && s.fd .tsu .kprFstat 23 16 == chgid.toNat then s.bump .tsu .kprFstat 8 0 1 else s

/-- FDONE at the core (R162). -/
def recvFdone (rx : Fin 260) (h : RingHdr) (k : Word) (chgid : Byte) (miss : Bool) (s : State) : State :=
  s.ringRecv rx h 0xB k.toNat (2 ^ 32 * chgid.toNat + 2 ^ 40 * b2n miss) fun s =>
    if s.chgState = 2 && s.fd .tsu .kprFstat 23 16 == chgid.toNat then
      { s with kc := { s.kc with dones := s.kc.dones + 1, miss := s.kc.miss || miss } }
    else s

/-- TEVT at the core: a late firing or a refused target is flagged and journalled (R159, R365). The target and lateness of a late firing are the
keeper's own record of it. A frame whose CMD the table does not list is discarded (R161); the other commands have rows of their own. -/
def recvTevt (rx : Fin 260) (h : RingHdr) (cmd : Fin 16) (out : Fin 4) (code : Fin 16) (t : HT) (s : State) : State :=
  if 1 ≤ cmd.val && cmd.val ≤ 0xB then s else
  s.ringRecv rx h cmd.val (out.val + 16 * code.val) t.toNat fun s =>
    let c := Code.ofNum code.val
    let i := h.addr.toNat
    if c = .ok then s
    else if c = .late then
      let l := mget (fun _ => ((0 : HT), 0)) (s.keeper i).last out.val
      let late := if l.1 = t then l.2 else 0
      (s.setB .tsu .kprStat 1).trigRec .tsu 0 0x3F 1 out.val i .late (t - BitVec.ofNat 64 late) late
    else (s.setB .tsu .kprStat 8).trigRec .tsu 0 0x3F 1 out.val i c t 0

/-- RING_FRAME_RESEND: no acknowledgement has come within 32 cycles, or the microsecond of a hop that has failed is over: the sender resends
(R160). -/
def ringResend (hop : Fin 260) (s : State) : State := s.ringResend hop

/-- CROSSING_FIFO_OVERRUN: a receiver's crossing FIFO over- or underruns: the frame in transit is discarded, the FIFO recentred and counted, and on the
NAK the hop's sender resends (R160). -/
def crossingOverrun (rx : Fin 260) (s : State) : State :=
  let k := s.keeper rx
  (if 256 ≤ rx.val then s.setB .tsu .kprStat 3
   else s.setKeeper rx.val ({ k with xcnt := setFld k.xcnt 31 16 (satNat 16 (fld k.xcnt 31 16 + 1)) }.flag 0)).ringResend (s.ringFrom rx)

/-! ### Register effects (R158, R159, R162, R165) -/

/-- A write of KPR_CTRL.EN (R150, R157, R162, R165): 1 counts the keepers anew. -/
def State.kprEnable (s : State) (en : Bool) : State :=
  let was := s.bt .tsu .kprCtrl 0
  let s1 := s.wr .tsu .kprCtrl (BitVec.ofNat 32 (b2n en))
  if en && !was then
    let branches := (List.range nBranch).filter fun b => s.bt .tsu .kprCfg b
    let s2 := { s1 with kc := { s1.kc with nextBcn := 0, enumLeft := branches, initialised := false, ring := [], hops := [] } }
    let s3 := (List.range 4).foldl (fun t b => t.wr .tsu .kprRing 0 0 b) s2
    (branches.foldl (fun t b => t.ringSend 0x1 allKeepers 0 b) s3).enumCount true
  else if !en then
    let off (k : Keeper) : Keeper := { k with
      running := false, khtValid := false, armed := [], held := none, dFresh := false, bcnKnown := false, x := 0, owed := 0 }
    { s1.setF .tsu .kprFstat 27 26 0 with kc := { s1.kc with
        keepers := (s1.kc.keepers.map fun kv => (kv.1, off kv.2)).filter fun kv => kv.2 ≠ {}, initialised := false, enumLeft := [] } }
  else s1

/-- A write of KPR_FCMD (R162). -/
def State.kprGo (s : State) (v : Word) : Code × State :=
  if !v.getLsbD 0 then (.ok, s) else
  let init := v.getLsbD 1
  let k := s.rd .tsu .kprFat
  let d := (k - s.rd .tsu .kprBcn).toNat
  let inc := (s.rd .tsu .kprFinc).toNat
  let c := firstFail false false (d < 3 || 2 ^ 31 ≤ d || inc < 0x00333333 || 0x02000000 < inc) false
    (!init && !s.kc.initialised) (s.chgState ≠ 0)
  -- BUSY is the only outcome while a change is under way (the table of R162)
  if s.chgState ≠ 0 then (.busy, s) else
  if c ≠ .ok then (c, s) else
  let chg := (s.fd .tsu .kprFstat 23 16 + 1) % 256
  let s1 := s.wr .tsu .kprFstat (BitVec.ofNat 32 (2 ^ 28 * s.fd .tsu .kprFstat 31 28 + 2 ^ 26 + 2 ^ 16 * chg))
  let s2 := { s1 with kc := { s1.kc with chgK := k.toNat, chgInc := inc, chgInit := init, miss := false, dones := 0 } }
  (.ok, s2.ringSend 0x7 allKeepers k.toNat (inc + 2 ^ 32 * chg + 2 ^ 40 * b2n init))

/-- Sends TARM to a keeper or to all (R159, R243): FENCED, RANGE for a target with no valid sign or a keeper not enumerated, and STATE for a TRIG while
the keepers are not in service. -/
def State.sendTarm (s : State) (addr mask : Nat) (target : HT) (trig : Bool) : Code × State :=
  let c := firstFail s.fenced false (noSign target (s.ht .tsu) || (addr ≠ 0x100 && s.fd .tsu .kprNkeep 8 0 ≤ addr)) false
    (trig && !s.bt .tsu .kprCtrl 0) false
  if c = .ok then (.ok, s.ringSend 0x5 addr mask target.toNat) else (c, s)

/-- A write of KPR_TCAN (R167). -/
def State.kprTcanGo (s : State) (v : Word) : State :=
  if v.getLsbD 0 then s.ringSend 0x6 (s.fd .tsu .kprTsel 12 4) (s.fd .tsu .kprTsel 3 0) 0 else s

/-- Words of the keeper indirect space (R168). -/
def kprSpace : Nat := 64 * nKeep

/-- Starts a fetch of the indexed keeper word over the ring (R40). -/
def State.kprFetch (s : State) (idx : Nat) : State :=
  ({ s with kc := { s.kc with ready := false, fetching := some idx } }).ringSend 0x4 (idx / 64) (idx % 64) 0

end Sys2Proof.Machine
end

