-- ==== Sys2Proof/Machine/Servo.lean ====
section
/-!
DEFINITION. Time transfer and the two domains (R125–R149): the exchange, asymmetry and lane referencing, the servo, and the
selection of the reference. Offsets are signed numbers in 2^-8 hu.
-/
namespace Sys2Proof.Machine

def State.psrv (s : State) (p : PartId) (n : Nat) : PortSrv := mget (fun _ => {}) (s.part p).psrv n

def State.setPsrv (s : State) (p : PartId) (n : Nat) (v : PortSrv) : State :=
  s.mod p fun q => { q with psrv := mset (fun _ => {}) q.psrv n v }

def State.modSrv (s : State) (p : PartId) (f : Servo → Servo) : State := s.mod p fun q => { q with srv := f q.srv }

/-- The SYNC interval in hu: SYNC_INT units of 256 ns (SRV_CFG). -/
def State.syncInt (s : State) (p : PartId) : Nat := s.fd p .srvCfg 31 24 * 65536

/-! ### Time-stamps (R110–R112) -/

/-- FEC mode in use on a port: true for strong. -/
def State.strongFec (s : State) (p : PartId) (n : Nat) : Bool := s.bt p .prtState 16 n

/-- T_enc(b) of a port on the HT scale, in 1/25 hu: T_enc(0) and b block lengths (R99). -/
def State.tEnc (s : State) (p : PartId) (n block : Nat) : Int :=
  let v : PortSt := mget (fun _ => {}) (s.part p).ports n
  25 * (v.negAt.toNat : Int) + v.negFrac + block * blockLen (s.strongFec p n)

/-- txts of R111 for a START flit at a place. -/
def State.txStamp (s : State) (p : PartId) (n d : Nat) : HT :=
  let st := s.strongFec p n
  let at_ := placeSlot st d
  let ph := mapLane (s.fd p .prtLmap 14 0 n) (slotLane st at_.2)
  round25 (s.tEnc p n at_.1 + 25 * (s.fd p .prtTxlat 15 0 n ph : Int) + 64 * (slotUi st at_.2 : Int))

/-- Physical lane that carried a START flit's delimiter at a received place. -/
def State.rxLane (s : State) (p : PartId) (n d : Nat) : Nat := mapLane (s.fd p .prtLmap 30 16 n) (placeLane (s.strongFec p n) d)

/-- rxts of R111 for a START flit at place `d`, counted from the block with T_dec(b) = `tdec` in 1/25 hu. -/
def State.rxStamp (s : State) (p : PartId) (n : Nat) (tdec : Int) (d : Nat) : HT :=
  let st := s.strongFec p n
  let at_ := placeSlot st d
  round25 (tdec + at_.1 * blockLen st - 25 * (s.fd p .prtRxlat 15 0 n (s.rxLane p n d) : Int) + 64 * (slotUi st at_.2 : Int))

/-! ### Roles (R125, R138) -/

/-- The role a port takes on entering UP: 1 ACQUIRE as downstream end, 5 SERVE as upstream end, 6 MEASURE for measurement (R125–R127, R136,
R138). In a loopback, port x serves and port y measures. A leaf measures its twin over PP0, and a section root the pod roots below it. -/
def State.srvRole (s : State) (p : PartId) (n : Nat) : Nat :=
  match p with
  | .tsu => 1
  | .dist =>
    let lc := s.rd .dist .srvLcal (portTile n)
    let tier := s.tier
    if lc.getLsbD 30 && fld lc 17 9 == n then 6
    else if lc.getLsbD 30 && fld lc 8 0 == n then 5
    else if n < 256 then (if tier = 5 then 6 else 5)
    else if n < 272 then (if tier = 1 || tier = 2 || (tier = 4 && !s.actsPrimary) then 1 else 5)
    else if tier = 1 then (if n = 272 then 6 else 5)
    else if tier = 5 || s.actsPrimary then 5 else 1

/-- A port enters UP: its servo starts in its role (R138). -/
def State.srvPortUp (s : State) (p : PartId) (n : Nat) : State :=
  let s1 := s.setPsrv p n { (s.psrv p n) with
    valid := 0, lockRun := 0, unlockRun := 0, open_ := [], answered := none, gen := none, dreq := none, lastValid := some (s.ht p) }
  s1.setF p .srvPState 2 0 (s.srvRole p n) n

/-! ### Reference changes (R143) -/

/-- HT steps by a signed amount in 2^-8 hu at the next tick; the fraction goes into the sub-hu accumulator (R140, R143). -/
def State.stepBy (s : State) (p : PartId) (c : Int) : State :=
  let s1 := s.reach p (s.nextTick p)
  let tb := (s1.part p).tb
  let total : Int := tb.sub + c * 65536
  s1.stepHt p (tb.ht + BitVec.ofInt 64 (total / (2 ^ 24 : Nat))) (total % (2 ^ 24 : Nat)).toNat { p := p, blk := 2 }

/-- The remaining slew becomes `c` (2^-8 hu), and a slew of more than 1 ns is flagged and journalled (R143). -/
def State.slewBy (s : State) (p : PartId) (port : Nat) (c : Int) : State :=
  let s1 := s.mod p fun q => { q with tb := { q.tb with rem := c * 65536 } }
  if 65536 < c.natAbs then (s1.setB p .srvStat 2).timeEvent p 1 2 port c else s1

/-- A reference change (R143): a forward step of at most 1 ns at the next tick, or a slew. -/
def State.refChange (s : State) (p : PartId) (port : Nat) (c : Int) : State :=
  if 0 ≤ c ∧ c ≤ 65536 then
    let s1 := s.mod p fun q => { q with tb := { q.tb with rem := 0 } }
    if c = 0 then s1 else s1.stepBy p c
  else s.slewBy p port c

/-! ### Selecting the reference (R141, R142) -/

/-- The lowest-numbered port of a list in servo state `st`. -/
def State.portIn (s : State) (p : PartId) (ports : List Nat) (st : Nat) : Option Nat := ports.find? fun n => s.srvState p n == st

/-- The time port of a set of ports: LOCKED, else TRACK, else HOLD, lowest number first (R141). -/
def State.timePortOf (s : State) (p : PartId) (ports : List Nat) : Option Nat :=
  match s.portIn p ports 3 with
  | some n => some n
  | none => match s.portIn p ports 2 with
    | some n => some n
    | none => s.portIn p ports 4

/-- The quality code a reference carries in its SYNC frames. -/
def State.refCode (s : State) (p : PartId) (d : Nat) : Nat :=
  match s.timePortOf p (refPorts p d) with
  | some n => s.fd p .srvPState 15 13 n
  | none => 0

/-- The preferred reference: PREF in the TSU, the twin in a secondary root (R126, R142). -/
def State.prefRef (s : State) (p : PartId) : Nat :=
  match p with
  | .tsu => 1 + s.fd .tsu .srvCfg 2 2
  | .dist => 2

/-- Revertive selection: SRV_CFG.REVERT, always 1 in a secondary root (R126, R142). -/
def State.revertive (s : State) (p : PartId) : Bool :=
  match p with
  | .tsu => s.bt .tsu .srvCfg 1
  | .dist => true

/-- The references the part may follow (R125): both in a TSU; in a leaf or a primary root below a hall root its upstream; in a
secondary root its twin and its upstream; in a source none. -/
def State.mayFollow (s : State) (p : PartId) (d : Nat) : Bool :=
  match p with
  | .tsu => d = 1 || d = 2
  | .dist =>
    if s.tier = 1 then d = 1
    else if s.tier = 2 || s.tier = 3 || s.tier = 4 then
      if s.dist.srv.source then false
      else if s.actsPrimary then d = 1 && s.tier = 2 && s.hallInService
      else d = 2 || (d = 1 && s.tier ≠ 3)
    else false

/-- The reference followed after R142, given which are eligible. -/
def State.chooseRef (s : State) (p : PartId) : Nat :=
  let cur := (s.part p).srv.followed
  let el (d : Nat) : Bool := s.mayFollow p d && s.eligible p d
  let follow := s.fd p .srvCtrl 1 0
  if cur = 0 then
    if el 1 && el 2 then (if follow ≠ 0 then follow else s.prefRef p)
    else if el 1 then 1 else if el 2 then 2 else 0
  else if follow ≠ 0 && el follow then follow
  else
    let other := 3 - cur
    if el other && (!el cur || decide (s.refCode p cur < s.refCode p other)) then other else cur

/-- Whether PREF is eligible with a code at least equal to the followed domain's, so that REVERT_S runs (R142). -/
def State.revertRuns (s : State) (p : PartId) : Bool :=
  let cur := (s.part p).srv.followed
  let pr := s.prefRef p
  s.revertive p && cur ≠ 0 && cur ≠ pr && s.fd p .srvCtrl 1 0 = 0 && s.mayFollow p pr && s.eligible p pr
    && decide (s.refCode p cur ≤ s.refCode p pr)

/-- Moves to reference `d`: a change of time port clears the integral term and is a reference change; a change of domain or
twin is flagged and journalled with c (R139, R141, R143). -/
def State.moveRef (s : State) (p : PartId) (d : Nat) : State :=
  let sv := (s.part p).srv
  let ports := if d = 0 then refPorts p 1 ++ refPorts p 2 else refPorts p d
  let ports := ports.filter fun n => s.mayFollow p (if p = .tsu then (if n < 2 then 1 else 2) else if n < 272 then 1 else 2)
  let t := s.timePortOf p ports
  if t = sv.tport && d = sv.followed then s else
  let s1 := s.modSrv p fun v => { v with tport := t, followed := d, integ := if t = sv.tport then v.integ else 0 }
  match t with
  | none => s1
  | some n =>
    if sv.tport.isNone && d = sv.followed then s1 else
    let c := -(s.psrv p n).theta
    let s2 := if d = sv.followed then s1 else (s1.setB p .srvStat 0).timeEvent p 1 0 n c
    s2.refChange p n c

/-- Re-evaluates the reference followed, the revert timer, the time without a LOCKED reference and the quality code after a change at a port
(R60, R126, R141, R142). -/
def State.selectRef (s : State) (p : PartId) : State :=
  let s1 := s.moveRef p (s.chooseRef p)
  let runs := s1.revertRuns p
  let some_ := s1.eligible p 1 || s1.eligible p 2
  let s2 := s1.modSrv p fun v => { v with
    prefSince := if runs then some (v.prefSince.getD (s1.ht p)) else none
    noRef := if some_ then none else some (v.noRef.getD (s1.ht p)) }
  s2.refreshQual p

/-- A port leaves UP: its servo goes to IDLE (R138). -/
def State.srvPortDown (s : State) (p : PartId) (n : Nat) : State :=
  let was := s.srvState p n
  let v := { (s.psrv p n) with
    valid := 0, lockRun := 0, unlockRun := 0, open_ := [], answered := none, gen := none, dreq := none }
  let s1 := (s.setF p .srvPState 2 0 0 n).setPsrv p n v
  let s2 := if was = 3 then (s1.setB p .srvStat 1).timeEvent p 1 1 n 0 else s1
  s2.selectRef p

/-! ### The exchange (R130–R134) -/

/-- Mean of a list of offsets, rounded down; 0 of none. -/
def meanInt (l : List Int) : Int := if l.isEmpty then 0 else l.foldl (· + ·) 0 / l.length

/-- The latest deviations of a lane. -/
def Survey.devOf (m : Survey) (l : Nat) : List Int := mget (fun _ => []) m.dev l

/-- Values of a lane since it was mapped in. -/
def Survey.count (m : Survey) (l : Nat) : Nat := mget (fun _ => 0) m.since l

/-- The lane reference of R134: DEV[l] less the mean of all five lanes. -/
def Survey.laneRef (m : Survey) (l : Nat) : Int :=
  meanInt (m.devOf l) - ((List.range 5).map fun k => meanInt (m.devOf k)).foldl (· + ·) 0 / 5

/-- Adds u = rxts − TXTS (2^-8 hu) of a frame on a lane to one direction's survey (R134). -/
def Survey.add (m : Survey) (l : Nat) (u : Int) : Survey :=
  let uf := m.uf + (u - m.uf) / 16
  { uf := uf, dev := mset (fun _ => []) m.dev l (((u - uf) :: m.devOf l).take 256)
    since := mset (fun _ => 0) m.since l (m.count l + 1) }

/-- A lane of a direction is mapped in: its exchanges serve the survey only until it has 64 values again (R134). -/
def Survey.mapIn (m : Survey) (l : Nat) : Survey := { m with since := mset (fun _ => 0) m.since l 0 }

/-- Each active lane of both directions holds 64 values (R134). -/
def State.surveyed (s : State) (p : PartId) (n : Nat) : Bool :=
  let v := s.psrv p n
  (List.range 4).all fun ln =>
    decide (64 ≤ (v.dn.devOf (mapLane (s.fd p .prtLmap 30 16 n) ln)).length) &&
    decide (64 ≤ (v.up.devOf (mapLane (s.fd p .prtLmap 14 0 n) ln)).length)

/-- Writes the lane references and SURVEYED of a port to its registers (R134, R149). -/
def State.publishSurvey (s : State) (p : PartId) (n : Nat) : State :=
  let v := s.psrv p n
  let s1 := (List.range 5).foldl (fun t l =>
    (t.wr p .srvPWdn (BitVec.ofInt 32 (satInt 32 (v.dn.laneRef l))) n l).wr p .srvPWup
      (BitVec.ofInt 32 (satInt 32 (v.up.laneRef l))) n l) s
  s1.setF p .srvPState 11 11 (b2n (s.surveyed p n)) n

/-- The servo of a port is that of a downstream end, or measures: it surveys, and completes exchanges. -/
def State.downstreamEnd (s : State) (p : PartId) (n : Nat) : Bool :=
  let st := s.srvState p n
  (decide (1 ≤ st) && decide (st ≤ 4)) || st == 6

/-- A CAL frame of a downstream end joins the survey of its direction (R114, R134). -/
def State.surveyCal (s : State) (p : PartId) (n lane : Nat) (txts rxts : HT) : State :=
  let v := s.psrv p n
  (s.setPsrv p n { v with dn := v.dn.add lane (htDiff rxts txts * 256) }).publishSurvey p n

/-- The lanes of a port are mapped in anew, each direction by its map (R134). -/
def State.surveyMapIn (s : State) (p : PartId) (n : Nat) (rx tx : List Nat) : State :=
  let v := s.psrv p n
  s.setPsrv p n { v with dn := rx.foldl Survey.mapIn v.dn, up := tx.foldl Survey.mapIn v.up }

/-- What one complete exchange gives (R133): the path value and the offset θ, in 2^-8 hu. -/
def exchange (t1 t2 t3 t4 : HT) (wdn wup asym : Int) : Int × Int :=
  let mf := htDiff t2 t1 * 256 - wdn
  let mr := htDiff t4 t3 * 256 - wup
  ((mf + mr) / 2, (mf - mr - asym) / 2)

/-- The servo's part of the rate adjustment of R139 in units of 2^-40: the proportional and integral terms of the residual e against T hu. The
limit of ±2^-12 and SLEWRATE come to it as it is applied. -/
def servoRate (e integ : Int) (kp T : Nat) : Int := -((e * 65536 / (2 ^ kp : Nat) + integ) * 65536) / (T : Int)

/-- The servo at a valid exchange of the time port (R139). `theta` is the offset that a step in the same exchange has left (log entry 127). -/
def State.servoUpdate (s : State) (p : PartId) (n : Nat) (theta : Int) : State :=
  let locked := s.srvState p n = 3
  let g := s.rd p .srvGain
  let kp := if locked then fld g 7 4 else fld g 15 12
  let ki := if locked then fld g 3 0 else fld g 11 8
  let e := theta + (s.part p).tb.rem / 65536
  let integ := (s.part p).srv.integ + e * 65536 / (2 ^ ki : Nat)
  let s1 := s.modSrv p fun v => { v with integ := integ }
  s1.mod p fun q => { q with tb := { q.tb with rate := servoRate e integ kp (s.syncInt p) } }

/-- A step of the servo (R140): forward at once, back only while every job is FREE, else a slew. Answers the offset that is left. -/
def State.servoStep (s : State) (p : PartId) (n : Nat) (theta : Int) : State × Int :=
  if theta < 0 then ((s.stepBy p (-theta)).setB p .srvStat 4, 0)
  else if 0 < theta then
    (if s.jobsFree p then ((s.stepBy p (-theta)).setB p .srvStat 5, 0) else (s.slewBy p n (-theta), theta))
  else (s, 0)

/-- The port's state machine at a valid exchange (R138): the new state and run counts. -/
def srvNext (st : Nat) (v : PortSrv) (theta : Int) (lockThr unlockThr lockN : Nat) (cal surveyed : Bool) : Nat × PortSrv :=
  match st with
  | 1 => let k := v.valid + 1
         if 8 ≤ k then (2, { v with valid := k, lockRun := 0 }) else (1, { v with valid := k })
  | 2 => if theta.natAbs ≤ lockThr * 256 && cal && surveyed then
           let k := v.lockRun + 1
           if lockN ≤ k then (3, { v with lockRun := 0, unlockRun := 0 }) else (2, { v with lockRun := k })
         else (2, { v with lockRun := 0 })
  | 3 => if unlockThr * 256 < theta.natAbs then
           let k := v.unlockRun + 1
           if 4 ≤ k then (2, { v with lockRun := 0, unlockRun := 0 }) else (3, { v with unlockRun := k })
         else (3, { v with unlockRun := 0 })
  | 4 => (2, { v with lockRun := 0, unlockRun := 0 })
  | st => (st, v)

/-- Two LOCKED ports to the same upstream part disagree by more than ASYM_CHK: for each such peer one record of each port number with the
difference (R137). -/
def State.asymCheck (s : State) (p : PartId) (n : Nat) : State :=
  let peers := match p with
    | .tsu => if n < 2 then [0, 1] else [2, 3]
    | .dist => if 256 ≤ n ∧ n < 272 then rangeFrom 256 16 else []
  let limit := s.fd p .srvGate 31 16 * 256
  let diff (m : Nat) : Int := (s.psrv p n).theta - (s.psrv p m).theta
  (peers.filter fun m => m ≠ n && s.srvState p m == 3 && s.srvState p n == 3 &&
      s.fd p .prtPeer 19 0 m == s.fd p .prtPeer 19 0 n && limit < (diff m).natAbs).foldl
    (fun t m => ((t.setB p .srvStat 7).timeEvent p 1 7 n (diff m)).timeEvent p 1 7 m (-(diff m))) s

/-- A port leaves LOCKED for TRACK: LOCK_LOST, journalled (R138). -/
def State.lockLost (s : State) (p : PartId) (n : Nat) (theta : Int) : State := (s.setB p .srvStat 1).timeEvent p 1 1 n theta

/-- A loopback calibration runs whose exchanges port `n` makes (R136). -/
def State.loopAt (s : State) (p : PartId) (n : Nat) : Bool :=
  let lc := s.rd .dist .srvLcal (portTile n)
  p = .dist && s.bt .dist .srvLcalStat 31 (portTile n) && fld lc 17 9 == n

/-- An exchange of a loopback calibration is counted, used with its offset or discarded; 4,096 are run (R136). -/
def State.loopCount (s : State) (n : Nat) (theta : Option Int) : State :=
  if !s.loopAt .dist n then s else
  let t := portTile n
  let z := mget (fun _ => (0, 0, 0)) s.dist.srv.lcal t
  if 4096 ≤ z.1 then s else
  let z1 : Nat × Nat × Int := match theta with
    | some x => (z.1 + 1, z.2.1, z.2.2 + x)
    | none => (z.1 + 1, z.2.1 + 1, z.2.2)
  (s.modSrv .dist fun w => { w with lcal := mset (fun _ => (0, 0, 0)) w.lcal t z1 }).setF .dist .srvLcalStat 12 0 z1.1 t

/-- An invalid exchange is counted and steers nothing (R132). -/
def State.exchangeLost (s : State) (p : PartId) (n : Nat) : State := (s.bump p .srvPCnt 31 16 1 n).loopCount n none

/-- An exchange is complete with t4 at a downstream end (R132–R142): survey, gate, offset, state machine, selection, servo. The gate applies
once the port has left ACQUIRE; a port that measures was never in it. -/
def State.exchangeDone (s : State) (p : PartId) (n : Nat) (x : Exchange) (t3 t4 : HT) : State :=
  let v := s.psrv p n
  let st := s.srvState p n
  let asym : Int := if st = 6 && s.bt p .srvLcal 30 (portTile n) then 0 else (s.rd p .srvPAsym n).toInt
  let (path, theta) := exchange x.t1 x.t2 t3 t4 (v.dn.laneRef x.f) (v.up.laneRef x.r) asym
  let v1 := { v with up := v.up.add x.r (htDiff t4 t3 * 256) }
  let surveyOnly := decide (v.dn.count x.f < 64) || decide (v1.up.count x.r < 64)
  let gated := (st = 2 || st = 3 || st = 4) && decide ((s.fd p .srvGate 15 0) * 256 < (path - v.pathf).natAbs)
  if surveyOnly then (s.setPsrv p n { v1 with lastValid := some (s.ht p) }).publishSurvey p n
  else if gated then (((s.setPsrv p n v1).exchangeLost p n).setB p .srvStat 6).publishSurvey p n
  else
    let th := s.rd p .srvThr
    let nx := srvNext st v1 theta (fld th 15 0) (fld th 31 16) (s.fd p .srvCfg 23 16) x.cal (s.bt p .srvPState 11 n)
    let v2 := { nx.2 with
      pathf := v.pathf + (path - v.pathf) / 64, theta := Config.thetaFilter v.theta theta, lastValid := some (s.ht p), gen := some x.gen }
    let s1 := ((((s.setPsrv p n v2).bump p .srvPCnt 15 0 1 n).loopCount n (some theta)).setF p .srvPState 2 0 nx.1 n).publishSurvey p n
    let s2 := if st = 3 && nx.1 = 2 then s1.lockLost p n theta else s1
    let s3 := (s2.selectRef p).asymCheck p n
    if (s3.part p).srv.tport ≠ some n then s3
    else if (st = 1 && nx.1 = 2) || v.gen.any (· ≠ x.gen) || s.rd p .srvStepThr * 65536 < theta.natAbs then
      let z := s3.servoStep p n theta
      z.1.servoUpdate p n z.2
    else s3.servoUpdate p n theta

/-- A primary that finds its twin acting as source gives up its own role and follows the twin as a secondary would (R126); the role change is
journalled, and its peer ports become downstream ends. -/
def State.twinFound (s : State) (p : PartId) (n : Nat) (source : Bool) : State :=
  if p = .tsu || n < 272 || !source || !s.primaryTwin || s.dist.srv.asSecondary || !(s.tier = 2 || s.tier = 3 || s.tier = 4) then s else
  let s1 := s.modSrv .dist fun v => { v with asSecondary := true, source := false }
  let s2 := (s1.setB .dist .srvStat 0).timeEvent .dist 1 0 n 0
  [272, 273].foldl (fun t m => if t.srvState .dist m = 5 then t.srvPortUp .dist m else t) s2

/-- The part sends SYNC at a port: a distributor's downstream port, a peer port, or any other at which it is the upstream end (R125). -/
def State.sendsSync (s : State) (p : PartId) (n : Nat) : Bool := p = .dist && (decide (n < 256) || decide (272 ≤ n) || s.srvState p n == 5)

/-- SYNC: the receiving end takes the far end's code, SETGEN and HOPS and queues a DREQ for logical lane XN mod 4. A downstream end's exchange that the T4 field completes is computed and steers: t4 must come within 8 × SYNC_INT of t1
by the upstream's own time-stamps (log entry 126); one whose time is over, and an answer to no exchange, are invalid (R131–R143). -/
def recvSync (port : Port) (m : SyncRx) (s : State) : State :=
  let p := port.part
  let n := port.num
  if s.portState p n ≠ 6 then s else
  let s0 := s.twinFound p n m.source
  let v := s0.psrv p n
  let tsc := s0.bt p .prtState 15 n
  let word := setFld (setFld (setFld (setFld (s0.rd p .srvPState n) 31 24 m.setgen) 23 16 m.hops) 15 13 m.code) 12 12 (b2n m.tscal)
  let rx := mapLane (s0.fd p .prtLmap 30 16 n) (m.xn % 4)
  let tx := mapLane (s0.fd p .prtLmap 14 0 n) (m.xn % 4)
  let x : Exchange := { xn := m.xn, t1 := m.t1, t2 := m.t2, gen := m.setgen, f := rx, r := tx, cal := m.tscal && tsc && !m.uncal }
  let down := s0.downstreamEnd p n
  let late (y : Exchange) : Bool := decide ((8 * s.syncInt p : Nat) < htDiff m.t1 y.t1)
  let kept := if down then v.open_.filter fun y => !late y else []
  let gone := if down then (v.open_.filter late).length else 0
  let done := if m.t4 = 0 then none else kept.find? fun y => y.xn == m.xnAns && y.t3.isSome
  let wrong := down && m.t4 ≠ 0 && done.isNone && v.answered ≠ some m.xnAns
  let v1 := { v with
    dn := if down then v.dn.add rx (htDiff m.t2 m.t1 * 256) else v.dn
    open_ := if down then (kept.filter fun y => y.xn ≠ m.xnAns || m.t4 = 0) ++ [x] else []
    answered := if m.t4 = 0 then v.answered else some m.xnAns }
  let dreq : Frame := { cls := 1, ty := 2, nojob := true, fields := [0, m.xn, b2n tsc] }
  let s1 := ((s0.wr p .srvPState word n).setPsrv p n v1).send p (.port n) dreq (some (m.xn % 4))
  let s2 := if p = .dist && !s1.isSource .dist && s1.dist.srv.tport = some n then s1.modSrv .dist fun w => { w with setgen := m.setgen % 256 } else s1
  let s3 := (List.range (gone + b2n wrong)).foldl (fun t _ => t.exchangeLost p n) s2
  let s4 := if s3.srvState p n = 3 && !(m.tscal && tsc) then (s3.setF p .srvPState 2 0 2 n).lockLost p n v.theta else s3
  let s5 := match done with
    | some y => s4.exchangeDone p n y (y.t3.getD 0) m.t4
    | none => s4
  s5.selectRef p

/-- DREQ: the upstream end keeps its rxts for the next SYNC (R131). -/
def recvDreq (port : Port) (xn : Nat) (rxts : HT) (s : State) : State :=
  let p := port.part
  s.setPsrv p port.num { (s.psrv p port.num) with dreq := some (xn % 65536, rxts) }

/-- SYNC_INTERVAL: every SYNC_INT the upstream end of an UP port queues SYNC number XN for logical lane XN mod 4 (R130, R131). -/
def syncInterval (port : Port) (s : State) : State :=
  let p := port.part
  let n := port.num
  if !s.sendsSync p n || s.portState p n ≠ 6 then s else
  let v := s.psrv p n
  let xn := (v.xn + 1) % 65536
  let (t4, ans) := match v.dreq with
    | some (k, t) => (t.toNat, k)
    | none => (0, 0)
  let hops := if s.isSource p then 0 else match (s.part p).srv.tport with
    | some t => min 255 (s.fd p .srvPState 23 16 t + 1)
    | none => 0
  let flags := s.qual p + 8 * s.domain + 16 * b2n (s.bt p .prtState 15 n) + 32 * b2n (s.isSource p)
  let f : Frame := { cls := 1, ty := 1, nojob := true, fields := [0, t4, xn, ans, flags, (s.part p).srv.setgen, hops, s.node p] }
  (s.setPsrv p n { v with xn := xn }).send p (.port n) f (some (xn % 4))

/-- SERVO_HOLD_TIMEOUT: no valid exchange for 8 × SYNC_INT moves the port to HOLD (R138). -/
def servoHoldTimeout (port : Port) (s : State) : State :=
  let p := port.part
  let n := port.num
  let st := s.srvState p n
  if st = 1 || st = 2 || st = 3 then
    let s1 := match (s.psrv p n).lastValid with
      | some h => s.reach p (h + BitVec.ofNat 64 (8 * s.syncInt p))
      | none => s
    let s2 := s1.setF p .srvPState 2 0 4 n
    (if st = 3 then s2.lockLost p n 0 else s2).selectRef p
  else s

/-- REVERT_TIMEOUT: PREF has been eligible for REVERT_S seconds and the part returns to it (R142). -/
def revertTimeout (p : PartId) (s : State) : State :=
  match (s.part p).srv.prefSince with
  | some h =>
    if s.revertRuns p then
      let s1 := s.reach p (h + BitVec.ofNat 64 (s.fd p .srvCfg 15 8 * 256000000000))
      ((s1.moveRef p (s.prefRef p)).modSrv p fun v => { v with prefSince := none }).refreshQual p
    else s
  | none => s

/-- SLEW_END: REM reaches zero on the last edge of the slew, and SLEW_DONE is set (R143, R149); a stopped time clock has no edges. -/
def slewEnd (p : PartId) (s : State) : State :=
  let tb := (s.part p).tb
  if tb.rem = 0 || !s.clockRuns p then s else s.passed p (tb.edges (ceilDiv tb.rem.natAbs slewPerEdge))

/-- TWIN_SOURCE_TIMEOUT: a secondary at a source tier for which no reference has been LOCKED for 2 ms becomes the source, from HOLDOVER (R126). -/
def twinSourceTimeout (s : State) : State :=
  match s.dist.srv.noRef with
  | none => s
  | some h =>
    if !s.sourceTier || s.actsPrimary || s.dist.srv.source || s.eligible .dist 1 || s.eligible .dist 2 then s else
    let s0 := s.reach .dist (h + 512000000#64)
    let s1 := s0.modSrv .dist fun v => { v with source := true, tport := none, followed := 0 }
    ((s1.setB .dist .srvStat 0).timeEvent .dist 1 0 0 0).enterHoldover .dist

/-- An OFFSET record (R365): other node, its code, own code, offset. -/
def State.offsetRec (s : State) (p : PartId) (other code : Nat) (off : Int) : State :=
  s.jnl { p := p, blk := 2 } 0x0203 (pay [(0, 3, other), (3, 1, code), (4, 1, s.qual p), (5, 8, wrapInt 64 off)])

/-- DIFF_INTERVAL: once per second a measuring part journals its offsets, and a section root sends every pod root the pairwise
offsets (R20, R127). -/
def diffInterval (p : PartId) (s : State) : State :=
  match p with
  | .tsu => s
  | .dist =>
    let ports := (List.range 274).filter fun n => s.srvState .dist n == 6 && s.portState .dist n == 6
    let s1 := ports.foldl (fun t n => t.offsetRec .dist (t.fd .dist .prtPeer 19 0 n) (t.fd .dist .srvPState 15 13 n) (t.psrv .dist n).theta) s
    if s.tier = 5 then
      ports.foldl (fun t n =>
        let fs := ports.flatMap fun m => [t.fd .dist .prtPeer 19 0 m, wrapInt 64 ((t.psrv .dist n).theta - (t.psrv .dist m).theta)]
        t.send .dist (.port n) { cls := 1, ty := 4, nojob := true, fields := 0 :: fs, flits := 2 }) s1
    else s1

/-- DIFF: a pod root of a section receives its offsets against the others and reports them with its code (R20, R127). -/
def recvDiff (offs : List (Nat × Nat × Int)) (s : State) : State :=
  let s1 := s.modSrv .dist fun v => { v with diffs := offs.map fun o => (o.1, o.2.2) }
  offs.foldl (fun t o => t.offsetRec .dist o.1 o.2.1 o.2.2) s1

/-- A write to SRV_LCAL (R136): RANGE for ports not on this tile or equal, STATE for an ARM that names ports not armed already while one is not
DOWN or a job context not FREE, and for a GO without TSCAL = 1 at both ports; BUSY while one runs. While it runs the link unit is held (R92). -/
def State.lcalWrite (s : State) (t : Nat) (v : Word) : Code × State :=
  let x := fld v 8 0
  let y := fld v 17 9
  let arm := v.getLsbD 30
  let go := v.getLsbD 31
  let cur := s.rd .dist .srvLcal t
  let here (n : Nat) : Bool := n < 274 && portTile n == t
  let range := (arm || go) && (!here x || !here y || x == y)
  let newArm := arm && !(cur.getLsbD 30 && fld cur 8 0 == x && fld cur 17 9 == y)
  let state := (newArm && (s.portState .dist x ≠ 0 || s.portState .dist y ≠ 0 || !s.jobsFree .dist))
    || (go && (!s.bt .dist .prtState 15 x || !s.bt .dist .prtState 15 y))
  let c := firstFail false false range false state (go && s.bt .dist .srvLcalStat 31 t)
  if c ≠ .ok then (c, s) else
  let s1 := s.wr .dist .srvLcal (setFld (v &&& BitVec.ofNat 32 (row .srvLcal).wmask) 31 31 0) t
  if go then
    (.ok, ((s1.wr .dist .srvLcalStat (BitVec.ofNat 32 (2 ^ 31)) t).modSrv .dist fun w =>
      { w with lcal := mset (fun _ => (0, 0, 0)) w.lcal t (0, 0, 0) }).holdUnit .dist (2 * t + 1))
  else (.ok, s1)

/-- LOOPBACK_CALIBRATION_DONE: port y has run its 4,096 exchanges; the asymmetry is twice the mean offset of those used, or FAIL with INTEGRITY
when more than 64 were discarded, of which CAL_EVENT is the record (R9, R136, R365). -/
def loopbackDone (t : Fin 8) (s : State) : State :=
  let z := mget (fun _ => (0, 0, 0)) s.dist.srv.lcal t.val
  if !s.bt .dist .srvLcalStat 31 t || z.1 < 4096 then s else
  let w : Who := { p := .dist, tile := t, blk := 2 }
  let s2 := if 64 < z.2.1 then
    (s.wr .dist .srvLcalStat (BitVec.ofNat 32 (2 ^ 29 + z.1)) t).jnl w 0x0301 (pay [(0, 1, 3), (1, 1, t.val), (2, 1, Code.integrity.num)])
  else
    let asym : Int := 2 * z.2.2 / ((z.1 - z.2.1 : Nat) : Int)
    let s1 := (s.wr .dist .srvLcalStat (BitVec.ofNat 32 (2 ^ 30 + z.1)) t).wr .dist .srvLcalAsym (BitVec.ofInt 32 (satInt 32 asym)) t
    s1.jnl w 0x0301 (pay [(0, 1, 3), (1, 1, t.val), (2, 1, 0), (3, 4, wrapInt 32 asym)])
  s2.holdUnit .dist (2 * t.val + 1)

end Sys2Proof.Machine
end

