-- ==== Sys2Proof/Machine/Port.lean ====
section
/-!
DEFINITION. Step links (R95–R124): training, negotiation, flits, frames, acknowledgement and replay, latency calibration and
the spare lane. A port is named by part and number (R117).
-/
namespace Sys2Proof.Machine

/-! ### Port state -/

def State.prt (s : State) (p : PartId) (n : Nat) : PortSt := mget (fun _ => {}) (s.part p).ports n

def State.setPrt (s : State) (p : PartId) (n : Nat) (v : PortSt) : State :=
  s.mod p fun q => { q with ports := mset (fun _ => {}) q.ports n v }

/-- The state with one port's data changed. -/
def State.modPrt (s : State) (p : PartId) (n : Nat) (f : PortSt → PortSt) : State := s.setPrt p n (f (s.prt p n))

/-- The writer of a port's records: its tile's in the distributor. -/
def prtWho (p : PartId) (n : Nat) (blk : Nat) : Who := { p := p, tile := if p = .dist then portTile n else 0, blk := blk }

/-- A PORT_EVENT record (R365): port, status bit, fault code, state. -/
def State.portEvent (s : State) (p : PartId) (n bitNo : Nat) : State :=
  s.jnl (prtWho p n 3) 0x0300 (pay [(0, 2, n), (2, 1, bitNo), (3, 1, s.fd p .prtState 31 28 n), (4, 1, s.portState p n)])

/-- The sequence space of a class: true for express (R107). -/
def isExpress (cls : Nat) : Bool := decide (cls ≤ 4)

/-- A frame sent or waiting on port `n`. -/
def Sent.onPort (f : Sent) (n : Nat) : Bool := f.dest == .port n

/-- A frame of port `n`'s replay buffer for a space: started and not acknowledged (R107). -/
def Sent.inReplay (f : Sent) (n : Nat) (express : Bool) : Bool := f.onPort n && f.started && isExpress f.frame.cls == express

/-- Lanes of a mask of 5. -/
def lanesIn (mask : Nat) : Nat := ((List.range 5).filter fun l => mask.testBit l).length

/-- `a` is `b` or comes before it in a 16-bit sequence (R107). -/
def seqLe (a b : Nat) : Bool := decide ((b + 65536 - a % 65536) % 65536 < 32768)

/-! ### Sending: places, start, sequence, credit (R104–R109) -/

/-- Replay buffer sizes in flits, express and normal (R107). -/
def bufFlits (p : PartId) (n : Nat) : Nat × Nat := if p = .dist ∧ 256 ≤ n then (1024, 8192) else (512, 2048)

/-- Flits in a port's replay buffer for a space. -/
def State.bufUse (s : State) (p : PartId) (n : Nat) (express : Bool) : Nat :=
  (((s.part p).sent.filter fun f => f.inReplay n express).map fun f => f.frame.flits).foldl (· + ·) 0

/-- Priority of a class, 1 highest (R102). -/
def clsPrio (cls : Nat) : Nat := match cls with | 1 => 1 | 2 | 3 => 2 | 4 => 3 | 5 => 4 | _ => 5

/-- A frame of a space waits to be sent on a port: not yet started, or to be resent; one with TSI = 1 does not wait in the order while a swap
holds it back (R104, R108, R120). -/
def Sent.waits (f : Sent) (n : Nat) (express holdTsi : Bool) : Bool :=
  f.onPort n && (!f.started || f.again) && isExpress f.frame.cls == express && !(f.frame.tsi && holdTsi)

/-- The frame of a space whose turn it is: of highest priority, the oldest within one. One that must lie on another logical lane than the present
place's leaves its turn to the next (R104, R114, R131; log entry 130). -/
def State.turn (s : State) (p : PartId) (n : Nat) (express : Bool) : Option (Nat × Sent) :=
  let v := s.prt p n
  let here := placeLane (s.strongFec p n) v.place
  let ws := ((s.part p).sent.zipIdx).filter fun x => x.1.waits n express v.holdTsi && x.1.lane.all (· == here)
  ws.foldl (fun best x => match best with
    | none => some (x.2, x.1)
    | some b => if clsPrio x.1.frame.cls < clsPrio b.2.frame.cls then some (x.2, x.1) else best) none

/-- The frame that starts at the present place, if the space's buffer holds it and, for a normal frame, credit covers it; otherwise none of that
space starts (R104, R106, R107). A resent frame is in its buffer, and its credit is spent. -/
def State.nextStart (s : State) (p : PartId) (n : Nat) (express : Bool) : Option Nat :=
  match s.turn p n express with
  | none => none
  | some (i, f) =>
    let b := bufFlits p n
    if f.again || (decide (s.bufUse p n express + f.frame.flits ≤ if express then b.1 else b.2)
        && (express || decide (f.frame.flits ≤ (s.prt p n).credit))) then some i else none

/-- The first place after the present one at which a frame that waits for a logical lane may start. -/
def State.laneWait (s : State) (p : PartId) (n lim : Nat) : Nat :=
  let v := s.prt p n
  let st := s.strongFec p n
  ((s.part p).sent.filter fun f => f.waits n true v.holdTsi && f.lane.isSome).foldl (fun m f => min m (laneFrom st (v.place + 1) f.lane)) lim

/-- The time-stamps of a frame that starts now: TXTS goes into the first payload field where TSI is 1, and the CRC covers it (R103, R110, R112). -/
def State.stamped (s : State) (p : PartId) (n : Nat) (f : Sent) : Sent :=
  let h := s.txStamp p n (s.prt p n).place
  let g := if f.frame.cls ≤ 2 then
      { f with txts := some h, frame := if f.frame.tsi then { f.frame with fields := h.toNat :: f.frame.fields.drop 1 } else f.frame }
    else f
  { g with crc := g.mkCrc }

/-- A DREQ that starts gives its exchange t3 (R131, R132). -/
def State.noteDreq (s : State) (p : PartId) (n : Nat) (f : Sent) : State :=
  if f.frame.cls = 1 && f.frame.ty = 2 then
    let v := s.psrv p n
    s.setPsrv p n { v with open_ := v.open_.map fun x => if x.xn = f.frame.fields.getD 1 0 then { x with t3 := f.txts } else x }
  else s

/-- Starts one frame at the present place: a first transmission takes the next SEQ of its space and, if normal, its flits of credit (R106, R107);
a resent one keeps its SEQ (R108). -/
def State.startFrame (s : State) (p : PartId) (n i : Nat) : State :=
  match (s.part p).sent[i]? with
  | none => s
  | some f =>
    let v := s.prt p n
    let e := isExpress f.frame.cls
    let now := s.ht p
    let fresh := s.bufUse p n e = 0
    let v0 := if e then { v with express := f.frame.flits } else { v with normal := f.frame.flits }
    let vm := if f.frame.cls ≤ 2 then { v0 with markTx := v.markTx + 1 } else v0
    let v1 := if f.again then vm
      else if e then { vm with txExp := (v.txExp + 1) % 65536, advExp := if fresh then now else v.advExp }
      else { vm with txNorm := (v.txNorm + 1) % 65536, advNorm := if fresh then now else v.advNorm, credit := v.credit - f.frame.flits }
    let g := s.stamped p n { f with
      started := true, again := false, sends := if f.again then f.sends else 1
      seq := if f.again then f.seq else if e then v.txExp else v.txNorm }
    ((s.mod p fun q => { q with sent := modAt i (fun _ => g) q.sent }).setPrt p n v1).noteDreq p n g

/-- BSp_READY: the port is UP and fewer than 2 frames of its BULK queue are full (R123). -/
def State.bulkReady (s : State) (n : Nat) : Bool :=
  s.portState .tsu n = 6 && decide (((s.tsu.sent.filter fun f => f.onPort n && !f.started && f.xfer.isSome).length) < 2)

/-- Takes the next frame's bytes of the oldest transfer that has some left from the host, and queues the frame (R122, R123). -/
def State.bulkFill (s : State) (n : Nat) : State :=
  let v := s.prt .tsu n
  match v.bulk.findIdx? fun b => !b.rest.isEmpty with
  | none => s
  | some i =>
    match v.bulk[i]? with
    | none => s
    | some b =>
      if !s.bulkReady n then s else
      let d := b.rest.take 4096
      let f : Frame := { cls := 6, ty := b.ty, handle := b.job.1, gen := b.job.2.1, epoch := b.job.2.2, origin := s.ht .tsu, fields := [b.addr, b.off],
                         data := d }
      let b1 := { b with off := b.off + d.length, rest := b.rest.drop 4096, left := b.left + 1 }
      (s.mod .tsu fun q => { q with sent := q.sent ++ [{ dest := .port n, xfer := some b.tag, frame := f.sized }] }).setPrt .tsu n
        { v with bulk := modAt i (fun _ => b1) v.bulk }

/-- The BULK queue of a TSU's port takes what it has room for: two frames. -/
def State.bulkRefill (s : State) (p : PartId) (n : Nat) : State := if p = .tsu then (s.bulkFill n).bulkFill n else s

/-- The next CAL frame of a running latency calibration: the physical lane whose turn it is, 256 frames each, and the logical lane it is sent on; the
spare carries a copy of logical lane 0 (R114). -/
def State.calNext (s : State) (p : PartId) (n : Nat) : Option (Nat × Nat) :=
  match (s.prt p n).calRun with
  | none => none
  | some c =>
    let m := s.fd p .prtLmap 14 0 n
    let k := c.sent / 256
    if k < 4 then some (mapLane m k, k) else if k = 4 && mapLane m 4 ≠ 7 then some (mapLane m 4, 0) else none

/-- The CAL frame joins the frames that wait once its place has come: one every 16 ns, 23.4 slots, on its logical lane (R114). -/
def State.calQueue (s : State) (p : PartId) (n : Nat) : State :=
  let v := s.prt p n
  match v.calRun, s.calNext p n with
  | some c, some l =>
    if v.place < c.next then s
    else
      (s.send p (.port n) { cls := 1, ty := 0xFF, nojob := true, fields := [0] } (some l.2)).setPrt p n
        { v with calRun := some { sent := c.sent + 1, next := v.place + 24 } }
  | _, _ => s

/-- The port sends and receives frames: UP, or CALIBRATE, in which it sends CAL frames (R114). -/
def State.linkRuns (s : State) (p : PartId) (n : Nat) : Bool := s.portState p n = 6 || s.portState p n = 5

/-- When a place of a port's transmitter begins, on the HT scale. -/
def State.placeHt (s : State) (p : PartId) (n d : Nat) : HT :=
  round25 (s.tEnc p n 0 + placeStart (s.strongFec p n) d)

/-- The first place that begins at or after the present HT. -/
def State.placeNow (s : State) (p : PartId) (n : Nat) : Nat :=
  let v := s.prt p n
  placeAfter (s.strongFec p n) (25 * htDiff (s.ht p) v.negAt - v.negFrac)

/-- The transmitter's work up to place `lim` (R104): an express frame on the wire goes on to its end; else the express frame whose turn it is starts;
else the normal frame on the wire, or suspended, goes on; else one starts; else the places carry IDLE (R105), up to the next at which a frame may
start. Each turn either starts a frame or moves on, and what starts moves on at once, so twice the places is `fuel` enough. -/
def wireN : Nat → PartId → Nat → Nat → State → State
  | 0, _, _, _, s => s
  | fuel + 1, p, n, lim, s0 =>
    let s := s0.calQueue p n
    let v := s.prt p n
    if lim ≤ v.place then s
    else if v.express ≠ 0 then
      let k := min v.express (lim - v.place)
      wireN fuel p n lim (s.setPrt p n { v with place := v.place + k, express := v.express - k })
    else match s.nextStart p n true with
      | some i => wireN fuel p n lim (s.startFrame p n i)
      | none =>
        let cal := match v.calRun, s.calNext p n with
          | some c, some _ => max c.next (v.place + 1)
          | _, _ => lim
        let stop := min cal (s.laneWait p n lim)
        if v.normal ≠ 0 then
          let k := min v.normal (stop - v.place)
          wireN fuel p n lim (s.setPrt p n { v with place := v.place + k, normal := v.normal - k })
        else match s.nextStart p n false with
          | some i => wireN fuel p n lim ((s.startFrame p n i).bulkRefill p n)
          | none => wireN fuel p n lim (s.setPrt p n { v with place := stop, lastIdle := s.placeHt p n (stop - 1) })

/-- Brings a port's transmitter to the first place at or after the present HT, that place included: what waits then is what its turn is decided
on. -/
def State.pump (s : State) (p : PartId) (n : Nat) : State :=
  if s.linkRuns p n then
    let s1 := s.bulkRefill p n
    let lim := s1.placeNow p n + 1
    wireN (2 * (lim - (s1.prt p n).place)) p n lim s1
  else s

/-- Brings the transmitter of every port that a waiting frame names up to date. -/
def State.pumpAll (s : State) (p : PartId) : State :=
  let ports := ((s.part p).sent.filter fun f => !f.started || f.again).filterMap fun f => match f.dest with
    | .port n => some n
    | _ => none
  ports.foldl (fun t n => t.pump p n) s

/-! ### Leaving and entering states (R116) -/

/-- Lanes of a direction's map, logical 0 to 3. -/
def activeLanes (m : Nat) : List Nat := (List.range 4).map (mapLane m)

/-- The lane map of a direction: 0 local transmitter, 1 local receiver. -/
def State.dirMap (s : State) (p : PartId) (n dir : Nat) : Nat :=
  if dir = 0 then s.fd p .prtLmap 14 0 n else s.fd p .prtLmap 30 16 n

/-- The spare record of a lane swap (R120, R377): old and new physical lane, trigger and code. -/
def State.swapRec (s : State) (p : PartId) (n dir ln trig : Nat) (c : Code) : State :=
  let m := s.dirMap p n dir
  let trend := mget (fun _ => 0) (s.part p).lif.trends (5 * n + mapLane m ln)
  s.spareRec p (if p = .dist then portTile n else 0) 0 n (mapLane m ln) (mapLane m 4) trig c trend 0

/-- A port's link ends (R109): its replay buffers, its CAL frames and what is on the wire go. -/
def State.linkEnds (s : State) (p : PartId) (n : Nat) : State :=
  (s.mod p fun q => { q with sent := q.sent.filter fun f => !(f.onPort n && (f.started || (f.frame.cls == 1 && f.frame.ty == 0xFF))) }).modPrt p n
    fun v => { v with calibrating := false, calRun := none, express := 0, normal := 0, ackDue := false, nakExp := false, nakNorm := false }

/-- A die's last port to a leaf leaves UP (R312): PATH_LOST, with the domain lost, goes to the job roots in the leaf's table for the die. -/
def State.pathGone (s : State) (p : PartId) (n : Nat) : State :=
  let other := if n % 2 = 0 then n + 1 else n - 1
  if p = .tsu || 256 ≤ n || s.tier ≠ 1 || s.portState .dist other = 6 then s else
  let node := s.fd .dist .prtPeer 19 0 n
  (s.rootsFor node).foldl (fun t r => t.send .dist (.node r) (nojob 0x89 [node, s.domain])) s

/-- The spills whose target port leaves UP are the leaf's own to combine (R298). -/
def State.spillsLost (s : State) (p : PartId) (n : Nat) : State :=
  if p = .tsu then s else
  let cut (i : Inst) : Inst := match i.spill with
    | some sp => if sp.port = n then { i with spill := some { sp with lost := true } } else i
    | none => i
  { s with insts := s.insts.map cut }

/-- A port leaves UP (R109, R120, R123): replay buffers go and are counted, a swap is abandoned, which is journalled and writes its spare record
with STATE (log entry 131), bulk transfers report BUSY, and the servo goes to IDLE. -/
def State.leaveUp (s : State) (p : PartId) (n : Nat) : State :=
  let v := s.prt p n
  let lost := ((s.part p).sent.filter fun f => f.onPort n && f.started).length
  let s1 := ((s.setB p .prtStat 1 n).bump p .prtCntLost 31 0 lost n).linkEnds p n
  let s2 := s1.mod p fun q => { q with
    sent := q.sent.filter fun f => !(f.onPort n && f.xfer.isSome)
    bulkSts := q.bulkSts ++ v.bulk.map fun b => (n, b.tag, Code.busy) }
  let s3 := s2.modPrt p n fun w => { w with swap := none, holdTsi := false, calWait := false, bulk := [] }
  let s4 := match v.swap with
    | some w =>
      let s5 := (s3.setF p .prtState 12 12 0 n).portEvent p n 7
      if w.remote then s5 else s5.swapRec p n w.dir w.lane w.trig .state
    | none => s3
  (s4.srvPortDown p n).pathGone p n |>.spillsLost p n

/-- A port moves to a state (R116); in DOWN it has agreed on no version and trained no spare (R124). When no port of a TSU stays in service its time clock stops (R53) and armed fine triggers
go (R89). -/
def State.portTo (s : State) (p : PartId) (n st : Nat) : State :=
  let was := s.portState p n
  if was = st then s else
  let ran := s.clockRuns p
  let s1 := s.setF p .prtState 2 0 st n
  let s2 := if was = 6 then s1.leaveUp p n else if was = 5 && st ≠ 6 then s1.linkEnds p n else s1
  let s3 := if st = 0 then ((s2.setF p .prtState 23 20 0 n).setF p .prtState 14 13 0 n) else s2
  let s4 := if was = 5 || was = 6 then s3.holdUnit p (linkUnit p n) else if st = 3 then s3.linkEnable p n else s3
  let s5 := if was = 7 then (s4.setF p .prtState 31 28 0 n).modPrt p n fun v => { v with fails := 0, laneFails := 0 } else s4
  let s6 := if st = 6 && p = .tsu then
      s5.send .tsu (.port n) { cls := 2, ty := 0x85, nojob := true, fields := [b2n s5.fenced, s5.fd .tsu .hltStatus 30 28] }
    else s5
  if ran && !s6.clockRuns p then s6.dropAllFine p .state else s6

/-- A port enters FAULT with a code (R116, R117). -/
def State.portFault (s : State) (p : PartId) (n code : Nat) : State :=
  let s1 := ((s.portTo p n 7).setF p .prtState 31 28 code n).setB p .prtStat 2 n
  s1.portEvent p n 2

/-- A port enters DETECT; the agreed version is forgotten and, unless only one lane was lost, retired lanes are tested again
(R116, R119). -/
def State.toDetect (s : State) (p : PartId) (n : Nat) (full : Bool) : State :=
  let s1 := s.portTo p n 1
  let s2 := (((s1.setF p .prtState 23 20 0 n).setF p .prtState 14 14 0 n).setF p .prtState 13 13 0 n)
  if full then s2.modPrt p n fun v => { v with retired := 0 } else s2

/-- The ports that a distributor's tier leaves disabled or powered down: the upstream ports of hall and section roots (R10), and DP128 to DP255
of pod roots (R13). -/
def State.portOff (s : State) (n : Nat) : Bool :=
  ((s.tier = 3 || s.tier = 5) && decide (256 ≤ n) && decide (n < 272)) || ((s.tier = 2 || s.tier = 4) && decide (128 ≤ n) && decide (n < 256))

/-- What lets an enabled port leave DOWN (R10, R13, R116); a tile cut off from the mesh holds its ports DOWN (R451). -/
def State.portAllowed (s : State) (p : PartId) (n : Nat) : Bool :=
  (s.lcState p = 1 || s.lcState p = 2)
    && (p = .tsu || (s.tier ≠ 0 && !s.isOpen .dist && !s.portOff n && !s.pkg.isolated.contains (portTile n)))

/-- The ports a part has. -/
def portNums : PartId → List Nat
  | .tsu => List.range nPort
  | .dist => List.range 274

/-- After a change of life-cycle, tier or seal: ports that may not run go DOWN, enabled ports that may run leave it (R116). -/
def State.portsRecheck (s : State) (p : PartId) : State :=
  let lcDown := s.lcState p = 0 || s.lcState p = 3
  (portNums p).foldl (fun t n =>
    if lcDown then t.portTo p n 0
    else if t.portState p n = 0 && t.bt p .prtCtrl 0 n && t.portAllowed p n then t.toDetect p n true else t) s

/-- A port enters UP (R114, R116): the servo takes its role and held frames start. -/
def State.portUp (s : State) (p : PartId) (n : Nat) : State :=
  let s1 := (s.portTo p n 6).setB p .prtStat 0 n
  let s2 := s1.modPrt p n fun v => { v with fails := 0, laneFails := 0, lastIdle := s1.ht p, calibrating := false, calWait := false }
  ((s2.holdUnit p (linkUnit p n)).srvPortUp p n).pump p n

/-- A training failure (R116): back to DETECT, and on the fourth in succession FAULT with TRAIN_FAIL. -/
def State.trainFail (s : State) (p : PartId) (n : Nat) : State :=
  let k := (s.prt p n).fails + 1
  let s1 := s.modPrt p n fun v => { v with fails := k }
  if 4 ≤ k then s1.portFault p n 4 else s1.toDetect p n true

/-- An attempt that finds fewer than 4 usable lanes; the fourth faults with LANES (R116). -/
def State.laneFail (s : State) (p : PartId) (n : Nat) : State :=
  let k := (s.prt p n).laneFails + 1
  let s1 := s.modPrt p n fun v => { v with laneFails := k }
  if 4 ≤ k then s1.portFault p n 5 else s1

/-- A write to PRT_Pp_CTRL (R116, R117): RETRAIN while DOWN ends with STATE, and EN while the macros
do not match (R425); RETRAIN in UP also asks the far end to retrain. -/
def State.prtCtrlWrite (s : State) (p : PartId) (n : Nat) (v : Word) : Code × State :=
  let st := s.portState p n
  let en := v.getLsbD 0
  let re := v.getLsbD 1
  if (re && st = 0) || (en && p = .tsu && s.macroBad) then (.state, s) else
  let s1 := s.wr p .prtCtrl (BitVec.ofNat 32 (b2n en)) n
  let s2 :=
    if !en then s1.portTo p n 0
    else if st = 0 then (if s1.portAllowed p n then s1.toDetect p n true else s1)
    else if re && st = 6 then (s1.sendFlit p n (some 6) []).toDetect p n true
    else if re && st = 7 then s1.toDetect p n true
    else s1
  (.ok, s2)

/-! ### Training (R116, R119, R121) -/

/-- FAR_END_SIGNAL: signal seen on the physical lanes of a mask; on at least 4 the port enters TRAIN, where it reads FEC
(R97, R116). -/
def farEndSignal (port : Port) (mask : Fin 32) (s : State) : State :=
  let p := port.part
  let n := port.num
  if s.portState p n ≠ 1 then s else
  let fec := s.fd p .prtCfg 0 0 n
  let usable := mask.val &&& (31 - (s.prt p n).retired / 32 % 32)
  if lanesIn usable < 4 then s.laneFail p n
  else ((s.portTo p n 2).modPrt p n fun v => { v with fec := fec }).setF p .prtState 16 16 fec n

/-- A lane map after training: a logical lane keeps its physical lane if that one converged, else takes the one that did and
is free; the lane left over is the spare (R95, R119, R121; log entry 10). -/
def trainMap (m ok : Nat) : Nat :=
  let keep := (List.range 4).filter fun ln => ok.testBit (mapLane m ln)
  let used := keep.map (mapLane m)
  let free := (List.range 5).filter fun l => ok.testBit l && !used.contains l
  let step (acc : Nat × List Nat) (ln : Nat) : Nat × List Nat :=
    if keep.contains ln then (setBits acc.1 (3 * ln + 2) (3 * ln) (mapLane m ln), acc.2)
    else (setBits acc.1 (3 * ln + 2) (3 * ln) (acc.2.headD 7), acc.2.drop 1)
  let r := (List.range 4).foldl step (m, free)
  setBits r.1 14 12 (r.2.headD 7)

/-- EQUALISATION_CONVERGED: receive and transmit lanes that converged; on at least 4 of each the port enters LOCK with its lane maps, and the lanes
mapped in are surveyed anew (R116, R119, R134). -/
def equalised (port : Port) (rx tx : Fin 32) (s : State) : State :=
  let p := port.part
  let n := port.num
  if s.portState p n ≠ 2 then s else
  let ret := (s.prt p n).retired
  let rxOk := rx.val &&& (31 - ret / 32 % 32)
  let txOk := tx.val &&& (31 - ret % 32)
  if lanesIn rxOk < 4 || lanesIn txOk < 4 then s.laneFail p n else
  let s1 := s.modPrt p n fun v => { v with laneFails := 0 }
  let old (dir : Nat) : List Nat := activeLanes (s.dirMap p n dir)
  let tm := trainMap (s.dirMap p n 0) txOk
  let rm := trainMap (s.dirMap p n 1) rxOk
  let s2 := ((s1.setF p .prtLmap 14 0 tm n).setF p .prtLmap 30 16 rm n).surveyMapIn p n ((activeLanes rm).filter fun l => !(old 1).contains l)
    ((activeLanes tm).filter fun l => !(old 0).contains l)
  (s2.setF p .prtState 14 14 (b2n (lanesIn rxOk = 5)) n).portTo p n 3

/-- CODEWORD_LOCK: the port enters NEGOTIATE, whose first block is block 0, begun at the present HT to 1/25 hu; sequence spaces restart at 0 and
credit at 512 (R99, R106, R109). -/
def codewordLock (port : Port) (s : State) : State :=
  let p := port.part
  let n := port.num
  if s.portState p n ≠ 3 then s else
  (s.portTo p n 4).modPrt p n fun v => { v with
    txExp := 0, txNorm := 0, rxExp := 0, rxNorm := 0, nakExp := false, nakNorm := false, ackDue := false, credit := 512
    place := 0, express := 0, normal := 0, negAt := s.ht p, negFrac := 25 * (s.part p).tb.sub / 2 ^ 24 }

/-- TRAINING_TIMEOUT: a time limit of TRAIN, LOCK, NEGOTIATE or CALIBRATE is exceeded (R116). -/
def trainingTimeout (port : Port) (s : State) : State :=
  let p := port.part
  let n := port.num
  let st := s.portState p n
  if st = 2 || st = 3 || st = 4 || st = 5 then s.trainFail p n else s

/-- CODEWORD_LOCK_LOSS: `k` of 16 consecutive codewords are uncorrectable and counted; at 8 the port loses lock (R96, R98). -/
def codewordLockLoss (port : Port) (k : Fin 17) (s : State) : State :=
  let p := port.part
  let n := port.num
  if !s.inService p n then s else
  let s1 := s.bump p .prtCntUncorr 31 0 k n
  if k.val < 8 || s.portState p n ≠ 6 then s1 else s1.toDetect p n true

/-- Retires a lane in the lifetime record (R372): transmit and receive directions of a physical lane are one lane g. -/
def State.retireLane (s : State) (p : PartId) (n l : Nat) : State :=
  (s.mod p fun q => { q with lif := { q.lif with retired := if q.lif.retired.contains (5 * n + l) then q.lif.retired
                                                            else q.lif.retired ++ [5 * n + l] } }).lifCount p 66 1

/-- LANE_LOSS: a receive lane in use stops delivering symbols; the port retrains without it, or faults with LANES when no
spare is left (R121). -/
def laneLoss (port : Port) (lane : Fin 5) (s : State) : State :=
  let p := port.part
  let n := port.num
  let m := s.fd p .prtLmap 30 16 n
  if s.portState p n ≠ 6 || !((List.range 4).any fun ln => mapLane m ln == lane.val) then s else
  let s1 := s.retireLane p n lane.val
  if mapLane m 4 = 7 then s1.portFault p n 5
  else (s1.modPrt p n fun v => { v with retired := v.retired ||| 2 ^ (5 + lane.val) }).toDetect p n false

/-- Counts a single flit or frame discarded (R100, R102). -/
def State.protoDrop (s : State) (p : PartId) (n : Nat) : State := (s.bump p .prtCntProto 31 0 1 n).setB p .prtStat 4 n

/-! ### Negotiation (R12, R13, R97, R117) -/

/-- The versions a port announces (R117). -/
def State.versions (s : State) (p : PartId) (n : Nat) : Nat × Nat :=
  if p = .dist && n < 256 && s.bt .dist .prtCfg 1 n then (2, 3) else (3, 3)

/-- The domain a port announces (R117). -/
def State.portDomain (s : State) (p : PartId) (n : Nat) : Nat := if p = .tsu then n / 2 else s.domain

/-- A NEG flit's fields with a fault code; a TSU announces tier 0 (log entry 11). -/
def State.negFields (s : State) (p : PartId) (n fault : Nat) : List Nat :=
  let v := s.versions p n
  [s.node p, n, s.portDomain p n, if p = .tsu then 0 else s.tier, v.1, v.2, (s.prt p n).fec, s.fd p .prtState 14 14 n, fault]

/-- NEG_INTERVAL: a NEG flit every 1 µs in NEGOTIATE (R117). -/
def negInterval (port : Port) (s : State) : State :=
  if s.portState port.part port.num ≠ 4 then s
  else s.sendFlit port.part port.num (some 5) (s.negFields port.part port.num 0)

/-- Ports stand in groups of `g`, each for one node: a port of another group is UP to this node, or one of the same group to another (R12, R13,
R389). -/
def State.groupClash (s : State) (g n node : Nat) : Bool :=
  (List.range 256).any fun m => m ≠ n && s.portState .dist m == 6 && ((s.fd .dist .prtPeer 19 0 m == node) != (m / g == n / g))

/-- The cabling of a distributor's port is contrary to R12 or R13, or, while a loopback is armed on it, not its partner
(R136). -/
def State.miscabled (s : State) (n : Nat) (f : NegFlit) : Bool :=
  let lc := s.rd .dist .srvLcal (portTile n)
  let x := fld lc 8 0
  let y := fld lc 17 9
  if lc.getLsbD 30 && (n = x || n = y) then !(f.node == s.node .dist && f.port == (if n = x then y else x))
  else if 272 ≤ n then f.domain == s.domain || f.tier ≠ s.tier || f.port ≠ n
  else if f.domain ≠ s.domain then true
  else if 256 ≤ n then false
  else match s.tier with
    | 1 => f.port / 2 ≠ s.domain || f.port % 2 ≠ n % 2 || 4 ≤ f.port || s.groupClash 2 n f.node
    | 2 | 4 => 128 ≤ n || f.tier ≠ 1 || f.port ≠ 256 + n % 16 || s.groupClash 16 n f.node
    | 3 => f.tier ≠ 2 || f.port ≠ 256 + n % 16 || s.groupClash 16 n f.node
    | 5 => f.tier ≠ 4 || f.port ≠ 256 + n % 16 || s.groupClash 16 n f.node
    | _ => true

/-- NEG: the far end's content is kept and checked; the port refuses with a fault code or goes on to CALIBRATE (R116, R117). A
failed flit is discarded (R100). -/
def recvNeg (port : Port) (f : NegFlit) (crcOk : Bool) (s : State) : State :=
  let p := port.part
  let n := port.num
  if !crcOk then s.protoDrop p n
  else if s.portState p n ≠ 4 then s else
  let s1 := s.wr p .prtPeer (BitVec.ofNat 32 (f.node % 2 ^ 20 + 2 ^ 20 * (f.port % 512) + 2 ^ 29 * (f.domain % 2))) n
  if f.fault ≠ 0 then s1.portFault p n (f.fault % 16) else
  let own := s.versions p n
  let agreed := min own.2 f.vmax
  let code := if agreed < own.1 || agreed < f.vmin then 1
    else if p = .dist && s.miscabled n f then 2
    else if ((s.prt p n).fec == 1) != f.strong then 3 else 0
  if code ≠ 0 then (s1.sendFlit p n (some 5) (s.negFields p n code)).portFault p n code
  else
    ((s1.setF p .prtState 23 20 agreed n).portTo p n 5).modPrt p n fun v => { v with calWait := true }

/-! ### Acknowledgement and replay (R108, R109) -/

/-- An acknowledgement frees the frames of a space up to `ack`; a bulk frame freed brings its transfer forward (R108, R123). -/
def State.ackSpace (s : State) (p : PartId) (n ack : Nat) (express : Bool) : State :=
  let freed := (s.part p).sent.filter fun f => f.inReplay n express && seqLe f.seq ack
  if freed.isEmpty then s else
  let now := s.ht p
  let s1 := s.mod p fun q => { q with sent := q.sent.filter fun f => !(f.inReplay n express && seqLe f.seq ack) }
  s1.modPrt p n fun v =>
    let v1 := if express then { v with advExp := now } else { v with advNorm := now }
    { v1 with bulk := v1.bulk.map fun b => { b with left := b.left - (freed.filter fun f => f.xfer == some b.tag).length } }

/-- Acknowledgements and credit of an ACK or IDLE flit (R106, R108), after what the transmitter has sent until now. The credit is what the far end
can take beyond what it has acknowledged; flits started and not acknowledged use it up (log entry 12). -/
def State.acks (s : State) (p : PartId) (n ackE ackN credit : Nat) : State :=
  let s1 := ((s.pump p n).ackSpace p n ackE true).ackSpace p n ackN false
  (s1.modPrt p n fun v => { v with credit := credit - s1.bufUse p n false }).pump p n

/-- IDLE: acknowledgements, credit and the far end's view of the spare lane (R100, R106, R119). -/
def recvIdle (port : Port) (ackE ackN credit : Nat) (spare crcOk : Bool) (s : State) : State :=
  let p := port.part
  let n := port.num
  if !crcOk then s.protoDrop p n
  else if !s.linkRuns p n then s
  else (s.setF p .prtState 13 13 (b2n spare) n).acks p n ackE ackN credit

/-- ACK (R108). -/
def recvAck (port : Port) (ackE ackN credit : Nat) (crcOk : Bool) (s : State) : State :=
  let p := port.part
  let n := port.num
  if !crcOk then s.protoDrop p n
  else if !s.linkRuns p n then s else s.acks p n ackE ackN credit

/-- Replays a space from a sequence number (R108, R109): each frame waits to be sent once more, with RETX = 1, in its place of the priority order,
and one sent 8 times sends the port to DETECT. -/
def State.replay (s : State) (p : PartId) (n : Nat) (express : Bool) (from_ : Nat) : State :=
  let hit (f : Sent) : Bool := f.inReplay n express && seqLe from_ f.seq
  let s1 := (s.mod p fun q => { q with sent := q.sent.map fun f => if hit f then { f with sends := f.sends + 1, retx := true, again := true } else f })
  let s2 := s1.bump p .prtCntRetry 31 0 1 n
  if (s2.part p).sent.any fun f => hit f && decide (8 ≤ f.sends) then
    let s3 := (s2.setB p .prtStat 3 n).portEvent p n 3
    if s3.portState p n = 6 then s3.toDetect p n true else s3
  else s2.pump p n

/-- NAK: a frame of the space that is partly sent is abandoned, and every unacknowledged one from the named SEQ is resent (R108). -/
def recvNak (port : Port) (express : Bool) (seq : Nat) (crcOk : Bool) (s : State) : State :=
  let p := port.part
  let n := port.num
  if !crcOk then s.protoDrop p n
  else if !s.linkRuns p n then s else
  let s1 := s.pump p n
  (s1.modPrt p n fun v => if express then { v with express := 0 } else { v with normal := 0 }).replay p n express (seq % 65536)

/-- RETRAIN flit: the receiving port enters DETECT (R100, R116). An LCTL flit of a subtype that R100 does not define is discarded and counted; the
others have meanings of their own. -/
def recvRetrain (port : Port) (sub : Byte) (crcOk : Bool) (s : State) : State :=
  let p := port.part
  let n := port.num
  if !crcOk || sub = 0 || 6 < sub.toNat then s.protoDrop p n
  else if sub ≠ 6 then s
  else if s.portState p n = 6 then s.toDetect p n true else s

/-- REPLAY_TIMEOUT: no acknowledgement has advanced a space for 4 µs (LL) or 16 µs (strong); it is replayed from its oldest frame
(R109). -/
def replayTimeout (port : Port) (express : Bool) (s0 : State) : State :=
  let p := port.part
  let n := port.num
  if !s0.linkRuns p n then s0 else
  let s := s0.pump p n
  match (s.part p).sent.find? fun f => f.inReplay n express with
  | none => s
  | some f =>
    let v := s.prt p n
    let wait : HT := if s.strongFec p n then 4096000 else 1024000
    let s1 := s.reach p ((if express then v.advExp else v.advNorm) + wait)
    let now := s1.ht p
    (s1.modPrt p n fun w => if express then { w with advExp := now } else { w with advNorm := now }).replay p n express f.seq

/-- The acknowledgement fields a port sends: the last SEQ delivered in each space, and the credit it grants, which the spec
leaves to the receiver (log entry 2). -/
def State.ackFields (s : State) (p : PartId) (n : Nat) : List Nat × State :=
  let v := s.prt p n
  let d := s.draw
  ([(v.rxExp + 65535) % 65536, (v.rxNorm + 65535) % 65536, d.1.toNat % 65536], d.2)

/-- A single flit's IDLE content (R100, R119). -/
def State.idleFlit (s : State) (p : PartId) (n : Nat) : State :=
  let r := s.ackFields p n
  r.2.sendFlit p n none ([s.node p, (s.ht p).toNat] ++ r.1 ++ [s.fd p .prtState 14 14 n])

/-- HEARTBEAT_DUE: HB_MAX after the last IDLE flit one is forced at the next place that does not lie inside an express frame (R100, R105). -/
def heartbeatDue (port : Port) (s : State) : State :=
  let p := port.part
  let n := port.num
  if !s.linkRuns p n then s else
  let s0 := s.pump p n
  let s1 := (s0.reach p ((s0.prt p n).lastIdle + BitVec.ofNat 64 (2048 * s.fd p .prtCfg 23 16 n))).pump p n
  let v := s1.prt p n
  let d := v.place + v.express
  let s2 := s1.reach p (s1.placeHt p n d)
  (s2.modPrt p n fun w => { w with place := d + 1, express := 0, lastIdle := s2.ht p, ackDue := false }).idleFlit p n

/-- ACK_DUE: an ACK flit at most 128 ns after frames were received (R108). -/
def ackDueFlit (port : Port) (s : State) : State :=
  let p := port.part
  let n := port.num
  if !s.linkRuns p n || !(s.prt p n).ackDue then s else
  let r := s.ackFields p n
  (r.2.sendFlit p n (some 1) r.1).modPrt p n fun v => { v with ackDue := false }

/-- A NAK flit names the space and the expected SEQ (R108). -/
def State.sendNak (s : State) (p : PartId) (n : Nat) (express : Bool) : State :=
  let v := s.prt p n
  s.sendFlit p n (some 2) [b2n express, if express then v.rxExp else v.rxNorm]

/-- NAK_REPEAT: every 256 ns until the expected frame arrives (R108). -/
def nakRepeat (port : Port) (express : Bool) (s : State) : State :=
  let p := port.part
  let n := port.num
  let v := s.prt p n
  if s.linkRuns p n && (if express then v.nakExp else v.nakNorm) then s.sendNak p n express else s

/-! ### Receiving a frame (R101–R103, R107, R108, R111) -/

/-- Flits of the longest frame of a class (R102). -/
def maxFlits : Nat → Nat
  | 1 => 2 | 2 => 16 | 3 => 2 | 4 => 256 | 5 => 16 | 6 => 67 | _ => 0

/-- TYPE values that the users of a class define (R102, R130, R174, R276, R304, R332, R339, R360, R413). -/
def typeDefined (cls ty : Nat) (data : List Byte) : Bool :=
  match cls with
  | 1 => (decide (1 ≤ ty) && decide (ty ≤ 4)) || ty == 0xFF
  | 2 => (decide (0x10 ≤ ty) && decide (ty ≤ 0x14)) || (decide (0x20 ≤ ty) && decide (ty ≤ 0x23))
         || (decide (0x30 ≤ ty) && decide (ty ≤ 0x33)
              && (ty ≠ 0x32 || (decide (1 ≤ (data.headD 0).toNat) && decide ((data.headD 0).toNat ≤ 10))))
         || ty == 0x40 || ty == 0x41
         || (decide (0x50 ≤ ty) && decide (ty ≤ 0x53)) || ty == 0x60 || (decide (0x80 ≤ ty) && decide (ty ≤ 0x8F))
  | 3 => ty == 1
  | 4 => decide (1 ≤ ty) && decide (ty ≤ 6)
  | 5 => decide (1 ≤ ty) && decide (ty ≤ 3)
  | 6 => decide (1 ≤ ty) && decide (ty ≤ 5)
  | _ => false

/-- The 24 header bytes of R101 and the payload without pad, as a frame; answers SEQ too. -/
def parseFrame (hdr body : List Byte) : Frame × Nat :=
  let w (lo n : Nat) : Nat := leNat ((hdr.drop lo).take n)
  let padB := w 20 2 % 64
  ({ cls := w 0 2 % 16, ty := bits (w 0 2) 11 4, tsi := bit (w 0 2) 12, nojob := bit (w 0 2) 14, handle := w 2 2, gen := w 4 1,
     epoch := w 8 4, origin := BitVec.ofNat 64 (w 12 8), data := body.take (body.length - padB), flits := w 5 1 + 1 }, w 6 2)

/-- A frame with a good CRC that R102 discards, or a BULK frame of a TYPE that a TSU does not receive (R435). -/
def protoBad (p : PartId) (f : Frame) : Bool :=
  (p = .tsu && f.cls = 6 && decide (f.ty < 4)) ||
  f.cls = 0 || 7 ≤ f.cls || maxFlits f.cls < f.flits || (f.tsi && f.cls ≠ 1 && f.cls ≠ 2) || !typeDefined f.cls f.ty f.data

/-- A failed CRC or an unexpected SEQ: the frame and the later ones of its space are discarded, and a NAK asks for the expected
one (R108). -/
def State.rejectFrame (s : State) (p : PartId) (n : Nat) (express : Bool) : State :=
  let v := s.prt p n
  if (if express then v.nakExp else v.nakNorm) then s else
  (s.modPrt p n fun w => if express then { w with nakExp := true } else { w with nakNorm := true }).sendNak p n express

/-- A TIME or STEP frame's delimiter crosses the receiver's PCS–PMA boundary: a marker pulse (R91). -/
def State.rxMark (s : State) (p : PartId) (n : Nat) (hdr : List Byte) : State :=
  let cls := leNat (hdr.take 2) % 16
  if cls = 1 || cls = 2 then s.modPrt p n fun v => { v with markRx := v.markRx + 1 } else s

/-- The link layer's receipt of one whole frame (R101–R108): header, payload and pad bytes, CRC as received, EXP tag, the block's T_dec in 1/25 hu
and the START flit's place in it. A frame whose bytes are not those of LEN + 1 flits has no CRC where END puts it, and fails (log entry 128). A BULK
frame on an upstream or peer port that R102 discards is counted by R102 alone (log entry 132). CAL frames end here (R114). `drop` says which frames
a distributor drops from a fenced node (R310). -/
def State.frameIn (s0 : State) (p : PartId) (n : Nat) (exp : Bool) (hdr body : List Byte) (crc : Word) (tdec : Int) (d : Nat)
    (drop : Frame → Bool) : State :=
  if !s0.linkRuns p n then s0 else
  let s := s0.rxMark p n hdr
  if crc32 (hdr ++ body) ≠ crc || body.length + 28 ≠ 62 * ((hdr.getD 5 0).toNat + 1) then (s.bump p .prtCntCrc 31 0 1 n).rejectFrame p n exp else
  let (f, seq) := parseFrame hdr body
  let e := isExpress f.cls
  let v := s.prt p n
  if seq ≠ (if e then v.rxExp else v.rxNorm) then s.rejectFrame p n e else
  let s1 := s.setPrt p n (if e then { v with rxExp := (seq + 1) % 65536, nakExp := false, ackDue := true }
                          else { v with rxNorm := (seq + 1) % 65536, nakNorm := false, ackDue := true })
  if protoBad p f then s1.protoDrop p n
  else if f.cls = 6 && p = .dist && 256 ≤ n then s1.bump p .prtCntBulkdisc 31 0 1 n
  else if f.cls = 1 && f.ty = 0xFF then
    if s.downstreamEnd p n then s1.surveyCal p n (s.rxLane p n d) (BitVec.ofNat 64 (leNat (f.data.take 8))) (s.rxStamp p n tdec d) else s1
  else if drop f then s1.bump p .mbrCnt 31 16 1
  else
    let x : Delivered := { port := n, frame := f, rxts := if f.cls ≤ 2 then s.rxStamp p n tdec d else 0, uncal := !s.bt p .prtState 15 n }
    s1.mod p fun q => { q with delivered := q.delivered ++ [x] }

/-! ### Latency calibration (R113, R114) -/

/-- A port's latency calibration becomes due while UP: its temperature band changed or its link unit was calibrated (R114). -/
def State.calDue (s : State) (p : PartId) (unit : Nat) : State :=
  (portNums p).foldl (fun t n =>
    if t.portState p n = 6 && linkUnit p n == unit then t.modPrt p n fun v => { v with calWait := true } else t) s

/-- LATENCY_CALIBRATION: a due calibration starts, unless a swap is in progress, and sends its CAL frames; with the link unit uncalibrated it ends at
once, and in CALIBRATE the port enters UP with TSCAL = 0 (R114). -/
def latencyCalibration (port : Port) (s : State) : State :=
  let p := port.part
  let n := port.num
  let v := s.prt p n
  let st := s.portState p n
  if !(st = 5 || st = 6) || !v.calWait || v.calibrating || v.swap.isSome then s
  else if s.bt p .tdcCalst 30 (linkUnit p n) then
    let s1 := s.modPrt p n fun w => { w with calWait := false }
    if st = 5 then (s1.setF p .prtState 15 15 0 n).portUp p n else s1
  else ((s.modPrt p n fun w => { w with calWait := false, calibrating := true, calRun := some {} }).linkSelect p n).pump p n

/-- Mean of 256 candidates given as their sum in 1/25 hu, rounded half up to hu (R114). -/
def latMean (sum : Int) : Nat := wrapInt 16 ((2 * sum + 6400) / 12800)

/-- Time for the CAL frames that a calibration still has to send, 16 ns each (R114). -/
def State.calLeft (s : State) (p : PartId) (n : Nat) : Nat :=
  match (s.prt p n).calRun with
  | some c => 4096 * (256 * (if mapLane (s.dirMap p n 0) 4 = 7 then 4 else 5) - c.sent)
  | none => 0

/-- LATENCY_CALIBRATION_DONE: the sums of the 256 candidates of each physical lane, in 1/25 hu, transmit and receive; a lane with
no CAL frames gives none. By then every CAL frame has gone. All values replace the old ones together (R114). -/
def latencyDone (port : Port) (tx rx : List (Option Int)) (s0 : State) : State :=
  let p := port.part
  let n := port.num
  if !(s0.prt p n).calibrating then s0 else
  let s := (s0.reach p (s0.ht p + BitVec.ofNat 64 (s0.calLeft p n))).pump p n
  let put (name : RegName) (t : State) (l : Nat) (o : Option Int) : State := match o with
    | some x => t.wr p name (BitVec.ofNat 32 (latMean x)) n l
    | none => t
  let s1 := (List.range 5).foldl (fun t l => put .prtRxlat (put .prtTxlat t l (tx.getD l none)) l (rx.getD l none)) s
  let s2 := ((s1.setF p .prtState 15 15 1 n).setB p .prtStat 5 n).modPrt p n fun w => { w with calibrating := false, calRun := none }
  let s3 := (s2.holdUnit p (linkUnit p n)).jnl (prtWho p n 3) 0x0301 (pay [(0, 1, 2), (1, 1, n), (2, 1, 0)])
  if s.portState p n = 5 then s3.portUp p n else s3

/-! ### The spare lane (R119–R121) -/

/-- The first block of a direction whose start at the PMA is at or after `t`, and the HT from which it has begun (R99, R120). Block 0 starts with
NEGOTIATE (log entry 9); `lat` is the lane's latency in hu, negative for the receive direction. -/
def State.blockFrom (s : State) (p : PartId) (n : Nat) (t : HT) (lat : Int) : Nat :=
  let v := s.prt p n
  ceilDiv (25 * (htDiff t v.negAt - lat) - v.negFrac).toNat (blockLen (s.strongFec p n))

/-- The HT from which a block of a direction has begun at the PMA. -/
def State.blockHt (s : State) (p : PartId) (n b : Nat) (lat : Int) : HT :=
  let v := s.prt p n
  v.negAt + BitVec.ofInt 64 ((v.negFrac + b * blockLen (s.strongFec p n) + 25 * lat + 24) / 25)

/-- The block nearest to block `b` whose number has the bits [31:0] given (R100). -/
def nearBlock (b : Nat) (low : Word) : Nat := (b + (low - BitVec.ofNat 32 b).toInt).toNat

/-- The spare of a direction is trained and free (R119, R120). -/
def State.spareReady (s : State) (p : PartId) (n dir : Nat) : Bool :=
  mapLane (s.dirMap p n dir) 4 ≠ 7 && s.bt p .prtState (if dir = 0 then 13 else 14) n

/-- The signed latency of the lane that a logical lane of a direction uses. -/
def State.laneLat (s : State) (p : PartId) (n dir ln : Nat) : Int :=
  let ph := mapLane (s.dirMap p n dir) ln
  if dir = 0 then (s.fd p .prtTxlat 15 0 n ph : Int) else -(s.fd p .prtRxlat 15 0 n ph : Int)

/-- The outcome of a swap request for target `t` (R120). -/
def State.swapCode (s : State) (p : PartId) (n dir : Nat) (t : HT) : Code :=
  let v := s.prt p n
  let now := s.ht p
  let notUp := s.portState p n ≠ 6
  firstFail false false (noSign t now || decide (htDiff t now < 512000)) false (notUp || !s.spareReady p n dir)
    (!notUp && (v.swap.isSome || v.calibrating))

/-- A swap is in progress: TSI frames of the transmit direction wait (R120). -/
def State.beginSwap (s : State) (p : PartId) (n : Nat) (w : Swap) : State :=
  (s.modPrt p n fun v => { v with swap := some w, holdTsi := v.holdTsi || w.dir = 0 }).setF p .prtState 12 12 1 n

/-- A swap request of this end, by register (trigger 0) or by trend (trigger 1); its target is PRT_Pp_SWAP_AT, or where that is zero the present HT
plus SWAP_LEAD (R120). -/
def State.requestSwap (s : State) (p : PartId) (n dir ln trig : Nat) : Code × State :=
  let at_ : HT := BitVec.ofNat 64 ((s.rd p .prtSwapAtLo n).toNat + 2 ^ 32 * (s.rd p .prtSwapAtHi n).toNat)
  let t := if at_ = 0 then s.ht p + BitVec.ofNat 64 (256000 * s.fd p .prtCfg 31 24 n) else at_
  let c := s.swapCode p n dir t
  if c ≠ .ok then
    let s1 := s.swapRec p n dir ln trig c
    (c, if c = .busy then s1.portEvent p n 7 else s1)
  else
    let lat := s.laneLat p n dir ln
    let b := s.blockFrom p n t lat
    let w : Swap := { dir := dir, lane := ln, block := b, at_ := s.blockHt p n b lat, remote := false, trig := trig }
    (.ok, (s.beginSwap p n w).sendFlit p n (some 3) [dir, ln, b % 2 ^ 32])

/-- A write to PRT_Pp_SWAP (R120). -/
def State.prtSwapWrite (s : State) (p : PartId) (n : Nat) (v : Word) : Code × State := s.requestSwap p n (fld v 2 2) (fld v 1 0) 0

/-- SWAP_REQ: the far end names its own direction, the logical lane and bits [31:0] of the target block; this end copies the lane onto the spare or
deskews it (R120). A request it cannot take is journalled. -/
def recvSwapReq (port : Port) (farDir : Fin 2) (ln : Fin 4) (block : Word) (crcOk : Bool) (s : State) : State :=
  let p := port.part
  let n := port.num
  if !crcOk then s.protoDrop p n
  else if s.portState p n ≠ 6 then s else
  let dir := 1 - farDir.val
  let b := nearBlock (s.placeNow p n / placesPerBlock (s.strongFec p n)) block
  let at_ := s.blockHt p n b (s.laneLat p n dir ln.val)
  if s.swapCode p n dir at_ ≠ .ok then s.portEvent p n 7
  else s.beginSwap p n { dir := dir, lane := ln, block := b, at_ := at_, remote := true }

/-- A swap ends at this end: the lane map takes the spare, whose survey begins anew, the old lane is retired, status bits and, at the end that asked,
the spare record (R119, R120, R134). -/
def State.swapEnds (s : State) (p : PartId) (n : Nat) (w : Swap) (late : Nat) : State :=
  let m := s.dirMap p n w.dir
  let old := mapLane m w.lane
  let s0 := if w.remote then s else s.swapRec p n w.dir w.lane w.trig (if late = 0 then .ok else .late)
  let m1 := setBits (setBits m (3 * w.lane + 2) (3 * w.lane) (mapLane m 4)) 14 12 7
  let s1 := if w.dir = 0 then (s0.setF p .prtLmap 14 0 m1 n).surveyMapIn p n [] [mapLane m 4]
            else (s0.setF p .prtLmap 30 16 m1 n).surveyMapIn p n [mapLane m 4] []
  let s2 := (s1.setB p .prtStat 7 n).setF p .prtState 12 12 0 n
  let s3 := if late = 0 then s2 else (s2.setB p .prtStat 6 n).wr p .prtSwlate (BitVec.ofNat 32 (satNat 32 late)) n
  let s4 := s3.modPrt p n fun v => { v with
    swap := none, holdTsi := false, retired := v.retired ||| 2 ^ (old + if w.dir = 0 then 0 else 5) }
  let s5 := s4.setF p .prtState (if w.dir = 0 then 13 else 14) (if w.dir = 0 then 13 else 14) 0 n
  ((s5.retireLane p n old).lifCount p 64 1).pump p n

/-- The lateness in hu of a swap that falls on block `b` in place of its target (R120). -/
def State.swapLate (s : State) (p : PartId) (n : Nat) (w : Swap) (b : Nat) : Nat := ((b - w.block) * blockLen (s.strongFec p n) + 12) / 25

/-- SWAP_SWITCH: the receiver switches at block B, or at the first block at which it is ready, of which `ready` are bits [31:0], and sends SWAP_ACK
(R120). -/
def swapSwitch (port : Port) (ready : Word) (s : State) : State :=
  let p := port.part
  let n := port.num
  match (s.prt p n).swap with
  | none => s
  | some w =>
    if w.dir = 0 || s.portState p n ≠ 6 then s else
    let b := max w.block (nearBlock w.block ready)
    let late := s.swapLate p n w b
    let s1 := s.reach p (w.at_ + BitVec.ofNat 64 late)
    (s1.sendFlit p n (some 4) [b % 2 ^ 32]).swapEnds p n w late

/-- SWAP_ACK: the transmitter takes its map for the block named and resumes TSI frames; a later block than B ends the swap with
LATE (R120). -/
def recvSwapAck (port : Port) (block : Word) (crcOk : Bool) (s : State) : State :=
  let p := port.part
  let n := port.num
  if !crcOk then s.protoDrop p n else
  match (s.prt p n).swap with
  | none => s
  | some w =>
    if w.dir = 1 || s.portState p n ≠ 6 then s else s.swapEnds p n w (s.swapLate p n w (nearBlock w.block block))

/-! ### Bulk stream (R122, R123) -/

/-- Reports a transfer on the stream's status pins. -/
def State.bulkReport (s : State) (n tag : Nat) (c : Code) : State :=
  { s with tsu := { s.tsu with bulkSts := s.tsu.bulkSts ++ [(n, tag, c)] } }

/-- Takes a transfer on a port of the TSU, with the job fields given; its frames are queued as BSp_READY lets the host push (R123). -/
def State.bulkQueue (s : State) (n tag slot ty addr handle gen epoch : Nat) (d : List Byte) : State :=
  let b : BulkXfer := { tag := tag, slot := slot, ty := ty, addr := addr, bytes := d.length, left := 0, job := (handle, gen, epoch), rest := d }
  (s.modPrt .tsu n fun v => { v with bulk := v.bulk ++ [b] }).pump .tsu n

/-- BULK_TRANSFER_DONE: a transfer with every frame acknowledged reports OK (R123). -/
def bulkDone (n : Fin 4) (tag : Nat) (s : State) : State :=
  let v := s.prt .tsu n.val
  match v.bulk.find? fun b => b.tag == tag && b.left == 0 && b.rest.isEmpty with
  | some b => (s.setPrt .tsu n.val { v with bulk := v.bulk.erase b }).bulkReport n.val tag .ok
  | none => s

/-- A TSU that becomes FENCED takes and discards what the host has still to push of each transfer, and reports FENCED (R123). -/
def State.bulkFenced (s : State) : State :=
  (List.range nPort).foldl (fun t n =>
    let v := t.prt .tsu n
    let cut := v.bulk.filter fun b => !b.rest.isEmpty
    let t1 := t.setPrt .tsu n { v with bulk := v.bulk.filter fun b => b.rest.isEmpty }
    let t2 := t1.mod .tsu fun q => { q with
      sent := q.sent.filter fun f => !(f.onPort n && !f.started && cut.any fun b => f.xfer == some b.tag) }
    cut.foldl (fun u b => u.bulkReport n b.tag .fenced) t2) s

end Sys2Proof.Machine
end

