-- ==== Sys2Proof/Machine/Wicks.lean ====
section
/-!
DEFINITION. Wicks, taper and pre-light (R182–R190), and the evaluation of conditions for wicks and waiting contexts (R181, R245).
-/
namespace Sys2Proof.Machine

def State.wick (s : State) (n : Nat) : Wick := mget (fun _ => {}) s.wicks n

/-- WICKn as it leaves the part: 1 while the wick is ASSERTED, and 0 while the TSU is FENCED (R183, R186). -/
def State.wickPin (s : State) (n : Nat) : Bool := (s.wick n).state == 3 && !s.fenced

/-- A wick unbound: what its acknowledge and its latest rise leave (R183, R184, R191). -/
def Wick.unbound (w : Wick) : Wick := { ackHeld := w.ackHeld, litAt := w.litAt, last := w.last }

def State.setWick (s : State) (n : Nat) (w : Wick) : State := { s with wicks := mset (fun _ => {}) s.wicks n w }

/-- SOB_WKn_CFG.BIND of a wick that becomes UNBOUND in state `st` reads 0 (R182, R183; log entry 100). -/
def State.showUnbound (s : State) (n st : Nat) : State := if st = 0 then s.setF .tsu .wkCfg 13 13 0 n else s

/-- A WICK_EVENT record (R365): wick or count, and 0 PL_LATE, 1 PL_MISS, 2 STRAY_ACK. -/
def State.wickEvent (s : State) (n kind : Nat) : State :=
  s.jnl { p := .tsu, blk := 8 } 0x0602 (pay [(0, 2, n), (2, 1, kind)])

/-! ### Evaluation (R181, R183, R245) -/

/-- A wick in BOUND or LIT is evaluated: a met condition is consumed; BOUND goes to PENDING, LIT to BOUND or UNBOUND (R183). -/
def State.evalWick (s : State) (n : Nat) : State :=
  let w := s.wick n
  let o := s.obj .tsu w.obj
  if (w.state ≠ 1 && w.state ≠ 4) || oMode o.word = 0 || oDirty o.word || !condMet o.word w.thr (s.ht .tsu) then s else
  let s1 := s.consume .tsu w.obj w.thr w.consume
  if w.state = 1 then s1.setWick n { w with state := 2, prelit := false, deferred := false }
  else
    let st := if w.oneshot then 0 else 1
    (s1.setWick n { w with state := st, prelit := false }).showUnbound n st

/-- Evaluates a wick on entry to BOUND or LIT, twice, since a LIT wick that is met at once may enter BOUND (R181). -/
def State.enterWick (s : State) (n : Nat) : State := (s.evalWick n).evalWick n

/-- A waiting context is evaluated against its object: STATE once the object is UNUSED or DIRTY, OK once the condition is met
(R245). -/
def State.evalCtx (s : State) (e : EngSel) (c i : Nat) : State :=
  if s.cst e c ≠ 2 then s else
  match (s.ctx e c).wait with
  | some (.obj idx thr consume _ a) =>
    if idx ≠ i then s else
    let w := (s.obj e i).word
    if oMode w = 0 || oDirty w then
      (s.resume e c a (outWord .state 0)).outcome (senWho e c) .state 0x29 (s.pc e c) 0
    else if condMet w thr (s.ht e.part) then (s.consume e i thr consume).resume e c a (outWord .ok 0)
    else s
  | _ => s

/-- Evaluates everything bound to an object: wicks in ascending index, then contexts (R181). -/
def State.evalObject (s : State) (e : EngSel) (i : Nat) : State :=
  let s1 := if e = .tsu then
      (s.wicks.filter fun kv => kv.2.obj == i).foldl (fun t kv => if (t.wick kv.1).state = 4 then t.enterWick kv.1 else t.evalWick kv.1) s
    else s
  (List.range 16).foldl (fun t c => t.evalCtx e c i) s1

/-- CONDITION_EVALUATION: the oldest changed object's conditions are evaluated (R176, R181). -/
def conditionEvaluation (e : EngSel) (s : State) : State :=
  match (s.eng e).evals with
  | [] => s
  | i :: rest => (s.modEng e fun v => { v with evals := rest }).evalObject e i

/-- TIMER_SATISFIED: an armed TIMER reaches its target tick; ARMED clears, the time-stamp takes the tick and its waiters are evaluated. The condition
is evaluated on every tick, so a TIMER satisfied already, whose target a step of HT has put ahead again, wakes its waiters when that tick comes (R169,
R181). -/
def timerSatisfied (e : EngSel) (i : Fin 8192) (s : State) : State :=
  let o := s.obj e i.val
  if oMode o.word ≠ 5 then s
  else if oArmed o.word then
    let s1 := s.reach e.part o.due
    (s1.setObj e i.val { o with word := setDw o.word 51 51 0, stamp := stampOf (s1.ht e.part) }).evalObject e i.val
  else
    let ahead := decide (0 < diff48 (oValue o.word) (tick48 (s.ht e.part)))
    (if ahead then s.reach e.part (s.timerDue e.part (oValue o.word)) else s).evalObject e i.val

/-! ### Binding (R182, R183) -/

/-- The checks of a bind or unbind in their order (R183). `instr` is BIND, which a FENCED TSU refuses. -/
def State.bindCode (s : State) (n slot i thr : Nat) (consume unbind instr : Bool) : Code :=
  let w := s.wick n
  let o := (s.obj .tsu i).word
  if instr && s.fenced then .fenced
  else if nWick ≤ n || (!unbind && condBad o thr consume) then .range
  else if s.slotSt slot = 0 || s.slotSt slot = 6 then .state
  else if !unbind && (oMode o = 0 || oDirty o) then .state
  else if (!unbind && oOwner o ≠ slot) || (w.state ≠ 0 && w.slot ≠ slot) then .perm
  else if 2 ≤ w.state then .busy
  else .ok

/-- Binds a wick: SOB_WKn_CFG and SOB_WKn_THR hold the binding, however it was made, and its condition is evaluated at once
(R181–R183, R191). -/
def State.bindWick (s : State) (n slot i thr : Nat) (consume oneshot : Bool) (region plgrp : Nat) (instr : Bool) : Code × State :=
  let c := s.bindCode n slot i thr consume false instr
  if c ≠ .ok then (c, s) else
  let old := s.wick n
  let w : Wick := { state := 1, slot := slot, obj := i, thr := thr, consume := consume, oneshot := oneshot, region := region,
                    plgrp := plgrp, ackHeld := old.ackHeld, litAt := old.litAt, last := old.last }
  let cfg := 2 ^ 28 * slot + 2 ^ 24 * plgrp + 2 ^ 16 * region + 2 ^ 15 * b2n oneshot + 2 ^ 14 * b2n consume + 2 ^ 13 + i
  let s1 := ((s.wr .tsu .wkCfg (BitVec.ofNat 32 cfg) n).wr .tsu .wkThrLo (BitVec.ofNat 32 thr) n).setF .tsu .wkThrHi 15 0 (thr / 2 ^ 32) n
  (.ok, (s1.setWick n w).enterWick n)

/-- Unbinds a wick (R183). -/
def State.unbindWick (s : State) (n slot : Nat) (instr : Bool) : Code × State :=
  let c := s.bindCode n slot 0 0 false true instr
  if c ≠ .ok then (c, s) else
  (.ok, (s.setWick n (s.wick n).unbound).showUnbound n 0)

/-- A write of SOB_WKn_CFG: BIND = 1 binds with the THR registers, 0 unbinds (R182, R191). -/
def State.wickCfgWrite (s : State) (n : Nat) (v : Word) : Code × State :=
  let slot := fld v 31 28
  let thr := (s.rd .tsu .wkThrLo n).toNat + 2 ^ 32 * s.fd .tsu .wkThrHi 15 0 n
  let r := if v.getLsbD 13 then
      s.bindWick n slot (fld v 12 0) thr (v.getLsbD 14) (v.getLsbD 15) (fld v 23 16) (fld v 27 24) false
    else s.unbindWick n slot false
  if r.1 = .ok then (.ok, r.2.wr .tsu .wkCfg v n) else r

/-- A slot's release unbinds its wicks; one PENDING or ASSERTED leaves its object DIRTY (R183). -/
def State.releaseWicks (s : State) (slot : Nat) : State :=
  (s.wicks.filter fun kv => kv.2.state ≠ 0 && kv.2.slot == slot).foldl (fun t kv =>
    let w := kv.2
    let t1 := (t.setWick kv.1 w.unbound).showUnbound kv.1 0
    if w.state = 2 || w.state = 3 then t1.makeDirty w.obj else t1) s

/-! ### Rising and acknowledge (R183–R187) -/

/-- One PENDING wick on a time-clock edge: it rises if its region has budget left in the window and WACKn is 0, else it is
deferred and counted once (R184, R187). A WACKn still 1 more than 64 ns after the wick fell sets STRAY_ACK (R184). -/
def State.tryAssert (s : State) (n : Nat) : State :=
  let w := s.wick n
  if w.state ≠ 2 then s
  else if w.ackHeld then (if htDiff (s.ht .tsu) w.litAt ≤ 16640 then s else s.setB .tsu .sobStat 7)
  else
    let tmax := s.fd .tsu .sobCfg 7 0
    let used := mget (fun _ => 0) s.taper.2 w.region
    if tmax ≠ 0 && decide (tmax ≤ used) then
      if w.deferred then s else ((s.setWick n { w with deferred := true }).bump .tsu .sobCnt 15 0 1).setB .tsu .sobStat 4
    else
      let now := s.ht .tsu
      let s1 := { s with taper := (s.taper.1, mset (fun _ => 0) s.taper.2 w.region (used + 1)) }
      let s2 := s1.setWick n { w with state := 3, deferred := false, last := bits now.toNat 39 8 }
      let sl : Slot := mget (fun _ => {}) s.slots w.slot
      if w.prelit && atOrAfter now w.plAt then
        { s2.setB .tsu .sobStat 6 with
          slots := mset (fun _ => {}) s.slots w.slot { sl with
            prelits := sl.prelits.map fun pl => if pl.id = w.plId then { pl with late := pl.late + 1 } else pl } }
      else s2

/-- The PRELITs of a slot that have no stage left and no pre-lit wick PENDING end; the late risings of one give one record (R189). -/
def State.endPrelits (s : State) (slot : Nat) : State :=
  let sl : Slot := mget (fun _ => {}) s.slots slot
  let goes (pl : Prelit) : Bool := pl.stages.isEmpty &&
    !(s.wicks.any fun kv => kv.2.state == 2 && kv.2.prelit && kv.2.slot == slot && kv.2.plId == pl.id)
  if !sl.prelits.any goes then s else
  (sl.prelits.filter fun pl => goes pl && pl.late != 0).foldl (fun t pl => t.wickEvent pl.late 0)
    { s with slots := mset (fun _ => {}) s.slots slot { sl with prelits := sl.prelits.filter fun pl => !goes pl } }

/-- A slot's PRELITs end with its release, stages and all (R183, R189). -/
def State.dropPrelits (s : State) (slot : Nat) : State :=
  let sl : Slot := mget (fun _ => {}) s.slots slot
  State.endPrelits { s with slots := mset (fun _ => {}) s.slots slot { sl with prelits := sl.prelits.map fun pl => { pl with stages := [] } } } slot

/-- WICK_ASSERT: on a time-clock edge the PENDING wicks take the budget of the present taper window in ascending index (R187). While
the TSU is FENCED or its time clock is stopped none rises (R184, R186). -/
def wickAssert (s : State) : State :=
  if s.fenced || !s.clockRuns .tsu then s else
  let win := (s.ht .tsu).toNat / 4096
  let s1 := if s.taper.1 = win then s else { s with taper := (win, []) }
  let s2 := (s1.wicks.filter fun kv => kv.2.state == 2).foldl (fun t kv => t.tryAssert kv.1) s1
  (List.range 16).foldl (fun t c => t.endPrelits c) s2

/-- WICK_ACK: WACKn is sampled 1 (R183, R184). An ASSERTED wick falls and moves on; any other sets STRAY_ACK. `held` says that WACKn
stays 1 after WICKn falls; a WACKn so held is back at 0 with a WICK_ACK that holds no longer. While FENCED it is not sampled
(R186), nor while the time clock, on which it is synchronised, is stopped. -/
def wickAck (n : Fin 256) (held : Bool) (s : State) : State :=
  if s.fenced || !s.clockRuns .tsu then s else
  let w := s.wick n.val
  if w.state = 3 then
    let st := if w.prelit then 4 else if w.oneshot then 0 else 1
    ((s.setWick n.val { w with state := st, ackHeld := held, litAt := s.ht .tsu }).showUnbound n.val st).enterWick n.val
  else if w.ackHeld && !held then s.setWick n.val { w with ackHeld := false }
  else ((s.setWick n.val { w with ackHeld := held }).setB .tsu .sobStat 7).wickEvent n.val 2

/-- PL_HOLD_EXPIRY: a LIT wick unmet for PL_HOLD returns to BOUND with PL_MISS (R183); the timer does not run while FENCED (R186). -/
def plHoldExpiry (n : Fin 256) (s : State) : State :=
  let w := s.wick n.val
  if s.fenced || w.state ≠ 4 then s else
  let s1 := s.reach .tsu (w.litAt + BitVec.ofNat 64 (256000 * s.fd .tsu .sobPlCfg 7 0))
  (((s1.setWick n.val { w with state := 1, prelit := false }).setB .tsu .sobStat 5).wickEvent n.val 1).enterWick n.val

/-! ### Pre-light (R189, R274) -/

/-- The instants of a PRELIT's stages: T_i of R189, moved to P for the slot's first launch (R274). -/
def plStages (l : HT) (groups : List Nat) (lead step pre : Nat) (first : Bool) : List (HT × Nat) :=
  let n := groups.length
  let p := l - BitVec.ofNat 64 (256 * pre)
  (List.range n).map fun i =>
    let t := ceilTick (l - BitVec.ofNat 64 (256 * (lead + (n - 1 - i) * step)))
    (if first && (i = 0 || after p t) then p else t, groups.getD i 0)

/-- A stage of a PRELIT begins: BOUND wicks of the slot's group become PENDING, marked (R189). -/
def State.plBegin (s : State) (slot group : Nat) (pl : Prelit) : State :=
  (s.wicks.filter fun kv => kv.2.state == 1 && kv.2.slot == slot && kv.2.plgrp == group).foldl (fun t kv =>
    t.setWick kv.1 { kv.2 with state := 2, prelit := true, deferred := false, plId := pl.id, plAt := pl.at_ }) s

/-- Begins every stage of a slot that is due. -/
def plDue : Nat → Nat → State → State
  | 0, _, s => s
  | k + 1, slot, s =>
    let sl : Slot := mget (fun _ => {}) s.slots slot
    match sl.prelits.getLast? with
    | some pl => match pl.stages with
      | (t, g) :: rest =>
        if atOrAfter (s.ht .tsu) t then
          let s1 := { s with slots := mset (fun _ => {}) s.slots slot { sl with prelits := sl.prelits.dropLast ++ [{ pl with stages := rest }] } }
          plDue k slot (if s.fenced then s1 else s1.plBegin slot g pl)
        else s
      | [] => s
    | none => s

/-- PRELIT of a slot (R189, R261, R274): outcome and, for LATE, the lateness. -/
def State.prelight (s : State) (slot : Nat) (l : HT) (mask : Nat) : Code × Nat × State :=
  let sl : Slot := mget (fun _ => {}) s.slots slot
  let now := s.ht .tsu
  let waiting := sl.prelits.any fun pl => !pl.stages.isEmpty
  let held := s.slotSt slot ≠ 0
  let c := firstFail s.fenced false (l.toNat % 256 ≠ 0 || noSign l now || mask = 0) false
    (held && !s.bt .tsu .slotState 14 slot) waiting
  if c ≠ .ok then (c, 0, s) else
  let groups := (List.range 16).filter fun g => mask.testBit g
  let st := plStages l groups (s.fd .tsu .sobPlCfg 19 8) (s.fd .tsu .sobPlCfg 31 20) sl.pre (!sl.launched && held)
  let s1 := { s with slots := mset (fun _ => {}) s.slots slot { sl with
    plCount := sl.plCount + 1, prelits := sl.prelits ++ [{ id := sl.plCount, at_ := l, stages := st }] } }
  let s2 := plDue 16 slot s1
  match st with
  | (t0, _) :: _ => if atOrAfter now t0 then (.late, (htDiff now t0).toNat, s2) else (.ok, 0, s2)
  | [] => (.ok, 0, s2)

/-- PRELIGHT_STAGE: the next stage of a slot is due (R189); stages due while FENCED are discarded (R186). -/
def prelightStage (slot : Fin 16) (s : State) : State :=
  let sl : Slot := mget (fun _ => {}) s.slots slot.val
  match sl.prelits.getLast? with
  | some pl => match pl.stages with
    | (t, _) :: _ => plDue 1 slot.val (s.reach .tsu t)
    | [] => s
  | none => s

/-! ### Release (R179) -/

/-- BALANCE_CHECK_DONE: every object of a DRAINING slot is freed or becomes DIRTY (R179); its wicks are unbound first (R183). -/
def balanceDone (slot : Fin 16) (s : State) : State :=
  let sl : Slot := mget (fun _ => {}) s.slots slot.val
  if s.slotSt slot.val ≠ 6 || sl.balanced then s else
  let s1 := (s.releaseWicks slot.val).dropPrelits slot.val
  let owned := s1.ownedBy .tsu slot.val
  let s2 := owned.foldl (fun t i =>
    let o := t.obj .tsu i
    if oDirty o.word then t
    else if wordBalanced o.word o.claim then
      (t.setObj .tsu i { stamp := (t.obj .tsu i).stamp }).modEng .tsu fun v => { v with evals := v.evals ++ [i] }
    else t.makeDirty i) s1
  let n := (owned.filter fun i => oDirty (s2.obj .tsu i).word).length
  { s2 with slots := mset (fun _ => {}) s2.slots slot.val { (mget (fun _ => {}) s2.slots slot.val : Slot) with balanced := true, dirtied := n } }

end Sys2Proof.Machine
end

