-- ==== Sys2Proof/Machine/JobOps.lean ====
section
/-!
DEFINITION. Job slots and job contexts (R252–R277): their registers, the frames of a job, and the operations outstanding for it.
-/
namespace Sys2Proof.Machine

/-! ### Job contexts of the distributor -/

/-- Job context `k`. -/
def State.job (s : State) (k : Nat) : Job := mget (fun _ => {}) s.jobs k

def State.setJob (s : State) (k : Nat) (j : Job) : State := { s with jobs := mset (fun _ => {}) s.jobs k j }

/-- A rank's node, if the rank is live: neither vacant nor fenced (R264). -/
def Job.liveAt (j : Job) (r : Nat) : Option Nat :=
  match j.words[r]? with
  | some w => if w.vacant || j.fenced.contains w.node then none else some w.node
  | none => none

/-- The live members with their ranks (R264). -/
def Job.live (j : Job) : List (Nat × Nat) :=
  ((j.words.zipIdx).filter fun x => !x.1.vacant && !j.fenced.contains x.1.node).map fun x => (x.2, x.1.node)

/-- The rank a node holds in the map in force. -/
def Job.rankOf (j : Job) (node : Nat) : Option Nat := (j.live.find? fun x => x.2 == node).map (·.1)

/-- The job context outside FREE that holds a handle. -/
def State.jobOfHandle (s : State) (h : Nat) : Option Nat :=
  (s.jobs.find? fun kv => kv.2.state ≠ 0 && kv.2.handle == h).map (·.1)

/-- Membership epoch, handle and generation of a job context, for completion records (R239). -/
def State.jobId (s : State) (k : Nat) : Nat × Nat × Nat :=
  let j := s.job k
  (j.epoch, j.handle, j.gen)

/-- A frame of a job context (R101): class STEP is 1, SIG is 2 (R102). -/
def Job.frame (j : Job) (cls ty : Nat) (fields : List Nat) : Frame :=
  { cls := cls, ty := ty, handle := j.handle, gen := j.gen, epoch := j.epoch, fields := fields }

/-- Sends a frame to each of a list of nodes. -/
def State.sendNodes (s : State) (nodes : List Nat) (f : Frame) : State := nodes.foldl (fun t n => t.send .dist (.node n) f) s

/-! ### Job slots of the TSU -/

/-- A slot's structure beyond its registers. -/
def State.slot (s : State) (c : Nat) : Slot := mget (fun _ => {}) s.slots c

def State.setSlot (s : State) (c : Nat) (v : Slot) : State := { s with slots := mset (fun _ => {}) s.slots c v }

def State.modSlot (s : State) (c : Nat) (f : Slot → Slot) : State := s.setSlot c (f (s.slot c))

/-- Moves a slot to a state; only a slot in GATED carries GREPLAY (R254). -/
def State.setSlotSt (s : State) (c v : Nat) : State :=
  let s1 := s.setF .tsu .slotState 2 0 v c
  if v = 3 then s1 else s1.setF .tsu .slotState 6 6 0 c

/-- A frame of a slot's job. -/
def State.slotFrame (s : State) (c cls ty : Nat) (fields : List Nat) : Frame :=
  let id := s.slotId c
  { cls := cls, ty := ty, handle := id.2.1, gen := id.2.2, epoch := id.1, fields := fields }

/-- Completes with a code the operations of a slot that `f` picks (R251). -/
def State.endOps (s : State) (e : EngSel) (c : Nat) (code : Code) (f : Op → Bool) : State :=
  ((s.outstanding e c).filter fun x => f x.2).foldl (fun t x => t.completeOp (some x.1) code) s

/-- Completes with a code the operations of every context of every tile that act for a job context and that `f` picks. -/
def State.endJobOps (s : State) (k : Nat) (code : Code) (f : Op → Bool) : State :=
  (List.finRange 8).foldl (fun t i =>
    ((t.outstandingAll (.tile i)).filter fun x => x.2.job == k && f x.2).foldl (fun u x => u.completeOp (some x.1) code) t) s

/-- A job-scope UPD, whose operation keeps 1 as its sub value (R250). -/
def Op.jobUpd (o : Op) : Bool := o.opcode == 0x3E && o.sub == 1

/-- An operation of a job command (R240). -/
def Op.jobCommand (o : Op) : Bool := o.opcode == 0x35 || o.opcode == 0x36 || o.opcode == 0x3B || o.jobUpd

/-- An operation a FENCED TSU ends (R237, R251): neither JFLUSH nor a local UPD. -/
def Op.jobRelated (o : Op) : Bool := o.opcode ≠ 0x3D && (o.opcode ≠ 0x3E || o.sub == 1)

/-! ### Issue of asynchronous instructions (R238, R239) -/

/-- Issues an asynchronous instruction: the completion object's checks join the instruction's own in the order of R8; a ninth
operation is held; an accepted one takes its tag and `act` carries it out (R198, R235, R239). -/
def State.async (s : State) (e : EngSel) (c opcode sub pc obj job a : Nat) (args : List Nat)
    (fenced range epoch state busy : Bool) (act : OpRef → State → State) : Ends :=
  let oc := s.complCode e c obj
  let code := firstFail fenced (oc = .perm) range epoch (state || oc = .state) busy
  if code ≠ .ok then .done (s.report e c a code 0 opcode pc)
  else match s.accept e c opcode sub pc obj job args with
    | none => .held
    | some (o, s1) => .done (act o (s1.setG e c (Fin.ofNat 32 a) (acceptWord o)))

end Sys2Proof.Machine
end

