-- ==== Sys2Proof/Machine/IsaStep.lean ====
section
/-!
DEFINITION. Step instruction set II, time and sync (R242–R245).
-/
namespace Sys2Proof.Machine

/-! ### Time (R242) -/

/-- HTR. -/
def execHtr (x : CtxRef) (td : Fin 8) (s : State) : Host.Outcome State Fault Refusal :=
  .next (s.issue x (wFT 0x20 td 0 0 0) false 0 fun _ => .done (s.setT x.eng x.ctx td (s.ht x.eng.part)))

/-- TADD: gb in hu, the immediate in ns. -/
def execTadd (x : CtxRef) (td ta : Fin 8) (a : Fin 32) (imm : BitVec 15) (s : State) : Host.Outcome State Fault Refusal :=
  .next (s.issue x (wFT 0x21 td ta a imm.toNat) true 0 fun _ =>
    .done (s.setT x.eng x.ctx td
      (s.t x.eng x.ctx ta + s.g x.eng x.ctx a + BitVec.ofInt 64 (256 * s.immS x.eng x.ctx 15 imm.toNat))))

/-- TDIFF. -/
def execTdiff (x : CtxRef) (td ta : Fin 8) (a : Fin 32) (s : State) : Host.Outcome State Fault Refusal :=
  .next (s.issue x (wFT 0x22 td ta a 0) false 0 fun _ =>
    .done (s.setG x.eng x.ctx a (s.t x.eng x.ctx td - s.t x.eng x.ctx ta)))

/-- What TCMP answers for a signed difference; the difference with no valid sign answers 0. -/
def tRelHolds (r : TRel) (d : HT) : Bool :=
  if d = 0x8000000000000000#64 then false else
  match r with
  | .aft => decide (0 < d.toInt)
  | .bef => decide (d.toInt < 0)
  | .eq => d = 0
  | .nbef => decide (0 ≤ d.toInt)

/-- TCMP. -/
def execTcmp (x : CtxRef) (p : Fin 8) (td ta : Fin 8) (r : TRel) (s : State) : Host.Outcome State Fault Refusal :=
  .next (s.issue x (wFT 0x23 td ta p (tRelNum r)) false 0 fun _ =>
    .done (s.setP x.eng x.ctx p (tRelHolds r (s.t x.eng x.ctx td - s.t x.eng x.ctx ta))))

/-- WAITT. -/
def execWaitt (x : CtxRef) (ta : Fin 8) (a : Fin 32) (s : State) : Host.Outcome State Fault Refusal :=
  .next (s.issue x (wFT 0x24 0 ta a 0) false 0 fun pc =>
    let t := s.t x.eng x.ctx ta
    let now := s.ht x.eng.part
    if noSign t now then .done (s.report x.eng x.ctx a .range 0 0x24 pc)
    else if !after (ceilTick t) now then .done (s.report x.eng x.ctx a .late (satNat 32 (now - t).toNat) 0x24 pc)
    else .wait (.tick t a) s)

/-- WAITT_TARGET: the tick a context waits for is reached, or passed over by a step of HT (R144, R242); while the time clock is stopped, the first
always-on edge at or after the target (R477). -/
def execWaittTarget (e : EngSel) (c : Fin 16) (s : State) : Host.Outcome State Fault Refusal :=
  .next (
    if s.cst e c ≠ 2 then s else
    match (s.ctx e c).wait with
    | some (.tick t a) => (s.reach e.part (s.tickAt e.part t)).resume e c a (outWord .ok 0)
    | _ => s)

/-- A destination in the ga layout of R243: a fine output, or a keeper address and output mask. -/
inductive TrigDest where
  | fine (n : Nat)
  | keeper (addr mask : Nat)
  deriving DecidableEq, Repr

/-- Reads a destination; none for a KIND, a MASK or a nonzero bit that R243 refuses, or an output the part lacks. Whether the keeper is there is
for the arming to say (`State.sendTarm`). -/
def trigDest (e : EngSel) (ga : DWord) : Option TrigDest :=
  let v := ga.toNat
  if v < 8 then (if hasDtc e then some (.fine v) else none)
  else if e = .tsu && v / 2 ^ 62 = 1 && v % 2 ^ 62 < 2 ^ 25 && bits v 15 4 = 0 then
    let addr := bits v 24 16
    let mask := bits v 3 0
    if mask = 0 then none else some (.keeper addr mask)
  else none

/-- Arms a trigger at a destination (R86, R159, R243); a refusal is recorded as a TRIGGER (R9, R365). Answers the code and, for
a keeper target not after HT, LATE with the lateness. -/
def State.armDest (s : State) (e : EngSel) (jctx : Nat) (d : TrigDest) (t : HT) : Code × Nat × State :=
  let now := s.ht e.part
  match d with
  | .fine n =>
    let r := s.armFine e.part (8 * e.tileNo + n) t jctx
    if r.1 = .ok then (.ok, 0, r.2) else (r.1, 0, r.2.trigRec e.part e.tileNo jctx 0 n 0 r.1 t 0)
  | .keeper addr mask =>
    let r := s.sendTarm addr mask t true
    if r.1 ≠ .ok then (r.1, 0, r.2.trigRec .tsu 0 jctx 1 mask addr r.1 t 0)
    else if after t now then (.ok, 0, r.2) else (.late, (now - t).toNat, r.2)

/-- The lateness of a fine trigger just armed whose edge falls less than 4 ns ahead, which ends with LATE (R87). -/
def State.armLate (s : State) (e : EngSel) (d : TrigDest) (t : HT) : Option Nat :=
  match d with
  | .fine n =>
    let p := e.part
    let i := 8 * e.tileNo + n
    let ins := BitVec.ofNat 64 (s.fd p .dtcIns 11 0 i)
    let t2 := t + BitVec.ofInt 64 (sext 12 (s.fd p .dtcCfg 31 20 i))
    let lead := s.ht p + 1024#64
    if after lead (s.edgeBefore p (t2 - ins)) then some (htDiff ((s.advanced p lead).ht + ins) t2).toNat else none
  | .keeper _ _ => none

/-- TRIG. The record of a late trigger is written when it fires (R365). -/
def execTrig (x : CtxRef) (ta : Fin 8) (a : Fin 32) (imm : BitVec 15) (s : State) : Host.Outcome State Fault Refusal :=
  .next (s.issue x (wFT 0x25 0 ta a imm.toNat) true 0 fun pc =>
    let t := s.t x.eng x.ctx ta + BitVec.ofInt 64 (256 * s.immS x.eng x.ctx 15 imm.toNat)
    match trigDest x.eng (s.g x.eng x.ctx a) with
    | none => .done (s.report x.eng x.ctx a .range 0 0x25 pc)
    | some d =>
      let r := s.armDest x.eng x.ctx d t
      match r.1, s.armLate x.eng d t with
      | .ok, some l => .done (r.2.2.reportQuiet x.eng x.ctx a .late (satNat 32 l))
      | c, _ => .done (r.2.2.reportQuiet x.eng x.ctx a c (satNat 32 r.2.1)))

/-- CAPT: `ch` bit 4 is the unit, bits 3 to 0 the channel. -/
def execCapt (x : CtxRef) (td : Fin 8) (a : Fin 32) (ch : BitVec 5) (s : State) : Host.Outcome State Fault Refusal :=
  .next (s.issue x (wFT 0x26 td 0 a ch.toNat) false 0 fun pc =>
    let c := ch.toNat % 16
    let code := firstFail false false (9 ≤ c) false (16 ≤ ch.toNat) false
    if code ≠ .ok then .done (s.report x.eng x.ctx a code 0 0x26 pc)
    else match s.tdcTake x.eng.part (2 * x.eng.tileNo) c with
      | (none, s1) => .done (s1.report x.eng x.ctx a .busy 0 0x26 pc)
      | (some r, s1) => .done ((s1.setT x.eng x.ctx td r.value).report x.eng x.ctx a .ok r.status.toNat 0x26 pc))

/-! ### Sync (R244, R245) -/

/-- SIG to members of the tile's job context (R244): a one-entry SIG frame to each. -/
def State.sigRemote (s : State) (j : Job) (i : Nat) (v : DWord) (dst : SigTo) : Code × State :=
  let f := j.frame 3 0x01 [1, i, v.toNat % 2 ^ 48]
  match dst with
  | .rank => match j.liveAt (bits v.toNat 63 48) with
    | some n => (.ok, s.send .dist (.node n) f)
    | none => (.range, s)
  | _ => (.ok, s.sendNodes (j.live.map (·.2)) f)

/-- SIG. A local signal rejected has its OBJ_EVENT record (R9). -/
def execSig (x : CtxRef) (obj : Fin 8192) (a : Fin 32) (dst : SigTo) (s : State) : Host.Outcome State Fault Refusal :=
  .next (s.issue x (wFO 0x28 obj a (sigToNum dst)) false (if x.eng = .tsu && dst ≠ .here then 0x01 else 0) fun pc =>
    let v := s.g x.eng x.ctx a
    match dst with
    | .here =>
      if bits v.toNat 63 48 ≠ 0 then .done (s.report x.eng x.ctx a .range 0 0x28 pc)
      else
        let r := s.signalNow x.eng { src := 4, idx := obj, word := s.sigWord x.eng x.ctx v.toNat, jctx := x.ctx }
        .done (r.2.reportQuiet x.eng x.ctx a r.1 0)
    | _ => match s.jobOf x.eng x.ctx with
      | none => .done (s.report x.eng x.ctx a .range 0 0x28 pc)
      | some k =>
        let r := s.sigRemote (s.job k) obj v dst
        .done (r.2.report x.eng x.ctx a r.1 0 0x28 pc))

/-- The checks of R245 on a waited or polled object. -/
def State.condCode (s : State) (e : EngSel) (slot i thr : Nat) (consume : Bool) : Code :=
  let w := (s.obj e i).word
  if oMode w = 0 then .state
  else if oOwner w ≠ slot then .perm
  else if oDirty w then .state
  else if condBad w thr consume then .range
  else .ok

/-- WAIT: with `timed`, t register `td` holds the deadline. -/
def execWait (x : CtxRef) (obj : Fin 8192) (a : Fin 32) (consume timed : Bool) (td : Fin 8) (s : State) :
    Host.Outcome State Fault Refusal :=
  .next (s.issue x (wFO 0x29 obj a (b2n consume + 2 * b2n timed + 4 * td)) false 0 fun pc =>
    let thr := bits (s.g x.eng x.ctx a).toNat 47 0
    let c := s.condCode x.eng x.ctx obj thr consume
    if c ≠ .ok then .done (s.report x.eng x.ctx a c 0 0x29 pc)
    else if condMet (s.obj x.eng obj).word thr (s.ht x.eng.part) then
      .done ((s.consume x.eng obj thr consume).report x.eng x.ctx a .ok 0 0x29 pc)
    else
      let dl := s.t x.eng x.ctx td
      if timed && !after dl (s.ht x.eng.part) then .done (s.report x.eng x.ctx a .busy 0 0x29 pc)
      else .wait (.obj obj thr consume (if timed then some dl else none) a) s)

/-- WAIT_DEADLINE: the deadline tick of a waiting context passes; nothing is consumed (R245). -/
def execWaitDeadline (e : EngSel) (c : Fin 16) (s : State) : Host.Outcome State Fault Refusal :=
  .next (
    if s.cst e c ≠ 2 then s else
    match (s.ctx e c).wait with
    | some (.obj _ _ _ (some dl) a) =>
      let s1 := s.reach e.part (s.tickAt e.part dl)
      (s1.resume e c a (outWord .busy 0)).outcome (senWho e c) .busy 0x29 (s.pc e c) 0
    | _ => s)

/-- POLL. -/
def execPoll (x : CtxRef) (obj : Fin 8192) (a : Fin 32) (consume : Bool) (s : State) : Host.Outcome State Fault Refusal :=
  .next (s.issue x (wFO 0x2A obj a (b2n consume)) false 0 fun pc =>
    let thr := bits (s.g x.eng x.ctx a).toNat 47 0
    let c := s.condCode x.eng x.ctx obj thr consume
    if c ≠ .ok then .done (s.report x.eng x.ctx a c 0 0x2A pc)
    else if condMet (s.obj x.eng obj).word thr (s.ht x.eng.part) then
      .done ((s.consume x.eng obj thr consume).report x.eng x.ctx a .ok 1 0x2A pc)
    else .done (s.report x.eng x.ctx a .ok 0 0x2A pc))

/-- OBJSET: OWNER is the slot's (R178). -/
def execObjset (x : CtxRef) (obj : Fin 8192) (a : Fin 32) (s : State) : Host.Outcome State Fault Refusal :=
  .next (s.issue x (wFO 0x2B obj a 0) false 0 fun pc =>
    let r := s.objset x.eng x.ctx obj (s.g x.eng x.ctx a)
    .done (r.2.2.report x.eng x.ctx a r.1 (satNat 32 r.2.1) 0x2B pc))

/-- OBJGET: the word, or the time-stamp. -/
def execObjget (x : CtxRef) (obj : Fin 8192) (a : Fin 32) (stamp : Bool) (s : State) : Host.Outcome State Fault Refusal :=
  .next (s.issue x (wFO 0x2C obj a (b2n stamp)) false 0 fun _ =>
    let o := s.obj x.eng obj
    .done (s.setG x.eng x.ctx a (if stamp then BitVec.ofNat 64 o.stamp else o.word)))

/-- BIND. -/
def execBind (x : CtxRef) (obj : Fin 8192) (a : Fin 32) (consume oneshot : Bool) (plgrp : Fin 16) (s : State) :
    Host.Outcome State Fault Refusal :=
  .next (s.issue x (wFO 0x2D obj a (bindSub consume oneshot false plgrp)) false (if x.eng = .tsu then 0 else 0x04) fun pc =>
    let v := (s.g x.eng x.ctx a).toNat
    let r := s.bindWick (bits v 55 48) x.ctx obj (bits v 47 0) consume oneshot (bits v 63 56) plgrp true
    .done (r.2.report x.eng x.ctx a r.1 0 0x2D pc))

/-- BIND with UNBIND = 1. -/
def execBindUnbind (x : CtxRef) (obj : Fin 8192) (a : Fin 32) (consume oneshot : Bool) (plgrp : Fin 16) (s : State) :
    Host.Outcome State Fault Refusal :=
  .next (s.issue x (wFO 0x2D obj a (bindSub consume oneshot true plgrp)) false (if x.eng = .tsu then 0 else 0x04) fun pc =>
    let v := (s.g x.eng x.ctx a).toNat
    let r := s.unbindWick (bits v 55 48) x.ctx true
    .done (r.2.report x.eng x.ctx a r.1 0 0x2D pc))

/-- PRELIT. -/
def execPrelit (x : CtxRef) (ta : Fin 8) (a : Fin 32) (s : State) : Host.Outcome State Fault Refusal :=
  .next (s.issue x (wFT 0x2E 0 ta a 0) false (if x.eng = .tsu then 0 else 0x04) fun pc =>
    let v := (s.g x.eng x.ctx a).toNat
    let r := s.prelight x.ctx (s.t x.eng x.ctx ta) (if v < 2 ^ 16 then v else 0)
    .done (r.2.2.report x.eng x.ctx a r.1 (satNat 32 r.2.1) 0x2E pc))

/-- CGUARD's own checks, each beside BIND's for the same code, and its bind (R249, R348): ONESHOT, CONSUME = 0, THR one above the guarded
address. -/
def State.copyGuard (s : State) (slot obj wick : Nat) (v : Nat) : Code × State :=
  let addr := bits v 47 0
  let c := s.bindCode wick slot obj (addr + 1) false false true
  if c = .fenced then (.fenced, s)
  else if c = .range || bits v 63 48 ≠ 0 || addr = 2 ^ 48 - 1 then (.range, s)
  else if oMode (s.obj .tsu obj).word ≠ 4 || (s.slotSt slot ≠ 2 && s.slotSt slot ≠ 3) || !s.bt .tsu .slotState 13 slot then (.state, s)
  else s.bindWick wick slot obj (addr + 1) false true (s.fd .tsu .wkCfg 23 16 wick) (s.fd .tsu .wkCfg 27 24 wick) true

/-- CGUARD. -/
def execCguard (x : CtxRef) (obj : Fin 8192) (a : Fin 32) (wick : Fin 256) (s : State) : Host.Outcome State Fault Refusal :=
  .next (s.issue x (wFO 0x2F obj a wick) false (if x.eng = .tsu then 0 else 0x04) fun pc =>
    let r := s.copyGuard x.ctx obj wick (s.g x.eng x.ctx a).toNat
    .done (r.2.report x.eng x.ctx a r.1 0 0x2F pc))

end Sys2Proof.Machine
end

