-- ==== Sys2Proof/Machine/JobTsu.lean ====
section
/-!
DEFINITION. A member's side of a job (R252–R277, R299–R301, R323): the slot, its gates, collectives and results, launches, phase
maps and teardown, and the forwarded job commands of R240.
-/
namespace Sys2Proof.Machine

/-! ### CMB frames (R299) -/

/-- Payload bytes the largest frame carries (R101). -/
def maxPayload : Nat := 62 * 256 - 28

/-- The header of a CMB frame beyond its elements (R299). -/
structure CmbHdr where
  seq : Nat
  coll : Bool
  idx : Nat
  poison : Bool := false
  integrity : Bool := false
  last : Bool := true
  overw : Bool := false
  conflict : Bool := false
  shape : Nat
  nspill : Nat := 0
  first : Nat := 0
  count : Nat := 0
  /-- Rank, or index of the first SCAN entry. -/
  rank : Nat := 0
  contributors : Nat := 0
  code : Nat := 0
  spill : Nat := 0
  deriving DecidableEq, Repr

/-- The payload fields of a CMB header in their order. -/
def CmbHdr.fields (h : CmbHdr) : List Nat :=
  [h.seq, b2n h.coll + 2 * h.idx, b2n h.poison + 2 * b2n h.integrity + 4 * b2n h.last + 8 * b2n h.overw + 16 * b2n h.conflict,
   h.shape, h.nspill, h.first, h.count, h.rank, h.contributors, h.code, h.spill]

/-- Groups elements into frames in order, each within `maxPayload` with its 32-byte header: first index, count, bytes. -/
def chunk : List (List Byte) → Nat → Nat → List Byte → List (Nat × Nat × List Byte)
  | [], i, n, acc => [(i - n, n, acc)]
  | x :: xs, i, n, acc =>
    if n ≠ 0 && maxPayload < 32 + acc.length + x.length then (i - n, n, acc) :: chunk xs (i + 1) 1 x
    else chunk xs (i + 1) (n + 1) (acc ++ x)

/-- The CMB frames that carry a list of elements. -/
def cmbFrames (base : Frame) (h : CmbHdr) (els : List (List Byte)) : List Frame :=
  let cs := chunk els 0 0 []
  (cs.zipIdx).map fun c =>
    let hd := { h with first := c.1.1, count := c.1.2.1, last := h.last && c.2 + 1 = cs.length }
    { base with fields := hd.fields, data := c.1.2.2, flits := flitsOf (32 + c.1.2.2.length) }

/-! ### The slot's registers (R277) -/

/-- The slot becomes, or stays, FREE: its job's state is gone; whose it was is kept for the completion that follows, and a
launch whose instant has not come leaves its record to be written (R239, R254, R269; log entry 103). -/
def State.slotFree (s : State) (c : Nat) : State :=
  (((s.wr .tsu .slotState 0 c).wr .tsu .slotJob 0 c).wr .tsu .slotEpoch 0 c).modSlot c fun v =>
    { freed := s.slotId c, dirtied := v.dirtied, launches := v.launches.map fun p => { p with void := true } }

/-- Takes a lateness into SYS_SLOTc_LATE and STAT.LATE (R268, R271). -/
def State.slotLateness (s : State) (c late : Nat) : State :=
  (s.wr .tsu .slotLate (BitVec.ofNat 32 (satNat 32 late)) c).setB .tsu .slotStat 3 c

/-- An epoch is newer than another (R317). -/
def epochNewer (a b : Nat) : Bool := decide (0 < sext 32 (a + 2 ^ 32 - b % 2 ^ 32))

/-- A STEP frame of a job at the TSU: dropped and counted while FENCED, for another generation, or for an epoch that is neither
the slot's nor, where `newer` permits, a newer one (R255, R319). -/
def State.stepFrame (s : State) (handle : BitVec 16) (gen : Byte) (epoch : Word) (newer : Bool) (act : Nat → State) : State :=
  match s.slotOfHandle handle.toNat with
  | none => s.freeDrop handle.toNat
  | some c =>
    let own := (s.rd .tsu .slotEpoch c).toNat
    let ok := epoch.toNat = own || (newer && epochNewer epoch.toNat own)
    if s.fenced || s.fd .tsu .slotJob 31 24 c ≠ gen.toNat || !ok then s.slotDrop c else act c

/-- The slot's membership epoch advances: its outstanding GATE, CONTRIB and WINDOW complete with EPOCH (R251), and a phase of an
older epoch is cancelled (R319, R321). -/
def State.slotEpochTo (s : State) (c e : Nat) : State :=
  let s1 := s.wr .tsu .slotEpoch (BitVec.ofNat 32 e) c
  let s2 := s1.endOps .tsu c .epoch fun o => o.opcode == 0x32 || o.opcode == 0x33 || o.opcode == 0x39
  s2.modSlot c fun v => { v with phases := v.phases.filter fun p => !epochNewer e p.2.2.2 }

/-- The slot enters REPLAN (R254); a REPLAN that waited has then come about. -/
def State.enterReplan (s : State) (c e : Nat) : State :=
  (((s.slotEpochTo c e).modSlot c fun v => { v with replanDue := none }).setSlotSt c 4).setB .tsu .slotStat 2 c

/-- Ports of a domain of the TSU: SL0 and SL1 are A, SL2 and SL3 are B (R12). -/
def domainPorts (d : Nat) : List Nat := [2 * d, 2 * d + 1]

/-- The domain on which a slot's job frames go: the control domain, or the other one while every port of the control domain is out of UP and one of
the other is not (R312). -/
def State.frameDomain (s : State) (c : Nat) : Nat :=
  let d := (s.slot c).domain
  let up (x : Nat) : Bool := (domainPorts x).any fun n => s.portState .tsu n == 6
  if !up d && up (1 - d) then 1 - d else d

/-- Sends a frame to the slot's job root or, with `leaf`, to the leaf of the domain that carries its job frames. -/
def State.slotSend (s : State) (c : Nat) (leaf : Bool) (f : Frame) : State :=
  s.send .tsu (if leaf then .leaf (s.frameDomain c) else .node (s.slot c).root) f

/-! ### ARM (R246, R253, R257) -/

/-- The operand block at a DWIN offset, of `len` bytes, first byte aligned to `w` (R226, R238). -/
def State.block (s : State) (e : EngSel) (c off w len : Nat) : Sum Nat Ends :=
  match s.dmemCheck e c off w len with
  | .inr x => .inr x
  | .inl a => if s.badDmem e a len then .inr (.fault 0x0A (off % 2 ^ 32)) else .inl a

/-- An instruction goes on with a block it has read; single-bit errors found there are corrected and counted (R204, R238). -/
def State.withBlock (s : State) (e : EngSel) (c off w len : Nat) (act : Nat → Ends) : Ends :=
  match s.block e c off w len with
  | .inr x => x
  | .inl a => (act a).also fun t => t.dmemSeen e a len

/-- A destination of an ARM descriptor that R243 refuses: one `trigDest` does not read, or a keeper the TSU has not enumerated (R257). -/
def State.destBad (s : State) (ga : DWord) : Bool :=
  match trigDest .tsu ga with
  | some (.keeper addr _) => addr ≠ 0x100 && decide (s.fd .tsu .kprNkeep 8 0 ≤ addr)
  | some (.fine _) => false
  | none => true

/-- Launch triggers of an ARM descriptor: destination and offset (R257). -/
def State.trigList (s : State) (e : EngSel) (a n : Nat) : List (DWord × DWord) :=
  (List.range n).map fun i =>
    (BitVec.ofNat 64 (s.dmemRead e (a + 32 + 16 * i) 8), BitVec.ofNat 64 (s.dmemRead e (a + 40 + 16 * i) 8))

/-- ARM in a TSU; `timed` gives the earliest launch. Outside SERVICE it ends with STATE (R45). -/
def State.armTsu (s : State) (c obj a : Nat) (off : Nat) (timed : Option HT) (pc : Nat) : Ends :=
  s.withBlock .tsu c off 8 32 fun d =>
    let rd (o n : Nat) : Nat := s.dmemRead .tsu (d + o) n
    let n := rd 7 1
    s.withBlock .tsu c off 8 (if n ≤ 8 then 32 + 16 * n else 32) fun _ =>
      let handle := rd 0 2
      let trigs := s.trigList .tsu d (if n ≤ 8 then n else 0)
      let range := handle = 0 || bits (rd 3 1) 7 1 ≠ 0 || bits (rd 4 3) 23 20 ≠ 0 || 8 < n || bits (rd 8 3) 23 20 ≠ 0
        || rd 11 8 ≠ 0 || rd 19 8 ≠ 0 || rd 27 5 ≠ 0 || trigs.any fun t => s.destBad t.1
      let other := (List.range 16).any fun k =>
        k ≠ c && (s.slotSt k ≠ 0 || s.bt .tsu .slotState 5 k) && s.fd .tsu .slotState 31 16 k = handle
      s.async .tsu c 0x30 0 pc obj c a [] s.fenced range false (s.slotSt c ≠ 0 || other || s.lcState .tsu ≠ 2)
        (s.bt .tsu .slotState 5 c) fun _ t =>
        let id := (handle, rd 2 1, bits (rd 8 3) 19 0)
        let v : Slot := { domain := rd 3 1 % 2, root := bits (rd 4 3) 19 0, trigs := trigs, asked := id, launches := (t.slot c).launches }
        let t1 := ((t.setSlot c v).wr .tsu .slotState (BitVec.ofNat 32 (65536 * id.1 + 32)) c).wr .tsu .slotJob (BitVec.ofNat 32 (2 ^ 24 * id.2.1 + id.2.2)) c
        t1.slotSend c false { cls := 2, ty := 0x10, handle := id.1, gen := id.2.1,
                              fields := [rd 0 32, (timed.getD 0).toNat] }

/-- The slot whose outstanding ARM names a handle and generation. -/
def State.armPending (s : State) (handle gen : Nat) : Option Nat :=
  (List.range 16).find? fun c => s.bt .tsu .slotState 5 c && (s.slot c).asked.1 == handle && (s.slot c).asked.2.1 == gen

/-- Completes the slot's outstanding operation of an opcode. -/
def State.completeKind (s : State) (c opcode : Nat) (code : Code) (v : DWord) (late extra : Nat) (results : List Byte) : State :=
  match (s.outstanding .tsu c).find? fun x => x.2.opcode == opcode with
  | some x => s.completeOp (some x.1) code v late extra results
  | none => s

/-- An ARM_ACK or ARM_REFUSE that no outstanding ARM takes: dropped, and counted in the slot that names the job (R254, R255). -/
def State.armStray (s : State) (h : Nat) : State :=
  match s.slotOfHandle h with
  | some c => s.slotDrop c
  | none => s.freeDrop h

/-- ARM_ACK at the member: the slot becomes ARMED, and its ARM completes with L, the floor and PRE (R254, R259). -/
def armAckTsu (handle : BitVec 16) (gen : Byte) (epoch : Word) (l : HT) (floor : BitVec 4) (pre : Word) (s : State) : State :=
  match s.armPending handle.toNat gen.toNat with
  | none => s.armStray handle.toNat
  | some c =>
    if s.fenced then s.slotDrop c else
    let id := (s.slot c).asked
    let s1 := s.wr .tsu .slotState (BitVec.ofNat 32 (65536 * id.1 + 4096 * floor.toNat + 1)) c
    let s2 := (s1.wr .tsu .slotJob (BitVec.ofNat 32 (2 ^ 24 * id.2.1 + id.2.2)) c).wr .tsu .slotEpoch epoch c
    let s3 := s2.modSlot c fun v => { v with pre := pre.toNat }
    s3.completeKind c 0x30 .ok l 0 (floor.toNat + 2 ^ 32 * pre.toNat) []

/-- ARM_REFUSE at the member: the slot stays FREE (R254, R259). -/
def armRefuse (handle : BitVec 16) (gen : Byte) (code : Code) (s : State) : State :=
  match s.armPending handle.toNat gen.toNat with
  | none => s.armStray handle.toNat
  | some c =>
    if s.fenced then s.slotDrop c
    else (s.slotFree c).completeKind c 0x30 code 0 0 0 []

/-! ### RELEASE (R246, R251, R275) -/

/-- RELEASE in a TSU. -/
def State.releaseTsu (s : State) (c obj a pc : Nat) : Ends :=
  let st := s.slotSt c
  s.async .tsu c 0x31 0 pc obj c a [] s.fenced false false (st = 0 || st = 6) false fun o t =>
    let ops := (s.outstanding .tsu c).filter fun x => x.2.jobRelated
    let t1 := (ops.foldl (fun u x => u.completeOp (some x.1) .state) t).releaseWicks c
    let rank := t1.fd .tsu .slotJob 19 0 c
    let t2 := (t1.setSlotSt c 6).modSlot c fun v => { v with
      relIssued := t1.ht .tsu, relTick := none, balanced := false, launches := v.launches.map fun p => { p with void := true }, phases := [], replanDue := none, replayAt := [],
      runAt := [], snap := none }
    if o.tag < 8 then t2.slotSend c false (t2.slotFrame c 2 0x13 [rank]) else t2

/-- RELEASE_AT: the leaf's release tick (R275). -/
def releaseAt (handle : BitVec 16) (gen : Byte) (epoch : Word) (f : HT) (s : State) : State :=
  s.stepFrame handle gen epoch false fun c =>
    if s.slotSt c = 6 then s.modSlot c fun v => { v with relTick := some f } else s.slotDrop c

/-- The slot becomes FREE and its RELEASE completes. -/
def State.releaseEnd (s : State) (c extra : Nat) : State :=
  (s.slotFree c).completeKind c 0x31 .ok (BitVec.ofNat 64 (s.slot c).dirtied) 0 extra []

/-- RELEASE_TICK: the later of F and the end of the balance check (R275). Slot states are frozen while FENCED (R255). -/
def releaseTick (c : Fin 16) (s : State) : State :=
  let v := s.slot c
  match v.relTick with
  | some f => if s.slotSt c = 6 && v.balanced && !s.fenced then (s.reach .tsu f).releaseEnd c 0 else s
  | none => s

/-- RELEASE_AT_TIMEOUT: 1 ms after issue with no RELEASE_AT the slot becomes FREE at once, unscheduled (R275). -/
def releaseAtTimeout (c : Fin 16) (s : State) : State :=
  let v := s.slot c
  if s.slotSt c ≠ 6 || v.relTick.isSome || s.fenced then s else
  let s1 := balanceDone c (s.reach .tsu (v.relIssued + 256000000))
  let id := s1.slotId c
  (s1.releaseEnd c 1).jnl { p := .tsu, blk := 0 } 0x0701
    (pay [(0, 2, id.2.1), (2, 1, id.2.2), (3, 1, c.val), (4, 1, 5), (5, 1, 0)])

/-! ### GATE and CONTRIB at a member (R246, R262, R281, R301, R323) -/

/-- Units of 64 bytes of the result store (R301, R303). -/
def poolUnits : Nat := 2048

/-- Units reserved: by operations whose tag is not reused. -/
def State.poolUsed (s : State) : Nat :=
  (List.range 16).foldl (fun n c =>
    ((s.slot c).results.filter fun r => (s.ctx .tsu c).ops.any fun kv => kv.1 == r.tag && kv.2.seq == r.opSeq).foldl
      (fun m r => m + r.units) n) 0

/-- Whether the store cannot reserve `units` for a slot's next operation; the reservation of the tag that it reuses is released
(R281, R301). -/
def State.poolFull (s : State) (c units : Nat) : Bool :=
  let freed := match (s.ctx .tsu c).freeTag with
    | some k => ((s.slot c).results.filter fun r => r.tag == k).foldl (fun m r => m + r.units) 0
    | none => 0
  decide (poolUnits + freed < s.poolUsed + units)

/-- A reduction descriptor as read from DMEM (R279). -/
structure RedDesc where
  shape : Nat
  elem : Nat
  nspill : Nat
  zeros : Nat
  spill : Nat
  deriving DecidableEq, Repr

/-- Reads a 24-byte reduction descriptor. -/
def State.redDesc (s : State) (e : EngSel) (a : Nat) : RedDesc :=
  { shape := s.dmemRead e a 4, elem := s.dmemRead e (a + 4) 4, nspill := s.dmemRead e (a + 8) 1, zeros := s.dmemRead e (a + 9) 7,
    spill := s.dmemRead e (a + 16) 8 }

/-- The RANGE conditions of R281 on one descriptor; `fp64` says that the floor has FP64 reductions. -/
def RedDesc.bad (d : RedDesc) (fp64 : Bool) : Bool :=
  !shapeOk d.shape || d.zeros ≠ 0 || 8 < d.nspill || (List.range 8).any (fun i => (d.spill / 2 ^ (8 * i)).testBit 7)
    || (shIfmt d.shape = 0 && !fp64)

/-- The reduction descriptors at a list of DWIN offsets, checked under R238. -/
def State.redDescs (s : State) (e : EngSel) (c : Nat) : List Nat → Sum (List RedDesc) Ends
  | [] => .inl []
  | off :: rest =>
    match s.block e c off 8 24 with
    | .inr x => .inr x
    | .inl a => match s.redDescs e c rest with
      | .inr x => .inr x
      | .inl ds => .inl (s.redDesc e a :: ds)

/-- The elements of reductions, packed, checked under R238 with w the element width (R281); a shape R280 refuses is not read. -/
def State.redElems (s : State) (e : EngSel) (c : Nat) : List RedDesc → Sum (List (List Nat)) Ends
  | [] => .inl []
  | d :: rest =>
    let w := fmtBytes (shIfmt d.shape)
    let n := if shapeOk d.shape then shN d.shape else 0
    let here : Sum (List Nat) Ends :=
      if n = 0 then .inl [] else
      match s.block e c d.elem w (n * w) with
      | .inr x => .inr x
      | .inl a => .inl ((List.range n).map fun i => s.dmemRead e (a + i * w) w)
    match here with
    | .inr x => .inr x
    | .inl xs => match s.redElems e c rest with
      | .inr x => .inr x
      | .inl ys => .inl (xs :: ys)

/-- The bytes a contribution's digest covers (R324). -/
def digestBytes (seq : Nat) (status : Option Nat) (ds : List (RedDesc × List Nat)) : List Byte :=
  natLe 2 seq ++ (match status with
    | some v => natLe 8 v
    | none => []) ++
  ds.flatMap fun d => natLe 4 d.1.shape ++ d.2.flatMap (natLe (fmtBytes (shIfmt d.1.shape)))

/-- Sends what a GATE or CONTRIB contributes (R262, R299, R323): the GATE frame and the CMB frames, unless the slot is a shadow; a
DIGEST if it is a shadow or shadowed. -/
def State.contribute (s : State) (c seq : Nat) (status : Option Nat) (ds : List (RedDesc × List Nat)) : State :=
  let v := s.slot c
  let coll := status.isNone
  let rank := s.fd .tsu .slotJob 19 0 c
  let s1 := match status with
    | some st => if v.shadow = 1 then s else s.slotSend c true (s.slotFrame c 2 0x20 [st, seq, ds.length])
    | none => s
  let s2 := if v.shadow = 1 then s1 else
    (ds.zipIdx).foldl (fun t d =>
      let h : CmbHdr := { seq := seq, coll := coll, idx := d.2, shape := d.1.1.shape, nspill := d.1.1.nspill,
                          rank := rank, contributors := 1, spill := d.1.1.spill }
      (cmbFrames (t.slotFrame c 4 0x01 []) h (d.1.2.map (natLe (fmtBytes (shIfmt d.1.1.shape))))).foldl
        (fun u f => u.slotSend c true f) t) s1
  if v.shadow = 0 then s2 else
    let bin := s2.fd .tsu .hltStatus 4 0
    let s3 := s2.modSlot c fun w => { w with digests := (seq, coll, bin) :: w.digests.take 15 }
    s3.slotSend c false { s3.slotFrame c 2 0x8D [seq, b2n coll + 2 * (bin / 4) + 16 * (bin % 4), b2n (v.shadow = 1),
                                                 digest128 (digestBytes seq status ds)] with flits := 1 }

/-- Accepts a GATE or CONTRIB whose operands are read: reserves its results, takes its sequence and contributes. -/
def State.openOp (s : State) (c : Nat) (o : OpRef) (status : Option Nat) (ds : List (RedDesc × List Nat)) : State :=
  let v := s.slot c
  let seq := if status.isSome then v.gateSeq else v.collSeq
  let shapes := ds.map fun d => d.1.shape
  let h : ResHold := { tag := o.tag, opSeq := o.seq, coll := status.isNone, seq := seq, shapes := shapes,
                       units := ceilDiv (worstCase shapes) 64 }
  let live := v.results.filter fun r => (s.ctx .tsu c).ops.any fun kv => kv.1 == r.tag && kv.2.seq == r.opSeq
  let s1 := s.setSlot c { v with
    results := live ++ [h]
    gateSeq := if status.isSome then (v.gateSeq + 1) % 65536 else v.gateSeq
    collSeq := if status.isSome then v.collSeq else (v.collSeq + 1) % 65536 }
  s1.contribute c seq status ds

/-- What single-bit errors the reads of reduction descriptors, and of their elements, correct and count (R204). -/
def State.redSeen (s : State) (e : EngSel) (c : Nat) (offs : List Nat) (ds : List RedDesc) : State :=
  let b := s.dwinBase e c
  let s1 := offs.foldl (fun t o => t.dmemSeen e (b + o) 24) s
  ds.foldl (fun t d => if shapeOk d.shape then t.dmemSeen e (b + d.elem) (shN d.shape * fmtBytes (shIfmt d.shape)) else t) s1

/-- GATE in a TSU (R246, R262); the descriptors' conditions of R281 come after R246's, so a slot state not permitted is reported before them. -/
def State.gateTsu (s : State) (c obj a off n pc : Nat) : Ends :=
  let m := if n ≤ 4 then n else 0
  s.withBlock .tsu c off 8 (16 + 8 * n) fun g =>
    let offs := (List.range m).map fun i => s.dmemRead .tsu (g + 16 + 8 * i) 8
    match s.redDescs .tsu c offs with
    | .inr x => x
    | .inl ds => match s.redElems .tsu c ds with
      | .inr x => x
      | .inl els => Ends.also (fun t => t.redSeen .tsu c offs ds) <|
        let st := s.slotSt c
        let worst := worstCase (ds.map (·.shape))
        let badState := st ≠ 2 && st ≠ 5
        let bad281 := ds.any (·.bad (s.bt .tsu .slotState 12 c)) || 16384 < worst
        let range := 4 < n || s.dmemRead .tsu (g + 8) 8 ≠ 0 || (!badState && bad281)
        s.async .tsu c 0x32 n pc obj c a [] s.fenced range false badState
          (s.poolFull c (ceilDiv worst 64)) fun o t =>
            let t1 := (t.setF .tsu .slotState 6 6 (b2n (st = 5)) c).setSlotSt c 3
            t1.openOp c o (some (s.dmemRead .tsu g 8)) (ds.zip els)

/-- CONTRIB in a TSU (R246, then R281). -/
def State.contribTsu (s : State) (c obj a off pc : Nat) : Ends :=
  match s.redDescs .tsu c [off] with
  | .inr x => x
  | .inl ds => match s.redElems .tsu c ds with
    | .inr x => x
    | .inl els => Ends.also (fun t => t.redSeen .tsu c [off] ds) <|
      let st := s.slotSt c
      let worst := worstCase (ds.map (·.shape))
      let badState := st ≠ 2 && st ≠ 3 && st ≠ 5
      let range := !badState && (ds.any (·.bad (s.bt .tsu .slotState 12 c)) || 16384 < worst)
      s.async .tsu c 0x33 0 pc obj c a [] s.fenced range false badState
        (s.poolFull c (ceilDiv worst 64)) fun o t => t.openOp c o none (ds.zip els)

/-! ### Results at a member (R300, R301) -/

/-- Counts a result with no matching operation (R301). -/
def State.cmbOrphan (s : State) : State := (s.bump .tsu .cmbCnt 15 0 1).setB .tsu .cmbStat 2

/-- The reductions' results in order, as received. -/
def ResHold.bytes (h : ResHold) : List Byte :=
  (List.range h.shapes.length).flatMap fun i => (mget (fun _ => ([], false)) h.got i).1

/-- An operation of a slot's context that is outstanding under a result hold. -/
def State.holdOp (s : State) (c : Nat) (h : ResHold) : Option OpRef :=
  ((s.outstanding .tsu c).find? fun x => x.1.tag == h.tag && x.1.seq == h.opSeq).map (·.1)

/-- Bytes [31:24] of a GATE's or CONTRIB's record: the result SEQ and n (R246). -/
def resultExtra (seq n : Nat) : Nat := seq % 65536 + 65536 * n

/-- A RESULT or SCAN_RESULT frame: `data` is the frame's part of the 16-byte header and elements of R300, in order; LAST completes
the reduction, and a collective with it (R299–R301). A frame for a reduction that is complete finds nothing open: an orphan. -/
def State.resultData (s : State) (c : Nat) (coll : Bool) (seq idx : Nat) (last : Bool) (data : List Byte) : State :=
  let v := s.slot c
  match v.results.find? fun h => h.coll == coll && h.seq == seq && (s.holdOp c h).isSome with
  | none => s.cmbOrphan
  | some h =>
    if h.shapes.length ≤ idx then s.cmbOrphan else
    let old := mget (fun _ => (([] : List Byte), false)) h.got idx
    if old.2 then s.cmbOrphan else
    let bytes := old.1 ++ data
    let h1 := { h with got := mset (fun _ => (([] : List Byte), false)) h.got idx (bytes, last) }
    let code := ((bytes.getD 1 0).toNat) % 16
    let s1 := s.setSlot c { v with results := v.results.map fun r => if r = h then h1 else r }
    let s2 := if last && code ≠ 0 then s1.setB .tsu .cmbStat 3 else s1
    if last && coll then
      (s2.completeOp (s2.holdOp c h1) .ok 0 0 (resultExtra v.resultSeq 1) h1.bytes).modSlot c fun w =>
        { w with resultSeq := (w.resultSeq + 1) % 65536 }
    else s2

/-- RESULT_FRAME and SCAN_RESULT at a member; a stale frame is dropped and counted (R299, R319). -/
def resultFrame (handle : BitVec 16) (gen : Byte) (epoch : Word) (coll : Bool) (seq : BitVec 16) (idx : Fin 4) (last : Bool)
    (data : List Byte) (s : State) : State :=
  match s.slotOfHandle handle.toNat with
  | none => s.cmbOrphan
  | some c =>
    if s.fd .tsu .slotJob 31 24 c ≠ gen.toNat || s.rd .tsu .slotEpoch c ≠ epoch then s.slotDrop c
    else s.resultData c coll seq.toNat idx last data

/-! ### Result channels (R41, R301) -/

def State.chan (s : State) (c : Nat) : Chan := mget (fun _ => {}) s.chans c

def State.setChan (s : State) (c : Nat) (v : Chan) : State := { s with chans := mset (fun _ => {}) s.chans c v }

/-- A completed GATE or CONTRIB offers its record, status block and reductions to its slot's channel (R41, R301). -/
def State.offer (s : State) (c seq : Nat) (bytes : List Byte) : State :=
  let v := s.chan c
  if v.pend.isSome then (s.setChan c { v with pend := some (seq, bytes), overw := true }).setB .tsu .cmbStat 1
  else s.setChan c { v with pend := some (seq, bytes) }

/-- A read of CMB_RSTATc (R41). -/
def State.rstatRead (s : State) (c : Nat) : Word × State :=
  let v := s.chan c
  match v.pend with
  | some (q, bs) => (BitVec.ofNat 32 (2 ^ 31 + 2 ^ 30 * b2n v.overw + q), s.setChan c { winSeq := q, win := bs })
  | none => (BitVec.ofNat 32 v.winSeq, s)

/-- ASYNC_COMPLETION (R239): the engine's oldest completion; a GATE or CONTRIB with results is offered (R301). -/
def asyncDone (e : EngSel) (s : State) : State :=
  let s1 := asyncCompletion e s.jobId s
  match s.todo.find? fun d => d.op.eng == e with
  | none => s1
  | some d =>
    match s.op d.op, s1.op d.op with
    | some o, some o1 => match o.result, o1.result with
      | none, some r =>
        let open_ := d.code ≠ .epoch && d.code ≠ .state && d.code ≠ .fenced
        if e = .tsu && (o.opcode = 0x32 || o.opcode = 0x33) && open_ then
          let block := if o.opcode = 0x33 then List.replicate 32 0 else []
          s1.offer d.op.ctx (d.extra % 65536) (recBytes d.op.tag o1 r ++ block ++ r.results)
        else s1
      | _, _ => s1
    | _, _ => s1

/-- RESULT (R248): the record of the tag and sequence in ga; `td` also takes VALUE. -/
def State.resultInstr (s : State) (x : CtxRef) (d a b : Fin 32) (td : Option (Fin 8)) (pc : Nat) : Ends :=
  let e := x.eng
  let c := x.ctx.val
  let ref := (s.g e c a).toNat
  let tag := ref % 8
  match (s.ctx e c).ops.find? fun kv => kv.1 == tag with
  | none => .done (s.report e c d .state 0 0x34 pc)
  | some (_, o) =>
    if o.seq ≠ bits ref 15 8 then .done (s.report e c d .state 0 0x34 pc)
    else match o.result with
      | none => .done (s.report e c d .busy 0 0x34 pc)
      | some r =>
        let bytes := recBytes tag o r ++ r.results
        let off := (s.g e c b).toNat
        match s.dmemCheck e c off 8 bytes.length with
        | .inr f => f
        | .inl addr =>
          let s1 := (s.dmemBlock e addr bytes).setG e c d (outWord r.code (r.value.toNat % 2 ^ 32) 1)
          let s2 := match td with
            | some t => s1.setT e c t r.value
            | none => s1
          .done (if r.code = .ok then s2
                 else s2.outcome (senWho e c) r.code 0x34 pc (if r.code = .late then r.late else 0))

/-! ### Launch (R254, R267–R269) -/

/-- Arms the slot's launch triggers at L + OFS; answers how many were refused (R267). -/
def State.armLaunch (s : State) (c : Nat) (l : HT) : Nat × State :=
  (s.slot c).trigs.foldl (fun r t =>
    match trigDest .tsu t.1 with
    | none => r
    | some d =>
      let q := r.2.armDest .tsu 0x20 d (l + t.2)
      (r.1 + (if q.1 = .ok || q.1 = .late then 0 else 1), q.2.2)) (0, s)

/-- A phase of a slot takes effect: its map, its rank and its epoch; from REPLAN the slot goes on (R254, R271). -/
def State.applyPhase (s : State) (c m rank e : Nat) : State :=
  let s1 := if e = (s.rd .tsu .slotEpoch c).toNat then s else s.slotEpochTo c e
  let s2 := (s1.setF .tsu .slotState 11 8 m c).setF .tsu .slotJob 19 0 rank c
  if s2.slotSt c = 4 then s2.setSlotSt c (if (s2.slot c).launched then 2 else 1) else s2

/-- An instant goes among those that wait, by instant; after its equals. -/
def insertHt {α : Type} (x : HT × α) : List (HT × α) → List (HT × α)
  | [] => [x]
  | y :: ys => if after y.1 x.1 then x :: y :: ys else y :: insertHt x ys

/-- The launch record of R269. -/
def State.launchRec (s : State) (p : PendLaunch) : State :=
  s.jnl { p := .tsu, blk := 0, ctx := 0x20 } 0x0700
    (pay [(0, 8, p.at_.toNat), (8, 3, min p.late (2 ^ 24 - 1)), (11, 1, p.refused), (12, 4, wrapInt 32 (s.tsu.tb.rem / 65536))])

/-- A launch goes among those that wait, by instant. -/
def insertLaunch (p : PendLaunch) : List PendLaunch → List PendLaunch
  | [] => [p]
  | q :: qs => if after q.at_ p.at_ then p :: q :: qs else q :: insertLaunch p qs

/-- The phases of a slot whose ticks have come take effect, the earliest first; with a gate open they wait for its L (R271). -/
def State.slotPhases : Nat → Nat → State → State
  | 0, _, s => s
  | n + 1, c, s =>
    match (s.slot c).phases with
    | (t, m, rank, e) :: rest =>
      if s.slotSt c ≠ 3 && atOrAfter (s.ht .tsu) t then
        State.slotPhases n c ((s.modSlot c fun v => { v with phases := rest }).applyPhase c m rank e)
      else s
    | [] => s

/-- A launch takes effect at a member: the state changes (in GATED only at the gate's own launch), the launch record is written, and
a REPLAN that waited for it follows (R254, R268, R269). A launch of a job that has left the slot fires its triggers alone. -/
def State.doLaunch (s : State) (c : Nat) (p : PendLaunch) : State :=
  if p.void then (s.setB .tsu .slotStat 0 c).launchRec p else
  let st := s.slotSt c
  let ends := st = 3 && p.gate
  let next := if ends then (if s.bt .tsu .slotState 6 c then 5 else 2) else if st = 1 then 2 else st
  let s1 := (s.setSlotSt c next).setB .tsu .slotStat 0 c
  let s2 := s1.modSlot c fun v => { v with launched := true }
  let s3 := (s2.launchRec p).slotPhases (s2.slot c).phases.length c
  if (s3.slot c).replanDue.isSome && (s3.slot c).launches.all (·.void) then s3.enterReplan c (s3.rd .tsu .slotEpoch c).toNat else s3

/-- LAUNCH_FRAME at the member (R254, R267, R268): `forGate` with its gate sequence and result SEQ; `status` is the status block
the gate's results bring (R266; log entry 17). -/
def launchTsu (handle : BitVec 16) (gen : Byte) (epoch : Word) (l : HT) (gateSeq : BitVec 16) (forGate : Bool) (resSeq : BitVec 16)
    (status : DWord × DWord × Nat) (s : State) : State :=
  s.stepFrame handle gen epoch false fun c =>
    let v := s.slot c
    let st := s.slotSt c
    let hold := v.results.find? fun h => !h.coll && h.seq == gateSeq.toNat && (s.holdOp c h).isSome
    if (forGate && (st ≠ 3 || hold.isNone)) || (!forGate && st ≠ 1 && st ≠ 2) then s.slotDrop c else
    let now := s.ht .tsu
    let late := !after l now
    let lateness := if late then (now - l).toNat else 0
    let r := s.armLaunch c l
    let s1 := (r.2.wr .tsu .slotLLo (l.truncate 32) c).wr .tsu .slotLHi ((l >>> 32).truncate 32) c
    let s2 := if late then s1.slotLateness c lateness else s1
    let s3 := match forGate, hold with
      | true, some h =>
        let block := natLe 8 status.1.toNat ++ natLe 8 status.2.1.toNat ++ natLe 4 status.2.2 ++ natLe 2 gateSeq.toNat
          ++ List.replicate 10 0
        let res := if v.shadow = 1 then [] else h.bytes
        (s2.completeOp (s2.holdOp c h) (if late then .late else .ok) l lateness (resultExtra resSeq.toNat h.shapes.length)
          (block ++ res)).modSlot c fun w => { w with resultSeq := (resSeq.toNat + 1) % 65536 }
      | _, _ => s2
    let p : PendLaunch := { at_ := l, gate := forGate, late := lateness, refused := r.1 }
    if late then s3.doLaunch c p else s3.modSlot c fun w => { w with launches := insertLaunch p w.launches }

/-- LAUNCH_INSTANT: instant L of the slot's next accepted launch is reached (R254). Slot states are frozen while FENCED, which has
discarded the triggers (R89, R255). -/
def launchInstant (c : Fin 16) (s : State) : State :=
  match (s.slot c).launches with
  | [] => s
  | p :: rest =>
    let s1 := (s.reach .tsu p.at_).modSlot c fun v => { v with launches := rest }
    if s.fenced then s1.launchRec p else s1.doLaunch c p

/-! ### Epoch and phase frames (R254, R271, R318) -/

/-- ABORT: a GATED slot goes to REPLAN at the frame's epoch (R254, R265). -/
def abortFrame (handle : BitVec 16) (gen : Byte) (epoch : Word) (s : State) : State :=
  s.stepFrame handle gen epoch true fun c =>
    if s.slotSt c = 3 then s.enterReplan c epoch.toNat else s.slotDrop c

/-- REPLAN at the member (R254, R318): the slot takes the newer epoch at once and enters REPLAN, at once or after the launches whose
instants have not come (log entry 119); a slot already in REPLAN, as after the ABORT of the same advance, stays there (log entry 101). Received on the
domain other than the job's, it moves the control domain and ends forwarded commands with EPOCH (R240, R311); with no newer epoch it does only that,
as after an admission that moves the domain. The spec gives REPLAN no root ID: the slot keeps the node of its ARM descriptor as the job root's, now of
the other domain (log entry 134). -/
def replanTsu (handle : BitVec 16) (gen : Byte) (epoch : Word) (dom : Fin 2) (s : State) : State :=
  s.stepFrame handle gen epoch true fun c =>
    let st := s.slotSt c
    let v := s.slot c
    let own := (s.rd .tsu .slotEpoch c).toNat
    let newer := epochNewer epoch.toNat own
    let moves := dom.val ≠ v.domain
    if st = 6 || (!newer && st ≠ 4 && !moves) then s.slotDrop c else
    let s1 := if moves then (s.modSlot c fun w => { w with domain := dom }).endOps .tsu c .epoch Op.jobCommand else s
    if !newer then s1
    else if st = 4 then s1.slotEpochTo c epoch.toNat
    else if v.launches.all (·.void) then s1.enterReplan c epoch.toNat
    else (s1.slotEpochTo c epoch.toNat).modSlot c fun w => { w with replanDue := some epoch.toNat }

/-- PHASE_FRAME at the member (R271): kept for its tick; after it, applied at once, or with a gate open at that gate's L, and recorded LATE. -/
def phaseTsu (handle : BitVec 16) (gen : Byte) (epoch : Word) (t : HT) (map : Fin 16) (rank : BitVec 20) (s : State) : State :=
  s.stepFrame handle gen epoch true fun c =>
    if s.slotSt c = 6 then s.slotDrop c else
    let now := s.ht .tsu
    let kept := s.modSlot c fun v => { v with phases := insertHt (t, map.val, rank.toNat, epoch.toNat) v.phases }
    if after t now then kept
    else
      let late := (now - t).toNat
      let s1 := if s.slotSt c = 3 then kept else s.applyPhase c map.val rank.toNat epoch.toNat
      if late = 0 then s1 else (s1.slotLateness c late).frameOutcome .tsu 0 .late 2 0x30 late

/-- PHASE_TICK: the tick of the slot's earliest pending phase is reached (R254, R271); slot states are frozen while FENCED. -/
def phaseTick (c : Fin 16) (s : State) : State :=
  match (s.slot c).phases with
  | (t, _, _, _) :: _ => if s.fenced then s else (s.reach .tsu t).slotPhases 1 c
  | [] => s

/-- Enters REPLAY at T_R (R254, R352). A gate open then completes with EPOCH: the spec names no outcome for it (log entry 21). -/
def State.enterReplay (s : State) (c : Nat) : State :=
  let st := s.slotSt c
  if st = 2 || st = 3 || st = 4 then (s.endOps .tsu c .epoch fun o => o.opcode == 0x32).setSlotSt c 5 else s

/-- RESTORE at the member (R254, R352): the gate sequence is set, and the slot enters REPLAY at T_R; after it, at once, with its
lateness. -/
def restoreFrame (handle : BitVec 16) (gen : Byte) (epoch : Word) (tr : HT) (gateSeq : BitVec 16) (s : State) : State :=
  s.stepFrame handle gen epoch false fun c =>
    let st := s.slotSt c
    if st ≠ 2 && st ≠ 3 && st ≠ 4 then s.slotDrop c else
    let now := s.ht .tsu
    let s1 := s.modSlot c fun v => { v with gateSeq := gateSeq.toNat }
    if after tr now then
      s1.modSlot c fun v => { v with replayAt := (insertHt (tr, ()) (v.replayAt.map fun x => (x, ()))).map Prod.fst }
    else
      let late := (now - tr).toNat
      let s2 := s1.enterReplay c
      if late = 0 then s2 else s2.slotLateness c late

/-- T_R_REACHED: the tick at which the slot enters REPLAY (R352). -/
def trReached (c : Fin 16) (s : State) : State :=
  match (s.slot c).replayAt with
  | t :: rest => if s.fenced then s else ((s.reach .tsu t).modSlot c fun v => { v with replayAt := rest }).enterReplay c
  | [] => s

/-- REPLAY_END at the member: from the tick it names, the slot is RUNNING (R254). A gate that the slot opens before that tick ends in RUNNING (log
entry 20). -/
def replayEnd (handle : BitVec 16) (gen : Byte) (epoch : Word) (tick : HT) (s : State) : State :=
  s.stepFrame handle gen epoch false fun c =>
    if s.slotSt c ≠ 5 then s.slotDrop c
    else (s.modSlot c fun v => { v with runAt := v.runAt ++ [tick] }).endReplays

/-! ### Forwarded job commands (R240) -/

/-- Sends a job command to the job root under the operation's tag. -/
def State.forward (s : State) (c : Nat) (o : OpRef) (opcode sub : Nat) (operand tick : DWord) : State :=
  s.slotSend c false (s.slotFrame c 2 0x40 [opcode, sub, operand.toNat, tick.toNat, o.tag])

/-- A job command issued in a TSU (R240). -/
def State.jobCmdTsu (s : State) (c opcode sub pc obj a : Nat) (range : Bool) (operand tick : DWord) : Ends :=
  let st := s.slotSt c
  s.async .tsu c opcode sub pc obj c a [] s.fenced range false (st = 0 || st = 6) false fun o t =>
    t.forward c o opcode sub operand tick

/-- JOBCMD_DONE: the forwarded command under a tag completes as its job root says (R240). -/
def jobcmdDone (handle : BitVec 16) (gen : Byte) (epoch : Word) (tag : Fin 8) (code : Code) (value : DWord) (late : Word)
    (s : State) : State :=
  s.stepFrame handle gen epoch false fun c =>
    match (s.outstanding .tsu c).find? fun x => x.1.tag == tag.val && x.2.jobCommand with
    | some x => s.completeOp (some x.1) code value late.toNat
    | none => s.slotDrop c

/-- STROBE: a job-wide strobe at a member (R37). -/
def strobeFrame (handle : BitVec 16) (gen : Byte) (epoch mask : Word) (tick : HT) (s : State) : State :=
  s.stepFrame handle gen epoch false fun _ =>
    let r := s.queueStrobe .tsu { cls := .link } (.frame 2 0x60) tick mask.toNat
    if r.1 = .ok then r.2.2 else r.2.2.frameOutcome .tsu 0 r.1 2 0x60 r.2.1

end Sys2Proof.Machine
end

