-- ==== Sys2Proof/Machine/Health.lean ====
section
/-!
DEFINITION. A TSU's own health (R313–R315, R322, R327–R329): fencing, shadowing, condition bins and sentinels.
-/
namespace Sys2Proof.Machine

/-- A FENCE record (R365), whose source is the frame or none (R363). -/
def State.fenceRec (s : State) (entry reason jctx : Nat) : State :=
  s.jnl { hltWho with ctx := jctx } 0x0802 (pay [(0, 1, entry), (1, 1, reason)])

/-- The TSU enters FENCED (R89, R123, R159, R251, R313, R314); `reason` is 1 for a FENCE frame, 2 for a self-fence. -/
def State.enterFenced (s : State) (reason : Nat) : State :=
  if s.fenced then s else
  let s0 := ((s.setF .tsu .hltStatus 31 31 1).setF .tsu .hltStatus 30 28 reason).setB .tsu .hltStat 4
  let s1 := (s0.fenceRec 1 reason (if reason = 1 then 0x20 else 0x3F)).lifCount .tsu 36 1
  let s2 := ((s1.dropAllFine .tsu .fenced).ringSend 0x6 0x100 0xF 0).bulkFenced
  (List.range 16).foldl (fun t c =>
    let u := t.endOps .tsu c .fenced Op.jobRelated
    if t.bt .tsu .slotState 5 c then u.slotFree c else u) s2

/-- FENCE: a FENCE frame arrives on any port (R313). -/
def fenceFrame (s : State) : State := s.enterFenced 1

/-- When a domain was last heard (R305); none for a domain that is not connected: no enabled port of it has been heard. -/
def State.domainHeard (s : State) (d : Nat) : Option HT :=
  ((domainPorts d).filter fun n => s.bt .tsu .prtCtrl 0 n).foldl (fun m n =>
    match m, (s.prt .tsu n).heard with
    | some a, some b => some (if after b a then b else a)
    | none, b => b
    | a, none => a) none

/-- SELF_FENCE: every connected domain has been silent for HLT_CFG.SELF_FENCE (R313). -/
def selfFence (s : State) : State :=
  match [s.domainHeard 0, s.domainHeard 1].filterMap id with
  | [] => s
  | h :: hs =>
    let last := hs.foldl (fun m x => if after x m then x else m) h
    (s.reach .tsu (last + BitVec.ofNat 64 (2560000 * s.fd .tsu .hltCfg 31 16))).enterFenced 2

/-- UNFENCE (R315): every slot that is not FREE drains without a release tick, is checked, and becomes FREE; then FENCED ends. -/
def unfenceFrame (s : State) : State :=
  if !s.fenced then s else
  let s1 := (List.finRange 16).foldl (fun t c =>
    if t.slotSt c.val = 0 then t
    else (balanceDone c ((t.setSlotSt c.val 6).modSlot c.val fun v => { v with balanced := false })).slotFree c.val) s
  let reason := s1.fd .tsu .hltStatus 30 28
  (((s1.setF .tsu .hltStatus 31 31 0).setF .tsu .hltStatus 30 28 0).setB .tsu .hltStat 5).fenceRec 0 reason 0x20

/-- SHADOW_ON at the TSU: a shadow, or the shadowed member, and its partner (R322, R323). -/
def shadowOnTsu (handle : BitVec 16) (gen : Byte) (epoch : Word) (shadow : Bool) (partner : BitVec 20) (s : State) : State :=
  s.stepFrame handle gen epoch false fun c =>
    let s1 := s.modSlot c fun v => { v with shadow := if shadow then 1 else 2, partner := partner.toNat }
    if shadow then s1.setF .tsu .slotState 4 4 1 c else s1

/-- SHADOW_OFF at the TSU: shadowing ends; an admitted node takes its rank (R326). -/
def shadowOffTsu (handle : BitVec 16) (gen : Byte) (epoch : Word) (admitted : Bool) (rank : BitVec 20) (s : State) : State :=
  s.stepFrame handle gen epoch false fun c =>
    let s1 := (s.modSlot c fun v => { v with shadow := 0, partner := 0 }).setF .tsu .slotState 4 4 0 c
    if admitted && (s.slot c).shadow = 1 then s1.setF .tsu .slotJob 19 0 rank.toNat c else s1

/-- MISMATCH: counted in the bin the TSU reported in its DIGEST of that sequence (R327), or in the present bin where the TSU holds no
such report, as for a job it no longer holds (log entry 102). -/
def mismatchFrame (handle : BitVec 16) (gen : Byte) (epoch : Word) (seq : BitVec 16) (coll : Bool) (s : State) : State :=
  let free := match s.freeSlotNamed handle.toNat with
    | some c => s.fd .tsu .slotJob 31 24 c = gen.toNat && s.rd .tsu .slotEpoch c = epoch
    | none => true
  if !s.fenced && (s.slotOfHandle handle.toNat).isNone && free
  then (s.setB .tsu .hltStat 1).binEvent s.presentBin 8
  else s.stepFrame handle gen epoch false fun c =>
    let b := match (s.slot c).digests.find? fun d => d.1 == seq.toNat && d.2.1 == coll with
      | some d => d.2.2
      | none => s.presentBin
    (s.setB .tsu .hltStat 1).binEvent b 8

/-- A write of HLT_SENT_RES0 to RES2 is staged per class (R328). -/
def State.sentStage (s : State) (src : Src) (w : Nat) (v : Word) : State :=
  { s with sentRes := mset (fun _ => none) s.sentRes (4 * src.cls.num + w) (some v) }

/-- A write of HLT_SENT_RES3 compares the digest with the expected one (R328). -/
def State.sentCompare (s : State) (src : Src) (v : Word) : Code × State :=
  let k := 4 * src.cls.num
  let g (w : Nat) : Option Word := mget (fun _ => none) s.sentRes (k + w)
  match g 0, g 1, g 2 with
  | some a, some b, some c =>
    let s1 := { s with sentRes := (List.range 3).foldl (fun m w => mset (fun _ => none) m (k + w) none) s.sentRes }
    let hit := a = s.rd .tsu .hltSentExp 0 0 && b = s.rd .tsu .hltSentExp 0 1 && c = s.rd .tsu .hltSentExp 0 2
      && v = s.rd .tsu .hltSentExp 0 3
    if hit then (.ok, s1) else (.integrity, (s1.setB .tsu .hltStat 2).binEvent s1.presentBin 0)
  | _, _, _ => (.state, s)

/-- HLT_BIN_CLR clears the named counts and suspicion, and tells the leaf of every named bin (R329). -/
def State.binClear (s : State) (mask : Word) (src : Src) : State :=
  (List.range 32).foldl (fun t b =>
    if !mask.getLsbD b then t else
    let t1 := (t.wr .tsu .hltBin 0 0 b).setF .tsu .hltCondsusp b b 0
    (t1.jnl { hltWho with ctx := src.jctx } 0x0803 (pay [(0, 1, 2), (1, 1, b), (2, 3, t.node .tsu)])).sendCond b true) s

end Sys2Proof.Machine
end

