-- ==== Sys2Proof/Machine/Root.lean ====
section
/-!
DEFINITION. The job root (R253–R278, R311–R326): arming, ordered action, planning, launches, phase maps, epochs, job commands and
teardown. A job context is named by its number k.
-/
namespace Sys2Proof.Machine

/-- The writer of a job context's records. -/
def jobWho (j : Job) : Who := { p := .dist, tile := j.tile, blk := 15 }

def State.modJob (s : State) (k : Nat) (f : Job → Job) : State := s.setJob k (f (s.job k))

/-! ### The twin's copy (R15, R318; log entry 135) -/

/-- The twin is reached: a peer port is UP. -/
def State.twinUp (s : State) : Bool := s.portState .dist 272 = 6 || s.portState .dist 273 = 6

/-- Sends the twin one of the things of `TwinMsg`, numbered from 0 in their order, of a job. The spec lays out no frame for them: this one is of no
TYPE, and its fields are the thing's, in order. -/
def State.tellTwin (s : State) (what handle gen epoch : Nat) (fields : List Nat) : State :=
  s.send .dist .twin { cls := 2, ty := 0, handle := handle, gen := gen, epoch := epoch, fields := what :: fields }

/-- What the twin keeps of a job; `moved` where the control domain moves with it. -/
def Job.copy (j : Job) (k : Nat) (moved : Bool) : JobCopy :=
  { k := k, state := j.state, handle := j.handle, gen := j.gen, epoch := j.epoch, tile := j.tile, ctx := j.ctx, n := j.n, floor := j.floor
    lead := j.lead, deadline := j.deadline, plw := j.plw, span := j.span, mapOffs := j.mapOffs, map := j.map, words := j.words
    fenced := j.fenced, leafOf := j.leafOf, gateSeq := j.gateSeq, collSeq := j.collSeq, resultSeq := j.resultSeq, gateOpen := j.gate.isSome
    launched := j.launched, fromArmed := j.fromArmed, gates := j.gates
    slots := j.slots.map fun x => ⟨x.1, x.2.state, x.2.lOpen, x.2.gateSeq, x.2.b, x.2.wofs, x.2.wlen⟩, moved := moved, waits := false }

/-- The words of a phase map (R270). -/
def MapWord.num (w : MapWord) : Nat := w.node % 2 ^ 20 + 2 ^ 31 * b2n w.vacant

/-- A list as fields: how many, then they. -/
def counted (l : List Nat) : List Nat := l.length :: l

/-- The fields of a copy. -/
def JobCopy.fields (c : JobCopy) : List Nat :=
  [c.k, c.state, c.tile, c.ctx, c.n, c.floor, c.lead, c.deadline, c.plw, c.span, c.map, c.gateSeq, c.collSeq, c.resultSeq, b2n c.gateOpen,
   b2n c.launched, b2n c.fromArmed, b2n c.moved, b2n c.waits] ++ counted c.mapOffs ++ counted (c.words.map MapWord.num) ++ counted c.fenced
    ++ counted (c.leafOf.flatMap fun x => [x.1, x.2])
    ++ counted (c.gates.flatMap fun g => g.1 :: g.2.2.1 :: g.2.2.2.toNat :: counted (g.2.1.map MapWord.num))
    ++ counted (c.slots.flatMap fun x => [x.index, x.state, x.lOpen.toNat, x.gateSeq, x.b, x.wofs, x.wlen])

/-- Sends the twin a copy of a job (R15). -/
def State.sendCopy (s : State) (c : JobCopy) : State := s.tellTwin 1 c.handle c.gen c.epoch c.fields

/-- The copy of a job as it stands goes out where there is a twin to take it. -/
def State.mirrorJob (s : State) (k : Nat) : State := if s.twinUp then s.sendCopy ((s.job k).copy k false) else s

/-- A record of a job's, which the twin's journal takes too (R15). -/
def State.jobJnl (s : State) (w : Who) (j : Job) (ty payload : Nat) : State :=
  let s1 := s.jnl w ty payload
  if s.twinUp then s1.tellTwin 2 j.handle j.gen j.epoch [(s.ht .dist).toNat, s.node .dist + w.tile, w.blk, w.ctx, ty, payload] else s1

/-- A JOB_EVENT record (R365). -/
def State.jobRec (s : State) (j : Job) (kind st value : Nat) : State :=
  s.jobJnl (jobWho j) j 0x0701 (pay [(0, 2, j.handle), (2, 1, j.gen), (4, 1, kind), (5, 1, st), (6, 4, satNat 32 value)])

/-- The job context changes state; the change is journalled, and the twin has it (R15, R365). -/
def State.jobTo (s : State) (k st : Nat) : State :=
  let j := s.job k
  if j.state = st then s else ((s.setJob k { j with state := st }).jobRec j 1 st 0).mirrorJob k

/-- A command's outcome goes to who asked: the operation completes, or JOBCMD_DONE is sent (R240). -/
def State.answer (s : State) (k : Nat) (r : Req) (c : Code) (v : Nat) (late : Nat := 0) : State :=
  match r with
  | .own o => s.completeOp (some o) c (BitVec.ofNat 64 v) late
  | .member node tag => s.send .dist (.node node) ((s.job k).frame 2 0x41 [tag, c.num, v, satNat 32 late])

/-- Answers a list of commands. -/
def State.answerAll (s : State) (k : Nat) (rs : List Req) (c : Code) (v : Nat) : State := rs.foldl (fun t r => t.answer k r c v) s

/-! ### Job events (R320) -/

/-- Queues a job event; a full queue discards it. With MBR_JNOTIFY.EN the named tile object is signalled. -/
def State.jobEvent (s : State) (k kind rank node : Nat) : State :=
  let j := s.job k
  let s1 := s.setJob k (if j.events.length < 16 then { j with events := j.events ++ [⟨kind, rank, node⟩] }
                        else { j with eventLost := true })
  let n := j.notify
  if j.events.length < 16 && n.getLsbD 31 then
    let e : EngSel := .tile (Fin.ofNat 8 (fld n 26 24))
    s1.sendSignal e { src := 0, idx := fld n 12 0, word := s1.sigWord e (fld n 30 27) 1, jctx := 0x3F }
  else s1

/-- Every job context outside FREE of which a node is a live member, with its rank. -/
def State.jobsOf (s : State) (node : Nat) : List (Nat × Nat) :=
  s.jobs.filterMap fun kv => if kv.2.state = 0 then none else (kv.2.rankOf node).map fun r => (kv.1, r)

/-! ### Launches (R264, R267, R269) -/

/-- Default lead in ns (R264): PLN_LEAD.POD at a pod root, HALL above. -/
def State.defaultLead (s : State) : Nat :=
  10 * (if s.tier = 2 || s.tier = 4 then s.fd .dist .plnLead 15 0 else s.fd .dist .plnLead 31 16)

/-- The job goes to REPLAN (R254, R256). -/
def State.jobReplan (s : State) (k : Nat) : State :=
  let j := s.job k
  if j.state = 0 || j.state = 1 || j.state = 7 || j.state = 5 then s
  else (s.setJob k { j with fromArmed := j.state = 2 && !j.launched, greplay := false }).jobTo k 5

/-- The launch takes effect at the job root: the context changes state, and its LAUNCH command completes. With the instant of the last gate of a
replay, which the members reach in REPLAY, REPLAY_END goes out (R254, R356; log entry 20). -/
def State.rootLaunched (s : State) (k : Nat) (l : LaunchRoot) : State :=
  let j := s.job k
  let st := if j.state = 4 then (if j.greplay && !l.ends then 6 else 3) else if j.state = 2 then 3 else j.state
  let s0 := (s.setJob k { j with launched := true, greplay := false }).jobTo k st
  let s1 := if l.ends then s0.sendNodes (j.live.map (·.2)) (j.frame 2 0x33 [l.at_.toNat]) else s0
  match l.req with
  | some r => s1.answer k r (if l.late = 0 then .ok else .late) l.at_.toNat l.late
  | none => s1

/-- Sends a launch for L to every live member and journals it (R246, R264, R365). One already passed takes effect at once. -/
def State.sendLaunch (s : State) (k : Nat) (l : HT) (forGate : Bool) (gateSeq resSeq : Nat) (req : Option Req) (ends : Bool := false) : State :=
  let j := s.job k
  let now := s.ht .dist
  let late := if after l now then 0 else (now - l).toNat
  let s1 := s.sendNodes (j.live.map (·.2)) (j.frame 2 0x22 [l.toNat, gateSeq, b2n forGate, resSeq])
  let s2 := s1.jobJnl (jobWho j) j 0x0703 (pay [(0, 8, l.toNat), (8, 2, j.handle), (10, 1, j.gen), (11, 2, gateSeq)])
  let x : LaunchRoot := { at_ := l, req := req, late := late, ends := ends }
  let s3 := s2.modJob k fun v => { v with lastL := some l }
  if after l now then s3.modJob k fun v => { v with launches := v.launches ++ [x] } else s3.rootLaunched k x

/-! ### Ramp requests (R272, R273) -/

/-- Members of a job by leaf, ranks ascending, from the leaf each ARM_REQ came through. -/
def Job.byLeaf (j : Job) : List (Nat × List Nat) :=
  let of (n : Nat) : Nat := mget (fun _ => 0) j.leafOf n
  let leaves := (j.live.map fun x => of x.2).eraseDups
  leaves.map fun l => (l, (j.live.filter fun x => of x.2 == l).map (·.1))

/-- Starts planning (R273): a RAMP_REQ to every leaf that has members. -/
def State.plan (s : State) (k : Nat) (e : HT) (op : Option OpRef) : State :=
  let j := s.job k
  let ls := j.byLeaf
  let s1 := s.setJob k { j with planning := some { earliest := e, leaves := ls, op := op } }
  ls.foldl (fun t x => t.send .dist (.node x.1)
    { cls := 2, ty := 0x50, nojob := true, fields := [j.handle, e.toNat, j.plw, j.span, b2n (j.floor.testBit 2), x.2.length] ++ x.2 }) s1

/-- Ends the arm with a code: the context is FREE, and every matched member is refused (R259). -/
def State.armFails (s : State) (k : Nat) (c : Code) : State :=
  let j := s.job k
  let s1 := s.sendNodes (j.matched.map (·.node)) (j.frame 2 0x12 [c.num])
  (((s1.completeOp j.armOp c).jobTo k 0).setJob k { handle := j.handle, gen := j.gen })

/-- Planning ends without a plan (R259, R273). -/
def State.planFails (s : State) (k : Nat) (c : Code) : State :=
  let j := s.job k
  match j.planning with
  | none => s
  | some p =>
    let s1 := s.setJob k { j with planning := none }
    let s2 := if c = .busy then s1.setB .dist .plnStat 3 else s1
    match p.op with
    | some o => s2.completeOp (some o) c
    | none => if j.state = 1 then s2.armFails k .busy else s2

/-- Planning ends with L: a PLAN completes, an arm is acknowledged to every member with its PRE in ns (R259, R274). -/
def State.planDone (s : State) (k : Nat) (l : HT) (pres : List (Nat × Nat)) : State :=
  let j := s.job k
  match j.planning with
  | none => s
  | some p =>
    let s1 := s.setJob k { j with planning := none, planned := l }
    match p.op with
    | some o => s1.completeOp (some o) .ok l
    | none =>
      if j.state ≠ 1 then s1 else
      let s2 := j.matched.foldl (fun t m => t.send .dist (.node m.node)
        (j.frame 2 0x11 [l.toNat, j.floor, mget (fun _ => 0) pres m.rank])) s1
      (s2.completeOp j.armOp .ok l).jobTo k 2

/-- Sends RAMP_FIX with the largest offer, or ends after 8 rounds (R273). -/
def State.planFix (s : State) (k : Nat) : State :=
  let j := s.job k
  match j.planning with
  | none => s
  | some p =>
    if 8 ≤ p.round then s.planFails k .busy else
    match p.offers with
    | [] => s
    | x :: xs =>
      let l := xs.foldl (fun m y => if after y.2 m then y.2 else m) x.2
      let s1 := s.setJob k { j with planning := some { p with round := p.round + 1, confirmed := [], offers := p.offers.map fun y => (y.1, l) } }
      p.leaves.foldl (fun t y => t.send .dist (.node y.1)
        { cls := 2, ty := 0x52, nojob := true, fields := [j.handle, l.toNat, p.round + 1] }) s1

/-- RAMP_OFFER: an offer, or a refusal with a code (R273). Once every leaf has answered, the largest offer is fixed. -/
def rampOffer (handle : BitVec 16) (leaf : BitVec 20) (offer : Sum HT Code) (s : State) : State :=
  match s.jobOfHandle handle.toNat with
  | none => s
  | some k =>
    let j := s.job k
    match j.planning with
    | none => s
    | some p =>
      if !(p.leaves.any fun x => x.1 == leaf.toNat) then s else
      match offer with
      | .inr c => s.planFails k c
      | .inl l =>
        let p1 := { p with offers := (p.offers.filter fun x => x.1 ≠ leaf.toNat) ++ [(leaf.toNat, l)] }
        let s1 := s.setJob k { j with planning := some p1 }
        if p.round = 0 && p1.offers.length < p.leaves.length then s1
        else if p.round ≠ 0 && (p.confirmed.length + 1 < p.leaves.length) then
          s1.setJob k { j with planning := some { p1 with confirmed := leaf.toNat :: p.confirmed } }
        else s1.planFix k

/-- RAMP_CONFIRM: with every leaf confirmed at one L, planning is done (R273). `pre` gives the leaf's placements as PRE in ns by rank
(R274; log entry 18). -/
def rampConfirm (handle : BitVec 16) (leaf : BitVec 20) (l : HT) (pre : List (Nat × Nat)) (s : State) : State :=
  match s.jobOfHandle handle.toNat with
  | none => s
  | some k =>
    let j := s.job k
    match j.planning with
    | none => s
    | some p =>
      if p.round = 0 || p.confirmed.contains leaf.toNat || !(p.leaves.any fun x => x.1 == leaf.toNat) then s else
      let p1 := { p with confirmed := leaf.toNat :: p.confirmed, pres := p.pres ++ pre }
      let s1 := s.setJob k { j with planning := some p1 }
      if p1.confirmed.length < p.leaves.length then s1
      else if p1.offers.all fun x => x.2 == l then s1.planDone k l p1.pres else s1.planFix k

/-! ### Phase maps (R270, R271, R321) -/

/-- The words of phase map `m`, read from the DMEM of the context that armed the job; none where the map is not within its DWIN,
or a word has a bit that R270 makes zero. -/
def State.readMap (s : State) (j : Job) (m : Nat) : Option (List MapWord) :=
  match j.mapOffs[m]? with
  | none => none
  | some off =>
    let e : EngSel := .tile (Fin.ofNat 8 j.tile)
    if off % 8 ≠ 0 || s.dwinSize e j.ctx < off + 4 * j.n then none else
    let a := s.dwinBase e j.ctx + off
    let ws := (List.range j.n).map fun r => s.dmemRead e (a + 4 * r) 4
    if ws.any fun w => bits w 30 20 ≠ 0 then none
    else some (ws.map fun w => { node := bits w 19 0, vacant := w.testBit 31 })

/-- A map R270 accepts: every node of `must` holds exactly one rank, no node twice, none of `gone`. -/
def mapOk (ws : List MapWord) (must gone : List Nat) : Bool :=
  let ns := (ws.filter fun w => !w.vacant).map (·.node)
  ns.Nodup && must.all (fun n => ns.contains n) && !(ns.any fun n => gone.contains n)

/-- Nodes whose admission is pending (R326). -/
def Job.admitting (j : Job) : List Nat := (j.shadows.filter fun x => x.admitReq.isSome).map (·.node)

/-- A map acceptable for a PHASE now (R270, R326). -/
def Job.mapFits (j : Job) (ws : List MapWord) : Bool := mapOk ws (j.live.map (·.2) ++ j.admitting) j.fenced

/-- Nodes a map admits. -/
def Job.admits (j : Job) (ws : List MapWord) : List Nat :=
  ((ws.filter fun w => !w.vacant).map (·.node)).filter fun n => !(j.live.any fun x => x.2 == n)

/-- An EPOCH record (R365): 1 DEAD, 2 LEAF_LOST, 3 takeover, 4 admission. -/
def State.epochRec (s : State) (j : Job) (cause node : Nat) : State :=
  s.jobJnl { p := .dist, tile := j.tile, blk := 16 } j 0x0801
    (pay [(0, 2, j.handle), (2, 1, j.gen), (3, 4, j.epoch), (7, 1, cause), (8, 3, node)])

/-- Drops the instances and gate parts of a job (R265, R302). -/
def State.dropInsts (s : State) (handle : Nat) : State :=
  { s with insts := s.insts.filter fun i => i.handle ≠ handle, gateParts := s.gateParts.filter fun g => g.handle ≠ handle }

/-- Completes with EPOCH what an advance ends at the job root (R251): the open gate, collectives, and every outstanding job command but those whose own
effect is the advance, which the caller has answered. Of the phases and admissions that have been accepted, `keep` names the phases that go on
(R331); a shadow that waits only for its ARM_REQ goes with its START. -/
def State.endForEpoch (s : State) (k : Nat) (keep : PhaseRoot → Bool) : State :=
  let j := s.job k
  let ops := (match j.gate with
    | some g => [g.op]
    | none => []) ++ j.colls.map (·.op) ++ (match j.rebuild with
    | some r => [r.op]
    | none => [])
  let s1 := ops.foldl (fun t o => t.completeOp (some o) .epoch) s
  let gone := j.phases.filter fun p => !keep p
  let held := (j.phases.filter keep).flatMap fun p => j.admits p.words
  let lost := (j.shadows.filter fun x => !held.contains x.node).filterMap (·.admitReq)
  let rs := (j.launches.filterMap (·.req)) ++ gone.map (·.req) ++ lost ++ j.evicts.map (·.2) ++ j.upds.map (fun u => u.2.2)
    ++ j.shadows.filterMap (·.start)
  let s2 := s1.answerAll k rs .epoch 0
  (s2.modJob k fun v => { v with
    gate := none, colls := [], rebuild := none, evicts := [], upds := [], phases := v.phases.filter keep
    launches := v.launches.map fun l => { l with req := none }
    shadows := (v.shadows.filter (·.start.isNone)).map fun x => if held.contains x.node then x else { x with admitReq := none } }).dropInsts j.handle

/-- The PHASE frames of a phase (R271), with an epoch. -/
def State.sendPhase (s : State) (j : Job) (ph : PhaseRoot) (e : Nat) : State :=
  (ph.words.zipIdx).foldl (fun t w => if w.1.vacant then t else
    t.send .dist (.node w.1.node) { j.frame 2 0x30 [ph.tick.toNat, ph.map, w.2] with epoch := e }) s

/-- A phase takes effect at the job root (R254, R271, R326). `late` is against its tick. An admission is an advance, with which a control domain that
is to move goes to the twin (R312). -/
def State.rootPhase (s : State) (k : Nat) (ph : PhaseRoot) (late : Nat) : State :=
  let j := s.job k
  let adm := j.admits ph.words
  let e := if adm.isEmpty then j.epoch else (j.epoch + 1) % 2 ^ 32
  let done := j.shadows.filter fun x => adm.contains x.node
  let s1 := s.setJob k { j with words := ph.words, map := ph.map, epoch := e, phases := j.phases.filter (· ≠ ph)
                                shadows := j.shadows.filter fun x => !adm.contains x.node }
  let s2 := if adm.isEmpty then s1 else
    let t := adm.foldl (fun u n => u.epochRec (u.job k) 4 n) (s1.endForEpoch k fun _ => false)
    done.foldl (fun u x =>
      let jj := u.job k
      let u1 := u.sendNodes [x.node] (jj.frame 2 0x8C [1, (jj.rankOf x.node).getD 0])
      let u2 := match j.liveAt x.rank with
        | some m => u1.sendNodes [m] (jj.frame 2 0x8C [0, 0])
        | none => u1
      match x.admitReq with
      | some r => u2.answer k r .ok e
      | none => u2) t
  let s3 := s2.answer k ph.req (if late = 0 then .ok else .late) e late
  let s4 := if late = 0 then s3 else s3.jobRec j 3 j.state late
  let s5 := if j.state = 5 then
      if j.fromArmed then
        (s4.jobTo k 2).plan k (s4.ht .dist + BitVec.ofNat 64 (256 * (if j.lead = 0 then s4.defaultLead else j.lead))) none
      else s4.jobTo k 3
    else s4.mirrorJob k
  if !adm.isEmpty && j.moveDomain && s5.twinUp then
    (s5.sendCopy { (s5.job k).copy k true with waits := true }).modJob k fun v => { v with mirrors := v.mirrors ++ [(s5.ht .dist, .move)] }
  else s5

/-- Phases whose tick is at or before the present take effect, oldest first; with a gate open they wait for its L (R271). -/
def State.duePhases : Nat → Nat → State → State
  | 0, _, s => s
  | n + 1, k, s =>
    let j := s.job k
    match j.phases with
    | ph :: _ =>
      if j.state ≠ 4 && atOrAfter (s.ht .dist) ph.tick then
        State.duePhases n k (s.rootPhase k ph (s.ht .dist - ph.tick).toNat)
      else s
    | [] => s

/-- The instant of the oldest launch a job root has sent (R254, R256). A removal that waited for it takes effect after. -/
def State.rootInstant (s : State) (k : Nat) : State :=
  match (s.job k).launches with
  | [] => s
  | l :: rest =>
    let s1 := (s.reach .dist l.at_).modJob k fun v => { v with launches := rest }
    let s2 := s1.rootLaunched k l
    let s3 := if (s2.job k).replanAt && rest.isEmpty then (s2.modJob k fun v => { v with replanAt := false }).jobReplan k else s2
    s3.duePhases 16 k

/-- The tick of the oldest scheduled phase at the job root (R271). -/
def State.rootPhaseTick (s : State) (k : Nat) : State :=
  match (s.job k).phases with
  | ph :: _ => (s.reach .dist ph.tick).duePhases 1 k
  | [] => s

/-! ### Membership advances (R317, R318, R321, R331, R351) -/

/-- Discards a checkpoint slot of a job: DISCARD with an R7 code to leaves and members; its COMMIT completes with EPOCH, byte [24] of its
record holding `extra` (R350, R351). A committed slot of which a new epoch was only requested keeps its commit. -/
def State.discardSlot (s : State) (k i : Nat) (c : Code) (extra : Nat) : State :=
  let j := s.job k
  let v := mget (fun _ => {}) j.slots i
  let f := j.frame 2 0x32 [8, i, c.num]
  let s1 := s.sendNodes (j.live.map (·.2)) f
  let keep : EpochSlot := if v.state = 3 then { v with asked := [] } else {}
  let s2 := if v.state = 3 then s1 else (s1.send .dist (.leaves j.handle) f).setB .dist .cstStat 3
  (s2.setJob k { j with slots := mset (fun _ => {}) j.slots i keep }).completeOp (if v.state = 3 then none else v.op) .epoch 0 0 extra

/-- Discards every open or requested slot that has no commit record (R351, R359). -/
def State.discardOpen (s : State) (k : Nat) (c : Code) : State :=
  (s.job k).slots.foldl (fun t p => if p.2.state = 2 || !p.2.asked.isEmpty then t.discardSlot k p.1 c 0 else t) s

/-- EVICT of a node completes with the new epoch (R316). -/
def State.evictsDone (s : State) (k node : Nat) : State :=
  let j := s.job k
  (s.answerAll k ((j.evicts.filter fun x => x.1 == node).map (·.2)) .ok j.epoch).modJob k fun v => { v with
    evicts := v.evicts.filter fun x => x.1 ≠ node }

/-- The twin has the new epoch, or did not answer in time: the gate aborts, live members are told, and the job event is queued (R318
steps 3 to 5). A phase that admits a node goes on where its map still passes R270: its members hear of it again, with the epoch it will now bring
(R319, R331; log entry 136). -/
def State.advanceGo (s : State) (k cause node : Nat) : State :=
  let j := s.job k
  let live := j.live.map (·.2)
  let rank := ((j.words.zipIdx).find? fun x => x.1.node == node && !x.1.vacant).map (·.2) |>.getD 0
  let s1 := match j.gate with
    | some g => s.sendNodes live (j.frame 2 0x23 [g.seq, j.epoch])
    | none => s
  let s2 := s1.evictsDone k node
  let fits (p : PhaseRoot) : Bool := j.mapFits p.words && !(j.admits p.words).isEmpty
  let s3 := ((s2.endForEpoch k fits).sendNodes live ((s2.job k).frame 2 0x31 [j.epoch])).discardOpen k .epoch
  let s4 := (s3.job k).phases.foldl (fun t p => t.sendPhase j p ((j.epoch + 1) % 2 ^ 32)) s3
  let s5 := if j.launches.isEmpty then s4.jobReplan k else s4.modJob k fun v => { v with replanAt := true }
  let kind := if cause = 3 then 4 else if cause = 32 then 7 else 3
  (s5.jobEvent k kind rank node).mirrorJob k

/-- The context becomes FREE; handle, generation and epoch stay for the completions to come. -/
def State.jobFree (s : State) (k : Nat) : State :=
  let j := s.job k
  ((s.jobTo k 0).setJob k { handle := j.handle, gen := j.gen, epoch := j.epoch, tile := j.tile, notify := j.notify }).dropInsts j.handle

/-- The context becomes FREE once it drains and every live member's release has arrived (R256). -/
def State.jobDrained (s : State) (k : Nat) : State :=
  let j := s.job k
  if j.state = 7 && (j.live.all fun x => j.released.contains x.2) then (s.completeOp j.relOp .ok 0).jobFree k else s

/-- The twin has taken the job with its control domain (R15, R240, R311): everything outstanding for it here completes with EPOCH, the context becomes
FREE, and this root keeps the copy. -/
def State.handOver (s : State) (k : Nat) : State :=
  let j := s.job k
  let c := { j.copy k false with gateOpen := false }
  let s1 := (s.endForEpoch k fun _ => false).endJobOps k .epoch Op.jobRelated
  let s2 := { s1 with copies := (s1.copies.filter fun (x : JobCopy) => x.handle ≠ j.handle) ++ [c] }
  (s2.setJob k { handle := j.handle, gen := j.gen, epoch := j.epoch, tile := j.tile, notify := j.notify }).jobRec j 1 0 0

/-- The context a job taken over goes to: the one it has at the twin if that is FREE here, else the lowest that is (log entry 135). -/
def State.freeContext (s : State) (k : Nat) : Option Nat :=
  if (s.job k).state = 0 then some k else (List.range 1024).find? fun i => (s.job i).state = 0

/-- A checkpoint slot of a job taken over (R351): COMMIT where the commit record stands, else DISCARD with EPOCH. -/
def State.takeSlot (s : State) (k : Nat) (x : SlotCopy) : State :=
  let j := s.job k
  if x.state = 3 then
    let f := j.frame 2 0x32 [7, x.index]
    ((s.send .dist (.leaves j.handle) f).sendNodes (j.live.map (·.2)) f).setB .dist .cstStat 2
  else s.discardSlot k x.index .epoch 0

/-- This root takes a job over from its twin (R15, R311, R351): in the advance of the twin that moved the domain, or, the twin dead, in an advance of
its own. The members are told with REPLAN from this domain. A job still ARMING goes with the dead root (log entry 135). -/
def State.takeOver (s : State) (c : JobCopy) : State :=
  match s.freeContext c.k with
  | none => s
  | some k =>
    if (s.jobOfHandle c.handle).isSome || c.state < 2 then s else
    let slot (x : SlotCopy) : Nat × EpochSlot :=
      (x.index, { state := x.state, lOpen := x.lOpen, gateSeq := x.gateSeq, b := x.b, wofs := x.wofs, wlen := x.wlen })
    let j : Job := {
      state := 0, handle := c.handle, gen := c.gen, epoch := if c.moved then c.epoch else (c.epoch + 1) % 2 ^ 32, domain := s.domain
      tile := c.tile, ctx := c.ctx, n := c.n, floor := c.floor, lead := c.lead, deadline := c.deadline, plw := c.plw, span := c.span
      mapOffs := c.mapOffs, map := c.map, words := c.words, fenced := c.fenced, leafOf := c.leafOf, gateSeq := c.gateSeq
      collSeq := c.collSeq, resultSeq := c.resultSeq, launched := c.launched, fromArmed := c.fromArmed || c.state = 2, gates := c.gates
      slots := (c.slots.map slot).foldl (fun m x => mset (fun _ => {}) m x.1 x.2) [], notify := (s.job k).notify }
    let gens := (s.armGens.filter fun x => x.1 ≠ c.handle) ++ [(c.handle, c.gen)]
    let s1 := { s with copies := s.copies.filter fun (x : JobCopy) => x.handle ≠ c.handle, armGens := gens }.setJob k j
    let s2 := if c.moved then s1 else s1.epochRec j 3 (s.fd .dist .prtPeer 19 0 272)
    let live := j.live.map (·.2)
    let s3 := if c.gateOpen then s2.sendNodes live (j.frame 2 0x23 [(c.gateSeq + 65535) % 65536, j.epoch]) else s2
    let s4 := (s3.sendNodes live (j.frame 2 0x31 [j.epoch])).jobTo k (if c.moved || c.state = 7 then c.state else 5)
    c.slots.foldl (fun t x => t.takeSlot k x) s4

/-- An advance that removes a member, or moves the control domain (R317, R318): the epoch is journalled and mirrored, with the domain where that is to
move; the rest waits for the twin. `cause` is the DEAD cause, or 32 for LEAF_LOST. -/
def State.advance (s : State) (k cause node : Nat) : State :=
  let j := s.job k
  let j1 := { j with epoch := (j.epoch + 1) % 2 ^ 32, mirrors := j.mirrors ++ [(s.ht .dist, .advance cause node j.moveDomain)] }
  let s1 := (s.setJob k j1).epochRec j1 (if cause = 32 then 2 else 1) node
  s1.sendCopy { j1.copy k j.moveDomain with state := if j.moveDomain && j.state ≠ 7 then 5 else j.state, waits := true }

/-- A node fenced leaves a job (R317, R325): the epoch advances if it is a member; a shadow of it is orphaned; a shadow it is ends. -/
def State.memberDead (s : State) (k cause node : Nat) : State :=
  let j := s.job k
  let rank := j.rankOf node
  let own := j.shadows.filter fun x => x.node == node
  let s0 := (s.answerAll k (own.filterMap (·.start) ++ own.filterMap (·.admitReq)) .epoch 0).modJob k fun v => { v with
    shadows := v.shadows.filter fun x => x.node ≠ node }
  let s1 := own.foldl (fun t x => t.jobEvent k 11 x.rank node) s0
  match rank with
  | none => s1
  | some r =>
    let orphans := j.shadows.filter fun x => x.rank == r && !x.frozen && x.node ≠ node
    let s2 := s1.modJob k fun v => { v with
      fenced := node :: v.fenced
      shadows := v.shadows.map fun x => if x.rank = r then { x with frozen := true } else x }
    let s3 := orphans.foldl (fun t x => t.jobEvent k 10 r x.node) s2
    (s3.advance k cause node).jobDrained k

/-! ### Arming (R253, R257–R261) -/

/-- The nodes of a map lie in more than one section (R20, R258). Only where there are sections can they: at TIER 4 and 5. Which section a node is in
the spec does not say how to tell (log entry 59). -/
def State.twoSections (s : State) (ws : List MapWord) : Bool :=
  match (ws.filter fun w => !w.vacant).map fun w => Config.sectionOf w.node with
  | [] => false
  | x :: xs => (s.tier = 4 || s.tier = 5) && xs.any fun y => y ≠ x

/-- ARM in a lantern tile (R247, R258): STATE outside SERVICE (R45), before the seal (R44) and at a leaf (R14). Of a distributor left UNSET, and of FLAGS
that name the domain other than the root's own, the spec says nothing: both are accepted (log entry 137). -/
def State.armRoot (s : State) (t : Fin 8) (c obj a off : Nat) (timed : Option HT) (pc : Nat) : Ends :=
  let e : EngSel := .tile t
  s.withBlock e c off 8 32 fun d =>
    let rd (o n : Nat) : Nat := s.dmemRead e (d + o) n
    let nmap := rd 19 1
    let maps := if 1 ≤ nmap && nmap ≤ 16 then nmap else 0
    s.withBlock e c off 8 (32 + 8 * maps) fun _ =>
      let k := s.jobOf e c
      let handle := rd 0 2
      let n := rd 4 4
      let lead := rd 8 4
      let span := rd 18 1
      let old := s.job (k.getD 0)
      let j : Job := {
        state := 1, handle := handle, gen := rd 2 1, domain := rd 3 1 % 2, tile := t, ctx := c, n := n
        require := bits (rd 3 1) 4 1, lead := lead, deadline := rd 12 4, plw := rd 16 2, span := if span = 0 then 8 else span
        armTo := if rd 20 2 = 0 then 1000 else rd 20 2, armAt := s.ht .dist, earliest := timed.getD (s.ht .dist)
        mapOffs := (List.range maps).map fun m => rd (32 + 8 * m) 8, notify := old.notify }
      let field := handle = 0 || bits (rd 3 1) 7 5 ≠ 0 || n = 0 || 65536 < n || (lead ≠ 0 && (lead < 100 || 1000000 < lead))
        || 8 < span || maps = 0 || rd 22 8 ≠ 0 || rd 30 2 ≠ 0
      let arm (_ : Nat) : Ends :=
        let words := s.readMap j 0
        let range := k.isNone || field || (match words with
          | some ws => !mapOk ws [] old.fenced || s.twoSections ws
          | none => true)
        let stale := match s.armGens.find? fun x => x.1 == handle with
          | some x => (x.2 + 1) % 256 ≠ j.gen
          | none => false
        let state := old.state ≠ 0 || (s.jobOfHandle handle).isSome || s.tier = 1 || s.lcState .dist ≠ 2 || s.isOpen .dist
        s.async e c 0x30 0 pc obj (k.getD 0) a [] false range stale state false fun o u =>
          let kk := k.getD 0
          let gens := u.armGens.filter fun x => x.1 ≠ handle
          let u1 := { u with armGens := gens ++ [(handle, j.gen)] }
          ((u1.setJob kk { j with state := 0, words := words.getD [], armOp := some o }).jobTo kk 1)
      if field then arm 0 else s.withBlock e c (j.mapOffs.headD 0) 8 (4 * n) arm

/-- Every rank is matched (R259, R261): the floor is computed, and the first launch is planned. -/
def State.armMatched (s : State) (k : Nat) : State :=
  let j := s.job k
  let floor := if j.matched.all (·.v3) then 0xF else 0
  let s1 := s.setJob k { j with floor := floor }
  if j.require &&& floor ≠ j.require then s1.armFails k .state else
  let lead := BitVec.ofNat 64 (256 * (if j.lead = 0 then s.defaultLead else j.lead))
  let later (x y : HT) : HT := if after x y then x else y
  let e := j.matched.foldl (fun m x => if x.earliest = 0 then m else later x.earliest m) (later j.earliest (s.ht .dist + lead))
  s1.plan k e none

/-- Acts on an ARM_REQ (R259), or on a shadow's (R322). -/
def State.actArm (s : State) (node handle gen rank : Nat) (earliest : HT) (leaf : Nat) (v3 : Bool) : State :=
  let refuse (c : Code) : State := s.send .dist (.node node) { cls := 2, ty := 0x12, handle := handle, gen := gen, fields := [c.num] }
  match s.jobOfHandle handle with
  | none => refuse .state
  | some k =>
    let j := s.job k
    if j.state = 1 then
      let range := j.n ≤ rank || (match j.words[rank]? with
        | some w => w.vacant || w.node ≠ node
        | none => true)
      let c := firstFail false false range (gen ≠ j.gen) (j.matched.any fun m => m.rank == rank) false
      if c ≠ .ok then refuse c
      else
        let j1 := { j with matched := j.matched ++ [⟨rank, node, earliest, v3⟩], leafOf := mset (fun _ => 0) j.leafOf node leaf }
        let s1 := s.setJob k j1
        if j1.matched.length = j.n then s1.armMatched k else s1
    else
      match j.shadows.find? fun x => x.node == node && x.start.isSome && x.rank == rank && gen = j.gen with
      | none => refuse .state
      | some x =>
        if j.floor ≠ 0 && !v3 then
          (refuse .state).answerAll k (x.start.toList) .state 0 |>.modJob k fun v => { v with shadows := v.shadows.filter fun y => y.node ≠ node }
        else
          let next := match j.launches with
            | l :: _ => l.at_
            | [] => j.planned
          let s1 := s.send .dist (.node node) (j.frame 2 0x11 [next.toNat, j.floor, 0])
          let shadowed := (j.liveAt x.rank).getD 0
          let s2 := (s1.sendNodes [node] (j.frame 2 0x8B [1, shadowed])).sendNodes [shadowed] (j.frame 2 0x8B [0, node])
          (s2.answerAll k x.start.toList .ok 0).modJob k fun v => { v with
            leafOf := mset (fun _ => 0) v.leafOf node leaf
            shadows := v.shadows.map fun y => if y.node = node then { y with start := none, on := true } else y }

/-- ARM_TIMEOUT: ARM_TO passes before every rank is matched (R259). -/
def armTimeout (k : Fin 1024) (s : State) : State :=
  let j := s.job k
  if j.state ≠ 1 || j.matched.length = j.n then s else
  let s1 := s.reach .dist (j.armAt + BitVec.ofNat 64 (256000000 * j.armTo))
  (s1.setB .dist .plnStat 0).armFails k .busy

/-! ### Teardown (R256, R275) -/

/-- RELEASE in a lantern tile (R247, R251). -/
def State.releaseRoot (s : State) (t : Fin 8) (c obj a pc : Nat) : Ends :=
  let e : EngSel := .tile t
  let k := s.jobOf e c
  let j := s.job (k.getD 0)
  s.async e c 0x31 0 pc obj (k.getD 0) a [] false k.isNone false (j.state < 2 || j.state = 7) false fun o u =>
    let kk := k.getD 0
    let ops : List (OpRef × Op) := (List.finRange 8).flatMap fun i =>
      (s.outstandingAll (.tile i)).filter fun x => x.2.job == kk && x.2.jobRelated
    let u1 := ops.foldl (fun v x => v.completeOp (some x.1) .state) u
    let rs := (j.launches.filterMap (·.req) ++ j.phases.map (·.req) ++ j.evicts.map (·.2) ++ j.upds.map (fun x => x.2.2)
      ++ j.shadows.filterMap (·.start) ++ j.shadows.filterMap (·.admitReq)).filter fun r => match r with
        | .member _ _ => true
        | .own _ => false
    let u2 := ((u1.answerAll kk rs .state 0).discardOpen kk .state).modJob kk fun v => { v with
      relOp := some o, gate := none, colls := [], launches := [], phases := [], evicts := [], upds := [], shadows := [], planning := none
      rebuild := none, replay := none }
    (u2.jobTo kk 7).jobDrained kk

/-- Acts on a RELEASE_REQ at the job root. -/
def State.actRelease (s : State) (k node : Nat) : State :=
  (s.modJob k fun v => { v with released := if v.released.contains node then v.released else node :: v.released }).jobDrained k

/-! ### Job commands at the job root (R240, R246, R249, R316, R322, R326) -/

/-- The outcome of a job command's checks: RANGE, FENCED, STATE or OK. Opcode and sub as JOBCMD carries them. -/
def State.cmdCode (s : State) (k opcode sub operand : Nat) (tick : HT) : Code :=
  let j := s.job k
  let dead := j.state < 2 || j.state = 7
  match opcode with
  | 0x35 => firstFail false false (noSign tick (s.ht .dist)) false (j.state ≠ 2 && j.state ≠ 3) false
  | 0x36 =>
    let ws := s.readMap j operand
    firstFail false false (16 ≤ operand || noSign tick (s.ht .dist) || (match ws with
      | some w => !j.mapFits w
      | none => true)) false
      ((j.state ≠ 3 && j.state ≠ 4 && j.state ≠ 5) || j.phases.any fun p => !after tick p.tick) false
  | 0x3B =>
    let node := operand % 2 ^ 20
    match sub with
    | 0 =>
      let w := j.words[operand]?
      let member := match w with
        | some x => !x.vacant
        | none => false
      firstFail (member && j.fenced.contains ((w.map (·.node)).getD 0)) false (!member) false dead false
    | 1 =>
      let rank := bits operand 39 20
      firstFail false false (2 ^ 40 ≤ operand || (j.liveAt rank).isNone || (j.rankOf node).isSome) false
        (dead || j.shadows.any fun x => x.node == node) false
    | 2 => firstFail false false false false (dead || !(j.shadows.any fun x => x.node == node && x.eligible)) false
    | _ => firstFail false false false false (dead || !(j.shadows.any fun x => x.node == node)) false
  | _ => firstFail false false (noSign tick (s.ht .dist)) false dead false

/-- Carries out a job command that passed its checks. -/
def State.cmdAct (s : State) (k opcode sub operand : Nat) (tick : HT) (req : Req) : State :=
  let j := s.job k
  let node := operand % 2 ^ 20
  match opcode with
  | 0x35 => s.sendLaunch k (ceilTick tick) false j.gateSeq 0 (some req)
  | 0x36 =>
    let ph : PhaseRoot := { tick := ceilTick tick, map := operand, words := (s.readMap j operand).getD [], req := req }
    let e := if (j.admits ph.words).isEmpty then j.epoch else (j.epoch + 1) % 2 ^ 32
    ((s.sendPhase j ph e).modJob k fun v => { v with phases := v.phases ++ [ph] }).duePhases 1 k
  | 0x3B =>
    match sub with
    | 0 =>
      let n := (j.liveAt operand).getD 0
      (s.send .dist (.node (mget (fun _ => 0) j.leafOf n)) (j.frame 2 0x87 [n])).modJob k fun v => { v with evicts := v.evicts ++ [(n, req)] }
    | 1 =>
      let s1 := s.modJob k fun v => { v with shadows := v.shadows ++ [{ node := node, rank := bits operand 39 20, start := some req }] }
      if j.fenced.contains node then
        (s1.send .dist (.node (mget (fun _ => 0) j.leafOf node)) (j.frame 2 0x88 [node])).modJob k fun v => { v with
          fenced := v.fenced.filter (· ≠ node) }
      else s1
    | 2 => s.modJob k fun v => { v with shadows := v.shadows.map fun x => if x.node = node then { x with admitReq := some req } else x }
    | _ =>
      let x := j.shadows.find? fun y => y.node == node
      let shadowed := (x.bind fun y => j.liveAt y.rank).toList
      let s1 := s.sendNodes (node :: shadowed) (j.frame 2 0x8C [0, 0])
      let s2 := s1.answerAll k ((x.bind (·.start)).toList ++ (x.bind (·.admitReq)).toList) .state 0
      (s2.modJob k fun v => { v with shadows := v.shadows.filter fun y => y.node ≠ node }).answer k req .ok 0
  | _ =>
    let t := ceilTick tick
    let late := if after t (s.ht .dist) then 0 else (s.nextTick .dist - tick).toNat
    let due := if late = 0 then t else s.nextTick .dist
    (s.sendNodes (j.live.map (·.2)) (j.frame 2 0x60 [operand, t.toNat])).modJob k fun v => { v with upds := v.upds ++ [(due, late, req)] }

/-- Counts a stale frame at the distributor (R319, R334). -/
def State.staleDrop (s : State) : State := (s.bump .dist .mbrCnt 15 0 1).setB .dist .mbrStat 0

/-- A forwarded job command whose turn has come is carried out as the job root's own; one with a stale epoch is counted and answered (R240). -/
def State.takeCmd (s : State) (node handle gen epoch opcode sub operand : Nat) (tick : HT) (tag : Nat) : State :=
  match s.jobOfHandle handle with
  | none => s
  | some k =>
    let j := s.job k
    let req : Req := .member node tag
    if j.gen ≠ gen then s.staleDrop
    else if j.epoch ≠ epoch then s.staleDrop.answer k req .epoch 0
    else
      let c := s.cmdCode k opcode sub operand tick
      if c = .ok then s.cmdAct k opcode sub operand tick req else s.answer k req c 0

/-- Which of two held frames goes first: the earlier origin, on a tie the lower node (R240, R260). -/
def Held.before (a b : Held) : Bool := after b.origin a.origin || (a.origin = b.origin && decide (a.node < b.node))

/-- The job whose forwarded command is held. -/
def Held.cmdOf (h : Held) : Option Nat :=
  match h.kind with
  | .jobCmd handle _ _ _ _ _ _ _ => some handle
  | _ => none

/-- Carries out a held job command. -/
def State.takeHeld (s : State) (h : Held) : State :=
  match h.kind with
  | .jobCmd handle gen epoch opcode sub operand tick tag => s.takeCmd h.node handle gen epoch opcode sub operand tick tag
  | _ => s

/-- The forwarded commands of a job that wait and come before `h` in the order of R240 are taken, in that order. -/
def State.takeBefore : Nat → Nat → Held → State → State
  | 0, _, _, s => s
  | n + 1, handle, h, s =>
    match s.held.filter fun x => x.cmdOf == some handle && x.before h with
    | [] => s
    | x :: xs =>
      let m := xs.foldl (fun b y => if y.before b then y else b) x
      State.takeBefore n handle h ({ s with held := s.held.erase m }.takeHeld m)

/-- A job command issued in a lantern tile for the job context in g30 (R247). Its turn is now: forwarded commands of an earlier origin HT, or of the
same and a lower node, that wait are taken first (R240; log entry 55). -/
def State.jobCmdTile (s : State) (t : Fin 8) (c opcode sub pc obj a : Nat) (range : Bool) (operand tick : DWord) : Ends :=
  let e : EngSel := .tile t
  match s.jobOf e c with
  | none => s.async e c opcode sub pc obj 0 a [] false true false false false fun _ u => u
  | some k =>
    let handle := (s.job k).handle
    let me : Held := { origin := s.ht .dist, node := s.node .dist, kind := .jobCmd handle 0 0 opcode sub 0 0 0 }
    let s1 := s.takeBefore s.held.length handle me
    let code := s1.cmdCode k opcode sub operand.toNat tick
    s1.async e c opcode sub pc obj k a [] (code = .fenced) (range || code = .range) false (code = .state) false
      fun o u => u.cmdAct k opcode sub operand.toNat tick (.own o)

/-- PLAN (R246, R273). -/
def State.planInstr (s : State) (t : Fin 8) (c obj a : Nat) (e : HT) (pc : Nat) : Ends :=
  let g : EngSel := .tile t
  let k := s.jobOf g c
  let j := s.job (k.getD 0)
  s.async g c 0x37 0 pc obj (k.getD 0) a [] false (k.isNone || noSign e (s.ht .dist)) false (j.state < 2 || j.state = 7 || s.isOpen .dist)
    j.planning.isSome
    fun o u => u.plan (k.getD 0) e (some o)

/-! ### Shadows (R325) -/

/-- One digest pair of a sequence is judged (R325). `done` says that the gate or collective has completed, so that a missing digest
counts as missing. -/
def State.judgeShadow (s : State) (k node seq : Nat) (coll done : Bool) : State :=
  let j := s.job k
  match j.shadows.find? fun x => x.node == node && x.on with
  | none => s
  | some x =>
    if x.frozen || x.judged.contains (seq, coll) then s else
    let find (l : List (Nat × Bool × Nat)) : Option Nat := (l.find? fun d => d.1 == seq && d.2.1 == coll).map fun d => d.2.2
    let drop (l : List (Nat × Bool × Nat)) := l.filter fun d => !(d.1 == seq && d.2.1 == coll)
    let put (y : Shadow) (t : State) : State :=
      let z := { y with judged := (seq, coll) :: y.judged.take 15, own := drop y.own, theirs := drop y.theirs }
      t.modJob k fun v => { v with shadows := v.shadows.map fun w => if w.node = node then z else w }
    match find x.own, find x.theirs with
    | some a, some b =>
      if a = b then
        let n := x.count + 1
        let hit := n = s.fd .dist .mbrCfg2 15 8
        let t := put { x with count := n, eligible := x.eligible || hit } s
        if hit then t.jobEvent k 9 x.rank node else t
      else
        let t := put { x with count := 0, eligible := false, admitReq := none } s
        let t1 := (t.sendNodes (node :: (j.liveAt x.rank).toList) (j.frame 2 0x8E [seq, b2n coll])).jobEvent k 8 x.rank node
        match x.admitReq with
        | none => t1
        | some r =>
          let bad := j.phases.filter fun p => (j.admits p.words).contains node
          let t2 := t1.answerAll k (bad.map (·.req)) .state 0
          (t2.answer k r .integrity 0).modJob k fun v => { v with phases := v.phases.filter fun p => !bad.contains p }
    | none, some _ => if done then put { x with count := 0, eligible := false } s else s
    | none, none => if done then put { x with count := 0, eligible := false } s else s
    | some _, none => if done then put x s else s

/-- Judges every shadow of a job at the completion of a gate or collective. -/
def State.judgeAll (s : State) (k seq : Nat) (coll : Bool) : State :=
  (s.job k).shadows.foldl (fun t x => t.judgeShadow k x.node seq coll true) s

/-! ### Ramp ledger of a leaf pair (R272–R275) -/

/-- Windows of 1,000 ns in the range of HT; the one that straddles the wrap is shortened (R272). -/
def windowCount : Nat := (2 ^ 64 + 255999) / 256000

/-- The window of an instant (R272). -/
def windowOf (h : HT) : Nat := h.toNat / 256000

/-- The start of a window. -/
def winStart (w : Nat) : HT := BitVec.ofNat 64 (256000 * w)

/-- The windows after and before a window, across the wrap. -/
def winNext (w : Nat) : Nat := (w + 1) % windowCount
def winPrev (w : Nat) : Nat := (w + windowCount - 1) % windowCount

/-- Rises counted in a window. -/
def Ledger.rise (l : Ledger) (w : Nat) : Nat := (l.rises.filter fun r => r.window == w).length

/-- The ledger as fields, for the twin. -/
def Ledger.fields (l : Ledger) : List Nat :=
  counted (l.rises.flatMap fun r => [r.handle, r.rank, r.window, b2n r.fixed, r.heldAt.toNat]) ++ counted (l.falls.flatMap fun x => [x.1, x.2])
    ++ counted (l.jobs.flatMap fun x => [x.1, x.2.e.toNat, x.2.actedAt.toNat, x.2.plw, x.2.span, b2n x.2.pre] ++ counted x.2.ranks)

/-- The ledger changes; the A leaf of a pair sends it to the B leaf (R272). -/
def State.setLedger (s : State) (l : Ledger) : State :=
  let s1 := { s with ledger := l }
  if s.tier = 1 && s.domain = 0 && s.twinUp then s1.tellTwin 4 0 0 0 l.fields else s1

/-- The B leaf of a pair whose A leaf is in service: what acts on the ledger goes there (R272). -/
def State.aLeafActs (s : State) : Bool := s.tier = 1 && s.domain = 1 && s.twinUp

/-- Places ranks in windows from `w` down, at most `span` of them (R273); none if some do not fit. -/
def placeRanks (l : Ledger) (max : Nat) : Nat → Nat → List Nat → Option (List (Nat × Nat))
  | 0, _, ranks => if ranks.isEmpty then some [] else none
  | span + 1, w, ranks =>
    if ranks.isEmpty then some [] else
    let take := if max = 0 then ranks.length else min ranks.length (max - l.rise w)
    match placeRanks l max span (winPrev w) (ranks.drop take) with
    | some rest => some ((ranks.take take).map (fun r => (r, w)) ++ rest)
    | none => none

/-- The search of R273 from L: the instant offered and its placements. -/
def rampSearch (l : Ledger) (max planMin : Nat) (r : RampJob) : Nat → HT → Option (HT × List (Nat × Nat))
  | 0, _ => none
  | n + 1, L =>
    if 2560000000 < htDiff L (ceilTick r.e) then none else
    let wl := windowOf (if r.pre then L - BitVec.ofNat 64 (256 * r.plw) else L)
    let again := rampSearch l max planMin r n (L + 256000)
    match placeRanks l max (if r.pre then r.span else 1) wl r.ranks with
    | none => again
    | some ps =>
      let w := match ps.getLast? with
        | some p => p.2
        | none => winNext wl
      if atOrAfter (winStart w) (r.actedAt + BitVec.ofNat 64 (256000 * planMin)) then some (L, ps) else again

/-- Drops a job's held counts. -/
def Ledger.dropHeld (l : Ledger) (handle : Nat) : Ledger := { l with rises := l.rises.filter fun r => r.fixed || r.handle ≠ handle }

/-- Offers the first L from `L` at which a request fits, holding its counts, or refuses (R273). -/
def State.rampOfferFrom (s : State) (handle : Nat) (r : RampJob) (L : HT) : State × Option (HT × List (Nat × Nat)) :=
  let lg := s.ledger.dropHeld handle
  match rampSearch lg (s.fd .dist .plnRamp 31 16) (s.fd .dist .plnCfg 23 16) r 10002 L with
  | none => (s.setLedger lg, none)
  | some (l, ps) =>
    let held := ps.map fun p => ({ handle := handle, rank := p.1, window := p.2, fixed := false, heldAt := s.ht .dist } : Rise)
    (s.setLedger { lg with rises := lg.rises ++ held, jobs := (lg.jobs.filter fun x => x.1 ≠ handle) ++ [(handle, r)] }, some (l, ps))

/-- A RAMP_OFFER from this leaf: L, or a code. -/
def State.sendOffer (s : State) (handle : Nat) (l : HT) (c : Code) : State :=
  s.send .dist (.jobRoot handle) { cls := 2, ty := 0x51, nojob := true, fields := [handle, l.toNat, c.num] }

/-- Acts on a RAMP_REQ at a leaf (R273). -/
def State.actRamp (s : State) (handle : Nat) (e : HT) (plw span : Nat) (pre : Bool) (ranks : List Nat) : State :=
  let max := s.fd .dist .plnRamp 31 16
  let r : RampJob := { e := e, actedAt := s.ht .dist, plw := plw, span := span, pre := pre, ranks := ranks }
  if !pre && max ≠ 0 && max < ranks.length then s.sendOffer handle 0 .range else
  match s.rampOfferFrom handle r (ceilTick e) with
  | (s1, some (l, _)) => s1.sendOffer handle l .ok
  | (s1, none) => s1.sendOffer handle 0 .busy

/-- Forwards a frame unchanged: its ORIGIN_HT stays (R260). -/
def State.pass (s : State) (d : Dest) (f : Frame) : State :=
  s.mod .dist fun q => { q with sent := q.sent ++ [{ dest := d, frame := f.sized }] }

/-- RAMP_FIX at a leaf: confirms the fixed L, turning holds into reservations, or offers a later one (R273). -/
def rampFix (handle : BitVec 16) (l : HT) (s : State) : State :=
  if s.aLeafActs then s.pass .twin { cls := 2, ty := 0x52, nojob := true, fields := [handle.toNat, l.toNat, 0] } else
  match s.ledger.jobs.find? fun x => x.1 == handle.toNat with
  | none => s
  | some (_, r) =>
    match s.rampOfferFrom handle.toNat r l with
    | (s1, none) => s1.sendOffer handle.toNat 0 .busy
    | (s1, some (m, _)) =>
      if m ≠ l then s1.sendOffer handle.toNat m .ok else
      let fix (x : Rise) : Rise := if x.handle = handle.toNat then { x with fixed := true } else x
      (s1.setLedger { s1.ledger with rises := s1.ledger.rises.map fix }).send .dist (.jobRoot handle.toNat)
        { cls := 2, ty := 0x53, nojob := true, fields := [handle.toNat, l.toNat] }

/-- RAMP_HOLD_LAPSE: held counts that no fix reached within 1 ms are dropped (R273). -/
def rampHoldLapse (handle : BitVec 16) (s : State) : State :=
  match s.ledger.rises.find? fun r => r.handle == handle.toNat && !r.fixed with
  | none => s
  | some r =>
    let s1 := s.reach .dist (r.heldAt + 256000000)
    s1.setLedger { s1.ledger.dropHeld handle.toNat with jobs := s1.ledger.jobs.filter fun x => x.1 ≠ handle.toNat }

/-- The earliest window from `w` on with falls to spare (R275). -/
def fallWindow (falls : List (Nat × Nat)) (max : Nat) : Nat → Nat → Nat
  | 0, w => w
  | n + 1, w => if max = 0 || mget (fun _ => 0) falls w < max then w else fallWindow falls max n (winNext w)

/-- The epoch at which a relay knows a job: its own, or that of a PHASE whose tick has come (R319). -/
def State.relayEpoch (s : State) (v : Relay) : Nat :=
  (v.coming.filter fun x => atOrAfter (s.ht .dist) x.1).foldl (fun e x => if epochNewer x.2 e then x.2 else e) v.epoch

/-- The leaf's own action on a RELEASE_REQ: the release tick F goes to the member (R275). -/
def State.actFall (s : State) (node handle gen rank : Nat) : State :=
  let now := s.ht .dist
  let from_ := now + BitVec.ofNat 64 (256000 * s.fd .dist .plnCfg 15 8)
  let w0 := if from_ = winStart (windowOf from_) then windowOf from_ else winNext (windowOf from_)
  let w := fallWindow s.ledger.falls (s.fd .dist .plnRamp 15 0) (s.ledger.falls.length + 1) w0
  let lg := s.ledger
  let s1 := s.setLedger { lg with
    falls := mset (fun _ => 0) lg.falls w (mget (fun _ => 0) lg.falls w + 1)
    rises := lg.rises.filter fun r => !(r.handle == handle && r.rank == rank && after (winStart r.window) now) }
  let e := match s.relays.find? fun x => x.1 == handle with
    | some x => s.relayEpoch x.2
    | none => 0
  s1.send .dist (.node node) { cls := 2, ty := 0x14, handle := handle, gen := gen, epoch := e, fields := [(winStart w).toNat] }

/-! ### Ordered action (R260) -/

/-- Jobs that a lost leaf touches (R311): with the domain moving, those whose control domain ran through it; without, those below its twin. -/
def State.leafJobs (s : State) (leaf : Nat) : List Nat :=
  (s.jobs.filter fun kv => 1 < kv.2.state && kv.2.byLeaf.any fun x => x.1 == leaf).map (·.1)

/-- Acts on a held request or notice. -/
def State.actHeld (s : State) (h : Held) : State :=
  match h.kind with
  | .armReq handle gen rank earliest leaf v3 => s.actArm h.node handle gen rank earliest leaf v3
  | .releaseReq handle gen rank =>
    match s.jobOfHandle handle with
    | some k => if (s.job k).gen = gen then s.actRelease k h.node else s
    | none => if s.tier = 1 then s.actFall h.node handle gen rank else s
  | .rampReq handle e plw span pre ranks => s.actRamp handle e plw span pre ranks
  | .dead node cause => (s.jobsOf node).foldl (fun t x => t.memberDead x.1 cause node)
      (s.jobs.foldl (fun t kv => if (kv.2.shadows.any fun x => x.node == node) && (kv.2.rankOf node).isNone
        then t.memberDead kv.1 cause node else t) s)
  | .leafLost leaf twin =>
    let mine := s.leafJobs leaf
    let others := ((twin.toList.flatMap fun w => s.leafJobs w).filter fun k => !mine.contains k)
    let s1 := mine.foldl (fun t k => (t.modJob k fun v => { v with moveDomain := true }).advance k 32 leaf) s
    others.foldl (fun t k => t.advance k 32 leaf) s1
  | .jobCmd .. => s.takeHeld h

/-- The instant at which a held frame is acted on (R260). -/
def State.holdUntil (s : State) (origin : HT) : HT := origin + BitVec.ofNat 64 (256000 * s.fd .dist .plnCfg 31 24)

/-- Receives a request: held, or past its hold acted on at once with ORDER_LATE (R260). A job command past its hold follows those of its job that wait
and come before it, and counts as no late request (R240). -/
def State.hold (s : State) (h : Held) : State :=
  let u := s.holdUntil h.origin
  let now := s.ht .dist
  if after u now || u = now then { s with held := s.held ++ [h] }
  else match h.cmdOf with
  | some handle => (s.takeBefore s.held.length handle h).takeHeld h
  | none =>
    let late := (now - u).toNat
    let handle := match h.kind with
      | .armReq x _ _ _ _ _ | .releaseReq x _ _ | .rampReq x _ _ _ _ _ => x
      | _ => 0
    let j := match s.jobOfHandle handle with
      | some k => s.job k
      | none => { handle := handle }
    (((s.setB .dist .plnStat 2).bump .dist .plnCnt 31 16 1).jobRec j 4 j.state late).actHeld h

/-- ORDER_HOLD_RELEASE: the first held frame passes its hold and is acted on (R260). -/
def orderHoldRelease (s : State) : State :=
  match s.held with
  | [] => s
  | h :: hs =>
    let m := hs.foldl (fun b x => if x.before b then x else b) h
    ({ s.reach .dist (s.holdUntil m.origin) with held := s.held.erase m }).actHeld m

/-- JOBCMD: the job root holds a forwarded command for its turn (R240, R260). -/
def jobcmd (origin : HT) (node : BitVec 20) (handle : BitVec 16) (gen : Byte) (epoch : Word) (opcode sub : Nat) (operand tick : DWord) (tag : Fin 8)
    (s : State) : State :=
  if (s.jobOfHandle handle.toNat).isNone then s
  else s.hold { origin := origin, node := node.toNat, kind := .jobCmd handle.toNat gen.toNat epoch.toNat opcode sub operand.toNat tick tag }

/-- ARM_REQ received by the distributor (R260): held at the job root its descriptor names, else forwarded unchanged. -/
def armReq (origin : HT) (node root : BitVec 20) (handle : BitVec 16) (gen : Byte) (rank : BitVec 20) (earliest : HT)
    (leaf : BitVec 20) (v3 : Bool) (s : State) : State :=
  if root.toNat = s.node .dist then
    s.hold { origin := origin, node := node.toNat, kind := .armReq handle.toNat gen.toNat rank.toNat earliest leaf.toNat v3 }
  else
    let keep := s.rankNodes.filter fun x => !(x.1 == handle.toNat && x.2.1 == rank.toNat)
    let s1 := { s with rankNodes := (handle.toNat, rank.toNat, node.toNat) :: keep }
    s1.pass (.node root.toNat)
      { cls := 2, ty := 0x10, handle := handle.toNat, gen := gen.toNat, origin := origin, fields := [node.toNat, rank.toNat, earliest.toNat] }

/-- RELEASE_REQ: a leaf forwards it at once and holds it for its own action; the job root holds it (R260, R275). The B leaf of a pair passes it to the A
leaf, which keeps the ledger and only acts on what comes that way (R272). -/
def releaseReq (origin : HT) (node : BitVec 20) (handle : BitVec 16) (gen : Byte) (rank : BitVec 20) (s : State) : State :=
  let h : Held := { origin := origin, node := node.toNat, kind := .releaseReq handle.toNat gen.toNat rank.toNat }
  let f : Frame := { cls := 2, ty := 0x13, handle := handle.toNat, gen := gen.toNat, origin := origin, fields := [rank.toNat] }
  if (s.jobOfHandle handle.toNat).isSome then s.hold h
  else if s.tier = 1 && s.domain = 0 && s.twinUp && !(s.relays.any fun x => x.1 == handle.toNat) then s.hold h
  else
    let s1 := s.pass (.jobRoot handle.toNat) f
    let gone (x : Nat × Relay) : Nat × Relay :=
      if x.1 = handle.toNat then (x.1, { x.2 with members := x.2.members.filter fun n => n ≠ node.toNat }) else x
    let s2 := { s1 with relays := s1.relays.map gone }
    if s.aLeafActs then s2.pass .twin f else if s.tier = 1 then s2.hold h else s2

/-- RAMP_REQ at a leaf (R260, R273); the B leaf passes it to the A leaf (R272). -/
def rampReq (origin : HT) (node : BitVec 20) (handle : BitVec 16) (e : HT) (plw : BitVec 16) (span : Byte) (pre : Bool)
    (ranks : List (BitVec 20)) (s : State) : State :=
  if s.aLeafActs then
    s.pass .twin { cls := 2, ty := 0x50, nojob := true, origin := origin,
                   fields := [handle.toNat, e.toNat, plw.toNat, span.toNat, b2n pre, ranks.length] ++ ranks.map BitVec.toNat }
  else s.hold { origin := origin, node := node.toNat, kind := .rampReq handle.toNat e plw.toNat span.toNat pre (ranks.map BitVec.toNat) }

/-! ### Frames a leaf or pod root relays (R307, R319) -/

/-- What a relay learns from an ARM_ACK or REPLAN frame it passes on, and the member an ARM_ACK is for (R307, R319). With a newer epoch what it has
combined for the job is void (R302). -/
def State.relayLearn (s : State) (handle gen epoch root : Nat) (node : Option Nat) : State :=
  let new : Relay := { gen := gen, epoch := epoch, root := root, members := [] }
  let old : Relay := match s.relays.find? fun x => x.1 == handle with
    | some x => if x.2.gen = gen then x.2 else new
    | none => new
  let v := { old with
    epoch := epoch
    coming := old.coming.filter fun x => epochNewer x.2 epoch
    members := match node with
      | some n => if old.members.contains n then old.members else old.members ++ [n]
      | none => old.members }
  let s1 := { s with relays := (s.relays.filter fun x => x.1 ≠ handle) ++ [(handle, v)] }
  if epochNewer epoch (s.relayEpoch old) then s1.dropInsts handle else s1

/-- A PHASE frame passed on: its epoch is the job's from its tick on (R271, R319). -/
def State.relayComing (s : State) (handle gen : Nat) (t : HT) (epoch : Nat) : State :=
  let put (x : Nat × Relay) : Nat × Relay :=
    if x.1 ≠ handle || x.2.gen ≠ gen || x.2.coming.contains (t, epoch) then x else (x.1, { x.2 with coming := x.2.coming ++ [(t, epoch)] })
  { s with relays := s.relays.map put }

/-- The dead node is no member below this relay any more. -/
def State.relayDead (s : State) (node : Nat) : State :=
  { s with relays := s.relays.map fun x => (x.1, { x.2 with members := x.2.members.filter fun n => n ≠ node }) }

end Sys2Proof.Machine
end

