-- ==== Sys2Proof/Machine/Combiner.lean ====
section
/-!
DEFINITION. Gates and collectives as the tree combines them (R262–R266, R292–R302): leaves, pod roots and the job root, lane groups
and the queue, spills, and the results. The arithmetic is in Combine.
-/
namespace Sys2Proof.Machine

/-! ### Who contributes -/

/-- A node this distributor has fenced (R310). -/
def State.nodeFenced (s : State) (node : Nat) : Bool := s.nodes.any fun kv => kv.2.node == node && kv.2.state == 2

/-- Contributions to wait for: of every live member at the job root, of the live members below at a leaf or pod root (R262, R264). -/
def State.expected (s : State) (handle : Nat) : Nat :=
  match s.jobOfHandle handle with
  | some k => (s.job k).live.length
  | none => match s.relays.find? fun x => x.1 == handle with
    | some x => (x.2.members.filter fun n => !s.nodeFenced n).length
    | none => 0

/-- Generation and epoch are those this distributor knows the job by (R319). -/
def State.knows (s : State) (handle gen epoch : Nat) : Bool :=
  match s.jobOfHandle handle with
  | some k => (s.job k).gen == gen && (s.job k).epoch == epoch
  | none => s.relays.any fun x => x.1 == handle && x.2.gen == gen && s.relayEpoch x.2 == epoch

/-- What was combined for a job in an epoch before the present one is void (R265, R302). -/
def State.voidOld (s : State) (handle epoch : Nat) : State :=
  { s with insts := s.insts.filter fun i => i.handle ≠ handle || i.epoch = epoch
           gateParts := s.gateParts.filter fun g => g.handle ≠ handle || g.epoch = epoch }

/-- A frame of a die below that has lost its path in the job's control domain: this leaf has no part in the job, and its twin may (R312). -/
def State.viaTwin (s : State) (handle : Nat) : Bool :=
  s.tier = 1 && s.twinUp && (s.jobOfHandle handle).isNone && !(s.relays.any fun x => x.1 == handle)

/-- Takes a frame of a job at a combining point: relayed for the twin, dropped and counted if stale, else acted on (R312, R319). -/
def State.combineAt (s : State) (handle gen epoch : Nat) (relayed : Frame) (act : State → State) : State :=
  if s.viaTwin handle then s.pass .twin { relayed with handle := handle, gen := gen, epoch := epoch }
  else if s.knows handle gen epoch then act (s.voidOld handle epoch) else s.staleDrop

/-- Drops a contribution of a sequence that is not open (R262, R299). -/
def State.plnDrop (s : State) : State := s.bump .dist .plnCnt 15 0 1

/-! ### Results of a gate or collective at the job root (R264, R266, R287–R291, R300, R356) -/

/-- The writer of a tile's combiner records. -/
def cmbWho (tile : Nat) : Who := { p := .dist, tile := tile, blk := 9, ctx := 0x20 }

/-- A CMB_EVENT record (R365): 0 POISON, 1 INTEGRITY, 2 FALLBACK. -/
def State.cmbRec (s : State) (tile kind handle seq idx rank : Nat) : State :=
  s.jnl (cmbWho tile) 0x0A00 (pay [(0, 1, kind), (1, 2, handle), (3, 2, seq), (5, 1, idx), (6, 3, rank)])

/-- The result bytes of a reduction for the job root's own record: of a SCAN, those of rank 0 (log entry 19). -/
def Red.rootBytes (r : Red) (own : Nat) : List Byte := if shOp own = 10 then r.scanResult own 0 else r.result own

/-- Sends one reduction's result to every live member: RESULT frames, or SCAN_RESULT to each (R299, R300). -/
def State.sendResult (s : State) (k : Nat) (i : Inst) (own : Nat) : State :=
  let j := s.job k
  let c := i.red.code own
  let h : CmbHdr := { seq := i.seq, coll := i.coll, idx := i.idx, shape := own, contributors := i.red.contributors, code := c.num,
                      poison := i.red.poison, integrity := i.red.integrity }
  let split (bs : List Byte) : List (List Byte) := (List.range ((bs.length + 7) / 8)).map fun n => (bs.drop (8 * n)).take 8
  if shOp own = 10 then
    j.live.foldl (fun t m => (cmbFrames (j.frame 4 0x04 []) { h with rank := m.1 } (split (i.red.scanResult own m.1))).foldl
      (fun u f => u.send .dist (.node m.2) f) t) s
  else
    j.live.foldl (fun t m => (cmbFrames (j.frame 4 0x03 []) h (split (i.red.result own))).foldl
      (fun u f => u.send .dist (.node m.2) f) t) s

/-- Journals POISON or INTEGRITY of a delivered reduction (R292, R293). -/
def State.resultEvents (s : State) (i : Inst) (own : Nat) : State :=
  match i.red.code own with
  | .range => (s.setB .dist .cmbStat 2 i.tile).cmbRec i.tile 0 i.handle i.seq i.idx i.badRank
  | .integrity => s.cmbRec i.tile 1 i.handle i.seq i.idx 0
  | _ => s

/-- The status block of R266. -/
def statusBlock (or_ and_ : DWord) (count seq : Nat) : List Byte :=
  natLe 8 or_.toNat ++ natLe 8 and_.toNat ++ natLe 4 count ++ natLe 2 seq ++ List.replicate 10 0

/-- Compares a replayed gate with the record of its sequence (R356). -/
def State.replayCheck (s : State) (k seq dig : Nat) : State :=
  let j := s.job k
  match j.gates.find? fun g => g.1 == seq with
  | none => s.bump .dist .cstRplCnt 15 0 1
  | some (_, ws, d, _) =>
    if ws ≠ j.words && !j.shapeInv then s.bump .dist .cstRplCnt 15 0 1
    else if d = dig then s
    else
      let s1 := if s.bt .dist .cstStat 6 then s else s.wr .dist .cstRpl (BitVec.ofNat 32 seq)
      ((s1.bump .dist .cstRplCnt 31 16 1).setB .dist .cstStat 6).jobJnl { p := .dist, tile := j.tile, blk := 14 } j 0x0902
        (pay [(0, 2, j.handle), (2, 2, seq), (4, 1, 0)])

/-- The gate's reductions at the job root, in order, once all have come. -/
def State.gateInsts (s : State) (j : Job) (g : GateRoot) : List Inst :=
  (List.range g.n).filterMap fun x => s.insts.find? fun i => i.handle == j.handle && !i.coll && i.seq == g.seq && i.idx == x && i.ready

/-- OPEN goes out ahead of a gate's LAUNCH for the first slot that every live member has asked for, if no slot of the job is open and
unresolved (R341). -/
def State.openEpoch (s : State) (k : Nat) (l : HT) : State :=
  let j := s.job k
  let live := j.live.map (·.2)
  if j.slots.any fun x => x.2.state == 2 then s else
  match j.slots.find? fun x => live.all fun n => x.2.asked.any fun a => a.1 == n with
  | none => s
  | some (i, v) => match v.asked with
    | [] => s
    | (_, b, wofs, wlen) :: _ =>
      let f := j.frame 2 0x32 [3, i, l.toNat, b, wofs, wlen]
      let v1 : EpochSlot := { state := 2, lOpen := l, gateSeq := j.gateSeq, b := b, wofs := wofs, wlen := wlen }
      (((s.send .dist (.leaves j.handle) f).sendNodes live f).setJob k { j with slots := mset (fun _ => {}) j.slots i v1 }).mirrorJob k

/-- The open gate completes if every live member has contributed to its status and to each reduction (R264): results go out, then
the record and the LAUNCH. -/
def State.gateTry (s : State) (k : Nat) : State :=
  let j := s.job k
  match j.gate with
  | none => s
  | some g =>
    let is := s.gateInsts j g
    if g.count < j.live.length || is.length < g.n then s else
    let lead := if g.lead ≠ 0 then g.lead else if j.lead ≠ 0 then j.lead else s.defaultLead
    let l := ceilTick (s.ht .dist + BitVec.ofNat 64 (256 * lead))
    let pairs := is.zip g.shapes
    let s1 := pairs.foldl (fun t p => (t.sendResult k p.1 p.2).resultEvents p.1 p.2) s
    let block := statusBlock g.or_ g.and_ g.count g.seq
    let reds := pairs.flatMap fun p => p.1.red.rootBytes p.2
    let dig := digest128 (natLe 2 g.seq ++ block ++ reds)
    let s2 := if j.greplay then s1.replayCheck k g.seq dig else s1
    let s3 := s2.jobJnl (jobWho j) j 0x0702 dig
    let s4 := (s3.modJob k fun v => { v with
      gate := none, resultSeq := (v.resultSeq + 1) % 65536
      gates := if j.greplay then v.gates else v.gates ++ [(g.seq, j.words, dig, l)] }).dropInsts j.handle
    let ends := j.greplay && (j.gates.getLast?).map (·.1) == some g.seq
    let s5 := (s4.openEpoch k l).sendLaunch k l true g.seq j.resultSeq none ends
    ((s5.completeOp (some g.op) .ok l 0 (resultExtra j.resultSeq g.n) (block ++ reds)).judgeAll k g.seq false).mirrorJob k

/-- A collective completes at the job root (R247, R299). -/
def State.collDone (s : State) (k : Nat) (c : CollRoot) (i : Inst) : State :=
  let j := s.job k
  let s1 := (s.sendResult k i c.shape).resultEvents i c.shape
  let s2 := (s1.completeOp (some c.op) .ok 0 0 (resultExtra j.resultSeq 1)
    (i.red.rootBytes c.shape)).judgeAll k c.seq true
  { s2.modJob k fun v => { v with colls := v.colls.filter (· ≠ c), resultSeq := (v.resultSeq + 1) % 65536 } with
    insts := s2.insts.erase i }

/-! ### Instances (R292–R296) -/

/-- The combining tile of a job (R294). -/
def combTile (handle : Nat) : Nat := handle % 8

/-- Lane groups of a tile in use. -/
def State.groupsUsed (s : State) (tile : Nat) : Nat := (s.insts.filter fun i => i.tile == tile && i.granted).length

/-- Instances of a tile that wait for a group (CMB_QOCC.OCC). -/
def State.qocc (s : State) (tile : Nat) : Nat := (s.insts.filter fun i => i.tile == tile && !i.granted && i.spill.isNone).length

/-- Raises CMB_QOCC.PEAK to the present occupancy (R304). -/
def State.qpeak (s : State) (tile : Nat) : State :=
  if s.fd .dist .cmbQocc 31 16 tile < s.qocc tile then s.setF .dist .cmbQocc 31 16 (min (s.qocc tile) 65535) tile else s

/-- Which instance an input names. -/
structure InstKey where
  handle : Nat
  gen : Nat
  epoch : Nat
  seq : Nat
  coll : Bool
  idx : Nat
  deriving DecidableEq, Repr

def Inst.isKey (i : Inst) (q : InstKey) : Bool :=
  i.handle == q.handle && i.seq == q.seq && i.coll == q.coll && i.idx == q.idx

/-- The gate or collective is open at the job root, or this is a leaf or pod root (R262, R299). A leaf holds one gate of a job. -/
def State.instOpen (s : State) (q : InstKey) : Bool :=
  match s.jobOfHandle q.handle with
  | some k =>
    let j := s.job k
    if q.coll then j.colls.any fun c => c.seq == q.seq && q.idx == 0
    else match j.gate with
      | some g => g.seq == q.seq && decide (q.idx < g.n)
      | none => false
  | none => q.coll || !(s.insts.any fun i => i.handle == q.handle && !i.coll && i.seq ≠ q.seq)

/-- An input joins an instance's partial: another shape, NSPILL or SPILL poisons it (R292). -/
def joinRed (a b : Red) : Red :=
  if a.shape = b.shape && a.nspill = b.nspill && a.spill = b.spill then a.merge b
  else { a with poison := true, contributors := a.contributors + b.contributors }

def State.putInst (s : State) (old new : Inst) : State :=
  { s with insts := s.insts.map fun i => if i = old then new else i }

/-- Readout of a complete instance (R287, R293, R299): at the job root it is ready, else its PARTIAL goes up. `check` says that the
lanes' residues agree. -/
def State.readout (s : State) (i : Inst) (check : Bool) : State :=
  let i1 := if check then i else { i with red := { i.red with integrity := true } }
  let s1 := if check then s else s.setB .dist .cmbStat 0 i.tile
  match s.jobOfHandle i.handle with
  | some k =>
    let i2 := { i1 with ready := true, granted := false }
    let s2 := s1.putInst i i2
    if i.coll then
      match (s2.job k).colls.find? fun c => c.seq == i.seq with
      | some c => s2.collDone k c i2
      | none => s2
    else s2.gateTry k
  | none =>
    let r := i1.red
    let h : CmbHdr := { seq := i.seq, coll := i.coll, idx := i.idx, poison := r.poison, integrity := r.integrity, shape := r.shape,
                        nspill := r.nspill, contributors := r.contributors, spill := r.spill }
    let base : Frame := { cls := 4, ty := 0x02, handle := i.handle, gen := i.gen, epoch := i.epoch }
    let els := if shOp r.shape = 10 then r.scan.map fun p => wordsLe (p.1 :: p.2.flatMap fun v => [wrapInt 64 v, wrapInt 64 (v / (2 ^ 64 : Nat))])
               else r.elems.map fun p => match p.2 with
                 | some x => wordsLe (elemWords r.shape x)
                 | none => []
    (cmbFrames base h els).foldl (fun t f => t.send .dist .up f) { s1 with insts := s1.insts.erase i }

/-- Reads an instance out if every contribution it waits for has been merged (R264, R296). -/
def State.instTry (s : State) (i : Inst) (check : Bool) : State :=
  if i.granted && i.spill.isNone && !i.ready && decide (s.expected i.handle ≤ i.done) then s.readout i check else s

/-- A new instance for an input: it takes a free group or waits (R294, R296). -/
def State.newInst (s : State) (q : InstKey) (r : Red) : Inst :=
  let t := combTile q.handle
  { tile := t, handle := q.handle, gen := q.gen, epoch := q.epoch, seq := q.seq, coll := q.coll, idx := q.idx
    granted := decide (s.groupsUsed t < s.fd .dist .cmbStatus 7 0 t)
    red := { shape := r.shape, nspill := r.nspill, spill := r.spill } }

/-- An input reaches an instance: merged if it holds a group, else left to wait (R296). `n` members complete with it. -/
def State.instInput (s : State) (q : InstKey) (r : Red) (n rank : Nat) (check : Bool) : State :=
  let (i, s1) := match s.insts.find? (·.isKey q) with
    | some i => (i, s)
    | none =>
      let i := s.newInst q r
      (i, { s with insts := s.insts ++ [i] }.qpeak i.tile)
  let bad := i.red.shape ≠ r.shape || i.red.nspill ≠ r.nspill || i.red.spill ≠ r.spill || r.poison
  let i1 := { i with done := i.done + n, badRank := if bad && !i.red.poison then rank else i.badRank }
  let i2 := if i.granted then { i1 with red := joinRed i1.red r } else { i1 with waiting := i1.waiting ++ [r] }
  (s1.putInst i i2).instTry i2 check

/-- QUEUE_GRANT: the oldest waiting instance of a tile is granted a free group and its inputs stream in (R296). -/
def queueGrant (t : Fin 8) (check : Bool) (s : State) : State :=
  if s.fd .dist .cmbStatus 7 0 t.val ≤ s.groupsUsed t.val then s else
  match s.insts.find? fun i => i.tile == t.val && !i.granted && !i.ready && i.spill.isNone with
  | none => s
  | some i =>
    let i1 := { i with granted := true, red := i.waiting.foldl joinRed i.red, waiting := [] }
    (s.putInst i i1).instTry i1 check

/-! ### Spills (R297, R298) -/

/-- The lower-numbered UP port of a die's two (R12, R297). -/
def State.diePort (s : State) (p : Nat) : Option Nat := [2 * p, 2 * p + 1].find? fun n => s.portState .dist n == 6

/-- Spill bytes: entry `i` of SPILL. -/
def spillAt (spill i : Nat) : Nat := spill / 2 ^ (8 * i) % 128

/-- Raw elements as they travel in a CONTRIB or SPILL_IN frame: the first index, and the elements (R299). -/
structure RawElems where
  first : Nat
  elems : List DWord

/-- Their bytes, packed at the IFMT width of a shape. -/
def RawElems.bytes (x : RawElems) (shape : Nat) : List Byte := x.elems.flatMap fun v => natLe (fmtBytes (shIfmt shape)) v.toNat

/-- A SPILL_IN frame on a port: a contribution as it came, or LAST (R297, R299). -/
def State.sendSpill (s : State) (i : Inst) (port : Nat) (last : Bool) (rank contributors : Nat) (r : Red) (x : RawElems) : State :=
  let h : CmbHdr := { seq := i.seq, coll := i.coll, idx := i.idx, last := last, shape := r.shape, nspill := r.nspill, spill := r.spill,
                      first := x.first, count := x.elems.length, rank := rank, contributors := contributors }
  s.send .dist (.port port)
    { cls := 4, ty := 0x05, handle := i.handle, gen := i.gen, epoch := i.epoch, fields := h.fields, data := x.bytes r.shape }

/-- Whether a leaf spills a new instance (R297). -/
def State.spills (s : State) (t : Nat) (r : Red) : Bool :=
  let hwm := s.fd .dist .cmbCfg 31 16 t
  s.tier = 1 && shMovable r.shape && r.nspill ≠ 0 && hwm ≠ 0 && decide (hwm ≤ s.qocc t)

/-- The leaf combines a spilled instance itself from its copy (R298). -/
def State.fallBack (s : State) (i : Inst) (check : Bool) : State :=
  match i.spill with
  | none => s
  | some sp =>
    let g := decide (s.groupsUsed i.tile < s.fd .dist .cmbStatus 7 0 i.tile)
    let i1 := { i with
      spill := none, granted := g
      red := if g then sp.copy.foldl joinRed i.red else i.red
      waiting := if g then [] else sp.copy }
    let s1 := ((s.putInst i i1).bump .dist .cmbCnt 15 0 1 i.tile).setB .dist .cmbStat 4 i.tile
    (s1.qpeak i.tile).instTry i1 check

/-- A contribution to an instance that is, or becomes, spilled: copied and sent on; after the last, SPILL_IN with LAST (R297). With no port of the
target UP, or the one used gone since, the leaf combines the instance itself (R298). -/
def State.spillInput (s : State) (i : Inst) (sp : SpillOut) (r : Red) (n rank : Nat) (check : Bool) (x : RawElems) : State :=
  let sp1 := { sp with copy := sp.copy ++ [r], sentAt := s.ht .dist }
  let done := i.done + n
  match (if sp.lost then none else s.diePort sp.target) with
  | none =>
    let i1 := { i with done := done, spill := some sp1 }
    (s.putInst i i1).fallBack i1 check
  | some p =>
    let last := decide (s.expected i.handle ≤ done)
    let i1 := { i with done := done, spill := some { sp1 with port := p, lastSent := last } }
    let s1 := (s.putInst i i1).sendSpill i1 p false rank n r x
    if last then s1.sendSpill i1 p true 0 done i1.red ⟨0, []⟩ else s1

/-- A leaf takes a member's raw contribution, or spills its instance (R283, R297). -/
def State.contribAt (s : State) (q : InstKey) (r : Red) (n rank : Nat) (check : Bool) (x : RawElems) : State :=
  if !s.instOpen q then s.plnDrop else
  match s.insts.find? (·.isKey q) with
  | some i => match i.spill with
    | some sp => s.spillInput i sp r n rank check x
    | none => s.instInput q r n rank check
  | none =>
    let t := combTile q.handle
    if s.spills t r then
      let rot := mget (fun _ => 0) s.rotation t
      let sp : SpillOut := { target := spillAt r.spill (rot % r.nspill), copy := [], sentAt := s.ht .dist, lastSent := false }
      let i := { s.newInst q r with granted := false, spill := some sp }
      let s1 := { s with insts := s.insts ++ [i], rotation := mset (fun _ => 0) s.rotation t ((rot + 1) % 2 ^ 32) }
      ((s1.bump .dist .cmbCnt 31 16 1 t).setB .dist .cmbStat 3 t).spillInput i sp r n rank check x
    else s.instInput q r n rank check

/-- CONTRIB_FRAME: a leaf absorbs a member's raw contribution, or spills its instance (R283, R297). `last` ends the member's elements.
A stale frame is dropped and counted; one whose job runs through the other leaf is relayed (R312). -/
def contribFrame (origin : HT) (handle : BitVec 16) (gen : Byte) (epoch : Word) (seq : BitVec 16) (coll : Bool) (idx : Fin 4) (shape : Word)
    (nspill : Byte) (spill : DWord) (rank : BitVec 20) (first : Byte) (elems : List DWord) (last check : Bool) (s : State) : State :=
  let q : InstKey := { handle := handle.toNat, gen := gen.toNat, epoch := epoch.toNat, seq := seq.toNat, coll := coll, idx := idx }
  let n := b2n last
  let r0 : Red := { shape := shape.toNat, nspill := nspill.toNat, spill := spill.toNat, contributors := n }
  let r := r0.absorb rank.toNat first.toNat (elems.map BitVec.toNat)
  let x : RawElems := ⟨first.toNat, elems⟩
  let h : CmbHdr := { seq := q.seq, coll := coll, idx := idx, last := last, shape := r0.shape, nspill := r0.nspill, first := x.first
                      count := elems.length, rank := rank.toNat, contributors := 1, spill := r0.spill }
  s.combineAt q.handle q.gen q.epoch { cls := 4, ty := 0x01, origin := origin, fields := h.fields, data := x.bytes r0.shape }
    fun t => t.contribAt q r n rank.toNat check x

/-- PARTIAL: a partial from below merges into its instance (R286, R299). -/
def partialFrame (handle : BitVec 16) (gen : Byte) (epoch : Word) (seq : BitVec 16) (coll : Bool) (idx : Fin 4) (shape : Word)
    (nspill : Byte) (spill : DWord) (poison integrity : Bool) (first : Byte) (elems : List WElem) (contributors : BitVec 20)
    (last check : Bool) (s : State) : State :=
  let q : InstKey := { handle := handle.toNat, gen := gen.toNat, epoch := epoch.toNat, seq := seq.toNat, coll := coll, idx := idx }
  if !s.knows q.handle q.gen q.epoch then s.staleDrop
  else if !(s.voidOld q.handle q.epoch).instOpen q then s.plnDrop
  else
    let n := if last then contributors.toNat else 0
    let r0 : Red := { shape := shape.toNat, nspill := nspill.toNat, spill := spill.toNat, poison := poison, integrity := integrity,
                      contributors := n }
    let r := (elems.zipIdx).foldl (fun t w => t.absorbW (first.toNat + w.2) w.1) r0
    (s.voidOld q.handle q.epoch).instInput q r n 0 check

/-- SPILL_OUT at the leaf (R297, R298): the final frame's partial is forwarded as the leaf's own; BUSY or INTEGRITY falls back to the
copy; one for no spilled instance, or for one whose target port has left UP, is discarded. -/
def spillOut (node : BitVec 20) (handle : BitVec 16) (gen : Byte) (epoch : Word) (seq : BitVec 16) (coll : Bool) (idx : Fin 4)
    (code : Code) (poison integrity : Bool) (first : Byte) (elems : List WElem) (last check : Bool) (s : State) : State :=
  let q : InstKey := { handle := handle.toNat, gen := gen.toNat, epoch := epoch.toNat, seq := seq.toNat, coll := coll, idx := idx }
  if !s.knows q.handle q.gen q.epoch then s.staleDrop else
  match s.insts.find? fun i => i.isKey q && i.spill.isSome with
  | none => s.setB .dist .cmbStat 1 (combTile q.handle)
  | some i =>
    if i.spill.any (·.lost) then (s.fallBack i check).setB .dist .cmbStat 1 i.tile else
    if code ≠ .ok then s.fallBack i check
    else if integrity then (s.cmbRec i.tile 2 i.handle i.seq i.idx node.toNat).fallBack i check
    else
      let r := (elems.zipIdx).foldl (fun t w => t.absorbW (first.toNat + w.2) w.1) { i.red with poison := i.red.poison || poison }
      let i1 := { i with red := r }
      let s1 := s.putInst i i1
      if !last then s1 else
      let i2 := { i1 with spill := none, granted := true, red := { r with contributors := i1.done } }
      (s1.putInst i1 i2).instTry i2 true

/-- A TSU answers a spill (R298, R299). -/
def State.sendSpillOut (s : State) (port : Nat) (q : InstKey) (c : Code) (r : Red) : State :=
  let h : CmbHdr := { seq := q.seq, coll := q.coll, idx := q.idx, poison := r.poison, integrity := r.integrity, shape := r.shape,
                      nspill := r.nspill, spill := r.spill, contributors := r.contributors, code := c.num }
  let base : Frame := { cls := 4, ty := 0x06, handle := q.handle, gen := q.gen, epoch := q.epoch }
  let els := if c ≠ .ok then [] else if shOp r.shape = 10 then
      r.scan.map fun p => wordsLe (p.1 :: p.2.flatMap fun v => [wrapInt 64 v, wrapInt 64 (v / (2 ^ 64 : Nat))])
    else r.elems.map fun p => match p.2 with
      | some x => wordsLe (elemWords r.shape x)
      | none => []
  (cmbFrames base h els).foldl (fun t f => t.send .tsu (.port port) f) s

/-- SPILL_IN at a combiner TSU (R297, R298): absorbed, or refused with BUSY; after LAST the partial goes back. A residue mismatch in
its lanes (`check` false) is flagged and counted in the present bin (R293, R327). -/
def spillIn (port : Fin 4) (handle : BitVec 16) (gen : Byte) (epoch : Word) (seq : BitVec 16) (coll : Bool) (idx : Fin 4) (shape : Word)
    (nspill : Byte) (spill : DWord) (rank : BitVec 20) (first : Byte) (elems : List DWord) (last : Bool) (contributors : BitVec 20)
    (check : Bool) (s : State) : State :=
  let q : InstKey := { handle := handle.toNat, gen := gen.toNat, epoch := epoch.toNat, seq := seq.toNat, coll := coll, idx := idx }
  let r0 : Red := { shape := shape.toNat, nspill := nspill.toNat, spill := spill.toNat }
  let newer := match s.spilled with
    | some (i, _) => i.handle = q.handle && i.gen = q.gen && epochNewer q.epoch i.epoch
    | none => false
  let held := if newer then none else s.spilled
  let mine := match held with
    | some (i, _) => i.isKey q && i.gen == q.gen && i.epoch == q.epoch
    | none => true
  let s0 := { s with spilled := held }
  if !s.bt .tsu .cmbCfg 0 || s.fenced || !mine then
    (s0.setB .tsu .cmbStat 4).sendSpillOut port q .busy r0
  else
    let i : Inst := match held with
      | some (x, _) => x
      | none => { tile := 0, handle := q.handle, gen := q.gen, epoch := q.epoch, seq := q.seq, coll := q.coll, idx := q.idx, granted := true, red := r0 }
    let i1 := if last then { i with red := { i.red with contributors := contributors.toNat } }
              else { i with red := joinRed i.red (r0.absorb rank.toNat first.toNat (elems.map BitVec.toNat)) }
    if !last then { s0 with spilled := some (i1, s.ht .tsu) }
    else
      let r := { i1.red with integrity := i1.red.integrity || !check }
      let s1 := { s0.bump .tsu .cmbCnt 31 16 1 with spilled := none }
      let s2 := if check then s1 else (s1.setB .tsu .cmbStat 0).binEvent s1.presentBin 24
      s2.sendSpillOut port q .ok r

/-- SPILL_TIMEOUT (R298): at the leaf a spilled instance is combined from the copy, at once where the target port has left UP; at the TSU the held one
is discarded. -/
def spillTimeout (p : PartId) (t : Fin 8) (check : Bool) (s : State) : State :=
  match p with
  | .dist =>
    match s.insts.find? fun i => i.tile == t.val && i.spill.isSome with
    | none => s
    | some i =>
      let s1 := match i.spill with
        | some sp => if sp.lost then s else s.reach .dist (sp.sentAt + BitVec.ofNat 64 (256000 * s.fd .dist .cmbCfg 15 8 t.val))
        | none => s
      s1.fallBack i check
  | .tsu =>
    match s.spilled with
    | none => s
    | some (_, h) =>
      let s1 := s.reach .tsu (h + BitVec.ofNat 64 (256000 * s.fd .tsu .cmbCfg 15 8))
      { s1.bump .tsu .cmbCnt 15 0 1 with spilled := none }

/-! ### Gate status (R262–R265) -/

/-- A gate part takes a contribution; complete, the GATE_PART goes up (R262). -/
def State.gatePut (s : State) (old g : GatePart) : State :=
  if s.expected g.handle ≤ g.count then
    { s with gateParts := s.gateParts.erase old }.send .dist .up
      { cls := 2, ty := 0x21, handle := g.handle, gen := g.gen, epoch := g.epoch, fields := [g.or_.toNat, g.and_.toNat, g.count, g.seq] }
  else { s with gateParts := s.gateParts.map fun x => if x = old then g else x }

/-- A gate contribution at a leaf or pod root; complete, the GATE_PART goes up (R262). -/
def State.gateMerge (s : State) (handle gen epoch seq n : Nat) (or_ and_ : DWord) : State :=
  match s.gateParts.find? fun g => g.handle == handle with
  | some g =>
    if g.seq ≠ seq then s.plnDrop else
    let g1 := { g with count := g.count + n, or_ := g.or_ ||| or_, and_ := g.and_ &&& and_ }
    s.gatePut g g1
  | none =>
    let g : GatePart := { handle := handle, gen := gen, epoch := epoch, seq := seq, count := 0, or_ := 0, and_ := BitVec.allOnes 64 }
    { s with gateParts := s.gateParts ++ [g] }.gatePut g { g with count := n, or_ := or_, and_ := and_ }

/-- A gate contribution at the job root (R262–R264). `n` is the member's reduction count, where the frame carries it. -/
def State.gateAtRoot (s : State) (k seq count : Nat) (n : Option Nat) (or_ and_ : DWord) : State :=
  let j := s.job k
  match j.gate with
  | none => s.plnDrop
  | some g =>
    let wrongN := match n with
      | some x => x ≠ g.n
      | none => false
    if g.seq ≠ seq || wrongN then s.plnDrop else
    let first := match g.first with
      | some h => h
      | none => s.ht .dist
    let g1 := { g with count := g.count + count, or_ := g.or_ ||| or_, and_ := g.and_ &&& and_, first := some first }
    (s.setJob k { j with gate := some g1 }).gateTry k

/-- GATE_FRAME: a member's GATE contribution (R262). A stale one is dropped and counted; one whose job runs through the other leaf is relayed (R312). -/
def gateFrame (origin : HT) (handle : BitVec 16) (gen : Byte) (epoch : Word) (status : DWord) (seq : BitVec 16) (n : Byte) (s : State) : State :=
  s.combineAt handle.toNat gen.toNat epoch.toNat { cls := 2, ty := 0x20, origin := origin, fields := [status.toNat, seq.toNat, n.toNat] } fun t =>
    match t.jobOfHandle handle.toNat with
    | some k => t.gateAtRoot k seq.toNat 1 (some n.toNat) status status
    | none => t.gateMerge handle.toNat gen.toNat epoch.toNat seq.toNat 1 status status

/-- GATE_PART: a merged partial from below (R262). -/
def gatePart (handle : BitVec 16) (gen : Byte) (epoch : Word) (or_ and_ : DWord) (count : Word) (seq : BitVec 16) (s : State) : State :=
  if !s.knows handle.toNat gen.toNat epoch.toNat then s.staleDrop else
  match s.jobOfHandle handle.toNat with
  | some k => s.gateAtRoot k seq.toNat count.toNat none or_ and_
  | none => (s.voidOld handle.toNat epoch.toNat).gateMerge handle.toNat gen.toNat epoch.toNat seq.toNat count.toNat or_ and_

/-- GATE_DEADLINE: the deadline of a job's open gate passes; live members named missing are reported for SUSPECT, and the count of
missing members is journalled (R265). -/
def gateDeadline (k : Fin 1024) (missing : List (BitVec 20)) (s : State) : State :=
  let j := s.job k
  match j.gate with
  | none => s
  | some g => match g.first with
    | none => s
    | some h =>
      let us := if g.deadline ≠ 0 then g.deadline else if j.deadline ≠ 0 then j.deadline else (s.rd .dist .plnDeadline).toNat
      let s1 := s.reach .dist (h + BitVec.ofNat 64 (256000 * us))
      let gone := (missing.map BitVec.toNat).filter fun n => j.live.any fun x => x.2 == n
      let s2 := gone.foldl (fun t n => t.send .dist (.node (mget (fun _ => 0) j.leafOf n)) (j.frame 2 0x86 [n])) s1
      (s2.setB .dist .plnStat 1).jobRec j 2 j.state (j.live.length - g.count)

/-! ### GATE and CONTRIB in a lantern tile (R247, R263, R281) -/

/-- A job root's reduction descriptor R281 refuses: there ELEM, NSPILL and SPILL are zero (R279). -/
def RedDesc.badRoot (d : RedDesc) (fp64 : Bool) : Bool := d.bad fp64 || d.elem ≠ 0 || d.nspill ≠ 0 || d.spill ≠ 0

/-- GATE at the job root. -/
def State.gateRoot (s : State) (t : Fin 8) (c obj a off n pc : Nat) : Ends :=
  let e : EngSel := .tile t
  let m := if n ≤ 4 then n else 0
  s.withBlock e c off 8 (16 + 8 * n) fun d =>
    let offs := (List.range m).map fun i => s.dmemRead e (d + 16 + 8 * i) 8
    match s.redDescs e c offs with
    | .inr x => x
    | .inl ds => Ends.also (fun t => t.redSeen e c offs []) <|
      let k := s.jobOf e c
      let j := s.job (k.getD 0)
      let lead := s.dmemRead e d 4
      let dl := s.dmemRead e (d + 4) 4
      let range := k.isNone || 4 < n || (lead ≠ 0 && (lead < 100 || 1000000 < lead)) || 4000000 < dl || s.dmemRead e (d + 8) 8 ≠ 0
        || ds.any (·.badRoot (j.floor.testBit 0)) || 16384 < worstCase (ds.map (·.shape))
      s.async e c 0x32 n pc obj (k.getD 0) a [] false range false (j.state ≠ 3 && j.state ≠ 6) false fun o u =>
        let g : GateRoot := { op := o, n := n, lead := lead, deadline := dl, shapes := ds.map (·.shape), seq := j.gateSeq, cseq := 0 }
        let kk := k.getD 0
        ((u.modJob kk fun v => { v with gate := some g, gateSeq := (v.gateSeq + 1) % 65536, greplay := j.state = 6 }).jobTo kk 4).gateTry kk

/-- CONTRIB at the job root opens the job's next collective. -/
def State.contribRoot (s : State) (t : Fin 8) (c obj a off pc : Nat) : Ends :=
  let e : EngSel := .tile t
  match s.redDescs e c [off] with
  | .inr x => x
  | .inl ds => Ends.also (fun t => t.redSeen e c [off] []) <|
    let k := s.jobOf e c
    let j := s.job (k.getD 0)
    let sh := ((ds.head?).map (·.shape)).getD 0
    let range := k.isNone || ds.any (·.badRoot (j.floor.testBit 0)) || 16384 < worstCase [sh]
    s.async e c 0x33 0 pc obj (k.getD 0) a [] false range false (j.state ≠ 3 && j.state ≠ 4 && j.state ≠ 6) false fun o u =>
      u.modJob (k.getD 0) fun v => { v with
        colls := v.colls ++ [{ op := o, seq := v.collSeq, shape := sh }], collSeq := (v.collSeq + 1) % 65536 }

end Sys2Proof.Machine
end

