-- ==== Sys2Proof/Machine/Membership.lean ====
section
/-!
DEFINITION. Failure detection and fencing at the distributor (R305–R332): hearing, verdicts, notices, shadows at the job root, and
the failure-rate estimate.
-/
namespace Sys2Proof.Machine

/-! ### Nodes and hearing (R305–R308) -/

def State.nodeSt (s : State) (pos : Nat) : NodeSt := mget (fun _ => {}) s.nodes pos

def State.setNode (s : State) (pos : Nat) (v : NodeSt) : State := { s with nodes := mset (fun _ => {}) s.nodes pos v }

/-- The position of a node this distributor detects. -/
def State.posOf (s : State) (node : Nat) : Option Nat := (s.nodes.find? fun kv => kv.2.node == node).map (·.1)

/-- Position served by a downstream port: the die position at a leaf, the port elsewhere (R12, R334). -/
def State.posOfPort (s : State) (n : Nat) : Nat := if s.tier = 1 then n / 2 else n

/-- The position of the twin, which is heard on the peer ports (R307; log entry 138). -/
def twinPos : Nat := 272

/-- The position of the node that a port hears; none for an upstream port. -/
def State.nodePos (s : State) (n : Nat) : Option Nat :=
  if n < 256 then some (s.posOfPort n) else if n = 272 || n = 273 then some twinPos else none

/-- Ports of a position. -/
def State.portsOfPos (s : State) (pos : Nat) : List Nat :=
  if pos = twinPos then [272, 273] else if s.tier = 1 then [2 * pos, 2 * pos + 1] else [pos]

/-- This distributor has heard the node within `us` µs. -/
def State.heardWithin (s : State) (v : NodeSt) (us : Nat) : Bool := !atOrAfter (s.ht .dist) (v.heard + BitVec.ofNat 64 (256000 * us))

/-- A root with no parent in service, whose twin judges it (R307; log entry 138). -/
def State.noParent (s : State) : Bool := s.tier ≠ 1 && (List.range 16).all fun u => s.portState .dist (256 + u) ≠ 6

/-- A change of a node's state, journalled with its cause (R308, R365). -/
def State.nodeTo (s : State) (pos st cause : Nat) : State :=
  let v := s.nodeSt pos
  if v.state = st then s else
  (s.setNode pos { v with state := st, cause := if st = 2 then cause else 0, rpt := v.rpt && st = 1
                          confirmed := false, twinConfirmed := false }).jnl
    { p := .dist, blk := 16 } 0x0800 (pay [(0, 3, v.node), (3, 1, v.state), (4, 1, st), (5, 1, cause)])

/-- A node heard in every domain and without a gate report is ALIVE again (R308). -/
def State.nodeRevive (s : State) (pos : Nat) : State :=
  let v := s.nodeSt pos
  if v.state = 1 && !v.rpt && v.twinSince.isNone && s.heardWithin v (s.fd .dist .mbrCfg 31 16) then
    ((s.jobsOf v.node).foldl (fun t x => t.jobEvent x.1 2 x.2 v.node) (s.nodeTo pos 0 0))
  else s

/-- A port hears its far end (R305). At a detector the node there is heard. -/
def State.hear (s : State) (p : PartId) (n : Nat) : State :=
  if s.portState p n ≠ 6 then s else
  let s1 := s.modPrt p n fun v => { v with heard := some (s.ht p) }
  match (if p = .tsu then none else s.nodePos n) with
  | none => s1
  | some pos =>
    let v := s1.nodeSt pos
    (s1.setNode pos { v with node := s.fd .dist .prtPeer 19 0 n, heard := s.ht .dist, confirmed := false }).nodeRevive pos

/-- The HT in a heartbeat differs from the receiver's by more than 10 µs: TSKEW, journalled at most once a second (R306). -/
def State.heartbeat (s : State) (n : Nat) (hb : HT) : State :=
  match s.nodePos n with
  | none => s
  | some pos =>
  let v := s.nodeSt pos
  let d := htDiff hb (s.ht .dist)
  if d.natAbs ≤ 2560000 then s else
  let due := match v.skewAt with
    | some t => atOrAfter (s.ht .dist) (t + 256000000000)
    | none => true
  let s1 := s.setNode pos { v with tskew := true, skewAt := if due then some (s.ht .dist) else v.skewAt }
  if due then s1.jnl { p := .dist, blk := 16 } 0x0803 (pay [(0, 1, 0), (2, 3, v.node), (5, 8, wrapInt 64 d)]) else s1

/-- A GATE or CMB frame received from a SUSPECT node clears its report (R308). -/
def State.nodeContributed (s : State) (n : Nat) : State :=
  let pos := s.posOfPort n
  let v := s.nodeSt pos
  if 256 ≤ n || v.state ≠ 1 then s else (s.setNode pos { v with rpt := false }).nodeRevive pos

/-- A frame from a node this leaf has fenced is dropped, but IDLE, LCTL, TIME, MGMT and FSTATE (R310). -/
def State.fencedDrop (s : State) (n cls ty : Nat) : Bool :=
  decide (n < 256) && (s.nodeSt (s.posOfPort n)).state == 2 && cls ≠ 1 && cls ≠ 5 && !(cls == 2 && ty == 0x85)

/-! ### Verdicts (R308–R311) -/

/-- Sends a frame to the twin and to job roots. -/
def State.tellRoots (s : State) (node : Nat) (f : Frame) : State :=
  (s.rootsFor node).foldl (fun t r => t.send .dist (.node r) f) (s.send .dist .twin f)

/-- FENCE or UNFENCE on every UP port to a die (R310, R315). -/
def State.sendFence (s : State) (pos ty : Nat) : State :=
  if s.tier ≠ 1 || pos = twinPos then s else
  ((s.portsOfPos pos).filter fun n => s.portState .dist n == 6).foldl (fun t n => t.send .dist (.port n) (nojob ty [])) s

/-- The node at the upstream end of a port that is UP: this distributor's parent. -/
def State.parents (s : State) : List Nat :=
  ((List.range 16).filter fun u => s.portState .dist (256 + u) == 6).map fun u => s.fd .dist .prtPeer 19 0 (256 + u)

/-- DEAD of a node goes to the job roots in the table for it, and to the parent, which counts it, where it is none of them (R310, R330). -/
def State.tellDead (s : State) (node cause : Nat) : State :=
  let rs := s.rootsFor node
  let f := nojob 0x82 [node, cause]
  let s1 := rs.foldl (fun t r => t.send .dist (.node r) f) s
  if s.parents.isEmpty || s.parents.any fun n => rs.contains n then s1 else s1.send .dist .up f

/-- LEAF_LOST to the root of every job with members below (R311). -/
def State.tellLeafLost (s : State) (leaf : Nat) : State :=
  (s.relays.map fun x => x.2.root).eraseDups.foldl (fun t r => t.send .dist (.node r) (nojob 0x8A [leaf])) s

/-- A verdict of FENCED takes effect (R310); `decide_` says that this detector made it and tells the others. Of a die, each leaf of the pair tells the
job roots in its own table and its own pod root (R330; log entry 138). Of a leaf or pod root, the roots of the jobs below hear LEAF_LOST, and so do the
jobs here (R311). A dead twin's jobs are taken over (R311). -/
def State.fenceNode (s : State) (pos cause : Nat) (decide_ : Bool) : State :=
  let v := s.nodeSt pos
  if v.state = 2 then s else
  let s1 := (s.nodeTo pos 2 cause).setB .dist .mbrStat 3
  let s2 := if cause = 1 || cause = 2 then s1.setB .dist .mbrStat 2 else s1
  if pos = twinPos then (if s.tier = 1 then s2 else s2.copies.foldl (fun t c => t.takeOver c) s2) else
  let s3 := s2.sendFence pos 0x83
  let s4 := if decide_ then s3.send .dist .twin (nojob 0x82 [v.node, cause]) else s3
  if s.tier = 1 then s4.tellDead v.node cause
  else (s4.tellLeafLost v.node).hold { origin := s.ht .dist, node := s.node .dist, kind := .leafLost v.node none }

/-- SUSPECT_TIMEOUT: a node silent for SUSPECT_T becomes SUSPECT (R308, R309). -/
def suspectTimeout (pos : Fin 512) (s : State) : State :=
  let v := s.nodeSt pos.val
  if v.state ≠ 0 then s else
  let s1 := s.reach .dist (v.heard + BitVec.ofNat 64 (256000 * s.fd .dist .mbrCfg 31 16))
  let s2 := (s1.nodeTo pos.val 1 0).setB .dist .mbrStat 1
  if pos.val = twinPos then s2 else s2.tellRoots v.node (nojob 0x80 [v.node, v.heard.toNat])

/-- The deciding detector (R307): of a die its leaf of domain A, or the B leaf while that is out of service; of a leaf or pod root the root of its own
domain; never the witness of a twin with a parent. -/
def State.decides (s : State) (pos : Nat) : Bool := if pos = twinPos then s.noParent else s.tier ≠ 1 || s.domain = 0 || !s.twinUp

/-- Both silences are confirmed: the deciding leaf declares DEAD (R309). -/
def State.verdict (s : State) (pos : Nat) : State :=
  let v := s.nodeSt pos
  if v.state = 1 && v.confirmed && v.twinConfirmed && s.decides pos then s.fenceNode pos 1 true else s

/-- CONFIRM_TIMEOUT: this detector's silence for a SUSPECT node reaches CONFIRM_T (R309). A leaf tells its twin. The witness of a silent twin tells the
root above, which passes it to the one that decides (R307; log entry 138). -/
def confirmTimeout (pos : Fin 512) (s : State) : State :=
  let v := s.nodeSt pos.val
  if v.state ≠ 1 || v.confirmed then s else
  let s1 := s.reach .dist (v.heard + BitVec.ofNat 64 (256000 * s.fd .dist .mbrCfg 15 0))
  let s2 := s1.setNode pos.val { v with confirmed := true }
  let f := nojob 0x81 [v.node, 0]
  let s3 := if pos.val = twinPos then (if s.noParent then s2 else s2.send .dist .up f)
    else if s.tier = 1 then s2.send .dist .twin f else s2
  s3.verdict pos.val

/-- ONESIDE_TIMEOUT: silence for ONESIDE_T in the only domain that can be reached, the twin being out of reach, or the node being a twin with no parent
(R307, R308). -/
def onesideTimeout (pos : Fin 512) (s : State) : State :=
  let v := s.nodeSt pos.val
  let alone := if pos.val = twinPos then s.noParent else !s.twinUp
  if v.state ≠ 1 || !alone then s else
  (s.reach .dist (v.heard + BitVec.ofNat 64 (256000 * s.fd .dist .mbrCfg2 31 16))).fenceNode pos.val 2 true

/-- SUSPECT at the twin, which takes the silence into its own state, and at a job root, which queues the event (R308, R309). -/
def suspectFrame (node : BitVec 20) (since : HT) (s : State) : State :=
  let s1 := match s.posOf node.toNat with
    | some pos =>
      let v := s.nodeSt pos
      let t := s.setNode pos { v with twinSince := some since }
      if v.state = 0 then (t.nodeTo pos 1 0).setB .dist .mbrStat 1 else t
    | none => s
  (s1.jobsOf node.toNat).foldl (fun t x => t.jobEvent x.1 1 x.2 node.toNat) s1

/-- CONFIRM from the twin, or with HEARD the report that it hears the node (R309). A leaf that has heard the node within CONFIRM_T answers so. A root
passes the report of a leaf or pod root that is not of its own domain to its twin (R307). -/
def confirmFrame (node : BitVec 20) (heard : Bool) (s : State) : State :=
  match s.posOf node.toNat with
  | none => if s.tier = 1 then s else s.send .dist .twin (nojob 0x81 [node.toNat, b2n heard])
  | some pos =>
    let v := s.nodeSt pos
    if heard then (s.setNode pos { v with twinSince := none, twinConfirmed := false }).nodeRevive pos
    else
      let s1 := s.setNode pos { v with twinConfirmed := true }
      if !s.heardWithin v (s.fd .dist .mbrCfg 15 0) then s1.verdict pos
      else if s.tier = 1 then s1.send .dist .twin (nojob 0x81 [v.node, 1]) else s1

/-- DEAD (R310, R311, R317, R330): the twin fences the node too; the job root takes the notice in the order of R260; a pod root counts that of a die,
passes it to its parent, and takes the die for a member no more; of a leaf or pod root of the other domain, which its twin tells it, it tells the roots
of the jobs below. `dies` names the dies of a pair both of whose leaves are now declared DEAD, which the pod root fences with cause PARENT. -/
def deadFrame (origin : HT) (src node : BitVec 20) (cause : Fin 6) (dies : List (BitVec 20)) (s : State) : State :=
  let held (n c : Nat) (o : HT) (by_ : Nat) (t : State) : State :=
    if t.jobs.any fun kv => kv.2.state ≠ 0 then t.hold { origin := o, node := by_, kind := .dead n c } else t
  let counts (c : Nat) (t : State) : State := if c = 0 || c = 4 then t else t.bump .dist .mbrFrFail 31 0 1
  let s1 := match s.posOf node.toNat with
    | some pos => s.fenceNode pos cause.val false
    | none =>
      if s.tier = 1 then s
      else if src.toNat = s.fd .dist .prtPeer 19 0 272 then s.tellLeafLost node.toNat
      else ((counts cause.val s).tellDead node.toNat cause.val).relayDead node.toNat
  let s2 := if s.tier = 1 then s1 else dies.foldl (fun t d =>
    held d.toNat 5 (s.ht .dist) (s.node .dist) (((counts 5 t).tellDead d.toNat 5).relayDead d.toNat)) s1
  held node.toNat cause.val origin src.toNat s2

/-- The oldest thing of a job that waits for the twin, with the HT it was sent at, taken off. -/
def State.popMirror (s : State) (k : Nat) : Option (HT × Mirror) × State :=
  match (s.job k).mirrors with
  | m :: rest => (some m, s.modJob k fun v => { v with mirrors := rest })
  | [] => (none, s)

/-- FSTATE at a leaf: a fenced node is told again, a node held ALIVE or SUSPECT that reports FENCED is released (R310, R315). -/
def fstateFrame (n : Fin 256) (fenced : Bool) (s : State) : State :=
  let pos := s.posOfPort n.val
  if (s.nodeSt pos).state = 2 then s.sendFence pos 0x83 else if fenced then s.sendFence pos 0x84 else s

/-- SUSPECT_RPT: a gate deadline report (R308). -/
def suspectRpt (node : BitVec 20) (s : State) : State :=
  match s.posOf node.toNat with
  | none => s
  | some pos =>
    if (s.nodeSt pos).state ≠ 0 then s else
    let t := (s.nodeTo pos 1 0).setB .dist .mbrStat 1
    t.setNode pos { t.nodeSt pos with rpt := true }

/-- An outcome of a membership frame other than OK is journalled (R9). -/
def State.mbrOutcome (s : State) (ty : Nat) (c : Code) : State := s.frameOutcome .dist 16 c 2 ty 0

/-- EVICT_REQ: the detector fences the node; one already FENCED ends with FENCED (R308, R316). -/
def evictReq (node : BitVec 20) (s : State) : State :=
  match s.posOf node.toNat with
  | none => s
  | some pos => if (s.nodeSt pos).state = 2 then s.mbrOutcome 0x87 .fenced else s.fenceNode pos 3 true

/-- The outcome of a lift of a fence (R308, R315). -/
def State.unfenceNode (s : State) (pos : Nat) : Code × State :=
  let v := s.nodeSt pos
  if v.state ≠ 2 then (.state, s)
  else
    if s.heardWithin v (s.fd .dist .mbrCfg 31 16) && v.twinSince.isNone then (.ok, (s.nodeTo pos 0 0).sendFence pos 0x84) else (.fenced, s)

/-- UNFENCE_REQ (R308, R315). -/
def unfenceReq (node : BitVec 20) (s : State) : State :=
  match s.posOf node.toNat with
  | none => s
  | some pos =>
    let r := s.unfenceNode pos
    if r.1 = .ok then r.2 else r.2.mbrOutcome 0x88 r.1

/-- A write of MBR_FENCE (R308, R315, R334): both bits end with RANGE. -/
def State.mbrFence (s : State) (v : Word) : Code × State :=
  let pos := fld v 8 0
  if v.getLsbD 31 && v.getLsbD 30 then (.range, s)
  else if v.getLsbD 31 then s.unfenceNode pos
  else if v.getLsbD 30 then (if (s.nodeSt pos).state = 2 then (.fenced, s) else (.ok, s.fenceNode pos 4 true))
  else (.ok, s)

/-- PATH_LOST: the control domain of the node's jobs moves at the next advance (R312). -/
def pathLost (node : BitVec 20) (s : State) : State :=
  (s.jobsOf node.toNat).foldl (fun t x => (t.modJob x.1 fun v => { v with moveDomain := true }).jobEvent x.1 6 x.2 node.toNat) s

/-- LEAF_LOST: taken in the order of R260; each job with members below the leaf, or, in the other domain, below its twin, advances (R311). -/
def leafLost (origin : HT) (src leaf twin : BitVec 20) (s : State) : State :=
  s.hold { origin := origin, node := src.toNat, kind := .leafLost leaf.toNat (some twin.toNat) }

/-! ### Shadows and condition suspicion at the job root (R325, R329) -/

/-- DIGEST from a shadow or a shadowed member (R325). -/
def digestFrame (handle : BitVec 16) (gen : Byte) (epoch : Word) (node : BitVec 20) (seq : BitVec 16) (coll shadow : Bool)
    (digest : BitVec 128) (s : State) : State :=
  match s.jobOfHandle handle.toNat with
  | none => s
  | some k =>
    let j := s.job k
    if j.gen ≠ gen.toNat || j.epoch ≠ epoch.toNat then s.staleDrop else
    let d := (seq.toNat, coll, digest.toNat)
    let hit (x : Shadow) : Bool := if shadow then x.node == node.toNat else j.liveAt x.rank == some node.toNat
    let note (x : Shadow) : Shadow := if !hit x then x
      else if shadow then { x with own := d :: x.own.take 15 } else { x with theirs := d :: x.theirs.take 15 }
    let s1 := s.modJob k fun v => { v with shadows := v.shadows.map note }
    (j.shadows.filter hit).foldl (fun t x => t.judgeShadow k x.node seq.toNat coll false) s1

/-- CONDSUSP (R329): at the leaf the node's bin is marked and the frame relayed; at a job root the event is queued. -/
def condsuspFrame (node : BitVec 20) (bin : Fin 32) (clear : Bool) (s : State) : State :=
  let s1 := match s.posOf node.toNat with
    | some pos =>
      let v := s.nodeSt pos
      let c := setBits v.cond bin.val bin.val (b2n (!clear))
      let t := (s.setNode pos { v with cond := c }).jnl { p := .dist, blk := 16, ctx := 0x20 } 0x0803
        (pay [(0, 1, if clear then 2 else 1), (1, 1, bin.val), (2, 3, node.toNat)])
      let t1 := if !clear && !v.cond.testBit bin.val then t.setB .dist .mbrStat 4 else t
      (t1.rootsFor node.toNat).foldl (fun u r => u.send .dist (.node r) (nojob 0x8F [node.toNat, bin.val, b2n clear])) t1
    | none => s
  if clear then s1 else (s1.jobsOf node.toNat).foldl (fun t x => t.jobEvent x.1 5 x.2 node.toNat) s1

/-! ### Failure rate (R330) -/

/-- FR_PERIOD: FR_EST is updated from the fences counted in the period; `liveSeconds` is the integral of the dies ALIVE or SUSPECT below
(R330; log entry 16). -/
def frPeriod (liveSeconds : Nat) (s : State) : State :=
  if s.tier < 2 then s else
  let est := s.rd .dist .mbrFrEstHi ++ s.rd .dist .mbrFrEstLo
  let f := s.rd .dist .mbrFrFail
  let int (n : Nat) : DWord := fU2F .rne (BitVec.ofNat 64 n)
  let h := fDiv .rne (int liveSeconds) (int 3600)
  let x := fDiv .rne (fMul .rne (int 1000) (int f.toNat)) h
  let scale := fDiv .rne (int 1) (int (2 ^ s.fd .dist .mbrFrCfg 3 0))
  let est1 := if h = 0 then est else fAdd .rne est (fMul .rne (fSub .rne x est) scale)
  ((s.wr .dist .mbrFrEstLo (est1.truncate 32)).wr .dist .mbrFrEstHi ((est1 >>> 32).truncate 32)).wr .dist .mbrFrFail 0

/-! ### Registers of the block (R320, R334) -/

/-- A read of MBR_JEVT: the oldest event of job context `k` is returned and removed (R320). -/
def State.jevtRead (s : State) (k : Nat) : Word × State :=
  let j := s.job k
  match j.events with
  | [] => (BitVec.ofNat 32 (2 ^ 30 * b2n j.eventLost), s.setJob k { j with eventLost := false })
  | e :: rest =>
    (BitVec.ofNat 32 (2 ^ 31 + 2 ^ 30 * b2n j.eventLost + 2 ^ 26 * e.kind + e.rank % 2 ^ 20),
     (s.setJob k { j with events := rest, eventLost := false }).wr .dist .mbrJevtNode (BitVec.ofNat 32 (e.node % 2 ^ 20)))

end Sys2Proof.Machine
end

