-- ==== Sys2Proof/Machine/Parity.lean ====
section
/-!
DEFINITION. Parity arithmetic of the continuity store (R337, R338): bytes of GF(2^8) with reducing polynomial 0x11D and generator 2.
-/
namespace Sys2Proof.Machine

/-- The product by the generator. -/
def gfDouble (x : Byte) : Byte := if x.getLsbD 7 then (x <<< 1) ^^^ 0x1D#8 else x <<< 1

/-- `n` steps of shift and add from the top bit of `y`. -/
def gfMulFrom : Nat → Byte → Byte → Byte → Byte
  | 0, _, _, acc => acc
  | n + 1, x, y, acc => gfMulFrom n x y (gfDouble acc ^^^ (if y.getLsbD n then x else 0))

/-- The product of two bytes. -/
def gfMul (x y : Byte) : Byte := gfMulFrom 8 x y 0

/-- g^n. -/
def gfPow : Nat → Byte
  | 0 => 1
  | n + 1 => gfDouble (gfPow n)

/-- x^n. -/
def gfExp (x : Byte) : Nat → Byte
  | 0 => 1
  | n + 1 => gfMul x (gfExp x n)

/-- The inverse of a nonzero byte: x^254, since x^255 is 1. -/
def gfInv (x : Byte) : Byte := gfExp x 254

/-- The sum of two strings of bytes; an empty one stands for zero. -/
def gfAdd (a b : List Byte) : List Byte :=
  if a.isEmpty then b else if b.isEmpty then a else List.zipWith (· ^^^ ·) a b

/-- A string of bytes times a byte. -/
def gfScale (c : Byte) (a : List Byte) : List Byte := a.map (gfMul c)

/-- D_x and D_y from both syndromes, for set indices x < y (R338). -/
def recoverTwo (x y : Nat) (p q : List Byte) : List Byte × List Byte :=
  let d := gfPow (y - x)
  let dx := gfScale (gfInv (d ^^^ 1)) (gfAdd (gfScale d p) (gfScale (gfInv (gfPow x)) q))
  (dx, gfAdd p dx)

end Sys2Proof.Machine
end

