-- ==== Sys2Proof/Machine/Continuity.lean ====
section
/-!
DEFINITION. The continuity store (R335–R360): a member's epochs, the job root's commits and rebuilds, and a leaf's chains.
-/
namespace Sys2Proof.Machine

/-! ### A member (R341, R344, R340, R435) -/

/-- SNAP in a TSU (R249, R341). -/
def State.snapTsu (s : State) (c obj a off pc : Nat) : Ends :=
  s.withBlock .tsu c off 8 16 fun d =>
    let rd (o n : Nat) : Nat := s.dmemRead .tsu (d + o) n
    let slot := rd 0 1
    let open_ := rd 2 2
    let b := rd 4 4
    let wofs := rd 8 4
    let wlen := rd 12 2
    let range := 32 ≤ slot || rd 1 1 ≠ 0 || 8192 ≤ open_ || b = 0 || 2 ^ 24 < b || wofs < 1000 || 1000000 < wofs || wlen < 1500
      || rd 14 2 ≠ 0
    let w := (s.obj .tsu (open_ % 8192)).word
    let perm := oMode w ≠ 0 && oOwner w ≠ c
    let state := oMode w = 0 || (oMode w ≠ 1 && oMode w ≠ 2) || (s.slot c).shadow = 1 || (s.slotSt c ≠ 2 && s.slotSt c ≠ 3)
    if perm && !s.fenced then .done (s.report .tsu c a .perm 0 0x38 pc)
    else s.async .tsu c 0x38 0 pc obj c a [slot, open_] s.fenced range false state false fun _ t =>
      t.slotSend c false (t.slotFrame c 2 0x32 [2, slot, b, wofs, wlen])

/-- WINDOW in a TSU (R249, R344): it completes at its start tick, or at once with LATE after it. -/
def State.windowTsu (s : State) (c obj a : Nat) (k : DWord) (t : HT) (pc : Nat) : Ends :=
  let opened := match (s.slot c).snap with
    | some e => e.opened
    | none => false
  let tick := ceilTick t
  let now := s.ht .tsu
  s.async .tsu c 0x39 0 pc obj c a [k.toNat, tick.toNat] s.fenced (2 ^ 32 ≤ k.toNat || noSign t now) false
    ((s.slotSt c ≠ 2 && s.slotSt c ≠ 3) || !opened) false fun o u =>
      if after tick now then u
      else
        let late := (now - tick).toNat
        u.completeOp (some o) (if late = 0 then .ok else .late) k late

/-- The earliest WINDOW of the TSU that waits for its tick. -/
def State.nextWindow (s : State) : Option (OpRef × Op × HT) :=
  (((s.outstandingAll .tsu).filter fun x => x.2.opcode == 0x39 && !(s.todo.any fun d => d.op == x.1)).map fun x =>
    (x.1, x.2, BitVec.ofNat 64 (x.2.args.getD 1 0))).foldl (fun m x => match m with
      | some y => if after y.2.2 x.2.2 then some x else m
      | none => some x) none

/-- The slot's SNAP for an epoch slot. -/
def State.snapOp (s : State) (c slot : Nat) : Option (OpRef × Op) :=
  (s.outstanding .tsu c).find? fun x => x.2.opcode == 0x38 && x.2.args.headD 0 == slot

/-- At L_open the OPEN object is signalled with ARG 1 (R341). -/
def State.signalOpen (s : State) (c : Nat) : State :=
  match (s.slot c).snap with
  | none => s
  | some e =>
    if e.opened || after e.base (s.ht .tsu) then s else
    let s1 := s.modSlot c fun v => { v with snap := some { e with opened := true } }
    match s1.snapOp c e.slot with
    | some x => s1.sendSignal .tsu { src := 0, idx := x.2.args.getD 1 0, word := s1.sigWord .tsu c 1, jctx := c }
    | none => s1

/-- LAUNCH_INSTANT at the member: L, and with it L_open (R254, R341). -/
def launchTick (c : Fin 16) (s : State) : State := (launchInstant c s).signalOpen c.val

/-- OPEN at the member (R341). -/
def openTsu (handle : BitVec 16) (gen : Byte) (epoch : Word) (slot : Fin 32) (l : HT) (b wofs : Word) (wlen : BitVec 16) (s : State) : State :=
  s.stepFrame handle gen epoch false fun c =>
    match s.snapOp c slot.val with
    | none => s.slotDrop c
    | some _ =>
      let e : MemberEpoch := { slot := slot.val, wofs := wofs.toNat, wlen := wlen.toNat, b := b.toNat, base := l }
      (s.modSlot c fun v => { v with snap := some e }).signalOpen c

/-- The member's SNAP ends (R341, R350). -/
def State.snapEnds (s : State) (c slot : Nat) (code : Code) : State :=
  match s.snapOp c slot with
  | none => s.slotDrop c
  | some x =>
    let mine : Bool := match (s.slot c).snap with
      | some e => e.slot == slot
      | none => false
    let s1 := if mine then s.modSlot c fun v => { v with snap := none } else s
    s1.completeOp (some x.1) code (BitVec.ofNat 64 slot)

/-- OPEN_REFUSE (R341). -/
def openRefuse (handle : BitVec 16) (gen : Byte) (epoch : Word) (slot : Fin 32) (code : Code) (s : State) : State :=
  s.stepFrame handle gen epoch false fun c => s.snapEnds c slot.val code

/-- COMMIT and DISCARD at the member (R350). -/
def snapDone (handle : BitVec 16) (gen : Byte) (epoch : Word) (slot : Fin 32) (code : Code) (s : State) : State :=
  s.stepFrame handle gen epoch false fun c => s.snapEnds c slot.val code

/-- A BULK frame's fields: continuity address and byte offset (R122). -/
def bulkFrame (ty handle gen epoch addr off : Nat) (data : List Byte) : Frame :=
  { cls := 6, ty := ty, handle := handle, gen := gen, epoch := epoch, fields := [addr, off], data := data, flits := flitsOf (16 + data.length) }

/-- The continuity address of R339. -/
def bulkAddr (slot half block rank set : Nat) : Nat :=
  slot % 32 + 2 ^ 5 * (half % 2) + 2 ^ 8 * (block % 2 ^ 32) + 2 ^ 40 * (rank % 2 ^ 20) + 2 ^ 60 * (set % 128)

/-- SYND at a TSU (R340): from SL2 or SL3 unchanged to SL0, or SL1 if SL0 is not UP; counted if neither is UP; from SL0 or SL1 discarded. -/
def syndTsu (port : Fin 4) (handle : BitVec 16) (gen : Byte) (epoch : Word) (addr : BitVec 96) (off : Word) (data : List Byte) (s : State) : State :=
  if port.val < 2 then s else
  match [0, 1].find? fun n => s.portState .tsu n == 6 with
  | some n => (s.mod .tsu fun q => { q with sent := q.sent ++ [{ dest := .port n, frame := bulkFrame 4 handle.toNat gen.toNat epoch.toNat addr.toNat off.toNat data }] }).pump .tsu n
  | none => s.bump .tsu .prtCntBulkdisc 31 0 1 port.val

/-- BULK_RESTORE (R435): delivered to the host if it matches a slot neither FREE nor DRAINING of a TSU that is not FENCED, else discarded and
counted in the slot whose handle it names. -/
def bulkRestore (port : Fin 4) (handle : BitVec 16) (gen : Byte) (epoch : Word) (addr : BitVec 96) (off : Word) (data : List Byte) (s : State) : State :=
  match s.slotOfHandle handle.toNat with
  | none => s.freeDrop handle.toNat
  | some c =>
    if s.slotMatches c gen.toNat epoch.toNat && s.slotSt c ≠ 6 && !s.fenced then
      { s with hostBulk := s.hostBulk ++ [{ port := port.val, frame := bulkFrame 5 handle.toNat gen.toNat epoch.toNat addr.toNat off.toNat data
                                            rxts := s.ht .tsu, uncal := false }] }
    else s.slotDrop c

/-- BULK_TRANSFER: the host offers a transfer on a port's bulk stream (R122, R123, R339). While the port is not UP it is not taken. -/
def bulkTransfer (n : Fin 4) (slot : Fin 16) (ty : Byte) (tag : BitVec 16) (addr : BitVec 96) (data : List Byte) (s : State) : State :=
  if s.portState .tsu n.val ≠ 6 then s else
  let st := s.slotSt slot.val
  let c := firstFail s.fenced false (data.isEmpty || 2 ^ 32 < data.length || ty = 0 || 3 < ty.toNat) false (st = 0 || st = 6) false
  if c ≠ .ok then s.bulkReport n.val tag.toNat c else
  let id := s.slotId slot.val
  s.bulkQueue n.val tag.toNat slot.val ty.toNat addr.toNat id.2.1 id.2.2 id.1 data

/-! ### The job root (R341, R350–R352) -/

/-- Leaves that answer a job's PREPARE or REBUILD_REQ: both of every pair that holds members, or one while the twin domain is out of
service (log entry 21). -/
def State.leafCount (s : State) (k : Nat) : Nat := (s.job k).byLeaf.length * (if s.twinUp then 2 else 1)

/-- A continuity message of a job (R360), for the job context that holds its handle; stale ones are dropped and counted (R319). -/
def State.jobMsg (s : State) (handle : BitVec 16) (gen : Byte) (epoch : Word) (act : Nat → State) : State :=
  match s.jobOfHandle handle.toNat with
  | none => s
  | some k => if (s.job k).gen = gen.toNat && (s.job k).epoch = epoch.toNat then act k else s.staleDrop

def State.epochSlot (s : State) (k i : Nat) : EpochSlot := mget (fun _ => {}) (s.job k).slots i

def State.setEpochSlot (s : State) (k i : Nat) (v : EpochSlot) : State :=
  s.modJob k fun j => { j with slots := mset (fun _ => {}) j.slots i v }

/-- SNAP_REQ (R341): once every live member has asked, the epoch opens with the next gate's launch; if they disagree, all are refused. -/
def snapReq (handle : BitVec 16) (gen : Byte) (epoch : Word) (node : BitVec 20) (slot : Fin 32) (b wofs : Word) (wlen : BitVec 16)
    (s : State) : State :=
  s.jobMsg handle gen epoch fun k =>
    let j := s.job k
    let v := s.epochSlot k slot.val
    let want := (b.toNat, wofs.toNat, wlen.toNat)
    let v1 := { v with asked := (v.asked.filter fun x => x.1 ≠ node.toNat) ++ [(node.toNat, want)] }
    let live := j.live.map (·.2)
    if (live.all fun n => v1.asked.any fun x => x.1 == n) && (v1.asked.any fun x => x.2 ≠ want) then
      (s.setEpochSlot k slot.val { v with asked := [] }).sendNodes live (j.frame 2 0x32 [4, slot.val, Code.range.num])
    else (s.setEpochSlot k slot.val v1).mirrorJob k

/-- COMMIT at the job root (R249, R350). -/
def State.commitRoot (s : State) (t : Fin 8) (c obj a : Nat) (x : DWord) (pc : Nat) : Ends :=
  let e : EngSel := .tile t
  let k := s.jobOf e c
  let kk := k.getD 0
  let v := s.epochSlot kk (x.toNat % 32)
  s.async e c 0x3A 0 pc obj kk a [] false (k.isNone || 32 ≤ x.toNat) false (v.state ≠ 2 || v.op.isSome) false fun o u =>
    (u.setEpochSlot kk x.toNat { v with op := some o, prep := [] }).send .dist (.leaves (u.job kk).handle) ((u.job kk).frame 2 0x32 [5, x.toNat])

/-- The COMMIT broadcast (R350 step 4). -/
def State.commitGo (s : State) (k i : Nat) : State :=
  let j := s.job k
  let v := s.epochSlot k i
  let f := j.frame 2 0x32 [7, i]
  let s1 := ((s.send .dist (.leaves j.handle) f).sendNodes (j.live.map (·.2)) f).setB .dist .cstStat 2
  let s2 := s1.setEpochSlot k i { v with op := none }
  ((s2.modJob k fun w => { w with jcost := ((s.ht .dist - v.lOpen).toNat) / 256 }).completeOp v.op .ok (BitVec.ofNat 64 i)).mirrorJob k

/-- The commit record is written and mirrored (R350 steps 2 and 3). -/
def State.commitRecord (s : State) (k i : Nat) : State :=
  let j := s.job k
  let v := s.epochSlot k i
  let s1 := (s.setEpochSlot k i { v with state := 3 }).jobJnl { p := .dist, tile := j.tile, blk := 14 } j 0x0900
    (pay [(0, 1, i), (2, 2, v.gateSeq), (4, 8, v.lOpen.toNat), (12, 4, j.epoch)])
  (s1.sendCopy { (s1.job k).copy k false with waits := true }).modJob k fun w => { w with mirrors := w.mirrors ++ [(s.ht .dist, .commit i)] }

/-- PREPARED (R350, R351, R360): answer 0 OK, 1 NONE, 2 BUSY, 3 STATE, 4 COMMITTED. -/
def prepared (handle : BitVec 16) (gen : Byte) (epoch : Word) (leaf : BitVec 20) (slot : Fin 32) (answer : Fin 5) (s : State) : State :=
  s.jobMsg handle gen epoch fun k =>
    let i := slot.val
    let v := s.epochSlot k i
    if answer.val = 4 then (s.setEpochSlot k i { v with state := 3 }).commitGo k i
    else if v.state ≠ 2 || v.op.isNone then s
    else if answer.val = 2 || answer.val = 3 then
      let c : Code := if answer.val = 2 then .busy else .state
      s.discardSlot k i c c.num
    else
      let p := if v.prep.contains leaf.toNat then v.prep else leaf.toNat :: v.prep
      let s1 := s.setEpochSlot k i { v with prep := p }
      if s1.leafCount k ≤ p.length then s1.commitRecord k i else s1

/-- The twin has what was mirrored, or did not answer within 100 µs (R318, R350). With a control domain that moves it has the job from then on; where
it did not answer the job stays (R312; log entry 135). -/
def State.mirrorGo (s : State) (k : Nat) (timeout : Bool) : State :=
  match s.popMirror k with
  | (none, _) => s
  | (some (h, m), s1) =>
    let s2 := if timeout then s1.reach .dist (h + BitVec.ofNat 64 25600000) else s1
    match m with
    | .advance cause node moved =>
      if timeout then (s2.setB .dist .mbrStat 5).advanceGo k cause node
      else if moved then (s2.evictsDone k node).handOver k
      else s2.advanceGo k cause node
    | .move => if timeout then s2.setB .dist .mbrStat 5 else s2.handOver k
    | .commit i => (if timeout then s2.setB .dist .cstStat 8 else s2).commitGo k i

/-- MIRROR_TIMEOUT. -/
def mirrorTimeout (k : Fin 1024) (s : State) : State := s.mirrorGo k.val true

/-- A rebuild descriptor (R352): slot mask, E, flags, T_S, T_R and the pairs of erased rank and target. -/
structure RebuildDesc where
  mask : Nat
  e : Nat
  flags : Nat
  ts : HT
  tr : HT
  pairs : List (Nat × Nat)
  zeros : Bool
  deriving DecidableEq, Repr

/-- Reads a rebuild descriptor of `e` pairs. -/
def State.rebuildDesc (s : State) (g : EngSel) (d : Nat) : RebuildDesc :=
  let rd (o n : Nat) : Nat := s.dmemRead g (d + o) n
  let e := rd 4 1
  let n := if e ≤ 16 then e else 0
  { mask := rd 0 4, e := e, flags := rd 5 1, ts := BitVec.ofNat 64 (rd 8 8), tr := BitVec.ofNat 64 (rd 16 8)
    pairs := (List.range n).map fun i => (rd (32 + 8 * i) 3, rd (35 + 8 * i) 3)
    zeros := rd 6 2 = 0 && rd 24 8 = 0 && (List.range n).all fun i => rd (38 + 8 * i) 2 = 0 }

/-- The fields every REBUILD checks (R352). -/
def RebuildDesc.bad (r : RebuildDesc) (now : HT) : Bool :=
  r.mask = 0 || r.e = 0 || 16 < r.e || 2 ≤ r.flags || !r.zeros || (r.pairs.any fun p => 2 ^ 20 ≤ p.1 || 2 ^ 20 ≤ p.2)
    || noSign r.ts now || noSign r.tr now || after (now + 5120000) r.ts || !after r.tr r.ts

/-- REBUILD at the job root (R352). -/
def State.rebuildRoot (s : State) (t : Fin 8) (c obj a off pc : Nat) : Ends :=
  let g : EngSel := .tile t
  s.withBlock g c off 8 32 fun d =>
    let r := s.rebuildDesc g d
    s.withBlock g c off 8 (32 + 8 * r.pairs.length) fun _ =>
      let k := s.jobOf g c
      let kk := k.getD 0
      let j := s.job kk
      let slots := (List.range 32).filter fun i => r.mask.testBit i
      let vacant (p : Nat × Nat) : Bool := match j.words[p.1]? with
        | some w => w.vacant
        | none => false
      let range := k.isNone || r.bad (s.ht .dist) || r.pairs.any fun p => !vacant p || (j.rankOf p.2).isNone
      let state := (j.state ≠ 3 && j.state ≠ 5) || (slots.any fun i => (s.epochSlot kk i).state ≠ 3) || j.rebuild.isSome
      s.async g c 0x3A 1 pc obj kk a [] false range false state false fun o u =>
        let last := slots.foldl (fun m i => if after (s.epochSlot kk i).lOpen (s.epochSlot kk m).lOpen then i else m) (slots.headD 0)
        let f := j.frame 2 0x32 ([9, r.mask, r.ts.toNat, r.e, r.flags] ++ r.pairs.flatMap fun p => [p.1, p.2])
        let x : RebuildRoot := { op := o, tr := r.tr, need := s.leafCount kk, shapeInv := r.flags = 1, lastSlot := last }
        (u.modJob kk fun v => { v with rebuild := some x }).send .dist (.leaves j.handle) f

/-- The job enters REPLAY at T_R, and its REBUILD completes (R352). A gate still open then ends with EPOCH (log entry 21). -/
def State.rootReplay (s : State) (k : Nat) (r : ReplayRoot) (late : Nat) : State :=
  let s0 := match (s.job k).gate with
    | some g => s.completeOp (some g.op) .epoch
    | none => s
  let s1 := s0.modJob k fun v => { v with replay := none, gateSeq := r.gateSeq, shapeInv := r.shapeInv, gate := none }
  let s2 := if (s.job k).state = 0 || (s.job k).state = 7 then s1 else s1.jobTo k 6
  s2.completeOp (some r.op) (if late = 0 then .ok else .late) (BitVec.ofNat 64 r.most) late

/-- REBUILT (R352): a code other than OK ends REBUILD; when every leaf asked has answered OK, RESTORE goes to every live member. -/
def rebuilt (handle : BitVec 16) (gen : Byte) (epoch : Word) (leaf : BitVec 20) (code : Code) (erasures : Fin 4) (s : State) : State :=
  s.jobMsg handle gen epoch fun k =>
    let j := s.job k
    match j.rebuild with
    | none => s
    | some r =>
      if code ≠ .ok then (s.setJob k { j with rebuild := none }).completeOp (some r.op) code (BitVec.ofNat 64 (max r.most erasures.val))
      else
        let got := if r.got.contains leaf.toNat then r.got else leaf.toNat :: r.got
        let most := max r.most erasures.val
        if got.length < r.need then s.setJob k { j with rebuild := some { r with got := got, most := most } } else
        let v := s.epochSlot k r.lastSlot
        let s1 := s.sendNodes (j.live.map (·.2)) (j.frame 2 0x32 [1, r.lastSlot, r.tr.toNat, v.lOpen.toNat, v.gateSeq])
        let x : ReplayRoot := { tr := r.tr, op := r.op, most := most, gateSeq := v.gateSeq, shapeInv := r.shapeInv }
        let now := s.ht .dist
        let s2 := s1.modJob k fun w => { w with rebuild := none, replay := some x }
        if after r.tr now then s2 else s2.rootReplay k x (now - r.tr).toNat

/-- T_R at the job root. -/
def State.rootTr (s : State) (k : Nat) : State :=
  match (s.job k).replay with
  | some r => (s.reach .dist r.tr).rootReplay k r 0
  | none => s

/-! ### A leaf's chains (R335, R336, R342, R343, R349) -/

/-- Bytes of HBM in service: 2 × 10^9 for every channel of a trained stack that is not retired (R343, R419). -/
def State.hbmChannels (s : State) : Nat :=
  s.hbm.trained.length * 32 - (s.hbm.retired.filter fun c => s.hbm.trained.contains (c / 32)).length

/-- Blocks a slot takes at this leaf (R343). -/
def ChainSlot.blocks (v : ChainSlot) : Nat :=
  if v.state = 0 then 0 else
  v.b * ((if v.entries.any fun e => !e.mirror then 1 else 0) + (v.entries.filter (·.mirror)).length)

/-- Blocks in use by every slot. -/
def State.chainUsed (s : State) : Nat := (s.chains.map fun kv => kv.2.blocks).sum

/-- CST_CAP: free chain capacity in blocks (R343). -/
def State.chainFree (s : State) : Nat :=
  if s.hbmChannels = 0 then 0
  else (s.hbmChannels * 2000000000 - 17179869184 - s.fd .dist .cstCfg 15 0 * 1000000000) / 262144 - s.chainUsed

def State.chain (s : State) (key : Nat) : ChainSlot := mget (fun _ => {}) s.chains key

def State.setChain (s : State) (key : Nat) (v : ChainSlot) : State := { s with chains := mset (fun _ => {}) s.chains key v }

/-- The chain contexts whose slots are all FREE become FREE (R335). -/
def State.chainCtxFree (s : State) : State :=
  { s with chainCtxs := s.chainCtxs.filter fun x => s.chains.any fun kv => kv.2.ctx == x.1 }

/-- A CHAIN record (R349, R365). -/
def State.chainRec (s : State) (key old new : Nat) (c : Code) : State :=
  s.jnl { p := .dist, blk := 14 } 0x0901 (pay [(0, 1, key / 32), (1, 1, key % 32), (2, 1, old), (3, 1, new), (4, 1, c.num)])

/-- A slot changes state; the change is journalled, and a slot that becomes FREE loses its contents (R349). -/
def State.chainTo (s : State) (key st : Nat) (c : Code) : State :=
  let v := s.chain key
  if v.state = st then s else
  ((s.setChain key (if st = 0 then {} else { v with state := st })).chainRec key v.state st c).chainCtxFree

/-- A leaf slot becomes FREE and its leaf SNAP completes with a code. -/
def State.chainFreeWith (s : State) (key : Nat) (c : Code) : State :=
  let v := s.chain key
  (s.chainTo key 0 c).completeOp v.op c (BitVec.ofNat 64 (key % 32))

/-- Chain slots of a job outside FREE, by slot number. -/
def State.chainsOf (s : State) (handle slot : Nat) : List (Nat × ChainSlot) :=
  match s.chainCtxs.find? fun x => x.2.handle == handle with
  | none => []
  | some (k, _) => s.chains.filter fun kv => kv.1 % 32 == slot && kv.2.ctx == k

/-- The entries of a leaf SNAP descriptor. -/
def State.chainEntries (s : State) (e : EngSel) (d m : Nat) : List (Nat × Nat × Nat) :=
  (List.range m).map fun i => (s.dmemRead e (d + 32 + 4 * i) 1, s.dmemRead e (d + 33 + 4 * i) 1, s.dmemRead e (d + 34 + 4 * i) 2)

/-- Entries R336 accepts: positions and parity indices unique. -/
def entriesOk (es : List (Nat × Nat × Nat)) : Bool :=
  (es.all fun x => x.2.1 < 64 && x.2.2 = 0 && (x.1 < 128 || x.2.1 = 0))
    && (es.map fun x => x.1 % 128).Nodup && ((es.filter fun x => x.1 < 128).map fun x => x.2.1).Nodup

/-- Lockstep slots in use (R343). -/
def State.lockstep (s : State) : Nat := (s.chains.filter fun kv => kv.2.state == 1 || kv.2.state == 2 || kv.2.state == 6).length

/-- A slot set up by a leaf SNAP, here or at the twin (R335): READY in its context, whose older generation frees what it held (R349). -/
def State.setUpSlot (s : State) (x : ChainCopy) (op : Option OpRef) : State :=
  let old := (s.chainCtxs.find? fun y => y.1 == x.ctx).map (·.2)
  let newer := old.any fun y => y.handle = x.handle && y.gen ≠ x.gen
  let s1 := if newer then (s.chains.filter fun kv => kv.2.ctx == x.ctx).foldl (fun w kv => w.chainFreeWith kv.1 .epoch) s else s
  let kept := if newer then none else old
  let ctx : ChainCtx := { handle := x.handle, gen := x.gen, epoch := (kept.map (·.epoch)).getD 0, rebuild := kept.bind (·.rebuild) }
  let s2 := { s1 with chainCtxs := (s1.chainCtxs.filter fun (y : Nat × ChainCtx) => y.1 ≠ x.ctx) ++ [(x.ctx, ctx)] }
  let key := 32 * x.set.val + x.slot.val
  (s2.setChain key { state := 1, ctx := x.ctx, entries := x.entries, freeMask := x.freeMask, op := op }).chainRec key 0 1 .ok

/-- Every slot of a job becomes FREE, the job root's context having become so (R349). -/
def State.chainsFreed (s : State) (handle : Nat) : State :=
  match s.chainCtxs.find? fun x => x.2.handle == handle with
  | none => s
  | some (k, _) => (s.chains.filter fun kv => kv.2.ctx == k).foldl (fun w kv => w.chainFreeWith kv.1 .state) s

/-- The copy of a slot goes to the other leaf of the pair (R335). -/
def State.sendChain (s : State) (x : ChainCopy) : State :=
  if s.twinUp then s.tellTwin 3 x.handle x.gen 0
    ([x.ctx, x.set, x.slot, x.freeMask] ++ counted (x.entries.flatMap fun e => [e.pos, b2n e.mirror, e.index])) else s

/-- SNAP at a leaf (R335, R336, R342, R343). The twin's copy travels over the peer ports. -/
def State.snapLeaf (s : State) (t : Fin 8) (c obj a off pc : Nat) : Ends :=
  let e : EngSel := .tile t
  s.withBlock e c off 8 32 fun d =>
    let rd (o n : Nat) : Nat := s.dmemRead e (d + o) n
    let m := rd 5 1
    let n := if m ≤ 64 then m else 0
    s.withBlock e c off 8 (32 + 4 * n) fun _ =>
      let k := s.jobOf e c
      let kk := k.getD 0
      let handle := rd 0 2
      let gen := rd 2 1
      let slot := rd 3 1
      let set := rd 4 1
      let raw := s.chainEntries e d n
      let es := raw.map fun x => ({ pos := x.1 % 128, mirror := x.1 / 128 = 1, index := x.2.1 } : ChainEntry)
      let old := (s.chainCtxs.find? fun x => x.1 == kk).map (·.2)
      let newer := match old with
        | some x => x.handle = handle && x.gen ≠ gen
        | none => false
      let others := s.chains.filter fun kv => !(newer && kv.2.ctx == kk)
      let clash := others.any fun kv => if kv.1 / 32 = set then kv.2.ctx ≠ kk || kv.2.entries ≠ es
        else kv.2.ctx = kk && kv.2.entries.any fun x => es.any fun y => y.pos == x.pos
      let range := k.isNone || m = 0 || 64 < m || 32 ≤ slot || 128 ≤ set || rd 6 2 ≠ 0 || rd 12 8 ≠ 0 || rd 20 8 ≠ 0 || rd 28 4 ≠ 0
        || !entriesOk raw || clash
      let key := 32 * set + slot
      let state := s.tier ≠ 1 || s.isOpen .dist || (s.job kk).state ≠ 0 || (match old with
        | some x => x.handle ≠ handle
        | none => false) || ((s.chain key).state ≠ 0 && !newer)
      let b := others.foldl (fun z kv => if kv.1 / 32 = set && kv.2.b ≠ 0 then kv.2.b else z) 1
      let v : ChainSlot := { state := 1, ctx := kk, entries := es, freeMask := rd 8 4, b := b }
      let busy := s.chainFree < v.blocks || 128 ≤ s.lockstep
      s.async e c 0x38 0 pc obj kk a [slot] false range false state busy fun o u =>
        let x : ChainCopy := { ctx := kk, handle := handle, gen := gen, set := Fin.ofNat 128 set, slot := Fin.ofNat 32 slot
                               freeMask := rd 8 4, entries := es }
        (u.setUpSlot x (some o)).sendChain x

/-- RELEASE_REQ at a distributor. With the last member below released, the job root's context becomes FREE as far as this leaf pair can tell, and the
job's slots are FREE (R349; log entry 21). -/
def releaseFrame (origin : HT) (node : BitVec 20) (handle : BitVec 16) (gen : Byte) (rank : BitVec 20) (s : State) : State :=
  let s1 := releaseReq origin node handle gen rank s
  if s1.tier = 1 && s1.relays.any fun x => x.1 == handle.toNat && x.2.members.isEmpty then
    (s1.chainsFreed handle.toNat).sendChain { ctx := 0, handle := handle.toNat, gen := gen.toNat, set := 0, slot := 0, freeMask := 0, entries := [] }
  else s1

/-! ### What the twin sends (R15, R272, R318, R335, R350; log entry 135) -/

/-- A copy of a job arrives: kept in place of the one before, dropped where the job is FREE, taken over where its control domain moves here; and
acknowledged where the twin waits (R15, R318). -/
def State.copyIn (s : State) (c : JobCopy) : State :=
  let rest := s.copies.filter fun (x : JobCopy) => x.handle ≠ c.handle
  let s1 := if c.state = 0 then { s with copies := rest }
    else if c.moved then s.takeOver c
    else { s with copies := rest ++ [c] }
  if c.waits then s1.tellTwin 0 c.handle c.gen c.epoch [c.k] else s1

/-- The copy of a slot arrives: set up as the SNAP at the other leaf has it, where its context and the slot are free for it (R335). -/
def State.chainIn (s : State) (x : ChainCopy) : State :=
  if x.entries.isEmpty then s.chainsFreed x.handle else
  let old := (s.chainCtxs.find? fun y => y.1 == x.ctx).map (·.2)
  let other := old.any fun y => y.handle ≠ x.handle
  let newer := old.any fun y => y.handle = x.handle && y.gen ≠ x.gen
  if other || ((s.chain (32 * x.set.val + x.slot.val)).state ≠ 0 && !newer) then s else s.setUpSlot x none

/-- MIRROR_ACK: what arrives from the twin. -/
def mirrorAck (m : TwinMsg) (s : State) : State :=
  match m with
  | .ack k => s.mirrorGo k.val false
  | .job c => s.copyIn c
  | .record r => s.pushRing 0 { r with num := s.dist.jnl.count }
  | .chain x => s.chainIn x
  | .ledger l => { s with ledger := l }

/-- The job context of a leaf that a frame names, if its generation matches and its epoch is not stale (R319): the epoch a relay knows the job
by, or, for a BULK frame at a leaf that relays nothing for it, the one its last continuity message carried. -/
def State.leafMsg (s : State) (bulk : Bool) (handle : BitVec 16) (gen : Byte) (epoch : Word) (act : State → State) (none_ : State) : State :=
  let relay : Option Nat := (s.relays.find? fun x => x.1 == handle.toNat && x.2.gen == gen.toNat).map fun x =>
    s.relayEpoch x.2
  match s.chainCtxs.find? fun x => x.2.handle == handle.toNat with
  | none => none_
  | some (k, x) =>
    let own := if bulk then some x.epoch else none
    if x.gen ≠ gen.toNat || ((relay <|> own).any fun e => e ≠ epoch.toNat) then s.staleDrop
    else
      let learn (y : Nat × ChainCtx) : Nat × ChainCtx := if y.1 = k then (k, { x with epoch := epoch.toNat }) else y
      act { s with chainCtxs := s.chainCtxs.map learn }

/-- A continuity answer from a leaf to the job root (R360). -/
def State.leafAnswer (s : State) (handle : Nat) (fields : List Nat) : State :=
  let x := (s.chainCtxs.find? fun x => x.2.handle == handle).map (·.2)
  s.send .dist (.jobRoot handle) { cls := 2, ty := 0x32, handle := handle, gen := (x.map (·.gen)).getD 0, epoch := (x.map (·.epoch)).getD 0,
                                   fields := fields }

/-- Counts a frame or command for a slot not held (R339, R349). -/
def State.noSlot (s : State) : State := s.bump .dist .cstCnt2 31 16 1

/-- OPEN at a leaf (R344, R349): READY slots fill; COMMITTED slots of the same chain that FREEMASK names become FREE. -/
def openLeaf (handle : BitVec 16) (gen : Byte) (epoch : Word) (slot : Fin 32) (l : HT) (b wofs : Word) (wlen : BitVec 16) (s : State) : State :=
  s.leafMsg false handle gen epoch (fun u => (u.chainsOf handle.toNat slot.val).foldl (fun w kv =>
      if kv.2.state ≠ 1 then w else
      let w1 := (List.range 32).foldl (fun z i =>
        let k2 := 32 * (kv.1 / 32) + i
        if kv.2.freeMask.testBit i && i ≠ slot.val && (z.chain k2).state = 5 then z.chainTo k2 0 .ok else z) w
      (w1.setChain kv.1 { kv.2 with lOpen := l, b := b.toNat, wofs := wofs.toNat, wlen := wlen.toNat }).chainTo kv.1 2 .ok) u) s

/-- W_n of a slot (R344). -/
def ChainSlot.w (v : ChainSlot) (n : Nat) : HT := v.lOpen + BitVec.ofNat 64 (256 * (v.wofs + n * v.wlen))

/-- C_n − W_n (R345). -/
def State.winSpan (s : State) (wlen : Nat) : HT := BitVec.ofNat 64 (256 * (wlen + 10 * s.fd .dist .cstCfg 31 24))

/-- LEAF_WINDOW_OPEN: a leaf opens the next window of a slot at its W_n (R344). -/
def leafWindowOpen (set : Fin 128) (slot : Fin 32) (s : State) : State :=
  let key := 32 * set.val + slot.val
  let v := s.chain key
  if v.state ≠ 2 || v.b ≤ v.opened then s
  else (s.reach .dist (v.w v.opened)).setChain key { v with opened := v.opened + 1 }

/-- Entries of a slot that keep it from PREPARED: not fenced, with halves missing (R349). -/
def State.missing (s : State) (v : ChainSlot) : List ChainEntry :=
  v.entries.filter fun e => (v.absorbed.filter fun x => x.1 == e.pos).length < 64 * v.b && (s.nodeSt e.pos).state ≠ 2

/-- A slot that holds a PREPARE becomes PREPARED once its merges are done and its halves are in (R349). -/
def State.prepTry (s : State) (key : Nat) : State :=
  let v := s.chain key
  if v.prep && (v.state = 2 || v.state = 3) && v.staged.isEmpty && (s.missing v).isEmpty then s.chainTo key 4 .ok else s

/-- PREPARED goes out once every slot of the job that holds the PREPARE is PREPARED (R349, R360). -/
def State.prepAnswer (s : State) (handle slot : Nat) : State :=
  let held := (s.chainsOf handle slot).filter fun kv => kv.2.prep
  if held.isEmpty || held.any fun kv => kv.2.state ≠ 4 then s else
  let lag := (held.map fun kv => kv.2.lagging.length).sum
  (held.foldl (fun w kv => w.setChain kv.1 { kv.2 with prep := false }) s).leafAnswer handle [6, slot, 0, min lag 65535]

/-- The handle of the job a slot belongs to. -/
def State.chainHandle (s : State) (key : Nat) : Nat :=
  match s.chainCtxs.find? fun x => x.1 == (s.chain key).ctx with
  | some x => x.2.handle
  | none => 0

/-- After anything that may end a slot's wait. -/
def State.prepCheck (s : State) (key : Nat) : State := (s.prepTry key).prepAnswer (s.chainHandle key) (key % 32)

/-- LEAF_WINDOW_CLOSE: at C_n the accumulators of window n go to HBM once; after the last the slot settles (R345, R349). -/
def leafWindowClose (set : Fin 128) (slot : Fin 32) (s : State) : State :=
  let key := 32 * set.val + slot.val
  let v := s.chain key
  if v.b ≤ v.closed || (v.state ≠ 2 && v.state ≠ 4) then s else
  let n := v.closed
  let s1 := s.reach .dist (v.w n + s.winSpan v.wlen)
  let mine := v.acc.filter fun x => x.1 / 64 == n
  let v1 := { v with
    closed := n + 1
    acc := v.acc.filter fun x => x.1 / 64 ≠ n
    parity := mine.foldl (fun m x => mset (fun _ => []) m x.1 (gfAdd (mget (fun _ => []) m x.1) x.2)) v.parity }
  let s2 := s1.setChain key v1
  if v.state = 2 && v1.closed = v.b then (s2.chainTo key 3 .ok).prepCheck key else s2

/-! ### BULK frames at a leaf (R339, R345–R347, R353) -/

/-- The coefficient of a parity member at this leaf: 1 at the A leaf, g^i at the B leaf (R337). -/
def State.coef (s : State) (e : ChainEntry) : Byte := if s.domain = 0 then 1 else gfPow e.index

/-- The erased positions of the rebuild that a job context runs, with their targets. -/
def State.erasedOf (s : State) (ctx : Nat) : List (Nat × Nat) :=
  match (s.chainCtxs.find? fun x => x.1 == ctx).bind fun x => x.2.rebuild with
  | some r => r.erased
  | none => []

/-- The window that a rebuild of the slot gives block `n`: its start. -/
def State.rebuildStart (s : State) (v : ChainSlot) (n : Nat) : HT :=
  match (s.chainCtxs.find? fun x => x.1 == v.ctx).bind fun x => x.2.rebuild with
  | some r => r.start + BitVec.ofNat 64 (256 * n * v.wlen)
  | none => v.w n

/-- Where a half's chunk lies in a slot. -/
def chunkOf (block half off : Nat) : Nat := 64 * block + 32 * half + off / 4096

/-- Marks a slow block: its sender is LAGGING, and the block counts once (R346). -/
def State.slowMark (s : State) (key pos block : Nat) : State :=
  let v := s.chain key
  let s1 := if v.slow.contains (pos, block) then s else s.bump .dist .cstCnt 31 16 1
  let s2 := if v.lagging.contains pos then s1 else s1.setB .dist .cstStat 1
  s2.setChain key { v with
    slow := if v.slow.contains (pos, block) then v.slow else (pos, block) :: v.slow
    lagging := if v.lagging.contains pos then v.lagging else pos :: v.lagging }

/-- One frame of an entry that has passed the checks: absorbed in lockstep, staged for the slow path, or written to a mirror. -/
def State.absorbChunk (s : State) (key : Nat) (e : ChainEntry) (resend : Bool) (chunk : Nat) (data : List Byte) : State :=
  let v := s.chain key
  let n := chunk / 64
  let now := s.ht .dist
  let w := if resend then s.rebuildStart v n else v.w n
  let slow := v.state = 1 || after w now || !after (w + s.winSpan v.wlen) now
  let term := if data.isEmpty then [] else gfScale (s.coef e) data
  let v1 := if resend then { v with resent := (e.pos, chunk) :: v.resent } else { v with absorbed := (e.pos, chunk) :: v.absorbed }
  if e.mirror then
    if resend then s.setChain key v1
    else s.setChain key { v1 with mirrors := mset (fun _ => (0, [])) v.mirrors (e.pos * 2 ^ 32 + chunk) (e.pos, data) }
  else if slow then
    let st := if data.isEmpty then v.staged else v.staged ++ [⟨resend, e.pos, chunk, term⟩]
    (s.setChain key { v1 with staged := st }).slowMark key e.pos n
  else if resend then
    s.setChain key { v1 with terms := mset (fun _ => []) v.terms chunk (gfAdd (mget (fun _ => []) v.terms chunk) term) }
  else s.setChain key { v1 with acc := mset (fun _ => []) v.acc chunk (gfAdd (mget (fun _ => []) v.acc chunk) term) }

/-- The slot and entry a BULK frame of a sender names. -/
def State.bulkTarget (s : State) (handle slot pos : Nat) (resend : Bool) : Option (Nat × ChainEntry) :=
  (s.chainsOf handle slot).findSome? fun kv =>
    if resend && kv.2.state ≠ 6 then none else (kv.2.entries.find? fun e => e.pos == pos).map fun e => (kv.1, e)

/-- Counts a duplicate. -/
def State.dupFrame (s : State) : State := (s.bump .dist .cstCnt 15 0 1).setB .dist .cstStat 0

/-- BULK_DATA and BULK_RESEND at a leaf, from port DPn (R339). -/
def bulkAbsorb (resend : Bool) (n : Fin 256) (handle : BitVec 16) (gen : Byte) (epoch : Word) (slot : Fin 32) (half : Fin 2) (block off : Word)
    (data : List Byte) (s : State) : State :=
  s.leafMsg true handle gen epoch (fun u =>
    if off.toNat % 4096 ≠ 0 || data.length ≠ 4096 || 131072 ≤ off.toNat then u.bump .dist .cstCnt2 15 0 1 else
    match u.bulkTarget handle.toNat slot.val (n.val / 2) resend with
    | none => u.noSlot
    | some (key, e) =>
      let v := u.chain key
      if v.state ≠ 1 && v.b ≤ block.toNat then u.noSlot else
      let ch := chunkOf block.toNat half.val off.toNat
      if (if resend then v.resent else v.absorbed).contains (e.pos, ch) then u.dupFrame
      else (u.absorbChunk key e resend ch data).prepCheck key) s.noSlot

/-- BULK_ZERO: half h of block k is all zero (R339). -/
def bulkZero (n : Fin 256) (handle : BitVec 16) (gen : Byte) (epoch : Word) (slot : Fin 32) (half : Fin 2) (block : Word) (s : State) : State :=
  s.leafMsg true handle gen epoch (fun u =>
    match u.bulkTarget handle.toNat slot.val (n.val / 2) false with
    | none => u.noSlot
    | some (key, e) =>
      let v := u.chain key
      if v.state ≠ 1 && v.b ≤ block.toNat then u.noSlot else
      let chs := (List.range 32).map fun i => chunkOf block.toNat half.val (4096 * i)
      let new := chs.filter fun ch => !v.absorbed.contains (e.pos, ch)
      if new.isEmpty then u.dupFrame
      else (new.foldl (fun w ch => w.absorbChunk key e false ch []) u).prepCheck key) s.noSlot

/-! ### Rebuild at a leaf (R338, R352–R354) -/

def State.chainCtx (s : State) (ctx : Nat) : Option ChainCtx := (s.chainCtxs.find? fun x => x.1 == ctx).map (·.2)

def State.setRebuild (s : State) (ctx : Nat) (r : Option LeafRebuild) : State :=
  let put (x : Nat × ChainCtx) : Nat × ChainCtx := if x.1 = ctx then (x.1, { x.2 with rebuild := r }) else x
  { s with chainCtxs := s.chainCtxs.map put }

/-- A slot's erased entries under a list of erased positions. -/
def ChainSlot.erased (v : ChainSlot) (ps : List (Nat × Nat)) : List (ChainEntry × Nat) :=
  v.entries.filterMap fun e => (ps.find? fun p => p.1 == e.pos).map fun p => (e, p.2)

/-- Erasures of a set, counting a lost leaf where parity is erased (R354). Of a B leaf that an installation of one domain never connects (R17) the spec
does not say whether it counts as lost: it does here (log entry 139). -/
def State.erasureCount (s : State) (v : ChainSlot) (ps : List (Nat × Nat)) : Nat :=
  let n := ((v.erased ps).filter fun x => !x.1.mirror).length
  if n = 0 then 0 else n + b2n (!s.twinUp)

/-- Chain slots of a job context by slot number. -/
def State.ctxSlots (s : State) (ctx slot : Nat) : List (Nat × ChainSlot) := s.chains.filter fun kv => kv.1 % 32 == slot && kv.2.ctx == ctx

/-- A rebuild ends with a code: its slots are COMMITTED again, and the job root is told or the operation completes (R349, R352). -/
def State.rebuildEnd (s : State) (ctx : Nat) (r : LeafRebuild) (c : Code) (tell : Bool) : State :=
  let s1 := (s.chains.filter fun kv => kv.2.ctx == ctx && kv.2.state == 6).foldl (fun w kv =>
    (w.setChain kv.1 { w.chain kv.1 with terms := [], resent := [], synd := [], done := [], staged := [] }).chainTo kv.1 5 c) s
  let s2 := (s1.setRebuild ctx none).setB .dist .cstStat (if c = .ok then 4 else 5)
  match r.op with
  | some o => s2.completeOp (some o) c (BitVec.ofNat 64 r.most)
  | none => if tell then s2.leafAnswer ((s.chainCtx ctx).map (·.handle) |>.getD 0) [10, c.num, r.most] else s2

/-- A RESTORE frame to a target node (R339, R353). -/
def State.sendRestore (s : State) (ctx key rank target chunk : Nat) (data : List Byte) : State :=
  match s.chainCtx ctx with
  | none => s
  | some x =>
    let a := bulkAddr (key % 32) (chunk / 32 % 2) (chunk / 64) rank 0
    s.send .dist (.node target) (bulkFrame 5 x.handle x.gen x.epoch a (4096 * (chunk % 32)) (if data.isEmpty then List.replicate 4096 0 else data))

/-- The last rank a node was seen to hold in a job. -/
def State.rankOfPos (s : State) (handle pos : Nat) : Nat :=
  match s.rankNodes.find? fun x => x.1 == handle && x.2.2 == (s.nodeSt pos).node with
  | some x => x.2.1
  | none => 0

/-- Every survivor of a set has sent a chunk. -/
def ChainSlot.whole (v : ChainSlot) (ps : List (Nat × Nat)) (ch : Nat) : Bool :=
  v.entries.all fun e => e.mirror || (ps.any fun p => p.1 == e.pos) || v.resent.contains (e.pos, ch)

/-- The syndrome of a chunk at this leaf: its parity with the survivors' terms (R338). -/
def ChainSlot.syndrome (v : ChainSlot) (ch : Nat) : List Byte := gfAdd (mget (fun _ => []) v.parity ch) (mget (fun _ => []) v.terms ch)

/-- Recovers a chunk whose survivors have all sent it (R338, R353): streamed to its target by the recovering leaf; from the B leaf, with two dies
erased, its syndrome goes to the live parity member of the lowest set index. Nothing happens while a needed part is missing. -/
def State.recover (s : State) (key ch : Nat) : State :=
  let v := s.chain key
  let ps := s.erasedOf v.ctx
  let handle := (s.chainCtx v.ctx).map (·.handle) |>.getD 0
  let xs := (v.erased ps).filter fun x => !x.1.mirror
  let pend := v.staged.any fun g => g.resend && g.chunk == ch
  if v.state ≠ 6 || v.done.contains ch || !v.whole ps ch || pend then s else
  let syn := v.syndrome ch
  let fin (t : State) : State := t.setChain key { t.chain key with done := ch :: (t.chain key).done }
  let out (t : State) (x : ChainEntry × Nat) (d : List Byte) : State :=
    t.sendRestore v.ctx key (s.rankOfPos handle x.1.pos) x.2 ch d
  match xs with
  | [x] =>
    if s.domain = 0 then fin (out s x syn)
    else if s.twinUp then fin s
    else fin (out s x (gfScale (gfInv (gfPow x.1.index)) syn))
  | [x, y] =>
    if s.domain = 0 then
      match v.synd.find? fun q => q.1 == ch with
      | none => s
      | some q =>
        let (lo, hi) := if x.1.index < y.1.index then (x, y) else (y, x)
        let d := recoverTwo lo.1.index hi.1.index syn q.2
        fin (out (out s lo d.1) hi d.2)
    else
      let via := (v.entries.filter fun e => !e.mirror && !(ps.any fun p => p.1 == e.pos)).foldl
        (fun (m : Option ChainEntry) e => match m with
          | some b => if e.index < b.index then some e else m
          | none => some e) none
      match via, s.chainCtx v.ctx with
      | some e, some x =>
        let a := bulkAddr (key % 32) (ch / 32 % 2) (ch / 64) 0 (key / 32)
        fin (s.send .dist (.node (s.nodeSt e.pos).node)
          (bulkFrame 4 x.handle x.gen x.epoch a (4096 * (ch % 32)) (if syn.isEmpty then List.replicate 4096 0 else syn)))
      | _, _ => s
  | _ => fin s

/-- Streams the erased mirror entries of a slot from the stored copies (R353): the A leaf, or the B leaf without it. -/
def State.streamMirrors (s : State) (key : Nat) : State :=
  let v := s.chain key
  let handle := (s.chainCtx v.ctx).map (·.handle) |>.getD 0
  if s.domain = 1 && s.twinUp then s else
  (((v.erased (s.erasedOf v.ctx)).filter fun x => x.1.mirror)).foldl (fun t x =>
    (List.range (64 * v.b)).foldl (fun u ch =>
      u.sendRestore v.ctx key (s.rankOfPos handle x.1.pos) x.2 ch (mget (fun _ => (0, [])) v.mirrors (x.1.pos * 2 ^ 32 + ch)).2) t) s

/-- Slots of the job that the rebuild's present slot number affects. -/
def State.affected (s : State) (ctx : Nat) (r : LeafRebuild) : List (Nat × ChainSlot) :=
  match r.slots with
  | [] => []
  | i :: _ => (s.ctxSlots ctx i).filter fun kv => (kv.2.state == 5 || kv.2.state == 6) && !(kv.2.erased r.erased).isEmpty

/-- Begins the rebuild of the present slot number, or of the first later one that is affected; with none left the rebuild ends with OK. -/
def State.rebuildBegin : Nat → Nat → State → State
  | 0, _, s => s
  | fuel + 1, ctx, s =>
    match (s.chainCtx ctx).bind (·.rebuild) with
    | none => s
    | some r =>
      if r.slots.isEmpty then s.rebuildEnd ctx r .ok true else
      let aff := s.affected ctx r
      if aff.isEmpty then State.rebuildBegin fuel ctx (s.setRebuild ctx (some { r with slots := r.slots.drop 1 })) else
      let most := aff.foldl (fun m kv => max m (min 3 (s.erasureCount kv.2 r.erased))) r.most
      let s1 := aff.foldl (fun w kv => w.setChain kv.1 { w.chain kv.1 with erasures := min 3 (s.erasureCount kv.2 r.erased) })
        (s.setRebuild ctx (some { r with most := most, window := 0 }))
      if aff.any fun kv => 3 ≤ s.erasureCount kv.2 r.erased then
        let bad := aff.filter fun kv => 3 ≤ s.erasureCount kv.2 r.erased
        let handle := (s.chainCtx ctx).map (·.handle) |>.getD 0
        let s2 := bad.foldl (fun w kv => (w.setChain kv.1 { w.chain kv.1 with unrecov := true }).jnl { p := .dist, blk := 14 } 0x0902
          (pay [(0, 2, handle), (2, 2, 0), (4, 1, 1)])) s1
        (s2.setB .dist .cstStat 7).rebuildEnd ctx { r with most := most } .integrity true
      else
        let s2 := aff.foldl (fun w kv => (w.chainTo kv.1 6 .ok).streamMirrors kv.1) s1
        if aff.all fun kv => ((kv.2.erased r.erased).filter fun x => !x.1.mirror).isEmpty then
          let s3 := aff.foldl (fun w kv => w.chainTo kv.1 5 .ok) s2
          State.rebuildBegin fuel ctx (s3.setRebuild ctx (some { r with slots := r.slots.drop 1, most := most }))
        else s2

/-- Starts a rebuild at a leaf. -/
def State.rebuildStartAt (s : State) (ctx mask : Nat) (ts : HT) (pairs : List (Nat × Nat)) (op : Option OpRef) : State :=
  let handle := (s.chainCtx ctx).map (·.handle) |>.getD 0
  let pos (rank : Nat) : Option Nat := (s.rankNodes.find? fun x => x.1 == handle && x.2.1 == rank).bind fun x => s.posOf x.2.2
  let erased := pairs.filterMap fun p => (pos p.1).map fun q => (q, p.2)
  let lo (i : Nat) : HT := match s.ctxSlots ctx i with
    | kv :: _ => kv.2.lOpen
    | [] => 0
  let sorted := ((List.range 32).filter fun i => mask.testBit i).foldl (fun (l : List Nat) i =>
    l.filter (fun x => !after (lo x) (lo i)) ++ [i] ++ l.filter (fun x => after (lo x) (lo i))) []
  State.rebuildBegin 33 ctx (s.setRebuild ctx (some { slots := sorted, start := ts, erased := erased, op := op }))

/-- REBUILD_REQ at a leaf (R352, R353). A leaf that holds no chain of the job has nothing to rebuild and answers OK. -/
def rebuildReq (handle : BitVec 16) (gen : Byte) (epoch : Word) (mask : Word) (ts : HT) (pairs : List (BitVec 20 × BitVec 20)) (s : State) : State :=
  s.leafMsg false handle gen epoch (fun u =>
      match u.chainCtxs.find? fun x => x.2.handle == handle.toNat with
      | some (k, _) => u.rebuildStartAt k mask.toNat ts (pairs.map fun p => (p.1.toNat, p.2.toNat)) none
      | none => u)
    (s.send .dist (.jobRoot handle.toNat) { cls := 2, ty := 0x32, handle := handle.toNat, gen := gen.toNat, epoch := epoch.toNat, fields := [10, 0, 0] })

/-- REBUILD at a leaf (R249, R352): the same work for its own pair. -/
def State.rebuildLeaf (s : State) (t : Fin 8) (c obj a off pc : Nat) : Ends :=
  let g : EngSel := .tile t
  s.withBlock g c off 8 32 fun d =>
    let r := s.rebuildDesc g d
    s.withBlock g c off 8 (32 + 8 * r.pairs.length) fun _ =>
      let k := s.jobOf g c
      let kk := k.getD 0
      let slots := (List.range 32).filter fun i => r.mask.testBit i
      let x := s.chainCtx kk
      let state := x.isNone || (x.bind (·.rebuild)).isSome
        || slots.any fun i => !((s.ctxSlots kk i).any fun kv => kv.2.state == 5)
      s.async g c 0x3A 1 pc obj kk a [] false (k.isNone || r.bad (s.ht .dist)) false state false fun o u =>
        u.rebuildStartAt kk r.mask r.ts r.pairs (some o)

/-- The present slot number is rebuilt: its slots are COMMITTED, and the next follows it. -/
def State.rebuildNext (s : State) (ctx : Nat) : State :=
  match (s.chainCtx ctx).bind (·.rebuild) with
  | none => s
  | some r =>
    let aff := (s.affected ctx r).filter fun kv => kv.2.state == 6
    match aff with
    | [] => s
    | (_, v) :: _ =>
      if r.window < v.b || aff.any fun kv => kv.2.done.length < 64 * kv.2.b then s else
      let s1 := aff.foldl (fun w kv => (w.setChain kv.1 { w.chain kv.1 with terms := [], resent := [], synd := [], done := [] }).chainTo kv.1 5 .ok) s
      State.rebuildBegin 33 ctx (s1.setRebuild ctx (some { r with
        slots := r.slots.drop 1, window := 0, start := r.start + BitVec.ofNat 64 (256 * v.b * v.wlen) }))

/-- Positions of a slot fenced since its rebuild began (R354). -/
def State.newErasures (s : State) (v : ChainSlot) (ps : List (Nat × Nat)) : List Nat :=
  (v.entries.filter fun e => !e.mirror && (s.nodeSt e.pos).state == 2 && !(ps.any fun p => p.1 == e.pos)).map (·.pos)

/-- REBUILD_WINDOW: the next rebuild window of a job closes, and its blocks are recovered (R353). An erasure added since ends the rebuild at this
boundary: with two, a coordinated one waits for the root's next, one of this leaf's own restarts; with three it ends with INTEGRITY (R354). -/
def rebuildWindow (handle : BitVec 16) (s : State) : State :=
  match s.chainCtxs.find? fun x => x.2.handle == handle.toNat with
  | none => s
  | some (k, x) => match x.rebuild with
    | none => s
    | some r =>
      let aff := (s.affected k r).filter fun kv => kv.2.state == 6
      match aff with
      | [] => s
      | (_, v) :: _ =>
        if v.b ≤ r.window then s else
        let s1 := s.reach .dist (r.start + BitVec.ofNat 64 (256 * r.window * v.wlen) + s.winSpan v.wlen)
        let added := (aff.flatMap fun kv => s.newErasures kv.2 r.erased).eraseDups
        if !added.isEmpty then
          let all := r.erased ++ added.map fun p => (p, 2 ^ 20)
          let clear (w : State) (kv : Nat × ChainSlot) : State :=
            w.setChain kv.1 { w.chain kv.1 with terms := [], resent := [], synd := [], done := [], staged := [] }
          if r.op.isSome || (aff.any fun kv => 3 ≤ s.erasureCount kv.2 all) then
            State.rebuildBegin 33 k ((aff.foldl clear s1).setRebuild k (some { r with erased := all, window := 0, start := s1.ht .dist }))
          else s1.rebuildEnd k r .epoch false
        else
          let n := r.window
          let s2 := s1.setRebuild k (some { r with window := n + 1 })
          let s3 := aff.foldl (fun w kv => (List.range 64).foldl (fun z i => z.recover kv.1 (64 * n + i)) w) s2
          s3.rebuildNext k

/-- REBUILD_PREP_TO: PREP_TO after the last rebuild window a survivor still lacks blocks (R353). -/
def rebuildPrepTo (handle : BitVec 16) (s : State) : State :=
  match s.chainCtxs.find? fun x => x.2.handle == handle.toNat with
  | none => s
  | some (k, x) => match x.rebuild with
    | none => s
    | some r =>
      match (s.affected k r).filter fun kv => kv.2.state == 6 with
      | [] => s
      | (_, v) :: _ =>
        if r.window < v.b then s else
        (s.reach .dist (r.start + BitVec.ofNat 64 (256 * v.b * v.wlen) + BitVec.ofNat 64 (256000000 * s.fd .dist .cstCfg 23 16))).rebuildEnd k r .busy true

/-- SYND at the A leaf: combined with Pxy as soon as both are present (R353). Its set names the chain. -/
def syndLeaf (handle : BitVec 16) (gen : Byte) (epoch : Word) (set : Fin 128) (slot : Fin 32) (half : Fin 2) (block off : Word) (data : List Byte)
    (s : State) : State :=
  s.leafMsg true handle gen epoch (fun u =>
    let key := 32 * set.val + slot.val
    let v := u.chain key
    let ch := chunkOf block.toNat half.val off.toNat
    if off.toNat % 4096 ≠ 0 || data.length ≠ 4096 then u.bump .dist .cstCnt2 15 0 1
    else if v.state ≠ 6 || u.chainHandle key ≠ handle.toNat then u.noSlot
    else if v.synd.any fun q => q.1 == ch then u.dupFrame
    else
      let u1 := u.setChain key { v with synd := (ch, data) :: v.synd }
      let closed := match (u.chainCtx v.ctx).bind (·.rebuild) with
        | some r => decide (ch / 64 < r.window)
        | none => false
      if closed then (u1.recover key ch).rebuildNext v.ctx else u1) s.noSlot

/-- SLOW_PATH_MERGE: the oldest staged frame of a slot is merged into its parity, or into the survivors' terms of its rebuild (R346, R353). -/
def slowMerge (set : Fin 128) (slot : Fin 32) (s : State) : State :=
  let key := 32 * set.val + slot.val
  let v := s.chain key
  match v.staged with
  | [] => s
  | g :: rest =>
    if g.resend then
      let s1 := s.setChain key { v with
        staged := rest, terms := mset (fun _ => []) v.terms g.chunk (gfAdd (mget (fun _ => []) v.terms g.chunk) g.term) }
      let closed := match (s.chainCtx v.ctx).bind (·.rebuild) with
        | some r => decide (g.chunk / 64 < r.window)
        | none => false
      if closed then (s1.recover key g.chunk).rebuildNext v.ctx else s1
    else
      (s.setChain key { v with
        staged := rest, parity := mset (fun _ => []) v.parity g.chunk (gfAdd (mget (fun _ => []) v.parity g.chunk) g.term) }).prepCheck key

/-! ### Commit at a leaf (R349–R351) -/

/-- PREPARE at a leaf (R349): NONE if it holds no slot past READY; STATE for a slot that is past SETTLING already (log entry 21). -/
def prepareLeaf (handle : BitVec 16) (gen : Byte) (epoch : Word) (slot : Fin 32) (s : State) : State :=
  let none_ := fun (u : State) => u.send .dist (.jobRoot handle.toNat)
    { cls := 2, ty := 0x32, handle := handle.toNat, gen := gen.toNat, epoch := epoch.toNat, fields := [6, slot.val, 1, 0] }
  s.leafMsg false handle gen epoch (fun u =>
    let cs := u.chainsOf handle.toNat slot.val
    if cs.any fun kv => 4 ≤ kv.2.state then u.leafAnswer handle.toNat [6, slot.val, 3, 0] else
    let held := cs.filter fun kv => kv.2.state == 2 || kv.2.state == 3
    if held.isEmpty then none_ u else
    (held.foldl (fun w kv => (w.setChain kv.1 { w.chain kv.1 with prep := true }).prepTry kv.1) u).prepAnswer handle.toNat slot.val) (none_ s)

/-- PREPARE_TIMEOUT: PREP_TO after the last window the slots that hold a PREPARE become FREE, answering BUSY (R349). -/
def prepareTimeout (handle : BitVec 16) (slot : Fin 32) (s : State) : State :=
  let held := (s.chainsOf handle.toNat slot.val).filter fun kv => kv.2.prep
  match held with
  | [] => s
  | (_, v) :: _ =>
    let s1 := s.reach .dist (v.w v.b + BitVec.ofNat 64 (256000000 * s.fd .dist .cstCfg 23 16))
    let s2 := s1.leafAnswer handle.toNat [6, slot.val, 2, 0]
    held.foldl (fun w kv => w.chainFreeWith kv.1 .busy) s2

/-- COMMIT at a leaf (R349). -/
def commitLeaf (handle : BitVec 16) (gen : Byte) (epoch : Word) (slot : Fin 32) (s : State) : State :=
  s.leafMsg false handle gen epoch (fun u =>
    let cs := u.chainsOf handle.toNat slot.val
    if cs.isEmpty then u.noSlot else
    cs.foldl (fun w kv =>
      if kv.2.state = 4 then
        let w1 := (w.chainTo kv.1 5 .ok).setChain kv.1 { w.chain kv.1 with state := 5, op := none }
        (w1.setB .dist .cstStat 2).completeOp kv.2.op .ok (BitVec.ofNat 64 slot.val)
      else if kv.2.state = 5 then w
      else w.noSlot.chainRec kv.1 kv.2.state kv.2.state .state) u) s.noSlot

/-- DISCARD at a leaf (R349, R351): a COMMITTED slot answers COMMITTED. -/
def discardLeaf (handle : BitVec 16) (gen : Byte) (epoch : Word) (slot : Fin 32) (code : Code) (s : State) : State :=
  s.leafMsg false handle gen epoch (fun u =>
    (u.chainsOf handle.toNat slot.val).foldl (fun w kv =>
      if 1 ≤ kv.2.state && kv.2.state ≤ 4 then (w.chainFreeWith kv.1 code).setB .dist .cstStat 3
      else if kv.2.state = 5 then w.leafAnswer handle.toNat [6, slot.val, 4, min kv.2.lagging.length 65535]
      else w) u) s

/-! ### CST registers (R361) -/

/-- CST_S* words of the chain slot a CST_CSEL word names: SSTATE, SBLK, SL, SLAG. -/
def State.cstView (s : State) (sel : Word) : Word × Word × HT × Word :=
  let v := s.chain (32 * fld sel 16 10 + fld sel 9 5)
  (BitVec.ofNat 32 (2 ^ 29 * v.state + 2 ^ 28 * b2n v.unrecov + 2 ^ 26 * v.erasures + 2 ^ 19 * v.entries.length),
   BitVec.ofNat 32 v.b, v.lOpen,
   BitVec.ofNat 32 (2 ^ 16 * v.lagging.length + (if v.state = 2 || v.state = 3 then (s.missing v).length else 0)))

/-- CST_JCOMMITTED of a job context. -/
def State.cstCommitted (s : State) (k : Nat) : Nat :=
  ((s.job k).slots.filter fun x => x.2.state == 3).foldl (fun m x => m + 2 ^ x.1) 0

end Sys2Proof.Machine
end

