-- ==== Sys2Proof/Machine/Journal.lean ====
section
/-!
DEFINITION. Journal and lifetime record (R362–R380): the JNL, JFLUSH and UPD instructions (R250), the spill to the host (R367),
the lifetime record and its saves (R372–R375), trends and spares (R376, R377).
-/
namespace Sys2Proof.Machine

/-! ### JNL, JFLUSH and UPD (R250, R366, R369, R370) -/

/-- The SEQ of the last record an engine's writer numbered; 0xFFFF when it has numbered none (R250). -/
def State.lastSeq (s : State) (e : EngSel) : Nat :=
  match e with
  | .tsu => (s.tsu.jnl.count + 65535) % 65536
  | .tile t => (mget (fun _ => 0) s.dist.jnl.tileSeq t.val + 65535) % 65536

/-- JNL ends with BUSY: no more than RESERVE entries free in the TSU (R366), the write buffer full in a tile (R370). -/
def State.jnlBusy (s : State) (e : EngSel) : Bool :=
  match e with
  | .tsu => decide (ringSize ≤ s.tsu.jnl.recs.length + s.fd .tsu .jnlCfg 11 0)
  | .tile t => decide (64 ≤ mget (fun _ => 0) s.dist.jnl.wbuf t.val)

/-- JNL (R250). -/
def execJnl (x : CtxRef) (d a b : Fin 32) (code : Byte) (s : State) : Host.Outcome State Fault Refusal :=
  .next (s.issue x (wF3 0x3C d a b code.toNat) false 0 fun pc =>
    let e := x.eng
    if s.jnlBusy e then .done ((s.setB e.part .jnlStat 0).report e x.ctx d .busy 0 0x3C pc)
    else
      let s1 := s.jnl (senWho e x.ctx) (0xFF00 + code.toNat) ((s.g e x.ctx a).toNat + 2 ^ 64 * (s.g e x.ctx b).toNat)
      .done (s1.setG e x.ctx d (outWord .ok (s1.lastSeq e))))

/-- JFLUSH operations of the TSU that have reached their end: every record numbered before issue is covered, or EN is 0 (R369). -/
def State.jflushCheck (s : State) : State :=
  let done (o : Op) : Bool := decide (o.args.headD 0 ≤ s.tsu.jnl.spillWr)
  ((s.outstandingAll .tsu).filter fun x => x.2.opcode == 0x3D && !(s.todo.any fun d => d.op == x.1)
      && (done x.2 || !s.bt .tsu .jnlSpillCtrl 0)).foldl
    (fun t x => t.completeOp (some x.1) (if done x.2 && s.bt .tsu .jnlSpillCtrl 0 then .ok else .state) (BitVec.ofNat 64 (x.2.args.getD 1 0))) s

/-- A tile's JFLUSH operations complete as its write buffer drains (R370). -/
def State.jflushTile (s : State) (t : Fin 8) : State :=
  let ops := (s.outstandingAll (.tile t)).filter fun x => x.2.opcode == 0x3D && !(s.todo.any fun d => d.op == x.1)
  if ops.isEmpty then s else
  let s1 := { s with dist := { s.dist with jnl := { s.dist.jnl with wbuf := mset (fun _ => 0) s.dist.jnl.wbuf t.val 0 } } }
  ops.foldl (fun u x => u.completeOp (some x.1) .ok (BitVec.ofNat 64 (x.2.args.getD 1 0))) s1

/-- JFLUSH (R250). -/
def execJflush (x : CtxRef) (obj : Fin 8192) (a : Fin 32) (s : State) : Host.Outcome State Fault Refusal :=
  .next (s.issue x (wFO 0x3D obj a 0) false 0 fun pc =>
    let e := x.eng
    s.async e x.ctx 0x3D 0 pc obj ((s.jobOf e x.ctx).getD 0) a [s.tsu.jnl.count, s.lastSeq e] false false false false false
      fun _ t => match e with
        | .tsu => t.jflushCheck
        | .tile _ => t)

/-- UPD (R250): local, or with `job` a job command (R37). -/
def execUpd (x : CtxRef) (a : Fin 32) (ta : Fin 8) (obj : Fin 8192) (job : Bool) (s : State) : Host.Outcome State Fault Refusal :=
  .next (s.issue x (wFT 0x3E 0 ta a (16384 * b2n job + obj.val)) false 0 fun pc =>
    let e := x.eng
    let mask := (s.g e x.ctx a).toNat
    let t := s.t e x.ctx ta
    let bad := decide (2 ^ 32 ≤ mask) || noSign t (s.ht e.part) || noSign (ceilTick t) (s.ht e.part)
    if job then
      match e with
      | .tsu => s.jobCmdTsu x.ctx 0x3E 1 pc obj a bad (s.g e x.ctx a) (ceilTick t)
      | .tile i => s.jobCmdTile i x.ctx 0x3E 1 pc obj a bad (s.g e x.ctx a) (ceilTick t)
    else
      let src : Src := { cls := .engine, tile := e.tileNo, ctx := x.ctx }
      s.async e x.ctx 0x3E 0 pc obj ((s.jobOf e x.ctx).getD 0) a [] false bad false false
        (decide (strobeCap e.part ≤ (s.part e.part).scheduled.length)) fun o u =>
          (u.queueStrobe e.part src (.upd pc (some o)) (ceilTick t) mask).2.2)

/-- ASYNC_COMPLETION (R239): the engine's oldest completion, a JFLUSH that has reached its end (R369, R370), or the next WINDOW to reach its
start tick (R249). -/
def asyncNext (e : EngSel) (s : State) : State :=
  let s1 := match e with
    | .tsu => s.jflushCheck
    | .tile t => s.jflushTile t
  if s1.todo.any fun d => d.op.eng == e then asyncDone e s1
  else if e ≠ .tsu then s1
  else match s1.nextWindow with
    | some (o, p, t) => asyncDone e ((s1.reach .tsu t).completeOp (some o) .ok (BitVec.ofNat 64 (p.args.headD 0)))
    | none => s1

/-! ### The lifetime record (R372) -/

/-- Bytes of a record of 1,024 words. -/
def wordBytes (ws : List Word) : List Byte := ws.flatMap fun w => natLe 4 w.toNat

/-- The words of a list of bytes. -/
def wordsOf : Nat → List Byte → List Word
  | 0, _ => []
  | n + 1, bs => BitVec.ofNat 32 (leNat (bs.take 4)) :: wordsOf n (bs.drop 4)

/-- The bytes of a sparse record (R372). -/
def sparseBytes (m : List (Nat × Word)) : List Byte := wordBytes ((List.range 1024).map fun i => mget (fun _ => 0) m i)

/-- A field of `len` bytes at `off` of the loaded record plus the count made since power-up (R374), saturating. -/
def Lifetime.total (l : Lifetime) (base : List Byte) (off len : Nat) : Nat :=
  satNat (8 * len) (leNat ((base.drop off).take len) + mget (fun _ => 0) l.counts off)

/-- Where the counts of the seconds a lane has been UP are kept among the counts. -/
def laneKey (g : Nat) : Nat := 0x10000 + g

/-- LANE_H of a lane: units of 16 h (R372). -/
def Lifetime.laneHours (l : Lifetime) (base : List Byte) (g : Nat) : Nat :=
  satNat 16 (leNat ((base.drop (384 + 2 * g)).take 2) + mget (fun _ => 0) l.counts (laneKey g) / 57600)

/-- Lanes of a part (R372). -/
def laneCount : PartId → Nat
  | .tsu => 20
  | .dist => 1370

/-- A record up to its CRC (R372). -/
def State.lifBody (s : State) (p : PartId) : List Byte :=
  let l := (s.part p).lif
  let b := sparseBytes l.base
  let head := pay [(0, 2, 1), (4, 4, l.saveGen), (8, 3, s.node p), (11, 1, if p = .tsu then 0 else 1), (16, 8, l.total b 16 8), (24, 4, l.total b 24 4),
    (28, 4, l.total b 28 4), (32, 4, l.total b 32 4), (36, 4, l.total b 36 4), (40, 6, (s.calendar p (s.ht p)).1), (46, 1, s.qual p),
    (48, 8, l.total b 48 8), (56, 8, wrapInt 64 l.ageing), (64, 2, l.total b 64 2), (66, 2, l.total b 66 2), (68, 2, l.total b 68 2),
    (70, 2, l.total b 70 2), (72, 1, l.total b 72 1), (73, 1, l.total b 73 1), (74, 2, l.total b 74 2), (76, 4, l.total b 76 4)]
  let gone (g : Nat) : Bool := l.retired.contains g || (b.getD (128 + g / 8) 0).getLsbD (g % 8)
  let byte (k : Nat) : Byte := BitVec.ofNat 8 (((List.range 8).map fun i => if gone (8 * k + i) then 2 ^ i else 0).sum)
  natLe 128 head ++ (List.range 256).map byte ++ (List.range (laneCount p)).flatMap (fun g => natLe 2 (l.laneHours b g))
    ++ List.replicate (4092 - 384 - 2 * laneCount p) 0

/-- The lifetime record as 1,024 words, with its CRC (R372). -/
def State.lifRecord (s : State) (p : PartId) : List Word :=
  let body := s.lifBody p
  wordsOf 1024 (body ++ natLe 4 (crc32 body).toNat)

/-- A record's CRC is good (R372). -/
def recGood (ws : List Word) : Bool :=
  let bs := wordBytes ws
  ws.length == 1024 && (crc32 (bs.take 4092)).toNat == leNat (bs.drop 4092)

/-- SAVE_GEN of a record. -/
def recGen (ws : List Word) : Nat := (ws.getD 1 0).toNat

/-- The LIFETIME record of the journal (R365): 0 save, 1 load, 2 fresh. -/
def State.lifeRec (s : State) (p : PartId) (kind : Nat) (c : Code) : State :=
  s.jnl { p := p, blk := 12 } 0x0004
    (pay [(0, 1, kind), (1, 1, c.num), (2, 4, (s.part p).lif.saveGen), (6, 1, s.fd p .lifStatus 3 3)])

def State.modLif (s : State) (p : PartId) (f : Lifetime → Lifetime) : State := s.mod p fun q => { q with lif := f q.lif }

/-- LIF_STATUS.LOADED or FRESH: the history has begun (R374). -/
def State.lifBegun (s : State) (p : PartId) : Bool := s.bt p .lifStatus 1 || s.bt p .lifStatus 2

/-- LIF_STATUS.BUSY. -/
def State.lifBusy (s : State) (p : PartId) : Bool := s.bt p .lifStatus 0

/-- A new history begins (R374). -/
def State.lifFresh (s : State) (p : PartId) : State :=
  let s1 := s.modLif p fun l => { l with base := [], saveGen := 0 }
  ((s1.setF p .lifStatus 2 1 2).setF p .lifStatus 31 16 0).lifeRec p 2 .ok

/-- A record becomes the loaded one; counts made since power-up are added to it (R374, R375). -/
def State.lifLoaded (s : State) (p : PartId) (ws : List Word) : State :=
  let base := (ws.zipIdx).foldl (fun m x => mset (fun _ => 0) m x.2 x.1) []
  let s1 := s.modLif p fun l => { l with base := base, saveGen := recGen ws, ageing := sext 64 (leNat (((wordBytes ws).drop 56).take 8)) }
  (((s1.setF p .lifStatus 2 1 1).setF p .lifStatus 31 16 (recGen ws)).setB p .lifStat 1).lifeRec p 1 .ok

/-- A load whose checks fail (R374). -/
def State.lifLoadFail (s : State) (p : PartId) : State := (s.setB p .lifStat 3).lifeRec p 1 .integrity

/-- LIF_CTRL.LOAD in the TSU: CRC, FORMAT, NODE and PART of the staged words are checked (R374). -/
def State.lifLoad (s : State) : Code × State :=
  let ws := (List.range 1024).map fun i => mget (fun _ => 0) s.tsu.lif.words i
  let ok := recGood ws && fld (ws.getD 0 0) 15 0 == 1 && fld (ws.getD 2 0) 23 0 == s.node .tsu && fld (ws.getD 2 0) 31 24 == 0
  if ok then (.ok, s.lifLoaded .tsu ws) else (.integrity, s.lifLoadFail .tsu)

/-- A save starts: SAVE_GEN counts it; a distributor erases its older copy (R374, R375). A save wanted while one runs is the one running. -/
def State.lifSave (s : State) (p : PartId) : State :=
  if s.lifBusy p then s else
  let s1 := s.modLif p fun l => { l with saveGen := (l.saveGen + 1) % 2 ^ 32, saveLeft := if p = .tsu then 128 else 0 }
  let s2 := (s1.setF p .lifStatus 31 16 (s1.part p).lif.saveGen).setF p .lifStatus 0 0 1
  let old := 1 - s2.fd p .lifStatus 3 3
  let s3 := s2.modLif p fun l => { l with image := s2.lifRecord p, nor := l.nor.filter fun x => x.1 ≠ old }
  if p = .tsu then s3.savePump else s3

/-- A save ends, done or with a fabric or NOR error (R374, R375, R432). -/
def State.lifSaved (s : State) (p : PartId) (ok : Bool) : State :=
  if !s.lifBusy p then s else
  let img := (s.part p).lif.image
  let s1 := (s.modLif p fun l => { l with image := [], saveLeft := 0 }).setF p .lifStatus 0 0 0
  if !ok then (s1.setB p .lifStat 2).lifeRec p 0 .integrity else
  let s2 := s1.setB p .lifStat 0
  if p = .tsu then s2.lifeRec p 0 .ok else
  let copy := 1 - s2.fd p .lifStatus 3 3
  let s3 := (s2.modLif p fun l => { l with nor := (l.nor.filter fun x => x.1 ≠ copy) ++ [(copy, img)] }).setF p .lifStatus 3 3 copy
  s3.lifeRec p 0 .ok

/-- A write of LIF_CTRL (R374, R378, R380): a fresh start, then the load, then the save. A distributor has SAVE alone. FRESH needs its unlock. -/
def State.lifCtrl (s : State) (p : PartId) (v : Word) (unlocked : Bool) : Code × State :=
  let fresh := p = .tsu && v.getLsbD 2
  let load := p = .tsu && v.getLsbD 1
  let save := v.getLsbD 0
  let c := firstFail false (fresh && !unlocked) false false (save && p = .tsu && !fresh && !load && !s.lifBegun .tsu)
    ((load || save) && s.lifBusy p)
  if c ≠ .ok then (c, s) else
  let s1 := if fresh then s.lifFresh p else s
  let r := if load then s1.lifLoad else (.ok, s1)
  if r.1 ≠ .ok then r else (.ok, if save then r.2.lifSave p else r.2)

/-- SAVE_INTERVAL: SAVE_INT minutes have passed (R374, R375); a TSU that has begun no history withholds the save. -/
def saveInterval (p : PartId) (s : State) : State := if p = .tsu && !s.lifBegun .tsu then s else s.lifSave p

/-- LIFETIME_SAVE_DONE: the save's last completion has returned, or the NOR copy has been written, or either failed (R375, R432). -/
def saveDone (p : PartId) (ok : Bool) (s : State) : State := s.lifSaved p ok

/-- A load at a distributor's reset: the copy with a good CRC and the higher SAVE_GEN, or FRESH with LOAD_FAIL (R375); without a working
NOR device on tile 0 no copy is read (R467). -/
def State.lifBoot (s : State) (norOk : Bool) : State :=
  let good := if norOk then s.dist.lif.nor.filter fun x => recGood x.2 else []
  match good.foldl (fun m x => match m with
      | some y => if recGen y.2 < recGen x.2 then some x else m
      | none => some x) (none : Option (Nat × List Word)) with
  | some x => (s.setF .dist .lifStatus 3 3 x.1).lifLoaded .dist x.2
  | none => (s.setB .dist .lifStat 3).lifFresh .dist

/-- A thermal cycle is counted when the band is back at TC_LOW or below after TC_HIGH or above (R373). -/
def State.thermalBand (s : State) (p : PartId) (band : Nat) : State :=
  let l := (s.part p).lif
  if s.fd p .lifCfg 10 8 ≤ band then s.modLif p fun x => { x with hot := true }
  else if l.hot && decide (band ≤ s.fd p .lifCfg 6 4) then (s.modLif p fun x => { x with hot := false }).lifCount p 32 1
  else s

/-! ### The spill to the host (R367, R432) -/

/-- FABRIC_COMPLETION of a journal write: the oldest outstanding record's, in the order of the writes (R431). -/
def State.spillDone (s : State) (err : Bool) : State :=
  let j := s.tsu.jnl
  match j.outstanding with
  | [] => s
  | n :: rest =>
    if err then
      ({ s with tsu := { s.tsu with jnl := { j with outstanding := rest, failed := j.failed ++ [n] } } }).setB .tsu .jnlStat 3
    else
      let settled := j.settled ++ [n]
      let wr := advanceSpill settled.length j.spillWr settled
      let j1 : Journal := { j with
        outstanding := rest, recs := j.recs.filter fun r => r.num ≠ n, settled := settled.filter (wr ≤ ·), spillWr := wr }
      ((({ s with tsu := { s.tsu with jnl := j1 } }).flushLoss).spillPump).savePump.jflushCheck

/-- FABRIC_COMPLETION of a lifetime write: 128 end the save; an error abandons it, and what it has outstanding completes to no effect (R432). -/
def State.saveBeat (s : State) (err : Bool) : State :=
  let l := s.tsu.lif
  if l.saveOut = 0 then s else
  let out := l.saveOut - 1
  let s1 := s.modLif .tsu fun x => { x with saveOut := out, saveVoid := x.saveVoid - 1 }
  let s2 := if l.saveVoid ≠ 0 || l.saveLeft = 0 then s1
    else if err then (s1.modLif .tsu fun x => { x with saveVoid := out }).lifSaved .tsu false
    else if l.saveLeft = 1 then s1.lifSaved .tsu true
    else s1.modLif .tsu fun x => { x with saveLeft := l.saveLeft - 1 }
  s2.spillPump.savePump

/-- FABRIC_COMPLETION (R431, R432): `lifetime` tells FO_CID 1 from 0. -/
def fabricCompletion (lifetime err : Bool) (s : State) : State := if lifetime then s.saveBeat err else s.spillDone err

/-- SPILL_RETRY: the oldest failed write is sent again, 1 µs after it failed (R367). -/
def spillRetry (s : State) : State :=
  let j := s.tsu.jnl
  match j.failed with
  | [] => s
  | n :: rest =>
    if s.bt .tsu .jnlSpillCtrl 0 && s.fabricOut < 16 then
      { s with tsu := { s.tsu with jnl := { j with failed := rest, outstanding := j.outstanding ++ [n] } } }
    else s

/-! ### Trends and spares (R376, R377) -/

/-- Spares of a kind and unit already in use. -/
def State.sparesUsed (s : State) (p : PartId) (kind unit : Nat) : Nat := mget (fun _ => 0) (s.part p).lif.spares (0x100000 * kind + unit)

/-- Takes one more spare of a kind and unit. -/
def State.takeSpare (s : State) (p : PartId) (kind unit : Nat) : State :=
  s.modLif p fun l => { l with spares := mset (fun _ => 0) l.spares (0x100000 * kind + unit) (s.sparesUsed p kind unit + 1) }

/-- No spare is left (R377). -/
def State.noSpare (s : State) (p : PartId) (tile kind unit old trig trend : Nat) : State :=
  (s.setB p .lifStat 5).spareRec p tile kind unit old 0 trig .state trend 0

/-- One trend after a second with `n` events (R376). -/
def trendStep (t n : Nat) : Nat := satNat 32 (t - t / 16 + n)

/-- Physical lane `l` of a port carries logical lane `ln` on the receive side. -/
def State.logicalOf (s : State) (p : PartId) (n l : Nat) : Option Nat := (List.range 4).find? fun ln => mapLane (s.dirMap p n 1) ln == l

/-- A lane's trend or wear asks for a swap (R120, R377). Without AUTO_SWAP, off an UP port, or while a swap runs, nothing is done (R378). -/
def State.laneSpare (s : State) (p : PartId) (g trig : Nat) : State :=
  let n := g / 5
  let l := g % 5
  if s.portState p n ≠ 6 || !s.bt p .prtCfg 2 n || (s.prt p n).swap.isSome then s else
  match s.logicalOf p n l with
  | none => s
  | some ln =>
    if mapLane (s.dirMap p n 1) 4 = 7 then
      s.noSpare p (if p = .dist then portTile n else 0) 0 n l trig (mget (fun _ => 0) (s.part p).lif.trends g)
    else (s.requestSwap p n 1 ln trig).2

/-- An SRAM row is remapped to a spare row (R377). -/
def State.rowSpare (s : State) (p : PartId) (u : TrendUnit) (mem row trend : Nat) : State :=
  let used := s.sparesUsed p 2 mem
  let cap := if p = .tsu then 8 else 32
  if cap ≤ used then s.noSpare p 0 2 mem row 1 trend
  else
    let s1 := ((s.takeSpare p 2 mem).lifCount p 70 1).modLif p fun l => { l with trends := mset (fun _ => 0) l.trends u.key 0 }
    s1.spareRec p 0 2 mem row used 1 .ok trend (cap - used - 1)

/-- A combiner lane is replaced at its group's readout (R302, R377). -/
def State.cmbSpare (s : State) (p : PartId) (u : TrendUnit) (tile lane trend : Nat) : State :=
  let used := s.sparesUsed p 3 tile
  let cap := if p = .tsu then 1 else 8
  if cap ≤ used then s.noSpare p tile 3 tile lane 1 trend
  else
    let s1 := ((s.takeSpare p 3 tile).lifCount p 72 1).modLif p fun l => { l with trends := mset (fun _ => 0) l.trends u.key 0 }
    let s2 := if p = .tsu then s1.setF p .cmbStatus 30 30 1 else s1.setF p .cmbStatus 15 8 (used + 1) tile
    s2.spareRec p tile 3 tile lane used 1 .ok trend (cap - used - 1)

/-- Chain blocks that the contents of one HBM channel take (R343, R377). -/
def channelBlocks : Nat := ceilDiv 2000000000 262144

/-- The move of a channel's contents into free chain capacity begins; it takes a channel's worth of it (R377). -/
def State.channelSpare (s : State) (c trig trend : Nat) : State :=
  if s.hbm.moving.contains c || s.hbm.retired.contains c || !s.hbm.trained.contains (c / 32) then s
  else if s.chainFree < channelBlocks then s.noSpare .dist (c / 96) 5 (c / 32) (c % 32) trig trend
  else { s with hbm := { s.hbm with moving := s.hbm.moving ++ [c], byError := if trig = 4 then c :: s.hbm.byError else s.hbm.byError } }

/-- HBM_CHANNEL_MOVE_DONE: the channel's contents are in free capacity; it is retired and CST_CAP shrinks (R377, R419). -/
def moveDone (c : Fin 768) (s : State) : State :=
  if !s.hbm.moving.contains c.val then s else
  let h := { s.hbm with moving := s.hbm.moving.filter (· ≠ c.val), retired := s.hbm.retired ++ [c.val] }
  let s1 := ((({ s with hbm := h }).setB .dist .hbmStat 4).setB .dist .hbmStat 3).lifCount .dist 74 1
  s1.spareRec .dist (c.val / 96) 5 (c.val / 32) (c.val % 32) 0 (if s.hbm.byError.contains c.val then 4 else 1) .ok (mget (fun _ => 0) s.dist.lif.trends (TrendUnit.hbmChannel c).key)
    s1.chainFree

/-- An HBM row is repaired from its stack's repair rows, whose number an implementation fixes (R377, R419). -/
def State.hbmRowSpare (s : State) (u : TrendUnit) (stack row trend : Nat) : State :=
  let used := mget (fun _ => 0) s.hbm.rows stack
  if Config.repairRows stack ≤ used then s.noSpare .dist (stack / 3) 6 stack (row % 65536) 1 trend
  else
    let s1 := { s with hbm := { s.hbm with rows := mset (fun _ => 0) s.hbm.rows stack (used + 1) } }
    let s2 := ((s1.setB .dist .hbmStat 2).lifCount .dist 76 1).modLif .dist fun l => { l with trends := mset (fun _ => 0) l.trends u.key 0 }
    s2.spareRec .dist (stack / 3) 6 stack (row % 65536) used 1 .ok trend (Config.repairRows stack - used - 1)

/-- Evaluates one unit's spare trigger on its trend (R377). -/
def State.unitTrigger (s : State) (p : PartId) (u : TrendUnit) : State :=
  let t := mget (fun _ => 0) (s.part p).lif.trends u.key
  match u with
  | .lane g => if (s.rd p .lifThrLane).toNat < t then s.laneSpare p g.val 1 else s
  | .sramRow m r => if s.fd p .lifThrUnit 31 16 < t then s.rowSpare p u m.val r.toNat t else s
  | .cmbLane i l => if s.fd p .lifThrUnit 15 0 < t then s.cmbSpare p u i.val l.val t else s
  | .hbmChannel c => if p = .dist && decide (s.fd p .lifThrWear 15 0 < t) then s.channelSpare c.val 1 t else s
  | .hbmRow k r => if p = .dist && decide (s.fd p .lifThrUnit 31 16 < t) then s.hbmRowSpare u k.val r.toNat t else s

/-- Corrected symbols of a lane count at its port too (R124). -/
def State.laneErrors (s : State) (p : PartId) (g n : Nat) : State :=
  (s.bump p .prtCntCorr 31 0 n (g / 5)).bump p .prtLerr 31 0 n (g / 5) (g % 5)

/-- Rows in error, the latest first; of each memory only the latest 16 keep a trend (R377). -/
def recentRows (mem : Nat) (keys : List Nat) : List Nat :=
  let mine := (keys.filter fun k => k / 0x10000 == mem).take 16
  keys.filter fun k => k / 0x10000 ≠ mem || mine.contains k

/-- The lanes of ports that are UP (R372). -/
def State.upLanes (s : State) (p : PartId) : List Nat :=
  ((portNums p).filter fun n => s.portState p n = 6).flatMap fun n =>
    ((List.range 5).filter fun l => (List.range 5).any fun ln => mapLane (s.dirMap p n 0) ln == l || mapLane (s.dirMap p n 1) ln == l).map fun l => 5 * n + l

/-- TREND_UPDATE: one second has passed with the events listed (R376, R377); powered, oven and lane time count with it (R372). A lane past its
wear limit asks for a swap as well. -/
def trendUpdate (p : PartId) (events : List (TrendUnit × Nat)) (s : State) : State :=
  let old := (s.part p).lif
  let evs := events.filter fun x => x.2 ≠ 0
  let rows := evs.filterMap fun x => match x.1 with
    | .sramRow _ _ => some x.1.key
    | _ => none
  let recent := ((rows ++ old.recent.filter fun k => !rows.contains k).map (· / 0x10000)).eraseDups.foldl (fun l m => recentRows m l)
    (rows ++ old.recent.filter fun k => !rows.contains k)
  let keep (k : Nat) : Bool := k < 0x1000000 || 0x40000000 ≤ k || recent.contains k
  let aged := (old.trends.map fun kv => (kv.1, trendStep kv.2 0)).filter fun kv => kv.2 ≠ 0 && keep kv.1
  let trends := evs.foldl (fun m x =>
    if keep x.1.key then mset (fun _ => 0) m x.1.key (trendStep (mget (fun _ => 0) old.trends x.1.key) x.2) else m) aged
  let s1 := s.modLif p fun l => { l with trends := trends, recent := recent }
  let s2 := evs.foldl (fun t x => match x.1 with
    | .lane g => t.laneErrors p g.val x.2
    | _ => t) s1
  let s3 := (s2.lifCount p 16 1).lifCount p 48 (if p = .dist && s2.bt .dist .oscStatus 1 then 1 else 0)
  let s4 := (s3.upLanes p).foldl (fun t g => t.lifCount p (laneKey g) 1) s3
  let s5 := (s4.part p).lif.trends.foldl (fun t kv => t.unitTrigger p (.ofKey kv.1)) s4
  let limit := s5.fd p .lifThrWear 31 16
  if limit = 0 then s5 else
  let b := sparseBytes (s5.part p).lif.base
  (s5.upLanes p).foldl (fun t g => if 1000 * limit < 16 * (t.part p).lif.laneHours b g then t.laneSpare p g 2 else t) s5

end Sys2Proof.Machine
end

