-- ==== Sys2Proof/Decode.lean ====
section
/-!
DEFINITION. What words spell. The rows of the opcode table have no bits, so no word spells a command of the block as the table numbers it; a
word of a step engine's program spells an instruction (R213–R217, R241), and every instruction command has its word.
-/
namespace Sys2Proof

open Sys2Proof.Machine

/-- The command a word spells by the opcode table's bits. The table gives no row bits. -/
def decodeTableWord (_nbits _w : Nat) : Option Instr := none

/-! ### Instruction words -/

/-- The word of an instruction command (R213, R218–R228, R242–R250); none for a command that is no instruction. The ends of a wait
(WAITT_TARGET, WAIT_DEADLINE) have no word of their own. -/
def encodeWord : Instr → Option Word
  | .fx _ imm => some (wFX imm.toNat)
  | .add _ d a b => some (wF3 0x00 d a b 0x000)
  | .sub _ d a b => some (wF3 0x00 d a b 0x001)
  | .and _ d a b => some (wF3 0x00 d a b 0x002)
  | .or _ d a b => some (wF3 0x00 d a b 0x003)
  | .xor _ d a b => some (wF3 0x00 d a b 0x004)
  | .shl _ d a b => some (wF3 0x00 d a b 0x005)
  | .shr _ d a b => some (wF3 0x00 d a b 0x006)
  | .sar _ d a b => some (wF3 0x00 d a b 0x007)
  | .min _ d a b => some (wF3 0x00 d a b 0x008)
  | .max _ d a b => some (wF3 0x00 d a b 0x009)
  | .mov _ d a => some (wF3 0x00 d a 0 0x00A)
  | .mul _ d a b => some (wF3 0x00 d a b 0x010)
  | .mulh _ d a b => some (wF3 0x00 d a b 0x011)
  | .cmpeq _ d a b => some (wF3 0x00 d a b 0x020)
  | .cmplt _ d a b => some (wF3 0x00 d a b 0x021)
  | .cmpltu _ d a b => some (wF3 0x00 d a b 0x022)
  | .addi _ d a imm => some (wFI 0x01 d a imm.toNat)
  | .andi _ d a imm => some (wFI 0x02 d a imm.toNat)
  | .ori _ d a imm => some (wFI 0x03 d a imm.toNat)
  | .xori _ d a imm => some (wFI 0x04 d a imm.toNat)
  | .lui _ d imm => some (wFI 0x05 d 0 imm.toNat)
  | .call _ a off => some (wFB 0x06 a 0 off.toNat)
  | .ret _ a => some (wF3 0x07 0 a 0 0x000)
  | .halt _ => some (wF3 0x07 0 0 0 0x001)
  | .br _ none off => some (wFB 0x08 0 0 off.toNat)
  | .br _ (some (q, inv)) off => some (wFB 0x08 (16 + 8 * b2n inv + q.val) 0 off.toNat)
  | .beq _ a b off => some (wFB 0x09 a b off.toNat)
  | .bne _ a b off => some (wFB 0x0A a b off.toNat)
  | .blt _ a b off => some (wFB 0x0B a b off.toNat)
  | .bge _ a b off => some (wFB 0x0C a b off.toNat)
  | .bltu _ a b off => some (wFB 0x0D a b off.toNat)
  | .bgeu _ a b off => some (wFB 0x0E a b off.toNat)
  | .fadd _ md d a b => some (wF3 0x10 d a b (256 * md.num + 0x00))
  | .fsub _ md d a b => some (wF3 0x10 d a b (256 * md.num + 0x01))
  | .fmul _ md d a b => some (wF3 0x10 d a b (256 * md.num + 0x02))
  | .fdiv _ md d a b => some (wF3 0x10 d a b (256 * md.num + 0x03))
  | .fsqrt _ md d a => some (wF3 0x10 d a 0 (256 * md.num + 0x04))
  | .fmin _ d a b => some (wF3 0x10 d a b 0x005)
  | .fmax _ d a b => some (wF3 0x10 d a b 0x006)
  | .ffma _ md d a b => some (wF3 0x11 d a b (256 * md.num))
  | .fcvtF2i _ md d a => some (wF3 0x12 d a 0 (256 * md.num + 0x00))
  | .fcvtF2u _ md d a => some (wF3 0x12 d a 0 (256 * md.num + 0x01))
  | .fcvtI2f _ md d a => some (wF3 0x12 d a 0 (256 * md.num + 0x02))
  | .fcvtU2f _ md d a => some (wF3 0x12 d a 0 (256 * md.num + 0x03))
  | .fcvtRi _ md d a => some (wF3 0x12 d a 0 (256 * md.num + 0x04))
  | .fcmpEq _ d a b => some (wF3 0x13 d a b 0x000)
  | .fcmpLt _ d a b => some (wF3 0x13 d a b 0x001)
  | .fcmpLe _ d a b => some (wF3 0x13 d a b 0x002)
  | .fcmpUn _ d a b => some (wF3 0x13 d a b 0x003)
  | .ld _ d a imm => some (wFI 0x18 d a imm.toNat)
  | .ldw _ d a imm => some (wFI 0x19 d a imm.toNat)
  | .ldh _ d a off => some (wF3 0x1A d a 0 off.toNat)
  | .ldb _ d a off => some (wF3 0x1A d a 0 (1024 + off.toNat))
  | .st _ d a imm => some (wFI 0x1B d a imm.toNat)
  | .stw _ d a imm => some (wFI 0x1C d a imm.toNat)
  | .sth _ d a off => some (wF3 0x1D d a 0 off.toNat)
  | .stb _ d a off => some (wF3 0x1D d a 0 (1024 + off.toNat))
  | .getc _ d a imm => some (wFI 0x1E d a imm.toNat)
  | .putc _ d a imm => some (wFI 0x1F d a imm.toNat)
  | .htr _ td => some (wFT 0x20 td 0 0 0)
  | .tadd _ td ta a imm => some (wFT 0x21 td ta a imm.toNat)
  | .tdiff _ td ta a => some (wFT 0x22 td ta a 0)
  | .tcmp _ q td ta r => some (wFT 0x23 td ta q (tRelNum r))
  | .waitt _ ta a => some (wFT 0x24 0 ta a 0)
  | .trig _ ta a imm => some (wFT 0x25 0 ta a imm.toNat)
  | .capt _ td a ch => some (wFT 0x26 td 0 a ch.toNat)
  | .sig _ obj a dst => some (wFO 0x28 obj a (sigToNum dst))
  | .wait _ obj a consume timed td => some (wFO 0x29 obj a (b2n consume + 2 * b2n timed + 4 * td))
  | .poll _ obj a consume => some (wFO 0x2A obj a (b2n consume))
  | .objset _ obj a => some (wFO 0x2B obj a 0)
  | .objget _ obj a stamp => some (wFO 0x2C obj a (b2n stamp))
  | .bind _ obj a consume oneshot plgrp => some (wFO 0x2D obj a (bindSub consume oneshot false plgrp))
  | .bindUnbind _ obj a consume oneshot plgrp => some (wFO 0x2D obj a (bindSub consume oneshot true plgrp))
  | .prelit _ ta a => some (wFT 0x2E 0 ta a 0)
  | .cguard _ obj a wick => some (wFO 0x2F obj a wick)
  | .arm _ obj a timed td => some (wFO 0x30 obj a (b2n timed + 2 * td))
  | .release _ obj a => some (wFO 0x31 obj a 0)
  | .gate _ obj a n => some (wFO 0x32 obj a n)
  | .contrib _ obj a => some (wFO 0x33 obj a 0)
  | .result _ d a b td => some (wF3 0x34 d a b (resultFn td))
  | .launch _ a ta obj => some (wFT 0x35 0 ta a obj)
  | .phase _ a ta obj => some (wFT 0x36 0 ta a obj)
  | .plan _ a ta obj => some (wFT 0x37 0 ta a obj)
  | .snap _ obj a => some (wFO 0x38 obj a 0)
  | .window _ a ta obj => some (wFT 0x39 0 ta a obj)
  | .commit _ obj a => some (wFO 0x3A obj a 0)
  | .rebuild _ obj a => some (wFO 0x3A obj a 1)
  | .evict _ obj a => some (wFO 0x3B obj a 0)
  | .shadowStart _ obj a => some (wFO 0x3B obj a 1)
  | .shadowAdmit _ obj a => some (wFO 0x3B obj a 2)
  | .shadowAbandon _ obj a => some (wFO 0x3B obj a 3)
  | .jnl _ d a b code => some (wF3 0x3C d a b code.toNat)
  | .jflush _ obj a => some (wFO 0x3D obj a 0)
  | .upd _ a ta obj job => some (wFT 0x3E 0 ta a (16384 * b2n job + obj.val))
  | _ => none

/-! ### Fields of a word (R213) -/

/-- The field of `n` values that starts at bit `lo` of a word; the field's register, flag or index. -/
def wfield (w : Nat) (lo n : Nat) : Nat := w / 2 ^ lo % n

def gAt (w lo : Nat) : Fin 32 := Fin.ofNat 32 (w / 2 ^ lo)
def tAt (w lo : Nat) : Fin 8 := Fin.ofNat 8 (w / 2 ^ lo)
def objAt (w lo : Nat) : Fin 8192 := Fin.ofNat 8192 (w / 2 ^ lo)

/-- The instruction when the bits marked zero hold zero (R214). -/
def ifZero (z : Nat) (i : Instr) : Option Instr := if z = 0 then some i else none

/-- Opcode 0x00 (R218). -/
def decInt (x : CtxRef) (w : Nat) : Option Instr :=
  let d := gAt w 21
  let a := gAt w 16
  let b := gAt w 11
  let q := tAt w 21
  let z := wfield w 24 4
  match wfield w 0 2048 with
  | 0x000 => some (.add x d a b) | 0x001 => some (.sub x d a b) | 0x002 => some (.and x d a b) | 0x003 => some (.or x d a b)
  | 0x004 => some (.xor x d a b) | 0x005 => some (.shl x d a b) | 0x006 => some (.shr x d a b) | 0x007 => some (.sar x d a b)
  | 0x008 => some (.min x d a b) | 0x009 => some (.max x d a b) | 0x00A => ifZero b.val (.mov x d a)
  | 0x010 => some (.mul x d a b) | 0x011 => some (.mulh x d a b)
  | 0x020 => ifZero z (.cmpeq x q a b) | 0x021 => ifZero z (.cmplt x q a b) | 0x022 => ifZero z (.cmpltu x q a b)
  | _ => none

/-- Opcodes 0x10 to 0x13 (R220–R223). -/
def decFp (x : CtxRef) (op w : Nat) : Option Instr :=
  let d := gAt w 21
  let a := gAt w 16
  let b := gAt w 11
  let q := tAt w 21
  let z := wfield w 24 4
  let fn := wfield w 0 256
  match Rnd.ofNum (wfield w 8 8) with
  | none => none
  | some md =>
    match op, fn with
    | 0x10, 0 => some (.fadd x md d a b) | 0x10, 1 => some (.fsub x md d a b)
    | 0x10, 2 => some (.fmul x md d a b) | 0x10, 3 => some (.fdiv x md d a b)
    | 0x10, 4 => ifZero b.val (.fsqrt x md d a)
    | 0x10, 5 => ifZero md.num (.fmin x d a b) | 0x10, 6 => ifZero md.num (.fmax x d a b)
    | 0x11, 0 => some (.ffma x md d a b)
    | 0x12, 0 => ifZero b.val (.fcvtF2i x md d a) | 0x12, 1 => ifZero b.val (.fcvtF2u x md d a)
    | 0x12, 2 => ifZero b.val (.fcvtI2f x md d a) | 0x12, 3 => ifZero b.val (.fcvtU2f x md d a)
    | 0x12, 4 => ifZero b.val (.fcvtRi x md d a)
    | 0x13, 0 => ifZero (z + md.num) (.fcmpEq x q a b) | 0x13, 1 => ifZero (z + md.num) (.fcmpLt x q a b)
    | 0x13, 2 => ifZero (z + md.num) (.fcmpLe x q a b) | 0x13, 3 => ifZero (z + md.num) (.fcmpUn x q a b)
    | _, _ => none

/-- BR (R224). -/
def decBr (x : CtxRef) (w : Nat) (off : BitVec 16) : Option Instr :=
  if wfield w 16 32 ≠ 0 then none
  else if wfield w 25 2 = 1 then some (.br x (some (tAt w 21, wfield w 24 2 = 1)) off)
  else ifZero (wfield w 21 16) (.br x none off)

/-- The formats FI, FB and F3 of opcodes 0x00 to 0x1F. -/
def decCore (x : CtxRef) (op w : Nat) : Option Instr :=
  let d := gAt w 21
  let a := gAt w 16
  let imm : BitVec 16 := BitVec.ofNat 16 w
  let off : BitVec 10 := BitVec.ofNat 10 w
  let b := wfield w 11 32
  let byte := wfield w 10 2 = 1
  match op with
  | 0x00 => decInt x w
  | 0x01 => some (.addi x d a imm) | 0x02 => some (.andi x d a imm) | 0x03 => some (.ori x d a imm) | 0x04 => some (.xori x d a imm)
  | 0x05 => ifZero a.val (.lui x d imm)
  | 0x06 => ifZero a.val (.call x d imm)
  | 0x07 => if w % 2048 = 0 then ifZero (d.val + b) (.ret x a) else if w % 2048 = 1 then ifZero (d.val + a.val + b) (.halt x) else none
  | 0x08 => decBr x w imm
  | 0x09 => some (.beq x d a imm) | 0x0A => some (.bne x d a imm) | 0x0B => some (.blt x d a imm)
  | 0x0C => some (.bge x d a imm) | 0x0D => some (.bltu x d a imm) | 0x0E => some (.bgeu x d a imm)
  | 0x10 | 0x11 | 0x12 | 0x13 => decFp x op w
  | 0x18 => some (.ld x d a imm) | 0x19 => some (.ldw x d a imm)
  | 0x1A => ifZero b (if byte then .ldb x d a off else .ldh x d a off)
  | 0x1B => some (.st x d a imm) | 0x1C => some (.stw x d a imm)
  | 0x1D => ifZero b (if byte then .stb x d a off else .sth x d a off)
  | 0x1E => some (.getc x d a imm) | 0x1F => some (.putc x d a imm)
  | _ => none

/-- The formats FT of R242, R244, R246, R249 and R250. -/
def decFt (x : CtxRef) (op w : Nat) : Option Instr :=
  let td := tAt w 23
  let ta := tAt w 20
  let a := gAt w 15
  let imm := wfield w 0 32768
  let obj := objAt w 0
  match op with
  | 0x20 => ifZero (ta.val + a.val + imm) (.htr x td)
  | 0x21 => some (.tadd x td ta a (BitVec.ofNat 15 w))
  | 0x22 => ifZero imm (.tdiff x td ta a)
  | 0x23 => match tRelOf imm with
    | some r => ifZero (wfield w 18 4) (.tcmp x (tAt w 15) td ta r)
    | none => none
  | 0x24 => ifZero (td.val + imm) (.waitt x ta a)
  | 0x25 => ifZero td.val (.trig x ta a (BitVec.ofNat 15 w))
  | 0x26 => ifZero (ta.val + imm / 32) (.capt x td a (BitVec.ofNat 5 w))
  | 0x2E => ifZero (td.val + imm) (.prelit x ta a)
  | 0x35 => ifZero (td.val + imm / 8192) (.launch x a ta obj)
  | 0x36 => ifZero (td.val + imm / 8192) (.phase x a ta obj)
  | 0x37 => ifZero (td.val + imm / 8192) (.plan x a ta obj)
  | 0x39 => ifZero (td.val + imm / 8192) (.window x a ta obj)
  | 0x3E => ifZero (td.val + imm / 8192 % 2) (.upd x a ta obj (imm / 16384 = 1))
  | _ => none

/-- The format FO of R244, R246, R249 and R250. -/
def decFo (x : CtxRef) (op w : Nat) : Option Instr :=
  let obj := objAt w 13
  let a := gAt w 8
  let sub := wfield w 0 256
  match op with
  | 0x28 => match sigToOf sub with
    | some dst => if x.eng = .tsu ∧ dst ≠ .here then none else some (.sig x obj a dst)
    | none => none
  | 0x29 => ifZero (sub / 32) (.wait x obj a (sub % 2 = 1) (sub / 2 % 2 = 1) (Fin.ofNat 8 (sub / 4)))
  | 0x2A => ifZero (sub / 2) (.poll x obj a (sub % 2 = 1))
  | 0x2B => ifZero sub (.objset x obj a)
  | 0x2C => ifZero (sub / 2) (.objget x obj a (sub % 2 = 1))
  | 0x2D =>
    let g : Fin 16 := Fin.ofNat 16 (sub / 16)
    ifZero (sub / 8 % 2) (if sub / 4 % 2 = 1 then .bindUnbind x obj a (sub % 2 = 1) (sub / 2 % 2 = 1) g
      else .bind x obj a (sub % 2 = 1) (sub / 2 % 2 = 1) g)
  | 0x2F => some (.cguard x obj a (Fin.ofNat 256 sub))
  | 0x30 => ifZero (sub / 16) (.arm x obj a (sub % 2 = 1) (Fin.ofNat 8 (sub / 2)))
  | 0x31 => ifZero sub (.release x obj a)
  | 0x32 => ifZero (sub / 8) (.gate x obj a (Fin.ofNat 8 sub))
  | 0x33 => ifZero sub (.contrib x obj a)
  | 0x38 => ifZero sub (.snap x obj a)
  | 0x3A => if sub = 0 then some (.commit x obj a) else if sub = 1 then some (.rebuild x obj a) else none
  | 0x3B => match sub with
    | 0 => some (.evict x obj a) | 1 => some (.shadowStart x obj a) | 2 => some (.shadowAdmit x obj a)
    | 3 => some (.shadowAbandon x obj a) | _ => none
  | 0x3D => ifZero sub (.jflush x obj a)
  | _ => none

/-- RESULT and JNL, of format F3 (R248, R250). -/
def decRec (x : CtxRef) (op w : Nat) : Option Instr :=
  let d := gAt w 21
  let a := gAt w 16
  let b := gAt w 11
  match op with
  | 0x34 =>
    if wfield w 10 2 = 1 then ifZero (wfield w 3 128) (.result x d a b (some (tAt w 0)))
    else ifZero (wfield w 0 1024) (.result x d a b none)
  | 0x3C => ifZero (wfield w 8 8) (.jnl x d a b (BitVec.ofNat 8 w))
  | _ => none

/-- The instruction that a word of a context's program spells (R213–R217, R241); none for a word that faults with ILLEGAL. -/
def decodeWord (x : CtxRef) (word : Word) : Option Instr :=
  let w := word.toNat
  match w / 2 ^ 26 with
  | 0x3F => some (.fx x (BitVec.ofNat 26 w))
  | 0x34 => decRec x 0x34 w
  | 0x3C => decRec x 0x3C w
  | op =>
    if op < 0x20 then decCore x op w
    else if op ≤ 0x26 ∨ op = 0x2E ∨ (0x35 ≤ op ∧ op ≤ 0x37) ∨ op = 0x39 ∨ op = 0x3E then decFt x op w
    else decFo x op w

end Sys2Proof
end

