-- ==== Sys2Proof/Machine/RegView.lean ====
section
/-!
DEFINITION. What a read of a register shows (R27–R34, R40, R41, R381–R423): the stored word, or the word that a structure of the state
gives. No read here changes anything; `Regs` adds what a read does.
-/
namespace Sys2Proof.Machine

/-! ### Selections held once per source class (R410, R417) -/

/-- Registers held once per source class. -/
def isSel : RegName → Bool
  | .plnJsel | .mbrNsel | .cstCsel | .hbmSsel | .jnlIpage => true
  | _ => false

/-- The key of what a class keeps for an address: staging words and selections. -/
def clsKey (src : Src) (a : Nat) : Nat := 0x4000000 * src.cls.num + a

/-- A class's selection. -/
def State.selOf (s : State) (src : Src) (n : RegName) : Word := mget (fun _ => 0) s.dist.sel (clsKey src (addrOf .dist n))

def State.setSel (s : State) (src : Src) (n : RegName) (v : Word) : State :=
  s.mod .dist fun q => { q with sel := mset (fun _ => 0) q.sel (clsKey src (addrOf .dist n)) v }

/-- The job context a class has selected. -/
def State.selJob (s : State) (src : Src) : Nat := fld (s.selOf src .plnJsel) 9 0

/-! ### Interrupts (R391, R416) -/

/-- The *_STAT registers. -/
def isStat : RegName → Bool
  | .slotStat | .tbsStat | .srvStat | .tdcStat | .dtcStat | .kprStat | .prtStat | .senStat | .sobStat | .cmbStat | .hltStat | .jnlStat
  | .lifStat | .cstStat | .plnStat | .mbrStat | .oscStat | .hbmStat | .hkpStat | .tilStat => true
  | _ => false

/-- The block of a listed *_STAT register that holds a set bit. -/
def statBlock (p : PartId) (kv : Nat × Word) : Option Nat :=
  match locate p kv.1 with
  | .reg l => if isStat l.name && kv.2 ≠ 0 then some (blkOf (row l.name).grp) else none
  | _ => none

/-- A mask with a bit for every listed block. -/
def blkMask (bs : List Nat) : Nat := ((List.range 32).filter bs.contains).foldl (fun m b => m + 2 ^ b) 0

/-- Contexts of an engine in FAULTED, as a mask (SEN_RUN.FAULTED). -/
def State.faultMask (s : State) (e : EngSel) : Nat := ctxMask fun c => s.cst e c == 4

/-- The engines of a part. -/
def enginesOf : PartId → List EngSel
  | .tsu => [.tsu]
  | .dist => (List.finRange 8).map .tile

/-- SYS_IRQ_SRC (R391, R416). -/
def State.irqSrc (s : State) (p : PartId) : Nat :=
  blkMask ((s.part p).regs.filterMap (statBlock p))
    + 2 ^ 30 * b2n ((enginesOf p).any fun e => s.faultMask e ≠ 0) + 2 ^ 31 * b2n (p = .tsu && s.fenced)

/-- The level of interrupt output `o` (R391, R416). -/
def State.irqLevel (s : State) (p : PartId) (o : Nat) : Bool :=
  let src := s.irqSrc p
  src &&& (s.rd p .sysIrqEn 0 o).toNat ≠ 0 || (p = .tsu && src.testBit 30 && s.fd .tsu .senCfg 1 0 == o)

/-! ### Parts of the views -/

/-- A signed quantity shown in a 32-bit field, saturating (log entry 23). -/
def show32 (x : Int) : Word := BitVec.ofInt 32 (satInt 32 x)

/-- SRV_STATE (R149). -/
def State.srvStateWord (s : State) (p : PartId) : Nat :=
  let v := (s.part p).srv
  v.followed + 8 * b2n (s.eligible p 1) + 16 * b2n (s.eligible p 2) + 32 * b2n (s.isSource p)
    + 64 * b2n (s.eligible p 1 && s.eligible p 2) + 128 * b2n ((s.part p).tb.rem ≠ 0) + 2 ^ 16 * v.tport.getD 0x1FF

/-- SRV_AB (R149): θ at the time port of B or the twin minus θ at that of A or the upstream. -/
def State.srvAbWord (s : State) (p : PartId) : Word :=
  if !(s.eligible p 1 && s.eligible p 2) then 0 else
  match s.timePortOf p (refPorts p 1), s.timePortOf p (refPorts p 2) with
  | some a, some b => show32 ((s.psrv p b).theta - (s.psrv p a).theta)
  | _, _ => 0

/-- A silence in µs since an instant, saturating in 16 bits. -/
def silUs (now : HT) (since : Option HT) : Nat :=
  match since with
  | some h => satNat 16 ((htDiff now h).toNat / 256000)
  | none => 0

/-- Silence of domain A and of domain B for the node at a position, in µs: what this detector hears, and what its twin reports (R305,
R306, R334). -/
def State.nodeSil (s : State) (v : NodeSt) : Nat × Nat :=
  let own := silUs (s.ht .dist) (some v.heard)
  let twin := silUs (s.ht .dist) v.twinSince
  if s.domain = 0 then (own, twin) else (twin, own)

/-- The node a class has selected; none where no node is held there. -/
def State.selNode (s : State) (src : Src) : Option NodeSt :=
  (s.nodes.find? fun kv => kv.1 == fld (s.selOf src .mbrNsel) 8 0).map (·.2)

/-- The part of HLT_STATUS and HLT_SIL a domain gives: heard within SELF_FENCE, and its silence (R313, R333). -/
def State.domainSil (s : State) (d : Nat) : Bool × Nat :=
  match s.domainHeard d with
  | some h => (decide (htDiff (s.ht .tsu) h ≤ (2560000 * s.fd .tsu .hltCfg 31 16 : Nat)), silUs (s.ht .tsu) (some h))
  | none => (false, 0)

/-- The HBM stack and channel a class has selected. -/
def State.selHbm (s : State) (src : Src) : Nat × Nat := let w := s.selOf src .hbmSsel; (fld w 4 0, fld w 9 5)

/-- Retired channels of a stack. -/
def State.retiredIn (s : State) (k : Nat) : List Nat := (s.hbm.retired.filter fun c => c / 32 == k).map (· % 32)

/-- The engine whose registers an instance of a tile block or of a context belongs to. -/
def engAt (p : PartId) (tile : Nat) : EngSel := if p = .tsu then .tsu else .tile (Fin.ofNat 8 tile)

/-! ### Indirect spaces (R40, R168, R370, R372, R403, R404, R417) -/

/-- Words of an indirect space: its index, READY, and the word. -/
def State.indexOf (s : State) (p : PartId) (n : RegName) : Nat := fld (s.rd p n) 23 0

/-- A journal record as it lies in the ring: eight words (R362). -/
def JRec.words (r : JRec) (i : Nat) : Word :=
  match i with
  | 0 => r.ht.truncate 32
  | 1 => (r.ht >>> 32).truncate 32
  | 2 => BitVec.ofNat 32 (r.node + 2 ^ 20 * r.blk + 2 ^ 26 * r.ctx)
  | 3 => BitVec.ofNat 32 (r.ty + 2 ^ 16 * r.seq)
  | _ => (r.payload >>> (32 * (i - 4))).truncate 32

/-- Word `idx` of the TSU's on-die ring (R403): a slot that holds no record reads zero. -/
def State.jnlWordTsu (s : State) (idx : Nat) : Word :=
  match s.tsu.jnl.recs.find? fun r => r.num % 2048 == idx / 8 with
  | some r => r.words (idx % 8)
  | none => 0

/-- Word `idx` of a page of the distributor's HBM ring (R370). -/
def State.jnlWordDist (s : State) (page idx : Nat) : Word :=
  match s.dist.jnl.recs.find? fun r => r.num % hbmRingSize == 2 ^ 21 * page + idx / 8 with
  | some r => r.words (idx % 8)
  | none => 0

/-- Words of a lifetime space: 1,024 of the record and one trend for each lane (R404, R417). -/
def lifSpace (p : PartId) : Nat := 1024 + laneCount p

/-- Word `idx` of the lifetime space (R372, R374, R404): the record as it stands, then the lane trends; before a history is begun the TSU's
staged words. -/
def State.lifWord (s : State) (p : PartId) (idx : Nat) : Word :=
  if 1024 ≤ idx then BitVec.ofNat 32 (mget (fun _ => 0) (s.part p).lif.trends (idx - 1024))
  else if p = .tsu && !s.lifBegun .tsu then mget (fun _ => 0) s.tsu.lif.words idx
  else (s.lifRecord p).getD idx 0

/-- READY of an indirect space (R40). -/
def State.indReady (s : State) (p : PartId) (n : RegName) : Bool :=
  match n with
  | .kprIaddr => s.kc.ready
  | .jnlIaddr => if p = .tsu then !s.wiping .tsu else s.jnlReady && !s.wiping .dist
  | _ => !s.wiping p

/-! ### The word a register shows -/

/-- ceil(t × (5 × 10^-5 + |RATE_h|)) for t in 2^-8 ns and RATE_h in 2^-40, saturating (R70). -/
def holdErrTsu (t : Nat) (rate : Int) : Nat :=
  satNat 32 (ceilDiv (t * (5 * 2 ^ 40 + 100000 * rate.natAbs)) (256 * 100000 * 2 ^ 40))

/-- TBS_HOLD_ERR as read: 0 outside a HOLDOVER that the part itself has entered, by formula in a TSU, and the distributor's own computation
(R70). -/
def State.holdErr (s : State) (p : PartId) : Word :=
  if s.qual p ≠ 2 || !(s.part p).tb.holding then 0 else
  match p with
  | .tsu => BitVec.ofNat 32 (holdErrTsu (htDiff (s.ht .tsu) s.tsu.tb.holdAt).toNat s.tsu.tb.holdRate)
  | .dist => s.rd .dist .tbsHoldErr

/-- The registers of the SYS, TBS and SRV blocks that show state. -/
def State.viewTime (s : State) (p : PartId) (l : Loc) : Option Word :=
  let q := s.part p
  match l.name with
  | .sysUpdPend => some (BitVec.ofNat 32 (blkMask (q.pend.filterMap fun kv =>
      if kv.2 = s.rdA p kv.1 then none else blockOfTarget (locate p kv.1))))
  | .sysUpdQueue => some (BitVec.ofNat 32 q.scheduled.length)
  | .sysIrqSrc => some (BitVec.ofNat 32 (s.irqSrc p))
  | .sysIrqOut => some (BitVec.ofNat 32 ((List.range 4).foldl (fun m o => m + 2 ^ o * b2n (s.irqLevel p o)) 0))
  | .tbsHtLo => some (q.tb.ht.truncate 32)
  | .tbsHtHi => some ((q.tb.ht >>> 32).truncate 32)
  | .tbsHoldErr => some (s.holdErr p)
  | .srvState => some (BitVec.ofNat 32 (s.srvStateWord p))
  | .srvAb => some (s.srvAbWord p)
  | .srvRem => some (show32 (q.tb.rem / 65536))
  | .srvRate => some (show32 q.tb.applied)
  | .srvPOfs => some (show32 (s.psrv p l.inst).theta)
  | .srvPPath => some (show32 ((s.psrv p l.inst).pathf / 256))
  | _ => none

/-- The registers of the TDC, DTC, KPR, SEN, SOB and CMB blocks that show state. -/
def State.viewUnit (s : State) (p : PartId) (l : Loc) : Option Word :=
  let i := l.inst
  let w := s.rd p l.name i l.idx
  match l.name with
  | .tdcBwt =>
    let u := s.tdcU p i
    let c := s.fd p .tdcRsel 3 0 i
    some (BitVec.ofNat 32 (2 ^ 16 * u.edgeAt c l.idx + u.widthAt c l.idx))
  | .tdcHits => some (BitVec.ofNat 32 ((mget (fun _ => []) (s.tdcU p i).hits (s.fd p .tdcRsel 3 0 i)).getD l.idx 0))
  | .dtcStatus => some (setFld w 2 0 (s.dtcO p i).armed.length)
  | .dtcCode => some (BitVec.ofNat 32 ((s.dtcO p i).code l.idx))
  | .kprIaddr | .jnlIaddr | .lifIaddr => some (setFld w 30 30 (b2n (s.indReady p l.name)))
  | .senStatus => some (setFld w 0 0 (b2n (s.gated (engAt p i) true)))
  | .senRun =>
    let e := engAt p i
    some (BitVec.ofNat 32 (2 ^ 16 * s.faultMask e + ctxMask (s.ctxActive e)))
  | .sobStatus => some (setFld (setFld w 30 30 (b2n (p = .tsu && s.fenced))) 13 0 (s.dirtyCount (engAt p i)))
  | .wkState => some (BitVec.ofNat 32 (s.wick i).state)
  | .wkLast => some (BitVec.ofNat 32 (s.wick i).last)
  | .cmbStatus =>
    if p = .tsu then some (setFld (setFld w 31 31 (b2n s.spilled.isSome)) 11 0 (poolUnits - s.poolUsed)) else none
  | .cmbQocc => some (BitVec.ofNat 32 (2 ^ 16 * max (fld w 31 16) (s.qocc i) + s.qocc i))
  | .hltStatus => some (setFld (setFld w 26 26 (b2n (s.domainSil 0).1)) 27 27 (b2n (s.domainSil 1).1))
  | .hltSil => some (BitVec.ofNat 32 ((s.domainSil 0).2 + 2 ^ 16 * (s.domainSil 1).2))
  | .jnlHead => some (BitVec.ofNat 32 (s.part p).jnl.count)
  | .jnlFill => some (BitVec.ofNat 32 (s.part p).jnl.recs.length)
  | .jnlSpillWr => some (BitVec.ofNat 32 (s.part p).jnl.spillWr)
  | .tilJseq => some (BitVec.ofNat 32 (mget (fun _ => 0) s.dist.jnl.tileSeq i))
  | _ => none

/-- The registers of the distributor's blocks that show state, some through the reading class's selection (R410). -/
def State.viewDist (s : State) (src : Src) (l : Loc) : Option Word :=
  let k := s.selJob src
  let j := s.job k
  let st := s.cstView (s.selOf src .cstCsel)
  let h := s.selHbm src
  let ret := s.retiredIn h.1
  let up := s.hbm.trained.contains h.1
  let node (f : NodeSt → Nat) : Option Word := some (match s.selNode src with
    | some v => BitVec.ofNat 32 (f v)
    | none => 0)
  match l.name with
  | .plnJsel | .mbrNsel | .cstCsel | .hbmSsel | .jnlIpage => some (s.selOf src l.name)
  | .plnJstate => some (if j.state = 0 then 0 else BitVec.ofNat 32 (2 ^ 16 * j.handle + 2 ^ 8 * j.gen + 2 ^ 4 * j.map + j.state))
  | .plnJepoch => some (if j.state = 0 then 0 else BitVec.ofNat 32 j.epoch)
  | .plnJlive => some (if j.state = 0 then 0 else BitVec.ofNat 32 j.live.length)
  | .mbrNstate => node fun v =>
      let t := s.fd .dist .mbrCfg 31 16
      let z := s.nodeSil v
      2 ^ 30 * v.state + 2 ^ 29 * b2n (z.1 ≤ t) + 2 ^ 28 * b2n (z.2 ≤ t) + 2 ^ 24 * v.cause + 2 ^ 23 * b2n v.rpt + 2 ^ 22 * b2n v.tskew + v.node
  | .mbrNsil => node fun v => (s.nodeSil v).1 + 2 ^ 16 * (s.nodeSil v).2
  | .mbrNcond => node (·.cond)
  | .mbrJnotify => some j.notify
  | .oscDac => if s.bt .dist .oscCtrl 4 then some (setFld (s.rd .dist .oscDac) 19 0 s.osc.dac) else none
  | .cstCap => some (BitVec.ofNat 32 s.chainFree)
  | .cstSstate => some st.1
  | .cstSblk => some st.2.1
  | .cstSlLo => some (st.2.2.1.truncate 32)
  | .cstSlHi => some ((st.2.2.1 >>> 32).truncate 32)
  | .cstSlag => some st.2.2.2
  | .cstJcommitted => some (BitVec.ofNat 32 (s.cstCommitted k))
  | .cstJcostLo => some (BitVec.ofNat 32 j.jcost)
  | .cstJcostHi => some (BitVec.ofNat 32 (j.jcost / 2 ^ 32))
  | .hbmSstatus => some (BitVec.ofNat 32 (2 ^ 31 * b2n up + 2 ^ 30 * b2n up + 2 ^ 27 * mget (fun _ => 0) s.hbm.bands h.1
      + 2 ^ 16 * satNat 11 (mget (fun _ => 0) s.hbm.rows h.1) + (if up then 32 - ret.length else 0)))
  | .hbmRetired => some (BitVec.ofNat 32 (blkMask ret))
  | .hbmChstatus => some (BitVec.ofNat 32 (2 ^ 31 * b2n (s.hbm.moving.contains (32 * h.1 + h.2))
      + satNat 16 (mget (fun _ => 0) s.hbm.uncorr (32 * h.1 + h.2))))
  | .hbmTrend => some (BitVec.ofNat 32 (mget (fun _ => 0) s.dist.lif.trends (0x20000 + 32 * h.1 + h.2)))
  | .hbmCap => some (BitVec.ofNat 32 s.hbmChannels)
  | _ => none

/-- What a register shows to a source, before anything a read does (R27–R41). -/
def State.regView (s : State) (p : PartId) (src : Src) (l : Loc) : Word :=
  match (row l.name).acc with
  | .wo => 0
  | _ =>
    ((s.viewTime p l).orElse fun _ => (s.viewUnit p l).orElse fun _ => if p = .dist then s.viewDist src l else none).getD
      (s.rd p l.name l.inst l.idx)

end Sys2Proof.Machine
end

