-- ==== Sys2Proof/Machine/Package.lean ====
section
/-!
DEFINITION. What register writes start in the distributor's package: the housekeeping takeover (R420), the tile mailbox (R423), and the
record of an HBM error (R419).
-/
namespace Sys2Proof.Machine

/-! ### Housekeeping processors (R420) -/

/-- The tile of the active housekeeping processor. -/
def State.hkpActive (s : State) : Nat := s.fd .dist .hkpStatus 2 0

/-- Firmware runs: standbys take over only from running firmware (R470, R473). -/
def State.firmware (s : State) : Bool := s.fd .dist .hkpBoot 7 0 == 0x05

/-- The lowest-numbered processor that stands by. -/
def State.hkpStandby (s : State) : Option Nat := (List.range 8).find? fun t => s.bt .dist .hkpStatus (24 + t)

/-- The lowest standby takes over, and a SPARE record of kind 4 is written (R377, R420); its trigger is 0 for a command and 4 for a
failure. With no standby left the active processor stays. -/
def State.hkpTakeover (s : State) (trig : Nat) : Option State :=
  match s.hkpStandby with
  | none => none
  | some t =>
    let old := s.hkpActive
    let s1 := ((s.setF .dist .hkpStatus (16 + old) (16 + old) 1).setF .dist .hkpStatus (24 + t) (24 + t) 0).setF .dist .hkpStatus 2 0 t
    let s2 := { s1 with pkg := { s1.pkg with kicked := s1.ht .dist } }
    let left := (List.range 8).filter fun u => s2.bt .dist .hkpStatus (24 + u)
    some (((s2.setB .dist .hkpStat 3).lifCount .dist 73 1).spareRec .dist t 4 0 old t trig .ok 0 left.length)

/-! ### The mailbox of a tile (R423) -/

/-- The words the mailbox holds. -/
def State.mailWords (s : State) (t n : Nat) : List Nat := (List.range n).map fun i => (s.rd .dist .tilMreqData t i).toNat

/-- A write of TIL_MREQ_GO: one MGMT READ or WRITE on the named port (R413, R423). The tag is free (log entry 2). -/
def State.mailGo (s : State) (t : Nat) : Code × State :=
  let w := s.rd .dist .tilMreqAddr t
  let port := s.fd .dist .tilMreqPort 8 0 t
  let write := w.getLsbD 31
  let n := fld w 30 28 + 1
  let addr := fld w 25 0
  let c := firstFail false false (!(port < 274 && portTile port == t) || addr % 4 ≠ 0) false (s.portState .dist port ≠ 6)
    (s.bt .dist .tilMreqStatus 31 t)
  if c ≠ .ok then (c, s) else
  let r := s.draw
  let tag := r.1.toNat % 65536
  let f : Frame := { cls := 5, ty := if write then 2 else 1, nojob := true, fields := [addr, n - 1, tag] ++ if write then s.mailWords t n else [] }
  let s1 := (r.2.wr .dist .tilMreqStatus (BitVec.ofNat 32 (2 ^ 31)) t).send .dist (.port port) f
  let q : Mreq := ⟨port, tag, write, n⟩
  (.ok, ({ s1 with mreqs := s1.mreqs.filter (fun (x : Nat × Mreq) => x.1 ≠ t) ++ [(t, q)] }).pump .dist port)

/-- A mailbox request ends (R423). -/
def State.mailEnd (s : State) (t : Nat) (c : Code) (n : Nat) (ws : List Word) : State :=
  let s1 := (ws.zipIdx).foldl (fun u x => u.wr .dist .tilMreqData x.1 t x.2) s
  ({ (s1.wr .dist .tilMreqStatus (BitVec.ofNat 32 (16 * n + c.num)) t).setB .dist .tilStat 2 t with
      mreqs := s1.mreqs.filter (fun (x : Nat × Mreq) => x.1 ≠ t) })

/-! ### HBM errors (R377, R419) -/

/-- An error found in HBM: a MEM_ERR record with code 6, the counts, and a channel's second uncorrected error starts its move. -/
def State.hbmError (s : State) (stack ch row : Nat) (uncorr : Bool) : State :=
  let c := 32 * stack + ch
  let s1 := s.wr .dist .hbmLasterr (BitVec.ofNat 32 (2 ^ 31 * b2n uncorr + 2 ^ 26 * stack + 2 ^ 21 * ch + row))
  let s2 := if uncorr then (s1.setB .dist .hbmStat 1).bump .dist .hbmEcnt 31 16 1 else (s1.setB .dist .hbmStat 0).bump .dist .hbmEcnt 15 0 1
  let s3 := s2.jnl { p := .dist, tile := stack / 3, blk := 18 } 0x0501 (pay [(0, 1, 6), (1, 1, b2n uncorr), (2, 4, row), (6, 2, c)])
  if !uncorr then s3 else
  let n := mget (fun _ => 0) s3.hbm.uncorr c + 1
  let s4 := { s3 with hbm := { s3.hbm with uncorr := mset (fun _ => 0) s3.hbm.uncorr c n } }
  if n = 2 then s4.channelSpare c 4 (mget (fun _ => 0) s4.dist.lif.trends (0x20000 + c)) else s4

end Sys2Proof.Machine
end

