-- ==== Sys2Proof/Machine/Regs.lean ====
section
/-!
DEFINITION. Register accesses (R23–R49, R381–R423): what a read and a write of an address do, for every register of the two maps and for
the windows. Every source reaches registers through `regRead` and `regWrite` alone.
-/
namespace Sys2Proof.Machine

/-! ### Protection and order of checks (R8, R23, R42) -/

/-- The window of a class permits an access to a block (R42); what no window covers is permitted. -/
def State.permits (s : State) (p : PartId) (src : Src) (blk : Option Nat) (write : Bool) : Bool :=
  match blk with
  | some b => (s.rd p (if write then .proWinWr else .proWinRd) 0 src.cls.num).getLsbD b
  | none => true

/-- An access that is not a whole aligned word, or lies outside the space (R23, R381, R405). -/
def badAccess (t : Target) (addr : Nat) (whole : Bool) : Bool :=
  !whole || addr % 4 ≠ 0 || (match t with
    | .outside _ => true
    | _ => false)

/-- The code of an access before its target is asked (R8). -/
def State.accessCode (s : State) (p : PartId) (src : Src) (t : Target) (addr : Nat) (whole write : Bool) : Code :=
  firstFail false (!s.permits p src (blockOfTarget t) write) (badAccess t addr whole) false false false

/-- What an access leaves for its source: SYS_LASTERRc (R26, R387), and the response (R412, R429, R442). -/
def State.respond (s : State) (p : PartId) (src : Src) (addr : Nat) (c : Code) (data : Word) : State :=
  let s1 := if c = .ok then s else s.wr p .sysLasterr (BitVec.ofNat 32 (2 ^ 8 * wordOff addr + c.num)) 0 src.cls.num
  if src.cls = .engine then s1 else
  let d : Word := if c ≠ .ok then 0 else data
  s1.mod p fun q => { q with resp := mset (fun _ => (0, 0)) q.resp src.cls.num (c.num, d) }

/-! ### Staging (R32) -/

/-- The *_HI register of a writable pair, by its *_LO. -/
def pairHi : RegName → Option RegName
  | .sysUpdAtLo => some .sysUpdAtHi
  | .tbsHtsetLo => some .tbsHtsetHi
  | .tbsCalHtLo => some .tbsCalHtHi
  | .tbsCalSLo => some .tbsCalSHi
  | .oscTodLo => some .oscTodHi
  | .dtcAtLo => some .dtcAtHi
  | .prtSwapAtLo => some .prtSwapAtHi
  | .kprTatLo => some .kprTatHi
  | .sobSigLo => some .sobSigHi
  | .jnlSpillBaseLo => some .jnlSpillBaseHi
  | .lifSaveLo => some .lifSaveHi
  | _ => none

/-- The *_LO register of a writable pair, by its *_HI. -/
def pairLo : RegName → Option RegName
  | .sysUpdAtHi => some .sysUpdAtLo
  | .tbsHtsetHi => some .tbsHtsetLo
  | .tbsCalHtHi => some .tbsCalHtLo
  | .tbsCalSHi => some .tbsCalSLo
  | .oscTodHi => some .oscTodLo
  | .dtcAtHi => some .dtcAtLo
  | .prtSwapAtHi => some .prtSwapAtLo
  | .kprTatHi => some .kprTatLo
  | .sobSigHi => some .sobSigLo
  | .jnlSpillBaseHi => some .jnlSpillBaseLo
  | .lifSaveHi => some .lifSaveLo
  | _ => none

/-- The pending copy of a BW register (R33). -/
def State.pendA (s : State) (p : PartId) (a : Nat) : Word := mget (fun k => s.rdA p k) (s.part p).pend a

def State.setPend (s : State) (p : PartId) (a : Nat) (v : Word) : State :=
  s.mod p fun q => { q with pend := mset (fun k => s.rdA p k) q.pend a v }

/-- The word a class has staged at an address, or the current one. -/
def State.staged (s : State) (p : PartId) (src : Src) (a : Nat) (cur : Word) : Word :=
  (mget (fun _ => none) (s.part p).stage (clsKey src a)).getD cur

def State.setStage (s : State) (p : PartId) (src : Src) (a : Nat) (v : Option Word) : State :=
  s.mod p fun q => { q with stage := mset (fun _ => none) q.stage (clsKey src a) v }

/-! ### What a write comes to -/

/-- A register write's outcome: the code and lateness, whether a record of its own stands for a refusal (R9), and the old and new
values and flags of the configuration record that an accepted write makes (R49). -/
structure WRes where
  s : State
  code : Code := .ok
  late : Nat := 0
  quiet : Bool := false
  cfg : Option (Word × Word) := none
  flags : Nat := 0

def WRes.fail (c : Code) (s : State) : WRes := { s := s, code := c }

def WRes.of (r : Code × State) (cfg : Option (Word × Word)) : WRes := { s := r.2, code := r.1, cfg := cfg }

/-- `old` with the bits of a mask taken from `v`. -/
def merged (old v : Word) (m : Nat) : Word := (old &&& ~~~(BitVec.ofNat 32 m)) ||| (v &&& BitVec.ofNat 32 m)

/-- The address of a located register. -/
def Loc.addr (l : Loc) (p : PartId) : Nat := addrOf p l.name l.inst l.idx

/-- Stores the writable bits of a register, unless a code refuses it. -/
def State.store (s : State) (p : PartId) (l : Loc) (v : Word) (c : Code := .ok) : WRes :=
  if c ≠ .ok then .fail c s else
  let a := l.addr p
  let old := s.rdA p a
  let new := merged old v (wmaskOf p l.name l.inst)
  { s := s.wrA p a new, cfg := some (old, new) }

/-- The writable bits of a BW register: a link unit's EN, MODE and channel settings are the time-transfer logic's (R92). -/
def bwMask (p : PartId) (l : Loc) : Nat :=
  match l.name with
  | .tdcCtrl => if l.inst % 2 = 1 then 0x9F0000 else 0x9F0003
  | .tdcChCfg => if l.inst % 2 = 1 then 0 else 0xFFFFFFFF
  | _ => wmaskOf p l.name l.inst

/-- Writes a pending copy, unless a code refuses it (R33). -/
def State.buffer (s : State) (p : PartId) (l : Loc) (v : Word) (c : Code) : WRes :=
  if c ≠ .ok then .fail c s else
  let a := l.addr p
  { s := s.setPend p a v, cfg := some (s.pendA p a, v), flags := 1 }

/-- A lone check. -/
def rangeIf (b : Bool) : Code := if b then .range else .ok
def stateIf (b : Bool) : Code := if b then .state else .ok

/-! ### Checks on BW registers -/

/-- The code of a write that would leave a BW register's pending copy at `v` (the field ranges of R56, R65, R94, R124, R149, R167, R191, R212,
R278, R303, R304, R333, R334, R361, R379, R380, R419, R420, R422; STATE of R57 and R93). -/
def State.bwCode (s : State) (p : PartId) (l : Loc) (v : Word) : Code :=
  let f (hi lo : Nat) : Nat := fld v hi lo
  match l.name with
  | .tbsCalHtLo | .tbsCalHtHi | .tbsCalSLo | .tbsCalSHi | .tbsCalRate | .tbsUtcOff => stateIf (!s.isSource p)
  | .tbsCalNs => firstFail false false (decide (1000000000 ≤ f 29 0)) false (!s.isSource p) false
  | .srvCtrl => rangeIf (f 1 0 == 3)
  | .srvCfg => rangeIf (f 31 24 == 0 || f 23 16 == 0)
  | .srvGain => rangeIf (decide (f 11 8 < f 15 12) || decide (f 3 0 < f 7 4))
  | .srvThr => rangeIf (decide (f 31 16 ≤ f 15 0))
  | .srvStepThr => rangeIf (v == 0)
  | .tdcCtrl => rangeIf (decide (f 20 16 < 16) || decide (24 < f 20 16))
  | .tdcChCfg =>
    if l.inst % 2 = 1 then .ok else
    firstFail false false (f 23 22 == 0 || f 21 20 == 3 || f 19 16 == 0 || decide (10 < f 19 16) || !tdcSrcOk p l.inst l.idx (f 31 24)) false
      (s.tdcTaken p l.inst l.idx) false
  | .dtcCfg => rangeIf (f 10 8 == 0)
  | .kprCfg => rangeIf (f 31 16 == 0 || decide (2 ^ nBranch ≤ f 3 0))
  | .prtCfg => rangeIf (decide (f 31 24 < 2) || f 23 16 == 0 || decide (100 < f 23 16))
  | .sobPlCfg => rangeIf (f 7 0 == 0)
  | .cmbCfg => rangeIf (f 15 8 == 0 || (p = .dist && decide (32767 < f 31 16)))
  | .hltCfg => rangeIf (f 31 16 == 0)
  | .jnlCfg => rangeIf (decide (2047 < f 11 0))
  | .lifCfg => rangeIf (f 31 16 == 0 || (p = .dist && decide (f 31 16 < 10)) || decide (f 10 8 ≤ f 6 4))
  | .cstCfg => rangeIf (decide (150 < f 31 24) || f 23 16 == 0 || decide (f 15 0 < 8) || decide (256 < f 15 0))
  | .plnLead => rangeIf (decide (f 31 16 < 10) || decide (f 15 0 < 10))
  | .plnDeadline => rangeIf (v == 0)
  | .mbrCfg => rangeIf (decide (f 31 16 < 5) || decide (f 15 0 ≤ f 31 16)
      || decide (fld (s.pendA p (addrOf p .mbrCfg2)) 31 16 ≤ f 15 0))
  | .mbrCfg2 => rangeIf (f 15 8 == 0 || decide (f 31 16 ≤ fld (s.pendA p (addrOf p .mbrCfg)) 15 0))
  | .mbrFrCfg => rangeIf (f 31 16 == 0 || f 3 0 == 0)
  | .oscCtrl => rangeIf (decide (5 ≤ f 2 0) || f 7 6 == 3)
  | .hkpCfg | .tilCfg => rangeIf (f 15 0 == 0)
  | _ => .ok

/-- A write of a BW register that is no half of a writable pair. -/
def State.bwWrite (s : State) (p : PartId) (l : Loc) (v : Word) : WRes :=
  let m := bwMask p l
  if m = 0 then { s := s } else
  let new := merged (s.pendA p (l.addr p)) v m
  s.buffer p l new (s.bwCode p l new)

/-! ### Writable pairs (R32) -/

/-- The checks a rule makes on writes to a pair, on its *_LO write (R32, R57, R367, R380). -/
def State.loCode (s : State) (p : PartId) (l : Loc) (v : Word) : Code :=
  match l.name with
  | .tbsCalHtLo | .tbsCalSLo => stateIf (!s.isSource p)
  | .jnlSpillBaseLo => firstFail false false (fld v 11 0 ≠ 0) false (s.bt .tsu .jnlSpillCtrl 0) false
  | .lifSaveLo => rangeIf (fld v 11 0 ≠ 0)
  | _ => .ok

/-- A *_LO write: staged for the writer's class (R32). -/
def State.loWrite (s : State) (p : PartId) (src : Src) (l : Loc) (v : Word) : WRes :=
  let c := s.loCode p l v
  if c ≠ .ok then .fail c s else
  let a := l.addr p
  let bw := (row l.name).acc = .bw
  { s := s.setStage p src a (some v), flags := b2n bw,
    cfg := if (row l.name).acc = .wo then none else some (if bw then s.pendA p a else s.rdA p a, v) }

/-- Both halves of a pair stored. -/
def State.putPair (s : State) (p : PartId) (l : Loc) (lo : RegName) (lv hv : Word) : State :=
  (s.wr p lo lv l.inst).wr p l.name hv l.inst

/-- A write that arms a trigger in a FENCED TSU arms nothing, which the TRIGGER record says; the access itself is rejected with FENCED only for class
LINK (R26, R228; log entry 67). -/
def fencedWrite (src : Src) (c : Code) : Code := if c = .fenced && src.cls ≠ .link then .ok else c

/-- A fine trigger armed by register (R86, R87, R89): refusals have their TRIGGER record, a late one has it when it fires. -/
def State.dtcAtWrite (s : State) (p : PartId) (src : Src) (l : Loc) (lv v : Word) : WRes :=
  let e := engAt p (l.inst / 8)
  let d : TrigDest := .fine (l.inst % 8)
  let t : HT := v ++ lv
  let r := s.armDest e src.jctx d t
  let c := fencedWrite src r.1
  if c ≠ .ok then { s := r.2.2, code := c, quiet := true } else
  let old := s.rdA p (l.addr p)
  let s1 := r.2.2.putPair p l .dtcAtLo lv v
  match (if r.1 = .ok then s.armLate e d t else none) with
  | some k => { s := s1, code := .late, late := satNat 32 k, quiet := true, cfg := some (old, v) }
  | none => { s := s1, cfg := some (old, v) }

/-- A keeper target sent by register (R159). -/
def State.kprTatWrite (s : State) (src : Src) (l : Loc) (lv v : Word) : WRes :=
  let addr := s.fd .tsu .kprTsel 12 4
  let mask := s.fd .tsu .kprTsel 3 0
  let t : HT := v ++ lv
  let r := s.sendTarm addr mask t false
  let c := fencedWrite src r.1
  let s1 := if r.1 = .ok then r.2 else r.2.trigRec .tsu 0 src.jctx 1 mask addr r.1 t 0
  if c ≠ .ok then { s := s1, code := c, quiet := true } else
  { s := s1.putPair .tsu l .kprTatLo lv v, cfg := some (s.rdA .tsu (l.addr .tsu), v) }

/-- A scheduled strobe (R35, R36). -/
def State.updAtWrite (s : State) (p : PartId) (src : Src) (l : Loc) (lv v : Word) : WRes :=
  let r := s.queueStrobe p src .register (v ++ lv) (s.rd p .sysUpdMask).toNat
  if r.1 = .ok || r.1 = .late then
    { s := r.2.2.putPair p l .sysUpdAtLo lv v, code := r.1, late := r.2.1, cfg := some (s.rdA p (l.addr p), v) }
  else .fail r.1 s

/-- A *_HI write applies {HI, staged LO} as one value, and the staging word is reloaded (R32). -/
def State.hiWrite (s : State) (p : PartId) (src : Src) (l : Loc) (lo : RegName) (v : Word) : WRes :=
  let la := addrOf p lo l.inst
  let a := l.addr p
  let bw := (row l.name).acc = .bw
  let lv := s.staged p src la (if bw then s.pendA p la else s.rdA p la)
  let hv := v &&& BitVec.ofNat 32 (row l.name).wmask
  let r : WRes := match l.name with
    | .sysUpdAtHi => s.updAtWrite p src l lv v
    | .dtcAtHi => s.dtcAtWrite p src l lv v
    | .kprTatHi => s.kprTatWrite src l lv v
    | .sobSigHi =>
      let x := s.sigHiWrite (engAt p l.inst) lv v src
      { s := x.2, code := x.1, quiet := true }
    | .jnlSpillBaseHi =>
      if s.bt .tsu .jnlSpillCtrl 0 then .fail .state s else { s := s.putPair p l lo lv hv, cfg := some (s.rdA p a, hv) }
    | _ =>
      if bw then
        let c := s.bwCode p l hv
        if c ≠ .ok then .fail c s else { s := (s.setPend p la lv).setPend p a hv, cfg := some (s.pendA p a, hv), flags := 1 }
      else { s := s.putPair p l lo lv hv, cfg := some (s.rdA p a, hv) }
  if l.name = .sobSigHi then r else { r with s := r.s.setStage p src la none }

/-! ### Guarded registers (R38) -/

/-- The guarded register of an _N register. -/
def guardedOf : RegName → Option RegName
  | .tbsHtsetHiN => some .tbsHtsetHi
  | .sobResetN => some .sobReset
  | _ => none

/-- An open guarded operation ends with PERM and is journalled (R38). -/
def State.cancelGuard (s : State) (p : PartId) : State :=
  match (s.part p).guard with
  | none => s
  | some g => (s.mod p fun q => { q with guard := none }).accessOutcome p g.src g.addr .perm 0

/-- The first write of a guarded pair: held until the very next write. -/
def State.guardWrite (s : State) (p : PartId) (src : Src) (l : Loc) (v : Word) : WRes :=
  { s := s.mod p fun q => { q with guard := some ⟨l.addr p, v, src⟩ } }

/-- A write is the _N write of the open guarded operation. -/
def State.isMate (s : State) (p : PartId) (t : Target) : Bool :=
  match t, (s.part p).guard with
  | .reg l, some g => !l.peek && (guardedOf l.name).any fun n => addrOf p n l.inst == g.addr
  | _, _ => false

/-- The _N write of a guarded pair (R38, R54, R180). -/
def State.mateWrite (s : State) (p : PartId) (l : Loc) (v : Word) : WRes :=
  match (s.part p).guard with
  | none => .fail .perm s
  | some g =>
    let s1 := s.mod p fun q => { q with guard := none }
    if v ≠ ~~~g.value then .fail .perm s1
    else if l.name = .tbsHtsetHiN then
      let la := addrOf p .tbsHtsetLo
      let lv := s1.staged p g.src la (s1.rdA p la)
      let s2 := s1.setStage p g.src la none
      if !s2.htSetAllowed p then .fail .state s2
      else
        let s3 := ((s2.wrA p la lv).wrA p g.addr g.value).wrA p (l.addr p) v
        { s := s3.acceptHtSet p (g.value ++ lv) g.src, cfg := some (s2.rdA p g.addr, g.value) }
    else
      let r := s1.sobReset (engAt p l.inst) g.value
      if r.1 ≠ .ok then .fail r.1 r.2
      else
        let new := merged 0 g.value (row .sobReset).wmask
        { s := (r.2.wrA p g.addr new).wrA p (l.addr p) v, cfg := some (s1.rdA p g.addr, new) }

/-! ### GK registers (R39) -/

/-- The code of a life-cycle request (R46). -/
def State.lcReqCode (s : State) (p : PartId) (dst : Nat) (force : Bool) : Code :=
  let ok := match s.lcState p, dst with
    | 0, 1 | 0, 3 | 1, 3 | 2, 1 | 2, 3 => true
    | 1, 2 => !s.isOpen p
    | 3, 1 => s.isOpen p
    | _, _ => false
  firstFail false false false false (!ok) (s.wiping p || (s.part p).lcReq.isSome || (!s.jobsFree p && !force))

/-- A GK write with its unlock. -/
def State.gkWrite (s : State) (p : PartId) (src : Src) (l : Loc) (v : Word) : WRes :=
  let i := l.inst
  let old := s.rdA p (l.addr p)
  let rec_ (m : Nat) : Option (Word × Word) := some (old, v &&& BitVec.ofNat 32 m)
  match l.name with
  | .sysNode =>
    s.store p l v (firstFail false false (p = .dist && fld v 2 0 ≠ 0) false ((portNums p).any fun n => s.portState p n ≠ 0) false)
  | .sysLcreq =>
    let dst := fld v 1 0
    let c := s.lcReqCode p dst (v.getLsbD 8)
    if c ≠ .ok then .fail c s
    else { s := s.mod p fun q => { q with lcReq := some ⟨dst, v.getLsbD 8, src⟩ }, cfg := rec_ 0x103 }
  | .srvLcal => .of (s.lcalWrite i v) (rec_ 0xC003FFFF)
  | .kprFcmd =>
    let r := s.kprGo v
    if r.1 ≠ .ok then .fail r.1 r.2 else r.2.store p l v
  | .prtCtrl => .of (s.prtCtrlWrite p i v) (rec_ 3)
  | .prtSwap =>
    let r := s.prtSwapWrite p i v
    if r.1 ≠ .ok then { s := r.2, code := r.1, quiet := true } else r.2.store p l v
  | .hltBinClr => { s := s.binClear v src, cfg := rec_ 0xFFFFFFFF }
  | .mbrFence =>
    let r := s.mbrFence v
    { s := if r.1 = .ok then r.2.wrA p (l.addr p) (BitVec.ofNat 32 (fld v 8 0)) else r.2, code := r.1, cfg := rec_ 0xC00001FF }
  | .hkpCtrl =>
    if !v.getLsbD 0 then { s := s, cfg := rec_ 1 } else
    if !s.firmware then { s := s, code := .state, cfg := rec_ 1 } else
    match s.hkpTakeover 0 with
    | some s1 => { s := s1, cfg := rec_ 1 }
    | none => { s := s.noSpare .dist s.hkpActive 4 0 s.hkpActive 0 0, code := .state, quiet := true }
  | _ => s.store p l v

/-! ### Indirect spaces (R40) -/

/-- Words in an indirect space. -/
def State.indSpace (s : State) (p : PartId) (n : RegName) : Nat :=
  match n with
  | .kprIaddr => 64 * s.fd .tsu .kprNkeep 8 0
  | .jnlIaddr => if p = .tsu then 16384 else 2 ^ 24
  | _ => lifSpace p

/-- A fetch of the word at the index starts (R40). -/
def State.indFetch (s : State) (p : PartId) (src : Src) (n : RegName) : State :=
  let idx := s.indexOf p n
  match n with
  | .kprIaddr =>
    if idx < s.indSpace p n then s.kprFetch idx else { s with kc := { s.kc with ready := false, fetching := none } }
  | .jnlIaddr =>
    if p = .tsu then s
    else { s with jnlReady := false, jnlBad := false, jnlFetch := some (2 ^ 24 * fld (s.selOf src .jnlIpage) 7 0 + idx) }
  | _ => s

/-- The *_IADDR of an *_IDATA. -/
def iaddrOf : RegName → RegName
  | .kprIdata => .kprIaddr
  | .jnlIdata => .jnlIaddr
  | _ => .lifIaddr

/-- AUTOINC advances the index after an access and fetches the next word. -/
def State.indAdvance (s : State) (p : PartId) (src : Src) (n : RegName) : State :=
  if s.bt p n 31 then (s.setF p n 23 0 (s.indexOf p n + 1)).indFetch p src n else s

/-- A read of *_IDATA (R40). -/
def State.idataRead (s : State) (p : PartId) (src : Src) (d : RegName) : Code × Word × State :=
  let n := iaddrOf d
  let idx := s.indexOf p n
  let c := firstFail false false (decide (s.indSpace p n ≤ idx)) false false (!s.indReady p n)
  if c ≠ .ok then (c, 0, s) else
  let s1 := s.indAdvance p src n
  match d with
  | .kprIdata => (.ok, s.kc.data, s1)
  | .jnlIdata =>
    if p = .tsu then (.ok, s.jnlWordTsu idx, s1)
    else
      let k := s.jnlFetch.getD 0
      if s.jnlBad then (.integrity, s.jnlWordDist (k / 2 ^ 24) (k % 2 ^ 24), s1) else (.ok, s.jnlWordDist (k / 2 ^ 24) (k % 2 ^ 24), s1)
  | _ => (.ok, s.lifWord p idx, s1)

/-- A write of *_IDATA (R40, R374, R403, R404, R417). -/
def State.idataWrite (s : State) (p : PartId) (src : Src) (d : RegName) (v : Word) : WRes :=
  let n := iaddrOf d
  let idx := s.indexOf p n
  if d = .jnlIdata then { s := s }
  else if s.indSpace p n ≤ idx then .fail .range s
  else if d = .kprIdata then { s := (s.ringSend 0x3 (idx / 64) (idx % 64) v.toNat).indAdvance p src n }
  else if 1024 ≤ idx then { s := s.indAdvance p src n }
  else if p = .dist || s.lifBegun .tsu then .fail .state s
  else { s := (s.modLif .tsu fun x => { x with words := mset (fun _ => 0) x.words idx v }).indAdvance p src n }

/-! ### The other registers -/

/-- Writes of RW and WO registers of the SYS, TBS, SRV, TDC, DTC, KPR, PRT, SEN, SOB and HLT blocks that have an effect. -/
def State.actWrite (s : State) (p : PartId) (src : Src) (l : Loc) (v : Word) : Option WRes :=
  let i := l.inst
  let old := s.rdA p (l.addr p)
  match l.name with
  | .sysSeal =>
    let c := firstFail false false (v ≠ 0x5EA1#32) false (!s.isOpen p) false
    some (if c ≠ .ok then .fail c s else { s := ((s.setF p .sysBoot 0 0 0).jnl (whoReg p src (l.addr p)) 0x0002 0).portsRecheck p })
  | .sysUnlock =>
    some (if fld v 15 0 = 0xC4D1 then { s := s.mod p fun q => { q with unlocked := q.unlocked ++ [src.cls] } } else .fail .perm s)
  | .sysUpdate => some { s := s.immediateStrobe p src v.toNat }
  | .sysUpdCancel => some { s := if v.getLsbD 0 then s.removeStrobes p fun r => r.src.cls == src.cls else s }
  | .sysTier =>
    let r := s.store p l v
      (firstFail false false (decide (6 ≤ fld v 2 0)) false (!s.isOpen p || (portNums p).any fun n => s.portState p n ≠ 0) false)
    some (if r.code = .ok then { r with s := r.s.portsRecheck p } else r)
  | .tdcCal => some (if v.getLsbD 0 then .of (s.tdcStart p i) none else { s := s })
  | .tdcRsel => some (s.store p l v (rangeIf (decide (9 ≤ fld v 3 0))))
  | .dtcCancel => some { s := if v.getLsbD 0 then s.cancelFine p i else s }
  | .dtcCal => some (if p = .tsu && s.macroBad then .fail .state s else { s := s.dtcCalWrite p i (fld v 7 0) src.jctx })
  | .kprCtrl =>
    let en := v.getLsbD 0
    if en && s.macroBad then some (.fail .state s) else
    let s1 := s.kprEnable en
    some { s := if en then s1 else s1.wr .tsu .kprNkeep 0, cfg := some (old, v &&& 1) }
  | .kprTcan => some { s := s.kprTcanGo v }
  | .senCtrl => some (.of (s.senEnable (engAt p i) (v.getLsbD 0)) (some (old, v &&& 1)))
  | .ctxCmd => some (.of (s.ctxCommand (engAt p (i / 16)) (i % 16) v src) none)
  | .ctxPc =>
    let r := s.store p l v (stateIf (s.ctxActive (engAt p (i / 16)) (i % 16)))
    some (if r.code = .ok then { r with s := r.s.setPc (engAt p (i / 16)) (i % 16) (fld v 15 0) } else r)
  | .ctxIwin | .ctxDwin => some (s.store p l v (stateIf (s.ctxActive (engAt p (i / 16)) (i % 16))))
  | .wkCfg => some (.of (s.wickCfgWrite i v) (some (old, v)))
  | .hltSentRes => some (if l.idx < 3 then { s := s.sentStage src l.idx v } else .of (s.sentCompare src v) none)
  | .kprIaddr | .jnlIaddr | .lifIaddr =>
    let r := s.store p l v
    some { r with s := r.s.indFetch p src l.name }
  | .kprIdata | .jnlIdata | .lifIdata => some (s.idataWrite p src l.name v)
  | .jnlSpillCtrl =>
    let r := s.store p l v
    some { r with s := if v.getLsbD 0 then r.s.spillPump else r.s.jflushCheck }
  | .jnlSpillSize =>
    some (s.store p l v (firstFail false false (decide (fld v 4 0 < 7) || decide (27 < fld v 4 0)) false (s.bt .tsu .jnlSpillCtrl 0) false))
  | .jnlSpillRd => let r := s.store p l v; some { r with s := r.s.spillPump }
  | .proWinRd | .proWinWr => some (if s.isOpen p then s.store p l v else .fail .perm s)
  | _ => none

/-- Writes of the distributor's RW and WO registers that have an effect. -/
def State.distWrite (s : State) (src : Src) (l : Loc) (v : Word) : Option WRes :=
  let i := l.inst
  let p : PartId := .dist
  let mail := stateIf (s.bt .dist .tilMreqStatus 31 i)
  let sel (c : Code) : Option WRes :=
    let new := v &&& BitVec.ofNat 32 (row l.name).wmask
    some (if c ≠ .ok then .fail c s else { s := s.setSel src l.name new, cfg := some (s.selOf src l.name, new) })
  match l.name with
  | .plnJsel | .mbrNsel | .cstCsel | .jnlIpage => sel .ok
  | .hbmSsel => sel (rangeIf (decide (24 ≤ fld v 4 0)))
  | .mbrJnotify =>
    let k := s.selJob src
    let new := v &&& BitVec.ofNat 32 (row .mbrJnotify).wmask
    some { s := s.modJob k fun (j : Job) => { j with notify := new }, cfg := some ((s.job k).notify, new) }
  | .oscDac => some (s.store p l v (rangeIf (decide (s.dacMax < fld v 19 0))))
  | .hkpKick =>
    some (if src.cls = .hkp && src.tile == s.hkpActive then { s := { s with pkg := { s.pkg with kicked := s.ht .dist } } } else .fail .state s)
  | .hkpH2p =>
    let r := s.store p l v
    some (if l.idx = 3 then { r with s := { r.s.setB .dist .hkpStat 0 with pkg := { r.s.pkg with hkpIrq := r.s.pkg.hkpIrq + 1 } } } else r)
  | .hkpP2h => let r := s.store p l v; some (if l.idx = 3 then { r with s := r.s.setB .dist .hkpStat 1 } else r)
  | .tilMreqPort | .tilMreqAddr | .tilMreqData => some (s.store p l v mail)
  | .tilMreqGo => some (.of (s.mailGo i) none)
  | _ => none

/-- A write of LIF_CTRL (R380): FRESH is GK. A load that fails is in the LIFETIME record alone (R9). -/
def State.lifCtrlReg (s : State) (p : PartId) (v : Word) (had : Bool) : WRes :=
  let r := s.lifCtrl p v had
  { WRes.of r (if p = .tsu && v.getLsbD 2 then some (0, v &&& 7) else none) with quiet := r.1 = .integrity }

/-- A write of a register by its access type (R27–R39). -/
def State.writeReg (s : State) (p : PartId) (src : Src) (l : Loc) (v : Word) (had : Bool) : WRes :=
  if l.peek then { s := s } else
  if l.name = .lifCtrl then s.lifCtrlReg p v had else
  match pairLo l.name with
  | some lo => if (row l.name).acc = .gp then s.guardWrite p src l v else s.hiWrite p src l lo v
  | none =>
    if (pairHi l.name).isSome then s.loWrite p src l v else
    match (row l.name).acc with
    | .ro | .rc | .rcNoAlias => { s := s }
    | .bw => s.bwWrite p l v
    | .gp => s.guardWrite p src l v
    | .gpN => s.mateWrite p l v
    | .gk => if had then s.gkWrite p src l v else .fail .perm s
    | .rw | .mw | .wo =>
      ((s.actWrite p src l v).orElse fun _ => if p = .dist then s.distWrite src l v else none).getD
        (if (row l.name).acc = .wo then { s := s } else s.store p l v)

/-! ### Windows -/

/-- A write of the context register window (R32, R211): the low word of a register is staged. -/
def State.ctxWinReg (s : State) (p : PartId) (src : Src) (e : EngSel) (off a : Nat) (v : Word) : WRes :=
  if off % 512 < 320 && off % 8 = 0 then
    if s.ctxActive e (off / 512) then .fail .state s else { s := s.setStage p src a (some v) }
  else
    let la := a - 4
    let lo := s.staged p src la (s.ctxWinRead e (off - 4)).2
    let r := s.ctxWinWrite e off lo v
    .of (r.1, if off % 512 < 320 then r.2.setStage p src la none else r.2) none

/-- A write to what an address means. -/
def State.writeTarget (s : State) (p : PartId) (src : Src) (t : Target) (a : Nat) (v : Word) (had : Bool) : WRes :=
  match t with
  | .reg l => s.writeReg p src l v had
  | .imem e w => .of (s.imemWrite e w v) none
  | .dmem e b => .of (s.dmemWinWrite e b v) none
  | .ctxWin e off => s.ctxWinReg p src e off a v
  | .objWin e off =>
    if s.wiping p then .fail .busy s else
    let r := s.objWinWrite e off v src
    { s := r.2.2, code := r.1, late := r.2.1 }
  | .rdata _ _ | .hole _ | .outside _ => { s := s }

/-- A word of a result window (R41, R301). -/
def State.rdataWord (s : State) (c off : Nat) : Word := BitVec.ofNat 32 (leNat (((s.chan c).win.drop off).take 4))

/-- A read of a register and what it does (R29, R40, R41, R79, R320). -/
def State.readReg (s : State) (p : PartId) (src : Src) (l : Loc) : Code × Word × State :=
  let v := s.regView p src l
  if l.peek then (.ok, v, s) else
  match l.name with
  | .cmbRstat => (.ok, s.rstatRead l.idx)
  | .tdcRstat => (.ok, s.tdcReadRstat p l.inst)
  | .mbrJevt => (.ok, s.jevtRead (s.selJob src))
  | .kprIdata | .jnlIdata | .lifIdata => s.idataRead p src l.name
  | _ => (.ok, v, if (row l.name).acc = .rc then s.wrA p (l.addr p) 0 else s)

/-- A read of what an address means. -/
def State.readTarget (s : State) (p : PartId) (src : Src) (t : Target) : Code × Word × State :=
  match t with
  | .reg l => s.readReg p src l
  | .imem e w => s.imemRead e w
  | .dmem e b => s.dmemWinRead e b
  | .ctxWin e off => let r := s.ctxWinRead e off; (r.1, r.2, s)
  | .objWin e off => if s.wiping p then (.busy, 0, s) else (.ok, s.objWinRead e off src)
  | .rdata c off => if s.wiping p then (.busy, 0, s) else (.ok, s.rdataWord c off, s)
  | .hole _ | .outside _ => (.ok, 0, s)

/-! ### The two accesses -/

/-- A register read (R23–R29): its code, its data, and what it leaves. A code other than OK writes an OUTCOME record (R9). -/
def State.regRead (s : State) (p : PartId) (src : Src) (addr : Nat) (whole : Bool) : Code × Word × State :=
  let t := locate p (addr / 4 * 4)
  let c := s.accessCode p src t addr whole false
  let r : Code × Word × State := if c ≠ .ok then (c, 0, s) else s.readTarget p src t
  let s1 := if r.1 = .ok then r.2.2 else r.2.2.accessOutcome p src addr r.1 0
  (r.1, r.2.1, s1.respond p src addr r.1 r.2.1)

/-- A register write (R23–R49): the class's unlock is used up, an open guarded operation ends unless this is its _N write, an
accepted write of a configuration register writes its record, and a code other than OK writes an OUTCOME record unless the
refusal has a record of its own. -/
def State.regWrite (s : State) (p : PartId) (src : Src) (addr : Nat) (v : Word) (whole : Bool) : Code × State :=
  let t := locate p (addr / 4 * 4)
  let had := (s.part p).unlocked.contains src.cls
  let s1 := s.mod p fun q => { q with unlocked := q.unlocked.filter (· ≠ src.cls) }
  let c := s1.accessCode p src t addr whole true
  let mate := c = .ok && s1.isMate p t
  let ra := match mate, (s1.part p).guard with
    | true, some g => g.addr
    | _, _ => addr
  let s2 := if mate then s1 else s1.cancelGuard p
  let r : WRes := if c ≠ .ok then .fail c s2 else s2.writeTarget p src t addr v had
  let s3 := match r.cfg with
    | some (old, new) => if r.code == Code.ok || r.code == Code.late then r.s.cfgRec p src ra old new r.flags (s.ht p) r.code else r.s
    | none => r.s
  let s4 := if r.code == Code.ok || r.quiet then s3 else s3.accessOutcome p src addr r.code r.late
  (r.code, s4.respond p src addr r.code 0)

end Sys2Proof.Machine
end

