-- ==== Sys2Proof/Machine/Strobe.lean ====
section
/-!
DEFINITION. The update strobe (R33–R37): at its tick every pending copy of the masked blocks becomes active together, with the effects
that the changes have.
-/
namespace Sys2Proof.Machine

/-- The ticks of strobes that wait (R35, R477), and in a distributor those of the job-wide strobes whose completion waits for them. -/
def State.strobeTicks (s : State) (p : PartId) : List HT :=
  (s.part p).strobes.map (fun r => s.tickAt p r.due) ++ (if p = .dist then s.jobs.flatMap fun kv => kv.2.upds.map (·.1) else [])

/-- The earliest of some instants (R51). -/
def earliest : List HT → Option HT
  | [] => none
  | t :: ts => some (ts.foldl (fun m x => if after m x then x else m) t)

/-- A block's bit in a mask of blocks. -/
def maskHas (mask : Nat) (p : PartId) (a : Nat) : Bool :=
  match blockOfTarget (locate p a) with
  | some b => mask.testBit b
  | none => false

/-- A pending copy that becomes active at tick `t`: one strobe record, whose source is that of the first-queued strobe that includes its
block (R49). -/
def State.applyPend (s : State) (p : PartId) (due : List StrobeReq) (t : HT) (a : Nat) (v : Word) : State :=
  let old := s.rdA p a
  if old = v then s else
  match due.find? fun r => maskHas r.mask p a with
  | some r => (s.wrA p a v).cfgRec p r.src a old v 2 t
  | none => s

/-- The effect of a change of OSC_CTRL.REF_SEL at a strobe (R59, R68). Of a change from one external reference to another that is not
qualified the spec says nothing: the selected reference is lost, so REF_LOST is set and a TRACEABLE source enters HOLDOVER (log
entry 125). -/
def State.refSelChanged (s : State) (old new : Nat) : State :=
  if old = new then s else
  let q := s.qual .dist
  let s1 :=
    if !s.isSource .dist || !s.osc.pllOnOsc then s
    else if q = 3 && new ≠ 0 then s.setQual .dist 0
    else if (q = 0 || q = 4 || q = 2) && new = 0 && s.bt .dist .oscStatus 1 then s.setQual .dist 3
    else s
  s1.refreshRef

/-- The effects of one register's change at a strobe (R79, R84, R89, R78, R59). -/
def State.afterStrobe (s : State) (p : PartId) (c : Nat × Word × Word) : State :=
  match locate p c.1 with
  | .reg l =>
    match l.name with
    | .tdcCtrl => s.tdcCtrlActive p l.inst c.2.1 c.2.2
    | .tdcChCfg => s.tdcCfgActive p l.inst l.idx
    | .dtcCfg => s.dtcCfgActive p l.inst c.2.1 c.2.2
    | .oscCtrl => s.refSelChanged (fld c.2.1 2 0) (fld c.2.2 2 0)
    | .srvCtrl | .srvCfg => (s.selectRef p).refreshQual p
    | .tbsCalRate => { s with osc := { s.osc with calTerm := if p = .dist then none else s.osc.calTerm } }
    | _ => s
  | _ => s

/-- The calendar registers, whose change at the time source goes downstream (R57). -/
def isCal : Target → Bool
  | .reg l => match l.name with
    | .tbsCalHtLo | .tbsCalHtHi | .tbsCalSLo | .tbsCalSHi | .tbsCalNs | .tbsCalRate | .tbsUtcOff => true
    | _ => false
  | _ => false

/-- A local UPD whose strobe has been applied on tick `t` completes with it (R36, R250). -/
def State.strobeDone (s : State) (t : HT) (r : StrobeReq) : State :=
  match r.kind with
  | .upd _ op =>
    if r.late then s.completeOp op .late t (satNat 32 (htDiff t r.target).toNat) else s.completeOp op .ok t
  | _ => s

/-- The job-wide strobes of a job context whose tick has come are answered (R250). -/
def State.jobStrobes (s : State) (k : Nat) (t : HT) : State :=
  let due := (s.job k).upds.filter fun u => atOrAfter t u.1
  let s1 := s.modJob k fun j => { j with upds := j.upds.filter fun u => !atOrAfter t u.1 }
  due.foldl (fun w u => w.answer k u.2.2 (if u.2.1 = 0 then .ok else .late) u.1.toNat u.2.1) s1

/-- UPDATE_STROBE: the next tick at which a strobe is due (R35, R36). Every strobe that falls on it applies in the union of their masks once; one
that a forward step has passed over applies on the edge of the step, whose HT it records (R144). A FENCED TSU applies none that a STROBE
frame asked for (R37). -/
def updateStrobe (p : PartId) (s : State) : State :=
  match earliest (s.strobeTicks p) with
  | none => s
  | some t0 =>
    let t := if atOrAfter (s.ht p) t0 then s.ht p else t0
    let falls (r : StrobeReq) : Bool := atOrAfter t (s.tickAt p r.due)
    let s1 := s.reach p t
    let acts := ((s1.part p).strobes.filter falls).filter fun r => match r.kind with
      | .frame _ _ => !(p = .tsu && s1.fenced)
      | _ => true
    let mask := acts.foldl (fun m r => m ||| r.mask) 0
    let taken := (s1.part p).pend.filter fun kv => maskHas mask p kv.1
    let changed := taken.map fun kv => (kv.1, s1.rdA p kv.1, kv.2)
    let s2 := s1.mod p fun q => { q with
      strobes := q.strobes.filter fun r => !falls r
      pend := q.pend.filter fun kv => !maskHas mask p kv.1 }
    let s3 := taken.foldl (fun u kv => u.applyPend p acts t kv.1 kv.2) s2
    let s4 := changed.foldl (fun u c => u.afterStrobe p c) s3
    let s5 := if s4.isSource p && changed.any fun c => isCal (locate p c.1) then
        s4.serveDown p (calinfoFrame (s4.nextTick p) (s4.calValues p))
      else s4
    let s6 := acts.foldl (fun u r => u.strobeDone t r) s5
    if p = .dist then (s6.jobs.map (·.1)).foldl (fun u k => u.jobStrobes k t) s6 else s6

end Sys2Proof.Machine
end

