-- ==== Sys2Proof/Machine/Mgmt.lean ====
section
/-!
DEFINITION. Accesses from everything but the register port: GETC and PUTC (R249), MGMT frames (R413) and their answers (R423), the test
port (R442, R466), the I3C targets (R465), and the words of the indirect spaces (R40).
-/
namespace Sys2Proof.Machine

/-! ### GETC and PUTC -/

/-- The source of an engine's own accesses. -/
def ctxSrc (x : CtxRef) : Src := { cls := .engine, tile := x.eng.tileNo, ctx := x.ctx.val }

/-- The byte address of GETC and PUTC; none outside the space or at no word. -/
def State.ctlAddr (s : State) (x : CtxRef) (a : Fin 32) (imm : BitVec 16) : Option Nat :=
  let ra := wrapInt 64 ((s.g x.eng x.ctx a).toNat + s.immS x.eng x.ctx 16 imm.toNat)
  if ra < 0x4000000 ∧ ra % 4 = 0 then some ra else none

/-- GETC: reads a register as class ENGINE. -/
def execGetc (x : CtxRef) (d a : Fin 32) (imm : BitVec 16) (s : State) : Host.Outcome State Fault Refusal :=
  .next (s.issue x (wFI 0x1E d a imm.toNat) true 0 fun pc =>
    match s.ctlAddr x a imm with
    | none => .done (s.report x.eng x.ctx d .range 0 0x1E pc)
    | some ra =>
      let r := s.regRead x.eng.part (ctxSrc x) ra true
      .done (r.2.2.reportQuiet x.eng x.ctx d r.1 (if r.1 = .ok then r.2.1.toNat else 0)))

/-- PUTC: writes a register as class ENGINE. -/
def execPutc (x : CtxRef) (d a : Fin 32) (imm : BitVec 16) (s : State) : Host.Outcome State Fault Refusal :=
  .next (s.issue x (wFI 0x1F d a imm.toNat) true 0 fun pc =>
    let v : Word := (s.g x.eng x.ctx d).setWidth 32
    match s.ctlAddr x a imm with
    | none => .done (s.report x.eng x.ctx d .range v.toNat 0x1F pc)
    | some ra =>
      let r := s.regWrite x.eng.part (ctxSrc x) ra v true
      .done (r.2.reportQuiet x.eng x.ctx d r.1 v.toNat))

/-! ### MGMT frames (R413) -/

/-- Reads of consecutive words, which stop at the first that does not end with OK. -/
def readWords : Nat → PartId → Src → Nat → List Word → State → Code × List Word × State
  | 0, _, _, _, ws, s => (.ok, ws, s)
  | n + 1, p, src, a, ws, s =>
    let r := s.regRead p src a true
    if r.1 = .ok then readWords n p src (a + 4) (ws ++ [r.2.1]) r.2.2 else (r.1, ws, r.2.2)

/-- Writes of consecutive words, which stop at the first that does not end with OK; counts those that did. -/
def writeWords : List Word → PartId → Src → Nat → Nat → State → Code × Nat × State
  | [], _, _, _, k, s => (.ok, k, s)
  | v :: vs, p, src, a, k, s =>
    let r := s.regWrite p src a v true
    if r.1 = .ok then writeWords vs p src (a + 4) (k + 1) r.2 else (r.1, k, r.2)

/-- The RSP of a request, on the port the request came by. -/
def State.sendRsp (s : State) (p : PartId) (n tag : Nat) (c : Code) (done : Nat) (ws : List Word) : State :=
  (s.send p (.port n) { cls := 5, ty := 3, nojob := true, fields := [tag, c.num, done] ++ ws.map (·.toNat) }).pump p n

/-- A downstream port of a distributor takes no request. -/
def noMgmt (port : Port) : Bool := port.part = .dist && decide (port.num < 256)

/-- MGMT_READ: `n1` is N − 1. -/
def mgmtRead (port : Port) (addr : Word) (n1 : Fin 8) (tag : BitVec 16) (s : State) : State :=
  let p := port.part
  if noMgmt port then s.protoDrop p port.num else
  let r := readWords (n1.val + 1) p { cls := .link } addr.toNat [] s
  r.2.2.sendRsp p port.num tag.toNat r.1 r.2.1.length r.2.1

/-- MGMT_WRITE: the words in the frame are those it carries, at most eight. -/
def mgmtWrite (port : Port) (addr : Word) (tag : BitVec 16) (words : List Word) (s : State) : State :=
  let p := port.part
  if noMgmt port then s.protoDrop p port.num else
  let r := writeWords (words.take 8) p { cls := .link } addr.toNat 0 s
  r.2.2.sendRsp p port.num tag.toNat r.1 r.2.1 []

/-- RSP: ends the request it answers; one that answers none is discarded and counted (R413, R423). -/
def recvRsp (port : Port) (tag : BitVec 16) (code : Code) (done : Fin 9) (words : List Word) (s : State) : State :=
  let p := port.part
  let n := port.num
  if p = .tsu then s.protoDrop p n else
  let t := portTile n
  match s.mreqs.find? fun x => x.1 == t && x.2.port == n && x.2.tag == tag.toNat with
  | some x => s.mailEnd t code done (if x.2.write then [] else words.take (min done.val x.2.n))
  | none => (s.protoDrop p n).setB .dist .tilStat 3 t

/-- MREQ_TIMEOUT: MREQ_TO has passed with no RSP (R423). -/
def mreqTimeout (t : Fin 8) (s : State) : State := if s.bt .dist .tilMreqStatus 31 t then s.mailEnd t .busy 0 [] else s

/-! ### Test ports (R442, R466) -/

/-- WS_REGACC, and REGACC of the JTAG port: one access of class DEBUG. -/
def wsRegacc (p : PartId) (write : Bool) (word : BitVec 24) (data : Word) (s : State) : State :=
  if write then (s.regWrite p { cls := .debug } (4 * word.toNat) data true).2
  else (s.regRead p { cls := .debug } (4 * word.toNat) true).2.2

/-- A record in SRAM that has been zeroed. -/
def JRec.zeroed (r : JRec) : JRec := { ht := 0, node := 0, blk := 0, ctx := 0, ty := 0, seq := 0, num := r.num, payload := 0 }

/-- An engine whose memories and objects are zero. -/
def Engine.zeroed (v : Engine) : Engine := { v with imem := [], dmem := [], objs := [], badI := [], badD := [], oneI := [], oneD := [] }

/-- WS_MBIST: with GO, every SRAM is tested and then zeroed; `fail` is the failing memory. It acts only in BLANK or RETURN, in which no
job holds a combiner buffer. -/
def wsMbist (p : PartId) (go : Bool) (fail : Option (BitVec 16)) (s : State) : State :=
  if !go || s.lcState p = 1 || s.lcState p = 2 then s else
  let d : Nat := 2 ^ 30 + (match fail with
    | some m => 2 ^ 29 + m.toNat
    | none => 0)
  let s1 := (enginesOf p).foldl (fun t e => t.modEng e Engine.zeroed) (s.mod p fun q => { q with mbist := BitVec.ofNat 32 d })
  match p with
  | .tsu =>
    let j := s1.tsu.jnl
    { s1 with
      chans := (s1.chans.map fun (x : Nat × Chan) => (x.1, { x.2 with pend := none, win := [] })).filter (·.2 ≠ {})
      tsu := { s1.tsu with jnl := { j with recs := j.recs.map JRec.zeroed } } }
  | .dist =>
    { s1 with chains := (s1.chains.map fun (x : Nat × ChainSlot) => (x.1, { x.2 with acc := [] })).filter (·.2 ≠ {}) }

/-! ### I3C (R465) -/

/-- The management tile of an I3C target, a PCIe endpoint or an xSPI port: tile 7, or tile 0. -/
def mgmtTile (seven : Bool) : Nat := if seven then 7 else 0

/-- I3C_PRIVATE_WRITE: each word is one access. -/
def i3cWrite (seven : Bool) (addr : Word) (words : List Word) (s : State) : State :=
  let t := mgmtTile seven
  let s1 := { s with pkg := { s.pkg with i3cAddr := mset (fun _ => 0) s.pkg.i3cAddr t addr.toNat } }
  (words.zipIdx).foldl (fun u x => (u.regWrite .dist { cls := .i3c, tile := t } (addr.toNat + 4 * x.2) x.1 true).2) s1

/-- I3C_PRIVATE_READ of `n` words: a word whose access does not end with OK is zero (R26). -/
def i3cRead (seven : Bool) (n : Nat) (s : State) : State :=
  let t := mgmtTile seven
  let a := mget (fun _ => 0) s.pkg.i3cAddr t
  let r := (List.range n).foldl (fun (u : List Word × State) i =>
    let x := u.2.regRead .dist { cls := .i3c, tile := t } (a + 4 * i) true
    (u.1 ++ [if x.1 = .ok then x.2.1 else 0], x.2.2)) ([], s)
  let k := r.2.pkg
  let b := (a + 4 * n) % 2 ^ 32
  { r.2 with pkg := { k with i3cAddr := mset (fun _ => 0) k.i3cAddr t b, i3cData := mset (fun _ => []) k.i3cData t r.1 } }

/-! ### The indirect spaces (R40) -/

/-- IDATA_FETCH_DONE for the distributor's journal: the word is there, with the error found at it if any (R419). -/
def journalFetched (err : Option (HbmAt × Bool)) (s : State) : State :=
  match s.jnlFetch with
  | none => s
  | some _ =>
    let s1 := { s with jnlReady := true }
    match err with
    | none => s1
    | some (h, uncorr) => { s1.hbmError h.stack h.ch h.row.toNat uncorr with jnlBad := uncorr }

/-- PATROL_SCRUB: an error at the next location is journalled, counted and acted on (R419). -/
def patrolScrub (err : Option (HbmAt × Bool)) (s : State) : State :=
  if s.fd .dist .hbmCfg 7 0 = 0 then s else
  match err with
  | none => s
  | some (h, uncorr) => s.hbmError h.stack h.ch h.row.toNat uncorr

end Sys2Proof.Machine
end

