-- ==== Sys2Proof/Machine/Lifecycle.lean ====
section
/-!
DEFINITION. Reset, the life-cycle store and the wipe (R45–R48, R425, R441, R444, R461, R468), and what the distributor's package does:
supplies, heat, mesh, boot, housekeeping (R420, R450–R470).
-/
namespace Sys2Proof.Machine

/-! ### The wipe (R47, R207, R378) -/

/-- Every context of an engine STOPPED with registers and PC zero. -/
def State.stopAll (s : State) (e : EngSel) : State :=
  (List.range 16).foldl (fun t c => (t.setPc e c 0).wr e.part .ctxState 0 (ctxInst e c)) s

/-- One engine wiped: IMEM, DMEM, sync objects and every context; its completions are dropped. -/
def State.wipeEngine (s : State) (e : EngSel) : State :=
  { (s.setEng e {}).stopAll e with todo := s.todo.filter fun (d : Deferred) => d.op.eng ≠ e }

/-- The TSU's slots FREE, its wicks unbound, its combiner buffers empty; FENCED ends (R315). -/
def State.wipeTsu (s : State) : State :=
  let s1 := (List.range 16).foldl (fun t c =>
    ((t.wr .tsu .slotState 0 c).wr .tsu .slotJob 0 c).wr .tsu .slotEpoch 0 c) s
  let s2 := if s.fenced then (s1.setF .tsu .hltStatus 31 28 0).setB .tsu .hltStat 5 else s1
  let s3 := s2.wicks.foldl (fun t kv => (t.setWick kv.1 kv.2.unbound).showUnbound kv.1 0) s2
  { s3 with slots := [], chans := [], taper := (0, []), spilled := none }

/-- The distributor's job contexts FREE, its combiner buffers and HBM empty. -/
def State.wipeDist (s : State) : State :=
  { s with
    jobs := [], armGens := [], held := [], ledger := {}, relays := [], gateParts := [], insts := [], rotation := [], chains := [],
    chainCtxs := [], rankNodes := [], jnlFetch := none, jnlReady := false, jnlBad := false }

/-- A strobe queued by an operation that the wipe has discarded stands, and answers nothing (R36, R198). -/
def StrobeReq.orphan (r : StrobeReq) : StrobeReq :=
  match r.kind with
  | .upd pc _ => { r with kind := .upd pc none }
  | _ => r

/-- The wipe of a part (R47). WIPING reads 1 until WIPE_END. -/
def State.wipe (s : State) (p : PartId) : State :=
  let s1 := (enginesOf p).foldl (fun t e => t.wipeEngine e) s
  let s2 := s1.mod p fun q => { q with jnl := {}, strobes := q.strobes.map StrobeReq.orphan }
  let s3 := match p with
    | .tsu => s2.wipeTsu
    | .dist => s2.wipeDist
  s3.setF p .sysLifecycle 8 8 1

/-- WIPE_END: WIPING falls and RESET is the first record (R47, R365). -/
def wipeEnd (p : PartId) (s : State) : State :=
  if !s.wiping p then s else
  let s1 := s.setF p .sysLifecycle 8 8 0
  let l := (s1.part p).lif
  let w := (s1.part p).wipeInfo
  s1.jnl { p := p, blk := 0 } 0x0001
    (pay [(0, 4, l.total (sparseBytes l.base) 24 4), (4, 1, w.1), (5, 1, w.2.1), (6, 1, w.2.2.1), (7, 1, w.2.2.2),
          (8, 6, (s1.calendar p (s1.ht p)).1)])

/-! ### Life-cycle transitions (R46, R441) -/

/-- LCS_ACK: the requested transition is accepted; its wipe begins, a distributor saves its record (R375), and ports follow the
new state (R45, R116). -/
def lcsAck (p : PartId) (s : State) : State :=
  match (s.part p).lcReq with
  | none => s
  | some r =>
    let old := s.lcState p
    let s1 := s.mod p fun q => { q with lcReq := none, lcStore := r.target, wipeInfo := (1, old, r.target, b2n r.force) }
    let s2 := ((s1.setF p .sysLifecycle 1 0 r.target).lifCount p 28 1).wipe p
    let s3 := if p = .dist then s2.lifSave .dist else s2
    s3.portsRecheck p

/-- LCS_ERR or LCS_TIMEOUT: LCS_REQ falls, the state stands, and INTEGRITY is journalled (R441). -/
def lcsFail (p : PartId) (s : State) : State :=
  match (s.part p).lcReq with
  | none => s
  | some r => (s.mod p fun q => { q with lcReq := none }).accessOutcome p r.src (addrOf p .sysLcreq) .integrity 0

/-! ### Reset of the TSU (R425, R444) -/

/-- A part after reset: what its lifetime record and its life-cycle store hold stays (R45, R47, R372), everything else takes its reset
value. -/
def Part.afterReset (q : Part) : Part :=
  { lif := { base := q.lif.base, counts := q.lif.counts, ageing := q.lif.ageing, hot := q.lif.hot, retired := q.lif.retired,
             spares := q.lif.spares, nor := q.lif.nor }
    lcStore := q.lcStore
    wipeInfo := (0, q.lcStore, q.lcStore, 0) }

/-- The node ID and the life-cycle store's state sampled (R45, R444, R468), one more RESETS, and the wipe. -/
def State.sampled (s : State) (p : PartId) (node : Nat) : State :=
  (((s.setF p .sysNode 19 0 node).setF p .sysLifecycle 1 0 (s.part p).lcStore).lifCount p 24 1).wipe p

/-- RST_N released at the TSU. HLT_STATUS.BIN follows its inputs over the reset. -/
def rstTsu (node : BitVec 20) (macrosOk : Bool) (s : State) : State :=
  let bin := s.presentBin
  let s1 := { s with tsu := s.tsu.afterReset, kc := {}, macroBad := !macrosOk, sentRes := [] }
  (s1.sampled .tsu node.toNat).setF .tsu .hltStatus 4 0 bin

/-! ### Reset of the distributor (R457, R461, R468) -/

/-- The bands that the sensors hold stay in view over a reset (TIL_STATUS.BAND is sensed). -/
def State.showBands (s : State) : State := s.pkg.bands.foldl (fun t x => t.setF .dist .tilStatus 31 29 x.2 x.1) s

/-- The package boots: fuses, the PLL's source, the lifetime record, and the boot ROM on tile 0. -/
def State.bootDist (s : State) (f : Fuses) (oscIn norOk : Bool) : State :=
  let pkg : Pkg := { minSvn := f.minSvn.toNat, revoked := f.revoked, bands := s.pkg.bands, perst := s.pkg.perst }
  let s1 := { s with
    dist := s.dist.afterReset, osc := { pllOnOsc := oscIn }, nodes := [], hbm := { bands := s.hbm.bands }, hostBulk := [], mreqs := [],
    pkg := pkg }
  let s2 := ((s1.sampled .dist (8 * f.node.toNat)).lifBoot norOk).showBands
  (s2.setF .dist .oscStatus 2 2 (b2n oscIn)).setF .dist .hkpBoot 7 0 1

/-- RST_N released at the distributor: a package tripped by heat leaves its held reset; one held by its supplies does not (R453, R457). -/
def rstDist (f : Fuses) (oscIn norOk : Bool) (s : State) : State :=
  if s.pkg.pwrFlt then { s with pkg := { s.pkg with rstLow := true } } else s.bootDist f oscIn norOk

/-- A held reset: every port DOWN, every output in its reset state, no save (R457). -/
def State.heldReset (s : State) : State :=
  let pkg := s.pkg
  let s1 := { s with
    dist := s.dist.afterReset, osc := {}, nodes := [], hbm := { bands := s.hbm.bands }, hostBulk := [], mreqs := [],
    pkg := { pwrFlt := pkg.pwrFlt, tripped := pkg.tripped, bands := pkg.bands, perst := pkg.perst } }
  (s1.wipe .dist).showBands

/-- SUPPLY_FAULT: a rail has been out of range for 2 µs (R457). -/
def supplyFault (s : State) : State := { s with pkg := { s.pkg with pwrFlt := true } }.heldReset

/-- THERMTRIP: a junction or stack has been too hot for 1 ms (R453). -/
def thermtrip (s : State) : State := { s with pkg := { s.pkg with tripped := true } }.heldReset

/-- HELD_RESET_RELEASE: every rail has been in range for 10 ms and RST_N is high (R457); after a trip RST_N must have been low (R453). -/
def heldRelease (f : Fuses) (oscIn norOk : Bool) (s : State) : State :=
  if s.pkg.pwrFlt && (!s.pkg.tripped || s.pkg.rstLow) then s.bootDist f oscIn norOk else s

/-- HBM_TRAINED: the stacks that trained are in service, and wiped (R47, R468). -/
def hbmTrained (stks : BitVec 24) (s : State) : State :=
  let on := (List.range 24).filter fun k => stks.getLsbD k
  { s with hbm := { s.hbm with trained := on }, chains := [], dist := { s.dist with jnl := {} } }

/-! ### Boot (R469, R470) -/

/-- A candidate is valid (R470). -/
def State.imageValid (s : State) (b : BootImage) : Bool :=
  b.magic == 0x44334D4C#32 && b.length.toNat % 4096 == 0 && decide (b.length.toNat ≤ 16773120)
    && decide (b.key.toNat < 2) && !s.pkg.revoked.testBit b.key.toNat && b.hashOk && decide (s.pkg.minSvn ≤ b.svn.toNat) && b.sigOk

/-- The better of two candidates by SVN, the earlier on a tie. -/
def bestImage (xs : List (Nat × BootImage)) : Option (Nat × BootImage) :=
  xs.foldl (fun m x => match m with
    | some y => if y.2.svn.toNat < x.2.svn.toNat then some x else m
    | none => some x) none

/-- BOOT_ROM: candidates in the order tile 0 slot A, slot B, tile 7 slot A, slot B; none where a device holds none. -/
def bootRom (a0 b0 a7 b7 : Option BootImage) (s : State) : State :=
  let st := s.fd .dist .hkpBoot 7 0
  if st = 0x05 || st = 0xEE then s else
  let found := [(0, a0), (1, b0), (2, a7), (3, b7)].filterMap fun x => x.2.bind fun b => if s.imageValid b then some (x.1, b) else none
  match bestImage found with
  | some x =>
    let s1 := s.wr .dist .hkpBoot (BitVec.ofNat 32 (2 ^ 31 + 0x05))
    { s1 with pkg := { s1.pkg with image := some (x.1, x.2.svn.toNat), kicked := s1.ht .dist } }
  | none =>
    let s1 := s.wr .dist .hkpBoot (BitVec.ofNat 32 (2 ^ 30 + 0xEE))
    { s1 with pkg := { s1.pkg with xspiHiZ := true } }

/-! ### PCIe endpoints (R463) -/

/-- PERST_N resets one endpoint: a completion on its way is discarded; accesses accepted stand. -/
def perst (seven : Bool) (s : State) : State :=
  let t := mgmtTile seven
  let c := if seven then Cls.host2.num else Cls.host.num
  let k := s.pkg
  { (s.mod .dist fun q => { q with resp := mset (fun _ => (0, 0)) q.resp c (0, 0) }) with
    pkg := { k with perst := mset (fun _ => 0) k.perst t (mget (fun _ => 0) k.perst t + 1) } }

/-! ### Heat (R84, R114, R373, R452) -/

/-- Lower bounds of bands 1 to 7, in thousandths of a degree. -/
def bandBounds : List Int := [20000, 40000, 55000, 70000, 80000, 90000, 100000]

/-- The band at a temperature, from the band before: it rises at a bound and falls 2 °C below it (R452). -/
def bandAt (old : Nat) (temp : Int) : Nat :=
  let up := (bandBounds.filter fun b => decide (b ≤ temp)).length
  let stay := (bandBounds.filter fun b => decide (b - 2000 < temp)).length
  max up (min old stay)

/-- A part's or tile's temperature band has changed: its TDC tables are stale and its ports' latency calibrations due (R84, R114). -/
def State.bandChanged (s : State) (p : PartId) (tile : Nat) : State :=
  (s.tdcBandChange p tile).calDue p (if p = .dist then 2 * tile + 1 else 1)

/-- One tile's sample. -/
def State.tileBand (s : State) (t : Nat) (temp : Int) : State :=
  let old := s.fd .dist .tilStatus 31 29 t
  let new := bandAt old temp
  if new = old then s else
  let s1 := (s.setF .dist .tilStatus 31 29 new t).setB .dist .tilStat 0 t
  { s1 with pkg := { s1.pkg with bands := mset (fun _ => 0) s1.pkg.bands t new } }.bandChanged .dist t

/-- One stack's sample. -/
def State.stackBand (s : State) (k : Nat) (temp : Int) : State :=
  { s with hbm := { s.hbm with bands := mset (fun _ => 0) s.hbm.bands k (bandAt (mget (fun _ => 0) s.hbm.bands k) temp) } }

/-- BAND_SAMPLE: the hottest sensor of each tile and the sensor of each stack, in thousandths of a degree. -/
def bandSample (tiles : List (Fin 8 × Int)) (stks : List (Fin 24 × Int)) (s : State) : State :=
  let s1 := tiles.foldl (fun t x => t.tileBand x.1 x.2) s
  let s2 := stks.foldl (fun t x => t.stackBand x.1 x.2) s1
  s2.thermalBand .dist ((List.range 8).foldl (fun m t => max m (s2.fd .dist .tilStatus 31 29 t)) 0)

/-- TEMP_BAND_CHANGE: the TSU's TEMP_BAND input, and the load class of its bin (R84, R114, R327, R373). -/
def tempBandChange (band : Fin 8) (load : Fin 4) (s : State) : State :=
  let old := s.presentBin / 4
  let s1 := s.setF .tsu .hltStatus 4 0 (4 * band.val + load.val)
  if old = band.val then s1 else (s1.bandChanged .tsu 0).thermalBand .tsu band

/-! ### The mesh (R451) -/

/-- Tiles joined by an edge. -/
def meshEdge (t u : Nat) : Bool := (t / 4 == u / 4 && (t + 1 == u || u + 1 == t)) || t + 4 == u || u + 4 == t

/-- TIL_STATUS.MESH_UP of tile `t`. -/
def State.meshUp (s : State) (t : Nat) : Nat := s.fd .dist .tilStatus 7 0 t

/-- MESH_EDGE_DOWN: the bit clears at both ends and one PORT_EVENT is journalled, whose payload the spec leaves open for an edge
(log entry 2). -/
def meshEdgeDown (t u : Fin 8) (s : State) : State :=
  if !meshEdge t u || !s.bt .dist .tilStatus u t then s else
  let r := ((s.setF .dist .tilStatus u u 0 t).setF .dist .tilStatus t t 0 u).draw
  r.2.jnl { p := .dist, tile := t, blk := 20 } 0x0300 (pay [(0, 5, r.1.toNat)])

/-- MESH_EDGE_UP: training has succeeded; the tiles' ports follow R116 again. -/
def meshEdgeUp (t u : Fin 8) (s : State) : State :=
  if !meshEdge t u then s else
  let s1 := (s.setF .dist .tilStatus u u 1 t).setF .dist .tilStatus t t 1 u
  let k := s1.pkg
  { s1 with pkg := { k with isolated := k.isolated.filter fun (x : Nat) => x ≠ t.val ∧ x ≠ u.val } }.portsRecheck .dist

/-- MESH_ISOLATION: a tile with no edge up for 1 ms takes its ports to DOWN. -/
def meshIsolation (t : Fin 8) (s : State) : State :=
  if s.meshUp t ≠ 0 then s else
  let k := s.pkg
  let s1 := { s with pkg := { k with isolated := (k.isolated.filter fun (x : Nat) => x ≠ t.val) ++ [t.val] } }
  (portNums .dist).foldl (fun w n => if portTile n = t then w.portTo .dist n 0 else w) s1

/-! ### Housekeeping (R420) -/

/-- HKP_WATCHDOG_EXPIRY: WDOG ms have passed since the active processor's last kick; with no standby left it stays, and
before firmware starts none takes over (R473). -/
def watchdogExpiry (s : State) : State :=
  if !s.firmware then s else
  let s1 := (s.reach .dist (s.pkg.kicked + BitVec.ofNat 64 (256000000 * s.fd .dist .hkpCfg 15 0))).setB .dist .hkpStat 2
  (s1.hkpTakeover 4).getD (s1.noSpare .dist s1.hkpActive 4 0 s1.hkpActive 4 0)

end Sys2Proof.Machine
end

