-- ==== Sys2Proof/Machine/RowOps.lean ====
section
/-!
DEFINITION. What the commands' meanings share beyond their families' files: accesses at a named register, hearing a far end, relaying a frame
to a member, and the instructions whose meaning differs between the TSU and a lantern tile.
-/
namespace Sys2Proof.Machine

/-! ### Accesses at a register -/

/-- A write of the whole word of a register. -/
def State.writeAt (s : State) (p : PartId) (src : Src) (n : RegName) (i j : Nat) (v : Word) : State :=
  (s.regWrite p src (addrOf p n i j) v true).2

/-- A read of the whole word of a register. -/
def State.readAt (s : State) (p : PartId) (src : Src) (n : RegName) (i j : Nat) : State :=
  (s.regRead p src (addrOf p n i j) true).2.2

/-- The *_IADDR register of an indirect space. -/
def iaddrReg : IndSpace → RegName
  | .kpr => .kprIaddr
  | .jnl => .jnlIaddr
  | .lif => .lifIaddr

/-- The *_IDATA register of an indirect space. -/
def idataReg : IndSpace → RegName
  | .kpr => .kprIdata
  | .jnl => .jnlIdata
  | .lif => .lifIdata

/-- A fetch completes (R40); a keeper's word reaches the core as RDATA does. -/
def fetchDone (d : FetchDone) (s : State) : State :=
  match d with
  | .journal err => journalFetched err s
  | .keeper v => if s.kc.fetching.isSome then { s with kc := { s.kc with ready := true, data := v, fetching := none } } else s

/-- Byte address of word `w` of an object in the object window (R192, R385, R407). -/
def objAddr (e : EngSel) (obj : Fin 8192) (w : Fin 4) : Nat := winBase e.tileNo + 0x300000 + 16 * obj.val + 4 * w.val

/-- The slope of the OCXO that the loop has learned (AGEING of R372). -/
def State.takeSlope (s : State) (slope : Option Int) : State :=
  match slope with
  | some x => s.modLif .dist fun l => { l with ageing := x }
  | none => s

/-! ### Links -/

/-- A flit or frame whose CRC is good is heard (R305). -/
def State.heard (s : State) (port : Port) (crcOk : Bool) : State := if crcOk then s.hear port.part port.num else s

/-- A GATE or CMB frame (R308). -/
def contributes (f : Frame) : Bool := f.cls == 4 || (f.cls == 2 && f.ty == 0x20)

/-- FRAME_RECEIVE: the link layer takes the frame, and a detector hears its node (R101–R108, R305, R308, R310). -/
def frameArrives (port : Port) (express : Bool) (hdr body : List Byte) (crc : Word) (tdec : Int) (place : Nat) (s : State) : State :=
  let p := port.part
  let n := port.num
  let s1 := s.heard port (crc32 (hdr ++ body) == crc)
  let s2 := s1.frameIn p n express hdr body crc tdec place fun f => p = .dist && s.fencedDrop n f.cls f.ty
  if p = .dist && s1.dist.delivered.length < s2.dist.delivered.length then
    match s2.dist.delivered.getLast? with
    | some d => if contributes d.frame then s2.nodeContributed n else s2
    | none => s2
  else s2

/-! ### Relayed frames (R307, R319) -/

/-- A frame to a member passes a leaf or pod root. One whose epoch is not the job's there is dropped, unless `newer` admits a newer one;
`learn` says whether the relay takes its epoch, and the member it is for. -/
def State.relay (s : State) (q : RelayTo) (newer : Bool) (learn : Option (Option Nat)) (f : Frame) : State :=
  let stale := match s.relays.find? fun x => x.1 == f.handle with
    | some x => x.2.gen == f.gen && s.relayEpoch x.2 ≠ f.epoch && !(newer && epochNewer f.epoch (s.relayEpoch x.2))
    | none => false
  if stale then s.staleDrop else
  let s1 := match learn with
    | some n => s.relayLearn f.handle f.gen f.epoch q.root.toNat n
    | none => s
  s1.pass (.node q.node.toNat) { f with origin := q.origin }

/-- A relayed PHASE frame also tells which node holds its rank (log entry 16), and the epoch that its tick brings (R271, R319). -/
def State.relayPhase (s : State) (q : RelayTo) (f : Frame) (rank : Nat) : State :=
  let keep := s.rankNodes.filter fun x => !(x.1 == f.handle && x.2.1 == rank)
  ({ s with rankNodes := (f.handle, rank, q.node.toNat) :: keep }.relay q true none f).relayComing f.handle f.gen
    (BitVec.ofNat 64 (f.fields.headD 0)) f.epoch

/-- A relayed SHADOW_ON or SHADOW_OFF: a shadow is no member below the relay, an admitted node is one (R322, R326). -/
def State.relayShadow (s : State) (q : RelayTo) (out in_ : Bool) (f : Frame) : State :=
  let n := q.node.toNat
  let change (x : Nat × Relay) : Nat × Relay :=
    if x.1 ≠ f.handle then x
    else
      let ms := x.2.members.filter fun m => m ≠ n
      (x.1, { x.2 with members := if out then ms else if in_ then ms ++ [n] else x.2.members })
  { s with relays := s.relays.map change }.relay q false none f

/-! ### Instructions -/

/-- WINDOW in a lantern tile: no slot of it is RUNNING or GATED, so it ends with STATE, but after the other checks of R249 and that of g30 (R8, R236). -/
def State.windowTile (s : State) (t : Fin 8) (c obj a : Nat) (k : DWord) (target : HT) (pc : Nat) : Ends :=
  let e : EngSel := .tile t
  s.async e c 0x39 0 pc obj ((s.jobOf e c).getD 0) a [] false ((s.jobOf e c).isNone || decide (2 ^ 32 ≤ k.toNat) || noSign target (s.ht .dist))
    false true false
    fun _ u => u

/-- ILLEGAL: a context issues a word that spells no instruction (R214, R217). A word that spells one is that instruction's command. -/
def illegalWord (x : CtxRef) (word : Word) (s : State) : State :=
  if (decodeWord x word).isSome then s else s.issue x word false 0x01 fun _ => .done s

/-- IFETCH: a fetch at or beyond the IWIN size, or of a word with a stored double-bit error (R203, R204). -/
def fetchFault (x : CtxRef) (s : State) : State :=
  let pc := s.pc x.eng x.ctx
  let at_ := s.iwinBase x.eng x.ctx + pc
  let out := decide (s.iwinSize x.eng x.ctx ≤ pc)
  if out || (s.eng x.eng).badI.contains at_ then
    s.issue x (if out then 0 else mget (fun _ => 0) (s.eng x.eng).imem at_) false 0 fun _ => .done s
  else s

end Sys2Proof.Machine
end

