-- ==== Sys2Proof/Machine/RowsCombiner.lean ====
section
/-!
DEFINITION. Meanings of the commands of gate and reduction frames (R262–R265, R279–R302): one definition for each row of the opcode table.
-/
namespace Sys2Proof.Machine

/-- GATE_FRAME (R262): A leaf or pod root absorbs a member's GATE contribution. -/
def execGateFrame (origin : HT) (handle : BitVec 16) (gen : Byte) (epoch : Word) (status : DWord) (seq : BitVec 16) (n : Byte) (s : State) : Host.Outcome State Fault Refusal :=
  .next (Machine.gateFrame origin handle gen epoch status seq n s)

/-- GATE_PART (R262): A merged gate partial is received from below. -/
def execGatePart (handle : BitVec 16) (gen : Byte) (epoch : Word) (or_ and_ : DWord) (count : Word) (seq : BitVec 16) (s : State) : Host.Outcome State Fault Refusal :=
  .next (Machine.gatePart handle gen epoch or_ and_ count seq s)

/-- GATE_DEADLINE (R265): The gate deadline passes and missing members are reported for SUSPECT. -/
def execGateDeadline (k : Fin 1024) (missing : List (BitVec 20)) (s : State) : Host.Outcome State Fault Refusal :=
  .next (Machine.gateDeadline k missing s)

/-- CONTRIB_FRAME (R283): A leaf absorbs a member's raw contribution, or spills the instance. -/
def execContribFrame (origin : HT) (handle : BitVec 16) (gen : Byte) (epoch : Word) (seq : BitVec 16) (coll : Bool) (idx : Fin 4) (shape : Word) (nspill : Byte) (spill : DWord) (rank : BitVec 20) (first : Byte) (elems : List DWord) (last check : Bool) (s : State) : Host.Outcome State Fault Refusal :=
  .next (Machine.contribFrame origin handle gen epoch seq coll idx shape nspill spill rank first elems last check s)

/-- PARTIAL (R286): A partial from below is merged exactly into the instance. -/
def execPartialFrame (handle : BitVec 16) (gen : Byte) (epoch : Word) (seq : BitVec 16) (coll : Bool) (idx : Fin 4) (shape : Word) (nspill : Byte) (spill : DWord) (poison integrity : Bool) (first : Byte) (elems : List WElem) (contributors : BitVec 20) (last check : Bool) (s : State) : Host.Outcome State Fault Refusal :=
  .next (Machine.partialFrame handle gen epoch seq coll idx shape nspill spill poison integrity first elems contributors last check s)

/-- RESULT_FRAME (R301): A member receives reduction results and holds them in its result store. -/
def execResultFrame (handle : BitVec 16) (gen : Byte) (epoch : Word) (coll : Bool) (seq : BitVec 16) (idx : Fin 4) (last : Bool) (data : List Byte) (s : State) : Host.Outcome State Fault Refusal :=
  .next (Machine.resultFrame handle gen epoch coll seq idx last data s)

/-- SCAN_RESULT (R290): A member receives its SCAN prefixes and totals. -/
def execScanResult (handle : BitVec 16) (gen : Byte) (epoch : Word) (coll : Bool) (seq : BitVec 16) (idx : Fin 4) (last : Bool) (data : List Byte) (s : State) : Host.Outcome State Fault Refusal :=
  .next (Machine.resultFrame handle gen epoch coll seq idx last data s)

/-- SPILL_IN (R297): A combiner TSU absorbs a spilled contribution or refuses with BUSY. -/
def execSpillIn (port : Fin 4) (handle : BitVec 16) (gen : Byte) (epoch : Word) (seq : BitVec 16) (coll : Bool) (idx : Fin 4) (shape : Word) (nspill : Byte) (spill : DWord) (rank : BitVec 20) (first : Byte) (elems : List DWord) (last : Bool) (contributors : BitVec 20) (check : Bool) (s : State) : Host.Outcome State Fault Refusal :=
  .next (Machine.spillIn port handle gen epoch seq coll idx shape nspill spill rank first elems last contributors check s)

/-- SPILL_OUT (R298): A leaf receives a spilled partial and forwards it, or falls back. -/
def execSpillOut (node : BitVec 20) (handle : BitVec 16) (gen : Byte) (epoch : Word) (seq : BitVec 16) (coll : Bool) (idx : Fin 4) (code : Code) (poison integrity : Bool) (first : Byte) (elems : List WElem) (last check : Bool) (s : State) : Host.Outcome State Fault Refusal :=
  .next (Machine.spillOut node handle gen epoch seq coll idx code poison integrity first elems last check s)

/-- SPILL_TIMEOUT (R298): SPILL_TO passes without a final SPILL_OUT or next SPILL_IN and the instance is combined locally or discarded. -/
def execSpillTimeout (p : PartId) (t : Fin 8) (check : Bool) (s : State) : Host.Outcome State Fault Refusal :=
  .next (Machine.spillTimeout p t check s)

/-- QUEUE_GRANT (R296): A waiting instance is granted a free lane group and its contributions stream in. -/
def execQueueGrant (t : Fin 8) (check : Bool) (s : State) : Host.Outcome State Fault Refusal :=
  .next (Machine.queueGrant t check s)

end Sys2Proof.Machine
end

