-- ==== Sys2Proof/Machine/RowsEngine.lean ====
section
/-!
DEFINITION. Meanings of the commands of the step engine (R193–R212, R239): one definition for each row of the opcode table.
-/
namespace Sys2Proof.Machine

/-- SEN_CTRL_EN (R201): Writing SEN_CTRL.EN starts or stops the engine clock PLL. -/
def execSenCtrlEn (e : EngSel) (src : Src) (en : Bool) (s : State) : Host.Outcome State Fault Refusal :=
  .next (s.writeAt e.part src .senCtrl e.tileNo 0 (BitVec.ofNat 32 (b2n en)))

/-- PLL_LOCK (R201): The engine PLL locks and PLL_LOCK reads 1. -/
def execPllLock (e : EngSel) (s : State) : Host.Outcome State Fault Refusal :=
  .next (Machine.pllLock e s)

/-- SCRUB_READ (R204): The scrubber reads the next word, correcting or journalling its errors. -/
def execScrubRead (e : EngSel) (upsets : List Upset) (s : State) : Host.Outcome State Fault Refusal :=
  .next (Machine.scrubRead e upsets s)

/-- CTX_START (R206): START moves a STOPPED context to RUNNING. -/
def execCtxStart (e : EngSel) (c : Fin 16) (src : Src) (s : State) : Host.Outcome State Fault Refusal :=
  .next (s.writeAt e.part src .ctxCmd (16 * e.tileNo + c.val) 0 1)

/-- CTX_STOP (R206): STOP moves a context to STOPPING or STOPPED and abandons a wait. -/
def execCtxStop (e : EngSel) (c : Fin 16) (src : Src) (s : State) : Host.Outcome State Fault Refusal :=
  .next (s.writeAt e.part src .ctxCmd (16 * e.tileNo + c.val) 0 2)

/-- CTX_CLEAR (R206): CLEAR moves a FAULTED context to STOPPED with CAUSE 0. -/
def execCtxClear (e : EngSel) (c : Fin 16) (src : Src) (s : State) : Host.Outcome State Fault Refusal :=
  .next (s.writeAt e.part src .ctxCmd (16 * e.tileNo + c.val) 0 3)

/-- CTX_STEP (R206): STEP issues one instruction or one prefix chain of a STOPPED context. -/
def execCtxStep (e : EngSel) (c : Fin 16) (src : Src) (s : State) : Host.Outcome State Fault Refusal :=
  .next (s.writeAt e.part src .ctxCmd (16 * e.tileNo + c.val) 0 4)

/-- STOP_COMPLETE (R207): A STOPPING context's last issued instruction completes and it becomes STOPPED. -/
def execStopComplete (e : EngSel) (c : Fin 16) (s : State) : Host.Outcome State Fault Refusal :=
  .next (Machine.stopComplete e c s)

/-- IMEM_WINDOW_WRITE (R210): A write to the IMEM window stores an instruction word unless a live context's IWIN covers it. -/
def execImemWindowWrite (e : EngSel) (src : Src) (word : BitVec 18) (v : Word) (s : State) : Host.Outcome State Fault Refusal :=
  .next ((s.regWrite e.part src (winBase e.tileNo + 4 * word.toNat) v true).2)

/-- DMEM_WINDOW_WRITE (R210): A write to the DMEM window stores data, merging partial ECC words. -/
def execDmemWindowWrite (e : EngSel) (src : Src) (word : BitVec 18) (v : Word) (s : State) : Host.Outcome State Fault Refusal :=
  .next ((s.regWrite e.part src (winBase e.tileNo + 0x100000 + 4 * word.toNat) v true).2)

/-- CONTEXT_REGISTER_WINDOW_WRITE (R211): A write to the context register window sets a register of a stopped context. -/
def execContextRegisterWindowWrite (e : EngSel) (src : Src) (word : BitVec 11) (v : Word) (s : State) : Host.Outcome State Fault Refusal :=
  .next ((s.regWrite e.part src (winBase e.tileNo + 0x200000 + 4 * word.toNat) v true).2)

/-- ASYNC_COMPLETION (R239): An asynchronous operation completes, writing its record and signalling its completion object. -/
def execAsyncCompletion (e : EngSel) (s : State) : Host.Outcome State Fault Refusal :=
  .next (Machine.asyncNext e s)

end Sys2Proof.Machine
end

