-- ==== Sys2Proof/Machine/RowsFrame.lean ====
section
/-!
DEFINITION. Meanings of the commands of the job frames (R240, R252–R277, R352): one definition for each row of the opcode table.
-/
namespace Sys2Proof.Machine

/-- JOBCMD (R240): The job root receives a forwarded job command and carries it out in origin-HT order. -/
def execJobcmd (origin : HT) (node : BitVec 20) (handle : BitVec 16) (gen : Byte) (epoch : Word) (opcode sub : Nat) (operand tick : DWord) (tag : Fin 8) (s : State) : Host.Outcome State Fault Refusal :=
  .next (Machine.jobcmd origin node handle gen epoch opcode sub operand tick tag s)

/-- JOBCMD_DONE (R240): A member receives the job root's outcome of a forwarded command. -/
def execJobcmdDone (handle : BitVec 16) (gen : Byte) (epoch : Word) (tag : Fin 8) (code : Code) (value : DWord) (late : Word) (s : State) : Host.Outcome State Fault Refusal :=
  .next (Machine.jobcmdDone handle gen epoch tag code value late s)

/-- ARM_REQ (R259): A job root receives an ARM_REQ and holds it for ordered action. -/
def execArmReq (origin : HT) (node root : BitVec 20) (handle : BitVec 16) (gen : Byte) (rank : BitVec 20) (earliest : HT) (leaf : BitVec 20) (v3 : Bool) (s : State) : Host.Outcome State Fault Refusal :=
  .next (Machine.armReq origin node root handle gen rank earliest leaf v3 s)

/-- ORDER_HOLD_RELEASE (R260): A held ARM_REQ, RELEASE_REQ or RAMP_REQ passes ORIGIN_HT + ORDER_HOLD and is acted on. -/
def execOrderHoldRelease (s : State) : Host.Outcome State Fault Refusal :=
  .next (Machine.orderHoldRelease  s)

/-- ARM_TIMEOUT (R259): ARM_TO passes before every rank matches and the arm ends with BUSY. -/
def execArmTimeout (k : Fin 1024) (s : State) : Host.Outcome State Fault Refusal :=
  .next (Machine.armTimeout k s)

/-- ARM_ACK (R254): A member's slot becomes ARMED and its ARM completes with L and PRE. -/
def execArmAck (dst : Option RelayTo) (handle : BitVec 16) (gen : Byte) (epoch : Word) (l : HT) (floor : BitVec 4) (pre : Word) (s : State) : Host.Outcome State Fault Refusal :=
  .next (match dst with
    | none => armAckTsu handle gen epoch l floor pre s
    | some q => s.relay q true (some (some q.node.toNat)) { cls := 2, ty := 0x11, handle := handle.toNat, gen := gen.toNat, epoch := epoch.toNat, fields := [l.toNat, floor.toNat, pre.toNat] })

/-- ARM_REFUSE (R254): A member's ARM completes with the refusal code and the slot stays FREE. -/
def execArmRefuse (handle : BitVec 16) (gen : Byte) (code : Code) (s : State) : Host.Outcome State Fault Refusal :=
  .next (Machine.armRefuse handle gen code s)

/-- RELEASE_REQ (R275): A leaf forwards a release request and holds it to assign a release tick. -/
def execReleaseReq (origin : HT) (node : BitVec 20) (handle : BitVec 16) (gen : Byte) (rank : BitVec 20) (s : State) : Host.Outcome State Fault Refusal :=
  .next (Machine.releaseFrame origin node handle gen rank s)

/-- RELEASE_AT (R275): A member receives its release tick F. -/
def execReleaseAt (handle : BitVec 16) (gen : Byte) (epoch : Word) (f : HT) (s : State) : Host.Outcome State Fault Refusal :=
  .next (Machine.releaseAt handle gen epoch f s)

/-- RELEASE_TICK (R275): The later of F and the end of the balance check frees the slot and completes RELEASE. -/
def execReleaseTick (c : Fin 16) (s : State) : Host.Outcome State Fault Refusal :=
  .next (Machine.releaseTick c s)

/-- RELEASE_AT_TIMEOUT (R275): No RELEASE_AT within 1 ms frees the slot at once with UNSCHED. -/
def execReleaseAtTimeout (c : Fin 16) (s : State) : Host.Outcome State Fault Refusal :=
  .next (Machine.releaseAtTimeout c s)

/-- LAUNCH_FRAME (R267): A member accepts a LAUNCH frame, arms its triggers and completes an open GATE. -/
def execLaunchFrame (handle : BitVec 16) (gen : Byte) (epoch : Word) (l : HT) (gateSeq : BitVec 16) (forGate : Bool) (resSeq : BitVec 16) (status : DWord × DWord × Nat) (s : State) : Host.Outcome State Fault Refusal :=
  .next (
    let t := launchTsu handle gen epoch l gateSeq forGate resSeq status s
    (match t.slotOfHandle handle.toNat with
     | some c => t.signalOpen c
     | none => t))

/-- LAUNCH_INSTANT (R254): Instant L is reached and the slot changes state and writes a launch record. -/
def execLaunchInstant (j : JobAt) (s : State) : Host.Outcome State Fault Refusal :=
  .next (match j with
    | .slot c => launchTick c s
    | .root k => s.rootInstant k.val)

/-- ABORT (R254): An ABORT moves a GATED slot to REPLAN. -/
def execAbort (handle : BitVec 16) (gen : Byte) (epoch : Word) (s : State) : Host.Outcome State Fault Refusal :=
  .next (abortFrame handle gen epoch s)

/-- REPLAN (R318): A REPLAN frame with a newer epoch moves the slot to REPLAN. -/
def execReplan (dst : Option RelayTo) (handle : BitVec 16) (gen : Byte) (epoch : Word) (dom : Fin 2) (s : State) : Host.Outcome State Fault Refusal :=
  .next (match dst with
    | none => replanTsu handle gen epoch dom s
    | some q => s.relay q true (some none) { cls := 2, ty := 0x31, handle := handle.toNat, gen := gen.toNat, epoch := epoch.toNat, fields := [epoch.toNat, dom.val] })

/-- PHASE_FRAME (R271): A member receives a new map index, rank and switch tick. -/
def execPhaseFrame (dst : Option RelayTo) (handle : BitVec 16) (gen : Byte) (epoch : Word) (t : HT) (map : Fin 16) (rank : BitVec 20) (s : State) : Host.Outcome State Fault Refusal :=
  .next (match dst with
    | none => phaseTsu handle gen epoch t map rank s
    | some q => s.relayPhase q { cls := 2, ty := 0x30, handle := handle.toNat, gen := gen.toNat, epoch := epoch.toNat, fields := [t.toNat, map.val, rank.toNat] } rank.toNat)

/-- PHASE_TICK (R271): The PHASE tick is reached and the new map and epoch take effect. -/
def execPhaseTick (j : JobAt) (s : State) : Host.Outcome State Fault Refusal :=
  .next (match j with
    | .slot c => Machine.phaseTick c s
    | .root k => s.rootPhaseTick k.val)

/-- RESTORE (R352): A RESTORE message sets the gate sequence and schedules REPLAY at T_R. -/
def execRestore (handle : BitVec 16) (gen : Byte) (epoch : Word) (tr : HT) (gateSeq : BitVec 16) (s : State) : Host.Outcome State Fault Refusal :=
  .next (Machine.restoreFrame handle gen epoch tr gateSeq s)

/-- REPLAY_END (R254): A REPLAY_END returns the slot to RUNNING from the named tick. -/
def execReplayEnd (handle : BitVec 16) (gen : Byte) (epoch : Word) (tick : HT) (s : State) : Host.Outcome State Fault Refusal :=
  .next (Machine.replayEnd handle gen epoch tick s)

/-- RAMP_REQ (R273): A leaf receives a ramp request and holds it for ordered action. -/
def execRampReq (origin : HT) (node : BitVec 20) (handle : BitVec 16) (e : HT) (plw : BitVec 16) (span : Byte) (pre : Bool) (ranks : List (BitVec 20)) (s : State) : Host.Outcome State Fault Refusal :=
  .next (Machine.rampReq origin node handle e plw span pre ranks s)

/-- RAMP_OFFER (R273): The job root collects offers and sends RAMP_FIX with the largest. -/
def execRampOffer (handle : BitVec 16) (leaf : BitVec 20) (offer : Sum HT Code) (s : State) : Host.Outcome State Fault Refusal :=
  .next (Machine.rampOffer handle leaf offer s)

/-- RAMP_FIX (R273): A leaf recomputes at the fixed L and confirms or offers later. -/
def execRampFix (handle : BitVec 16) (l : HT) (s : State) : Host.Outcome State Fault Refusal :=
  .next (Machine.rampFix handle l s)

/-- RAMP_CONFIRM (R273): The job root receives confirmations and completes planning. -/
def execRampConfirm (handle : BitVec 16) (leaf : BitVec 20) (l : HT) (pre : List (Nat × Nat)) (s : State) : Host.Outcome State Fault Refusal :=
  .next (Machine.rampConfirm handle leaf l pre s)

/-- RAMP_HOLD_LAPSE (R273): A ramp hold that no fix reaches within 1 ms lapses. -/
def execRampHoldLapse (handle : BitVec 16) (s : State) : Host.Outcome State Fault Refusal :=
  .next (Machine.rampHoldLapse handle s)

/-- T_R_REACHED (R352): At tick T_R a member that has received RESTORE enters REPLAY under R254. -/
def execTRReached (j : JobAt) (s : State) : Host.Outcome State Fault Refusal :=
  .next (match j with
    | .slot c => trReached c s
    | .root k => s.rootTr k.val)

end Sys2Proof.Machine
end

