-- ==== Sys2Proof/Machine/RowsJobIsa.lean ====
section
/-!
DEFINITION. Meanings of the commands of step and collective instructions (R214, R217, R244–R250): one definition for each row of the opcode table.
-/
namespace Sys2Proof.Machine

/-- ARM (R246): Arm a job slot or create a job context. -/
def execArm (x : CtxRef) (obj : Fin 8192) (a : Fin 32) (timed : Bool) (td : Fin 8) (s : State) : Host.Outcome State Fault Refusal :=
  .next (s.issue x (wFO 0x30 obj a (b2n timed + 2 * td)) false 0 fun pc =>
    match x.eng with
    | .tsu => s.armTsu x.ctx obj a (s.g x.eng x.ctx a).toNat (if timed then some (s.t x.eng x.ctx td) else none) pc
    | .tile t => s.armRoot t x.ctx obj a (s.g x.eng x.ctx a).toNat (if timed then some (s.t x.eng x.ctx td) else none) pc)

/-- RELEASE (R246): Release a job slot into DRAINING. -/
def execRelease (x : CtxRef) (obj : Fin 8192) (a : Fin 32) (s : State) : Host.Outcome State Fault Refusal :=
  .next (s.issue x (wFO 0x31 obj a 0) false 0 fun pc =>
    match x.eng with
    | .tsu => s.releaseTsu x.ctx obj a pc
    | .tile t => s.releaseRoot t x.ctx obj a pc)

/-- GATE (R246): Open a step gate with up to four reductions. -/
def execGate (x : CtxRef) (obj : Fin 8192) (a : Fin 32) (n : Fin 8) (s : State) : Host.Outcome State Fault Refusal :=
  .next (s.issue x (wFO 0x32 obj a n) false 0 fun pc =>
    match x.eng with
    | .tsu => s.gateTsu x.ctx obj a (s.g x.eng x.ctx a).toNat n pc
    | .tile t => s.gateRoot t x.ctx obj a (s.g x.eng x.ctx a).toNat n pc)

/-- CONTRIB (R246): Contribute one standalone reduction. -/
def execContrib (x : CtxRef) (obj : Fin 8192) (a : Fin 32) (s : State) : Host.Outcome State Fault Refusal :=
  .next (s.issue x (wFO 0x33 obj a 0) false 0 fun pc =>
    match x.eng with
    | .tsu => s.contribTsu x.ctx obj a (s.g x.eng x.ctx a).toNat pc
    | .tile t => s.contribRoot t x.ctx obj a (s.g x.eng x.ctx a).toNat pc)

/-- RESULT (R248): Read a completion record and its results. -/
def execResult (x : CtxRef) (d a b : Fin 32) (td : Option (Fin 8)) (s : State) : Host.Outcome State Fault Refusal :=
  .next (s.issue x (wF3 0x34 d a b (resultFn td)) false 0 fun pc => s.resultInstr x d a b td pc)

/-- LAUNCH (R246): Job command that sends a launch for a tick. -/
def execLaunch (x : CtxRef) (a : Fin 32) (ta : Fin 8) (obj : Fin 8192) (s : State) : Host.Outcome State Fault Refusal :=
  .next (s.issue x (wFT 0x35 0 ta a obj) false 0 fun pc =>
    match x.eng with
    | .tsu => s.jobCmdTsu x.ctx 0x35 0 pc obj a (noSign (s.t x.eng x.ctx ta) (s.ht x.eng.part)) 0 (ceilTick (s.t x.eng x.ctx ta))
    | .tile t => s.jobCmdTile t x.ctx 0x35 0 pc obj a (noSign (s.t x.eng x.ctx ta) (s.ht x.eng.part)) 0 (ceilTick (s.t x.eng x.ctx ta)))

/-- PHASE (R246): Job command that switches the phase map at a tick. -/
def execPhase (x : CtxRef) (a : Fin 32) (ta : Fin 8) (obj : Fin 8192) (s : State) : Host.Outcome State Fault Refusal :=
  .next (s.issue x (wFT 0x36 0 ta a obj) false 0 fun pc =>
    match x.eng with
    | .tsu => s.jobCmdTsu x.ctx 0x36 0 pc obj a (decide (16 ≤ (s.g x.eng x.ctx a).toNat) || noSign (s.t x.eng x.ctx ta) (s.ht x.eng.part)) (s.g x.eng x.ctx a) (ceilTick (s.t x.eng x.ctx ta))
    | .tile t => s.jobCmdTile t x.ctx 0x36 0 pc obj a (decide (16 ≤ (s.g x.eng x.ctx a).toNat) || noSign (s.t x.eng x.ctx ta) (s.ht x.eng.part)) (s.g x.eng x.ctx a) (ceilTick (s.t x.eng x.ctx ta)))

/-- PLAN (R246): Plan the earliest launch tick that fits every leaf's ramp budget. -/
def execPlan (x : CtxRef) (a : Fin 32) (ta : Fin 8) (obj : Fin 8192) (s : State) : Host.Outcome State Fault Refusal :=
  .next (s.issue x (wFT 0x37 0 ta a obj) false (if x.eng = .tsu then 0x03 else 0) fun pc =>
    match x.eng with
    | .tsu => .done s
    | .tile t => s.planInstr t x.ctx obj a (s.t x.eng x.ctx ta) pc)

/-- SNAP (R249): Request or set up a checkpoint epoch. -/
def execSnap (x : CtxRef) (obj : Fin 8192) (a : Fin 32) (s : State) : Host.Outcome State Fault Refusal :=
  .next (s.issue x (wFO 0x38 obj a 0) false 0 fun pc =>
    match x.eng with
    | .tsu => s.snapTsu x.ctx obj a (s.g x.eng x.ctx a).toNat pc
    | .tile t => s.snapLeaf t x.ctx obj a (s.g x.eng x.ctx a).toNat pc)

/-- WINDOW (R249): Open a checkpoint window at a tick. -/
def execWindow (x : CtxRef) (a : Fin 32) (ta : Fin 8) (obj : Fin 8192) (s : State) : Host.Outcome State Fault Refusal :=
  .next (s.issue x (wFT 0x39 0 ta a obj) false 0 fun pc =>
    match x.eng with
    | .tsu => s.windowTsu x.ctx obj a (s.g x.eng x.ctx a) (s.t x.eng x.ctx ta) pc
    | .tile t => s.windowTile t x.ctx obj a (s.g x.eng x.ctx a) (s.t x.eng x.ctx ta) pc)

/-- COMMIT (R350): Run the two-phase commit of an epoch slot at the job root. -/
def execCommit (x : CtxRef) (obj : Fin 8192) (a : Fin 32) (s : State) : Host.Outcome State Fault Refusal :=
  .next (s.issue x (wFO 0x3A obj a 0) false (if x.eng = .tsu then 0x03 else 0) fun pc =>
    match x.eng with
    | .tsu => .done s
    | .tile t => s.commitRoot t x.ctx obj a (s.g x.eng x.ctx a) pc)

/-- REBUILD (R352): Coordinate or perform a rebuild of erased ranks. -/
def execRebuild (x : CtxRef) (obj : Fin 8192) (a : Fin 32) (s : State) : Host.Outcome State Fault Refusal :=
  .next (s.issue x (wFO 0x3A obj a 1) false (if x.eng = .tsu then 0x03 else 0) fun pc =>
    match x.eng with
    | .tsu => .done s
    | .tile t => if s.tier = 1 then s.rebuildLeaf t x.ctx obj a (s.g x.eng x.ctx a).toNat pc else s.rebuildRoot t x.ctx obj a (s.g x.eng x.ctx a).toNat pc)

/-- EVICT (R316): Job command that asks the detector to fence a member. -/
def execEvict (x : CtxRef) (obj : Fin 8192) (a : Fin 32) (s : State) : Host.Outcome State Fault Refusal :=
  .next (s.issue x (wFO 0x3B obj a 0) false 0 fun pc =>
    match x.eng with
    | .tsu => s.jobCmdTsu x.ctx 0x3B 0 pc obj a (decide (2 ^ 20 ≤ (s.g x.eng x.ctx a).toNat)) (s.g x.eng x.ctx a) 0
    | .tile t => s.jobCmdTile t x.ctx 0x3B 0 pc obj a (decide (2 ^ 20 ≤ (s.g x.eng x.ctx a).toNat)) (s.g x.eng x.ctx a) 0)

/-- SHADOW_START (R322): Job command that begins shadowing of a node. -/
def execShadowStart (x : CtxRef) (obj : Fin 8192) (a : Fin 32) (s : State) : Host.Outcome State Fault Refusal :=
  .next (s.issue x (wFO 0x3B obj a 1) false 0 fun pc =>
    match x.eng with
    | .tsu => s.jobCmdTsu x.ctx 0x3B 1 pc obj a (decide (2 ^ 40 ≤ (s.g x.eng x.ctx a).toNat)) (s.g x.eng x.ctx a) 0
    | .tile t => s.jobCmdTile t x.ctx 0x3B 1 pc obj a (decide (2 ^ 40 ≤ (s.g x.eng x.ctx a).toNat)) (s.g x.eng x.ctx a) 0)

/-- SHADOW_ADMIT (R326): Job command that makes an eligible shadow admit-pending. -/
def execShadowAdmit (x : CtxRef) (obj : Fin 8192) (a : Fin 32) (s : State) : Host.Outcome State Fault Refusal :=
  .next (s.issue x (wFO 0x3B obj a 2) false 0 fun pc =>
    match x.eng with
    | .tsu => s.jobCmdTsu x.ctx 0x3B 2 pc obj a false (s.g x.eng x.ctx a) 0
    | .tile t => s.jobCmdTile t x.ctx 0x3B 2 pc obj a false (s.g x.eng x.ctx a) 0)

/-- SHADOW_ABANDON (R326): Job command that ends a node's shadowing. -/
def execShadowAbandon (x : CtxRef) (obj : Fin 8192) (a : Fin 32) (s : State) : Host.Outcome State Fault Refusal :=
  .next (s.issue x (wFO 0x3B obj a 3) false 0 fun pc =>
    match x.eng with
    | .tsu => s.jobCmdTsu x.ctx 0x3B 3 pc obj a false (s.g x.eng x.ctx a) 0
    | .tile t => s.jobCmdTile t x.ctx 0x3B 3 pc obj a false (s.g x.eng x.ctx a) 0)

/-- ILLEGAL (R217): A context issues a word with a reserved opcode, fn or sub value, or with a nonzero zero field, and faults with ILLEGAL. -/
def execIllegal (x : CtxRef) (word : Word) (s : State) : Host.Outcome State Fault Refusal :=
  .next (illegalWord x word s)

/-- IFETCH (R203): A context's fetch at a PC at or beyond its IWIN size, or of a word with a double-bit error, faults with IFETCH or IECC. -/
def execIfetch (x : CtxRef) (s : State) : Host.Outcome State Fault Refusal :=
  .next (fetchFault x s)

end Sys2Proof.Machine
end

