-- ==== Sys2Proof/Machine/RowsKeeper.lean ====
section
/-!
DEFINITION. Meanings of the commands of region keepers (R150–R168): one definition for each row of the opcode table.
-/
namespace Sys2Proof.Machine

/-- BEACON (R150): Every 1,024 always-on cycles the TSU emits a beacon, records BHT and sends the BEACON ring frame. -/
def execBeacon (bht : HT) (s : State) : Host.Outcome State Fault Refusal :=
  .next (Machine.beacon bht s)

/-- KEEPER_BEACON_EDGE (R154): At its beacon edge a keeper latches LHT and applies or spreads its correction. -/
def execKeeperBeaconEdge (i : Fin 256) (phi : Int) (n str : Nat) (s : State) : Host.Outcome State Fault Refusal :=
  .next (Machine.keeperBeaconEdge i phi n str s)

/-- KEEPER_TRIGGER_FIRE (R159): A keeper target is reached and KTRG pulses with its firing recorded. -/
def execKeeperTriggerFire (i : Fin 256) (out : Fin 4) (n str : Nat) (s : State) : Host.Outcome State Fault Refusal :=
  .next (Machine.keeperFire i out n str s)

/-- ENUM (R161): A keeper takes its index from ENUM and forwards the incremented count. -/
def execEnum (b : Fin 4) (count : Fin 65) (h : RingHdr) (at_ : EnumAt) (s : State) : Host.Outcome State Fault Refusal :=
  .next (Machine.enumFrame b count h at_ s)

/-- BEACON_FRAME (R151): A keeper labels its beacon and computes D from a BEACON ring frame. -/
def execBeaconFrame (rx : Fin 260) (h : RingHdr) (n : Word) (bht : HT) (s : State) : Host.Outcome State Fault Refusal :=
  .next (Machine.beaconFrame rx h n bht s)

/-- KEEPER_WRITE (R161): A WRITE ring frame writes a keeper word. -/
def execKeeperWrite (rx : Fin 260) (h : RingHdr) (w : Fin 64) (data : Word) (s : State) : Host.Outcome State Fault Refusal :=
  .next (Machine.keeperWrite rx h w data s)

/-- KEEPER_READ (R161): A READ ring frame makes the keeper reply RDATA. -/
def execKeeperRead (rx : Fin 260) (h : RingHdr) (w : Fin 64) (n str : Nat) (s : State) : Host.Outcome State Fault Refusal :=
  .next (Machine.keeperRead rx h w n str s)

/-- TARM (R159): A TARM ring frame arms a keeper target or is refused. -/
def execTarm (rx : Fin 260) (h : RingHdr) (mask : Fin 16) (target : HT) (n str : Nat) (s : State) : Host.Outcome State Fault Refusal :=
  .next (Machine.keeperTarm rx h mask target n str s)

/-- TCAN (R161): A TCAN ring frame discards armed keeper targets. -/
def execTcan (rx : Fin 260) (h : RingHdr) (mask : Fin 16) (s : State) : Host.Outcome State Fault Refusal :=
  .next (Machine.keeperTcan rx h mask s)

/-- FPREP (R163): A keeper holds the prepared frequency change and replies FACK. -/
def execFprep (rx : Fin 260) (h : RingHdr) (k inc : Word) (chgid : Byte) (init : Bool) (s : State) : Host.Outcome State Fault Refusal :=
  .next (Machine.keeperFprep rx h k inc chgid init s)

/-- FCOMMIT (R163): A keeper commits or discards its held change. -/
def execFcommit (rx : Fin 260) (h : RingHdr) (k : Word) (chgid : Byte) (cancel : Bool) (s : State) : Host.Outcome State Fault Refusal :=
  .next (Machine.keeperFcommit rx h k chgid cancel s)

/-- RDATA (R161): A keeper's RDATA report reaches the core and fills KPR_IDATA. -/
def execRdata (rx : Fin 260) (h : RingHdr) (w : Fin 64) (data : Word) (s : State) : Host.Outcome State Fault Refusal :=
  .next (Machine.recvRdata rx h w data s)

/-- FACK (R162): A keeper's FACK reaches the core and is counted. -/
def execFack (rx : Fin 260) (h : RingHdr) (k : Word) (chgid : Byte) (s : State) : Host.Outcome State Fault Refusal :=
  .next (Machine.recvFack rx h k chgid s)

/-- FDONE (R162): A keeper's FDONE reaches the core. -/
def execFdone (rx : Fin 260) (h : RingHdr) (k : Word) (chgid : Byte) (miss : Bool) (s : State) : Host.Outcome State Fault Refusal :=
  .next (Machine.recvFdone rx h k chgid miss s)

/-- TEVT (R159): A keeper's trigger event report reaches the TSU, which records and journals late or refused targets. -/
def execTevt (rx : Fin 260) (h : RingHdr) (cmd : Fin 16) (out : Fin 4) (code : Fin 16) (t : HT) (s : State) : Host.Outcome State Fault Refusal :=
  .next (Machine.recvTevt rx h cmd out code t s)

/-- RING_FRAME_RESEND (R160): A NAK, CRC failure or 32-cycle timeout makes a ring hop resend unacknowledged frames. -/
def execRingFrameResend (hop : Fin 260) (s : State) : Host.Outcome State Fault Refusal :=
  .next (Machine.ringResend hop s)

/-- KPR_CTRL_EN (R165): Writing KPR_CTRL.EN enumerates the keepers and starts beacons, or invalidates LHT. -/
def execKprCtrlEn (src : Src) (en : Bool) (s : State) : Host.Outcome State Fault Refusal :=
  .next (s.writeAt .tsu src .kprCtrl 0 0 (BitVec.ofNat 32 (b2n en)))

/-- KPR_FCMD_GO (R162): Writing GO requests a frequency change at beacon KPR_FAT and broadcasts FPREP. -/
def execKprFcmdGo (src : Src) (init : Bool) (s : State) : Host.Outcome State Fault Refusal :=
  .next (s.writeAt .tsu src .kprFcmd 0 0 (BitVec.ofNat 32 (1 + 2 * b2n init)))

/-- KPR_TAT_HI (R159): A write to KPR_TAT_HI sends TARM to the selected keepers. -/
def execKprTatHi (src : Src) (v : Word) (s : State) : Host.Outcome State Fault Refusal :=
  .next (s.writeAt .tsu src .kprTatHi 0 0 v)

/-- KPR_TCAN (R167): Writing KPR_TCAN.GO sends TCAN to KPR_TSEL. -/
def execKprTcan (src : Src) (v : Word) (s : State) : Host.Outcome State Fault Refusal :=
  .next (s.writeAt .tsu src .kprTcan 0 0 v)

/-- CROSSING_FIFO_OVERRUN (R160): A ring hop's crossing FIFO over- or underruns, discards the frame in transit, sets XSKEW, recentres and answers NAK. -/
def execCrossingFifoOverrun (rx : Fin 260) (s : State) : Host.Outcome State Fault Refusal :=
  .next (Machine.crossingOverrun rx s)

end Sys2Proof.Machine
end

