-- ==== Sys2Proof/Machine/RowsLife.lean ====
section
/-!
DEFINITION. Meanings of the commands of reset, life-cycle, journal spill and lifetime record (R45–R48, R367–R377, R441, R444): one definition for each row of the opcode table.
-/
namespace Sys2Proof.Machine

/-- LCS_ACK (R441): The life-cycle store acknowledges and the transition is accepted and its wipe begins. -/
def execLcsAck (p : PartId) (s : State) : Host.Outcome State Fault Refusal :=
  .next (Machine.lcsAck p s)

/-- LCS_ERR (R441): The store reports an error and LCS_REQ falls with the state unchanged. -/
def execLcsErr (p : PartId) (s : State) : Host.Outcome State Fault Refusal :=
  .next (lcsFail p s)

/-- LCS_TIMEOUT (R441): No LCS_ACK within 10 ms lowers LCS_REQ and journals INTEGRITY. -/
def execLcsTimeout (p : PartId) (s : State) : Host.Outcome State Fault Refusal :=
  .next (lcsFail p s)

/-- WIPE_END (R47): The wipe ends, WIPING falls and the RESET record is written first. -/
def execWipeEnd (p : PartId) (s : State) : Host.Outcome State Fault Refusal :=
  .next (Machine.wipeEnd p s)

/-- RST_N (R444): Release of reset samples fuses and life-cycle state, checks macro versions and wipes. -/
def execRstN (r : ResetAt) (s : State) : Host.Outcome State Fault Refusal :=
  .next (match r with
    | .tsu node macrosOk => rstTsu node macrosOk s
    | .dist f oscIn norOk => rstDist f oscIn norOk s)

/-- FABRIC_COMPLETION (R432): A fabric write completion frees a spilled record or advances a lifetime save. -/
def execFabricCompletion (lifetime err : Bool) (s : State) : Host.Outcome State Fault Refusal :=
  .next (Machine.fabricCompletion lifetime err s)

/-- SPILL_RETRY (R367): A failed journal spill write is repeated every 1 µs. -/
def execSpillRetry (s : State) : Host.Outcome State Fault Refusal :=
  .next (Machine.spillRetry  s)

/-- LIF_CTRL_LOAD (R374): Writing LOAD checks the staged record and adds the counts since power-up. -/
def execLifCtrlLoad (p : PartId) (src : Src) (s : State) : Host.Outcome State Fault Refusal :=
  .next (s.writeAt p src .lifCtrl 0 0 2)

/-- LIF_CTRL_SAVE (R374): Writing SAVE writes the lifetime record now. -/
def execLifCtrlSave (p : PartId) (src : Src) (s : State) : Host.Outcome State Fault Refusal :=
  .next (s.writeAt p src .lifCtrl 0 0 1)

/-- LIF_CTRL_FRESH (R374): Writing FRESH begins a new lifetime history. -/
def execLifCtrlFresh (p : PartId) (src : Src) (s : State) : Host.Outcome State Fault Refusal :=
  .next (s.writeAt p src .lifCtrl 0 0 4)

/-- SAVE_INTERVAL (R375): Every SAVE_INT minutes the lifetime record is saved. -/
def execSaveInterval (p : PartId) (s : State) : Host.Outcome State Fault Refusal :=
  .next (Machine.saveInterval p s)

/-- LIFETIME_SAVE_DONE (R375): A lifetime save completes, or fails with SAVE_FAIL. -/
def execLifetimeSaveDone (p : PartId) (ok : Bool) (s : State) : Host.Outcome State Fault Refusal :=
  .next (Machine.saveDone p ok s)

/-- TREND_UPDATE (R376): Once per second each monitored unit's trend is updated and spare triggers evaluated. -/
def execTrendUpdate (p : PartId) (events : List (TrendUnit × Nat)) (s : State) : Host.Outcome State Fault Refusal :=
  .next (Machine.trendUpdate p events s)

/-- HBM_CHANNEL_MOVE_DONE (R377): The move of an HBM channel's contents to free capacity ends. -/
def execHbmChannelMoveDone (c : Fin 768) (s : State) : Host.Outcome State Fault Refusal :=
  .next (Machine.moveDone c s)

end Sys2Proof.Machine
end

