-- ==== Sys2Proof/Machine/RowsMeasure.lean ====
section
/-!
DEFINITION. Meanings of the commands of interval measurement and fine triggers (R73–R94): one definition for each row of the opcode table.
-/
namespace Sys2Proof.Machine

/-- TDC_EVENT (R74): An accepted edge on a TDC channel is converted and its result queued in the channel FIFO. -/
def execTdcEvent (e : EngSel) (un : Fin 2) (ch : Fin 9) (src : Byte) (raw : Fin 256) (falling : Bool) (k level : Nat) (s : State) : Host.Outcome State Fault Refusal :=
  .next (Machine.tdcEvent e un ch src raw falling k level s)

/-- COARSE_WRAP (R76): The INTERVAL coarse counter wraps and sets the wrap bit and CWRAP. -/
def execCoarseWrap (e : EngSel) (un : Fin 2) (s : State) : Host.Outcome State Fault Refusal :=
  .next (Machine.coarseWrap e un s)

/-- TDC_RSTAT_READ (R79): A read of RSTAT moves the oldest result of the selected channel into RLO and RHI. -/
def execTdcRstatRead (e : EngSel) (un : Fin 2) (src : Src) (s : State) : Host.Outcome State Fault Refusal :=
  .next (s.readAt e.part src .tdcRstat (tdcInst e un) 0)

/-- TDC_CAL_GO (R81): Writing CAL.GO starts a code-density calibration of every channel of the unit. -/
def execTdcCalGo (e : EngSel) (un : Fin 2) (src : Src) (s : State) : Host.Outcome State Fault Refusal :=
  .next (s.writeAt e.part src .tdcCal (tdcInst e un) 0 1)

/-- TDC_CAL_DONE (R81): Collection ends, tables are computed and checked, and replace the old tables or fail. -/
def execTdcCalDone (e : EngSel) (un : Fin 2) (hits taps : List (List Nat)) (s : State) : Host.Outcome State Fault Refusal :=
  .next (
    let t := Machine.tdcCalDone e un hits taps s
    if un = 1 then t.calDue e.part (tdcInst e un) else t)

/-- TEMP_BAND_CHANGE (R84): A temperature band change starts automatic TDC calibration and port latency calibration and may count a thermal cycle. -/
def execTempBandChange (band : Fin 8) (load : Fin 4) (s : State) : Host.Outcome State Fault Refusal :=
  .next (Machine.tempBandChange band load s)

/-- DTC_OUT_AT_HI (R86): A write to DTC_OUTn_AT_HI arms a fine trigger at the staged target. -/
def execDtcOutAtHi (e : EngSel) (n : Fin 8) (src : Src) (v : Word) (s : State) : Host.Outcome State Fault Refusal :=
  .next (s.writeAt e.part src .dtcAtHi (8 * e.tileNo + n.val) 0 v)

/-- DTC_OUT_CANCEL (R86): Writing CANCEL.ALL removes every armed trigger of the output. -/
def execDtcOutCancel (e : EngSel) (n : Fin 8) (src : Src) (s : State) : Host.Outcome State Fault Refusal :=
  .next (s.writeAt e.part src .dtcCancel (8 * e.tileNo + n.val) 0 1)

/-- TRIGGER_FIRE (R87): A fine trigger fires at its placed edge, or at once and LATE, and records its instant. -/
def execTriggerFire (e : EngSel) (n : Fin 8) (s : State) : Host.Outcome State Fault Refusal :=
  .next (Machine.triggerFire e n s)

/-- DTC_CAL (R90): Writing a mask to DTC_CAL calibrates each output in the mask in turn. -/
def execDtcCal (e : EngSel) (src : Src) (mask : Byte) (s : State) : Host.Outcome State Fault Refusal :=
  .next (s.writeAt e.part src .dtcCal e.tileNo 0 (mask.setWidth 32))

/-- DTC_CAL_DONE (R90): One output's calibration ends, setting INS and CODE or failing with INTEGRITY. -/
def execDtcCalDone (e : EngSel) (n : Fin 8) (d : List Int) (s : State) : Host.Outcome State Fault Refusal :=
  .next (Machine.dtcCalDone e n d s)

end Sys2Proof.Machine
end

