-- ==== Sys2Proof/Machine/RowsMember.lean ====
section
/-!
DEFINITION. Meanings of the commands of membership, health and fencing (R303–R334): one definition for each row of the opcode table.
-/
namespace Sys2Proof.Machine

/-- SUSPECT_TIMEOUT (R308): A node silent for SUSPECT_T becomes SUSPECT and SUSPECT is sent. -/
def execSuspectTimeout (pos : Fin 512) (s : State) : Host.Outcome State Fault Refusal :=
  .next (Machine.suspectTimeout pos s)

/-- CONFIRM_TIMEOUT (R309): A leaf's silence for a node reaches CONFIRM_T and CONFIRM is sent. -/
def execConfirmTimeout (pos : Fin 512) (s : State) : Host.Outcome State Fault Refusal :=
  .next (Machine.confirmTimeout pos s)

/-- ONESIDE_TIMEOUT (R308): Silence for ONESIDE_T in the only reachable domain fences the node DEAD_ONESIDE. -/
def execOnesideTimeout (pos : Fin 512) (s : State) : Host.Outcome State Fault Refusal :=
  .next (Machine.onesideTimeout pos s)

/-- SUSPECT (R309): A twin or job root receives notice that a node is SUSPECT. -/
def execSuspect (node : BitVec 20) (since : HT) (s : State) : Host.Outcome State Fault Refusal :=
  .next (Machine.suspectFrame node since s)

/-- CONFIRM (R309): The deciding leaf receives its twin's confirmation and may declare DEAD. -/
def execConfirm (node : BitVec 20) (heard : Bool) (s : State) : Host.Outcome State Fault Refusal :=
  .next (Machine.confirmFrame node heard s)

/-- DEAD (R317): A job root receives DEAD and advances the job's epoch. -/
def execDead (origin : HT) (src node : BitVec 20) (cause : Fin 6) (dies : List (BitVec 20)) (s : State) : Host.Outcome State Fault Refusal :=
  .next (Machine.deadFrame origin src node cause dies s)

/-- MIRROR_ACK (R318): The twin root acknowledges the mirrored epoch or record and the job root proceeds. -/
def execMirrorAck (m : TwinMsg) (s : State) : Host.Outcome State Fault Refusal :=
  .next (Machine.mirrorAck m s)

/-- MIRROR_TIMEOUT (R318): No twin acknowledgement within 100 µs sets MIRROR_LATE and proceeds. -/
def execMirrorTimeout (k : Fin 1024) (s : State) : Host.Outcome State Fault Refusal :=
  .next (Machine.mirrorTimeout k s)

/-- FENCE (R313): A FENCE frame puts the TSU into FENCED. -/
def execFence (s : State) : Host.Outcome State Fault Refusal :=
  .next (Machine.fenceFrame  s)

/-- SELF_FENCE (R313): Every connected domain silent for SELF_FENCE puts the TSU into FENCED. -/
def execSelfFence (s : State) : Host.Outcome State Fault Refusal :=
  .next (Machine.selfFence  s)

/-- UNFENCE (R315): An UNFENCE frame drains every non-FREE slot and ends FENCED. -/
def execUnfence (s : State) : Host.Outcome State Fault Refusal :=
  .next (Machine.unfenceFrame  s)

/-- FSTATE (R313): A leaf receives a TSU's fence state and re-sends FENCE or UNFENCE. -/
def execFstate (n : Fin 256) (fenced : Bool) (s : State) : Host.Outcome State Fault Refusal :=
  .next (Machine.fstateFrame n fenced s)

/-- SUSPECT_RPT (R308): A gate deadline report makes a node SUSPECT with RPT set. -/
def execSuspectRpt (node : BitVec 20) (s : State) : Host.Outcome State Fault Refusal :=
  .next (Machine.suspectRpt node s)

/-- EVICT_REQ (R316): The detector fences a node at a job root's request. -/
def execEvictReq (node : BitVec 20) (s : State) : Host.Outcome State Fault Refusal :=
  .next (Machine.evictReq node s)

/-- UNFENCE_REQ (R315): A job root asks the detector to lift a fence, judged under R308. -/
def execUnfenceReq (node : BitVec 20) (s : State) : Host.Outcome State Fault Refusal :=
  .next (Machine.unfenceReq node s)

/-- MBR_FENCE_FENCE (R308): Writing FENCE fences the selected node with cause MANUAL. -/
def execMbrFenceFence (src : Src) (pos : Fin 512) (s : State) : Host.Outcome State Fault Refusal :=
  .next (s.writeAt .dist src .mbrFence 0 0 (BitVec.ofNat 32 (2 ^ 30 + pos.val)))

/-- MBR_FENCE_UNFENCE (R315): Writing UNFENCE requests a lift of the selected node's fence. -/
def execMbrFenceUnfence (src : Src) (pos : Fin 512) (s : State) : Host.Outcome State Fault Refusal :=
  .next (s.writeAt .dist src .mbrFence 0 0 (BitVec.ofNat 32 (2 ^ 31 + pos.val)))

/-- PATH_LOST (R312): A job root learns a die's control path is lost and plans a domain move. -/
def execPathLost (node : BitVec 20) (s : State) : Host.Outcome State Fault Refusal :=
  .next (Machine.pathLost node s)

/-- LEAF_LOST (R311): A job root learns a leaf is dead and advances the epoch. -/
def execLeafLost (origin : HT) (src leaf twin : BitVec 20) (s : State) : Host.Outcome State Fault Refusal :=
  .next (Machine.leafLost origin src leaf twin s)

/-- SHADOW_ON (R322): A TSU enters or serves the shadow sub-state. -/
def execShadowOn (dst : Option RelayTo) (handle : BitVec 16) (gen : Byte) (epoch : Word) (shadow : Bool) (partner : BitVec 20) (s : State) : Host.Outcome State Fault Refusal :=
  .next (match dst with
    | none => shadowOnTsu handle gen epoch shadow partner s
    | some q => s.relayShadow q shadow false { cls := 2, ty := 0x8B, handle := handle.toNat, gen := gen.toNat, epoch := epoch.toNat, fields := [b2n shadow, partner.toNat] })

/-- SHADOW_OFF (R326): A TSU leaves shadowing, taking its rank if admitted. -/
def execShadowOff (dst : Option RelayTo) (handle : BitVec 16) (gen : Byte) (epoch : Word) (admitted : Bool) (rank : BitVec 20) (s : State) : Host.Outcome State Fault Refusal :=
  .next (match dst with
    | none => shadowOffTsu handle gen epoch admitted rank s
    | some q => s.relayShadow q false admitted { cls := 2, ty := 0x8C, handle := handle.toNat, gen := gen.toNat, epoch := epoch.toNat, fields := [b2n admitted, rank.toNat] })

/-- DIGEST (R325): The job root compares shadow and shadowed digests and updates the match count. -/
def execDigest (handle : BitVec 16) (gen : Byte) (epoch : Word) (node : BitVec 20) (seq : BitVec 16) (coll shadow : Bool) (digest : BitVec 128) (s : State) : Host.Outcome State Fault Refusal :=
  .next (Machine.digestFrame handle gen epoch node seq coll shadow digest s)

/-- MISMATCH (R327): A TSU counts a shadow mismatch in its condition bin. -/
def execMismatch (handle : BitVec 16) (gen : Byte) (epoch : Word) (seq : BitVec 16) (coll : Bool) (s : State) : Host.Outcome State Fault Refusal :=
  .next (Machine.mismatchFrame handle gen epoch seq coll s)

/-- CONDSUSP (R329): A leaf and job roots record a die's condition suspicion for a bin, or clear it. -/
def execCondsusp (node : BitVec 20) (bin : Fin 32) (clear : Bool) (s : State) : Host.Outcome State Fault Refusal :=
  .next (Machine.condsuspFrame node bin clear s)

/-- HLT_SENT_RES3 (R328): Writing RES3 compares the sentinel digest with the expected one. -/
def execHltSentRes3 (src : Src) (v : Word) (s : State) : Host.Outcome State Fault Refusal :=
  .next (s.writeAt .tsu src .hltSentRes 0 3 v)

/-- HLT_BIN_CLR (R329): Writing HLT_BIN_CLR clears bin counts and suspicion and notifies the leaf. -/
def execHltBinClr (src : Src) (mask : Word) (s : State) : Host.Outcome State Fault Refusal :=
  .next (s.writeAt .tsu src .hltBinClr 0 0 mask)

/-- MBR_JEVT_READ (R320): A read of MBR_JEVT returns and removes the oldest job event. -/
def execMbrJevtRead (src : Src) (s : State) : Host.Outcome State Fault Refusal :=
  .next (s.readAt .dist src .mbrJevt 0 0)

/-- FR_PERIOD (R330): At the end of each period FR_EST is updated from the fences counted. -/
def execFrPeriod (liveSeconds : Nat) (s : State) : Host.Outcome State Fault Refusal :=
  .next (Machine.frPeriod liveSeconds s)

end Sys2Proof.Machine
end

