-- ==== Sys2Proof/Machine/RowsObject.lean ====
section
/-!
DEFINITION. Meanings of the commands of sync objects and wicks (R169–R192): one definition for each row of the opcode table.
-/
namespace Sys2Proof.Machine

/-- SOB_SIG_HI (R173): A write to SOB_SIG_HI delivers a register-space signal to the signal unit. -/
def execSobSigHi (e : EngSel) (src : Src) (v : Word) (s : State) : Host.Outcome State Fault Refusal :=
  .next (s.writeAt e.part src .sobSigHi e.tileNo 0 v)

/-- SIG_FRAME (R174): A SIG frame delivers its entries as signals in entry order. -/
def execSigFrame (handle : BitVec 16) (gen : Byte) (epoch : Word) (entries : List (BitVec 16 × DWord)) (s : State) : Host.Outcome State Fault Refusal :=
  .next (Machine.sigFrame handle gen epoch entries s)

/-- FABRIC_SIGNAL_WRITE (R175): A fabric beat to the aperture delivers up to four signals. -/
def execFabricSignalWrite (beat : FabricBeat) (s : State) : Host.Outcome State Fault Refusal :=
  .next (Machine.fabricBeat beat s)

/-- SIGNAL_ACCEPT (R176): The signal unit accepts a signal, judges it against the object and changes the word. -/
def execSignalAccept (e : EngSel) (s : State) : Host.Outcome State Fault Refusal :=
  .next (Machine.signalAccept e s)

/-- CONDITION_EVALUATION (R181): Two cycles after a change the conditions of bound wicks and waiting contexts are evaluated and consumed. -/
def execConditionEvaluation (e : EngSel) (s : State) : Host.Outcome State Fault Refusal :=
  .next (Machine.conditionEvaluation e s)

/-- TIMER_SATISFIED (R181): A TIMER object reaches its target tick, clears ARMED and evaluates its waiters. -/
def execTimerSatisfied (e : EngSel) (i : Fin 8192) (s : State) : Host.Outcome State Fault Refusal :=
  .next (Machine.timerSatisfied e i s)

/-- OBJECT_WINDOW_READ (R192): A read of word +0 latches the object's 16 bytes for the reading class. -/
def execObjectWindowRead (e : EngSel) (src : Src) (obj : Fin 8192) (w : Fin 4) (s : State) : Host.Outcome State Fault Refusal :=
  .next ((s.regRead e.part src (objAddr e obj w) true).2.2)

/-- OBJECT_WINDOW_WRITE (R192): A write to +4 applies the staged image as an OBJSET. -/
def execObjectWindowWrite (e : EngSel) (src : Src) (obj : Fin 8192) (v : Word) (s : State) : Host.Outcome State Fault Refusal :=
  .next ((s.regWrite e.part src (objAddr e obj 1) v true).2)

/-- SOB_RESET (R180): The guarded SOB_RESET pair starts zeroing the named object range. -/
def execSobReset (e : EngSel) (src : Src) (v vN : Word) (s : State) : Host.Outcome State Fault Refusal :=
  .next ((s.writeAt e.part src .sobReset e.tileNo 0 v).writeAt e.part src .sobResetN e.tileNo 0 vN)

/-- SOB_RESET_DONE (R180): The object reset ends and RESET_BUSY falls. -/
def execSobResetDone (e : EngSel) (s : State) : Host.Outcome State Fault Refusal :=
  .next (Machine.sobResetDone e s)

/-- BALANCE_CHECK_DONE (R179): The balance check of a DRAINING slot ends, freeing or dirtying each object. -/
def execBalanceCheckDone (slot : Fin 16) (s : State) : Host.Outcome State Fault Refusal :=
  .next (Machine.balanceDone slot s)

/-- WICK_BIND (R182): A SOB_WKn_CFG write with BIND = 1 binds the wick. -/
def execWickBind (n : Fin 256) (src : Src) (v : Word) (s : State) : Host.Outcome State Fault Refusal :=
  .next (s.writeAt .tsu src .wkCfg n.val 0 (setFld v 13 13 1))

/-- WICK_UNBIND (R183): A SOB_WKn_CFG write with BIND = 0 unbinds the wick. -/
def execWickUnbind (n : Fin 256) (src : Src) (v : Word) (s : State) : Host.Outcome State Fault Refusal :=
  .next (s.writeAt .tsu src .wkCfg n.val 0 (setFld v 13 13 0))

/-- WICK_ASSERT (R187): A PENDING wick takes taper budget on a time-clock edge and WICKn rises. -/
def execWickAssert (s : State) : Host.Outcome State Fault Refusal :=
  .next (Machine.wickAssert  s)

/-- WICK_ACK (R184): WACKn is sampled 1 and the wick lowers and moves to LIT, BOUND or UNBOUND. -/
def execWickAck (n : Fin 256) (held : Bool) (s : State) : Host.Outcome State Fault Refusal :=
  .next (Machine.wickAck n held s)

/-- PL_HOLD_EXPIRY (R183): A LIT wick unmet for PL_HOLD returns to BOUND and sets PL_MISS. -/
def execPlHoldExpiry (n : Fin 256) (s : State) : Host.Outcome State Fault Refusal :=
  .next (Machine.plHoldExpiry n s)

/-- PRELIGHT_STAGE (R189): At stage T_i the BOUND wicks of the group become PENDING, marked as pre-lit. -/
def execPrelightStage (slot : Fin 16) (s : State) : Host.Outcome State Fault Refusal :=
  .next (Machine.prelightStage slot s)

end Sys2Proof.Machine
end

