-- ==== Sys2Proof/Machine/RowsPackage.lean ====
section
/-!
DEFINITION. Meanings of the commands of management accesses and the package (R412–R423, R442, R450–R470): one definition for each row of the opcode table.
-/
namespace Sys2Proof.Machine

/-- MGMT_READ (R413): A MGMT READ frame makes up to 8 register reads as class LINK and answers RSP. -/
def execMgmtRead (port : Port) (addr : Word) (n1 : Fin 8) (tag : BitVec 16) (s : State) : Host.Outcome State Fault Refusal :=
  .next (Machine.mgmtRead port addr n1 tag s)

/-- MGMT_WRITE (R413): A MGMT WRITE frame makes up to 8 register writes as class LINK and answers RSP. -/
def execMgmtWrite (port : Port) (addr : Word) (tag : BitVec 16) (words : List Word) (s : State) : Host.Outcome State Fault Refusal :=
  .next (Machine.mgmtWrite port addr tag words s)

/-- RSP (R423): An RSP completes the mailbox request and fills TIL_MREQ_DATA. -/
def execRsp (port : Port) (tag : BitVec 16) (code : Code) (done : Fin 9) (words : List Word) (s : State) : Host.Outcome State Fault Refusal :=
  .next (Machine.recvRsp port tag code done words s)

/-- TIL_MREQ_GO (R423): Writing TIL_MREQ_GO sends a MGMT request on the named port. -/
def execTilMreqGo (t : Fin 8) (src : Src) (s : State) : Host.Outcome State Fault Refusal :=
  .next (s.writeAt .dist src .tilMreqGo t.val 0 0)

/-- MREQ_TIMEOUT (R423): No RSP within MREQ_TO ends the mailbox request with BUSY. -/
def execMreqTimeout (t : Fin 8) (s : State) : Host.Outcome State Fault Refusal :=
  .next (Machine.mreqTimeout t s)

/-- WS_REGACC (R442): An update of the WS_REGACC register makes one DEBUG-class access. -/
def execWsRegacc (p : PartId) (write : Bool) (word : BitVec 24) (data : Word) (s : State) : Host.Outcome State Fault Refusal :=
  .next (Machine.wsRegacc p write word data s)

/-- WS_MBIST (R442): GO in WS_MBIST self-tests and zeroes every SRAM. -/
def execWsMbist (p : PartId) (go : Bool) (fail : Option (BitVec 16)) (s : State) : Host.Outcome State Fault Refusal :=
  .next (Machine.wsMbist p go fail s)

/-- PERST_N (R463): PERST_N resets one PCIe endpoint. -/
def execPerstN (seven : Bool) (s : State) : Host.Outcome State Fault Refusal :=
  .next (Machine.perst seven s)

/-- SUPPLY_FAULT (R457): A rail out of range for 2 µs drives PWR_FLT_N low and enters a held reset. -/
def execSupplyFault (s : State) : Host.Outcome State Fault Refusal :=
  .next (Machine.supplyFault  s)

/-- HELD_RESET_RELEASE (R457): Rails in range for 10 ms with RST_N high release the held reset and boot. -/
def execHeldResetRelease (f : Fuses) (oscIn norOk : Bool) (s : State) : Host.Outcome State Fault Refusal :=
  .next (Machine.heldRelease f oscIn norOk s)

/-- THERMTRIP (R453): A junction or stack over its trip temperature for 1 ms trips the package. -/
def execThermtrip (s : State) : Host.Outcome State Fault Refusal :=
  .next (Machine.thermtrip  s)

/-- BAND_SAMPLE (R452): Every 1 ms the tile and stack bands are set from their sensors. -/
def execBandSample (tiles : List (Fin 8 × Int)) (stks : List (Fin 24 × Int)) (s : State) : Host.Outcome State Fault Refusal :=
  .next (Machine.bandSample tiles stks s)

/-- HBM_TRAINED (R468): The HBM stacks finish training and are wiped. -/
def execHbmTrained (stks : BitVec 24) (s : State) : Host.Outcome State Fault Refusal :=
  .next (Machine.hbmTrained stks s)

/-- BOOT_ROM (R470): The boot ROM examines candidate images, loads the best valid one and starts it or stops at 0xEE. -/
def execBootRom (a0 b0 a7 b7 : Option BootImage) (s : State) : Host.Outcome State Fault Refusal :=
  .next (Machine.bootRom a0 b0 a7 b7 s)

/-- MESH_EDGE_DOWN (R451): A mesh edge goes down and routes detour through the other row. -/
def execMeshEdgeDown (t u : Fin 8) (s : State) : Host.Outcome State Fault Refusal :=
  .next (Machine.meshEdgeDown t u s)

/-- MESH_ISOLATION (R451): A tile with no edge up for 1 ms takes its ports to DOWN. -/
def execMeshIsolation (t : Fin 8) (s : State) : Host.Outcome State Fault Refusal :=
  .next (Machine.meshIsolation t s)

/-- HKP_WATCHDOG_EXPIRY (R420): The watchdog expires and the lowest standby processor takes over. -/
def execHkpWatchdogExpiry (s : State) : Host.Outcome State Fault Refusal :=
  .next (Machine.watchdogExpiry  s)

/-- HKP_KICK (R420): A write by the active processor restarts the watchdog. -/
def execHkpKick (src : Src) (v : Word) (s : State) : Host.Outcome State Fault Refusal :=
  .next (s.writeAt .dist src .hkpKick 0 0 v)

/-- HKP_CTRL_TAKEOVER (R420): Writing TAKEOVER retires the active processor. -/
def execHkpCtrlTakeover (src : Src) (s : State) : Host.Outcome State Fault Refusal :=
  .next (s.writeAt .dist src .hkpCtrl 0 0 1)

/-- HKP_H2P3 (R420): Writing HKP_H2P3 sets H2P and interrupts the active processor. -/
def execHkpH2p3 (src : Src) (v : Word) (s : State) : Host.Outcome State Fault Refusal :=
  .next (s.writeAt .dist src .hkpH2p 0 3 v)

/-- HKP_P2H3 (R420): Writing HKP_P2H3 sets P2H for the host. -/
def execHkpP2h3 (src : Src) (v : Word) (s : State) : Host.Outcome State Fault Refusal :=
  .next (s.writeAt .dist src .hkpP2h 0 3 v)

/-- I3C_PRIVATE_WRITE (R465): An I3C private write sets the address and writes words as class I3C. -/
def execI3cPrivateWrite (seven : Bool) (addr : Word) (words : List Word) (s : State) : Host.Outcome State Fault Refusal :=
  .next (Machine.i3cWrite seven addr words s)

/-- I3C_PRIVATE_READ (R465): An I3C private read returns words from the address and advances it. -/
def execI3cPrivateRead (seven : Bool) (n : Fin 1024) (s : State) : Host.Outcome State Fault Refusal :=
  .next (i3cRead seven n.val s)

/-- MESH_EDGE_UP (R451): A mesh edge's training succeeds, it returns to use, and the tile's ports follow R116 again. -/
def execMeshEdgeUp (t u : Fin 8) (s : State) : Host.Outcome State Fault Refusal :=
  .next (Machine.meshEdgeUp t u s)

/-- PATROL_SCRUB (R419): The HBM patrol scrubber reads the next location, and errors it finds are journalled as MEM_ERR and counted. -/
def execPatrolScrub (err : Option (HbmAt × Bool)) (s : State) : Host.Outcome State Fault Refusal :=
  .next (Machine.patrolScrub err s)

end Sys2Proof.Machine
end

