-- ==== Sys2Proof/Machine/RowsPort.lean ====
section
/-!
DEFINITION. Meanings of the commands of step links (R95–R124): one definition for each row of the opcode table.
-/
namespace Sys2Proof.Machine

/-- PRT_CTRL_EN (R116): Writing EN enables or disables a port, moving it to DETECT or DOWN. -/
def execPrtCtrlEn (port : Port) (src : Src) (en : Bool) (s : State) : Host.Outcome State Fault Refusal :=
  .next (s.writeAt port.part src .prtCtrl port.num 0 (BitVec.ofNat 32 (b2n en)))

/-- PRT_CTRL_RETRAIN (R116): Writing RETRAIN sends the port to DETECT. -/
def execPrtCtrlRetrain (port : Port) (src : Src) (en : Bool) (s : State) : Host.Outcome State Fault Refusal :=
  .next (s.writeAt port.part src .prtCtrl port.num 0 (BitVec.ofNat 32 (2 + b2n en)))

/-- FAR_END_SIGNAL (R116): A far-end signal on at least 4 lanes moves the port from DETECT to TRAIN. -/
def execFarEndSignal (port : Port) (mask : Fin 32) (s : State) : Host.Outcome State Fault Refusal :=
  .next (Machine.farEndSignal port mask s)

/-- EQUALISATION_CONVERGED (R116): Equalisation converges on at least 4 lanes and the port enters LOCK. -/
def execEqualisationConverged (port : Port) (rx tx : Fin 32) (s : State) : Host.Outcome State Fault Refusal :=
  .next (Machine.equalised port rx tx s)

/-- CODEWORD_LOCK (R116): Codeword lock and deskew are gained and the port enters NEGOTIATE. -/
def execCodewordLock (port : Port) (s : State) : Host.Outcome State Fault Refusal :=
  .next (Machine.codewordLock port s)

/-- TRAINING_TIMEOUT (R116): A training state exceeds its time limit and the port returns to DETECT or faults. -/
def execTrainingTimeout (port : Port) (s : State) : Host.Outcome State Fault Refusal :=
  .next (Machine.trainingTimeout port s)

/-- CODEWORD_LOCK_LOSS (R98): 8 of 16 uncorrectable codewords lose lock and send the port to DETECT. -/
def execCodewordLockLoss (port : Port) (k : Fin 17) (s : State) : Host.Outcome State Fault Refusal :=
  .next (Machine.codewordLockLoss port k s)

/-- LANE_LOSS (R121): A lane stops delivering symbols and the port retrains with the spare in its place. -/
def execLaneLoss (port : Port) (lane : Fin 5) (s : State) : Host.Outcome State Fault Refusal :=
  .next (Machine.laneLoss port lane s)

/-- NEG (R117): A NEG flit is received and its version, cabling and FEC are checked against the local end. -/
def execNeg (port : Port) (f : NegFlit) (crcOk : Bool) (s : State) : Host.Outcome State Fault Refusal :=
  .next (Machine.recvNeg port f crcOk s)

/-- NEG_INTERVAL (R117): Every 1 µs in NEGOTIATE the port sends a NEG flit. -/
def execNegInterval (port : Port) (s : State) : Host.Outcome State Fault Refusal :=
  .next (Machine.negInterval port s)

/-- IDLE (R100): An IDLE flit is received, carrying node ID, heartbeat HT, acknowledgements and credit. -/
def execIdle (port : Port) (hb : HT) (ackE ackN credit : BitVec 16) (spare crcOk : Bool) (s : State) : Host.Outcome State Fault Refusal :=
  .next (
    let t := recvIdle port ackE.toNat ackN.toNat credit.toNat spare crcOk (s.heard port crcOk)
    if crcOk && port.part = .dist then t.heartbeat port.num hb else t)

/-- ACK (R108): An ACK flit frees acknowledged frames from the replay buffers and grants credit. -/
def execAck (port : Port) (ackE ackN credit : BitVec 16) (crcOk : Bool) (s : State) : Host.Outcome State Fault Refusal :=
  .next (recvAck port ackE.toNat ackN.toNat credit.toNat crcOk (s.heard port crcOk))

/-- NAK (R108): A NAK makes the transmitter resend every unacknowledged frame of the space from the named SEQ. -/
def execNak (port : Port) (express : Bool) (seq : BitVec 16) (crcOk : Bool) (s : State) : Host.Outcome State Fault Refusal :=
  .next (recvNak port express seq.toNat crcOk (s.heard port crcOk))

/-- RETRAIN (R100): A RETRAIN flit sends the receiving port to DETECT. -/
def execRetrain (port : Port) (sub : Byte) (crcOk : Bool) (s : State) : Host.Outcome State Fault Refusal :=
  .next (recvRetrain port sub crcOk (s.heard port crcOk))

/-- FRAME_RECEIVE (R101): A frame is received whole, checked for CRC, SEQ and class, and delivered or discarded. -/
def execFrameReceive (port : Port) (express : Bool) (hdr body : List Byte) (crc : Word) (tdec : Int) (place : Nat) (s : State) : Host.Outcome State Fault Refusal :=
  .next (frameArrives port express hdr body crc tdec place s)

/-- HEARTBEAT_DUE (R105): HB_MAX has passed since the last IDLE flit and one is forced at the next allowed boundary. -/
def execHeartbeatDue (port : Port) (s : State) : Host.Outcome State Fault Refusal :=
  .next (Machine.heartbeatDue port s)

/-- ACK_DUE (R108): 128 ns after frames were received an ACK flit is sent. -/
def execAckDue (port : Port) (s : State) : Host.Outcome State Fault Refusal :=
  .next (Machine.ackDueFlit port s)

/-- NAK_REPEAT (R108): The NAK is repeated every 256 ns until the expected frame arrives. -/
def execNakRepeat (port : Port) (express : Bool) (s : State) : Host.Outcome State Fault Refusal :=
  .next (Machine.nakRepeat port express s)

/-- REPLAY_TIMEOUT (R109): No acknowledgement advance for 4 or 16 µs replays the space; the eighth send reaches the retry limit. -/
def execReplayTimeout (port : Port) (express : Bool) (s : State) : Host.Outcome State Fault Refusal :=
  .next (Machine.replayTimeout port express s)

/-- LATENCY_CALIBRATION (R114): The port sends CAL frames and time-stamps markers to calibrate TXLAT and RXLAT. -/
def execLatencyCalibration (port : Port) (s : State) : Host.Outcome State Fault Refusal :=
  .next (Machine.latencyCalibration port s)

/-- LATENCY_CALIBRATION_DONE (R114): The calibration ends and all ten latencies replace the old ones at one block boundary. -/
def execLatencyCalibrationDone (port : Port) (tx rx : List (Option Int)) (s : State) : Host.Outcome State Fault Refusal :=
  .next (Machine.latencyDone port tx rx s)

/-- PRT_SWAP (R120): A write to PRT_Pp_SWAP requests a swap of a logical lane onto the spare. -/
def execPrtSwap (port : Port) (src : Src) (v : Word) (s : State) : Host.Outcome State Fault Refusal :=
  .next (s.writeAt port.part src .prtSwap port.num 0 v)

/-- SWAP_REQ (R120): A SWAP_REQ flit makes the transmitter copy the lane onto the spare and hold TSI frames. -/
def execSwapReq (port : Port) (farDir : Fin 2) (ln : Fin 4) (block : Word) (crcOk : Bool) (s : State) : Host.Outcome State Fault Refusal :=
  .next (recvSwapReq port farDir ln block crcOk (s.heard port crcOk))

/-- SWAP_SWITCH (R120): At block B, or when ready, the receiver switches to the spare and sends SWAP_ACK. -/
def execSwapSwitch (port : Port) (ready : Word) (s : State) : Host.Outcome State Fault Refusal :=
  .next (Machine.swapSwitch port ready s)

/-- SWAP_ACK (R120): SWAP_ACK makes the transmitter set its LMAP, stop the old lane and resume TSI frames. -/
def execSwapAck (port : Port) (block : Word) (crcOk : Bool) (s : State) : Host.Outcome State Fault Refusal :=
  .next (recvSwapAck port block crcOk (s.heard port crcOk))

/-- BULK_TRANSFER (R122): A host transfer on the bulk stream is taken and cut into BULK frames. -/
def execBulkTransfer (n : Fin 4) (slot : Fin 16) (ty : Byte) (tag : BitVec 16) (addr : BitVec 96) (data : List Byte) (s : State) : Host.Outcome State Fault Refusal :=
  .next (Machine.bulkTransfer n slot ty tag addr data s)

/-- BULK_TRANSFER_DONE (R123): Every frame of a transfer is acknowledged and its status is reported. -/
def execBulkTransferDone (n : Fin 4) (tag : BitVec 16) (s : State) : Host.Outcome State Fault Refusal :=
  .next (bulkDone n tag.toNat s)

end Sys2Proof.Machine
end

