-- ==== Sys2Proof/Machine/RowsReg.lean ====
section
/-!
DEFINITION. Meanings of the commands of register access, strobes and locks (R23–R43): one definition for each row of the opcode table.
-/
namespace Sys2Proof.Machine

/-- REGISTER_WRITE (R26): A write to a register that has no row of its own is judged under R8 and takes effect according to its access type. -/
def execRegisterWrite (p : PartId) (src : Src) (addr : BitVec 26) (v : Word) (whole : Bool) (s : State) : Host.Outcome State Fault Refusal :=
  .next ((s.regWrite p src addr.toNat v whole).2)

/-- STAGING_LO_WRITE (R32): A write to the _LO of a writable pair goes to the class's staging word and has no other effect. -/
def execStagingLoWrite (p : PartId) (src : Src) (addr : BitVec 26) (v : Word) (s : State) : Host.Outcome State Fault Refusal :=
  .next ((s.regWrite p src addr.toNat v true).2)

/-- STAT_READ (R29): A read of a *_STAT register returns its contents and clears the bits that were set. -/
def execStatRead (p : PartId) (src : Src) (addr : BitVec 26) (s : State) : Host.Outcome State Fault Refusal :=
  .next ((s.regRead p src addr.toNat true).2.2)

/-- SYS_UPDATE (R35): A write to SYS_UPDATE requests an immediate strobe at the next tick for the blocks in the mask. -/
def execSysUpdate (p : PartId) (src : Src) (mask : Word) (s : State) : Host.Outcome State Fault Refusal :=
  .next (s.writeAt p src .sysUpdate 0 0 mask)

/-- SYS_UPD_AT_HI (R35): A write to SYS_UPD_AT_HI queues a scheduled strobe with the mask held in SYS_UPD_MASK. -/
def execSysUpdAtHi (p : PartId) (src : Src) (v : Word) (s : State) : Host.Outcome State Fault Refusal :=
  .next (s.writeAt p src .sysUpdAtHi 0 0 v)

/-- SYS_UPD_CANCEL (R36): Writing ALL removes every queued strobe of the writer's class and journals each removal. -/
def execSysUpdCancel (p : PartId) (src : Src) (v : Word) (s : State) : Host.Outcome State Fault Refusal :=
  .next (s.writeAt p src .sysUpdCancel 0 0 v)

/-- UPDATE_STROBE (R35): On the strobe tick every pending copy of the masked blocks becomes active together and strobe records are written. -/
def execUpdateStrobe (p : PartId) (s : State) : Host.Outcome State Fault Refusal :=
  .next (Machine.updateStrobe p s)

/-- STROBE (R37): A STROBE STEP frame from the job root is checked and its strobe queued for the given tick as class LINK. -/
def execStrobe (handle : BitVec 16) (gen : Byte) (epoch mask : Word) (tick : HT) (s : State) : Host.Outcome State Fault Refusal :=
  .next (strobeFrame handle gen epoch mask tick s)

/-- GUARDED_PAIR (R38): The _N write of a guarded pair completes or cancels the guarded operation. -/
def execGuardedPair (p : PartId) (src : Src) (addr : BitVec 26) (v : Word) (s : State) : Host.Outcome State Fault Refusal :=
  .next ((s.regWrite p src addr.toNat v true).2)

/-- SYS_UNLOCK (R39): Writing the key 0xC4D1 unlocks the next write of the writer's class. -/
def execSysUnlock (p : PartId) (src : Src) (key : Word) (s : State) : Host.Outcome State Fault Refusal :=
  .next (s.writeAt p src .sysUnlock 0 0 key)

/-- IADDR_WRITE (R40): A write to an *_IADDR register sets the index and starts a fetch. -/
def execIaddrWrite (p : PartId) (src : Src) (sp : IndSpace) (v : Word) (s : State) : Host.Outcome State Fault Refusal :=
  .next ((s.regWrite p src (addrOf p (iaddrReg sp)) v true).2)

/-- IDATA_ACCESS (R40): An *_IDATA access reads or writes the word at the index and advances it under AUTOINC. -/
def execIdataAccess (p : PartId) (src : Src) (sp : IndSpace) (write : Option Word) (s : State) : Host.Outcome State Fault Refusal :=
  .next (match write with
    | some v => (s.regWrite p src (addrOf p (idataReg sp)) v true).2
    | none => (s.regRead p src (addrOf p (idataReg sp)) true).2.2)

/-- IDATA_FETCH_DONE (R40): A fetch from the distributor journal or a keeper completes and READY rises. -/
def execIdataFetchDone (d : FetchDone) (s : State) : Host.Outcome State Fault Refusal :=
  .next (fetchDone d s)

/-- CMB_RSTAT_READ (R41): A read of CMB_RSTAT copies a pending result into CMB_RDATA and clears OVERWRITE. -/
def execCmbRstatRead (src : Src) (c : Fin 16) (s : State) : Host.Outcome State Fault Refusal :=
  .next (s.readAt .tsu src .cmbRstat 0 c.val)

/-- SYS_SEAL (R43): Writing 0x0000_5EA1 to SYS_SEAL clears OPEN and freezes the protection windows. -/
def execSysSeal (p : PartId) (src : Src) (v : Word) (s : State) : Host.Outcome State Fault Refusal :=
  .next (s.writeAt p src .sysSeal 0 0 v)

/-- SYS_LCREQ (R46): A request for a life-cycle transition is judged and, if allowed, raises LCS_REQ. -/
def execSysLcreq (p : PartId) (src : Src) (target : Fin 4) (force : Bool) (s : State) : Host.Outcome State Fault Refusal :=
  .next (s.writeAt p src .sysLcreq 0 0 (BitVec.ofNat 32 (target.val + 256 * b2n force)))

end Sys2Proof.Machine
end

