-- ==== Sys2Proof/Machine/RowsServo.lean ====
section
/-!
DEFINITION. Meanings of the commands of time transfer (R125–R149): one definition for each row of the opcode table.
-/
namespace Sys2Proof.Machine

/-- SYNC_INTERVAL (R130): Every SYNC_INT the upstream end sends SYNC. -/
def execSyncInterval (port : Port) (s : State) : Host.Outcome State Fault Refusal :=
  .next ((Machine.syncInterval port s).pump port.part port.num)

/-- SYNC (R131): A SYNC is received, completing an exchange that is computed and steers the servo. -/
def execSync (port : Port) (m : SyncRx) (s : State) : Host.Outcome State Fault Refusal :=
  .next ((recvSync port m (s.pump port.part port.num)).pump port.part port.num)

/-- DREQ (R131): A DREQ is received at the upstream end and its rxts kept for the next SYNC. -/
def execDreq (port : Port) (xn : BitVec 16) (rxts : HT) (s : State) : Host.Outcome State Fault Refusal :=
  .next (recvDreq port xn.toNat rxts s)

/-- SERVO_HOLD_TIMEOUT (R138): No valid exchange for 8 × SYNC_INT moves the port to HOLD. -/
def execServoHoldTimeout (port : Port) (s : State) : Host.Outcome State Fault Refusal :=
  .next (Machine.servoHoldTimeout port s)

/-- REVERT_TIMEOUT (R142): PREF has been eligible for REVERT_S seconds and the TSU returns to it. -/
def execRevertTimeout (p : PartId) (s : State) : Host.Outcome State Fault Refusal :=
  .next (Machine.revertTimeout p s)

/-- SLEW_END (R143): REM reaches zero and SLEW_DONE is set. -/
def execSlewEnd (p : PartId) (s : State) : Host.Outcome State Fault Refusal :=
  .next (Machine.slewEnd p s)

/-- TWIN_SOURCE_TIMEOUT (R126): A secondary twin with no LOCKED reference for 2 ms becomes the source. -/
def execTwinSourceTimeout (s : State) : Host.Outcome State Fault Refusal :=
  .next (Machine.twinSourceTimeout  s)

/-- DIFF_INTERVAL (R127): Once per second a measuring part journals offsets and a section root sends DIFF. -/
def execDiffInterval (p : PartId) (s : State) : Host.Outcome State Fault Refusal :=
  .next ((Machine.diffInterval p s).pumpAll p)

/-- DIFF (R127): A pod root receives the pairwise offsets of its section. -/
def execDiff (offs : List (Nat × Nat × Int)) (s : State) : Host.Outcome State Fault Refusal :=
  .next (Machine.recvDiff offs s)

/-- SRV_LCAL_ARM (R136): Writing ARM to SRV_LCAL admits loopback cabling on the two named ports. -/
def execSrvLcalArm (t : Fin 8) (src : Src) (x y : Fin 512) (s : State) : Host.Outcome State Fault Refusal :=
  .next (s.writeAt .dist src .srvLcal t.val 0 (BitVec.ofNat 32 (x.val + 512 * y.val + 2 ^ 30)))

/-- SRV_LCAL_GO (R136): Writing GO starts 4,096 loopback exchanges. -/
def execSrvLcalGo (t : Fin 8) (src : Src) (x y : Fin 512) (arm : Bool) (s : State) : Host.Outcome State Fault Refusal :=
  .next (s.writeAt .dist src .srvLcal t.val 0 (BitVec.ofNat 32 (x.val + 512 * y.val + 2 ^ 30 * b2n arm + 2 ^ 31)))

/-- LOOPBACK_CALIBRATION_DONE (R136): The loopback exchanges end and SRV_LCAL_ASYM is set or FAIL raised. -/
def execLoopbackCalibrationDone (t : Fin 8) (s : State) : Host.Outcome State Fault Refusal :=
  .next (Machine.loopbackDone t s)

end Sys2Proof.Machine
end

