-- ==== Sys2Proof/Machine/RowsStore.lean ====
section
/-!
DEFINITION. Meanings of the commands of the continuity store (R335–R361): one definition for each row of the opcode table.
-/
namespace Sys2Proof.Machine

/-- SNAP_REQ (R341): The job root collects a member's SNAP_REQ and opens the epoch when all agree. -/
def execSnapReq (handle : BitVec 16) (gen : Byte) (epoch : Word) (node : BitVec 20) (slot : Fin 32) (b wofs : Word) (wlen : BitVec 16) (s : State) : Host.Outcome State Fault Refusal :=
  .next (Machine.snapReq handle gen epoch node slot b wofs wlen s)

/-- OPEN (R341): A leaf or member receives OPEN and schedules its windows and the OPEN signal. -/
def execOpenEpoch (p : PartId) (handle : BitVec 16) (gen : Byte) (epoch : Word) (slot : Fin 32) (l : HT) (b wofs : Word) (wlen : BitVec 16) (s : State) : Host.Outcome State Fault Refusal :=
  .next (match p with
    | .tsu => openTsu handle gen epoch slot l b wofs wlen s
    | .dist => openLeaf handle gen epoch slot l b wofs wlen s)

/-- OPEN_REFUSE (R341): A member's SNAP completes with the refusal code. -/
def execOpenRefuse (handle : BitVec 16) (gen : Byte) (epoch : Word) (slot : Fin 32) (code : Code) (s : State) : Host.Outcome State Fault Refusal :=
  .next (Machine.openRefuse handle gen epoch slot code s)

/-- LEAF_WINDOW_OPEN (R344): A leaf opens window n of a slot at W_n. -/
def execLeafWindowOpen (set : Fin 128) (slot : Fin 32) (s : State) : Host.Outcome State Fault Refusal :=
  .next (Machine.leafWindowOpen set slot s)

/-- LEAF_WINDOW_CLOSE (R345): At C_n each tile writes its parity slice to HBM once. -/
def execLeafWindowClose (set : Fin 128) (slot : Fin 32) (s : State) : Host.Outcome State Fault Refusal :=
  .next (Machine.leafWindowClose set slot s)

/-- BULK_DATA (R339): A leaf absorbs a DATA frame into parity or a mirror, or discards it. -/
def execBulkData (n : Fin 256) (handle : BitVec 16) (gen : Byte) (epoch : Word) (slot : Fin 32) (half : Fin 2) (block off : Word) (data : List Byte) (s : State) : Host.Outcome State Fault Refusal :=
  .next (bulkAbsorb false n handle gen epoch slot half block off data s)

/-- BULK_ZERO (R339): A leaf records a ZERO half that contributes nothing. -/
def execBulkZero (n : Fin 256) (handle : BitVec 16) (gen : Byte) (epoch : Word) (slot : Fin 32) (half : Fin 2) (block : Word) (s : State) : Host.Outcome State Fault Refusal :=
  .next (Machine.bulkZero n handle gen epoch slot half block s)

/-- BULK_RESEND (R353): A leaf absorbs a survivor's RESEND block during a rebuild. -/
def execBulkResend (n : Fin 256) (handle : BitVec 16) (gen : Byte) (epoch : Word) (slot : Fin 32) (half : Fin 2) (block off : Word) (data : List Byte) (s : State) : Host.Outcome State Fault Refusal :=
  .next (bulkAbsorb true n handle gen epoch slot half block off data s)

/-- SLOW_PATH_MERGE (R346): A staged out-of-window frame is merged into the HBM parity block. -/
def execSlowPathMerge (set : Fin 128) (slot : Fin 32) (s : State) : Host.Outcome State Fault Refusal :=
  .next (Machine.slowMerge set slot s)

/-- SYND (R340): A TSU turns a syndrome frame around, or the A leaf combines it with Pxy. -/
def execSynd (at_ : SyndAt) (handle : BitVec 16) (gen : Byte) (epoch off : Word) (data : List Byte) (s : State) : Host.Outcome State Fault Refusal :=
  .next (match at_ with
    | .member port addr => syndTsu port handle gen epoch addr off data s
    | .leaf set slot half block => syndLeaf handle gen epoch set slot half block off data s)

/-- BULK_RESTORE (R435): A TSU delivers a RESTORE frame to its host on the receive bulk stream. -/
def execBulkRestore (port : Fin 4) (handle : BitVec 16) (gen : Byte) (epoch : Word) (addr : BitVec 96) (off : Word) (data : List Byte) (s : State) : Host.Outcome State Fault Refusal :=
  .next (Machine.bulkRestore port handle gen epoch addr off data s)

/-- PREPARE (R349): A leaf answers PREPARE once its slot is settled, or answers NONE. -/
def execPrepare (handle : BitVec 16) (gen : Byte) (epoch : Word) (slot : Fin 32) (s : State) : Host.Outcome State Fault Refusal :=
  .next (Machine.prepareLeaf handle gen epoch slot s)

/-- PREPARE_TIMEOUT (R349): PREP_TO passes after the last window and the slot becomes FREE answering BUSY. -/
def execPrepareTimeout (handle : BitVec 16) (slot : Fin 32) (s : State) : Host.Outcome State Fault Refusal :=
  .next (Machine.prepareTimeout handle slot s)

/-- PREPARED (R350): The job root collects answers, writes and mirrors the commit record, then commits or discards. -/
def execPrepared (handle : BitVec 16) (gen : Byte) (epoch : Word) (leaf : BitVec 20) (slot : Fin 32) (answer : Fin 5) (s : State) : Host.Outcome State Fault Refusal :=
  .next (Machine.prepared handle gen epoch leaf slot answer s)

/-- COMMIT_MESSAGE (R349): A leaf slot becomes COMMITTED and SNAP completes OK. -/
def execCommitMessage (p : PartId) (handle : BitVec 16) (gen : Byte) (epoch : Word) (slot : Fin 32) (s : State) : Host.Outcome State Fault Refusal :=
  .next (match p with
    | .tsu => snapDone handle gen epoch slot .ok s
    | .dist => commitLeaf handle gen epoch slot s)

/-- DISCARD (R351): An open slot becomes FREE and SNAP completes with the discard code. -/
def execDiscard (p : PartId) (handle : BitVec 16) (gen : Byte) (epoch : Word) (slot : Fin 32) (code : Code) (s : State) : Host.Outcome State Fault Refusal :=
  .next (match p with
    | .tsu => snapDone handle gen epoch slot code s
    | .dist => discardLeaf handle gen epoch slot code s)

/-- REBUILD_REQ (R353): A leaf pair begins rebuilding the named slots of its sets. -/
def execRebuildReq (handle : BitVec 16) (gen : Byte) (epoch mask : Word) (ts : HT) (pairs : List (BitVec 20 × BitVec 20)) (s : State) : Host.Outcome State Fault Refusal :=
  .next (Machine.rebuildReq handle gen epoch mask ts pairs s)

/-- REBUILD_WINDOW (R353): A rebuild window closes and the erased blocks are recovered and streamed. -/
def execRebuildWindow (handle : BitVec 16) (s : State) : Host.Outcome State Fault Refusal :=
  .next (Machine.rebuildWindow handle s)

/-- REBUILT (R352): The job root collects REBUILT answers and sends RESTORE or ends REBUILD. -/
def execRebuilt (handle : BitVec 16) (gen : Byte) (epoch : Word) (leaf : BitVec 20) (code : Code) (erasures : Fin 4) (s : State) : Host.Outcome State Fault Refusal :=
  .next (Machine.rebuilt handle gen epoch leaf code erasures s)

/-- REBUILD_PREP_TO (R353): PREP_TO passes after the last rebuild window with a survivor still missing blocks, and the pair answers REBUILT with BUSY. -/
def execRebuildPrepTo (handle : BitVec 16) (s : State) : Host.Outcome State Fault Refusal :=
  .next (Machine.rebuildPrepTo handle s)

end Sys2Proof.Machine
end

