-- ==== Sys2Proof/Machine/RowsTime.lean ====
section
/-!
DEFINITION. Meanings of the commands of hall time and its references (R50–R72): one definition for each row of the opcode table.
-/
namespace Sys2Proof.Machine

/-- HT_SET_LOAD (R54): An accepted HT set loads the value on the first tick after its _N write and removes queued strobes. -/
def execHtSetLoad (p : PartId) (s : State) : Host.Outcome State Fault Refusal :=
  .next (Machine.loadHtSet p s)

/-- CALINFO (R145): A follower receives a CALINFO frame, relays it downstream and schedules its load. -/
def execCalinfo (port : Port) (eff calHt : HT) (sec : BitVec 48) (ns : BitVec 30) (rate : Word) (utc : BitVec 16) (s : State) : Host.Outcome State Fault Refusal :=
  .next ((recvCalinfo port eff calHt sec.toNat ns.toNat rate utc.toNat s).pumpAll port.part)

/-- CALENDAR_LOAD (R57): At the effective tick a follower loads anchor, rate and UTC offset together as one strobe. -/
def execCalendarLoad (p : PartId) (s : State) : Host.Outcome State Fault Refusal :=
  .next (Machine.calendarLoad p s)

/-- OVEN_SAMPLE (R61): Every 1 ms the oven-ready pin is sampled and OVEN_OK and the quality code updated. -/
def execOvenSample (pin ext10m : Bool) (s : State) : Host.Outcome State Fault Refusal :=
  .next (Machine.ovenSample pin ext10m s)

/-- OSC_LOST (R63): No oscillator edge for 200 ns sets OSC_LOST, frees the PLL and makes the code FREE. -/
def execOscLost (s : State) : Host.Outcome State Fault Refusal :=
  .next (Machine.oscLost  s)

/-- REFERENCE_QUALIFIES (R68): An external reference meets its qualification criterion and the code moves to TRACEABLE. -/
def execReferenceQualifies (r : RefSrc) (s : State) : Host.Outcome State Fault Refusal :=
  .next (Machine.referenceQualifies r s)

/-- REFERENCE_LOST (R68): An external reference loses qualification and a TRACEABLE source enters HOLDOVER. -/
def execReferenceLost (r : RefSrc) (s : State) : Host.Outcome State Fault Refusal :=
  .next (Machine.referenceLost r s)

/-- HOLDOVER_SECOND (R70): Each second in HOLDOVER advances HOLD_S, the ageing correction and TBS_HOLD_ERR. -/
def execHoldoverSecond (p : PartId) (bound : Nat) (s : State) : Host.Outcome State Fault Refusal :=
  .next (Machine.holdoverSecond p bound s)

/-- HOLDOVER_EXPIRY (R59): HOLD_S reaches TBS_HOLD_MAX and the code becomes FREE. -/
def execHoldoverExpiry (p : PartId) (s : State) : Host.Outcome State Fault Refusal :=
  .next (Machine.holdoverExpiry p s)

/-- DAC_UPDATE (R64): Once per millisecond the OCXO control code is written to the DAC. -/
def execDacUpdate (asked : Int) (slope : Option Int) (s : State) : Host.Outcome State Fault Refusal :=
  .next (Machine.dacUpdate asked (s.takeSlope slope))

/-- PPS_EDGE (R66): A 1PPS edge is time-stamped, numbered from OSC_TOD_NEXT and used to correct the calendar. -/
def execPpsEdge (stamp : HT) (s : State) : Host.Outcome State Fault Refusal :=
  .next (Machine.ppsEdge stamp s)

/-- PPS_MISSING (R66): No 1PPS edge within 1 µs of the expected second counts as a missing pulse. -/
def execPpsMissing (s : State) : Host.Outcome State Fault Refusal :=
  .next (Machine.ppsMissing  s)

/-- PTP_MESSAGE (R67): A PTP event message is time-stamped and processed by the time-receiver. -/
def execPtpMessage (port1 : Bool) (domain : Byte) (stamp : HT) (m : PtpMsg) (s : State) : Host.Outcome State Fault Refusal :=
  .next (Machine.ptpMessage port1 domain stamp m s)

/-- CALINFO_INTERVAL (R57): At least once per second the time source sends anchor, rate and UTC offset downstream in a CALINFO TIME frame. -/
def execCalinfoInterval (s : State) : Host.Outcome State Fault Refusal :=
  .next ((Machine.calinfoInterval s).pumpAll .dist)

end Sys2Proof.Machine
end

