-- ==== Sys2Proof/Machine/Dispatch.lean ====
section
/-!
DEFINITION. The dispatch: one arm for each command, a direct call of its meaning.
-/
namespace Sys2Proof.Machine

/-- A command's effect on everything but the queue. -/
def exec (cmd : Instr) (s : State) : Host.Outcome State Fault Refusal :=
  match cmd with
  | .registerWrite p src addr v whole => Sys2Proof.Machine.execRegisterWrite p src addr v whole s
  | .stagingLoWrite p src addr v => Sys2Proof.Machine.execStagingLoWrite p src addr v s
  | .statRead p src addr => Sys2Proof.Machine.execStatRead p src addr s
  | .sysUpdate p src mask => Sys2Proof.Machine.execSysUpdate p src mask s
  | .sysUpdAtHi p src v => Sys2Proof.Machine.execSysUpdAtHi p src v s
  | .sysUpdCancel p src v => Sys2Proof.Machine.execSysUpdCancel p src v s
  | .updateStrobe p => Sys2Proof.Machine.execUpdateStrobe p s
  | .strobe handle gen epoch mask tick => Sys2Proof.Machine.execStrobe handle gen epoch mask tick s
  | .guardedPair p src addr v => Sys2Proof.Machine.execGuardedPair p src addr v s
  | .sysUnlock p src key => Sys2Proof.Machine.execSysUnlock p src key s
  | .iaddrWrite p src sp v => Sys2Proof.Machine.execIaddrWrite p src sp v s
  | .idataAccess p src sp write => Sys2Proof.Machine.execIdataAccess p src sp write s
  | .idataFetchDone d => Sys2Proof.Machine.execIdataFetchDone d s
  | .cmbRstatRead src c => Sys2Proof.Machine.execCmbRstatRead src c s
  | .sysSeal p src v => Sys2Proof.Machine.execSysSeal p src v s
  | .sysLcreq p src target force => Sys2Proof.Machine.execSysLcreq p src target force s
  | .lcsAck p => Sys2Proof.Machine.execLcsAck p s
  | .lcsErr p => Sys2Proof.Machine.execLcsErr p s
  | .lcsTimeout p => Sys2Proof.Machine.execLcsTimeout p s
  | .wipeEnd p => Sys2Proof.Machine.execWipeEnd p s
  | .rstN r => Sys2Proof.Machine.execRstN r s
  | .htSetLoad p => Sys2Proof.Machine.execHtSetLoad p s
  | .calinfo port eff calHt sec ns rate utc => Sys2Proof.Machine.execCalinfo port eff calHt sec ns rate utc s
  | .calendarLoad p => Sys2Proof.Machine.execCalendarLoad p s
  | .ovenSample pin ext10m => Sys2Proof.Machine.execOvenSample pin ext10m s
  | .oscLost => Sys2Proof.Machine.execOscLost s
  | .referenceQualifies r => Sys2Proof.Machine.execReferenceQualifies r s
  | .referenceLost r => Sys2Proof.Machine.execReferenceLost r s
  | .holdoverSecond p bound => Sys2Proof.Machine.execHoldoverSecond p bound s
  | .holdoverExpiry p => Sys2Proof.Machine.execHoldoverExpiry p s
  | .dacUpdate asked slope => Sys2Proof.Machine.execDacUpdate asked slope s
  | .ppsEdge stamp => Sys2Proof.Machine.execPpsEdge stamp s
  | .ppsMissing => Sys2Proof.Machine.execPpsMissing s
  | .ptpMessage port1 domain stamp m => Sys2Proof.Machine.execPtpMessage port1 domain stamp m s
  | .tdcEvent e un ch src raw falling k level => Sys2Proof.Machine.execTdcEvent e un ch src raw falling k level s
  | .coarseWrap e un => Sys2Proof.Machine.execCoarseWrap e un s
  | .tdcRstatRead e un src => Sys2Proof.Machine.execTdcRstatRead e un src s
  | .tdcCalGo e un src => Sys2Proof.Machine.execTdcCalGo e un src s
  | .tdcCalDone e un hits taps => Sys2Proof.Machine.execTdcCalDone e un hits taps s
  | .tempBandChange band load => Sys2Proof.Machine.execTempBandChange band load s
  | .dtcOutAtHi e n src v => Sys2Proof.Machine.execDtcOutAtHi e n src v s
  | .dtcOutCancel e n src => Sys2Proof.Machine.execDtcOutCancel e n src s
  | .triggerFire e n => Sys2Proof.Machine.execTriggerFire e n s
  | .dtcCal e src mask => Sys2Proof.Machine.execDtcCal e src mask s
  | .dtcCalDone e n d => Sys2Proof.Machine.execDtcCalDone e n d s
  | .prtCtrlEn port src en => Sys2Proof.Machine.execPrtCtrlEn port src en s
  | .prtCtrlRetrain port src en => Sys2Proof.Machine.execPrtCtrlRetrain port src en s
  | .farEndSignal port mask => Sys2Proof.Machine.execFarEndSignal port mask s
  | .equalisationConverged port rx tx => Sys2Proof.Machine.execEqualisationConverged port rx tx s
  | .codewordLock port => Sys2Proof.Machine.execCodewordLock port s
  | .trainingTimeout port => Sys2Proof.Machine.execTrainingTimeout port s
  | .codewordLockLoss port k => Sys2Proof.Machine.execCodewordLockLoss port k s
  | .laneLoss port lane => Sys2Proof.Machine.execLaneLoss port lane s
  | .neg port f crcOk => Sys2Proof.Machine.execNeg port f crcOk s
  | .negInterval port => Sys2Proof.Machine.execNegInterval port s
  | .idle port hb ackE ackN credit spare crcOk => Sys2Proof.Machine.execIdle port hb ackE ackN credit spare crcOk s
  | .ack port ackE ackN credit crcOk => Sys2Proof.Machine.execAck port ackE ackN credit crcOk s
  | .nak port express seq crcOk => Sys2Proof.Machine.execNak port express seq crcOk s
  | .retrain port sub crcOk => Sys2Proof.Machine.execRetrain port sub crcOk s
  | .frameReceive port express hdr body crc tdec place => Sys2Proof.Machine.execFrameReceive port express hdr body crc tdec place s
  | .heartbeatDue port => Sys2Proof.Machine.execHeartbeatDue port s
  | .ackDue port => Sys2Proof.Machine.execAckDue port s
  | .nakRepeat port express => Sys2Proof.Machine.execNakRepeat port express s
  | .replayTimeout port express => Sys2Proof.Machine.execReplayTimeout port express s
  | .latencyCalibration port => Sys2Proof.Machine.execLatencyCalibration port s
  | .latencyCalibrationDone port tx rx => Sys2Proof.Machine.execLatencyCalibrationDone port tx rx s
  | .prtSwap port src v => Sys2Proof.Machine.execPrtSwap port src v s
  | .swapReq port farDir ln block crcOk => Sys2Proof.Machine.execSwapReq port farDir ln block crcOk s
  | .swapSwitch port ready => Sys2Proof.Machine.execSwapSwitch port ready s
  | .swapAck port block crcOk => Sys2Proof.Machine.execSwapAck port block crcOk s
  | .bulkTransfer n slot ty tag addr data => Sys2Proof.Machine.execBulkTransfer n slot ty tag addr data s
  | .bulkTransferDone n tag => Sys2Proof.Machine.execBulkTransferDone n tag s
  | .syncInterval port => Sys2Proof.Machine.execSyncInterval port s
  | .sync port m => Sys2Proof.Machine.execSync port m s
  | .dreq port xn rxts => Sys2Proof.Machine.execDreq port xn rxts s
  | .servoHoldTimeout port => Sys2Proof.Machine.execServoHoldTimeout port s
  | .revertTimeout p => Sys2Proof.Machine.execRevertTimeout p s
  | .slewEnd p => Sys2Proof.Machine.execSlewEnd p s
  | .twinSourceTimeout => Sys2Proof.Machine.execTwinSourceTimeout s
  | .diffInterval p => Sys2Proof.Machine.execDiffInterval p s
  | .diff offs => Sys2Proof.Machine.execDiff offs s
  | .srvLcalArm t src x y => Sys2Proof.Machine.execSrvLcalArm t src x y s
  | .srvLcalGo t src x y arm => Sys2Proof.Machine.execSrvLcalGo t src x y arm s
  | .loopbackCalibrationDone t => Sys2Proof.Machine.execLoopbackCalibrationDone t s
  | .beacon bht => Sys2Proof.Machine.execBeacon bht s
  | .keeperBeaconEdge i phi n str => Sys2Proof.Machine.execKeeperBeaconEdge i phi n str s
  | .keeperTriggerFire i out n str => Sys2Proof.Machine.execKeeperTriggerFire i out n str s
  | .enum b count h at_ => Sys2Proof.Machine.execEnum b count h at_ s
  | .beaconFrame rx h n bht => Sys2Proof.Machine.execBeaconFrame rx h n bht s
  | .keeperWrite rx h w data => Sys2Proof.Machine.execKeeperWrite rx h w data s
  | .keeperRead rx h w n str => Sys2Proof.Machine.execKeeperRead rx h w n str s
  | .tarm rx h mask target n str => Sys2Proof.Machine.execTarm rx h mask target n str s
  | .tcan rx h mask => Sys2Proof.Machine.execTcan rx h mask s
  | .fprep rx h k inc chgid init => Sys2Proof.Machine.execFprep rx h k inc chgid init s
  | .fcommit rx h k chgid cancel => Sys2Proof.Machine.execFcommit rx h k chgid cancel s
  | .rdata rx h w data => Sys2Proof.Machine.execRdata rx h w data s
  | .fack rx h k chgid => Sys2Proof.Machine.execFack rx h k chgid s
  | .fdone rx h k chgid miss => Sys2Proof.Machine.execFdone rx h k chgid miss s
  | .tevt rx h k out code t => Sys2Proof.Machine.execTevt rx h k out code t s
  | .ringFrameResend hop => Sys2Proof.Machine.execRingFrameResend hop s
  | .kprCtrlEn src en => Sys2Proof.Machine.execKprCtrlEn src en s
  | .kprFcmdGo src init => Sys2Proof.Machine.execKprFcmdGo src init s
  | .kprTatHi src v => Sys2Proof.Machine.execKprTatHi src v s
  | .kprTcan src v => Sys2Proof.Machine.execKprTcan src v s
  | .sobSigHi e src v => Sys2Proof.Machine.execSobSigHi e src v s
  | .sigFrame handle gen epoch entries => Sys2Proof.Machine.execSigFrame handle gen epoch entries s
  | .fabricSignalWrite beat => Sys2Proof.Machine.execFabricSignalWrite beat s
  | .signalAccept e => Sys2Proof.Machine.execSignalAccept e s
  | .conditionEvaluation e => Sys2Proof.Machine.execConditionEvaluation e s
  | .timerSatisfied e i => Sys2Proof.Machine.execTimerSatisfied e i s
  | .objectWindowRead e src obj w => Sys2Proof.Machine.execObjectWindowRead e src obj w s
  | .objectWindowWrite e src obj v => Sys2Proof.Machine.execObjectWindowWrite e src obj v s
  | .sobReset e src v vN => Sys2Proof.Machine.execSobReset e src v vN s
  | .sobResetDone e => Sys2Proof.Machine.execSobResetDone e s
  | .balanceCheckDone slot => Sys2Proof.Machine.execBalanceCheckDone slot s
  | .wickBind n src v => Sys2Proof.Machine.execWickBind n src v s
  | .wickUnbind n src v => Sys2Proof.Machine.execWickUnbind n src v s
  | .wickAssert => Sys2Proof.Machine.execWickAssert s
  | .wickAck n held => Sys2Proof.Machine.execWickAck n held s
  | .plHoldExpiry n => Sys2Proof.Machine.execPlHoldExpiry n s
  | .prelightStage slot => Sys2Proof.Machine.execPrelightStage slot s
  | .senCtrlEn e src en => Sys2Proof.Machine.execSenCtrlEn e src en s
  | .pllLock e => Sys2Proof.Machine.execPllLock e s
  | .scrubRead e upsets => Sys2Proof.Machine.execScrubRead e upsets s
  | .ctxStart e c src => Sys2Proof.Machine.execCtxStart e c src s
  | .ctxStop e c src => Sys2Proof.Machine.execCtxStop e c src s
  | .ctxClear e c src => Sys2Proof.Machine.execCtxClear e c src s
  | .ctxStep e c src => Sys2Proof.Machine.execCtxStep e c src s
  | .stopComplete e c => Sys2Proof.Machine.execStopComplete e c s
  | .imemWindowWrite e src word v => Sys2Proof.Machine.execImemWindowWrite e src word v s
  | .dmemWindowWrite e src word v => Sys2Proof.Machine.execDmemWindowWrite e src word v s
  | .contextRegisterWindowWrite e src word v => Sys2Proof.Machine.execContextRegisterWindowWrite e src word v s
  | .asyncCompletion e => Sys2Proof.Machine.execAsyncCompletion e s
  | .fx x imm => Sys2Proof.Machine.execFx x imm s
  | .add x d a b => Sys2Proof.Machine.execAdd x d a b s
  | .sub x d a b => Sys2Proof.Machine.execSub x d a b s
  | .and x d a b => Sys2Proof.Machine.execAnd x d a b s
  | .or x d a b => Sys2Proof.Machine.execOr x d a b s
  | .xor x d a b => Sys2Proof.Machine.execXor x d a b s
  | .shl x d a b => Sys2Proof.Machine.execShl x d a b s
  | .shr x d a b => Sys2Proof.Machine.execShr x d a b s
  | .sar x d a b => Sys2Proof.Machine.execSar x d a b s
  | .min x d a b => Sys2Proof.Machine.execMin x d a b s
  | .max x d a b => Sys2Proof.Machine.execMax x d a b s
  | .mov x d a => Sys2Proof.Machine.execMov x d a s
  | .mul x d a b => Sys2Proof.Machine.execMul x d a b s
  | .mulh x d a b => Sys2Proof.Machine.execMulh x d a b s
  | .cmpeq x d a b => Sys2Proof.Machine.execCmpeq x d a b s
  | .cmplt x d a b => Sys2Proof.Machine.execCmplt x d a b s
  | .cmpltu x d a b => Sys2Proof.Machine.execCmpltu x d a b s
  | .addi x d a imm => Sys2Proof.Machine.execAddi x d a imm s
  | .andi x d a imm => Sys2Proof.Machine.execAndi x d a imm s
  | .ori x d a imm => Sys2Proof.Machine.execOri x d a imm s
  | .xori x d a imm => Sys2Proof.Machine.execXori x d a imm s
  | .lui x d imm => Sys2Proof.Machine.execLui x d imm s
  | .br x cond off => Sys2Proof.Machine.execBr x cond off s
  | .beq x a b off => Sys2Proof.Machine.execBeq x a b off s
  | .bne x a b off => Sys2Proof.Machine.execBne x a b off s
  | .blt x a b off => Sys2Proof.Machine.execBlt x a b off s
  | .bge x a b off => Sys2Proof.Machine.execBge x a b off s
  | .bltu x a b off => Sys2Proof.Machine.execBltu x a b off s
  | .bgeu x a b off => Sys2Proof.Machine.execBgeu x a b off s
  | .call x a off => Sys2Proof.Machine.execCall x a off s
  | .ret x a => Sys2Proof.Machine.execRet x a s
  | .halt x => Sys2Proof.Machine.execHalt x s
  | .fadd x md d a b => Sys2Proof.Machine.execFadd x md d a b s
  | .fsub x md d a b => Sys2Proof.Machine.execFsub x md d a b s
  | .fmul x md d a b => Sys2Proof.Machine.execFmul x md d a b s
  | .fdiv x md d a b => Sys2Proof.Machine.execFdiv x md d a b s
  | .fsqrt x md d a => Sys2Proof.Machine.execFsqrt x md d a s
  | .fmin x d a b => Sys2Proof.Machine.execFmin x d a b s
  | .fmax x d a b => Sys2Proof.Machine.execFmax x d a b s
  | .ffma x md d a b => Sys2Proof.Machine.execFfma x md d a b s
  | .fcvtF2i x md d a => Sys2Proof.Machine.execFcvtF2i x md d a s
  | .fcvtF2u x md d a => Sys2Proof.Machine.execFcvtF2u x md d a s
  | .fcvtI2f x md d a => Sys2Proof.Machine.execFcvtI2f x md d a s
  | .fcvtU2f x md d a => Sys2Proof.Machine.execFcvtU2f x md d a s
  | .fcvtRi x md d a => Sys2Proof.Machine.execFcvtRi x md d a s
  | .fcmpEq x d a b => Sys2Proof.Machine.execFcmpEq x d a b s
  | .fcmpLt x d a b => Sys2Proof.Machine.execFcmpLt x d a b s
  | .fcmpLe x d a b => Sys2Proof.Machine.execFcmpLe x d a b s
  | .fcmpUn x d a b => Sys2Proof.Machine.execFcmpUn x d a b s
  | .ld x d a imm => Sys2Proof.Machine.execLd x d a imm s
  | .ldw x d a imm => Sys2Proof.Machine.execLdw x d a imm s
  | .ldh x d a off => Sys2Proof.Machine.execLdh x d a off s
  | .ldb x d a off => Sys2Proof.Machine.execLdb x d a off s
  | .st x d a imm => Sys2Proof.Machine.execSt x d a imm s
  | .stw x d a imm => Sys2Proof.Machine.execStw x d a imm s
  | .sth x d a off => Sys2Proof.Machine.execSth x d a off s
  | .stb x d a off => Sys2Proof.Machine.execStb x d a off s
  | .getc x d a imm => Sys2Proof.Machine.execGetc x d a imm s
  | .putc x d a imm => Sys2Proof.Machine.execPutc x d a imm s
  | .htr x td => Sys2Proof.Machine.execHtr x td s
  | .tadd x td ta a imm => Sys2Proof.Machine.execTadd x td ta a imm s
  | .tdiff x td ta a => Sys2Proof.Machine.execTdiff x td ta a s
  | .tcmp x p td ta r => Sys2Proof.Machine.execTcmp x p td ta r s
  | .waitt x ta a => Sys2Proof.Machine.execWaitt x ta a s
  | .waittTarget e c => Sys2Proof.Machine.execWaittTarget e c s
  | .trig x ta a imm => Sys2Proof.Machine.execTrig x ta a imm s
  | .capt x td a ch => Sys2Proof.Machine.execCapt x td a ch s
  | .sig x obj a dst => Sys2Proof.Machine.execSig x obj a dst s
  | .wait x obj a consume timed td => Sys2Proof.Machine.execWait x obj a consume timed td s
  | .waitDeadline e c => Sys2Proof.Machine.execWaitDeadline e c s
  | .poll x obj a consume => Sys2Proof.Machine.execPoll x obj a consume s
  | .objset x obj a => Sys2Proof.Machine.execObjset x obj a s
  | .objget x obj a stamp => Sys2Proof.Machine.execObjget x obj a stamp s
  | .bind x obj a consume oneshot plgrp => Sys2Proof.Machine.execBind x obj a consume oneshot plgrp s
  | .bindUnbind x obj a consume oneshot plgrp => Sys2Proof.Machine.execBindUnbind x obj a consume oneshot plgrp s
  | .prelit x ta a => Sys2Proof.Machine.execPrelit x ta a s
  | .cguard x obj a wick => Sys2Proof.Machine.execCguard x obj a wick s
  | .arm x obj a timed td => Sys2Proof.Machine.execArm x obj a timed td s
  | .release x obj a => Sys2Proof.Machine.execRelease x obj a s
  | .gate x obj a n => Sys2Proof.Machine.execGate x obj a n s
  | .contrib x obj a => Sys2Proof.Machine.execContrib x obj a s
  | .result x d a b td => Sys2Proof.Machine.execResult x d a b td s
  | .launch x a ta obj => Sys2Proof.Machine.execLaunch x a ta obj s
  | .phase x a ta obj => Sys2Proof.Machine.execPhase x a ta obj s
  | .plan x a ta obj => Sys2Proof.Machine.execPlan x a ta obj s
  | .snap x obj a => Sys2Proof.Machine.execSnap x obj a s
  | .window x a ta obj => Sys2Proof.Machine.execWindow x a ta obj s
  | .commit x obj a => Sys2Proof.Machine.execCommit x obj a s
  | .rebuild x obj a => Sys2Proof.Machine.execRebuild x obj a s
  | .evict x obj a => Sys2Proof.Machine.execEvict x obj a s
  | .shadowStart x obj a => Sys2Proof.Machine.execShadowStart x obj a s
  | .shadowAdmit x obj a => Sys2Proof.Machine.execShadowAdmit x obj a s
  | .shadowAbandon x obj a => Sys2Proof.Machine.execShadowAbandon x obj a s
  | .jnl x d a b code => Sys2Proof.Machine.execJnl x d a b code s
  | .jflush x obj a => Sys2Proof.Machine.execJflush x obj a s
  | .upd x a ta obj job => Sys2Proof.Machine.execUpd x a ta obj job s
  | .jobcmd origin node handle gen epoch opcode sub operand tick tag => Sys2Proof.Machine.execJobcmd origin node handle gen epoch opcode sub operand tick tag s
  | .jobcmdDone handle gen epoch tag code value late => Sys2Proof.Machine.execJobcmdDone handle gen epoch tag code value late s
  | .armReq origin node root handle gen rank earliest leaf v3 => Sys2Proof.Machine.execArmReq origin node root handle gen rank earliest leaf v3 s
  | .orderHoldRelease => Sys2Proof.Machine.execOrderHoldRelease s
  | .armTimeout k => Sys2Proof.Machine.execArmTimeout k s
  | .armAck dst handle gen epoch l floor pre => Sys2Proof.Machine.execArmAck dst handle gen epoch l floor pre s
  | .armRefuse handle gen code => Sys2Proof.Machine.execArmRefuse handle gen code s
  | .releaseReq origin node handle gen rank => Sys2Proof.Machine.execReleaseReq origin node handle gen rank s
  | .releaseAt handle gen epoch f => Sys2Proof.Machine.execReleaseAt handle gen epoch f s
  | .releaseTick c => Sys2Proof.Machine.execReleaseTick c s
  | .releaseAtTimeout c => Sys2Proof.Machine.execReleaseAtTimeout c s
  | .gateFrame origin handle gen epoch status seq n => Sys2Proof.Machine.execGateFrame origin handle gen epoch status seq n s
  | .gatePart handle gen epoch or_ and_ count seq => Sys2Proof.Machine.execGatePart handle gen epoch or_ and_ count seq s
  | .gateDeadline k missing => Sys2Proof.Machine.execGateDeadline k missing s
  | .launchFrame handle gen epoch l gateSeq forGate resSeq status => Sys2Proof.Machine.execLaunchFrame handle gen epoch l gateSeq forGate resSeq status s
  | .launchInstant j => Sys2Proof.Machine.execLaunchInstant j s
  | .abort handle gen epoch => Sys2Proof.Machine.execAbort handle gen epoch s
  | .replan dst handle gen epoch dom => Sys2Proof.Machine.execReplan dst handle gen epoch dom s
  | .phaseFrame dst handle gen epoch t map rank => Sys2Proof.Machine.execPhaseFrame dst handle gen epoch t map rank s
  | .phaseTick j => Sys2Proof.Machine.execPhaseTick j s
  | .restore handle gen epoch tr gateSeq => Sys2Proof.Machine.execRestore handle gen epoch tr gateSeq s
  | .replayEnd handle gen epoch tick => Sys2Proof.Machine.execReplayEnd handle gen epoch tick s
  | .rampReq origin node handle e plw span pre ranks => Sys2Proof.Machine.execRampReq origin node handle e plw span pre ranks s
  | .rampOffer handle leaf offer => Sys2Proof.Machine.execRampOffer handle leaf offer s
  | .rampFix handle l => Sys2Proof.Machine.execRampFix handle l s
  | .rampConfirm handle leaf l pre => Sys2Proof.Machine.execRampConfirm handle leaf l pre s
  | .rampHoldLapse handle => Sys2Proof.Machine.execRampHoldLapse handle s
  | .contribFrame origin handle gen epoch seq coll idx shape nspill spill rank first elems last check => Sys2Proof.Machine.execContribFrame origin handle gen epoch seq coll idx shape nspill spill rank first elems last check s
  | .partialFrame handle gen epoch seq coll idx shape nspill spill poison integrity first elems contributors last check => Sys2Proof.Machine.execPartialFrame handle gen epoch seq coll idx shape nspill spill poison integrity first elems contributors last check s
  | .resultFrame handle gen epoch coll seq idx last data => Sys2Proof.Machine.execResultFrame handle gen epoch coll seq idx last data s
  | .scanResult handle gen epoch coll seq idx last data => Sys2Proof.Machine.execScanResult handle gen epoch coll seq idx last data s
  | .spillIn port handle gen epoch seq coll idx shape nspill spill rank first elems last contributors check => Sys2Proof.Machine.execSpillIn port handle gen epoch seq coll idx shape nspill spill rank first elems last contributors check s
  | .spillOut node handle gen epoch seq coll idx code poison integrity first elems last check => Sys2Proof.Machine.execSpillOut node handle gen epoch seq coll idx code poison integrity first elems last check s
  | .spillTimeout p t check => Sys2Proof.Machine.execSpillTimeout p t check s
  | .queueGrant t check => Sys2Proof.Machine.execQueueGrant t check s
  | .suspectTimeout pos => Sys2Proof.Machine.execSuspectTimeout pos s
  | .confirmTimeout pos => Sys2Proof.Machine.execConfirmTimeout pos s
  | .onesideTimeout pos => Sys2Proof.Machine.execOnesideTimeout pos s
  | .suspect node since => Sys2Proof.Machine.execSuspect node since s
  | .confirm node heard => Sys2Proof.Machine.execConfirm node heard s
  | .dead origin src node cause dies => Sys2Proof.Machine.execDead origin src node cause dies s
  | .mirrorAck m => Sys2Proof.Machine.execMirrorAck m s
  | .mirrorTimeout k => Sys2Proof.Machine.execMirrorTimeout k s
  | .fence => Sys2Proof.Machine.execFence s
  | .selfFence => Sys2Proof.Machine.execSelfFence s
  | .unfence => Sys2Proof.Machine.execUnfence s
  | .fstate n fenced => Sys2Proof.Machine.execFstate n fenced s
  | .suspectRpt node => Sys2Proof.Machine.execSuspectRpt node s
  | .evictReq node => Sys2Proof.Machine.execEvictReq node s
  | .unfenceReq node => Sys2Proof.Machine.execUnfenceReq node s
  | .mbrFenceFence src pos => Sys2Proof.Machine.execMbrFenceFence src pos s
  | .mbrFenceUnfence src pos => Sys2Proof.Machine.execMbrFenceUnfence src pos s
  | .pathLost node => Sys2Proof.Machine.execPathLost node s
  | .leafLost origin src leaf twin => Sys2Proof.Machine.execLeafLost origin src leaf twin s
  | .shadowOn dst handle gen epoch shadow partner => Sys2Proof.Machine.execShadowOn dst handle gen epoch shadow partner s
  | .shadowOff dst handle gen epoch admitted rank => Sys2Proof.Machine.execShadowOff dst handle gen epoch admitted rank s
  | .digest handle gen epoch node seq coll shadow digest => Sys2Proof.Machine.execDigest handle gen epoch node seq coll shadow digest s
  | .mismatch handle gen epoch seq coll => Sys2Proof.Machine.execMismatch handle gen epoch seq coll s
  | .condsusp node bin clear => Sys2Proof.Machine.execCondsusp node bin clear s
  | .hltSentRes3 src v => Sys2Proof.Machine.execHltSentRes3 src v s
  | .hltBinClr src mask => Sys2Proof.Machine.execHltBinClr src mask s
  | .mbrJevtRead src => Sys2Proof.Machine.execMbrJevtRead src s
  | .frPeriod liveSeconds => Sys2Proof.Machine.execFrPeriod liveSeconds s
  | .snapReq handle gen epoch node slot b wofs wlen => Sys2Proof.Machine.execSnapReq handle gen epoch node slot b wofs wlen s
  | .openEpoch p handle gen epoch slot l b wofs wlen => Sys2Proof.Machine.execOpenEpoch p handle gen epoch slot l b wofs wlen s
  | .openRefuse handle gen epoch slot code => Sys2Proof.Machine.execOpenRefuse handle gen epoch slot code s
  | .leafWindowOpen set slot => Sys2Proof.Machine.execLeafWindowOpen set slot s
  | .leafWindowClose set slot => Sys2Proof.Machine.execLeafWindowClose set slot s
  | .bulkData n handle gen epoch slot half block off data => Sys2Proof.Machine.execBulkData n handle gen epoch slot half block off data s
  | .bulkZero n handle gen epoch slot half block => Sys2Proof.Machine.execBulkZero n handle gen epoch slot half block s
  | .bulkResend n handle gen epoch slot half block off data => Sys2Proof.Machine.execBulkResend n handle gen epoch slot half block off data s
  | .slowPathMerge set slot => Sys2Proof.Machine.execSlowPathMerge set slot s
  | .synd at_ handle gen epoch off data => Sys2Proof.Machine.execSynd at_ handle gen epoch off data s
  | .bulkRestore port handle gen epoch addr off data => Sys2Proof.Machine.execBulkRestore port handle gen epoch addr off data s
  | .prepare handle gen epoch slot => Sys2Proof.Machine.execPrepare handle gen epoch slot s
  | .prepareTimeout handle slot => Sys2Proof.Machine.execPrepareTimeout handle slot s
  | .prepared handle gen epoch leaf slot answer => Sys2Proof.Machine.execPrepared handle gen epoch leaf slot answer s
  | .commitMessage p handle gen epoch slot => Sys2Proof.Machine.execCommitMessage p handle gen epoch slot s
  | .discard p handle gen epoch slot code => Sys2Proof.Machine.execDiscard p handle gen epoch slot code s
  | .rebuildReq handle gen epoch mask ts pairs => Sys2Proof.Machine.execRebuildReq handle gen epoch mask ts pairs s
  | .rebuildWindow handle => Sys2Proof.Machine.execRebuildWindow handle s
  | .rebuilt handle gen epoch leaf code erasures => Sys2Proof.Machine.execRebuilt handle gen epoch leaf code erasures s
  | .fabricCompletion lifetime err => Sys2Proof.Machine.execFabricCompletion lifetime err s
  | .spillRetry => Sys2Proof.Machine.execSpillRetry s
  | .lifCtrlLoad p src => Sys2Proof.Machine.execLifCtrlLoad p src s
  | .lifCtrlSave p src => Sys2Proof.Machine.execLifCtrlSave p src s
  | .lifCtrlFresh p src => Sys2Proof.Machine.execLifCtrlFresh p src s
  | .saveInterval p => Sys2Proof.Machine.execSaveInterval p s
  | .lifetimeSaveDone p ok => Sys2Proof.Machine.execLifetimeSaveDone p ok s
  | .trendUpdate p events => Sys2Proof.Machine.execTrendUpdate p events s
  | .hbmChannelMoveDone c => Sys2Proof.Machine.execHbmChannelMoveDone c s
  | .mgmtRead port addr n1 tag => Sys2Proof.Machine.execMgmtRead port addr n1 tag s
  | .mgmtWrite port addr tag words => Sys2Proof.Machine.execMgmtWrite port addr tag words s
  | .rsp port tag code done words => Sys2Proof.Machine.execRsp port tag code done words s
  | .tilMreqGo t src => Sys2Proof.Machine.execTilMreqGo t src s
  | .mreqTimeout t => Sys2Proof.Machine.execMreqTimeout t s
  | .wsRegacc p write word data => Sys2Proof.Machine.execWsRegacc p write word data s
  | .wsMbist p go fail => Sys2Proof.Machine.execWsMbist p go fail s
  | .perstN seven => Sys2Proof.Machine.execPerstN seven s
  | .supplyFault => Sys2Proof.Machine.execSupplyFault s
  | .heldResetRelease f oscIn norOk => Sys2Proof.Machine.execHeldResetRelease f oscIn norOk s
  | .thermtrip => Sys2Proof.Machine.execThermtrip s
  | .bandSample tiles stks => Sys2Proof.Machine.execBandSample tiles stks s
  | .hbmTrained stks => Sys2Proof.Machine.execHbmTrained stks s
  | .bootRom a0 b0 a7 b7 => Sys2Proof.Machine.execBootRom a0 b0 a7 b7 s
  | .meshEdgeDown t u => Sys2Proof.Machine.execMeshEdgeDown t u s
  | .meshIsolation t => Sys2Proof.Machine.execMeshIsolation t s
  | .hkpWatchdogExpiry => Sys2Proof.Machine.execHkpWatchdogExpiry s
  | .hkpKick src v => Sys2Proof.Machine.execHkpKick src v s
  | .hkpCtrlTakeover src => Sys2Proof.Machine.execHkpCtrlTakeover src s
  | .hkpH2p3 src v => Sys2Proof.Machine.execHkpH2p3 src v s
  | .hkpP2h3 src v => Sys2Proof.Machine.execHkpP2h3 src v s
  | .i3cPrivateWrite seven addr words => Sys2Proof.Machine.execI3cPrivateWrite seven addr words s
  | .i3cPrivateRead seven n => Sys2Proof.Machine.execI3cPrivateRead seven n s
  | .calinfoInterval => Sys2Proof.Machine.execCalinfoInterval s
  | .meshEdgeUp t u => Sys2Proof.Machine.execMeshEdgeUp t u s
  | .rebuildPrepTo handle => Sys2Proof.Machine.execRebuildPrepTo handle s
  | .tRReached j => Sys2Proof.Machine.execTRReached j s
  | .crossingFifoOverrun rx => Sys2Proof.Machine.execCrossingFifoOverrun rx s
  | .patrolScrub err => Sys2Proof.Machine.execPatrolScrub err s
  | .illegal x word => Sys2Proof.Machine.execIllegal x word s
  | .ifetch x => Sys2Proof.Machine.execIfetch x s

end Sys2Proof.Machine
end

