-- ==== Sys2Proof/Machine/Step.lean ====
section
/-!
DEFINITION. One step of the block: the command at the front of the queue, or, while none waits, one edge of each part's clock.
-/
namespace Sys2Proof.Machine

/-- While no command waits, hall time goes on: one edge of each part's clock (log entry 24). -/
def State.idle (s : State) : State := (s.edge .tsu).edge .dist

/-- Takes the command at the front of the queue and carries it out with the rest of the queue. -/
def step (s : State) : Host.Outcome State Fault Refusal :=
  match s.pending with
  | [] => .next s.idle
  | c :: rest => exec c { s with pending := rest }

/-- The state with the command that a word of the opcode table spells in front: the table gives its rows no bits, so no word spells one. -/
def State.withFetchWord (s : State) (nbits w : Nat) : State :=
  match Sys2Proof.decodeTableWord nbits w with
  | some c => { s with pending := c :: s.pending }
  | none => s

end Sys2Proof.Machine
end

