-- ==== Sys2Proof/Safety.lean ====
section
/-!
DEFINITION. The terms claims are stated in: completion, what an issued instruction may change, and the invariant of the machine.
-/
namespace Sys2Proof.Machine

/-- The command completes from `s` in a next state of which `P` holds. -/
def Completes (c : Instr) (s : State) (P : State → Prop) : Prop := ∃ t, exec c s = .next t ∧ P t

/-! ### Issued instructions (R195, R200, R203–R205, R213–R216) -/

/-- The context is RUNNING and it is its turn (R195), its PC lies in its IWIN at a word without a stored double-bit error, at most `n` prefixes
are open and the engine's own checks find nothing. -/
abbrev CanIssue (s : State) (x : CtxRef) (n : Nat) : Prop :=
  s.cst x.eng x.ctx = 1 ∧ s.turnAt x.eng (s.cycleOf x) = some x.ctx.val ∧ s.pc x.eng x.ctx < s.iwinSize x.eng x.ctx ∧
  (s.eng x.eng).badI.contains (s.iwinBase x.eng x.ctx + s.pc x.eng x.ctx) = false ∧
  (s.ctx x.eng x.ctx).fx.length ≤ n ∧ x.check = .good

/-- The engine's divide unit is free in the cycle of the issue (R197). -/
abbrev DivideFree (s : State) (x : CtxRef) : Prop := (s.eng x.eng).divFree ≤ s.cycleOf x

/-- Everything but the parts' registers and the engines is as it was. -/
def SameOutside (s t : State) : Prop :=
  { t with engines := s.engines, tsu := { t.tsu with regs := s.tsu.regs }, dist := { t.dist with regs := s.dist.regs } } = s

/-- Only context `x` differs: its PC and STATE registers, its own data, and the DMEM of its engine; the rotation goes on from it at the cycle of its
issue (R195), and the engine counts the single-bit errors it corrects, if it stores any (R204). -/
def OnlyContext (x : CtxRef) (s t : State) : Prop :=
  SameOutside s t ∧
  (∀ p a, (p = x.eng.part ∧ (a = addrOf p .ctxPc (ctxInst x.eng x.ctx) ∨ a = addrOf p .ctxState (ctxInst x.eng x.ctx) ∨
      (((s.eng x.eng).oneI ≠ [] ∨ (s.eng x.eng).oneD ≠ []) ∧ (a = addrOf p .senEccCnt x.eng.inst ∨ a = addrOf p .senStat x.eng.inst)))) ∨
    t.rdA p a = s.rdA p a) ∧
  (∀ e, e ≠ x.eng → t.eng e = s.eng e) ∧
  (let v := s.eng x.eng
   { t.eng x.eng with
      ctxs := v.ctxs, dmem := v.dmem, badD := v.badD, oneI := v.oneI, oneD := v.oneD, last := v.last, cycle := v.cycle, ready := v.ready
      divFree := v.divFree } = v) ∧
  (t.eng x.eng).last = x.ctx.val ∧ (t.eng x.eng).cycle = s.cycleOf x ∧
  ∀ c, c ≠ x.ctx.val → t.ctx x.eng c = s.ctx x.eng c

/-- The PC after a move to `n`: one past the last index of a full IMEM is 65,536 (R225). -/
abbrev pcAt (n : Nat) : Nat := n % 65536 + (if 65536 ≤ n then 65536 else 0)

/-- The instruction has ended: the PC has moved to `pc`, no prefix is open, and a context that was stepped is STOPPED. -/
abbrev Retired (x : CtxRef) (pc : Nat) (s t : State) : Prop :=
  t.pc x.eng x.ctx = pcAt pc ∧ (t.ctx x.eng x.ctx).fx = [] ∧ (t.ctx x.eng x.ctx).stepping = false ∧
  t.cst x.eng x.ctx = if (s.ctx x.eng x.ctx).stepping then 0 else 1

/-- The context's t registers, predicates, wait and operations are as they were. -/
def KeepsTP (x : CtxRef) (s t : State) : Prop :=
  (∀ r, t.t x.eng x.ctx r = s.t x.eng x.ctx r) ∧ (t.ctx x.eng x.ctx).p = (s.ctx x.eng x.ctx).p

/-- The context's wait and operations are as they were. -/
def KeepsOps (x : CtxRef) (s t : State) : Prop :=
  (t.ctx x.eng x.ctx).wait = (s.ctx x.eng x.ctx).wait ∧ (t.ctx x.eng x.ctx).ops = (s.ctx x.eng x.ctx).ops ∧
  (t.ctx x.eng x.ctx).opSeq = (s.ctx x.eng x.ctx).opSeq

/-- Every byte of the engine's DMEM reads as before. -/
def KeepsDmem (x : CtxRef) (s t : State) : Prop := ∀ a, (t.eng x.eng).byte a = (s.eng x.eng).byte a

/-- The next instruction's PC. -/
abbrev nextPc (x : CtxRef) (s : State) : Nat := s.pc x.eng x.ctx + 1

/-- What a g register holds after a write of `v`: g0 takes nothing (R193). -/
abbrev gAfter (d : Fin 32) (v : DWord) : DWord := if d.val = 0 then 0 else v

/-- The instruction writes `v` to g register `d` and ends with PC `pc`; nothing else changes. -/
def WritesGTo (x : CtxRef) (d : Fin 32) (v : DWord) (pc : Nat) (s t : State) : Prop :=
  OnlyContext x s t ∧ Retired x pc s t ∧ KeepsOps x s t ∧ KeepsTP x s t ∧ KeepsDmem x s t ∧
  t.g x.eng x.ctx d = gAfter d v ∧ ∀ r, r ≠ d → t.g x.eng x.ctx r = s.g x.eng x.ctx r

/-- The instruction writes `v` to g register `d` and ends with the next PC; nothing else changes. -/
def WritesG (x : CtxRef) (d : Fin 32) (v : DWord) (s t : State) : Prop := WritesGTo x d v (nextPc x s) s t

/-- The instruction writes `v` to t register `d` and ends with the next PC; nothing else changes. -/
def WritesT (x : CtxRef) (d : Fin 8) (v : HT) (s t : State) : Prop :=
  OnlyContext x s t ∧ Retired x (nextPc x s) s t ∧ KeepsOps x s t ∧ KeepsDmem x s t ∧
  (∀ r, t.g x.eng x.ctx r = s.g x.eng x.ctx r) ∧ (t.ctx x.eng x.ctx).p = (s.ctx x.eng x.ctx).p ∧
  t.t x.eng x.ctx d = v ∧ ∀ r, r ≠ d → t.t x.eng x.ctx r = s.t x.eng x.ctx r

/-- The instruction writes `v` to predicate `d` and ends with the next PC; nothing else changes. -/
def WritesP (x : CtxRef) (d : Fin 8) (v : Bool) (s t : State) : Prop :=
  OnlyContext x s t ∧ Retired x (nextPc x s) s t ∧ KeepsOps x s t ∧ KeepsDmem x s t ∧
  (∀ r, t.g x.eng x.ctx r = s.g x.eng x.ctx r) ∧ (∀ r, t.t x.eng x.ctx r = s.t x.eng x.ctx r) ∧
  t.pr x.eng x.ctx d = v ∧ ∀ r, r ≠ d → t.pr x.eng x.ctx r = s.pr x.eng x.ctx r

/-- The instruction ends with PC `pc` and writes no register and no memory. -/
def Jumps (x : CtxRef) (pc : Nat) (s t : State) : Prop :=
  OnlyContext x s t ∧ Retired x pc s t ∧ KeepsOps x s t ∧ KeepsTP x s t ∧ KeepsDmem x s t ∧
  ∀ r, t.g x.eng x.ctx r = s.g x.eng x.ctx r

/-- The instruction stores the low `w` bytes of `v`, little-endian, at DMEM address `a`, and ends with the next PC; no other byte and
no register changes. -/
def StoresD (x : CtxRef) (a w : Nat) (v : DWord) (s t : State) : Prop :=
  OnlyContext x s t ∧ Retired x (nextPc x s) s t ∧ KeepsOps x s t ∧ KeepsTP x s t ∧
  (∀ r, t.g x.eng x.ctx r = s.g x.eng x.ctx r) ∧
  ∀ b, (t.eng x.eng).byte b =
    if a ≤ b ∧ b < a + w then BitVec.ofNat 8 (v.toNat / 256 ^ (b - a)) else (s.eng x.eng).byte b

/-- The instruction ends with the next PC and leaves outcome word `w` in g register `a` (R234). -/
abbrev Reports (x : CtxRef) (a : Fin 32) (w : DWord) (s t : State) : Prop :=
  Retired x (nextPc x s) s t ∧ t.g x.eng x.ctx a = gAfter a w

/-- The context waits for `w` at its PC (R200). -/
abbrev Waits (x : CtxRef) (w : Waiting) (s t : State) : Prop :=
  t.cst x.eng x.ctx = 2 ∧ (t.ctx x.eng x.ctx).wait = some w ∧ t.pc x.eng x.ctx = s.pc x.eng x.ctx

/-- An asynchronous instruction with completion object `obj` issues: one of the eight tags is free and the object passes (R198, R239). -/
abbrev CanAccept (s : State) (x : CtxRef) (obj : Nat) : Prop :=
  CanIssue s x 0 ∧ s.complCode x.eng x.ctx obj = .ok ∧ (s.ctx x.eng x.ctx).freeTag ≠ none

/-- The operation is outstanding under the lowest free tag and the next sequence, which the outcome word in g register `a` names
(R235, R239). -/
def Accepts (x : CtxRef) (a : Fin 32) (opcode obj : Nat) (s t : State) : Prop :=
  ∃ k, (s.ctx x.eng x.ctx).freeTag = some k ∧
    ((t.op ⟨x.eng, x.ctx, k, (s.ctx x.eng x.ctx).opSeq⟩).map fun (o : Op) => (o.opcode, o.obj, o.result)) = some (opcode, obj, none) ∧
    (t.ctx x.eng x.ctx).opSeq = ((s.ctx x.eng x.ctx).opSeq + 1) % 256 ∧
    Reports x a (outWord .ok (k + 2 ^ 8 * (s.ctx x.eng x.ctx).opSeq)) s t

/-- The operand block of `n` bytes at DWIN offset `off` is aligned, within the DWIN and free of double-bit errors; it lies at DMEM
address `d` (R226, R238). -/
abbrev HasBlock (s : State) (x : CtxRef) (off n d : Nat) : Prop :=
  off % 8 = 0 ∧ off + n ≤ s.dwinSize x.eng x.ctx ∧ s.dwinBase x.eng x.ctx + off = d ∧ s.badDmem x.eng d n = false

/-- The offset `ga + imm` of an access lies in the DWIN and is a multiple of its width (R226). -/
abbrev InDwin (s : State) (x : CtxRef) (off w : Nat) : Prop := off % w = 0 ∧ off + w ≤ s.dwinSize x.eng x.ctx

/-! ### The keepers' ring -/

/-- A ring frame has the CRC it should and the HSEQ its receiver expects (R160, R161). -/
abbrev RingGood (s : State) (rx : Nat) (h : RingHdr) (f : RingFrame) : Prop :=
  crc16 (f.body h.hseq.toNat) = h.crc ∧ h.hseq.toNat = (s.hop rx).expect

/-- A good frame for keeper `i`: its own ADDR or the broadcast one (R161). -/
abbrev ForKeeper (s : State) (i : Fin 256) (rx : Fin 260) (h : RingHdr) (cmd bcn arg : Nat) : Prop :=
  rx.val = i.val ∧ (h.addr.toNat = i.val ∨ h.addr.toNat = allKeepers) ∧ RingGood s rx.val h ⟨cmd, h.addr.toNat, bcn, arg⟩

/-- A good frame at the core, from the keeper in ADDR (R161). -/
abbrev ForCore (s : State) (rx : Fin 260) (h : RingHdr) (cmd bcn arg : Nat) : Prop :=
  256 ≤ rx.val ∧ RingGood s rx.val h ⟨cmd, h.addr.toNat, bcn, arg⟩

/-- A sender of the ring holds the frame, as one of its own or as one to forward (R160). -/
abbrev RingHolds (t : State) (hop : Nat) (own : Bool) (f : RingFrame) : Prop :=
  (t.kc.ring.any fun r => r.hop == hop && r.own == own && r.frame == f) = true

/-- What a receiver of the ring does about a good frame: it expects the next HSEQ, and a keeper forwards a broadcast (R160, R161). -/
abbrev RingTaken (s t : State) (rx : Fin 260) (h : RingHdr) (cmd bcn arg : Nat) : Prop :=
  (t.hop rx).expect = ((s.hop rx).expect + 1) % 8 ∧
  (rx.val < 256 ∧ h.addr.toNat = allKeepers → RingHolds t rx.val false ⟨cmd, allKeepers, bcn, arg⟩)

/-- The branches a command goes out on: each in use for a broadcast, that of the keeper it names otherwise (R161). -/
abbrev OnBranches (s : State) (addr : Nat) (b : Fin 4) : Prop :=
  if addr = allKeepers then s.bt .tsu .kprCfg b = true else (s.keeper addr).branch = b.val

/-- A sender's frames that await acknowledgement have each been sent once more (R160). -/
abbrev RingResent (s t : State) (hop : Nat) : Prop :=
  t.kc.ring = s.kc.ring.map fun f => if f.hop == hop && f.wire.isSome then { f with resends := f.resends + 1 } else f

/-! ### Frames of a job -/

/-- A STEP frame's handle and generation are those of slot `c` of a TSU that is not FENCED (R255, R319). -/
abbrev FrameAt (s : State) (handle : BitVec 16) (gen : Byte) (c : Nat) : Prop :=
  s.slotOfHandle handle.toNat = some c ∧ s.fenced = false ∧ s.fd .tsu .slotJob 31 24 c = gen.toNat

/-- Its epoch is the slot's too. -/
abbrev FrameFor (s : State) (handle : BitVec 16) (gen : Byte) (epoch : Word) (c : Nat) : Prop :=
  FrameAt s handle gen c ∧ s.rd .tsu .slotEpoch c = epoch

/-- A frame's handle, generation and epoch are those of job context `k` (R319). -/
abbrev JobAtRoot (s : State) (handle : BitVec 16) (gen : Byte) (epoch : Word) (k : Nat) : Prop :=
  s.jobOfHandle handle.toNat = some k ∧ (s.job k).gen = gen.toNat ∧ (s.job k).epoch = epoch.toNat

/-- A relay knows the job of a frame by its generation and epoch (R307, R319). -/
abbrev RelayFor (s : State) (handle : BitVec 16) (gen : Byte) (epoch : Word) : Prop :=
  (s.relays.find? fun (y : Nat × Relay) => y.1 == handle.toNat).map (fun (y : Nat × Relay) => (y.2.gen, y.2.epoch)) =
    some (gen.toNat, epoch.toNat)

/-- A frame of class STEP and the type goes on to the member, with its origin HT. -/
abbrev PassesOn (q : RelayTo) (ty : Nat) (s t : State) : Prop :=
  t.dist.sent.length = s.dist.sent.length + 1 ∧
  t.dist.sent.getLast?.map (fun (y : Sent) => (y.dest, y.frame.cls, y.frame.ty, y.frame.origin)) =
    some (.node q.node.toNat, 2, ty, q.origin)

/-- A frame names context `k` of a leaf's chains, with the epoch last learnt (R319, R335). -/
abbrev LeafFor (s : State) (handle : BitVec 16) (gen : Byte) (epoch : Word) (k : Nat) : Prop :=
  (s.chainCtxs.find? fun (y : Nat × ChainCtx) => y.2.handle == handle.toNat).map
      (fun (y : Nat × ChainCtx) => (y.1, y.2.gen, y.2.epoch)) = some (k, gen.toNat, epoch.toNat) ∧
  ((s.relays.find? fun (y : Nat × Relay) => y.1 == handle.toNat && y.2.gen == gen.toNat).map fun (y : Nat × Relay) => y.2.epoch).getD
    epoch.toNat = epoch.toNat

/-! ### The invariant -/

/-- The maps of job slots, job contexts, chain slots and nodes are in canonical form. -/
abbrev Maps (s : State) : Prop :=
  mwf (fun _ => ({} : Slot)) s.slots = true ∧ mwf (fun _ => ({} : Job)) s.jobs = true ∧
  mwf (fun _ => ({} : ChainSlot)) s.chains = true ∧ mwf (fun _ => ({} : NodeSt)) s.nodes = true

/-- The register words of both parts, the memories of every engine and the maps of `Maps` are in canonical form; the TSU's ring and the
distributor's hold no more records than they have room for (R366, R370). -/
def Inv (s : State) : Prop :=
  mwf (resetAt .tsu) s.tsu.regs = true ∧ mwf (resetAt .dist) s.dist.regs = true ∧
  (∀ e, mwf (fun _ => (0 : Word)) (s.eng e).imem = true ∧ mwf (fun _ => (0 : Byte)) (s.eng e).dmem = true) ∧
  Maps s ∧ s.tsu.jnl.recs.length ≤ ringSize ∧ s.dist.jnl.recs.length ≤ hbmRingSize

/-! ### What an access that is refused leaves -/

/-- No register of either part changes but, in part `p`, SYS_LASTERR of the class, JNL_LOST and JNL_STAT, which the refusal and its record
write (R9, R26, R368); nothing outside the parts changes. -/
def NoEffect (p : PartId) (c : Cls) (s t : State) : Prop :=
  { t with tsu := s.tsu, dist := s.dist } = s ∧
  ∀ q a, (q = p ∧ (a = addrOf p .sysLasterr 0 c.num ∨ a = addrOf p .jnlLost ∨ a = addrOf p .jnlStat)) ∨ t.rdA q a = s.rdA q a

end Sys2Proof.Machine

namespace Sys2Proof

/-! ### Which commands change what -/

/-- The commands that reset or wipe a part (R47, R441, R452, R457). -/
def Instr.resets : Instr → Bool
  | .lcsAck .. | .rstN .. | .supplyFault .. | .heldResetRelease .. | .thermtrip .. => true
  | _ => false

/-- The commands that carry a register write (R23–R49), a fabric access among them. -/
def Instr.writesRegister : Instr → Bool
  | .registerWrite .. | .stagingLoWrite .. | .sysUpdate .. | .sysUpdAtHi .. | .sysUpdCancel .. | .guardedPair ..
  | .sysUnlock .. | .iaddrWrite .. | .idataAccess .. | .sysSeal .. | .sysLcreq .. | .tdcCalGo .. | .dtcOutAtHi ..
  | .dtcOutCancel .. | .dtcCal .. | .prtCtrlEn .. | .prtCtrlRetrain .. | .prtSwap .. | .srvLcalArm .. | .srvLcalGo ..
  | .kprCtrlEn .. | .kprFcmdGo .. | .kprTatHi .. | .kprTcan .. | .sobSigHi .. | .objectWindowWrite .. | .sobReset ..
  | .wickBind .. | .wickUnbind .. | .senCtrlEn .. | .ctxStart .. | .ctxStop .. | .ctxClear .. | .ctxStep ..
  | .imemWindowWrite .. | .dmemWindowWrite .. | .contextRegisterWindowWrite .. | .putc .. | .mbrFenceFence ..
  | .mbrFenceUnfence .. | .hltSentRes3 .. | .hltBinClr .. | .lifCtrlLoad .. | .lifCtrlSave .. | .lifCtrlFresh ..
  | .mgmtWrite .. | .tilMreqGo .. | .wsRegacc .. | .hkpKick .. | .hkpCtrlTakeover .. | .hkpH2p3 .. | .hkpP2h3 ..
  | .i3cPrivateWrite .. => true
  | _ => false

/-- Requests held for order, the ramp ledger, and what a relay learns (R260, R272, R307). -/
def Instr.movesRequests : Instr → Bool
  | .launch .. | .phase .. | .evict .. | .shadowStart .. | .shadowAdmit .. | .shadowAbandon .. | .upd .. | .jobcmd ..
  | .armReq .. | .orderHoldRelease .. | .armAck .. | .releaseReq .. | .replan .. | .phaseFrame .. | .rampReq ..
  | .rampFix .. | .rampHoldLapse .. | .confirmTimeout .. | .onesideTimeout .. | .confirm .. | .dead .. | .mirrorAck ..
  | .evictReq .. | .leafLost .. | .shadowOn .. | .shadowOff .. => true
  | _ => false

/-- Reductions and gate parts (R262, R283–R299). -/
def Instr.combines : Instr → Bool
  | .farEndSignal .. | .equalisationConverged .. | .codewordLock .. | .trainingTimeout .. | .codewordLockLoss ..
  | .laneLoss .. | .neg .. | .nak .. | .retrain .. | .replayTimeout .. | .latencyCalibration ..
  | .latencyCalibrationDone .. | .release .. | .gate .. | .launch .. | .phase .. | .evict .. | .shadowStart ..
  | .shadowAdmit .. | .shadowAbandon .. | .upd .. | .jobcmd .. | .armReq .. | .orderHoldRelease .. | .armAck ..
  | .releaseReq .. | .gateFrame .. | .gatePart .. | .launchInstant .. | .replan .. | .phaseFrame .. | .phaseTick ..
  | .rampReq .. | .contribFrame .. | .partialFrame .. | .spillIn .. | .spillOut .. | .spillTimeout .. | .queueGrant ..
  | .confirmTimeout .. | .onesideTimeout .. | .confirm .. | .dead .. | .mirrorAck .. | .mirrorTimeout ..
  | .evictReq .. | .leafLost .. | .shadowOn .. | .shadowOff .. | .meshIsolation .. | .meshEdgeUp .. => true
  | _ => false

/-- Chains of the continuity store (R335–R354). -/
def Instr.stores : Instr → Bool
  | .snap .. | .rebuild .. | .releaseReq .. | .mirrorAck .. | .openEpoch .. | .leafWindowOpen .. | .leafWindowClose ..
  | .bulkData .. | .bulkZero .. | .bulkResend .. | .slowPathMerge .. | .synd .. | .prepare .. | .prepareTimeout ..
  | .commitMessage .. | .discard .. | .rebuildReq .. | .rebuildWindow .. | .wsMbist .. | .hbmTrained ..
  | .rebuildPrepTo .. => true
  | _ => false

/-- Nodes a detector judges (R305–R316). -/
def Instr.detects : Instr → Bool
  | .idle .. | .ack .. | .nak .. | .retrain .. | .frameReceive .. | .swapReq .. | .swapAck .. | .suspectTimeout ..
  | .confirmTimeout .. | .onesideTimeout .. | .suspect .. | .confirm .. | .dead .. | .suspectRpt .. | .evictReq ..
  | .unfenceReq .. | .condsusp .. => true
  | _ => false

/-- Wicks and the taper window (R179–R189). -/
def Instr.lights : Instr → Bool
  | .conditionEvaluation .. | .timerSatisfied .. | .balanceCheckDone .. | .wickAssert .. | .wickAck ..
  | .plHoldExpiry .. | .prelightStage .. | .bind .. | .bindUnbind .. | .prelit .. | .cguard .. | .release ..
  | .releaseAtTimeout .. | .unfence .. => true
  | _ => false

/-- Keepers and their ring (R150–R168). -/
def Instr.keeps : Instr → Bool
  | .statRead .. | .idataFetchDone .. | .cmbRstatRead .. | .tdcRstatRead .. | .beacon .. | .keeperBeaconEdge ..
  | .keeperTriggerFire .. | .enum .. | .beaconFrame .. | .keeperWrite .. | .keeperRead .. | .tarm .. | .tcan ..
  | .fprep .. | .fcommit .. | .rdata .. | .fack .. | .fdone .. | .tevt .. | .ringFrameResend .. | .objectWindowRead ..
  | .getc .. | .trig .. | .launchFrame .. | .fence .. | .selfFence .. | .mbrJevtRead .. | .mgmtRead ..
  | .i3cPrivateRead .. | .crossingFifoOverrun .. => true
  | _ => false

/-- The oscillator and its references (R59–R71). -/
def Instr.disciplines : Instr → Bool
  | .updateStrobe .. | .htSetLoad .. | .calendarLoad .. | .ovenSample .. | .oscLost .. | .referenceQualifies ..
  | .referenceLost .. | .holdoverSecond .. | .dacUpdate .. | .ppsEdge .. | .ppsMissing .. | .ptpMessage ..
  | .tdcEvent .. | .coarseWrap .. | .triggerFire .. | .farEndSignal .. | .equalisationConverged .. | .codewordLock ..
  | .trainingTimeout .. | .codewordLockLoss .. | .laneLoss .. | .neg .. | .nak .. | .retrain .. | .heartbeatDue ..
  | .replayTimeout .. | .latencyCalibration .. | .latencyCalibrationDone .. | .swapSwitch .. | .sync ..
  | .servoHoldTimeout .. | .revertTimeout .. | .slewEnd .. | .twinSourceTimeout .. | .beacon .. | .timerSatisfied ..
  | .plHoldExpiry .. | .prelightStage .. | .asyncCompletion .. | .waittTarget .. | .waitDeadline ..
  | .orderHoldRelease .. | .armTimeout .. | .releaseTick .. | .releaseAtTimeout .. | .gateDeadline ..
  | .launchInstant .. | .phaseTick .. | .rampHoldLapse .. | .spillTimeout .. | .suspectTimeout .. | .confirmTimeout ..
  | .onesideTimeout .. | .mirrorAck .. | .mirrorTimeout .. | .selfFence .. | .leafWindowOpen .. | .leafWindowClose ..
  | .prepareTimeout .. | .rebuildWindow .. | .meshIsolation .. | .hkpWatchdogExpiry .. | .meshEdgeUp ..
  | .rebuildPrepTo .. | .tRReached .. => true
  | _ => false

/-- Job contexts of a job root (R256–R278). -/
def Instr.leadsJobs : Instr → Bool
  | .statRead .. | .updateStrobe .. | .cmbRstatRead .. | .tdcRstatRead .. | .idle .. | .ack .. | .nak .. | .retrain ..
  | .frameReceive .. | .swapReq .. | .swapAck .. | .objectWindowRead .. | .getc .. | .arm .. | .release .. | .gate ..
  | .contrib .. | .launch .. | .phase .. | .plan .. | .commit .. | .rebuild .. | .evict .. | .shadowStart ..
  | .shadowAdmit .. | .shadowAbandon .. | .upd .. | .jobcmd .. | .armReq .. | .orderHoldRelease .. | .armTimeout ..
  | .releaseReq .. | .gateFrame .. | .gatePart .. | .launchInstant .. | .phaseTick .. | .rampReq .. | .rampOffer ..
  | .rampConfirm .. | .contribFrame .. | .partialFrame .. | .spillOut .. | .spillTimeout .. | .queueGrant ..
  | .confirmTimeout .. | .onesideTimeout .. | .suspect .. | .confirm .. | .dead .. | .mirrorAck .. | .mirrorTimeout ..
  | .evictReq .. | .pathLost .. | .leafLost .. | .digest .. | .condsusp .. | .mbrJevtRead .. | .snapReq ..
  | .prepared .. | .rebuilt .. | .mgmtRead .. | .i3cPrivateRead .. | .tRReached .. => true
  | _ => false

/-- Job slots of a TSU (R252–R277). -/
def Instr.movesSlots : Instr → Bool
  | .updateStrobe .. | .htSetLoad .. | .calendarLoad .. | .referenceLost .. | .tdcEvent .. | .coarseWrap ..
  | .triggerFire .. | .farEndSignal .. | .equalisationConverged .. | .codewordLock .. | .trainingTimeout ..
  | .codewordLockLoss .. | .laneLoss .. | .neg .. | .nak .. | .retrain .. | .heartbeatDue .. | .replayTimeout ..
  | .latencyCalibration .. | .latencyCalibrationDone .. | .swapSwitch .. | .sync .. | .servoHoldTimeout ..
  | .revertTimeout .. | .slewEnd .. | .twinSourceTimeout .. | .beacon .. | .timerSatisfied .. | .balanceCheckDone ..
  | .wickAssert .. | .plHoldExpiry .. | .prelightStage .. | .asyncCompletion .. | .waittTarget .. | .waitDeadline ..
  | .prelit .. | .arm .. | .release .. | .gate .. | .contrib .. | .orderHoldRelease .. | .armTimeout .. | .armAck ..
  | .armRefuse .. | .releaseAt .. | .releaseTick .. | .releaseAtTimeout .. | .gateDeadline .. | .launchFrame ..
  | .launchInstant .. | .abort .. | .replan .. | .phaseFrame .. | .phaseTick .. | .restore .. | .replayEnd ..
  | .rampHoldLapse .. | .resultFrame .. | .scanResult .. | .spillTimeout .. | .suspectTimeout .. | .confirmTimeout ..
  | .onesideTimeout .. | .mirrorAck .. | .mirrorTimeout .. | .fence .. | .selfFence .. | .unfence .. | .shadowOn ..
  | .shadowOff .. | .openEpoch .. | .openRefuse .. | .leafWindowOpen .. | .leafWindowClose .. | .prepareTimeout ..
  | .commitMessage .. | .discard .. | .rebuildWindow .. | .meshIsolation .. | .hkpWatchdogExpiry .. | .meshEdgeUp ..
  | .rebuildPrepTo .. | .tRReached .. => true
  | _ => false

/-- The HBM stacks (R419, R468). -/
def Instr.tendsHbm : Instr → Bool
  | .idataFetchDone .. | .trendUpdate .. | .hbmChannelMoveDone .. | .bandSample .. | .hbmTrained ..
  | .patrolScrub .. => true
  | _ => false

/-- IMEM and DMEM (R202, R226, R248). -/
def Instr.writesMemory : Instr → Bool
  | .st .. | .stw .. | .sth .. | .stb .. | .result .. | .wsMbist .. => true
  | _ => false

/-- Commands that leave the distributor's registers and units alone. -/
def Instr.inTsu : Instr → Bool
  | .tempBandChange .. | .bulkTransferDone .. | .keeperBeaconEdge .. | .keeperTriggerFire .. | .sigFrame ..
  | .fabricSignalWrite .. | .jobcmdDone .. | .armRefuse .. | .releaseAt .. | .abort .. | .restore .. | .replayEnd ..
  | .resultFrame .. | .scanResult .. | .pathLost .. | .openRefuse .. | .bulkRestore .. | .spillRetry .. => true
  | _ => false

/-- Commands that leave the TSU's registers and units alone. -/
def Instr.inDist : Instr → Bool
  | .dacUpdate .. | .ppsMissing .. | .keeperTriggerFire .. | .fabricSignalWrite .. | .rampFix .. | .fstate ..
  | .pathLost .. | .digest .. | .frPeriod .. | .snapReq .. | .mreqTimeout .. | .perstN .. | .bandSample ..
  | .hbmTrained .. | .bootRom .. => true
  | _ => false

end Sys2Proof
end

