-- ==== Sys2Proof/WellFormed.lean ====
section
/-!
DEFINITION. Well-formed commands: what the senders of the spec can send. The checks concern how many items a command carries and which
sources a part has; every value of the other operands is one the spec admits. The machine gives every command a meaning, well formed or
not; a statement may ask for `Instr.wf` where it speaks of what can be sent.
-/
namespace Sys2Proof

/-- The source classes a part has (R24): a TSU's registers are reached by HOST, ENGINE, LINK and DEBUG, a distributor's by all seven. -/
def Cls.at (p : PartId) (c : Cls) : Bool :=
  match p, c with
  | .tsu, .host2 | .tsu, .hkp | .tsu, .i3c => false
  | _, _ => true

/-- A source of a part: its class is one the part has, its tile and context exist (R24, R193, R384). -/
def Src.wf (p : PartId) (x : Src) : Bool :=
  x.cls.at p && (if p = .tsu then x.tile == 0 else decide (x.tile < 8)) && decide (x.ctx < 16)

/-- The numbers of a NEG flit fit their fields (R117). -/
def NegFlit.wf (f : NegFlit) : Bool :=
  decide (f.node < 2 ^ 20) && decide (f.port < 2 ^ 9) && decide (f.domain < 2) && decide (f.tier < 8) && decide (f.vmin < 256)
    && decide (f.vmax < 256) && decide (f.fault < 16)

/-- A SYNC's numbers fit their fields (R131). -/
def SyncRx.wf (m : SyncRx) : Bool :=
  decide (m.xn < 2 ^ 16) && decide (m.xnAns < 2 ^ 16) && decide (m.code < 8) && decide (m.setgen < 256) && decide (m.hops < 256)

/-- A PTP time in the IEEE 1588 form (R67). -/
def PtpTime.wf (t : PtpTime) : Bool := decide (t.sec < 2 ^ 48) && decide (t.ns < 1000000000)

/-- The times of a PTP message are in the IEEE 1588 form. -/
def PtpMsg.wf : PtpMsg → Bool
  | .sync _ _ (some t) | .followUp _ _ t | .delayResp _ t => t.wf
  | _ => true

/-- A copy from the twin names a job context, a tile and a context of it. -/
def Machine.TwinMsg.wf : Machine.TwinMsg → Bool
  | .job c => decide (c.k < 1024) && decide (c.tile < 8) && decide (c.ctx < 16)
  | _ => true

/-- A frame that only a distributor receives or relays has its named port in the distributor. -/
def Port.ofDist (q : Port) : Bool := q.part = .dist

/-- Two tiles share a mesh edge (R451). -/
def adjacent (t u : Fin 8) : Bool :=
  (t.val / 4 == u.val / 4 && (t.val + 1 == u.val || u.val + 1 == t.val)) || t.val + 4 == u.val || u.val + 4 == t.val

/-- The length of a list lies in a range. -/
def sized {α : Type} (lo hi : Nat) (l : List α) : Bool := decide (lo ≤ l.length) && decide (l.length ≤ hi)

/-- A source at the part of an engine. -/
def atEngine (e : EngSel) (x : Src) : Bool := x.wf e.part

/-- The well-formed commands. -/
def Instr.wf : Instr → Bool
  | .registerWrite p x _ _ _ | .stagingLoWrite p x _ _ | .statRead p x _ | .sysUpdate p x _ | .sysUpdAtHi p x _ | .sysUpdCancel p x _
  | .guardedPair p x _ _ | .sysUnlock p x _ | .sysSeal p x _ | .sysLcreq p x _ _ | .lifCtrlLoad p x | .lifCtrlSave p x
  | .lifCtrlFresh p x => x.wf p
  | .iaddrWrite p x sp _ | .idataAccess p x sp _ => x.wf p && (p = .tsu || sp != .kpr)
  | .cmbRstatRead x _ | .kprCtrlEn x _ | .kprFcmdGo x _ | .kprTatHi x _ | .kprTcan x _ | .wickBind _ x _ | .wickUnbind _ x _
  | .hltSentRes3 x _ | .hltBinClr x _ => x.wf .tsu
  | .srvLcalArm _ x a b | .srvLcalGo _ x a b _ => x.wf .dist && decide (a.val < 274) && decide (b.val < 274)
  | .mbrFenceFence x _ | .mbrFenceUnfence x _ | .mbrJevtRead x | .tilMreqGo _ x | .hkpKick x _ | .hkpCtrlTakeover x | .hkpH2p3 x _
  | .hkpP2h3 x _ => x.wf .dist
  | .tdcRstatRead e _ x | .tdcCalGo e _ x | .dtcOutAtHi e _ x _ | .dtcOutCancel e _ x | .dtcCal e x _ | .sobSigHi e x _
  | .objectWindowRead e x _ _ | .objectWindowWrite e x _ _ | .sobReset e x _ _ | .senCtrlEn e x _ | .ctxStart e _ x | .ctxStop e _ x
  | .ctxClear e _ x | .ctxStep e _ x | .imemWindowWrite e x _ _ | .dmemWindowWrite e x _ _ | .contextRegisterWindowWrite e x _ _ =>
    atEngine e x
  | .prtCtrlEn q x _ | .prtCtrlRetrain q x _ | .prtSwap q x _ => x.wf q.part
  | .neg _ f _ => f.wf
  | .sync _ m => m.wf
  | .sig x _ _ dst => decide (x.eng ≠ .tsu) || decide (dst = .here)
  | .frameReceive _ _ hdr body _ _ place => sized 24 24 hdr && decide (body.length + 28 = 62 * ((hdr.getD 5 0).toNat + 1)) && decide (place < 1275)
  | .retrain _ sb _ => sb == 6 || sb == 0 || decide (6 < sb.toNat)
  | .tdcCalDone _ _ hits taps => sized 9 9 hits && sized 9 9 taps
  | .dtcCalDone _ _ d => sized 256 256 d
  | .latencyCalibrationDone _ tx rx => sized 5 5 tx && sized 5 5 rx
  | .bulkTransfer _ _ _ _ _ data => !data.isEmpty
  | .sigFrame _ _ _ es => sized 1 9 es
  | .fabricSignalWrite (.write ls) => sized 1 4 ls
  | .fabricSignalWrite (.read _) => true
  | .mgmtWrite _ _ _ ws => sized 1 8 ws
  | .rsp q _ _ _ ws => q.ofDist && sized 0 8 ws
  | .meshEdgeDown t u | .meshEdgeUp t u => adjacent t u
  | .bandSample ts ks => sized 0 8 ts && sized 0 24 ks
  | .bulkData _ _ _ _ _ _ _ _ d | .bulkResend _ _ _ _ _ _ _ _ d => sized 1 4096 d
  | .synd _ _ _ _ _ d | .bulkRestore _ _ _ _ _ _ d => sized 1 4096 d
  | .jobcmd _ _ _ _ _ op sb _ _ _ => decide (op < 64) && decide (sb < 256)
  | .ptpMessage _ _ _ m => m.wf
  | .mirrorAck m => m.wf
  | .keeperBeaconEdge _ _ _ str | .keeperTriggerFire _ _ _ str | .keeperRead _ _ _ _ str | .tarm _ _ _ _ _ str => decide (str < 2 ^ 32)
  | .updateStrobe .. | .strobe .. | .idataFetchDone .. | .lcsAck .. | .lcsErr .. | .lcsTimeout .. | .wipeEnd .. | .rstN ..
  | .htSetLoad .. | .calinfo .. | .calendarLoad .. | .ovenSample .. | .oscLost .. | .referenceQualifies .. | .referenceLost ..
  | .holdoverSecond .. | .holdoverExpiry .. | .dacUpdate .. | .ppsEdge .. | .ppsMissing .. | .tdcEvent .. | .coarseWrap ..
  | .tempBandChange .. | .triggerFire .. | .farEndSignal .. | .equalisationConverged .. | .codewordLock .. | .trainingTimeout ..
  | .codewordLockLoss .. | .laneLoss .. | .negInterval .. | .idle .. | .ack .. | .nak .. | .heartbeatDue .. | .ackDue ..
  | .nakRepeat .. | .replayTimeout .. | .latencyCalibration .. | .swapReq .. | .swapSwitch .. | .swapAck .. | .bulkTransferDone ..
  | .syncInterval .. | .dreq .. | .servoHoldTimeout .. | .revertTimeout .. | .slewEnd .. | .twinSourceTimeout .. | .diffInterval .. | .loopbackCalibrationDone ..
  | .diff .. | .beacon .. | .enum .. | .beaconFrame .. | .keeperWrite .. | .tcan .. | .fprep .. | .fcommit .. | .rdata .. | .fack ..
  | .fdone .. | .tevt .. | .ringFrameResend .. | .signalAccept .. | .conditionEvaluation .. | .timerSatisfied .. | .sobResetDone ..
  | .balanceCheckDone .. | .wickAssert .. | .wickAck .. | .plHoldExpiry .. | .prelightStage .. | .pllLock .. | .scrubRead ..
  | .stopComplete .. | .asyncCompletion .. | .fx .. | .add .. | .sub .. | .and .. | .or .. | .xor .. | .shl .. | .shr .. | .sar ..
  | .min .. | .max .. | .mov .. | .mul .. | .mulh .. | .cmpeq .. | .cmplt .. | .cmpltu .. | .addi .. | .andi .. | .ori .. | .xori ..
  | .lui .. | .br .. | .beq .. | .bne .. | .blt .. | .bge .. | .bltu .. | .bgeu .. | .call .. | .ret .. | .halt .. | .fadd ..
  | .fsub .. | .fmul .. | .fdiv .. | .fsqrt .. | .fmin .. | .fmax .. | .ffma .. | .fcvtF2i .. | .fcvtF2u .. | .fcvtI2f ..
  | .fcvtU2f .. | .fcvtRi .. | .fcmpEq .. | .fcmpLt .. | .fcmpLe .. | .fcmpUn .. | .ld .. | .ldw .. | .ldh .. | .ldb .. | .st ..
  | .stw .. | .sth .. | .stb .. | .getc .. | .putc .. | .htr .. | .tadd .. | .tdiff .. | .tcmp .. | .waitt .. | .waittTarget ..
  | .trig .. | .capt .. | .wait .. | .waitDeadline .. | .poll .. | .objset .. | .objget .. | .bind .. | .bindUnbind ..
  | .prelit .. | .cguard .. | .arm .. | .release .. | .gate .. | .contrib .. | .result .. | .launch .. | .phase .. | .plan ..
  | .snap .. | .window .. | .commit .. | .rebuild .. | .evict .. | .shadowStart .. | .shadowAdmit .. | .shadowAbandon .. | .jnl ..
  | .jflush .. | .upd .. | .jobcmdDone .. | .armReq .. | .orderHoldRelease .. | .armTimeout .. | .armAck .. | .armRefuse ..
  | .releaseReq .. | .releaseAt .. | .releaseTick .. | .releaseAtTimeout .. | .gateFrame .. | .gatePart .. | .gateDeadline ..
  | .launchFrame .. | .launchInstant .. | .abort .. | .replan .. | .phaseFrame .. | .phaseTick .. | .restore .. | .replayEnd ..
  | .rampReq .. | .rampOffer .. | .rampFix .. | .rampConfirm .. | .rampHoldLapse .. | .contribFrame .. | .partialFrame ..
  | .resultFrame .. | .scanResult .. | .spillIn .. | .spillOut .. | .spillTimeout .. | .queueGrant .. | .suspectTimeout ..
  | .confirmTimeout .. | .onesideTimeout .. | .suspect .. | .confirm .. | .dead .. | .mirrorTimeout .. | .fence ..
  | .selfFence .. | .unfence .. | .fstate .. | .suspectRpt .. | .evictReq .. | .unfenceReq .. | .pathLost .. | .leafLost ..
  | .shadowOn .. | .shadowOff .. | .digest .. | .mismatch .. | .condsusp .. | .frPeriod .. | .snapReq .. | .openEpoch ..
  | .openRefuse .. | .leafWindowOpen .. | .leafWindowClose .. | .bulkZero .. | .slowPathMerge .. | .prepare .. | .prepareTimeout ..
  | .prepared .. | .commitMessage .. | .discard .. | .rebuildReq .. | .rebuildWindow .. | .rebuilt .. | .fabricCompletion ..
  | .spillRetry .. | .saveInterval .. | .lifetimeSaveDone .. | .trendUpdate .. | .hbmChannelMoveDone .. | .mgmtRead ..
  | .mreqTimeout .. | .wsRegacc .. | .wsMbist .. | .perstN .. | .supplyFault .. | .heldResetRelease .. | .thermtrip ..
  | .hbmTrained .. | .bootRom .. | .meshIsolation .. | .hkpWatchdogExpiry .. | .i3cPrivateWrite .. | .i3cPrivateRead ..
  | .calinfoInterval .. | .rebuildPrepTo .. | .tRReached .. | .crossingFifoOverrun .. | .patrolScrub .. | .illegal .. | .ifetch .. => true

end Sys2Proof
end

