-- ==== Sys2Proof/Certificates/Slice0/Obligations.lean ====
section
/-!
DEFINITION. The statements for the provers.
-/
open Sys2Proof Sys2Proof.Machine

/-- A register write takes effect by the register's access type -/
def Obligations.RegisterWritesTakeEffectByAccess : Prop :=
  (∀ (p : PartId) (src : Src) (v : Word) (s : State),
      s.permits p src (some 0) true = true → 
      Completes (.registerWrite p src (BitVec.ofNat 26 (addrOf p .sysUpdMask)) v true) s fun t =>
        t.rd p .sysUpdMask = v) ∧
  (∀ (p : PartId) (src : Src) (v : Word) (s : State),
      s.permits p src (some 1) true = true → 
      Completes (.registerWrite p src (BitVec.ofNat 26 (addrOf p .tbsHoldMax)) v true) s fun t =>
        t.rd p .tbsHoldMax = s.rd p .tbsHoldMax ∧
        t.pendA p (addrOf p .tbsHoldMax) = merged (s.pendA p (addrOf p .tbsHoldMax)) v 0xFFFF) ∧
  (∀ (p : PartId) (src : Src) (v : Word) (s : State),
      s.permits p src (some 0) true = true → 
      Completes (.registerWrite p src (BitVec.ofNat 26 (addrOf p .sysId)) v true) s fun t =>
        t.rd p .sysId = s.rd p .sysId) ∧
  (∀ (p : PartId) (src : Src) (v : Word) (s : State),
      s.permits p src (some 0) true = true → 
      Completes (.stagingLoWrite p src (BitVec.ofNat 26 (addrOf p .sysUpdAtLo)) v) s fun t =>
        t.staged p src (addrOf p .sysUpdAtLo) 0 = v ∧ t.rd p .sysUpdAtLo = s.rd p .sysUpdAtLo ∧
        (t.part p).strobes = (s.part p).strobes)

/-- A read of a status register returns its contents and clears them -/
def Obligations.StatusReadsReturnAndClear : Prop :=
  (∀ (p : PartId) (src : Src) (s : State),
      src.cls ≠ .engine → s.permits p src (some 1) false = true → 
      Completes (.statRead p src (BitVec.ofNat 26 (addrOf p .tbsStat))) s fun t =>
        t.rd p .tbsStat = 0 ∧ mget (fun _ => (0, 0)) (t.part p).resp src.cls.num = (0, s.rd p .tbsStat)) ∧
  (∀ (src : Src) (c : Fin 16) (q : Nat) (bs : List Byte) (s : State),
      s.permits .tsu src (some 9) false = true → s.chan c = { s.chan c with pend := some (q, bs) } → 
      Completes (.cmbRstatRead src c) s fun t =>
        (t.chan c).pend = none ∧ (t.chan c).overw = false ∧ (t.chan c).winSeq = q ∧ (t.chan c).win = bs) ∧
  (∀ (e : EngSel) (un : Fin 2) (src : Src) (r : TdcResult) (rs : List TdcResult) (s : State),
      s.permits e.part src (some 4) false = true → mget (fun _ => []) (s.tdcU e.part (tdcInst e un)).fifos (s.fd e.part .tdcRsel 3 0 (tdcInst e un)) = r :: rs → 
      Completes (.tdcRstatRead e un src) s fun t =>
        mget (fun _ => []) (t.tdcU e.part (tdcInst e un)).fifos (s.fd e.part .tdcRsel 3 0 (tdcInst e un)) = rs ∧
        t.rd e.part .tdcRlo (tdcInst e un) = r.value.truncate 32 ∧ t.rd e.part .tdcRhi (tdcInst e un) = (r.value >>> 32).truncate 32) ∧
  (∀ (src : Src) (v : JobEvent) (vs : List JobEvent) (s : State),
      s.permits .dist src (some 16) false = true → (s.job (s.selJob src)).events = v :: vs → 
      Completes (.mbrJevtRead src) s fun t =>
        (t.job (s.selJob src)).events = vs)

/-- Strobes: requested, queued, applied together, removed -/
def Obligations.StrobesAreQueuedAppliedRemoved : Prop :=
  (∀ (p : PartId) (src : Src) (mask : Word) (s : State),
      s.permits p src (some 0) true = true → 
      Completes (.sysUpdate p src mask) s fun t =>
        (t.part p).strobes = (s.part p).strobes ++
          [{ target := s.ht p + 1, due := s.ht p + 1, mask := mask.toNat, src := src, kind := .immediate }]) ∧
  (∀ (p : PartId) (src : Src) (v lo : Word) (s : State),
      s.permits p src (some 0) true = true → s.staged p src (addrOf p .sysUpdAtLo) (s.rd p .sysUpdAtLo) = lo → (s.part p).scheduled.length < strobeCap p → noSign (v ++ lo) (s.ht p) = false → 
      Completes (.sysUpdAtHi p src v) s fun t =>
        (t.part p).strobes = (s.part p).strobes ++
          [{ target := v ++ lo, due := if atOrAfter (s.ht p) (v ++ lo) then s.ht p + 1 else v ++ lo, mask := (s.rd p .sysUpdMask).toNat,
             src := src, kind := .register, late := atOrAfter (s.ht p) (v ++ lo) }]) ∧
  (∀ (p : PartId) (src : Src) (v : Word) (s : State),
      s.permits p src (some 0) true = true → strobeCap p ≤ (s.part p).scheduled.length → 
      Completes (.sysUpdAtHi p src v) s fun t =>
        (t.part p).strobes = (s.part p).strobes) ∧
  (∀ (p : PartId) (src : Src) (v : Word) (s : State),
      s.permits p src (some 0) true = true → v.getLsbD 0 = true → 
      Completes (.sysUpdCancel p src v) s fun t =>
        (t.part p).strobes = (s.part p).strobes.filter fun (r : StrobeReq) => !(decide (r.kind ≠ .immediate) && r.src.cls == src.cls)) ∧
  (∀ (p : PartId) (src : Src) (v : Word) (s : State),
      s.permits p src (some 0) true = true → v.getLsbD 0 = false → 
      Completes (.sysUpdCancel p src v) s fun t =>
        (t.part p).strobes = (s.part p).strobes) ∧
  (∀ (p : PartId) (t0 u : HT) (r : StrobeReq) (v : Word) (s : State),
      earliest (s.strobeTicks p) = some t0 → (if atOrAfter (s.ht p) t0 then s.ht p else t0) = u → (s.part p).strobes.contains r = true → atOrAfter u (s.tickAt p r.due) = true → r.mask.testBit 1 = true → (match r.kind with | .frame _ _ => !(decide (p = .tsu) && s.fenced) | _ => true) = true → ((s.part p).pend.all fun (y : Nat × Word) => y.1 != addrOf p .tbsHoldMax || y.2 == v) = true → (s.part p).pend.contains (addrOf p .tbsHoldMax, v) = true → 
      Completes (.updateStrobe p) s fun t =>
        t.rd p .tbsHoldMax = v ∧ ((t.part p).pend.all fun (y : Nat × Word) => y.1 != addrOf p .tbsHoldMax) = true ∧
        (t.part p).strobes = (s.part p).strobes.filter fun (y : StrobeReq) => !atOrAfter u (s.tickAt p y.due)) ∧
  (∀ (handle : BitVec 16) (gen : Byte) (epoch mask : Word) (tick : HT) (c : Nat) (s : State),
      s.fenced = false → s.slotOfHandle handle.toNat = some c → s.slotMatches c gen.toNat epoch.toNat = true → (s.part .tsu).scheduled.length < 8 → noSign tick (s.ht .tsu) = false → 
      Completes (.strobe handle gen epoch mask tick) s fun t =>
        (t.tsu.strobes.map fun r => (r.target, r.due, r.mask, r.src.cls)) =
          (s.tsu.strobes.map fun r => (r.target, r.due, r.mask, r.src.cls)) ++
            [(tick, if atOrAfter (s.ht .tsu) (tick) then s.ht .tsu + 1 else tick, mask.toNat, .link)])

/-- Guarded pairs, the unlock, the seal and life-cycle requests -/
def Obligations.GuardsLocksAndSeals : Prop :=
  (∀ (p : PartId) (src : Src) (key : Word) (s : State),
      s.permits p src (some 0) true = true → fld key 15 0 = 0xC4D1 → 
      Completes (.sysUnlock p src key) s fun t =>
        (t.part p).unlocked.contains src.cls = true) ∧
  (∀ (p : PartId) (src : Src) (lo : Word) (g : GuardOpen) (s : State),
      s.permits p src (some 1) true = true → (s.part p).guard = some g → g.addr = addrOf p .tbsHtsetHi → s.staged p g.src (addrOf p .tbsHtsetLo) (s.rd p .tbsHtsetLo) = lo → s.htSetAllowed p = true → 
      Completes (.guardedPair p src (BitVec.ofNat 26 (addrOf p .tbsHtsetHiN)) (~~~g.value)) s fun t =>
        (t.part p).tb.htSet = some ((g.value ++ lo) &&& 0xFFFFFFFFFFFFFF00#64, g.src) ∧ (t.part p).guard = none) ∧
  (∀ (p : PartId) (src : Src) (s : State),
      s.permits p src (some 0) true = true → s.isOpen p = true → 
      Completes (.sysSeal p src 0x5EA1) s fun t =>
        t.isOpen p = false) ∧
  (∀ (p : PartId) (src : Src) (target : Fin 4) (force : Bool) (s : State),
      s.permits p src (some 0) true = true → (s.part p).unlocked.contains src.cls = true → s.lcReqCode p target force = .ok → 
      Completes (.sysLcreq p src target force) s fun t =>
        (t.part p).lcReq = some { target := target.val, force := force, src := src } ∧ t.lcState p = s.lcState p)

/-- Indirect spaces: an index starts a fetch, a ready word is read, a fetch ends -/
def Obligations.IndirectSpacesFetchAndAdvance : Prop :=
  (∀ (p : PartId) (src : Src) (v : Word) (s : State),
      s.permits p src (some 12) true = true → 
      Completes (.iaddrWrite p src .lif v) s fun t =>
        t.indexOf p .lifIaddr = fld v 23 0) ∧
  (∀ (p : PartId) (src : Src) (s : State),
      src.cls ≠ .engine → s.permits p src (some 12) false = true → s.wiping p = false → s.indexOf p .lifIaddr < lifSpace p → s.bt p .lifIaddr 31 = true → 
      Completes (.idataAccess p src .lif none) s fun t =>
        mget (fun _ => (0, 0)) (t.part p).resp src.cls.num = (0, s.lifWord p (s.indexOf p .lifIaddr)) ∧
        t.indexOf p .lifIaddr = s.indexOf p .lifIaddr + 1) ∧
  (∀ (k : Nat) (s : State),
      s.jnlFetch = some k → 
      Completes (.idataFetchDone (.journal none)) s fun t =>
        t.jnlReady = true) ∧
  (∀ (k : Nat) (v : Word) (s : State),
      s.kc.fetching = some k → k < 16384 → 
      Completes (.idataFetchDone (.keeper v)) s fun t =>
        t.kc.ready = true ∧ t.kc.data = v)

/-- Life-cycle answers, wipes and resets -/
def Obligations.LifeCycleTransitionsAndWipes : Prop :=
  (∀ (p : PartId) (r : LcRequest) (s : State),
      (s.part p).lcReq = some r → r.target < 4 → 
      Completes (.lcsAck p) s fun t =>
        t.lcState p = r.target ∧ t.wiping p = true ∧ (t.part p).lcReq = none ∧ (t.part p).lcStore = r.target ∧ (t.part p).jnl.recs = [] ∧
        ((enginesOf p).all fun (e : EngSel) => (t.eng e).imem.isEmpty && (t.eng e).dmem.isEmpty && (t.eng e).objs.isEmpty) = true) ∧
  (∀ (p : PartId) (r : LcRequest) (s : State),
      (s.part p).lcReq = some r → 
      Completes (.lcsErr p) s fun t =>
        t.lcState p = s.lcState p ∧ (t.part p).lcReq = none ∧ (t.part p).lcStore = (s.part p).lcStore ∧ t.wiping p = s.wiping p) ∧
  (∀ (p : PartId) (r : LcRequest) (s : State),
      (s.part p).lcReq = some r → 
      Completes (.lcsTimeout p) s fun t =>
        t.lcState p = s.lcState p ∧ (t.part p).lcReq = none ∧ (t.part p).lcStore = (s.part p).lcStore ∧ t.wiping p = s.wiping p) ∧
  (∀ (p : PartId) (s : State),
      s.wiping p = true → 
      Completes (.wipeEnd p) s fun t =>
        t.wiping p = false ∧ ((s.part p).jnl = {} → (t.part p).jnl.recs.map (·.ty) = [0x0001])) ∧
  (∀ (node : BitVec 20) (macrosOk : Bool) (s : State),
      s.tsu.lcStore < 4 → 
      Completes (.rstN (.tsu node macrosOk)) s fun t =>
        t.node .tsu = node.toNat ∧ t.lcState .tsu = s.tsu.lcStore ∧ t.wiping .tsu = true ∧ t.isOpen .tsu = true ∧
        t.tsu.jnl.recs = [] ∧ t.macroBad = !macrosOk) ∧
  (∀ (f : Fuses) (oscIn norOk : Bool) (s : State),
      s.pkg.pwrFlt = false → s.dist.lcStore < 4 → 
      Completes (.rstN (.dist f oscIn norOk)) s fun t =>
        t.node .dist = 8 * f.node.toNat ∧ t.lcState .dist = s.dist.lcStore ∧ t.wiping .dist = true ∧ t.isOpen .dist = true ∧
        t.dist.jnl.recs = [] ∧ t.fd .dist .hkpBoot 7 0 = 1) ∧
  (∀ (f : Fuses) (oscIn norOk : Bool) (s : State),
      s.pkg.pwrFlt = true → 
      Completes (.rstN (.dist f oscIn norOk)) s fun t =>
        t = { s with pkg := { s.pkg with rstLow := true } })

/-- Journal spills and lifetime records -/
def Obligations.SpillsAndLifetimeSaves : Prop :=
  (∀ (n : Nat) (rest : List Nat) (s : State),
      s.tsu.jnl.outstanding = n :: rest → 
      Completes (.fabricCompletion false false) s fun t =>
        (s.tsu.jnl.recs.filter fun (r : JRec) => r.num ≠ n) <+: t.tsu.jnl.recs ∧ (s.tsu.jnl.loss = none → t.tsu.jnl.recs = s.tsu.jnl.recs.filter fun (r : JRec) => r.num ≠ n)) ∧
  (∀ (n : Nat) (rest : List Nat) (s : State),
      s.tsu.jnl.outstanding = n :: rest → 
      Completes (.fabricCompletion false true) s fun t =>
        t.tsu.jnl.outstanding = rest ∧ t.tsu.jnl.failed = s.tsu.jnl.failed ++ [n] ∧ t.bt .tsu .jnlStat 3 = true) ∧
  (∀ (n : Nat) (s : State),
      s.tsu.lif.saveLeft = n + 2 → 0 < s.tsu.lif.saveOut → s.tsu.lif.saveVoid = 0 → 
      Completes (.fabricCompletion true false) s fun t =>
        t.tsu.lif.saveLeft = n + 1 ∧ t.lifBusy .tsu = s.lifBusy .tsu) ∧
  (∀ (n : Nat) (rest : List Nat) (s : State),
      s.tsu.jnl.failed = n :: rest → s.bt .tsu .jnlSpillCtrl 0 = true → 
      Completes (.spillRetry) s fun t =>
        t.tsu.jnl.failed = rest ∧ t.tsu.jnl.outstanding = s.tsu.jnl.outstanding ++ [n]) ∧
  (∀ (p : PartId) (src : Src) (s : State),
      s.permits p src (some 12) true = true → p = .dist ∨ s.lifBegun p = true → s.lifBusy p = false → 
      Completes (.lifCtrlSave p src) s fun t =>
        t.lifBusy p = true ∧ (t.part p).lif.saveGen = ((s.part p).lif.saveGen + 1) % 2 ^ 32) ∧
  (∀ (src : Src) (s : State),
      s.permits .tsu src (some 12) true = true → s.lifBusy .tsu = false → 
      Completes (.lifCtrlLoad .tsu src) s fun t =>
        (s.lifLoad.1 = .ok → t.bt .tsu .lifStatus 1 = true ∧ t.bt .tsu .lifStat 1 = true) ∧
        (s.lifLoad.1 ≠ .ok → t.bt .tsu .lifStat 3 = true)) ∧
  (∀ (src : Src) (s : State),
      s.permits .tsu src (some 12) true = true → s.tsu.unlocked.contains src.cls = true → 
      Completes (.lifCtrlFresh .tsu src) s fun t =>
        t.bt .tsu .lifStatus 2 = true ∧ t.bt .tsu .lifStatus 1 = false ∧ t.tsu.lif.saveGen = 0 ∧ t.tsu.lif.base = []) ∧
  (∀ (p : PartId) (s : State),
      p = .dist ∨ s.lifBegun p = true → s.lifBusy p = false → 
      Completes (.saveInterval p) s fun t =>
        t.lifBusy p = true) ∧
  (∀ (p : PartId) (ok : Bool) (s : State),
      s.lifBusy p = true → 
      Completes (.lifetimeSaveDone p ok) s fun t =>
        t.lifBusy p = false ∧ t.bt p .lifStat (if ok then 0 else 2) = true)

/-- Trends of units, and a channel move that ends -/
def Obligations.TrendsAndChannelMoves : Prop :=
  (∀ (p : PartId) (i : Fin 8) (l : Fin 72) (n : Nat) (s : State),
      (s.part p).lif.trends = [] → (s.part p).lif.recent = [] → 0 < n → min n (2 ^ 32 - 1) ≤ s.fd p .lifThrUnit 15 0 → 
      Completes (.trendUpdate p [(.cmbLane i l, n)]) s fun t =>
        mget (fun _ => 0) (t.part p).lif.trends (TrendUnit.cmbLane i l).key = min n (2 ^ 32 - 1) ∧
        mget (fun _ => 0) (t.part p).lif.counts 16 = mget (fun _ => 0) (s.part p).lif.counts 16 + 1) ∧
  (∀ (c : Fin 768) (s : State),
      s.hbm.moving.contains c.val = true → 
      Completes (.hbmChannelMoveDone c) s fun t =>
        t.hbm.retired.contains c.val = true ∧ t.hbm.moving.contains c.val = false)

/-- HT sets, the calendar, and holdover seconds. Choices of the model: a timed row brings hall time forward to its instant, log entry 5; a frame sent names its addressee, log entry 38 -/
def Obligations.HallTimeSetAndCalendar : Prop :=
  (∀ (p : PartId) (v : HT) (src : Src) (s : State),
      (s.part p).tb.htSet = some (v, src) → 
      Completes (.htSetLoad p) s fun t =>
        t.ht p = v ∧ (t.part p).tb.htSet = none ∧ (t.part p).scheduled = [] ∧ t.fd p .tbsQual 31 16 = 0) ∧
  (∀ (port : Port) (eff calHt : HT) (sec : BitVec 48) (ns : BitVec 30) (rate : Word) (utc : BitVec 16) (s : State),
      s.isSource port.part = false → 1 ≤ s.srvState port.part port.num → s.srvState port.part port.num ≤ 4 → (port.part = .dist ∨ s.tsu.srv.followed = 1 + port.num / 2) → after (s.ht port.part) eff = false → 
      Completes (.calinfo port eff calHt sec ns rate utc) s fun t =>
        (t.part port.part).tb.calinfo = (s.part port.part).tb.calinfo ++ [(eff, [calHt.toNat, sec.toNat, ns.toNat, rate.toNat, utc.toNat])]) ∧
  (∀ (port : Port) (eff calHt : HT) (sec : BitVec 48) (ns : BitVec 30) (rate : Word) (utc : BitVec 16) (s : State),
      s.isSource port.part = false → 1 ≤ s.srvState port.part port.num → s.srvState port.part port.num ≤ 4 → (port.part = .dist ∨ s.tsu.srv.followed = 1 + port.num / 2) → after (s.ht port.part) eff = true → 
      Completes (.calinfo port eff calHt sec ns rate utc) s fun t =>
        t.calValues port.part = [calHt.toNat, sec.toNat, ns.toNat, rate.toNat, utc.toNat]) ∧
  (∀ (p : PartId) (eff calHt : HT) (sec : BitVec 48) (ns : BitVec 30) (rate : Word) (utc : BitVec 16) (s : State),
      firstDue (s.part p).tb.calinfo = some (eff, [calHt.toNat, sec.toNat, ns.toNat, rate.toNat, utc.toNat]) → 
      Completes (.calendarLoad p) s fun t =>
        t.calValues p = [calHt.toNat, sec.toNat, ns.toNat, rate.toNat, utc.toNat] ∧
        (t.part p).tb.calinfo = (s.part p).tb.calinfo.filter fun (y : HT × List Nat) => decide (y ≠ (eff, [calHt.toNat, sec.toNat, ns.toNat, rate.toNat, utc.toNat]))) ∧
  (∀ (n : Fin 274) (s : State),
      s.isSource .dist = true → s.portState .dist n = 6 → s.srvState .dist n = 5 → 
      Completes (.calinfoInterval) s fun t =>
        (t.dist.sent.any fun (y : Sent) => y.dest == .port n.val && y.frame.cls == 1 && y.frame.ty == 3 && y.frame.flits == 2 &&
          y.frame.fields.drop 1 == (s.nextTick .dist).toNat :: s.calValues .dist) = true) ∧
  (∀ (p : PartId) (bound : Nat) (s : State),
      (s.part p).tb.holding = true → 
      Completes (.holdoverSecond p bound) s fun t =>
        t.fd p .tbsQual 31 16 = min 65535 (s.fd p .tbsQual 31 16 + 1) ∧
        (p = .dist → s.qual .dist = 2 → t.rd .dist .tbsHoldErr = BitVec.ofNat 32 (min (2 ^ 32 - 1) bound))) ∧
  (∀ (p : PartId) (s : State),
      (s.part p).tb.holding = true → s.qual p = 2 → s.fd p .tbsHoldMax 15 0 ≤ s.fd p .tbsQual 31 16 → 
      Completes (.holdoverExpiry p) s fun t =>
        t.qual p = 0) ∧
  (∀ (p : PartId) (s : State),
      s.fd p .tbsQual 31 16 < s.fd p .tbsHoldMax 15 0 → 
      Completes (.holdoverExpiry p) s fun t =>
        t = s)

/-- The oscillator and the external references -/
def Obligations.OscillatorAndReferences : Prop :=
  (∀ (pin ext10m : Bool) (s : State),
      Completes (.ovenSample pin ext10m) s fun t =>
        t.bt .dist .oscStatus 0 = pin ∧ t.bt .dist .oscStatus 3 = ext10m ∧ t.osc.ovenMs = (if pin then s.osc.ovenMs + 1 else 0) ∧
        t.bt .dist .oscStatus 1 = (pin && (s.bt .dist .oscStatus 1 || decide (1000 * s.fd .dist .oscCtrl 31 16 ≤ s.osc.ovenMs + 1)))) ∧
  (∀ (ext10m : Bool) (s : State),
      s.isSource .dist = true → s.osc.pllOnOsc = true → s.osc.sampled = true → s.bt .dist .oscStatus 1 = false → 1000 * s.fd .dist .oscCtrl 31 16 ≤ s.osc.ovenMs + 1 → s.qual .dist = 1 → 
      Completes (.ovenSample true ext10m) s fun t =>
        t.qual .dist = if s.refSel = 0 then 3 else 0) ∧
  (∀ (ext10m : Bool) (s : State),
      s.isSource .dist = true → s.osc.pllOnOsc = true → s.osc.sampled = true → s.bt .dist .oscStatus 1 = true → 
      Completes (.ovenSample false ext10m) s fun t =>
        t.qual .dist = 1 ∧ t.bt .dist .oscStat 1 = true) ∧
  (∀ (s : State),
      Completes (.oscLost) s fun t =>
        t.osc.lost = true ∧ t.bt .dist .oscStatus 2 = false ∧ t.bt .dist .oscStat 0 = true ∧ (s.isSource .dist = true → t.qual .dist = 0)) ∧
  (∀ (r : RefSrc) (s : State),
      s.osc.qualOf r = false → r = .pps → 16 ≤ s.osc.ppsGood → r = .ptp → 16 ≤ s.osc.ptp.good → 
      Completes (.referenceQualifies r) s fun t =>
        t.osc.qualOf r = true ∧ t.bt .dist .oscStatus 6 = t.refQualified ∧
        ((t.refQualified && !s.bt .dist .oscStatus 6 && s.isSource .dist && s.osc.pllOnOsc &&
          (s.qual .dist == 0 || s.qual .dist == 2)) = true → t.qual .dist = 4)) ∧
  (∀ (r : RefSrc) (s : State),
      s.osc.qualOf r = true → r = .pps → 3 ≤ s.osc.ppsMiss → 
      Completes (.referenceLost r) s fun t =>
        t.osc.qualOf r = false ∧ t.bt .dist .oscStatus 6 = t.refQualified ∧
        ((!t.refQualified && s.bt .dist .oscStatus 6 && s.isSource .dist && s.qual .dist == 4) = true →
          t.qual .dist = 2 ∧ t.fd .dist .tbsQual 31 16 = 0)) ∧
  (∀ (asked : Int) (slope : Option Int) (s : State),
      Completes (.dacUpdate asked slope) s fun t =>
        t.osc.dac =
          if s.bt .dist .oscCtrl 4 = false ∨ (s.isSource .dist = true ∧ s.refSel = 0) then s.fd .dist .oscDac 19 0
          else if s.isSource .dist then (max 0 (min (s.dacMax : Int) (if s.dist.tb.holding then s.osc.holdCode / (2 ^ 32 : Nat) else asked))).toNat
          else if s.dist.tb.locked then (max 0 (min (s.dacMax : Int) (asked))).toNat
          else s.osc.dac) ∧
  (∀ (stamp : HT) (s : State),
      (s.osc.ppsLast.any fun (l : HT) => decide (256000 < (htDiff stamp (l + 256000000000#64)).natAbs)) = false → 
      Completes (.ppsEdge stamp) s fun t =>
        t.osc.ppsLast = some stamp ∧ t.osc.ppsMiss = 0 ∧
        t.osc.ppsGood = (if (s.osc.ppsLast.any fun (l : HT) => decide ((htDiff stamp (l + 256000000000#64)).natAbs ≤ 12800)) then s.osc.ppsGood + 1 else 0) ∧
        (t.rd .dist .oscTodLo).toNat + 2 ^ 32 * t.fd .dist .oscTodHi 15 0 = ((s.rd .dist .oscTodLo).toNat + 2 ^ 32 * s.fd .dist .oscTodHi 15 0 + 1) % 2 ^ 48) ∧
  (∀ (stamp l : HT) (s : State),
      s.osc.ppsLast = some l → 256000 < (htDiff stamp (l + 256000000000#64)).natAbs → 
      Completes (.ppsEdge stamp) s fun t =>
        t.osc.ppsLast = some stamp ∧ t.osc.ppsMiss = s.osc.ppsMiss + 1 ∧ t.osc.ppsGood = 0 ∧ t.bt .dist .oscStat 4 = true ∧
        (t.rd .dist .oscTodLo).toNat + 2 ^ 32 * t.fd .dist .oscTodHi 15 0 = (s.rd .dist .oscTodLo).toNat + 2 ^ 32 * s.fd .dist .oscTodHi 15 0) ∧
  (∀ (s : State),
      Completes (.ppsMissing) s fun t =>
        t.osc.ppsGood = 0 ∧ t.osc.ppsMiss = s.osc.ppsMiss + 1 ∧ t.bt .dist .oscStat 4 = true ∧
        t.osc.ppsLast = s.osc.ppsLast.map fun (l : HT) => l + 256000000000#64) ∧
  (∀ (port1 : Bool) (domain : Byte) (stamp : HT) (m : PtpMsg) (s : State),
      (s.bt .dist .oscPtpCfg 8 ≠ port1 ∨ s.fd .dist .oscPtpCfg 6 0 ≠ domain.toNat) → 
      Completes (.ptpMessage port1 domain stamp m) s fun t =>
        t = s) ∧
  (∀ (port1 : Bool) (domain : Byte) (stamp : HT) (d : PtpData) (s : State),
      s.bt .dist .oscPtpCfg 8 = port1 → s.fd .dist .oscPtpCfg 6 0 = domain.toNat → s.osc.ptp.best = none → 
      Completes (.ptpMessage port1 domain stamp (.announce d)) s fun t =>
        t.osc.ptp.best = some d ∧ t.osc.ptp.good = 0) ∧
  (∀ (port1 : Bool) (domain : Byte) (stamp : HT) (sender : BitVec 80) (seq : BitVec 16) (o : PtpTime) (s : State),
      s.bt .dist .oscPtpCfg 8 = port1 → s.fd .dist .oscPtpCfg 6 0 = domain.toNat → s.osc.ptp.selected sender = true → 
      Completes (.ptpMessage port1 domain stamp (.sync sender seq (some o))) s fun t =>
        t.osc.ptp.last = some (ptpHu o, stamp) ∧ t.osc.ptp.good = if (s.calHu stamp - (ptpHu o + s.osc.ptp.delay)).natAbs ≤ 25600 then s.osc.ptp.good + 1 else 0) ∧
  (∀ (port1 : Bool) (domain : Byte) (stamp at_ : HT) (sender : BitVec 80) (seq : BitVec 16) (o : PtpTime) (s : State),
      s.bt .dist .oscPtpCfg 8 = port1 → s.fd .dist .oscPtpCfg 6 0 = domain.toNat → s.osc.ptp.selected sender = true → s.osc.ptp.wait = some (seq.toNat, at_) → 
      Completes (.ptpMessage port1 domain stamp (.followUp sender seq o)) s fun t =>
        t.osc.ptp.last = some (ptpHu o, at_) ∧ t.osc.ptp.wait = none ∧ t.osc.ptp.good = if (s.calHu at_ - (ptpHu o + s.osc.ptp.delay)).natAbs ≤ 25600 then s.osc.ptp.good + 1 else 0) ∧
  (∀ (port1 : Bool) (domain : Byte) (stamp t2 : HT) (sender : BitVec 80) (rx : PtpTime) (t1 : Int) (s : State),
      s.bt .dist .oscPtpCfg 8 = port1 → s.fd .dist .oscPtpCfg 6 0 = domain.toNat → s.osc.ptp.selected sender = true → s.bt .dist .oscPtpCfg 9 = false → s.osc.ptp.last = some (t1, t2) → 
      Completes (.ptpMessage port1 domain stamp (.delayResp sender rx)) s fun t =>
        t.osc.ptp.delay = ((s.calHu t2 - t1) + (ptpHu rx - s.calHu stamp)) / 2) ∧
  (∀ (port1 : Bool) (domain : Byte) (stamp back : HT) (seq : BitVec 16) (turn : Int) (s : State),
      s.bt .dist .oscPtpCfg 8 = port1 → s.fd .dist .oscPtpCfg 6 0 = domain.toNat → s.bt .dist .oscPtpCfg 9 = true → 
      Completes (.ptpMessage port1 domain stamp (.pdelayResp seq back (some turn))) s fun t =>
        t.osc.ptp.delay = (htDiff back stamp - turn / 256) / 2)

/-- TDC events, coarse wraps and code-density calibration -/
def Obligations.TdcConvertsAndCalibrates : Prop :=
  (∀ (e : EngSel) (un : Fin 2) (ch : Fin 9) (src : Byte) (raw : Fin 256) (falling : Bool) (k level i : Nat) (f : List TdcResult) (s : State),
      tdcInst e un = i → s.clockRuns e.part = true → s.tdcTaken e.part i ch = false → s.tdcLooped e.part i ch = false → s.fd e.part .tdcChCfg 31 24 i ch = src.toNat → src ≠ 0 → s.bt e.part .tdcChCfg (if falling then 23 else 22) i ch = true → s.bt e.part .tdcCalst 31 i = false → s.bt e.part .tdcCtrl 0 i = true → s.fd e.part .tdcChCfg 21 20 i ch ≠ 1 → s.fd e.part .tdcChCfg 21 20 i ch ≠ 2 → un = 0 → s.bt e.part .tdcCtrl 1 i = false → ((mget (fun _ => none) (s.tdcU e.part i).lastConv ch.val).any fun (y : Int) => decide ((256 * ((s.part e.part).tb.edgeNo + k : Nat) - ((s.tdcU e.part i).frac ch raw : Nat) : Int) < y + 2048)) = false → mget (fun _ => []) (s.tdcU e.part i).fifos ch.val = f → f.length < 16 → 
      Completes (.tdcEvent e un ch src raw falling k level) s fun t =>
        mget (fun _ => []) (t.tdcU e.part i).fifos ch.val = f ++
          [{ value := ((s.part e.part).tb.edges k).ht - BitVec.ofNat 64 ((s.tdcU e.part i).frac ch raw), ovf := false, uncal := s.bt e.part .tdcCalst 30 i,
             stale := s.bt e.part .tdcCalst 29 i, falling := falling, raw := raw, seq := mget (fun _ => 0) (s.tdcU e.part i).chSeq ch.val }] ∧
        mget (fun _ => 0) (t.tdcU e.part i).chSeq ch.val = (mget (fun _ => 0) (s.tdcU e.part i).chSeq ch.val + 1) % 65536) ∧
  (∀ (e : EngSel) (un : Fin 2) (ch : Fin 9) (src : Byte) (raw : Fin 256) (falling : Bool) (k level i : Nat) (s : State),
      tdcInst e un = i → s.clockRuns e.part = true → s.tdcTaken e.part i ch = false → s.tdcLooped e.part i ch = false → s.fd e.part .tdcChCfg 31 24 i ch = src.toNat → src ≠ 0 → s.bt e.part .tdcChCfg (if falling then 23 else 22) i ch = true → s.bt e.part .tdcCalst 31 i = false → s.bt e.part .tdcCtrl 0 i = true → s.fd e.part .tdcChCfg 21 20 i ch ≠ 1 → s.fd e.part .tdcChCfg 21 20 i ch ≠ 2 → ch = 8 → s.bt e.part .tdcCtrl 1 i = true → ((mget (fun _ => none) (s.tdcU e.part i).lastConv ch.val).any fun (y : Int) => decide ((256 * ((s.part e.part).tb.edgeNo + k : Nat) - ((s.tdcU e.part i).frac ch raw : Nat) : Int) < y + 2048)) = false → 
      Completes (.tdcEvent e un ch src raw falling k level) s fun t =>
        (t.tdcU e.part i).start = some ⟨(s.part e.part).tb.edgeNo + k, (s.tdcU e.part i).frac ch raw, ((s.tdcU e.part i).startSeq + 1) % 65536⟩ ∧ (t.tdcU e.part i).prevStart = (s.tdcU e.part i).start ∧
        (t.tdcU e.part i).wrapped = false) ∧
  (∀ (e : EngSel) (un : Fin 2) (ch : Fin 9) (src : Byte) (raw : Fin 256) (falling : Bool) (k level i : Nat) (f : List TdcResult) (a : TdcStart) (s : State),
      tdcInst e un = i → s.clockRuns e.part = true → s.tdcTaken e.part i ch = false → s.tdcLooped e.part i ch = false → s.fd e.part .tdcChCfg 31 24 i ch = src.toNat → src ≠ 0 → s.bt e.part .tdcChCfg (if falling then 23 else 22) i ch = true → s.bt e.part .tdcCalst 31 i = false → s.bt e.part .tdcCtrl 0 i = true → s.fd e.part .tdcChCfg 21 20 i ch ≠ 1 → s.fd e.part .tdcChCfg 21 20 i ch ≠ 2 → un = 0 → ch ≠ 8 → s.bt e.part .tdcCtrl 1 i = true → ((mget (fun _ => none) (s.tdcU e.part i).lastConv ch.val).any fun (y : Int) => decide ((256 * ((s.part e.part).tb.edgeNo + k : Nat) - ((s.tdcU e.part i).frac ch raw : Nat) : Int) < y + 2048)) = false → mget (fun _ => []) (s.tdcU e.part i).fifos ch.val = f → f.length < 16 → (s.tdcU e.part i).startFor ((s.part e.part).tb.edgeNo + k) ((s.tdcU e.part i).frac ch raw) = some a → 
      Completes (.tdcEvent e un ch src raw falling k level) s fun t =>
        mget (fun _ => []) (t.tdcU e.part i).fifos ch.val = f ++
          [{ value := BitVec.ofNat 64 (wrapInt 32 ((256 * (((s.part e.part).tb.edgeNo + k - a.edge) % 2 ^ 24) : Nat) + a.frac - ((s.tdcU e.part i).frac ch raw : Nat))), ovf := decide (2 ^ 24 ≤ (s.part e.part).tb.edgeNo + k - a.edge), uncal := s.bt e.part .tdcCalst 30 i,
             stale := s.bt e.part .tdcCalst 29 i, falling := falling, raw := raw, seq := a.seq }]) ∧
  (∀ (e : EngSel) (un : Fin 2) (ch : Fin 9) (src : Byte) (raw : Fin 256) (falling : Bool) (k level i : Nat) (s : State),
      tdcInst e un = i → s.clockRuns e.part = true → s.tdcTaken e.part i ch = false → s.tdcLooped e.part i ch = false → s.fd e.part .tdcChCfg 31 24 i ch = src.toNat → src ≠ 0 → s.bt e.part .tdcChCfg (if falling then 23 else 22) i ch = true → s.fd e.part .tdcChCfg 21 20 i ch = 1 → 
      Completes (.tdcEvent e un ch src raw falling k level) s fun t =>
        mget (fun _ => 0) (t.tdcU e.part i).presc ch.val = mget (fun _ => 0) (s.tdcU e.part i).presc ch.val + 1) ∧
  (∀ (un : Fin 2) (ch : Fin 9) (src : Byte) (raw : Fin 256) (falling : Bool) (k level : Nat) (s : State),
      s.clockRuns .tsu = false → 
      Completes (.tdcEvent .tsu un ch src raw falling k level) s fun t =>
        t = s) ∧
  (∀ (e : EngSel) (un : Fin 2) (a : TdcStart) (s : State),
      s.bt e.part .tdcCtrl 1 (tdcInst e un) = true → s.clockRuns e.part = true → (s.tdcU e.part (tdcInst e un)).start = some a → a.edge ≤ (s.part e.part).tb.edgeNo → (s.tdcU e.part (tdcInst e un)).wrapped = false → 
      Completes (.coarseWrap e un) s fun t =>
        t.bt e.part .tdcStat 2 (tdcInst e un) = true ∧ (t.tdcU e.part (tdcInst e un)).wrapped = true ∧ a.edge + 2 ^ 24 ≤ (t.part e.part).tb.edgeNo) ∧
  (∀ (e : EngSel) (un : Fin 2) (a : TdcStart) (s : State),
      s.bt e.part .tdcCtrl 1 (tdcInst e un) = true → s.clockRuns e.part = true → (s.tdcU e.part (tdcInst e un)).start = some a → a.edge ≤ (s.part e.part).tb.edgeNo → (s.tdcU e.part (tdcInst e un)).wrapped = true → 
      Completes (.coarseWrap e un) s fun t =>
        ((t.part e.part).tb.edgeNo - a.edge) % 2 ^ 24 = 0 ∧ t.rd e.part .tdcStat (tdcInst e un) = s.rd e.part .tdcStat (tdcInst e un)) ∧
  (∀ (e : EngSel) (un : Fin 2) (src : Src) (s : State),
      s.permits e.part src (some 4) true = true → e = .tsu → s.macroBad = false → s.bt e.part .tdcCalst 31 (tdcInst e un) = false → (s.tdcU e.part (tdcInst e un)).held = false → 
      Completes (.tdcCalGo e un src) s fun t =>
        t.bt e.part .tdcCalst 31 (tdcInst e un) = true ∧ (t.tdcU e.part (tdcInst e un)).hits = []) ∧
  (∀ (e : EngSel) (un : Fin 2) (src : Src) (s : State),
      s.permits e.part src (some 4) true = true → s.bt e.part .tdcCalst 31 (tdcInst e un) = true → 
      Completes (.tdcCalGo e un src) s fun t =>
        t.tdcU e.part (tdcInst e un) = s.tdcU e.part (tdcInst e un) ∧ t.bt e.part .tdcCalst 31 (tdcInst e un) = true) ∧
  (∀ (e : EngSel) (un : Fin 2) (hits taps : List (List Nat)) (s : State),
      s.bt e.part .tdcCalst 31 (tdcInst e un) = true → ((List.range 9).any fun (c : Nat) => calFails (2 ^ s.fd e.part .tdcCtrl 20 16 (tdcInst e un)) (addHits (mget (fun _ => []) (s.tdcU e.part (tdcInst e un)).hits c) (hits.getD c [])) (taps.getD c []).length) = true → (s.tdcU e.part (tdcInst e un)).autoWait = false → 
      Completes (.tdcCalDone e un hits taps) s fun t =>
        t.bt e.part .tdcCalst 31 (tdcInst e un) = false ∧ t.bt e.part .tdcStat 3 (tdcInst e un) = true ∧
        (t.tdcU e.part (tdcInst e un)).edges = (s.tdcU e.part (tdcInst e un)).edges ∧ (t.tdcU e.part (tdcInst e un)).taps = (s.tdcU e.part (tdcInst e un)).taps) ∧
  (∀ (e : EngSel) (un : Fin 2) (hits taps : List (List Nat)) (c : Fin 9) (s : State),
      s.bt e.part .tdcCalst 31 (tdcInst e un) = true → ((List.range 9).any fun (c : Nat) => calFails (2 ^ s.fd e.part .tdcCtrl 20 16 (tdcInst e un)) (addHits (mget (fun _ => []) (s.tdcU e.part (tdcInst e un)).hits c) (hits.getD c [])) (taps.getD c []).length) = false → (s.tdcU e.part (tdcInst e un)).autoWait = false → 
      Completes (.tdcCalDone e un hits taps) s fun t =>
        t.bt e.part .tdcCalst 31 (tdcInst e un) = false ∧ t.bt e.part .tdcCalst 30 (tdcInst e un) = false ∧ t.bt e.part .tdcStat 4 (tdcInst e un) = true ∧
        t.bt e.part .tdcCalst 29 (tdcInst e un) = (s.tdcU e.part (tdcInst e un)).bandMoved ∧
        (t.tdcU e.part (tdcInst e un)).edgesOf c = calEdges (2 ^ s.fd e.part .tdcCtrl 20 16 (tdcInst e un)) (addHits (mget (fun _ => []) (s.tdcU e.part (tdcInst e un)).hits c.val) (hits.getD c.val [])) ∧
        mget (fun _ => []) (t.tdcU e.part (tdcInst e un)).taps c.val = taps.getD c.val []) ∧
  (∀ (e : EngSel) (un : Fin 2) (hits taps : List (List Nat)) (s : State),
      s.bt e.part .tdcCalst 31 (tdcInst e un) = true → (s.tdcU e.part (tdcInst e un)).autoWait = true → (s.tdcU e.part (tdcInst e un)).held = false → e = .tsu → s.macroBad = false → 
      Completes (.tdcCalDone e un hits taps) s fun t =>
        t.bt e.part .tdcCalst 31 (tdcInst e un) = true ∧ (t.tdcU e.part (tdcInst e un)).autoWait = false ∧ (t.tdcU e.part (tdcInst e un)).hits = []) ∧
  (∀ (band : Fin 8) (load : Fin 4) (s : State),
      Completes (.tempBandChange band load) s fun t =>
        t.presentBin = 4 * band.val + load.val ∧
        (s.presentBin / 4 ≠ band.val → t.bt .tsu .tdcCalst 29 = true ∧ t.bt .tsu .tdcCalst 29 1 = true ∧
          (t.tdcU .tsu 0).bandMoved = !(s.bt .tsu .tdcCtrl 23 && !s.bt .tsu .tdcCalst 31 && !s.macroBad && !(s.tdcU .tsu 0).held)))

/-- Fine triggers arm, fire and are cancelled; their outputs calibrate -/
def Obligations.FineTriggersArmFireCalibrate : Prop :=
  (∀ (e : EngSel) (n : Fin 8) (i : Nat) (src : Src) (v lo : Word) (s : State),
      dtcInst e n = i → hasDtc e = true → s.permits e.part src (some 5) true = true → s.staged e.part src (addrOf e.part .dtcAtLo i) (s.rd e.part .dtcAtLo i) = lo → e = .tsu → s.fenced = false → noSign (v ++ lo) (s.ht e.part) = false → (s.dtcO e.part i).armed.length < 4 → ((s.dtcO e.part i).armed.any fun (y : Trigger) => decide ((htDiff (v ++ lo) y.target).natAbs < 2048)) = false → s.bt e.part .dtcCfg 0 i = true → s.bt e.part .dtcStatus 3 i = false → s.clockRuns e.part = true → 
      Completes (.dtcOutAtHi e n src v) s fun t =>
        (t.dtcO e.part i).armed = insertTrig ⟨v ++ lo, s.ht e.part, src.jctx⟩ (s.dtcO e.part i).armed) ∧
  (∀ (n : Fin 8) (src : Src) (v : Word) (s : State),
      s.permits .tsu src (some 5) true = true → s.fenced = true → 
      Completes (.dtcOutAtHi .tsu n src v) s fun t =>
        (t.dtcO .tsu n.val).armed = (s.dtcO .tsu n.val).armed) ∧
  (∀ (e : EngSel) (n : Fin 8) (src : Src) (s : State),
      hasDtc e = true → s.permits e.part src (some 5) true = true → 
      Completes (.dtcOutCancel e n src) s fun t =>
        (t.dtcO e.part (dtcInst e n)).armed = []) ∧
  (∀ (e : EngSel) (n : Fin 8) (i : Nat) (g : Trigger) (rest : List Trigger) (want : HT) (s : State),
      dtcInst e n = i → (s.dtcO e.part i).armed = g :: rest → s.clockRuns e.part = true → g.target + BitVec.ofInt 64 (sext 12 (s.fd e.part .dtcCfg 31 20 i)) - BitVec.ofNat 64 (s.fd e.part .dtcIns 11 0 i) = want → after (s.edgeBefore e.part want) want = false → after (g.armedAt + 1024#64) (s.edgeBefore e.part want) = false → 
      Completes (.triggerFire e n) s fun t =>
        (t.dtcO e.part i).armed = rest ∧ t.bt e.part .dtcStat 0 i = true ∧
        (t.dtcO e.part i).pulse = some ⟨t.ht e.part, (s.dtcO e.part i).code (min (htDiff want (t.ht e.part)).toNat 255), s.fd e.part .dtcCfg 10 8 i, s.bt e.part .dtcCfg 1 i⟩ ∧
        BitVec.ofNat 64 ((t.rd e.part .dtcLastLo i).toNat + 2 ^ 32 * (t.rd e.part .dtcLastHi i).toNat) =
          t.ht e.part + BitVec.ofNat 64 (s.fd e.part .dtcIns 11 0 i + min (htDiff want (t.ht e.part)).toNat 255)) ∧
  (∀ (e : EngSel) (n : Fin 8) (i : Nat) (g : Trigger) (rest : List Trigger) (want : HT) (s : State),
      dtcInst e n = i → (s.dtcO e.part i).armed = g :: rest → s.clockRuns e.part = true → g.target + BitVec.ofInt 64 (sext 12 (s.fd e.part .dtcCfg 31 20 i)) - BitVec.ofNat 64 (s.fd e.part .dtcIns 11 0 i) = want → after (g.armedAt + 1024#64) (if after (s.edgeBefore e.part want) want then want else s.edgeBefore e.part want) = true → 
      Completes (.triggerFire e n) s fun t =>
        (t.dtcO e.part i).armed = rest ∧ t.bt e.part .dtcStat 0 i = true ∧ t.bt e.part .dtcStat 1 i = true ∧
        (t.dtcO e.part i).pulse = some ⟨t.ht e.part, (s.dtcO e.part i).code (0), s.fd e.part .dtcCfg 10 8 i, s.bt e.part .dtcCfg 1 i⟩ ∧
        BitVec.ofNat 64 ((t.rd e.part .dtcLastLo i).toNat + 2 ^ 32 * (t.rd e.part .dtcLastHi i).toNat) =
          t.ht e.part + BitVec.ofNat 64 (s.fd e.part .dtcIns 11 0 i + 0)) ∧
  (∀ (e : EngSel) (src : Src) (mask : Byte) (n : Fin 8) (s : State),
      hasDtc e = true → s.permits e.part src (some 5) true = true → e = .tsu → s.macroBad = false → mask.getLsbD n = true → ∀ k : Fin 8, k < n → mask.getLsbD k = false → ∀ k : Fin 8, s.bt e.part .dtcStatus 3 (8 * e.tileNo + k) = false → s.fd e.part .tdcCalst 30 29 (2 * e.tileNo) = 0 → 
      Completes (.dtcCal e src mask) s fun t =>
        t.bt e.part .dtcStatus 3 (8 * e.tileNo + n) = true ∧ (t.dtcO e.part (8 * e.tileNo + n)).calibrating = true ∧
        (t.dtcO e.part (8 * e.tileNo + n)).armed = [] ∧
        mget (fun _ => []) (t.part e.part).dtcCalQ e.tileNo = ((List.range 8).filter fun (k : Nat) => decide (n.val < k) && mask.getLsbD k).map fun (k : Nat) => (k, src.jctx)) ∧
  (∀ (e : EngSel) (src : Src) (mask : Byte) (n : Fin 8) (s : State),
      hasDtc e = true → s.permits e.part src (some 5) true = true → e = .tsu → s.macroBad = false → s.bt e.part .dtcStatus 3 (8 * e.tileNo + n) = true → 
      Completes (.dtcCal e src mask) s fun t =>
        mget (fun _ => []) (t.part e.part).dtcCalQ e.tileNo = mget (fun _ => []) (s.part e.part).dtcCalQ e.tileNo ++
          (((List.range 8).filter fun (k : Nat) => mask.getLsbD k && !(mget (fun _ => []) (s.part e.part).dtcCalQ e.tileNo).any fun (y : Nat × Nat) => y.1 == k).map fun (k : Nat) => (k, src.jctx))) ∧
  (∀ (e : EngSel) (src : Src) (mask : Byte) (s : State),
      hasDtc e = true → s.permits e.part src (some 5) true = true → e = .tsu → s.macroBad = false → ∀ k : Fin 8, s.bt e.part .dtcStatus 3 (8 * e.tileNo + k) = false → s.fd e.part .tdcCalst 30 29 (2 * e.tileNo) ≠ 0 → 
      Completes (.dtcCal e src mask) s fun t =>
        ∀ k : Fin 8, t.bt e.part .dtcStatus 3 (8 * e.tileNo + k) = false) ∧
  (∀ (e : EngSel) (n : Fin 8) (i : Nat) (d : List Int) (q : List (Nat × Nat)) (s : State),
      dtcInst e n = i → s.bt e.part .dtcStatus 3 i = true → mget (fun _ => []) (s.part e.part).dtcCalQ e.tileNo = q → (q.all fun (y : Nat × Nat) => y.1 != n.val && decide (y.1 < 8)) = true → 
      Completes (.dtcCalDone e n d) s fun t =>
        t.bt e.part .dtcStatus 3 i = false ∧ (t.dtcO e.part i).calibrating = false ∧
        t.rd e.part .dtcIns i = (if dtcFails d then s.rd e.part .dtcIns i else BitVec.ofNat 32 (wrapInt 12 (dtcInsOf d))) ∧
        (t.dtcO e.part i).codes = (if dtcFails d then (s.dtcO e.part i).codes else some ((List.range 256).map fun (h : Nat) => bestCode d (256 * (dtcInsOf d + h))))) ∧
  (∀ (e : EngSel) (n : Fin 8) (i : Nat) (d : List Int) (m : Fin 8) (j : Nat) (q : List (Nat × Nat)) (s : State),
      dtcInst e n = i → s.bt e.part .dtcStatus 3 i = true → mget (fun _ => []) (s.part e.part).dtcCalQ e.tileNo = (m.val, j) :: q → s.fd e.part .tdcCalst 30 29 (2 * e.tileNo) = 0 → 
      Completes (.dtcCalDone e n d) s fun t =>
        t.bt e.part .dtcStatus 3 (8 * e.tileNo + m) = true ∧ mget (fun _ => []) (t.part e.part).dtcCalQ e.tileNo = q)

/-- SYNC and DREQ exchanges, holds and slews. Choices of the model: a frame sent names its addressee, log entry 38 -/
def Obligations.TimeTransferExchanges : Prop :=
  (∀ (port : Port) (x t4 ans hops : Nat) (s : State),
      s.sendsSync port.part port.num = true → s.portState port.part port.num = 6 → ((s.psrv port.part port.num).xn + 1) % 65536 = x → ((s.psrv port.part port.num).dreq.map fun (y : Nat × HT) => (y.2.toNat, y.1)).getD (0, 0) = (t4, ans) → (if s.isSource port.part then 0 else ((s.part port.part).srv.tport.map fun (n : Nat) => min 255 (s.fd port.part .srvPState 23 16 n + 1)).getD 0) = hops → 
      Completes (.syncInterval port) s fun t =>
        (t.psrv port.part port.num).xn = x ∧
        ((t.part port.part).sent.any fun (f : Sent) => f.dest == .port port.num && f.frame.cls == 1 && f.frame.ty == 1 && f.lane == some (x % 4) &&
          f.frame.fields.drop 1 == [t4, x, ans, s.qual port.part + 8 * s.domain + 16 * b2n (s.bt port.part .prtState 15 port.num) + 32 * b2n (s.isSource port.part), (s.part port.part).srv.setgen, hops, s.node port.part]) = true) ∧
  (∀ (port : Port) (m : SyncRx) (s : State),
      s.portState port.part port.num = 6 → 
      Completes (.sync port m) s fun t =>
        t.fd port.part .srvPState 31 24 port.num = m.setgen % 256 ∧ t.fd port.part .srvPState 23 16 port.num = m.hops % 256 ∧
        t.fd port.part .srvPState 15 13 port.num = m.code % 8 ∧ t.bt port.part .srvPState 12 port.num = m.tscal ∧
        ((t.part port.part).sent.any fun (f : Sent) => f.dest == .port port.num && f.frame.cls == 1 && f.frame.ty == 2 && f.lane == some (m.xn % 4) &&
          f.frame.fields.drop 1 == [m.xn, b2n (s.bt port.part .prtState 15 port.num)]) = true) ∧
  (∀ (port : Port) (m : SyncRx) (s : State),
      s.portState port.part port.num = 6 → s.downstreamEnd port.part port.num = true → (m.source = false ∨ port.num < 272) → 
      Completes (.sync port m) s fun t =>
        ((t.psrv port.part port.num).open_.any fun (y : Exchange) => y.xn == m.xn && y.t1 == m.t1 && y.t2 == m.t2 && y.gen == m.setgen) = true) ∧
  (∀ (port : Port) (m : SyncRx) (y : Exchange) (t3 : HT) (s : State),
      s.portState port.part port.num = 6 → ((s.part port.part).sent.any fun (f : Sent) => f.onPort port.num && (!f.started || f.again)) = false → (s.prt port.part port.num).calRun = none → ((s.prt port.part port.num).bulk.all fun (b : BulkXfer) => b.rest.isEmpty) = true → (s.srvState port.part port.num = 1 ∨ s.srvState port.part port.num = 6) → (m.source = false ∨ port.num < 272) → (s.psrv port.part port.num).open_ = [y] → y.xn = m.xnAns → y.t3 = some t3 → m.t4 ≠ 0 → htDiff m.t1 y.t1 ≤ (8 * s.syncInt port.part : Nat) → 64 ≤ (s.psrv port.part port.num).dn.count y.f → 64 ≤ (s.psrv port.part port.num).up.count y.r → 
      Completes (.sync port m) s fun t =>
        t.fd port.part .srvPCnt 15 0 port.num = min 65535 (s.fd port.part .srvPCnt 15 0 port.num + 1) ∧
        t.fd port.part .srvPCnt 31 16 port.num = s.fd port.part .srvPCnt 31 16 port.num ∧
        (t.psrv port.part port.num).lastValid = some (s.ht port.part) ∧ (t.psrv port.part port.num).gen = some y.gen) ∧
  (∀ (port : Port) (m : SyncRx) (s : State),
      s.portState port.part port.num = 6 → s.downstreamEnd port.part port.num = true → (m.source = false ∨ port.num < 272) → (s.psrv port.part port.num).open_ = [] → m.t4 ≠ 0 → (s.psrv port.part port.num).answered ≠ some m.xnAns → 
      Completes (.sync port m) s fun t =>
        t.fd port.part .srvPCnt 31 16 port.num = min 65535 (s.fd port.part .srvPCnt 31 16 port.num + 1)) ∧
  (∀ (port : Port) (xn : BitVec 16) (rxts : HT) (s : State),
      Completes (.dreq port xn rxts) s fun t =>
        (t.psrv port.part port.num).dreq = some (xn.toNat, rxts)) ∧
  (∀ (port : Port) (s : State),
      1 ≤ s.srvState port.part port.num → s.srvState port.part port.num ≤ 3 → 
      Completes (.servoHoldTimeout port) s fun t =>
        t.srvState port.part port.num = 4 ∧ (s.srvState port.part port.num = 3 → t.bt port.part .srvStat 1 = true)) ∧
  (∀ (p : PartId) (h : HT) (s : State),
      (s.part p).srv.prefSince = some h → s.revertRuns p = true → 
      Completes (.revertTimeout p) s fun t =>
        (t.part p).srv.followed = s.prefRef p ∧ (t.part p).srv.prefSince = none) ∧
  (∀ (p : PartId) (s : State),
      (s.part p).tb.rem ≠ 0 → s.clockRuns p = true → 
      Completes (.slewEnd p) s fun t =>
        (t.part p).tb.rem = 0 ∧ t.bt p .srvStat 3 = true ∧
        (t.part p).tb.edgeNo = (s.part p).tb.edgeNo + ((s.part p).tb.rem.natAbs + 429496) / 429497)

/-- The twin as source, measured offsets, loopback calibration. Choices of the model: a frame sent names its addressee, log entry 38 -/
def Obligations.DomainsDifferencesAndLoopback : Prop :=
  (∀ (h : HT) (s : State),
      s.sourceTier = true → s.actsPrimary = false → s.dist.srv.source = false → s.eligible .dist 1 = false → s.eligible .dist 2 = false → s.dist.srv.noRef = some h → 
      Completes (.twinSourceTimeout) s fun t =>
        t.dist.srv.source = true ∧ t.dist.srv.followed = 0 ∧ t.qual .dist = 2 ∧ t.bt .dist .srvStat 0 = true ∧ t.fd .dist .tbsQual 31 16 = 0) ∧
  (∀ (s : State),
      s.wiping .dist = false → 
      Completes (.diffInterval .dist) s fun t =>
        t.dist.jnl.count = s.dist.jnl.count + ((List.range 274).filter fun (m : Nat) => s.srvState .dist m == 6 && s.portState .dist m == 6).length) ∧
  (∀ (n : Fin 274) (s : State),
      s.srvState .dist n = 6 → s.portState .dist n = 6 → s.tier = 5 → 
      Completes (.diffInterval .dist) s fun t =>
        (t.dist.sent.any fun (f : Sent) => f.dest == .port n.val && f.frame.cls == 1 && f.frame.ty == 4 && f.frame.fields.drop 1 ==
          ((List.range 274).filter fun (m : Nat) => s.srvState .dist m == 6 && s.portState .dist m == 6).flatMap fun (m : Nat) => [s.fd .dist .prtPeer 19 0 m, wrapInt 64 ((s.psrv .dist n).theta - (s.psrv .dist m).theta)]) = true) ∧
  (∀ (offs : List (Nat × Nat × Int)) (s : State),
      s.wiping .dist = false → 
      Completes (.diff offs) s fun t =>
        t.dist.srv.diffs = offs.map (fun (o : Nat × Nat × Int) => (o.1, o.2.2)) ∧ t.dist.jnl.count = s.dist.jnl.count + offs.length) ∧
  (∀ (ti : Fin 8) (src : Src) (x y : Fin 512) (s : State),
      s.permits .dist src (some 2) true = true → s.dist.unlocked.contains src.cls = true → x.val < 274 → y.val < 274 → x ≠ y → portTile x = ti → portTile y = ti → s.portState .dist x = 0 → s.portState .dist y = 0 → s.jobsFree .dist = true → 
      Completes (.srvLcalArm ti src x y) s fun t =>
        t.rd .dist .srvLcal ti = BitVec.ofNat 32 (x.val + 512 * y.val + 2 ^ 30)) ∧
  (∀ (ti : Fin 8) (src : Src) (x y : Fin 512) (s : State),
      s.permits .dist src (some 2) true = true → s.dist.unlocked.contains src.cls = true → x.val < 274 → y.val < 274 → x ≠ y → portTile x = ti → portTile y = ti → s.bt .dist .srvLcal 30 ti = false → (s.portState .dist x ≠ 0 ∨ s.portState .dist y ≠ 0 ∨ s.jobsFree .dist = false) → 
      Completes (.srvLcalArm ti src x y) s fun t =>
        t.rd .dist .srvLcal ti = s.rd .dist .srvLcal ti) ∧
  (∀ (ti : Fin 8) (src : Src) (x y : Fin 512) (arm : Bool) (s : State),
      s.permits .dist src (some 2) true = true → s.dist.unlocked.contains src.cls = true → x.val < 274 → y.val < 274 → x ≠ y → portTile x = ti → portTile y = ti → arm = true → s.bt .dist .srvLcal 30 ti = true ∧ s.fd .dist .srvLcal 8 0 ti = x ∧ s.fd .dist .srvLcal 17 9 ti = y → s.bt .dist .prtState 15 x = true → s.bt .dist .prtState 15 y = true → s.bt .dist .srvLcalStat 31 ti = false → 
      Completes (.srvLcalGo ti src x y arm) s fun t =>
        t.bt .dist .srvLcalStat 31 ti = true ∧ t.fd .dist .srvLcalStat 12 0 ti = 0 ∧ mget (fun _ => (0, 0, 0)) t.dist.srv.lcal ti.val = (0, 0, 0)) ∧
  (∀ (ti : Fin 8) (n discarded : Nat) (sum : Int) (s : State),
      s.bt .dist .srvLcalStat 31 ti = true → mget (fun _ => (0, 0, 0)) s.dist.srv.lcal ti.val = (n, discarded, sum) → 4096 ≤ n → 
      Completes (.loopbackCalibrationDone ti) s fun t =>
        t.bt .dist .srvLcalStat 31 ti = false ∧
        (if 64 < discarded then t.bt .dist .srvLcalStat 29 ti = true ∧ t.rd .dist .srvLcalAsym ti = s.rd .dist .srvLcalAsym ti
         else t.bt .dist .srvLcalStat 30 ti = true ∧ t.rd .dist .srvLcalAsym ti =
           BitVec.ofInt 32 (satInt 32 (2 * sum / ((n - discarded : Nat) : Int)))))

/-- A port trains, locks and negotiates -/
def Obligations.PortsTrainAndNegotiate : Prop :=
  (∀ (port : Port) (src : Src) (s : State),
      s.permits port.part src (some 3) true = true → (s.part port.part).unlocked.contains src.cls = true → port.part = .tsu → s.macroBad = false → s.portState port.part port.num = 0 → s.portAllowed port.part port.num = true → 
      Completes (.prtCtrlEn port src true) s fun t =>
        t.portState port.part port.num = 1 ∧ t.bt port.part .prtCtrl 0 port.num = true) ∧
  (∀ (port : Port) (src : Src) (s : State),
      s.permits port.part src (some 3) true = true → (s.part port.part).unlocked.contains src.cls = true → port.part = .tsu → s.macroBad = false → s.portState port.part port.num ≠ 0 → 
      Completes (.prtCtrlEn port src true) s fun t =>
        t.portState port.part port.num = s.portState port.part port.num ∧ t.bt port.part .prtCtrl 0 port.num = true) ∧
  (∀ (port : Port) (src : Src) (s : State),
      s.permits port.part src (some 3) true = true → (s.part port.part).unlocked.contains src.cls = true → 
      Completes (.prtCtrlEn port src false) s fun t =>
        t.portState port.part port.num = 0 ∧ t.bt port.part .prtCtrl 0 port.num = false) ∧
  (∀ (port : Port) (src : Src) (s : State),
      s.permits port.part src (some 3) true = true → (s.part port.part).unlocked.contains src.cls = true → port.part = .tsu → s.macroBad = false → s.portState port.part port.num = 6 → 
      Completes (.prtCtrlRetrain port src true) s fun t =>
        t.portState port.part port.num = 1 ∧
        ((t.part port.part).flits.any fun (f : FlitOut) => f.port == port.num && f.sub == some 6) = true) ∧
  (∀ (port : Port) (src : Src) (s : State),
      s.permits port.part src (some 3) true = true → (s.part port.part).unlocked.contains src.cls = true → port.part = .tsu → s.macroBad = false → s.portState port.part port.num = 7 → 
      Completes (.prtCtrlRetrain port src true) s fun t =>
        t.portState port.part port.num = 1 ∧ t.fd port.part .prtState 31 28 port.num = 0 ∧ (t.part port.part).flits = (s.part port.part).flits) ∧
  (∀ (port : Port) (mask : Fin 32) (s : State),
      s.portState port.part port.num = 1 → 4 ≤ lanesIn (mask.val &&& (31 - (s.prt port.part port.num).retired / 32 % 32)) → 
      Completes (.farEndSignal port mask) s fun t =>
        t.portState port.part port.num = 2 ∧ t.bt port.part .prtState 16 port.num = s.bt port.part .prtCfg 0 port.num) ∧
  (∀ (port : Port) (mask : Fin 32) (s : State),
      s.portState port.part port.num = 1 → lanesIn (mask.val &&& (31 - (s.prt port.part port.num).retired / 32 % 32)) < 4 → 
      Completes (.farEndSignal port mask) s fun t =>
        if (s.prt port.part port.num).laneFails < 3 then t.portState port.part port.num = s.portState port.part port.num ∧ (t.prt port.part port.num).laneFails = (s.prt port.part port.num).laneFails + 1
        else t.portState port.part port.num = 7 ∧ t.fd port.part .prtState 31 28 port.num = 5) ∧
  (∀ (port : Port) (rx tx : Fin 32) (s : State),
      s.portState port.part port.num = 2 → 4 ≤ lanesIn (rx.val &&& (31 - (s.prt port.part port.num).retired / 32 % 32)) → 4 ≤ lanesIn (tx.val &&& (31 - (s.prt port.part port.num).retired % 32)) → 
      Completes (.equalisationConverged port rx tx) s fun t =>
        t.portState port.part port.num = 3 ∧ t.bt port.part .prtState 14 port.num = decide (lanesIn (rx.val &&& (31 - (s.prt port.part port.num).retired / 32 % 32)) = 5) ∧ (t.prt port.part port.num).laneFails = 0 ∧
        t.dirMap port.part port.num 0 = trainMap (s.dirMap port.part port.num 0) (tx.val &&& (31 - (s.prt port.part port.num).retired % 32)) ∧ t.dirMap port.part port.num 1 = trainMap (s.dirMap port.part port.num 1) (rx.val &&& (31 - (s.prt port.part port.num).retired / 32 % 32))) ∧
  (∀ (port : Port) (rx tx : Fin 32) (s : State),
      s.portState port.part port.num = 2 → (lanesIn (rx.val &&& (31 - (s.prt port.part port.num).retired / 32 % 32)) < 4 ∨ lanesIn (tx.val &&& (31 - (s.prt port.part port.num).retired % 32)) < 4) → 
      Completes (.equalisationConverged port rx tx) s fun t =>
        if (s.prt port.part port.num).laneFails < 3 then t.portState port.part port.num = s.portState port.part port.num ∧ (t.prt port.part port.num).laneFails = (s.prt port.part port.num).laneFails + 1
        else t.portState port.part port.num = 7 ∧ t.fd port.part .prtState 31 28 port.num = 5) ∧
  (∀ (port : Port) (s : State),
      s.portState port.part port.num = 3 → 
      Completes (.codewordLock port) s fun t =>
        t.portState port.part port.num = 4 ∧ (t.prt port.part port.num).txExp = 0 ∧ (t.prt port.part port.num).txNorm = 0 ∧ (t.prt port.part port.num).rxExp = 0 ∧ (t.prt port.part port.num).rxNorm = 0 ∧
        (t.prt port.part port.num).credit = 512 ∧ (t.prt port.part port.num).negAt = s.ht port.part) ∧
  (∀ (port : Port) (s : State),
      2 ≤ s.portState port.part port.num → s.portState port.part port.num ≤ 5 → 
      Completes (.trainingTimeout port) s fun t =>
        if (s.prt port.part port.num).fails < 3 then t.portState port.part port.num = 1 ∧ (t.prt port.part port.num).fails = (s.prt port.part port.num).fails + 1
        else t.portState port.part port.num = 7 ∧ t.fd port.part .prtState 31 28 port.num = 4) ∧
  (∀ (port : Port) (k : Fin 17) (s : State),
      s.inService port.part port.num = true → 
      Completes (.codewordLockLoss port k) s fun t =>
        t.portState port.part port.num = (if 8 ≤ k.val ∧ s.portState port.part port.num = 6 then 1 else s.portState port.part port.num) ∧
        t.fd port.part .prtCntUncorr 31 0 port.num = min (2 ^ 32 - 1) (s.fd port.part .prtCntUncorr 31 0 port.num + k)) ∧
  (∀ (port : Port) (lane : Fin 5) (s : State),
      s.portState port.part port.num = 6 → ((List.range 4).any fun ln => mapLane (s.fd port.part .prtLmap 30 16 port.num) ln == lane.val) = true → 
      Completes (.laneLoss port lane) s fun t =>
        if mapLane (s.fd port.part .prtLmap 30 16 port.num) 4 = 7 then t.portState port.part port.num = 7 ∧ t.fd port.part .prtState 31 28 port.num = 5
        else t.portState port.part port.num = 1 ∧ (t.prt port.part port.num).retired = (s.prt port.part port.num).retired ||| 2 ^ (5 + lane.val)) ∧
  (∀ (port : Port) (f : NegFlit) (s : State),
      s.portState port.part port.num = 4 → f.fault = 0 → (s.versions port.part port.num).1 ≤ min (s.versions port.part port.num).2 f.vmax → f.vmin ≤ min (s.versions port.part port.num).2 f.vmax → port.part = .dist → s.miscabled port.num f = false → ((s.prt port.part port.num).fec == 1) = f.strong → 
      Completes (.neg port f true) s fun t =>
        t.portState port.part port.num = 5 ∧ t.fd port.part .prtState 23 20 port.num = min (s.versions port.part port.num).2 f.vmax ∧ (t.prt port.part port.num).calWait = true ∧
        t.rd port.part .prtPeer port.num = BitVec.ofNat 32 (f.node % 2 ^ 20 + 2 ^ 20 * (f.port % 512) + 2 ^ 29 * (f.domain % 2))) ∧
  (∀ (port : Port) (f : NegFlit) (s : State),
      s.portState port.part port.num = 4 → f.fault = 0 → (min (s.versions port.part port.num).2 f.vmax < (s.versions port.part port.num).1 ∨ min (s.versions port.part port.num).2 f.vmax < f.vmin) → 
      Completes (.neg port f true) s fun t =>
        t.portState port.part port.num = 7 ∧ t.fd port.part .prtState 31 28 port.num = 1 ∧ ((t.part port.part).flits.any fun (y : FlitOut) => y == ⟨port.num, some 5, s.negFields port.part port.num 1⟩) = true) ∧
  (∀ (port : Port) (f : NegFlit) (s : State),
      s.portState port.part port.num = 4 → f.fault % 16 ≠ 0 → 
      Completes (.neg port f true) s fun t =>
        t.portState port.part port.num = 7 ∧ t.fd port.part .prtState 31 28 port.num = f.fault % 16) ∧
  (∀ (port : Port) (s : State),
      s.portState port.part port.num = 4 → 
      Completes (.negInterval port) s fun t =>
        (t.part port.part).flits = (s.part port.part).flits ++ [⟨port.num, some 5, s.negFields port.part port.num 0⟩])

/-- Acknowledgement, replay, flits in time and frame delivery. Choices of the model: a frame sent names its addressee, log entry 38 -/
def Obligations.FramesAcknowledgedAndReplayed : Prop :=
  (∀ (port : Port) (hb : HT) (ackE ackN credit : BitVec 16) (spare : Bool) (s : State),
      s.linkRuns port.part port.num = true → 
      Completes (.idle port hb ackE ackN credit spare true) s fun t =>
        t.bt port.part .prtState 13 port.num = spare) ∧
  (∀ (port : Port) (hb : HT) (ackE ackN credit : BitVec 16) (spare : Bool) (s : State),
      Completes (.idle port hb ackE ackN credit spare false) s fun t =>
        t.fd port.part .prtCntProto 31 0 port.num = min (2 ^ 32 - 1) (s.fd port.part .prtCntProto 31 0 port.num + 1)) ∧
  (∀ (port : Port) (ackE ackN credit : BitVec 16) (s : State),
      s.linkRuns port.part port.num = true → ((s.part port.part).sent.any fun (f : Sent) => f.onPort port.num && (!f.started || f.again)) = false → (s.prt port.part port.num).calRun = none → ((s.prt port.part port.num).bulk.all fun (b : BulkXfer) => b.rest.isEmpty) = true → 
      Completes (.ack port ackE ackN credit true) s fun t =>
        (t.part port.part).sent = (s.part port.part).sent.filter (fun (f : Sent) => !((f.inReplay port.num true && seqLe f.seq ackE.toNat) || (f.inReplay port.num false && seqLe f.seq ackN.toNat))) ∧ (t.prt port.part port.num).credit = credit.toNat - t.bufUse port.part port.num false) ∧
  (∀ (port : Port) (express : Bool) (seq : BitVec 16) (s : State),
      s.linkRuns port.part port.num = true → ((s.part port.part).sent.any fun (f : Sent) => f.onPort port.num && (!f.started || f.again)) = false → (s.prt port.part port.num).calRun = none → ((s.prt port.part port.num).bulk.all fun (b : BulkXfer) => b.rest.isEmpty) = true → ((s.part port.part).sent.any fun (f : Sent) => (f.inReplay port.num express && seqLe seq.toNat f.seq) && decide (7 ≤ f.sends)) = false → 
      Completes (.nak port express seq true) s fun t =>
        ((t.part port.part).sent.take (s.part port.part).sent.length).map (fun (f : Sent) => ((f.dest, f.frame.cls, f.frame.ty, f.seq), f.sends, f.retx)) =
          (s.part port.part).sent.map fun (f : Sent) => if (f.inReplay port.num express && seqLe seq.toNat f.seq) then ((f.dest, f.frame.cls, f.frame.ty, f.seq), f.sends + 1, true) else ((f.dest, f.frame.cls, f.frame.ty, f.seq), f.sends, f.retx)) ∧
  (∀ (port : Port) (express : Bool) (seq : BitVec 16) (s : State),
      s.portState port.part port.num = 6 → ((s.part port.part).sent.any fun (f : Sent) => f.onPort port.num && (!f.started || f.again)) = false → (s.prt port.part port.num).calRun = none → ((s.prt port.part port.num).bulk.all fun (b : BulkXfer) => b.rest.isEmpty) = true → ((s.part port.part).sent.any fun (f : Sent) => (f.inReplay port.num express && seqLe seq.toNat f.seq) && decide (7 ≤ f.sends)) = true → 
      Completes (.nak port express seq true) s fun t =>
        t.portState port.part port.num = 1 ∧ t.bt port.part .prtStat 3 port.num = true) ∧
  (∀ (port : Port) (s : State),
      s.portState port.part port.num = 6 → 
      Completes (.retrain port 6 true) s fun t =>
        t.portState port.part port.num = 1) ∧
  (∀ (port : Port) (sub : Byte) (crcOk : Bool) (s : State),
      (crcOk = false ∨ sub = 0 ∨ 6 < sub.toNat) → 
      Completes (.retrain port sub crcOk) s fun t =>
        t.fd port.part .prtCntProto 31 0 port.num = min (2 ^ 32 - 1) (s.fd port.part .prtCntProto 31 0 port.num + 1) ∧ t.portState port.part port.num = s.portState port.part port.num) ∧
  (∀ (port : Port) (express : Bool) (hdr body : List Byte) (tdec : Int) (place : Nat) (f : Frame) (q : Nat) (s : State),
      s.linkRuns port.part port.num = true → body.length + 28 = 62 * ((hdr.getD 5 0).toNat + 1) → parseFrame hdr body = (f, q) → protoBad port.part f = false → (s.prt port.part port.num).rxExp = q → f.cls = 1 → f.ty = 0xFF → 
      Completes (.frameReceive port express hdr body (crc32 (hdr ++ body)) tdec place) s fun t =>
        (t.prt port.part port.num).rxExp = (q + 1) % 65536 ∧ (t.prt port.part port.num).ackDue = true ∧ (t.part port.part).delivered = (s.part port.part).delivered) ∧
  (∀ (port : Port) (express : Bool) (hdr body : List Byte) (tdec : Int) (place : Nat) (f : Frame) (q : Nat) (s : State),
      s.linkRuns port.part port.num = true → body.length + 28 = 62 * ((hdr.getD 5 0).toNat + 1) → parseFrame hdr body = (f, q) → protoBad port.part f = false → (s.prt port.part port.num).rxExp = q → f.cls = 2 → port.part = .dist → s.fencedDrop port.num f.cls f.ty = false → 
      Completes (.frameReceive port express hdr body (crc32 (hdr ++ body)) tdec place) s fun t =>
        (t.part port.part).delivered = (s.part port.part).delivered ++ [⟨port.num, f, s.rxStamp port.part port.num tdec place, !s.bt port.part .prtState 15 port.num⟩] ∧
        (t.prt port.part port.num).rxExp = (q + 1) % 65536) ∧
  (∀ (port : Port) (express : Bool) (hdr body : List Byte) (crc : Word) (tdec : Int) (place : Nat) (s : State),
      s.linkRuns port.part port.num = true → crc32 (hdr ++ body) ≠ crc → (if express then (s.prt port.part port.num).nakExp else (s.prt port.part port.num).nakNorm) = false → 
      Completes (.frameReceive port express hdr body crc tdec place) s fun t =>
        (t.part port.part).flits = (s.part port.part).flits ++ [⟨port.num, some 2, [b2n express, (if express then (s.prt port.part port.num).rxExp else (s.prt port.part port.num).rxNorm)]⟩] ∧ (t.part port.part).delivered = (s.part port.part).delivered ∧
        t.fd port.part .prtCntCrc 31 0 port.num = min (2 ^ 32 - 1) (s.fd port.part .prtCntCrc 31 0 port.num + 1)) ∧
  (∀ (port : Port) (express : Bool) (hdr body : List Byte) (tdec : Int) (place : Nat) (f : Frame) (q : Nat) (s : State),
      s.linkRuns port.part port.num = true → body.length + 28 = 62 * ((hdr.getD 5 0).toNat + 1) → parseFrame hdr body = (f, q) → isExpress f.cls = express → (if express then (s.prt port.part port.num).rxExp else (s.prt port.part port.num).rxNorm) ≠ q → (if express then (s.prt port.part port.num).nakExp else (s.prt port.part port.num).nakNorm) = false → 
      Completes (.frameReceive port express hdr body (crc32 (hdr ++ body)) tdec place) s fun t =>
        (t.part port.part).flits = (s.part port.part).flits ++ [⟨port.num, some 2, [b2n express, (if express then (s.prt port.part port.num).rxExp else (s.prt port.part port.num).rxNorm)]⟩] ∧ (t.part port.part).delivered = (s.part port.part).delivered) ∧
  (∀ (port : Port) (s : State),
      s.linkRuns port.part port.num = true → 
      Completes (.heartbeatDue port) s fun t =>
        (t.prt port.part port.num).lastIdle = t.ht port.part ∧ ((t.part port.part).flits.any fun (f : FlitOut) => f.port == port.num && f.sub == none) = true) ∧
  (∀ (port : Port) (s : State),
      s.linkRuns port.part port.num = true → (s.prt port.part port.num).ackDue = true → 
      Completes (.ackDue port) s fun t =>
        (t.prt port.part port.num).ackDue = false ∧ ((t.part port.part).flits.any fun (f : FlitOut) => f.port == port.num && f.sub == some 1 &&
          f.fields.take 2 == [((s.prt port.part port.num).rxExp + 65535) % 65536, ((s.prt port.part port.num).rxNorm + 65535) % 65536]) = true) ∧
  (∀ (port : Port) (express : Bool) (s : State),
      s.linkRuns port.part port.num = true → (if express then (s.prt port.part port.num).nakExp else (s.prt port.part port.num).nakNorm) = true → 
      Completes (.nakRepeat port express) s fun t =>
        (t.part port.part).flits = (s.part port.part).flits ++ [⟨port.num, some 2, [b2n express, (if express then (s.prt port.part port.num).rxExp else (s.prt port.part port.num).rxNorm)]⟩]) ∧
  (∀ (port : Port) (express : Bool) (g : Sent) (s : State),
      s.linkRuns port.part port.num = true → ((s.part port.part).sent.any fun (f : Sent) => f.onPort port.num && (!f.started || f.again)) = false → (s.prt port.part port.num).calRun = none → ((s.prt port.part port.num).bulk.all fun (b : BulkXfer) => b.rest.isEmpty) = true → ((s.part port.part).sent.find? fun (f : Sent) => f.inReplay port.num express) = some g → ((s.part port.part).sent.any fun (f : Sent) => (f.inReplay port.num express && seqLe g.seq f.seq) && decide (7 ≤ f.sends)) = false → 
      Completes (.replayTimeout port express) s fun t =>
        ((t.part port.part).sent.take (s.part port.part).sent.length).map (fun (f : Sent) => ((f.dest, f.frame.cls, f.frame.ty, f.seq), f.sends, f.retx)) =
          (s.part port.part).sent.map fun (f : Sent) => if (f.inReplay port.num express && seqLe g.seq f.seq) then ((f.dest, f.frame.cls, f.frame.ty, f.seq), f.sends + 1, true) else ((f.dest, f.frame.cls, f.frame.ty, f.seq), f.sends, f.retx))

/-- Latency calibration, the spare lane, and bulk transfers. Choices of the model: a frame sent names its addressee, log entry 38 -/
def Obligations.LatenciesLaneSwapsAndBulk : Prop :=
  (∀ (port : Port) (s : State),
      (s.portState port.part port.num = 5 ∨ s.portState port.part port.num = 6) → (s.prt port.part port.num).calWait = true → (s.prt port.part port.num).calibrating = false → (s.prt port.part port.num).swap = none → s.bt port.part .tdcCalst 30 (linkUnit port.part port.num) = false → 
      Completes (.latencyCalibration port) s fun t =>
        (t.prt port.part port.num).calibrating = true ∧ (t.prt port.part port.num).calWait = false ∧ (t.tdcU port.part (linkUnit port.part port.num)).held = true) ∧
  (∀ (port : Port) (s : State),
      s.portState port.part port.num = 5 → (s.prt port.part port.num).calWait = true → (s.prt port.part port.num).calibrating = false → (s.prt port.part port.num).swap = none → s.bt port.part .tdcCalst 30 (linkUnit port.part port.num) = true → 
      Completes (.latencyCalibration port) s fun t =>
        t.portState port.part port.num = 6 ∧ t.bt port.part .prtState 15 port.num = false ∧ (t.prt port.part port.num).calWait = false) ∧
  (∀ (port : Port) (tx rx : List (Option Int)) (l : Fin 5) (x : Int) (s : State),
      (s.prt port.part port.num).calibrating = true → tx.getD l none = some x → 
      Completes (.latencyCalibrationDone port tx rx) s fun t =>
        t.bt port.part .prtState 15 port.num = true ∧ t.rd port.part .prtTxlat port.num l = BitVec.ofNat 32 (latMean x) ∧
        (t.prt port.part port.num).calibrating = false ∧ (s.portState port.part port.num = 5 → t.portState port.part port.num = 6)) ∧
  (∀ (port : Port) (src : Src) (v : Word) (at_ : HT) (s : State),
      s.permits port.part src (some 3) true = true → (s.part port.part).unlocked.contains src.cls = true → s.portState port.part port.num = 6 → (s.prt port.part port.num).swap = none → (s.prt port.part port.num).calibrating = false → s.spareReady port.part port.num (fld v 2 2) = true → (if (s.rd port.part .prtSwapAtHi port.num ++ s.rd port.part .prtSwapAtLo port.num : HT) = 0 then s.ht port.part + BitVec.ofNat 64 (256000 * s.fd port.part .prtCfg 31 24 port.num)
        else s.rd port.part .prtSwapAtHi port.num ++ s.rd port.part .prtSwapAtLo port.num) = at_ → 512000 ≤ htDiff at_ (s.ht port.part) → 
      Completes (.prtSwap port src v) s fun t =>
        (t.prt port.part port.num).swap.map (fun (w : Swap) => (w.dir, w.lane, w.remote, w.trig)) = some (fld v 2 2, fld v 1 0, false, 0) ∧
        t.bt port.part .prtState 12 port.num = true ∧ (fld v 2 2 = 0 → (t.prt port.part port.num).holdTsi = true) ∧
        ((t.part port.part).flits.any fun (f : FlitOut) => f.port == port.num && f.sub == some 3) = true) ∧
  (∀ (port : Port) (src : Src) (v : Word) (w : Swap) (s : State),
      s.permits port.part src (some 3) true = true → (s.part port.part).unlocked.contains src.cls = true → (s.prt port.part port.num).swap = some w → 
      Completes (.prtSwap port src v) s fun t =>
        (t.prt port.part port.num).swap = some w) ∧
  (∀ (port : Port) (farDir : Fin 2) (ln : Fin 4) (block : Word) (b : Nat) (at_ : HT) (s : State),
      s.portState port.part port.num = 6 → (s.prt port.part port.num).swap = none → (s.prt port.part port.num).calibrating = false → s.spareReady port.part port.num (1 - farDir.val) = true → nearBlock (s.placeNow port.part port.num / placesPerBlock (s.strongFec port.part port.num)) block = b → s.blockHt port.part port.num b (s.laneLat port.part port.num (1 - farDir.val) ln) = at_ → 512000 ≤ htDiff at_ (s.ht port.part) → 
      Completes (.swapReq port farDir ln block true) s fun t =>
        (t.prt port.part port.num).swap.map (fun (w : Swap) => (w.dir, w.lane, w.block, w.at_, w.remote)) = some (1 - farDir.val, ln.val, b, at_, true) ∧
        t.bt port.part .prtState 12 port.num = true) ∧
  (∀ (port : Port) (ready : Word) (w : Swap) (m : Nat) (s : State),
      s.portState port.part port.num = 6 → (s.prt port.part port.num).swap = some w → w.dir = 1 → w.lane < 4 → s.dirMap port.part port.num 1 = m → 
      Completes (.swapSwitch port ready) s fun t =>
        mapLane (t.dirMap port.part port.num 1) w.lane = mapLane m 4 ∧ mapLane (t.dirMap port.part port.num 1) 4 = 7 ∧ (t.prt port.part port.num).swap = none ∧
        (t.prt port.part port.num).holdTsi = false ∧ t.bt port.part .prtState 12 port.num = false ∧ t.bt port.part .prtStat 7 port.num = true ∧
        (0 < s.swapLate port.part port.num w (max w.block (nearBlock w.block ready)) → t.bt port.part .prtStat 6 port.num = true ∧ t.rd port.part .prtSwlate port.num = BitVec.ofNat 32 (min (2 ^ 32 - 1) (s.swapLate port.part port.num w (max w.block (nearBlock w.block ready)))))) ∧
  (∀ (port : Port) (block : Word) (w : Swap) (m : Nat) (s : State),
      s.portState port.part port.num = 6 → (s.prt port.part port.num).swap = some w → w.dir = 0 → w.lane < 4 → s.dirMap port.part port.num 0 = m → 
      Completes (.swapAck port block true) s fun t =>
        mapLane (t.dirMap port.part port.num 0) w.lane = mapLane m 4 ∧ mapLane (t.dirMap port.part port.num 0) 4 = 7 ∧ (t.prt port.part port.num).swap = none ∧
        (t.prt port.part port.num).holdTsi = false ∧ t.bt port.part .prtState 12 port.num = false ∧ t.bt port.part .prtStat 7 port.num = true ∧
        (0 < s.swapLate port.part port.num w (nearBlock w.block block) → t.bt port.part .prtStat 6 port.num = true ∧ t.rd port.part .prtSwlate port.num = BitVec.ofNat 32 (min (2 ^ 32 - 1) (s.swapLate port.part port.num w (nearBlock w.block block))))) ∧
  (∀ (n : Fin 4) (slot : Fin 16) (ty : Byte) (tag : BitVec 16) (addr : BitVec 96) (data : List Byte) (s : State),
      s.portState .tsu n = 6 → s.fenced = false → 1 ≤ s.slotSt slot → s.slotSt slot ≤ 5 → 1 ≤ ty.toNat → ty.toNat ≤ 3 → 1 ≤ data.length → data.length ≤ 2 ^ 32 → 
      Completes (.bulkTransfer n slot ty tag addr data) s fun t =>
        (t.prt .tsu n).bulk.map (fun (b : BulkXfer) => (b.tag, b.slot, b.ty, b.addr, b.bytes)) =
          (s.prt .tsu n).bulk.map (fun (b : BulkXfer) => (b.tag, b.slot, b.ty, b.addr, b.bytes)) ++ [(tag.toNat, slot.val, ty.toNat, addr.toNat, data.length)]) ∧
  (∀ (n : Fin 4) (slot : Fin 16) (ty : Byte) (tag : BitVec 16) (addr : BitVec 96) (data : List Byte) (s : State),
      s.portState .tsu n = 6 → s.fenced = false → 1 ≤ s.slotSt slot → s.slotSt slot ≤ 5 → 1 ≤ ty.toNat → ty.toNat ≤ 3 → 1 ≤ data.length → data.length ≤ 2 ^ 32 → (s.prt .tsu n).bulk = [] → (s.tsu.sent.any fun (f : Sent) => f.onPort n && f.xfer.isSome) = false → 
      Completes (.bulkTransfer n slot ty tag addr data) s fun t =>
        (t.tsu.sent.any fun (f : Sent) => f.onPort n && f.xfer == some tag.toNat && f.frame.cls == 6 && f.frame.ty == ty.toNat && f.frame.data == data.take 4096 &&
          f.frame.fields == [addr.toNat, 0]) = true) ∧
  (∀ (n : Fin 4) (slot : Fin 16) (ty : Byte) (tag : BitVec 16) (addr : BitVec 96) (data : List Byte) (s : State),
      s.portState .tsu n = 6 → s.fenced = true → 
      Completes (.bulkTransfer n slot ty tag addr data) s fun t =>
        t.tsu.bulkSts = s.tsu.bulkSts ++ [(n.val, tag.toNat, Code.fenced)] ∧ t.tsu.sent = s.tsu.sent) ∧
  (∀ (n : Fin 4) (b : BulkXfer) (tag : BitVec 16) (s : State),
      ((s.prt .tsu n).bulk.find? fun (y : BulkXfer) => y.tag == tag.toNat && y.left == 0 && y.rest.isEmpty) = some b → 
      Completes (.bulkTransferDone n tag) s fun t =>
        t.tsu.bulkSts = s.tsu.bulkSts ++ [(n.val, tag.toNat, Code.ok)] ∧ (t.prt .tsu n).bulk = (s.prt .tsu n).bulk.erase b)

/-- The keeper core: beacons, enumeration, changes and reports -/
def Obligations.KeeperCoreBeaconsAndChanges : Prop :=
  (∀ (bht : HT) (n : Nat) (s : State),
      s.bt .tsu .kprCtrl 0 = true → s.kc.nextBcn = n → n < 2 ^ 32 → 
      Completes (.beacon bht) s fun t =>
        (t.rd .tsu .kprBcn).toNat = n ∧ t.rd .tsu .kprBhtHi ++ t.rd .tsu .kprBhtLo = bht ∧ t.kc.nextBcn = (n + 1) % 2 ^ 32 ∧
        (∀ b : Fin 4, OnBranches s allKeepers b → RingHolds t (256 + b.val) true ⟨2, allKeepers, n, bht.toNat⟩)) ∧
  (∀ (src : Src) (s : State),
      s.permits .tsu src (some 6) true = true → s.macroBad = false → s.bt .tsu .kprCtrl 0 = false → 
      Completes (.kprCtrlEn src true) s fun t =>
        t.bt .tsu .kprCtrl 0 = true ∧ t.kc.nextBcn = 0 ∧ t.kc.enumLeft = ((List.range nBranch).filter fun b => s.bt .tsu .kprCfg b) ∧
        (∀ b : Fin 4, s.bt .tsu .kprCfg b = true ∧ b.val < nBranch → RingHolds t (256 + b.val) true ⟨1, allKeepers, 0, b.val⟩)) ∧
  (∀ (src : Src) (s : State),
      s.permits .tsu src (some 6) true = true → 
      Completes (.kprCtrlEn src false) s fun t =>
        t.bt .tsu .kprCtrl 0 = false ∧ t.rd .tsu .kprNkeep = 0 ∧
        (t.kc.keepers.all fun (x : Nat × Keeper) => !x.2.running && x.2.armed.isEmpty && x.2.held.isNone) = true) ∧
  (∀ (b : Fin 4) (count : Fin 65) (h : RingHdr) (i : Nat) (s : State),
      s.kprBase b + count.val = i → i < 256 → h.addr.toNat = allKeepers → RingGood s i h ⟨1, allKeepers, count, b⟩ → 
      Completes (.enum b count h .keeper) s fun t =>
        (t.keeper i).branch = b.val ∧ (t.keeper i).pos = count.val ∧ (t.keeper i).enumerated = true ∧
        RingHolds t i false ⟨1, allKeepers, count.val + 1, b.val⟩) ∧
  (∀ (b : Fin 4) (count : Fin 65) (h : RingHdr) (rlat : Fin 65536) (s : State),
      RingGood s (256 + b.val) h ⟨1, h.addr.toNat, count, b⟩ → 
      Completes (.enum b count h (.core rlat)) s fun t =>
        t.rd .tsu .kprRing 0 b = BitVec.ofNat 32 (2 ^ 16 * rlat.val + count.val) ∧ t.fd .tsu .kprNkeep 8 0 = min 511 (t.kprBase 4)) ∧
  (∀ (src : Src) (init : Bool) (s : State),
      s.permits .tsu src (some 6) true = true → s.tsu.unlocked.contains src.cls = true → s.chgState = 0 → 3 ≤ (s.rd .tsu .kprFat - s.rd .tsu .kprBcn).toNat → (s.rd .tsu .kprFat - s.rd .tsu .kprBcn).toNat < 2 ^ 31 → 0x00333333 ≤ (s.rd .tsu .kprFinc).toNat → (s.rd .tsu .kprFinc).toNat ≤ 0x02000000 → init = false → s.kc.initialised = true → 
      Completes (.kprFcmdGo src init) s fun t =>
        t.chgState = 1 ∧ t.fd .tsu .kprFstat 23 16 = (s.fd .tsu .kprFstat 23 16 + 1) % 256 ∧ t.fd .tsu .kprFstat 8 0 = 0 ∧
        (∀ b : Fin 4, OnBranches s allKeepers b → RingHolds t (256 + b.val) true ⟨7, allKeepers, (s.rd .tsu .kprFat).toNat, (s.rd .tsu .kprFinc).toNat + 2 ^ 32 * t.fd .tsu .kprFstat 23 16 + 2 ^ 40 * b2n init⟩)) ∧
  (∀ (rx : Fin 260) (h : RingHdr) (k : Word) (chgid : Byte) (s : State),
      ForCore s rx h 10 k.toNat (2 ^ 32 * chgid.toNat) → s.chgState = 1 → s.fd .tsu .kprFstat 23 16 = chgid.toNat → 
      Completes (.fack rx h k chgid) s fun t =>
        t.fd .tsu .kprFstat 8 0 = min 511 (s.fd .tsu .kprFstat 8 0 + 1) ∧ RingTaken s t rx h 10 k.toNat (2 ^ 32 * chgid.toNat)) ∧
  (∀ (rx : Fin 260) (h : RingHdr) (k : Word) (chgid : Byte) (s : State),
      rx.val < 256 → RingGood s rx h ⟨10, h.addr.toNat, k.toNat, 2 ^ 32 * chgid.toNat⟩ → 
      Completes (.fack rx h k chgid) s fun t =>
        RingHolds t rx false ⟨10, h.addr.toNat, k.toNat, 2 ^ 32 * chgid.toNat⟩ ∧ t.kc.keepers = s.kc.keepers ∧ t.tsu.regs = s.tsu.regs) ∧
  (∀ (rx : Fin 260) (h : RingHdr) (k : Word) (chgid : Byte) (miss : Bool) (s : State),
      ForCore s rx h 11 k.toNat (2 ^ 32 * chgid.toNat + 2 ^ 40 * b2n miss) → s.chgState = 2 → s.fd .tsu .kprFstat 23 16 = chgid.toNat → 
      Completes (.fdone rx h k chgid miss) s fun t =>
        t.kc.dones = s.kc.dones + 1 ∧ t.kc.miss = (s.kc.miss || miss)) ∧
  (∀ (rx : Fin 260) (h : RingHdr) (k : Word) (chgid : Byte) (miss : Bool) (s : State),
      ¬ RingGood s rx h ⟨11, h.addr.toNat, k.toNat, 2 ^ 32 * chgid.toNat + 2 ^ 40 * b2n miss⟩ → 
      Completes (.fdone rx h k chgid miss) s fun t =>
        RingResent s t (s.ringFrom rx) ∧ (t.hop rx).expect = (s.hop rx).expect ∧ t.kc.dones = s.kc.dones ∧ t.kc.miss = s.kc.miss) ∧
  (∀ (rx : Fin 260) (h : RingHdr) (w : Fin 64) (v : Word) (s : State),
      ForCore s rx h 9 w.val v.toNat → s.kc.fetching = some (64 * h.addr.toNat + w.val) → 
      Completes (.rdata rx h w v) s fun t =>
        t.kc.ready = true ∧ t.kc.data = v ∧ t.kc.fetching = none) ∧
  (∀ (rx : Fin 260) (h : RingHdr) (out : Fin 4) (code : Fin 16) (at_ : HT) (s : State),
      ForCore s rx h 12 (out.val + 16 * code.val) at_.toNat → Code.ofNum code ≠ .ok → 
      Completes (.tevt rx h 12 out code at_) s fun t =>
        t.bt .tsu .kprStat (if Code.ofNum code = .late then 1 else 8) = true) ∧
  (∀ (src : Src) (v lo : Word) (a m : Nat) (s : State),
      s.permits .tsu src (some 6) true = true → s.staged .tsu src (addrOf .tsu .kprTatLo) (s.rd .tsu .kprTatLo) = lo → s.fd .tsu .kprTsel 12 4 = a → s.fd .tsu .kprTsel 3 0 = m → s.fenced = false → noSign (v ++ lo) (s.ht .tsu) = false → a = allKeepers ∨ a < s.fd .tsu .kprNkeep 8 0 → 
      Completes (.kprTatHi src v) s fun t =>
        (∀ b : Fin 4, OnBranches s a b → RingHolds t (256 + b.val) true ⟨5, a, m, (v ++ lo).toNat⟩)) ∧
  (∀ (src : Src) (v : Word) (a : Nat) (s : State),
      s.permits .tsu src (some 6) true = true → v.getLsbD 0 = true → s.fd .tsu .kprTsel 12 4 = a → 
      Completes (.kprTcan src v) s fun t =>
        (∀ b : Fin 4, OnBranches s a b → RingHolds t (256 + b.val) true ⟨6, a, s.fd .tsu .kprTsel 3 0, 0⟩)) ∧
  (∀ (hop : Fin 260) (s : State),
      Completes (.ringFrameResend hop) s fun t =>
        RingResent s t hop ∧
        ((s.kc.ring.any fun f => f.hop == hop.val && f.wire.isSome && f.resends == 15) = true → t.bt .tsu .kprStat 4 = true)) ∧
  (∀ (rx : Fin 260) (s : State),
      Completes (.crossingFifoOverrun rx) s fun t =>
        RingResent s t (s.ringFrom rx) ∧ (if 256 ≤ rx.val then t.bt .tsu .kprStat 3 = true
        else (t.keeper rx).stat.getLsbD 0 = true ∧ fld (t.keeper rx).xcnt 31 16 = min 65535 (fld (s.keeper rx).xcnt 31 16 + 1)))

/-- A keeper: beacon edges, words, triggers and held changes -/
def Obligations.KeepersCountFireAndAnswer : Prop :=
  (∀ (i : Fin 256) (phi : Int) (n str : Nat) (s : State),
      (s.keeper i).bcnKnown = true → ∀ x ∈ (s.keeper i).held, x.k ≠ ((s.keeper i).bcn + 1) % 2 ^ 32 → 
      Completes (.keeperBeaconEdge i phi n str) s fun t =>
        (t.keeper i).bcn = ((s.keeper i).bcn + 1) % 2 ^ 32 ∧ (t.keeper i).edgeC = wrapInt 88 ((s.keeper i).accAt n str) ∧ (t.keeper i).edgePhi = phi ∧ (t.keeper i).dFresh = false ∧
        (t.keeper i).kstrc = ((s.keeper i).kstrc + str) % 2 ^ 32 ∧
        ((s.keeper i).running = true ∧ (s.keeper i).dFresh = true →
          (t.keeper i).acc = (wrapInt 88 ((s.keeper i).accAt n str + ((s.keeper i).owed * 65536 - (s.keeper i).slices n) + (if (s.kstep : Int) < ((s.keeper i).d - (s.keeper i).x).natAbs then ((s.keeper i).d - (s.keeper i).x) * 65536 else 0))) ∧
          (t.keeper i).x = (s.keeper i).d - (s.keeper i).x ∧ (t.keeper i).owed = if (s.kstep : Int) < ((s.keeper i).d - (s.keeper i).x).natAbs then 0 else (s.keeper i).d - (s.keeper i).x)) ∧
  (∀ (i : Fin 256) (phi : Int) (n str : Nat) (x : HeldChange) (s : State),
      (s.keeper i).bcnKnown = true → (s.keeper i).held = some x → x.k = ((s.keeper i).bcn + 1) % 2 ^ 32 → x.committed = true → x.init = false → 
      Completes (.keeperBeaconEdge i phi n str) s fun t =>
        (t.keeper i).inc = x.inc ∧ (t.keeper i).held = none ∧ (t.keeper i).fswitch = some x.k ∧ RingHolds t i true ⟨11, i, x.k, 2 ^ 32 * x.chgid % 2 ^ 64⟩) ∧
  (∀ (i : Fin 256) (rx : Fin 260) (h : RingHdr) (n : Word) (bht : HT) (s : State),
      ForKeeper s i rx h 2 (n.toNat) (bht.toNat) → 
      Completes (.beaconFrame rx h n bht) s fun t =>
        (t.keeper i).bcn = n.toNat ∧ (t.keeper i).bcnKnown = true ∧ (t.keeper i).dFresh = true ∧
        (t.keeper i).d = (BitVec.ofInt 88 (((bht.toNat * 256 : Nat) + (s.keeper i).mesh.toInt + (s.keeper i).edgePhi) * 65536 - (s.keeper i).edgeC)).toInt / 65536 ∧
        RingTaken s t rx h 2 (n.toNat) (bht.toNat)) ∧
  (∀ (i : Fin 256) (rx : Fin 260) (h : RingHdr) (v : Word) (s : State),
      ForKeeper s i rx h 3 (1) (v.toNat) → 
      Completes (.keeperWrite rx h 1 v) s fun t =>
        (t.keeper i) = { (s.keeper i) with ctrl := v &&& 0x1F } ∧ RingTaken s t rx h 3 (1) (v.toNat)) ∧
  (∀ (i : Fin 256) (rx : Fin 260) (h : RingHdr) (v : Word) (s : State),
      ForKeeper s i rx h 3 (2) (v.toNat) → 
      Completes (.keeperWrite rx h 2 v) s fun t =>
        (t.keeper i) = { (s.keeper i) with mesh := v } ∧ RingTaken s t rx h 3 (2) (v.toNat)) ∧
  (∀ (rx : Fin 260) (h : RingHdr) (w : Fin 64) (v : Word) (s : State),
      rx.val < 256 → h.addr.toNat ≠ rx.val → h.addr.toNat ≠ allKeepers → RingGood s rx h ⟨3, h.addr.toNat, w, v.toNat⟩ → 
      Completes (.keeperWrite rx h w v) s fun t =>
        RingHolds t rx false ⟨3, h.addr.toNat, w, v.toNat⟩ ∧ t.kc.keepers = s.kc.keepers) ∧
  (∀ (i : Fin 256) (rx : Fin 260) (h : RingHdr) (w : Fin 64) (n str : Nat) (s : State),
      ForKeeper s i rx h 4 (w.val) (0) → 
      Completes (.keeperRead rx h w n str) s fun t =>
        RingHolds t i true ⟨9, i.val, w.val, ((s.keeper i).word i w n str).1.toNat⟩ ∧ (t.keeper i) = ((s.keeper i).word i w n str).2 ∧ RingTaken s t rx h 4 (w.val) (0)) ∧
  (∀ (i : Fin 256) (rx : Fin 260) (h : RingHdr) (out : Fin 4) (mask : Fin 16) (target : HT) (n str : Nat) (l : List (HT × Bool)) (s : State),
      ForKeeper s i rx h 5 (mask.val) (target.toNat) → mask.val = 2 ^ out.val → (s.keeper i).ctrl.getLsbD out = true → mget (fun _ => []) (s.keeper i).armed out.val = l → l.length < 4 → (l.all fun (x : HT × Bool) => decide (2 * (s.keeper i).inc ≤ (htDiff target x.1).natAbs * 65536)) = true → 
      Completes (.tarm rx h mask target n str) s fun t =>
        mget (fun _ => []) (t.keeper i).armed out.val = insertTarget (target, atOrAfter ((s.keeper i).lhtAt n str) target) l ∧ RingTaken s t rx h 5 (mask.val) (target.toNat)) ∧
  (∀ (i : Fin 256) (rx : Fin 260) (h : RingHdr) (out : Fin 4) (mask : Fin 16) (s : State),
      ForKeeper s i rx h 6 (mask.val) (0) → mask.val.testBit out = true → 
      Completes (.tcan rx h mask) s fun t =>
        mget (fun _ => []) (t.keeper i).armed out.val = [] ∧ RingTaken s t rx h 6 (mask.val) (0)) ∧
  (∀ (i : Fin 256) (out : Fin 4) (n str : Nat) (g : HT) (late : Bool) (rest : List (HT × Bool)) (s : State),
      mget (fun _ => []) (s.keeper i).armed out.val = (g, late) :: rest → atOrAfter ((s.keeper i).lhtAt n str) g = true → 
      Completes (.keeperTriggerFire i out n str) s fun t =>
        mget (fun _ => []) (t.keeper i).armed out.val = rest ∧
        mget (fun _ => (0, 0)) (t.keeper i).last out.val = ((s.keeper i).lhtAt n str, satNat 32 (htDiff ((s.keeper i).lhtAt n str) g).toNat) ∧
        mget (fun _ => none) (t.keeper i).ktrg out.val = some ((s.keeper i).lhtAt n str, !(s.keeper i).ctrl.getLsbD 4)) ∧
  (∀ (i : Fin 256) (rx : Fin 260) (h : RingHdr) (k inc : Word) (chgid : Byte) (init : Bool) (s : State),
      ForKeeper s i rx h 7 (k.toNat) (inc.toNat + 2 ^ 32 * chgid.toNat + 2 ^ 40 * b2n init) → 1 ≤ (k - BitVec.ofNat 32 (s.keeper i).bcn).toInt → 
      Completes (.fprep rx h k inc chgid init) s fun t =>
        (t.keeper i).held = some ⟨k.toNat, inc.toNat, chgid.toNat, init, false⟩ ∧
        RingHolds t i true ⟨10, i.val, k.toNat, 2 ^ 32 * chgid.toNat⟩) ∧
  (∀ (i : Fin 256) (rx : Fin 260) (h : RingHdr) (k : Word) (chgid : Byte) (cancel : Bool) (x : HeldChange) (s : State),
      ForKeeper s i rx h 8 (k.toNat) (2 ^ 32 * chgid.toNat + 2 ^ 41 * b2n cancel) → (s.keeper i).held = some x → x.chgid = chgid.toNat → 
      Completes (.fcommit rx h k chgid cancel) s fun t =>
        (t.keeper i).held = if cancel then none else some { x with committed := true })

/-- Signals arrive, are accepted, and change the object -/
def Obligations.SignalsChangeObjects : Prop :=
  (∀ (e : EngSel) (src : Src) (v lo : Word) (i : Nat) (s : State),
      s.permits e.part src (some 8) true = true → s.staged e.part src (addrOf e.part .sobSigLo e.tileNo) (s.rd e.part .sobSigLo e.tileNo) = lo → s.fd e.part .sobSigIdx 12 0 e.tileNo = i → (s.eng e).signals = [] → s.signalCode e { src := 3, idx := i, word := v ++ lo, jctx := src.jctx } = .ok → 
      Completes (.sobSigHi e src v) s fun t =>
        (t.obj e i).word = (signalWord (s.obj e i).word (oValue (v ++ lo))).1 ∧ (t.obj e i).stamp = stampOf (s.ht e.part)) ∧
  (∀ (handle : BitVec 16) (gen : Byte) (epoch : Word) (entries : List (BitVec 16 × DWord)) (c : Nat) (s : State),
      s.slotOfHandle handle.toNat = some c → s.slotMatches c gen.toNat epoch.toNat = true → 
      Completes (.sigFrame handle gen epoch entries) s fun t =>
        (t.eng .tsu).signals = (s.eng .tsu).signals ++ (entries.take 9).map fun (x : BitVec 16 × DWord) =>
          { src := 1, idx := x.1.toNat, jctx := 0x20, partly := decide (x.2 >>> 48 ≠ 0),
            word := if x.2 >>> 48 ≠ 0 then x.2 else BitVec.ofNat 64 (2 ^ 56 * c + 2 ^ 48 * gen.toNat) ||| x.2 }) ∧
  (∀ (lanes : List Lane) (s : State),
      Completes (.fabricSignalWrite (.write lanes)) s fun t =>
        (t.eng .tsu).signals = (s.eng .tsu).signals ++ ((lanes.take 4).foldr insertLane []).map fun (l : Lane) =>
          { src := 2, idx := l.idx.val, word := l.word, jctx := 0x3F, partly := !l.full }) ∧
  (∀ (off : Fin 65536) (s : State),
      Completes (.fabricSignalWrite (.read off)) s fun t =>
        t = { s with fabricRd := s.fabricRd ++ [0] }) ∧
  (∀ (e : EngSel) (g : Signal) (gs : List Signal) (s : State),
      (s.eng e).signals = g :: gs → 
      Completes (.signalAccept e) s fun t =>
        (t.eng e).signals = gs ∧
        (s.signalCode e g = .ok → (t.obj e g.idx).word = (signalWord (s.obj e g.idx).word (oValue g.word)).1 ∧
          (t.obj e g.idx).stamp = stampOf (s.ht e.part) ∧ (t.eng e).evals = (s.eng e).evals ++ [g.idx]) ∧
        (s.signalCode e g ≠ .ok → t.bt e.part .sobStat 0 e.inst = true ∧ (t.eng e).objs = (s.eng e).objs)) ∧
  (∀ (e : EngSel) (i : Fin 8192) (s : State),
      oMode (s.obj e i).word = 5 → oArmed (s.obj e i).word = true → 
      Completes (.timerSatisfied e i) s fun t =>
        (t.obj e i).word = setDw (s.obj e i).word 51 51 0 ∧ (t.obj e i).stamp = stampOf (t.ht e.part)) ∧
  (∀ (e : EngSel) (src : Src) (obj : Fin 8192) (s : State),
      src.cls ≠ .engine → s.permits e.part src (some 8) false = true → 
      Completes (.objectWindowRead e src obj 0) s fun t =>
        mget (fun _ => (0, 0)) (t.part e.part).resp src.cls.num = (0, (s.obj e obj).word.truncate 32) ∧
        mget (fun _ => ((0 : DWord), 0)) (t.eng e).latch src.cls.num = ((s.obj e obj).word, (s.obj e obj).stamp)) ∧
  (∀ (e : EngSel) (src : Src) (obj : Fin 8192) (v lo : Word) (img : DWord) (s : State),
      s.permits e.part src (some 8) true = true → mget (fun _ => none) (s.eng e).low src.cls.num = some lo → v ++ lo = img → oMode (s.obj e obj).word = 0 → oDirty (s.obj e obj).word = false → oMode img = 1 → badLayout img = false → s.ownerDraining e (oOwner img) = false → (s.eng e).resetRange = none → s.wiping e.part = false → 
      Completes (.objectWindowWrite e src obj v) s fun t =>
        (t.obj e obj).word = setDw (setDw (setDw img 59 56 (oOwner img)) 52 52 0) 51 51 0 ∧ (t.obj e obj).claim = (t.obj e obj).word) ∧
  (∀ (e : EngSel) (src : Src) (v : Word) (s : State),
      s.permits e.part src (some 8) true = true → fld v 12 0 ≤ fld v 28 16 → (s.eng e).resetRange = none → s.wiping e.part = false → 
      Completes (.sobReset e src v (~~~v)) s fun t =>
        (t.eng e).resetRange = some (fld v 12 0, fld v 28 16) ∧ t.bt e.part .sobStatus 31 e.inst = true) ∧
  (∀ (n : Fin 8) (a b i : Nat) (s : State),
      (s.eng (.tile n)).resetRange = some (a, b) → a ≤ i → i ≤ b → 
      Completes (.sobResetDone (.tile n)) s fun t =>
        t.obj (.tile n) i = {} ∧ (t.eng (.tile n)).resetRange = none ∧ t.bt .dist .sobStatus 31 n = false)

/-- Wicks: bind, unbind, rise, acknowledge, hold and pre-light -/
def Obligations.WicksBindRiseAndFall : Prop :=
  (∀ (e : EngSel) (i : Nat) (rest : List Nat) (s : State),
      (s.eng e).evals = i :: rest → 
      Completes (.conditionEvaluation e) s fun t =>
        (t.eng e).evals = rest) ∧
  (∀ (n : Fin 256) (w : Wick) (rest : List Nat) (s : State),
      (s.eng .tsu).evals = w.obj :: rest → s.wick n = w → w.state = 1 → oMode (s.obj .tsu w.obj).word = 1 → oDirty (s.obj .tsu w.obj).word = false → w.thr ≤ bits (s.obj .tsu w.obj).word.toNat 31 0 → ∀ m : Fin 256, m.val < n.val → (s.wick m).obj = w.obj → (s.wick m).consume = false → 
      Completes (.conditionEvaluation .tsu) s fun t =>
        (t.wick n).state = 2) ∧
  (∀ (n : Fin 256) (src : Src) (v : Word) (thr i : Nat) (s : State),
      s.permits .tsu src (some 8) true = true → (s.rd .tsu .wkThrLo n).toNat + 2 ^ 32 * s.fd .tsu .wkThrHi 15 0 n = thr → fld v 12 0 = i → s.bindCode n (fld v 31 28) i thr (v.getLsbD 14) false false = .ok → condMet (s.obj .tsu i).word thr (s.ht .tsu) = false → 
      Completes (.wickBind n src v) s fun t =>
        (t.wick n).state = 1 ∧ (t.wick n).slot = fld v 31 28 ∧ (t.wick n).obj = i ∧ (t.wick n).thr = thr) ∧
  (∀ (n : Fin 256) (src : Src) (v : Word) (s : State),
      s.permits .tsu src (some 8) true = true → s.bindCode n (fld v 31 28) 0 0 false true false = .ok → 
      Completes (.wickUnbind n src v) s fun t =>
        (t.wick n).state = 0) ∧
  (∀ (n : Fin 256) (s : State),
      s.fenced = false → s.clockRuns .tsu = true → (s.wick n).state = 2 → (s.wick n).ackHeld = false → s.fd .tsu .sobCfg 7 0 = 0 → 
      Completes (.wickAssert) s fun t =>
        (t.wick n).state = 3 ∧ (t.wick n).last = bits (s.ht .tsu).toNat 39 8) ∧
  (∀ (n : Fin 256) (held : Bool) (w : Wick) (s : State),
      s.fenced = false → s.clockRuns .tsu = true → s.wick n = w → w.state = 3 → condMet (s.obj .tsu w.obj).word w.thr (s.ht .tsu) = false → 
      Completes (.wickAck n held) s fun t =>
        (t.wick n).state = (if w.prelit then 4 else if w.oneshot then 0 else 1) ∧ (t.wick n).ackHeld = held ∧ (t.wick n).litAt = s.ht .tsu) ∧
  (∀ (n : Fin 256) (held : Bool) (s : State),
      s.fenced = false → s.clockRuns .tsu = true → (s.wick n).state ≠ 3 → held = true ∨ (s.wick n).ackHeld = false → 
      Completes (.wickAck n held) s fun t =>
        t.bt .tsu .sobStat 7 = true ∧ (t.wick n).state = (s.wick n).state) ∧
  (∀ (n : Fin 256) (held : Bool) (s : State),
      s.fenced = true ∨ s.clockRuns .tsu = false → 
      Completes (.wickAck n held) s fun t =>
        t = s) ∧
  (∀ (n : Fin 256) (s : State),
      s.fenced = false → (s.wick n).state = 4 → oMode (s.obj .tsu (s.wick n).obj).word ≠ 5 → condMet (s.obj .tsu (s.wick n).obj).word (s.wick n).thr (s.ht .tsu) = false → 
      Completes (.plHoldExpiry n) s fun t =>
        (t.wick n).state = 1 ∧ (t.wick n).prelit = false ∧ t.bt .tsu .sobStat 5 = true) ∧
  (∀ (slot : Fin 16) (n : Fin 256) (pl : Prelit) (g : Nat) (h : HT) (rest : List (HT × Nat)) (s : State),
      mwf (fun _ => ({} : Wick)) s.wicks = true → (mget (fun _ => ({} : Slot)) s.slots slot.val).prelits.getLast? = some pl → pl.stages = (h, g) :: rest → (s.wick n).state = 1 → (s.wick n).slot = slot.val → (s.wick n).plgrp = g → s.fenced = false → atOrAfter (s.ht .tsu) h = true → 
      Completes (.prelightStage slot) s fun t =>
        (t.wick n).state = 2 ∧ (t.wick n).prelit = true ∧ (t.wick n).plId = pl.id ∧ (t.wick n).plAt = pl.at_) ∧
  (∀ (slot : Fin 16) (s : State),
      s.slotSt slot = 6 → (mget (fun _ => ({} : Slot)) s.slots slot.val).balanced = false → mwf (fun _ => ({} : Wick)) s.wicks = true → 
      Completes (.balanceCheckDone slot) s fun t =>
        (mget (fun _ => ({} : Slot)) t.slots slot.val).balanced = true ∧ ∀ n : Fin 256, (t.wick n).state = 0 ∨ (t.wick n).slot ≠ slot.val)

/-- The engine: clock, scrubber and context commands -/
def Obligations.EnginesStartStopAndScrub : Prop :=
  (∀ (e : EngSel) (src : Src) (s : State),
      s.permits e.part src (some 7) true = true → 
      Completes (.senCtrlEn e src true) s fun t =>
        t.bt e.part .senCtrl 0 e.inst = true) ∧
  (∀ (e : EngSel) (src : Src) (s : State),
      s.permits e.part src (some 7) true = true → ∀ c : Fin 16, s.ctxActive e c = false → 
      Completes (.senCtrlEn e src false) s fun t =>
        t.bt e.part .senCtrl 0 e.inst = false ∧ t.bt e.part .senStatus 1 e.inst = false) ∧
  (∀ (e : EngSel) (s : State),
      s.bt e.part .senCtrl 0 e.inst = true → 
      Completes (.pllLock e) s fun t =>
        t.bt e.part .senStatus 1 e.inst = true) ∧
  (∀ (e : EngSel) (k : Nat) (s : State),
      s.fd e.part .senCfg 15 8 e.inst ≠ 0 → s.wiping e.part = false → (s.eng e).scrub = k → k < imemWords e → 
      Completes (.scrubRead e []) s fun t =>
        (t.eng e).scrub = k + 1 ∧
        ((s.eng e).badI.contains k = true → t.fd e.part .senEccCnt 31 16 e.inst = min 65535 (s.fd e.part .senEccCnt 31 16 e.inst + 1) ∧ t.bt e.part .senStat 2 e.inst = true)) ∧
  (∀ (e : EngSel) (k : Nat) (s : State),
      s.fd e.part .senCfg 15 8 e.inst ≠ 0 → s.wiping e.part = false → (s.eng e).scrub = k → k < imemWords e → (s.eng e).oneI.filter (· == k) = [k] → 
      Completes (.scrubRead e []) s fun t =>
        t.fd e.part .senEccCnt 15 0 e.inst = min 65535 (s.fd e.part .senEccCnt 15 0 e.inst + 1) ∧ t.bt e.part .senStat 1 e.inst = true ∧
        (t.eng e).oneI.contains k = false) ∧
  (∀ (e : EngSel) (k : Nat) (s : State),
      s.fd e.part .senCfg 15 8 e.inst ≠ 0 → s.wiping e.part = false → (s.eng e).scrub = k → k < imemWords e → 
      Completes (.scrubRead e [⟨true, k, true⟩]) s fun t =>
        (t.eng e).badI.contains k = true ∧ t.bt e.part .senStat 2 e.inst = true) ∧
  (∀ (e : EngSel) (c : Fin 16) (src : Src) (s : State),
      s.permits e.part src (some 7) true = true → s.cst e c = 0 → s.startRange e c = false → s.pllReady e = true → 
      Completes (.ctxStart e c src) s fun t =>
        t.cst e c = 1 ∧ t.pc e c = s.pc e c) ∧
  (∀ (e : EngSel) (c : Fin 16) (src : Src) (s : State),
      s.permits e.part src (some 7) true = true → s.cst e c = 1 → 
      Completes (.ctxStop e c src) s fun t =>
        t.cst e c = 3 ∧ t.pc e c = s.pc e c ∧ (t.ctx e c).fx = (s.ctx e c).fx) ∧
  (∀ (e : EngSel) (c : Fin 16) (src : Src) (s : State),
      s.permits e.part src (some 7) true = true → s.cst e c = 2 → (s.ctx e c).fx = [] → 
      Completes (.ctxStop e c src) s fun t =>
        t.cst e c = 0 ∧ t.pc e c = s.pc e c ∧ (t.ctx e c).wait = none) ∧
  (∀ (e : EngSel) (c : Fin 16) (src : Src) (s : State),
      s.permits e.part src (some 7) true = true → s.cst e c = 4 → 
      Completes (.ctxClear e c src) s fun t =>
        t.rd e.part .ctxState (ctxInst e c) = 0) ∧
  (∀ (e : EngSel) (c : Fin 16) (src : Src) (s : State),
      s.permits e.part src (some 7) true = true → s.cst e c = 0 → s.startRange e c = false → s.pllReady e = true → 
      Completes (.ctxStep e c src) s fun t =>
        t.cst e c = 1 ∧ (t.ctx e c).stepping = true) ∧
  (∀ (e : EngSel) (c : Fin 16) (s : State),
      s.cst e c = 3 → (s.ctx e c).fxPc < 65536 → 
      Completes (.stopComplete e c) s fun t =>
        t.cst e c = 0 ∧ t.pc e c = (if (s.ctx e c).fx = [] then s.pc e c else (s.ctx e c).fxPc) ∧ (t.ctx e c).fx = [])

/-- Windows of the engine and the completion of an operation -/
def Obligations.EngineWindowsAndCompletions : Prop :=
  (∀ (e : EngSel) (src : Src) (word : BitVec 18) (v : Word) (s : State),
      s.permits e.part src (some 7) true = true → word.toNat < imemWords e → s.wiping e.part = false → ∀ c : Fin 16, s.ctxActive e c = false → 
      Completes (.imemWindowWrite e src word v) s fun t =>
        mget (fun _ => 0) (t.eng e).imem word.toNat = v ∧ (t.eng e).badI.contains word.toNat = false) ∧
  (∀ (e : EngSel) (src : Src) (word : BitVec 18) (v : Word) (s : State),
      s.permits e.part src (some 7) true = true → 4 * word.toNat < dmemBytes e → s.wiping e.part = false → s.badDmem e (4 * word.toNat) 4 = false → 
      Completes (.dmemWindowWrite e src word v) s fun t =>
        t.dmemRead e (4 * word.toNat) 4 = v.toNat) ∧
  (∀ (e : EngSel) (src : Src) (c : Fin 16) (r : Fin 32) (v lo : Word) (word : BitVec 11) (a : Nat) (s : State),
      s.permits e.part src (some 7) true = true → word.toNat = 128 * c.val + 2 * r.val + 1 → winBase e.tileNo + 0x200000 + 4 * (128 * c.val + 2 * r.val) = a → mget (fun _ => none) (s.part e.part).stage (clsKey src a) = some lo → s.ctxActive e c = false → 
      Completes (.contextRegisterWindowWrite e src word v) s fun t =>
        t.g e c r = gAfter r (v ++ lo)) ∧
  (∀ (e : EngSel) (d : Deferred) (o : Op) (s : State),
      s.todo.find? (fun d => d.op.eng == e) = some d → s.op d.op = some o → o.result = none → (s.outstandingAll e).all (fun (y : OpRef × Op) => y.2.opcode ≠ 0x3D) = true → 
      Completes (.asyncCompletion e) s fun t =>
        t.todo = s.todo.erase d ∧ ((t.op d.op).bind fun (p : Op) => p.result.map fun (r : CompRec) => (r.code, r.value, r.late)) = some (d.code, d.value, satNat 32 d.late) ∧
        ((t.eng e).signals.any fun (g : Signal) => g.src == 0 && g.idx == o.obj) = true)

/-- Integer register instructions write gd and nothing else. Choices of the model: an instruction command is its issue, log entry 14 -/
def Obligations.IntegerRegisterInstructions : Prop :=
  (∀ (x : CtxRef) (d a b : Fin 32) (s : State),
      CanIssue s x 0 → 
      Completes (.add x d a b) s fun t =>
        WritesG x d (s.g x.eng x.ctx a + s.g x.eng x.ctx b) s t) ∧
  (∀ (x : CtxRef) (d a b : Fin 32) (s : State),
      CanIssue s x 0 → 
      Completes (.sub x d a b) s fun t =>
        WritesG x d (s.g x.eng x.ctx a - s.g x.eng x.ctx b) s t) ∧
  (∀ (x : CtxRef) (d a b : Fin 32) (s : State),
      CanIssue s x 0 → 
      Completes (.and x d a b) s fun t =>
        WritesG x d (s.g x.eng x.ctx a &&& s.g x.eng x.ctx b) s t) ∧
  (∀ (x : CtxRef) (d a b : Fin 32) (s : State),
      CanIssue s x 0 → 
      Completes (.or x d a b) s fun t =>
        WritesG x d (s.g x.eng x.ctx a ||| s.g x.eng x.ctx b) s t) ∧
  (∀ (x : CtxRef) (d a b : Fin 32) (s : State),
      CanIssue s x 0 → 
      Completes (.xor x d a b) s fun t =>
        WritesG x d (s.g x.eng x.ctx a ^^^ s.g x.eng x.ctx b) s t) ∧
  (∀ (x : CtxRef) (d a b : Fin 32) (s : State),
      CanIssue s x 0 → 
      Completes (.shl x d a b) s fun t =>
        WritesG x d (s.g x.eng x.ctx a <<< ((s.g x.eng x.ctx b).toNat % 64)) s t) ∧
  (∀ (x : CtxRef) (d a b : Fin 32) (s : State),
      CanIssue s x 0 → 
      Completes (.shr x d a b) s fun t =>
        WritesG x d (s.g x.eng x.ctx a >>> ((s.g x.eng x.ctx b).toNat % 64)) s t) ∧
  (∀ (x : CtxRef) (d a b : Fin 32) (s : State),
      CanIssue s x 0 → 
      Completes (.sar x d a b) s fun t =>
        WritesG x d ((s.g x.eng x.ctx a).sshiftRight ((s.g x.eng x.ctx b).toNat % 64)) s t) ∧
  (∀ (x : CtxRef) (d a b : Fin 32) (s : State),
      CanIssue s x 0 → 
      Completes (.min x d a b) s fun t =>
        WritesG x d (if (s.g x.eng x.ctx a).toInt < (s.g x.eng x.ctx b).toInt then s.g x.eng x.ctx a else s.g x.eng x.ctx b) s t) ∧
  (∀ (x : CtxRef) (d a b : Fin 32) (s : State),
      CanIssue s x 0 → 
      Completes (.max x d a b) s fun t =>
        WritesG x d (if (s.g x.eng x.ctx a).toInt < (s.g x.eng x.ctx b).toInt then s.g x.eng x.ctx b else s.g x.eng x.ctx a) s t) ∧
  (∀ (x : CtxRef) (d a b : Fin 32) (s : State),
      CanIssue s x 0 → 
      Completes (.mul x d a b) s fun t =>
        WritesG x d (s.g x.eng x.ctx a * s.g x.eng x.ctx b) s t) ∧
  (∀ (x : CtxRef) (d a b : Fin 32) (s : State),
      CanIssue s x 0 → 
      Completes (.mulh x d a b) s fun t =>
        WritesG x d (BitVec.ofInt 64 ((s.g x.eng x.ctx a).toInt * (s.g x.eng x.ctx b).toInt / 2 ^ 64)) s t) ∧
  (∀ (x : CtxRef) (d a : Fin 32) (s : State),
      CanIssue s x 0 → 
      Completes (.mov x d a) s fun t =>
        WritesG x d (s.g x.eng x.ctx a) s t)

/-- Integer comparisons write a predicate and nothing else. Choices of the model: an instruction command is its issue, log entry 14 -/
def Obligations.IntegerComparisons : Prop :=
  (∀ (x : CtxRef) (d : Fin 8) (a b : Fin 32) (s : State),
      CanIssue s x 0 → 
      Completes (.cmpeq x d a b) s fun t =>
        WritesP x d (decide (s.g x.eng x.ctx a = s.g x.eng x.ctx b)) s t) ∧
  (∀ (x : CtxRef) (d : Fin 8) (a b : Fin 32) (s : State),
      CanIssue s x 0 → 
      Completes (.cmplt x d a b) s fun t =>
        WritesP x d (decide ((s.g x.eng x.ctx a).toInt < (s.g x.eng x.ctx b).toInt)) s t) ∧
  (∀ (x : CtxRef) (d : Fin 8) (a b : Fin 32) (s : State),
      CanIssue s x 0 → 
      Completes (.cmpltu x d a b) s fun t =>
        WritesP x d (decide ((s.g x.eng x.ctx a).toNat < (s.g x.eng x.ctx b).toNat)) s t)

/-- Immediates with up to two prefixes, and the prefix itself. Choices of the model: an instruction command is its issue, log entry 14 -/
def Obligations.ImmediateInstructionsAndPrefixes : Prop :=
  (∀ (x : CtxRef) (d a : Fin 32) (imm : BitVec 16) (s : State),
      CanIssue s x 2 → 
      Completes (.addi x d a imm) s fun t =>
        WritesG x d (s.g x.eng x.ctx a + BitVec.ofInt 64 (s.immS x.eng x.ctx 16 imm.toNat)) s t) ∧
  (∀ (x : CtxRef) (d a : Fin 32) (imm : BitVec 16) (s : State),
      CanIssue s x 2 → 
      Completes (.andi x d a imm) s fun t =>
        WritesG x d (s.g x.eng x.ctx a &&& BitVec.ofNat 64 (s.immU x.eng x.ctx 16 imm.toNat)) s t) ∧
  (∀ (x : CtxRef) (d a : Fin 32) (imm : BitVec 16) (s : State),
      CanIssue s x 2 → 
      Completes (.ori x d a imm) s fun t =>
        WritesG x d (s.g x.eng x.ctx a ||| BitVec.ofNat 64 (s.immU x.eng x.ctx 16 imm.toNat)) s t) ∧
  (∀ (x : CtxRef) (d a : Fin 32) (imm : BitVec 16) (s : State),
      CanIssue s x 2 → 
      Completes (.xori x d a imm) s fun t =>
        WritesG x d (s.g x.eng x.ctx a ^^^ BitVec.ofNat 64 (s.immU x.eng x.ctx 16 imm.toNat)) s t) ∧
  (∀ (x : CtxRef) (d : Fin 32) (imm : BitVec 16) (s : State),
      CanIssue s x 2 → 
      Completes (.lui x d imm) s fun t =>
        WritesG x d (BitVec.ofInt 64 ((s.immS x.eng x.ctx 16 imm.toNat) * 65536)) s t) ∧
  (∀ (x : CtxRef) (imm : BitVec 26) (s : State),
      CanIssue s x (s.ctx x.eng x.ctx).fx.length → 
      Completes (.fx x imm) s fun t =>
        OnlyContext x s t ∧ t.pc x.eng x.ctx = pcAt (nextPc x s) ∧ t.cst x.eng x.ctx = 1 ∧ KeepsOps x s t ∧ KeepsTP x s t ∧ KeepsDmem x s t ∧
        (∀ r, t.g x.eng x.ctx r = s.g x.eng x.ctx r) ∧ (t.ctx x.eng x.ctx).fx = (s.ctx x.eng x.ctx).fx ++ [imm.toNat])

/-- FP64 instructions write gd and nothing else. Choices of the model: an instruction command is its issue, log entry 14 -/
def Obligations.FloatingPointInstructions : Prop :=
  (∀ (x : CtxRef) (md : Rnd) (d a b : Fin 32) (s : State),
      CanIssue s x 0 → 
      Completes (.fadd x md d a b) s fun t =>
        WritesG x d (fAdd md (s.g x.eng x.ctx a) (s.g x.eng x.ctx b)) s t) ∧
  (∀ (x : CtxRef) (md : Rnd) (d a b : Fin 32) (s : State),
      CanIssue s x 0 → 
      Completes (.fsub x md d a b) s fun t =>
        WritesG x d (fSub md (s.g x.eng x.ctx a) (s.g x.eng x.ctx b)) s t) ∧
  (∀ (x : CtxRef) (md : Rnd) (d a b : Fin 32) (s : State),
      CanIssue s x 0 → 
      Completes (.fmul x md d a b) s fun t =>
        WritesG x d (fMul md (s.g x.eng x.ctx a) (s.g x.eng x.ctx b)) s t) ∧
  (∀ (x : CtxRef) (md : Rnd) (d a b : Fin 32) (s : State),
      CanIssue s x 0 → DivideFree s x → 
      Completes (.fdiv x md d a b) s fun t =>
        WritesG x d (fDiv md (s.g x.eng x.ctx a) (s.g x.eng x.ctx b)) s t) ∧
  (∀ (x : CtxRef) (md : Rnd) (d a : Fin 32) (s : State),
      CanIssue s x 0 → DivideFree s x → 
      Completes (.fsqrt x md d a) s fun t =>
        WritesG x d (fSqrt md (s.g x.eng x.ctx a)) s t) ∧
  (∀ (x : CtxRef) (d a b : Fin 32) (s : State),
      CanIssue s x 0 → 
      Completes (.fmin x d a b) s fun t =>
        WritesG x d (fMin (s.g x.eng x.ctx a) (s.g x.eng x.ctx b)) s t) ∧
  (∀ (x : CtxRef) (d a b : Fin 32) (s : State),
      CanIssue s x 0 → 
      Completes (.fmax x d a b) s fun t =>
        WritesG x d (fMax (s.g x.eng x.ctx a) (s.g x.eng x.ctx b)) s t) ∧
  (∀ (x : CtxRef) (md : Rnd) (d a b : Fin 32) (s : State),
      CanIssue s x 0 → 
      Completes (.ffma x md d a b) s fun t =>
        WritesG x d (fFma md (s.g x.eng x.ctx a) (s.g x.eng x.ctx b) (s.g x.eng x.ctx d)) s t) ∧
  (∀ (x : CtxRef) (md : Rnd) (d a : Fin 32) (s : State),
      CanIssue s x 0 → 
      Completes (.fcvtF2i x md d a) s fun t =>
        WritesG x d (fF2I md (s.g x.eng x.ctx a)) s t) ∧
  (∀ (x : CtxRef) (md : Rnd) (d a : Fin 32) (s : State),
      CanIssue s x 0 → 
      Completes (.fcvtF2u x md d a) s fun t =>
        WritesG x d (fF2U md (s.g x.eng x.ctx a)) s t) ∧
  (∀ (x : CtxRef) (md : Rnd) (d a : Fin 32) (s : State),
      CanIssue s x 0 → 
      Completes (.fcvtI2f x md d a) s fun t =>
        WritesG x d (fI2F md (s.g x.eng x.ctx a)) s t) ∧
  (∀ (x : CtxRef) (md : Rnd) (d a : Fin 32) (s : State),
      CanIssue s x 0 → 
      Completes (.fcvtU2f x md d a) s fun t =>
        WritesG x d (fU2F md (s.g x.eng x.ctx a)) s t) ∧
  (∀ (x : CtxRef) (md : Rnd) (d a : Fin 32) (s : State),
      CanIssue s x 0 → 
      Completes (.fcvtRi x md d a) s fun t =>
        WritesG x d (fRI md (s.g x.eng x.ctx a)) s t)

/-- FP64 comparisons write a predicate and nothing else. Choices of the model: an instruction command is its issue, log entry 14 -/
def Obligations.FloatingPointComparisons : Prop :=
  (∀ (x : CtxRef) (d : Fin 8) (a b : Fin 32) (s : State),
      CanIssue s x 0 → 
      Completes (.fcmpEq x d a b) s fun t =>
        WritesP x d (!isNan (s.g x.eng x.ctx a) && !isNan (s.g x.eng x.ctx b) && decide (fCmp (fval (s.g x.eng x.ctx a)) (fval (s.g x.eng x.ctx b)) = 0)) s t) ∧
  (∀ (x : CtxRef) (d : Fin 8) (a b : Fin 32) (s : State),
      CanIssue s x 0 → 
      Completes (.fcmpLt x d a b) s fun t =>
        WritesP x d (!isNan (s.g x.eng x.ctx a) && !isNan (s.g x.eng x.ctx b) && decide (fCmp (fval (s.g x.eng x.ctx a)) (fval (s.g x.eng x.ctx b)) < 0)) s t) ∧
  (∀ (x : CtxRef) (d : Fin 8) (a b : Fin 32) (s : State),
      CanIssue s x 0 → 
      Completes (.fcmpLe x d a b) s fun t =>
        WritesP x d (!isNan (s.g x.eng x.ctx a) && !isNan (s.g x.eng x.ctx b) && decide (fCmp (fval (s.g x.eng x.ctx a)) (fval (s.g x.eng x.ctx b)) ≤ 0)) s t) ∧
  (∀ (x : CtxRef) (d : Fin 8) (a b : Fin 32) (s : State),
      CanIssue s x 0 → 
      Completes (.fcmpUn x d a b) s fun t =>
        WritesP x d (isNan (s.g x.eng x.ctx a) || isNan (s.g x.eng x.ctx b)) s t)

/-- Branches, CALL, RET and HALT. Choices of the model: an instruction command is its issue, log entry 14 -/
def Obligations.ControlFlowInstructions : Prop :=
  (∀ (x : CtxRef) (off : BitVec 16) (n : Int) (s : State),
      CanIssue s x 2 → (s.pc x.eng x.ctx : Int) + s.immS x.eng x.ctx 16 off.toNat = n → 0 ≤ n → n < s.iwinSize x.eng x.ctx → 
      Completes (.br x none off) s fun t =>
        Jumps x n.toNat s t) ∧
  (∀ (x : CtxRef) (p : Fin 8) (inv : Bool) (off : BitVec 16) (n : Int) (s : State),
      CanIssue s x 2 → (s.pc x.eng x.ctx : Int) + s.immS x.eng x.ctx 16 off.toNat = n → s.pr x.eng x.ctx p ≠ inv → 0 ≤ n ∧ n < s.iwinSize x.eng x.ctx → 
      Completes (.br x (some (p, inv)) off) s fun t =>
        Jumps x (if s.pr x.eng x.ctx p ≠ inv then n.toNat else nextPc x s) s t) ∧
  (∀ (x : CtxRef) (a b : Fin 32) (off : BitVec 16) (n : Int) (s : State),
      CanIssue s x 2 → (s.pc x.eng x.ctx : Int) + s.immS x.eng x.ctx 16 off.toNat = n → s.g x.eng x.ctx a = s.g x.eng x.ctx b → 0 ≤ n ∧ n < s.iwinSize x.eng x.ctx → 
      Completes (.beq x a b off) s fun t =>
        Jumps x (if s.g x.eng x.ctx a = s.g x.eng x.ctx b then n.toNat else nextPc x s) s t) ∧
  (∀ (x : CtxRef) (a b : Fin 32) (off : BitVec 16) (n : Int) (s : State),
      CanIssue s x 2 → (s.pc x.eng x.ctx : Int) + s.immS x.eng x.ctx 16 off.toNat = n → s.g x.eng x.ctx a ≠ s.g x.eng x.ctx b → 0 ≤ n ∧ n < s.iwinSize x.eng x.ctx → 
      Completes (.bne x a b off) s fun t =>
        Jumps x (if s.g x.eng x.ctx a ≠ s.g x.eng x.ctx b then n.toNat else nextPc x s) s t) ∧
  (∀ (x : CtxRef) (a b : Fin 32) (off : BitVec 16) (n : Int) (s : State),
      CanIssue s x 2 → (s.pc x.eng x.ctx : Int) + s.immS x.eng x.ctx 16 off.toNat = n → (s.g x.eng x.ctx a).toInt < (s.g x.eng x.ctx b).toInt → 0 ≤ n ∧ n < s.iwinSize x.eng x.ctx → 
      Completes (.blt x a b off) s fun t =>
        Jumps x (if (s.g x.eng x.ctx a).toInt < (s.g x.eng x.ctx b).toInt then n.toNat else nextPc x s) s t) ∧
  (∀ (x : CtxRef) (a b : Fin 32) (off : BitVec 16) (n : Int) (s : State),
      CanIssue s x 2 → (s.pc x.eng x.ctx : Int) + s.immS x.eng x.ctx 16 off.toNat = n → (s.g x.eng x.ctx b).toInt ≤ (s.g x.eng x.ctx a).toInt → 0 ≤ n ∧ n < s.iwinSize x.eng x.ctx → 
      Completes (.bge x a b off) s fun t =>
        Jumps x (if (s.g x.eng x.ctx b).toInt ≤ (s.g x.eng x.ctx a).toInt then n.toNat else nextPc x s) s t) ∧
  (∀ (x : CtxRef) (a b : Fin 32) (off : BitVec 16) (n : Int) (s : State),
      CanIssue s x 2 → (s.pc x.eng x.ctx : Int) + s.immS x.eng x.ctx 16 off.toNat = n → (s.g x.eng x.ctx a).toNat < (s.g x.eng x.ctx b).toNat → 0 ≤ n ∧ n < s.iwinSize x.eng x.ctx → 
      Completes (.bltu x a b off) s fun t =>
        Jumps x (if (s.g x.eng x.ctx a).toNat < (s.g x.eng x.ctx b).toNat then n.toNat else nextPc x s) s t) ∧
  (∀ (x : CtxRef) (a b : Fin 32) (off : BitVec 16) (n : Int) (s : State),
      CanIssue s x 2 → (s.pc x.eng x.ctx : Int) + s.immS x.eng x.ctx 16 off.toNat = n → (s.g x.eng x.ctx b).toNat ≤ (s.g x.eng x.ctx a).toNat → 0 ≤ n ∧ n < s.iwinSize x.eng x.ctx → 
      Completes (.bgeu x a b off) s fun t =>
        Jumps x (if (s.g x.eng x.ctx b).toNat ≤ (s.g x.eng x.ctx a).toNat then n.toNat else nextPc x s) s t) ∧
  (∀ (x : CtxRef) (a : Fin 32) (off : BitVec 16) (n : Int) (s : State),
      CanIssue s x 2 → (s.pc x.eng x.ctx : Int) + s.immS x.eng x.ctx 16 off.toNat = n → 0 ≤ n → n < s.iwinSize x.eng x.ctx → 
      Completes (.call x a off) s fun t =>
        WritesGTo x a (BitVec.ofNat 64 (nextPc x s)) n.toNat s t) ∧
  (∀ (x : CtxRef) (a : Fin 32) (s : State),
      CanIssue s x 0 → 0 ≤ (s.g x.eng x.ctx a).toInt → (s.g x.eng x.ctx a).toInt < s.iwinSize x.eng x.ctx → 
      Completes (.ret x a) s fun t =>
        Jumps x (s.g x.eng x.ctx a).toNat s t) ∧
  (∀ (x : CtxRef) (s : State),
      CanIssue s x 0 → 
      Completes (.halt x) s fun t =>
        OnlyContext x s t ∧ t.pc x.eng x.ctx = pcAt (nextPc x s) ∧ t.cst x.eng x.ctx = 0 ∧ KeepsOps x s t ∧ KeepsTP x s t ∧ KeepsDmem x s t ∧
        ∀ r, t.g x.eng x.ctx r = s.g x.eng x.ctx r)

/-- Loads write gd alone and stores the bytes at ga plus the offset alone. Choices of the model: an instruction command is its issue, log entry 14 -/
def Obligations.LoadsAndStores : Prop :=
  (∀ (x : CtxRef) (d a : Fin 32) (imm : BitVec 16) (o : Nat) (s : State),
      CanIssue s x 2 → (s.g x.eng x.ctx a + BitVec.ofInt 64 (s.immS x.eng x.ctx 16 imm.toNat)).toNat = o → InDwin s x o 8 → s.badDmem x.eng (s.dwinBase x.eng x.ctx + o) 8 = false → 
      Completes (.ld x d a imm) s fun t =>
        WritesG x d (BitVec.ofNat 64 (s.dmemRead x.eng (s.dwinBase x.eng x.ctx + o) 8)) s t) ∧
  (∀ (x : CtxRef) (d a : Fin 32) (imm : BitVec 16) (o : Nat) (s : State),
      CanIssue s x 2 → (s.g x.eng x.ctx a + BitVec.ofInt 64 (s.immS x.eng x.ctx 16 imm.toNat)).toNat = o → InDwin s x o 4 → s.badDmem x.eng (s.dwinBase x.eng x.ctx + o) 4 = false → 
      Completes (.ldw x d a imm) s fun t =>
        WritesG x d (BitVec.ofNat 64 (s.dmemRead x.eng (s.dwinBase x.eng x.ctx + o) 4)) s t) ∧
  (∀ (x : CtxRef) (d a : Fin 32) (off : BitVec 10) (o : Nat) (s : State),
      CanIssue s x 0 → (s.g x.eng x.ctx a + BitVec.ofInt 64 (off.toInt)).toNat = o → InDwin s x o 2 → s.badDmem x.eng (s.dwinBase x.eng x.ctx + o) 2 = false → 
      Completes (.ldh x d a off) s fun t =>
        WritesG x d (BitVec.ofNat 64 (s.dmemRead x.eng (s.dwinBase x.eng x.ctx + o) 2)) s t) ∧
  (∀ (x : CtxRef) (d a : Fin 32) (off : BitVec 10) (o : Nat) (s : State),
      CanIssue s x 0 → (s.g x.eng x.ctx a + BitVec.ofInt 64 (off.toInt)).toNat = o → InDwin s x o 1 → s.badDmem x.eng (s.dwinBase x.eng x.ctx + o) 1 = false → 
      Completes (.ldb x d a off) s fun t =>
        WritesG x d (BitVec.ofNat 64 (s.dmemRead x.eng (s.dwinBase x.eng x.ctx + o) 1)) s t) ∧
  (∀ (x : CtxRef) (d a : Fin 32) (imm : BitVec 16) (o : Nat) (s : State),
      CanIssue s x 2 → (s.g x.eng x.ctx a + BitVec.ofInt 64 (s.immS x.eng x.ctx 16 imm.toNat)).toNat = o → InDwin s x o 8 → 
      Completes (.st x d a imm) s fun t =>
        StoresD x (s.dwinBase x.eng x.ctx + o) 8 (s.g x.eng x.ctx d) s t) ∧
  (∀ (x : CtxRef) (d a : Fin 32) (imm : BitVec 16) (o : Nat) (s : State),
      CanIssue s x 2 → (s.g x.eng x.ctx a + BitVec.ofInt 64 (s.immS x.eng x.ctx 16 imm.toNat)).toNat = o → InDwin s x o 4 → s.badDmem x.eng (s.dwinBase x.eng x.ctx + o) 4 = false → 
      Completes (.stw x d a imm) s fun t =>
        StoresD x (s.dwinBase x.eng x.ctx + o) 4 (s.g x.eng x.ctx d) s t) ∧
  (∀ (x : CtxRef) (d a : Fin 32) (off : BitVec 10) (o : Nat) (s : State),
      CanIssue s x 0 → (s.g x.eng x.ctx a + BitVec.ofInt 64 (off.toInt)).toNat = o → InDwin s x o 2 → s.badDmem x.eng (s.dwinBase x.eng x.ctx + o) 2 = false → 
      Completes (.sth x d a off) s fun t =>
        StoresD x (s.dwinBase x.eng x.ctx + o) 2 (s.g x.eng x.ctx d) s t) ∧
  (∀ (x : CtxRef) (d a : Fin 32) (off : BitVec 10) (o : Nat) (s : State),
      CanIssue s x 0 → (s.g x.eng x.ctx a + BitVec.ofInt 64 (off.toInt)).toNat = o → InDwin s x o 1 → s.badDmem x.eng (s.dwinBase x.eng x.ctx + o) 1 = false → 
      Completes (.stb x d a off) s fun t =>
        StoresD x (s.dwinBase x.eng x.ctx + o) 1 (s.g x.eng x.ctx d) s t)

/-- Time instructions: reading, adding, comparing and waiting for HT. Choices of the model: a timed row brings hall time forward to its instant, log entry 5; an instruction command is its issue, log entry 14 -/
def Obligations.TimeInstructions : Prop :=
  (∀ (x : CtxRef) (td : Fin 8) (s : State),
      CanIssue s x 0 → 
      Completes (.htr x td) s fun t =>
        WritesT x td (s.ht x.eng.part) s t) ∧
  (∀ (x : CtxRef) (td ta : Fin 8) (a : Fin 32) (imm : BitVec 15) (s : State),
      CanIssue s x 2 → 
      Completes (.tadd x td ta a imm) s fun t =>
        WritesT x td (s.t x.eng x.ctx ta + s.g x.eng x.ctx a + BitVec.ofInt 64 (256 * s.immS x.eng x.ctx 15 imm.toNat)) s t) ∧
  (∀ (x : CtxRef) (td ta : Fin 8) (a : Fin 32) (s : State),
      CanIssue s x 0 → 
      Completes (.tdiff x td ta a) s fun t =>
        WritesG x a (s.t x.eng x.ctx td - s.t x.eng x.ctx ta) s t) ∧
  (∀ (x : CtxRef) (p td ta : Fin 8) (r : TRel) (s : State),
      CanIssue s x 0 → 
      Completes (.tcmp x p td ta r) s fun t =>
        WritesP x p (tRelHolds r (s.t x.eng x.ctx td - s.t x.eng x.ctx ta)) s t) ∧
  (∀ (x : CtxRef) (ta : Fin 8) (a : Fin 32) (h : HT) (s : State),
      CanIssue s x 0 → s.t x.eng x.ctx ta = h → noSign h (s.ht x.eng.part) = false → after (ceilTick h) (s.ht x.eng.part) = true → 
      Completes (.waitt x ta a) s fun t =>
        Waits x (.tick h a) s t) ∧
  (∀ (x : CtxRef) (ta : Fin 8) (a : Fin 32) (h : HT) (s : State),
      CanIssue s x 0 → s.t x.eng x.ctx ta = h → noSign h (s.ht x.eng.part) = false → after (ceilTick h) (s.ht x.eng.part) = false → 
      Completes (.waitt x ta a) s fun t =>
        Reports x a (outWord .late (satNat 32 (s.ht x.eng.part - h).toNat)) s t) ∧
  (∀ (e : EngSel) (c : Fin 16) (a : Fin 32) (h : HT) (s : State),
      s.cst e c = 2 → (s.ctx e c).wait = some (.tick h a) → 
      Completes (.waittTarget e c) s fun t =>
        t.g e c a = gAfter a (outWord .ok 0) ∧ t.pc e c = pcAt (s.pc e c + 1) ∧ (t.ctx e c).wait = none ∧
        t.cst e c = if (s.ctx e c).stepping then 0 else 1) ∧
  (∀ (x : CtxRef) (ta : Fin 8) (a : Fin 32) (imm : BitVec 15) (n : Fin 8) (h : HT) (i : Nat) (s : State),
      CanIssue s x 2 → s.t x.eng x.ctx ta + BitVec.ofInt 64 (256 * s.immS x.eng x.ctx 15 imm.toNat) = h → s.g x.eng x.ctx a = BitVec.ofNat 64 n → dtcInst x.eng n = i → hasDtc x.eng = true → x.eng = .tsu → s.fenced = false → noSign h (s.ht x.eng.part) = false → (s.dtcO x.eng.part i).armed = [] → s.bt x.eng.part .dtcCfg 0 i = true → s.bt x.eng.part .dtcStatus 3 i = false → s.clockRuns x.eng.part = true → 
      Completes (.trig x ta a imm) s fun t =>
        Reports x a (match s.armLate x.eng (.fine n) h with | none => outWord .ok 0 | some l => outWord .late (satNat 32 l)) s t ∧ (t.dtcO x.eng.part i).armed = [⟨h, s.ht x.eng.part, x.ctx.val⟩]) ∧
  (∀ (x : CtxRef) (ta : Fin 8) (a : Fin 32) (imm : BitVec 15) (addr mask : Nat) (h : HT) (s : State),
      CanIssue s x 2 → s.t x.eng x.ctx ta + BitVec.ofInt 64 (256 * s.immS x.eng x.ctx 15 imm.toNat) = h → trigDest x.eng (s.g x.eng x.ctx a) = some (.keeper addr mask) → s.fenced = false → noSign h (s.ht .tsu) = false → addr = allKeepers ∨ addr < s.fd .tsu .kprNkeep 8 0 → s.bt .tsu .kprCtrl 0 = true → 
      Completes (.trig x ta a imm) s fun t =>
        Reports x a (if after h (s.ht .tsu) then outWord .ok 0 else outWord .late (satNat 32 (s.ht .tsu - h).toNat)) s t ∧
        ∀ b : Fin 4, OnBranches s addr b → RingHolds t (256 + b.val) true ⟨5, addr, mask, h.toNat⟩) ∧
  (∀ (x : CtxRef) (td : Fin 8) (a : Fin 32) (ch : BitVec 5) (r : TdcResult) (rs : List TdcResult) (i : Nat) (s : State),
      CanIssue s x 0 → ch.toNat < 9 → 2 * x.eng.tileNo = i → mget (fun _ => []) (s.tdcU x.eng.part i).fifos ch.toNat = r :: rs → 
      Completes (.capt x td a ch) s fun t =>
        Reports x a (outWord .ok r.status.toNat) s t ∧ t.t x.eng x.ctx td = r.value ∧ mget (fun _ => []) (t.tdcU x.eng.part i).fifos ch.toNat = rs)

/-- Sync instructions: signal, wait, poll, set and get objects. Choices of the model: an instruction command is its issue, log entry 14 -/
def Obligations.SyncInstructions : Prop :=
  (∀ (x : CtxRef) (obj : Fin 8192) (a : Fin 32) (q : Signal) (s : State),
      CanIssue s x 0 → (s.g x.eng x.ctx a).toNat < 2 ^ 48 → (s.eng x.eng).signals = [] → q = { src := 4, idx := obj.val, word := s.sigWord x.eng x.ctx (s.g x.eng x.ctx a).toNat, jctx := x.ctx.val } → s.signalCode x.eng q = .ok → 
      Completes (.sig x obj a .here) s fun t =>
        Reports x a (outWord .ok 0) s t ∧ (t.obj x.eng obj).word = (signalWord (s.obj x.eng obj).word (oValue q.word)).1) ∧
  (∀ (x : CtxRef) (obj : Fin 8192) (a : Fin 32) (consume timed : Bool) (td : Fin 8) (thr : Nat) (s : State),
      CanIssue s x 0 → bits (s.g x.eng x.ctx a).toNat 47 0 = thr → s.condCode x.eng x.ctx obj thr consume = .ok → condMet (s.obj x.eng obj).word thr (s.ht x.eng.part) = true → 
      Completes (.wait x obj a consume timed td) s fun t =>
        Reports x a (outWord .ok 0) s t ∧
        (t.obj x.eng obj).word = if consume then condConsume (s.obj x.eng obj).word thr else (s.obj x.eng obj).word) ∧
  (∀ (x : CtxRef) (obj : Fin 8192) (a : Fin 32) (consume : Bool) (td : Fin 8) (thr : Nat) (s : State),
      CanIssue s x 0 → bits (s.g x.eng x.ctx a).toNat 47 0 = thr → s.condCode x.eng x.ctx obj thr consume = .ok → condMet (s.obj x.eng obj).word thr (s.ht x.eng.part) = false → 
      Completes (.wait x obj a consume false td) s fun t =>
        Waits x (.obj obj thr consume none a) s t) ∧
  (∀ (e : EngSel) (c : Fin 16) (a : Fin 32) (i thr : Nat) (consume : Bool) (h : HT) (s : State),
      s.cst e c = 2 → (s.ctx e c).wait = some (.obj i thr consume (some h) a) → 
      Completes (.waitDeadline e c) s fun t =>
        t.g e c a = gAfter a (outWord .busy 0) ∧ t.pc e c = pcAt (s.pc e c + 1) ∧ (t.ctx e c).wait = none ∧
        t.cst e c = if (s.ctx e c).stepping then 0 else 1) ∧
  (∀ (x : CtxRef) (obj : Fin 8192) (a : Fin 32) (consume : Bool) (thr : Nat) (s : State),
      CanIssue s x 0 → bits (s.g x.eng x.ctx a).toNat 47 0 = thr → s.condCode x.eng x.ctx obj thr consume = .ok → 
      Completes (.poll x obj a consume) s fun t =>
        Reports x a (outWord .ok (b2n (condMet (s.obj x.eng obj).word thr (s.ht x.eng.part)))) s t) ∧
  (∀ (x : CtxRef) (obj : Fin 8192) (a : Fin 32) (img : DWord) (s : State),
      CanIssue s x 0 → s.g x.eng x.ctx a = img → (s.obj x.eng obj).word = 0 → oMode img = 1 → badLayout img = false → s.ownerDraining x.eng x.ctx = false → (s.eng x.eng).resetRange = none → 
      Completes (.objset x obj a) s fun t =>
        Reports x a (outWord .ok 0) s t ∧ (t.obj x.eng obj).word = setDw (setDw (setDw img 59 56 x.ctx) 52 52 0) 51 51 0 ∧
        (t.obj x.eng obj).claim = (t.obj x.eng obj).word) ∧
  (∀ (x : CtxRef) (obj : Fin 8192) (a : Fin 32) (stamp : Bool) (s : State),
      CanIssue s x 0 → 
      Completes (.objget x obj a stamp) s fun t =>
        WritesG x a (if stamp then BitVec.ofNat 64 (s.obj x.eng obj).stamp else (s.obj x.eng obj).word) s t)

/-- BIND, PRELIT and CGUARD in a TSU, and the register instructions. Choices of the model: an instruction command is its issue, log entry 14 -/
def Obligations.WickAndGuardInstructions : Prop :=
  (∀ (x : CtxRef) (obj : Fin 8192) (a : Fin 32) (consume oneshot : Bool) (plgrp : Fin 16) (n thr : Nat) (s : State),
      CanIssue s x 0 → x.eng = .tsu → bits (s.g x.eng x.ctx a).toNat 55 48 = n → bits (s.g x.eng x.ctx a).toNat 47 0 = thr → s.bindCode n x.ctx obj thr consume false true = .ok → condMet (s.obj .tsu obj).word thr (s.ht .tsu) = false → 
      Completes (.bind x obj a consume oneshot plgrp) s fun t =>
        Reports x a (outWord .ok 0) s t ∧ (t.wick n).state = 1 ∧ (t.wick n).slot = x.ctx.val ∧ (t.wick n).obj = obj.val ∧ (t.wick n).thr = thr ∧
        (t.wick n).oneshot = oneshot ∧ (t.wick n).plgrp = plgrp.val) ∧
  (∀ (x : CtxRef) (obj : Fin 8192) (a : Fin 32) (consume oneshot : Bool) (plgrp : Fin 16) (n : Nat) (s : State),
      CanIssue s x 0 → x.eng = .tsu → bits (s.g x.eng x.ctx a).toNat 55 48 = n → s.bindCode n x.ctx 0 0 false true true = .ok → 
      Completes (.bindUnbind x obj a consume oneshot plgrp) s fun t =>
        Reports x a (outWord .ok 0) s t ∧ (t.wick n).state = 0) ∧
  (∀ (x : CtxRef) (ta : Fin 8) (a : Fin 32) (mask k : Nat) (h h0 : HT) (sl : Slot) (rest : List (HT × Nat)) (s : State),
      CanIssue s x 0 → x.eng = .tsu → s.fenced = false → mget (fun _ => ({} : Slot)) s.slots x.ctx.val = sl → s.slotSt x.ctx = 0 ∨ s.bt .tsu .slotState 14 x.ctx = true → sl.prelits.all (fun pl => pl.stages.isEmpty) = true → s.g x.eng x.ctx a = BitVec.ofNat 64 mask → 0 < mask ∧ mask < 2 ^ 16 → s.t x.eng x.ctx ta = h → h.toNat % 256 = 0 → noSign h (s.ht .tsu) = false → plStages h ((List.range 16).filter fun g => mask.testBit g) (s.fd .tsu .sobPlCfg 19 8) (s.fd .tsu .sobPlCfg 31 20) sl.pre (!sl.launched && decide (s.slotSt x.ctx ≠ 0)) = (h0, k) :: rest → atOrAfter (s.ht .tsu) h0 = false → 
      Completes (.prelit x ta a) s fun t =>
        Reports x a (outWord .ok 0) s t ∧ (mget (fun _ => ({} : Slot)) t.slots x.ctx.val).prelits = sl.prelits ++ [{ id := sl.plCount, at_ := h, stages := (h0, k) :: rest }]) ∧
  (∀ (x : CtxRef) (obj : Fin 8192) (a : Fin 32) (n : Fin 256) (v : Nat) (s : State),
      CanIssue s x 0 → x.eng = .tsu → (s.g x.eng x.ctx a).toNat = v → v < 2 ^ 48 - 1 → s.slotSt x.ctx = 2 ∨ s.slotSt x.ctx = 3 → s.bt .tsu .slotState 13 x.ctx = true → oMode (s.obj .tsu obj).word = 4 → s.bindCode n x.ctx obj (v + 1) false false true = .ok → oValue (s.obj .tsu obj).word ≤ v → 
      Completes (.cguard x obj a n) s fun t =>
        Reports x a (outWord .ok 0) s t ∧ (t.wick n).state = 1 ∧ (t.wick n).obj = obj.val ∧ (t.wick n).thr = v + 1 ∧ (t.wick n).oneshot = true ∧ (t.wick n).consume = false) ∧
  (∀ (x : CtxRef) (d a : Fin 32) (imm : BitVec 16) (s : State),
      CanIssue s x 2 → s.ctlAddr x a imm = some (addrOf x.eng.part .sysUpdMask) → s.permits x.eng.part { cls := .engine } (some 0) false = true → 
      Completes (.getc x d a imm) s fun t =>
        Retired x (nextPc x s) s t ∧ t.g x.eng x.ctx d = gAfter d (outWord .ok (s.rd x.eng.part .sysUpdMask).toNat)) ∧
  (∀ (x : CtxRef) (d a : Fin 32) (imm : BitVec 16) (v : Word) (s : State),
      CanIssue s x 2 → s.ctlAddr x a imm = some (addrOf x.eng.part .sysUpdMask) → s.permits x.eng.part { cls := .engine } (some 0) true = true → (s.g x.eng x.ctx d).setWidth 32 = v → 
      Completes (.putc x d a imm) s fun t =>
        Retired x (nextPc x s) s t ∧ t.g x.eng x.ctx d = gAfter d (outWord .ok v.toNat) ∧ t.rd x.eng.part .sysUpdMask = v) ∧
  (∀ (x : CtxRef) (d a b : Fin 32) (code : Byte) (n : Nat) (s : State),
      CanIssue s x 0 → s.jnlBusy x.eng = false → s.wiping x.eng.part = false → x.eng = .tsu → s.tsu.jnl.loss = none → s.tsu.jnl.count = n → 
      Completes (.jnl x d a b code) s fun t =>
        Reports x d (outWord .ok (n % 65536)) s t ∧ t.tsu.jnl.count = n + 1)

/-- A member's asynchronous job instructions are accepted. Choices of the model: a timed row brings hall time forward to its instant, log entry 5; an instruction command is its issue, log entry 14; a frame sent names its addressee, log entry 38 -/
def Obligations.CollectiveInstructionsOfAMember : Prop :=
  (∀ (x : CtxRef) (obj : Fin 8192) (a : Fin 32) (timed : Bool) (td : Fin 8) (d n : Nat) (s : State),
      CanAccept s x obj → x.eng = .tsu → s.fenced = false → HasBlock s x (s.g x.eng x.ctx a).toNat (32 + 16 * n) d → s.dmemRead .tsu (d + 7) 1 = n → n ≤ 8 → s.badDmem .tsu d 32 = false → s.dmemRead .tsu d 2 ≠ 0 → s.dmemRead .tsu (d + 3) 1 < 2 → s.dmemRead .tsu (d + 4) 3 < 2 ^ 20 → s.dmemRead .tsu (d + 8) 3 < 2 ^ 20 → s.dmemRead .tsu (d + 11) 8 = 0 → s.dmemRead .tsu (d + 19) 8 = 0 → s.dmemRead .tsu (d + 27) 5 = 0 → (s.trigList .tsu d n).any (fun t => s.destBad t.1) = false → s.slotSt x.ctx = 0 → ∀ k : Fin 16, k.val ≠ x.ctx.val → s.slotSt k ≠ 0 ∨ s.bt .tsu .slotState 5 k = true → s.fd .tsu .slotState 31 16 k ≠ s.dmemRead .tsu d 2 → s.lcState .tsu = 2 → s.bt .tsu .slotState 5 x.ctx = false → 
      Completes (.arm x obj a timed td) s fun t =>
        Accepts x a 0x30 obj s t ∧ t.bt .tsu .slotState 5 x.ctx = true ∧ t.fd .tsu .slotState 31 16 x.ctx = s.dmemRead .tsu d 2 ∧ (t.slot x.ctx).trigs = s.trigList .tsu d n) ∧
  (∀ (x : CtxRef) (obj : Fin 8192) (a : Fin 32) (s : State),
      CanAccept s x obj → x.eng = .tsu → s.fenced = false → s.slotSt x.ctx ≠ 0 → s.slotSt x.ctx ≠ 6 → 
      Completes (.release x obj a) s fun t =>
        Accepts x a 0x31 obj s t ∧ t.slotSt x.ctx = 6) ∧
  (∀ (x : CtxRef) (obj : Fin 8192) (a : Fin 32) (n : Fin 8) (d : Nat) (ds : List RedDesc) (els : List (List Nat)) (s : State),
      CanAccept s x obj → x.eng = .tsu → s.fenced = false → n.val ≤ 4 → HasBlock s x (s.g x.eng x.ctx a).toNat (16 + 8 * n.val) d → (s.redDescs .tsu x.ctx ((List.range n.val).map fun i => s.dmemRead .tsu (d + 16 + 8 * i) 8)).getLeft? = some ds → (s.redElems .tsu x.ctx ds).getLeft? = some els → s.dmemRead .tsu (d + 8) 8 = 0 → ds.any (·.bad (s.bt .tsu .slotState 12 x.ctx)) = false → worstCase (ds.map (·.shape)) ≤ 16384 → s.poolFull x.ctx (ceilDiv (worstCase (ds.map (·.shape))) 64) = false → s.slotSt x.ctx = 2 ∨ s.slotSt x.ctx = 5 → 
      Completes (.gate x obj a n) s fun t =>
        Accepts x a 0x32 obj s t ∧ t.slotSt x.ctx = 3 ∧ t.bt .tsu .slotState 6 x.ctx = decide (s.slotSt x.ctx = 5) ∧
        (t.slot x.ctx).gateSeq = ((s.slot x.ctx).gateSeq + 1) % 65536) ∧
  (∀ (x : CtxRef) (obj : Fin 8192) (a : Fin 32) (ds : List RedDesc) (els : List (List Nat)) (s : State),
      CanAccept s x obj → x.eng = .tsu → s.fenced = false → (s.redDescs .tsu x.ctx [(s.g x.eng x.ctx a).toNat]).getLeft? = some ds → (s.redElems .tsu x.ctx ds).getLeft? = some els → ds.any (·.bad (s.bt .tsu .slotState 12 x.ctx)) = false → worstCase (ds.map (·.shape)) ≤ 16384 → s.poolFull x.ctx (ceilDiv (worstCase (ds.map (·.shape))) 64) = false → s.slotSt x.ctx = 2 ∨ s.slotSt x.ctx = 3 ∨ s.slotSt x.ctx = 5 → 
      Completes (.contrib x obj a) s fun t =>
        Accepts x a 0x33 obj s t ∧ (t.slot x.ctx).collSeq = ((s.slot x.ctx).collSeq + 1) % 65536) ∧
  (∀ (x : CtxRef) (d a b : Fin 32) (td : Option (Fin 8)) (q : Nat) (p : Op) (r : CompRec) (o : Nat) (s : State),
      CanIssue s x 0 → (s.g x.eng x.ctx a).toNat = q → (s.ctx x.eng x.ctx).ops.find? (fun (y : Nat × Op) => y.1 == q % 8) = some (q % 8, p) → p.seq = bits q 15 8 → p.result = some r → (s.g x.eng x.ctx b).toNat = o → InDwin s x o 8 → o + (32 + r.results.length) ≤ s.dwinSize x.eng x.ctx → 
      Completes (.result x d a b td) s fun t =>
        Reports x d (outWord r.code (r.value.toNat % 2 ^ 32) 1) s t ∧
        t.dmemRead x.eng (s.dwinBase x.eng x.ctx + o) 8 = r.value.toNat ∧ ∀ k ∈ td, t.t x.eng x.ctx k = r.value) ∧
  (∀ (x : CtxRef) (a : Fin 32) (ta : Fin 8) (obj : Fin 8192) (s : State),
      CanAccept s x obj → x.eng = .tsu → s.fenced = false → s.slotSt x.ctx ≠ 0 → s.slotSt x.ctx ≠ 6 → noSign (s.t x.eng x.ctx ta) (s.ht .tsu) = false → 
      Completes (.launch x a ta obj) s fun t =>
        Accepts x a 0x35 obj s t ∧ t.tsu.sent.length = s.tsu.sent.length + 1) ∧
  (∀ (x : CtxRef) (a : Fin 32) (ta : Fin 8) (obj : Fin 8192) (s : State),
      CanAccept s x obj → x.eng = .tsu → s.fenced = false → s.slotSt x.ctx ≠ 0 → s.slotSt x.ctx ≠ 6 → (s.g x.eng x.ctx a).toNat < 16 → noSign (s.t x.eng x.ctx ta) (s.ht .tsu) = false → 
      Completes (.phase x a ta obj) s fun t =>
        Accepts x a 0x36 obj s t ∧ t.tsu.sent.length = s.tsu.sent.length + 1) ∧
  (∀ (x : CtxRef) (obj : Fin 8192) (a : Fin 32) (s : State),
      CanAccept s x obj → x.eng = .tsu → s.fenced = false → s.slotSt x.ctx ≠ 0 → s.slotSt x.ctx ≠ 6 → (s.g x.eng x.ctx a).toNat < 2 ^ 20 → 
      Completes (.evict x obj a) s fun t =>
        Accepts x a 0x3B obj s t ∧ t.tsu.sent.length = s.tsu.sent.length + 1) ∧
  (∀ (x : CtxRef) (obj : Fin 8192) (a : Fin 32) (s : State),
      CanAccept s x obj → x.eng = .tsu → s.fenced = false → s.slotSt x.ctx ≠ 0 → s.slotSt x.ctx ≠ 6 → (s.g x.eng x.ctx a).toNat < 2 ^ 40 → 
      Completes (.shadowStart x obj a) s fun t =>
        Accepts x a 0x3B obj s t ∧ t.tsu.sent.length = s.tsu.sent.length + 1) ∧
  (∀ (x : CtxRef) (obj : Fin 8192) (a : Fin 32) (s : State),
      CanAccept s x obj → x.eng = .tsu → s.fenced = false → s.slotSt x.ctx ≠ 0 → s.slotSt x.ctx ≠ 6 → 
      Completes (.shadowAdmit x obj a) s fun t =>
        Accepts x a 0x3B obj s t ∧ t.tsu.sent.length = s.tsu.sent.length + 1) ∧
  (∀ (x : CtxRef) (obj : Fin 8192) (a : Fin 32) (s : State),
      CanAccept s x obj → x.eng = .tsu → s.fenced = false → s.slotSt x.ctx ≠ 0 → s.slotSt x.ctx ≠ 6 → 
      Completes (.shadowAbandon x obj a) s fun t =>
        Accepts x a 0x3B obj s t ∧ t.tsu.sent.length = s.tsu.sent.length + 1) ∧
  (∀ (x : CtxRef) (obj : Fin 8192) (a : Fin 32) (d o : Nat) (s : State),
      CanAccept s x obj → x.eng = .tsu → s.fenced = false → HasBlock s x (s.g x.eng x.ctx a).toNat 16 d → s.dmemRead .tsu d 1 < 32 → s.dmemRead .tsu (d + 1) 1 = 0 → s.dmemRead .tsu (d + 2) 2 = o → o < 8192 → 1 ≤ s.dmemRead .tsu (d + 4) 4 → s.dmemRead .tsu (d + 4) 4 ≤ 2 ^ 24 → 1000 ≤ s.dmemRead .tsu (d + 8) 4 → s.dmemRead .tsu (d + 8) 4 ≤ 1000000 → 1500 ≤ s.dmemRead .tsu (d + 12) 2 → s.dmemRead .tsu (d + 14) 2 = 0 → oMode (s.obj .tsu o).word = 1 ∨ oMode (s.obj .tsu o).word = 2 → oOwner (s.obj .tsu o).word = x.ctx → (mget (fun _ => ({} : Slot)) s.slots x.ctx.val).shadow ≠ 1 → s.slotSt x.ctx = 2 ∨ s.slotSt x.ctx = 3 → 
      Completes (.snap x obj a) s fun t =>
        Accepts x a 0x38 obj s t ∧ t.tsu.sent.length = s.tsu.sent.length + 1) ∧
  (∀ (x : CtxRef) (a : Fin 32) (ta : Fin 8) (obj : Fin 8192) (s : State),
      CanAccept s x obj → x.eng = .tsu → s.fenced = false → s.slotSt x.ctx = 2 ∨ s.slotSt x.ctx = 3 → (mget (fun _ => ({} : Slot)) s.slots x.ctx.val).snap.map (·.opened) = some true → (s.g x.eng x.ctx a).toNat < 2 ^ 32 → noSign (s.t x.eng x.ctx ta) (s.ht .tsu) = false → 
      Completes (.window x a ta obj) s fun t =>
        Accepts x a 0x39 obj s t) ∧
  (∀ (x : CtxRef) (a : Fin 32) (ta : Fin 8) (obj : Fin 8192) (h : HT) (s : State),
      CanAccept s x obj → (s.g x.eng x.ctx a).toNat < 2 ^ 32 → s.t x.eng x.ctx ta = h → noSign h (s.ht x.eng.part) = false → noSign (ceilTick h) (s.ht x.eng.part) = false → (s.part x.eng.part).scheduled.length < strobeCap x.eng.part → 
      Completes (.upd x a ta obj false) s fun t =>
        Accepts x a 0x3E obj s t ∧
        ((t.part x.eng.part).strobes.map fun (r : StrobeReq) => (r.target, r.mask)) =
          ((s.part x.eng.part).strobes.map fun (r : StrobeReq) => (r.target, r.mask)) ++ [(ceilTick h, (s.g x.eng x.ctx a).toNat)]) ∧
  (∀ (x : CtxRef) (a : Fin 32) (ta : Fin 8) (obj : Fin 8192) (h : HT) (s : State),
      CanAccept s x obj → x.eng = .tsu → s.fenced = false → s.slotSt x.ctx ≠ 0 → s.slotSt x.ctx ≠ 6 → (s.g x.eng x.ctx a).toNat < 2 ^ 32 → s.t x.eng x.ctx ta = h → noSign h (s.ht .tsu) = false → noSign (ceilTick h) (s.ht .tsu) = false → 
      Completes (.upd x a ta obj true) s fun t =>
        Accepts x a 0x3E obj s t ∧ t.tsu.sent.length = s.tsu.sent.length + 1) ∧
  (∀ (x : CtxRef) (obj : Fin 8192) (a : Fin 32) (s : State),
      CanAccept s x obj → 
      Completes (.jflush x obj a) s fun t =>
        Accepts x a 0x3D obj s t)

/-- A job root's asynchronous instructions are accepted. Choices of the model: a timed row brings hall time forward to its instant, log entry 5 -/
def Obligations.CollectiveInstructionsOfAJobRoot : Prop :=
  (∀ (x : CtxRef) (obj : Fin 8192) (a : Fin 32) (timed : Bool) (td n : Fin 8) (k d m cnt lead o d1 : Nat) (ws : List MapWord) (s : State),
      CanAccept s x obj → x.eng = .tile n → s.jobOf x.eng x.ctx = some k → HasBlock s x (s.g x.eng x.ctx a).toNat (32 + 8 * m) d → s.badDmem x.eng d 32 = false → s.dmemRead x.eng (d + 19) 1 = m → 1 ≤ m ∧ m ≤ 16 → s.dmemRead x.eng d 2 ≠ 0 → bits (s.dmemRead x.eng (d + 3) 1) 7 5 = 0 → s.dmemRead x.eng (d + 4) 4 = cnt → 1 ≤ cnt ∧ cnt ≤ 65536 → s.dmemRead x.eng (d + 8) 4 = lead → lead = 0 ∨ (100 ≤ lead ∧ lead ≤ 1000000) → s.dmemRead x.eng (d + 18) 1 ≤ 8 → s.dmemRead x.eng (d + 22) 8 = 0 → s.dmemRead x.eng (d + 30) 2 = 0 → s.dmemRead x.eng (d + 32) 8 = o → HasBlock s x o (4 * cnt) d1 → s.readMap { tile := n, ctx := x.ctx, n := cnt, mapOffs := [o] } 0 = some ws → mapOk ws [] (s.job k).fenced = true → s.twoSections ws = false → (s.armGens.find? (fun g => g.1 == s.dmemRead x.eng d 2)).all (fun g => (g.2 + 1) % 256 == s.dmemRead x.eng (d + 2) 1) = true → (s.job k).state = 0 → s.jobOfHandle (s.dmemRead x.eng d 2) = none → s.tier ≠ 1 → s.lcState .dist = 2 → s.isOpen .dist = false → 
      Completes (.arm x obj a timed td) s fun t =>
        Accepts x a 0x30 obj s t ∧ (t.job k).state = 1 ∧ (t.job k).words = ws ∧ (t.job k).handle = s.dmemRead x.eng d 2) ∧
  (∀ (x : CtxRef) (obj : Fin 8192) (a : Fin 32) (n : Fin 8) (k : Nat) (s : State),
      CanAccept s x obj → x.eng = .tile n → s.jobOf x.eng x.ctx = some k → 2 ≤ (s.job k).state → (s.job k).state ≠ 7 → 
      Completes (.release x obj a) s fun t =>
        Accepts x a 0x31 obj s t ∧ ((t.job k).state = 7 ∨ (t.job k).state = 0) ∧ (t.job k).gate = none ∧ (t.job k).launches = []) ∧
  (∀ (x : CtxRef) (obj : Fin 8192) (a : Fin 32) (r n : Fin 8) (k d lead : Nat) (ds : List RedDesc) (s : State),
      CanAccept s x obj → x.eng = .tile n → s.jobOf x.eng x.ctx = some k → r.val ≤ 4 → HasBlock s x (s.g x.eng x.ctx a).toNat (16 + 8 * r.val) d → (s.redDescs x.eng x.ctx ((List.range r.val).map fun i => s.dmemRead x.eng (d + 16 + 8 * i) 8)).getLeft? = some ds → s.dmemRead x.eng d 4 = lead → lead = 0 ∨ (100 ≤ lead ∧ lead ≤ 1000000) → s.dmemRead x.eng (d + 4) 4 ≤ 4000000 → s.dmemRead x.eng (d + 8) 8 = 0 → ds.any (·.badRoot ((s.job k).floor.testBit 0)) = false → worstCase (ds.map (·.shape)) ≤ 16384 → (s.job k).state = 3 ∨ (s.job k).state = 6 → 
      Completes (.gate x obj a r) s fun t =>
        Accepts x a 0x32 obj s t ∧ (t.job k).gateSeq = ((s.job k).gateSeq + 1) % 65536) ∧
  (∀ (x : CtxRef) (obj : Fin 8192) (a : Fin 32) (n : Fin 8) (k : Nat) (r : RedDesc) (s : State),
      CanAccept s x obj → x.eng = .tile n → s.jobOf x.eng x.ctx = some k → (s.redDescs x.eng x.ctx [(s.g x.eng x.ctx a).toNat]).getLeft? = some [r] → r.badRoot ((s.job k).floor.testBit 0) = false → worstCase [r.shape] ≤ 16384 → (s.job k).state = 3 ∨ (s.job k).state = 4 ∨ (s.job k).state = 6 → 
      Completes (.contrib x obj a) s fun t =>
        Accepts x a 0x33 obj s t ∧ (t.job k).collSeq = ((s.job k).collSeq + 1) % 65536 ∧ (t.job k).colls.map (fun (y : CollRoot) => (y.seq, y.shape)) = (s.job k).colls.map (fun (y : CollRoot) => (y.seq, y.shape)) ++ [((s.job k).collSeq, r.shape)]) ∧
  (∀ (x : CtxRef) (a : Fin 32) (ta : Fin 8) (obj : Fin 8192) (n : Fin 8) (k : Nat) (s : State),
      CanAccept s x obj → x.eng = .tile n → s.jobOf x.eng x.ctx = some k → s.held.all (fun y => y.cmdOf != some (s.job k).handle) = true → (s.job k).state = 2 ∨ (s.job k).state = 3 → noSign (s.t x.eng x.ctx ta) (s.ht .dist) = false → noSign (ceilTick (s.t x.eng x.ctx ta)) (s.ht .dist) = false → 
      Completes (.launch x a ta obj) s fun t =>
        Accepts x a 0x35 obj s t ∧ (t.job k).lastL = some (ceilTick (s.t x.eng x.ctx ta))) ∧
  (∀ (x : CtxRef) (a : Fin 32) (ta : Fin 8) (obj : Fin 8192) (n : Fin 8) (k : Nat) (ws : List MapWord) (s : State),
      CanAccept s x obj → x.eng = .tile n → s.jobOf x.eng x.ctx = some k → s.held.all (fun y => y.cmdOf != some (s.job k).handle) = true → (s.g x.eng x.ctx a).toNat < 16 → noSign (s.t x.eng x.ctx ta) (s.ht .dist) = false → noSign (ceilTick (s.t x.eng x.ctx ta)) (s.ht .dist) = false → s.readMap (s.job k) (s.g x.eng x.ctx a).toNat = some ws → (s.job k).mapFits ws = true → (s.job k).state = 3 ∨ (s.job k).state = 4 ∨ (s.job k).state = 5 → (s.job k).phases.all (fun p => after (ceilTick (s.t x.eng x.ctx ta)) p.tick) = true → 
      Completes (.phase x a ta obj) s fun t =>
        Accepts x a 0x36 obj s t) ∧
  (∀ (x : CtxRef) (obj : Fin 8192) (a : Fin 32) (n : Fin 8) (k : Nat) (w : MapWord) (s : State),
      CanAccept s x obj → x.eng = .tile n → s.jobOf x.eng x.ctx = some k → s.held.all (fun y => y.cmdOf != some (s.job k).handle) = true → 2 ≤ (s.job k).state → (s.job k).state ≠ 7 → (s.job k).words[(s.g x.eng x.ctx a).toNat]? = some w → w.vacant = false → (s.job k).fenced.contains w.node = false → (s.g x.eng x.ctx a).toNat < 2 ^ 20 → 
      Completes (.evict x obj a) s fun t =>
        Accepts x a 0x3B obj s t ∧ (t.job k).evicts.map (·.1) = (s.job k).evicts.map (·.1) ++ [w.node]) ∧
  (∀ (x : CtxRef) (obj : Fin 8192) (a : Fin 32) (n : Fin 8) (k : Nat) (s : State),
      CanAccept s x obj → x.eng = .tile n → s.jobOf x.eng x.ctx = some k → s.held.all (fun y => y.cmdOf != some (s.job k).handle) = true → 2 ≤ (s.job k).state → (s.job k).state ≠ 7 → (s.g x.eng x.ctx a).toNat < 2 ^ 40 → ((s.job k).liveAt (bits (s.g x.eng x.ctx a).toNat 39 20)).isSome = true → (s.job k).rankOf ((s.g x.eng x.ctx a).toNat % 2 ^ 20) = none → (s.job k).shadows.any (fun y => y.node == (s.g x.eng x.ctx a).toNat % 2 ^ 20) = false → 
      Completes (.shadowStart x obj a) s fun t =>
        Accepts x a 0x3B obj s t ∧ (t.job k).shadows.map (fun (y : Shadow) => (y.node, y.rank)) = (s.job k).shadows.map (fun (y : Shadow) => (y.node, y.rank)) ++ [((s.g x.eng x.ctx a).toNat % 2 ^ 20, bits (s.g x.eng x.ctx a).toNat 39 20)]) ∧
  (∀ (x : CtxRef) (obj : Fin 8192) (a : Fin 32) (n : Fin 8) (k : Nat) (s : State),
      CanAccept s x obj → x.eng = .tile n → s.jobOf x.eng x.ctx = some k → s.held.all (fun y => y.cmdOf != some (s.job k).handle) = true → 2 ≤ (s.job k).state → (s.job k).state ≠ 7 → (s.job k).shadows.any (fun y => y.node == (s.g x.eng x.ctx a).toNat % 2 ^ 20 && y.eligible) = true → 
      Completes (.shadowAdmit x obj a) s fun t =>
        Accepts x a 0x3B obj s t ∧ (t.job k).shadows.all (fun (y : Shadow) => y.node != (s.g x.eng x.ctx a).toNat % 2 ^ 20 || y.admitReq.isSome) = true) ∧
  (∀ (x : CtxRef) (obj : Fin 8192) (a : Fin 32) (n : Fin 8) (k : Nat) (s : State),
      CanAccept s x obj → x.eng = .tile n → s.jobOf x.eng x.ctx = some k → s.held.all (fun y => y.cmdOf != some (s.job k).handle) = true → 2 ≤ (s.job k).state → (s.job k).state ≠ 7 → (s.job k).shadows.any (fun y => y.node == (s.g x.eng x.ctx a).toNat % 2 ^ 20) = true → 
      Completes (.shadowAbandon x obj a) s fun t =>
        Accepts x a 0x3B obj s t ∧ (t.job k).shadows = (s.job k).shadows.filter fun (y : Shadow) => y.node ≠ (s.g x.eng x.ctx a).toNat % 2 ^ 20) ∧
  (∀ (x : CtxRef) (a : Fin 32) (ta : Fin 8) (obj : Fin 8192) (n : Fin 8) (k : Nat) (s : State),
      CanAccept s x obj → x.eng = .tile n → s.jobOf x.eng x.ctx = some k → s.held.all (fun y => y.cmdOf != some (s.job k).handle) = true → 2 ≤ (s.job k).state → (s.job k).state ≠ 7 → (s.g x.eng x.ctx a).toNat < 2 ^ 32 → noSign (s.t x.eng x.ctx ta) (s.ht .dist) = false → noSign (ceilTick (s.t x.eng x.ctx ta)) (s.ht .dist) = false → 
      Completes (.upd x a ta obj true) s fun t =>
        Accepts x a 0x3E obj s t ∧ (t.job k).upds.length = (s.job k).upds.length + 1) ∧
  (∀ (x : CtxRef) (a : Fin 32) (ta : Fin 8) (obj : Fin 8192) (n : Fin 8) (k : Nat) (s : State),
      CanAccept s x obj → x.eng = .tile n → s.jobOf x.eng x.ctx = some k → noSign (s.t x.eng x.ctx ta) (s.ht .dist) = false → 2 ≤ (s.job k).state → (s.job k).state ≠ 7 → s.isOpen .dist = false → (s.job k).planning = none → 
      Completes (.plan x a ta obj) s fun t =>
        Accepts x a 0x37 obj s t ∧ (t.job k).planning.isSome = true) ∧
  (∀ (x : CtxRef) (obj : Fin 8192) (a : Fin 32) (n : Fin 8) (k i : Nat) (s : State),
      CanAccept s x obj → x.eng = .tile n → s.jobOf x.eng x.ctx = some k → (s.g x.eng x.ctx a).toNat = i → i < 32 → (s.epochSlot k i).state = 2 → (s.epochSlot k i).op = none → 
      Completes (.commit x obj a) s fun t =>
        Accepts x a 0x3A obj s t ∧ (t.epochSlot k i).op.isSome = true) ∧
  (∀ (x : CtxRef) (obj : Fin 8192) (a : Fin 32) (n : Fin 8) (k d : Nat) (r : RebuildDesc) (s : State),
      CanAccept s x obj → x.eng = .tile n → s.jobOf x.eng x.ctx = some k → s.tier ≠ 1 → HasBlock s x (s.g x.eng x.ctx a).toNat (32 + 8 * r.pairs.length) d → s.badDmem x.eng d 32 = false → s.rebuildDesc x.eng d = r → r.bad (s.ht .dist) = false → (r.pairs.all fun (p : Nat × Nat) => (match (s.job k).words[p.1]? with | some w => w.vacant | none => false) && ((s.job k).rankOf p.2).isSome) = true → ∀ i : Fin 32, r.mask.testBit i = true → (s.epochSlot k i).state = 3 → (s.job k).state = 3 ∨ (s.job k).state = 5 → (s.job k).rebuild = none → 
      Completes (.rebuild x obj a) s fun t =>
        Accepts x a 0x3A obj s t ∧ (t.job k).rebuild.map (fun (v : RebuildRoot) => (v.tr, v.shapeInv)) = some (r.tr, decide (r.flags = 1))) ∧
  (∀ (x : CtxRef) (obj : Fin 8192) (a : Fin 32) (n : Fin 8) (k d : Nat) (r : RebuildDesc) (y : ChainCtx) (s : State),
      CanAccept s x obj → x.eng = .tile n → s.jobOf x.eng x.ctx = some k → s.tier = 1 → HasBlock s x (s.g x.eng x.ctx a).toNat (32 + 8 * r.pairs.length) d → s.badDmem x.eng d 32 = false → s.rebuildDesc x.eng d = r → r.bad (s.ht .dist) = false → s.chainCtx k = some y → y.rebuild = none → ∀ i : Fin 32, r.mask.testBit i = true → ((s.ctxSlots k i).any fun kv => kv.2.state == 5) = true → 
      Completes (.rebuild x obj a) s fun t =>
        Accepts x a 0x3A obj s t) ∧
  (∀ (x : CtxRef) (obj : Fin 8192) (a : Fin 32) (n : Fin 8) (k d m set slot : Nat) (raw : List (Nat × Nat × Nat)) (s : State),
      CanAccept s x obj → x.eng = .tile n → s.jobOf x.eng x.ctx = some k → s.tier = 1 → s.isOpen .dist = false → (s.job k).state = 0 → HasBlock s x (s.g x.eng x.ctx a).toNat (32 + 4 * m) d → s.badDmem x.eng d 32 = false → s.dmemRead x.eng (d + 5) 1 = m → 1 ≤ m ∧ m ≤ 64 → s.dmemRead x.eng (d + 3) 1 = slot → slot < 32 → s.dmemRead x.eng (d + 4) 1 = set → set < 128 → s.dmemRead x.eng (d + 6) 2 = 0 → s.dmemRead x.eng (d + 12) 8 = 0 → s.dmemRead x.eng (d + 20) 8 = 0 → s.dmemRead x.eng (d + 28) 4 = 0 → s.chainEntries x.eng d m = raw → entriesOk raw = true → (s.chainCtxs.find? fun y => y.1 == k) = none → s.chains = [] → s.lockstep < 128 → ({ state := 1, ctx := k, entries := raw.map fun y => ⟨y.1 % 128, decide (y.1 / 128 = 1), y.2.1⟩, b := 1 } : ChainSlot).blocks ≤ s.chainFree → 
      Completes (.snap x obj a) s fun t =>
        Accepts x a 0x38 obj s t ∧ (t.chain (32 * set + slot)).state = 1 ∧ (t.chain (32 * set + slot)).ctx = k) ∧
  (∀ (x : CtxRef) (a : Fin 32) (ta : Fin 8) (obj : Fin 8192) (n : Fin 8) (k : Nat) (s : State),
      CanAccept s x obj → x.eng = .tile n → s.jobOf x.eng x.ctx = some k → (s.g x.eng x.ctx a).toNat < 2 ^ 32 → noSign (s.t x.eng x.ctx ta) (s.ht .dist) = false → 
      Completes (.window x a ta obj) s fun t =>
        Reports x a (outWord .state 0) s t)

/-- Frames of the job root at a member -/
def Obligations.JobFramesAtAMember : Prop :=
  (∀ (handle : BitVec 16) (gen : Byte) (epoch pre : Word) (l : HT) (floor : BitVec 4) (c : Nat) (s : State),
      Maps s → s.fenced = false → s.armPending handle.toNat gen.toNat = some c → 
      Completes (.armAck none handle gen epoch l floor pre) s fun t =>
        t.slotSt c = 1 ∧ t.rd .tsu .slotEpoch c = epoch ∧ t.fd .tsu .slotState 15 12 c = floor.toNat) ∧
  (∀ (handle : BitVec 16) (gen : Byte) (code : Code) (c : Nat) (s : State),
      Maps s → s.fenced = false → s.armPending handle.toNat gen.toNat = some c → 
      Completes (.armRefuse handle gen code) s fun t =>
        t.bt .tsu .slotState 5 c = false ∧ t.slotSt c = 0) ∧
  (∀ (handle : BitVec 16) (gen : Byte) (epoch : Word) (c : Nat) (f : HT) (s : State),
      Maps s → FrameFor s handle gen epoch c → s.slotSt c = 6 → 
      Completes (.releaseAt handle gen epoch f) s fun t =>
        (t.slot c).relTick = some f) ∧
  (∀ (handle : BitVec 16) (gen : Byte) (epoch : Word) (c : Nat) (l : HT) (q r : BitVec 16) (w : DWord × DWord × Nat) (s : State),
      Maps s → FrameFor s handle gen epoch c → s.slotSt c = 1 ∨ s.slotSt c = 2 → after l (s.ht .tsu) = true → 
      Completes (.launchFrame handle gen epoch l q false r w) s fun t =>
        (t.slot c).launches.map (fun (y : PendLaunch) => (y.at_, y.gate)) = (insertLaunch { at_ := l, gate := false, late := 0, refused := 0 } (s.slot c).launches).map (fun (y : PendLaunch) => (y.at_, y.gate)) ∧
        t.rd .tsu .slotLLo c = l.truncate 32 ∧ t.rd .tsu .slotLHi c = (l >>> 32).truncate 32) ∧
  (∀ (handle : BitVec 16) (gen : Byte) (epoch : Word) (c : Nat) (l : HT) (q r : BitVec 16) (w : DWord × DWord × Nat) (h : ResHold) (s : State),
      Maps s → FrameFor s handle gen epoch c → s.slotSt c = 3 → after l (s.ht .tsu) = true → (s.slot c).results.find? (fun y => !y.coll && y.seq == q.toNat && (s.holdOp c y).isSome) = some h → 
      Completes (.launchFrame handle gen epoch l q true r w) s fun t =>
        (t.slot c).launches.map (fun (y : PendLaunch) => (y.at_, y.gate)) = (insertLaunch { at_ := l, gate := true, late := 0, refused := 0 } (s.slot c).launches).map (fun (y : PendLaunch) => (y.at_, y.gate)) ∧
        (t.slot c).resultSeq = (r.toNat + 1) % 65536 ∧ t.todo.length = s.todo.length + 1) ∧
  (∀ (handle : BitVec 16) (gen : Byte) (epoch : Word) (c : Nat) (l : HT) (q r : BitVec 16) (w : DWord × DWord × Nat) (s : State),
      Maps s → FrameFor s handle gen epoch c → s.slotSt c = 1 → after l (s.ht .tsu) = false → (s.slot c).replanDue = none → (s.slot c).phases = [] → 
      Completes (.launchFrame handle gen epoch l q false r w) s fun t =>
        t.slotSt c = 2 ∧ t.bt .tsu .slotStat 3 c = true ∧ t.rd .tsu .slotLate c = BitVec.ofNat 32 (satNat 32 (s.ht .tsu - l).toNat)) ∧
  (∀ (handle : BitVec 16) (gen : Byte) (epoch : Word) (c : Nat) (s : State),
      Maps s → FrameFor s handle gen epoch c → s.slotSt c = 3 → 
      Completes (.abort handle gen epoch) s fun t =>
        t.slotSt c = 4 ∧ t.rd .tsu .slotEpoch c = epoch) ∧
  (∀ (handle : BitVec 16) (gen : Byte) (epoch : Word) (c : Nat) (d : Fin 2) (s : State),
      Maps s → FrameAt s handle gen c → epochNewer epoch.toNat (s.rd .tsu .slotEpoch c).toNat = true → s.slotSt c ≠ 6 → 
      Completes (.replan none handle gen epoch d) s fun t =>
        t.rd .tsu .slotEpoch c = epoch ∧ (t.slot c).domain = d.val ∧
        (if s.slotSt c = 4 ∨ (s.slot c).launches.all (·.void) = true then t.slotSt c = 4
         else t.slotSt c = s.slotSt c ∧ (t.slot c).replanDue = some epoch.toNat)) ∧
  (∀ (handle : BitVec 16) (gen : Byte) (epoch : Word) (c : Nat) (tk : HT) (m : Fin 16) (r : BitVec 20) (s : State),
      Maps s → FrameFor s handle gen epoch c → s.slotSt c ≠ 6 → after tk (s.ht .tsu) = true → 
      Completes (.phaseFrame none handle gen epoch tk m r) s fun t =>
        (t.slot c).phases = insertHt (tk, m.val, r.toNat, epoch.toNat) (s.slot c).phases) ∧
  (∀ (handle : BitVec 16) (gen : Byte) (epoch : Word) (c : Nat) (tr : HT) (q : BitVec 16) (s : State),
      Maps s → FrameFor s handle gen epoch c → s.slotSt c = 2 ∨ s.slotSt c = 3 ∨ s.slotSt c = 4 → after tr (s.ht .tsu) = true → 
      Completes (.restore handle gen epoch tr q) s fun t =>
        tr ∈ (t.slot c).replayAt ∧ (t.slot c).gateSeq = q.toNat) ∧
  (∀ (handle : BitVec 16) (gen : Byte) (epoch : Word) (c : Nat) (tk : HT) (s : State),
      Maps s → FrameFor s handle gen epoch c → s.slotSt c = 5 → after tk (s.ht .tsu) = true → 
      Completes (.replayEnd handle gen epoch tk) s fun t =>
        tk ∈ (t.slot c).runAt) ∧
  (∀ (handle : BitVec 16) (gen : Byte) (epoch : Word) (c : Nat) (tag : Fin 8) (code : Code) (v : DWord) (late : Word) (y : OpRef × Op) (s : State),
      Maps s → FrameFor s handle gen epoch c → (s.outstanding .tsu c).find? (fun (z : OpRef × Op) => z.1.tag == tag.val && z.2.jobCommand) = some y → 
      Completes (.jobcmdDone handle gen epoch tag code v late) s fun t =>
        t.todo = s.todo ++ [⟨y.1, code, v, late.toNat, 0, [], false⟩]) ∧
  (∀ (handle : BitVec 16) (gen : Byte) (epoch : Word) (c : Nat) (b : Bool) (q : BitVec 20) (s : State),
      Maps s → FrameFor s handle gen epoch c → 
      Completes (.shadowOn none handle gen epoch b q) s fun t =>
        (t.slot c).shadow = (if b then 1 else 2) ∧ (t.slot c).partner = q.toNat ∧ (b = true → t.bt .tsu .slotState 4 c = true)) ∧
  (∀ (handle : BitVec 16) (gen : Byte) (epoch : Word) (c : Nat) (r : BitVec 20) (s : State),
      Maps s → FrameFor s handle gen epoch c → (s.slot c).shadow = 1 → 
      Completes (.shadowOff none handle gen epoch true r) s fun t =>
        (t.slot c).shadow = 0 ∧ t.bt .tsu .slotState 4 c = false ∧ t.fd .tsu .slotJob 19 0 c = r.toNat) ∧
  (∀ (handle : BitVec 16) (gen : Byte) (epoch : Word) (c : Nat) (q : BitVec 16) (coll : Bool) (s : State),
      Maps s → FrameFor s handle gen epoch c → 
      Completes (.mismatch handle gen epoch q coll) s fun t =>
        t.bt .tsu .hltStat 1 = true) ∧
  (∀ (handle : BitVec 16) (gen : Byte) (epoch : Word) (c : Nat) (coll last : Bool) (q : BitVec 16) (i : Fin 4) (bs : List Byte) (h : ResHold) (s : State),
      Maps s → FrameFor s handle gen epoch c → (s.slot c).results.find? (fun (y : ResHold) => y.coll == coll && y.seq == q.toNat && (s.holdOp c y).isSome) = some h → i.val < h.shapes.length → (mget (fun _ => (([] : List Byte), false)) h.got i.val).2 = false → 
      Completes (.resultFrame handle gen epoch coll q i last bs) s fun t =>
        (t.slot c).results = (s.slot c).results.map fun (y : ResHold) => if y = h then { h with got := mset (fun _ => ([], false)) h.got i.val ((mget (fun _ => ([], false)) h.got i.val).1 ++ bs, last) } else y) ∧
  (∀ (handle : BitVec 16) (gen : Byte) (epoch : Word) (c : Nat) (coll last : Bool) (q : BitVec 16) (i : Fin 4) (bs : List Byte) (h : ResHold) (s : State),
      Maps s → FrameFor s handle gen epoch c → (s.slot c).results.find? (fun (y : ResHold) => y.coll == coll && y.seq == q.toNat && (s.holdOp c y).isSome) = some h → i.val < h.shapes.length → (mget (fun _ => (([] : List Byte), false)) h.got i.val).2 = false → 
      Completes (.scanResult handle gen epoch coll q i last bs) s fun t =>
        (t.slot c).results = (s.slot c).results.map fun (y : ResHold) => if y = h then { h with got := mset (fun _ => ([], false)) h.got i.val ((mget (fun _ => ([], false)) h.got i.val).1 ++ bs, last) } else y)

/-- The instants at which a slot changes state -/
def Obligations.TicksOfASlot : Prop :=
  (∀ (c : Fin 16) (f : HT) (s : State),
      Maps s → s.fenced = false → s.slotSt c = 6 → (s.slot c).relTick = some f → (s.slot c).balanced = true → 
      Completes (.releaseTick c) s fun t =>
        t.slotSt c = 0) ∧
  (∀ (c : Fin 16) (s : State),
      Maps s → s.fenced = false → s.slotSt c = 6 → (s.slot c).relTick = none → 
      Completes (.releaseAtTimeout c) s fun t =>
        t.slotSt c = 0) ∧
  (∀ (c : Fin 16) (y : PendLaunch) (ys : List PendLaunch) (s : State),
      Maps s → s.fenced = false → s.slotSt c = 1 → (s.slot c).launches = y :: ys → y.void = false → (s.slot c).replanDue = none → 
      Completes (.launchInstant (.slot c)) s fun t =>
        t.slotSt c = 2 ∧ (t.slot c).launches = ys ∧ t.bt .tsu .slotStat 0 c = true) ∧
  (∀ (c : Fin 16) (y : PendLaunch) (ys : List PendLaunch) (s : State),
      Maps s → s.fenced = false → s.slotSt c = 3 → (s.slot c).launches = y :: ys → y.void = false → y.gate = true → (s.slot c).replanDue = none → (s.slot c).phases = [] → (s.slot c).runAt = [] → 
      Completes (.launchInstant (.slot c)) s fun t =>
        t.slotSt c = (if s.bt .tsu .slotState 6 c then 5 else 2) ∧ (t.slot c).launches = ys) ∧
  (∀ (c m : Fin 16) (tk : HT) (r : BitVec 20) (e : Nat) (ps : List (HT × Nat × Nat × Nat)) (s : State),
      Maps s → s.fenced = false → s.slotSt c ≠ 3 → (s.slot c).phases = (tk, m.val, r.toNat, e) :: ps → 
      Completes (.phaseTick (.slot c)) s fun t =>
        t.fd .tsu .slotState 11 8 c = m.val ∧ t.fd .tsu .slotJob 19 0 c = r.toNat ∧ (∀ p ∈ (t.slot c).phases, p ∈ ps)) ∧
  (∀ (c : Fin 16) (s : State),
      Maps s → s.slotSt c = 3 → 
      Completes (.phaseTick (.slot c)) s fun t =>
        (t.slot c).phases = (s.slot c).phases ∧ t.slotSt c = 3) ∧
  (∀ (c : Fin 16) (tk : HT) (ts : List HT) (s : State),
      Maps s → s.fenced = false → (s.slot c).replayAt = tk :: ts → s.slotSt c = 2 ∨ s.slotSt c = 3 ∨ s.slotSt c = 4 → 
      Completes (.tRReached (.slot c)) s fun t =>
        t.slotSt c = 5 ∧ (t.slot c).replayAt = ts)

/-- Frames to a member pass a leaf or pod root -/
def Obligations.FramesARelayPassesOn : Prop :=
  (∀ (q : RelayTo) (handle : BitVec 16) (gen : Byte) (epoch : Word) (l : HT) (floor : BitVec 4) (pre : Word) (s : State),
      Maps s → RelayFor s handle gen epoch → 
      Completes (.armAck (some q) handle gen epoch l floor pre) s fun t =>
        PassesOn q 0x11 s t) ∧
  (∀ (q : RelayTo) (handle : BitVec 16) (gen : Byte) (epoch : Word) (d : Fin 2) (s : State),
      Maps s → RelayFor s handle gen epoch → 
      Completes (.replan (some q) handle gen epoch d) s fun t =>
        PassesOn q 0x31 s t) ∧
  (∀ (q : RelayTo) (handle : BitVec 16) (gen : Byte) (epoch : Word) (tk : HT) (m : Fin 16) (r : BitVec 20) (s : State),
      Maps s → RelayFor s handle gen epoch → 
      Completes (.phaseFrame (some q) handle gen epoch tk m r) s fun t =>
        PassesOn q 0x30 s t) ∧
  (∀ (q : RelayTo) (handle : BitVec 16) (gen : Byte) (epoch : Word) (b : Bool) (n : BitVec 20) (s : State),
      Maps s → RelayFor s handle gen epoch → 
      Completes (.shadowOn (some q) handle gen epoch b n) s fun t =>
        PassesOn q 0x8B s t) ∧
  (∀ (q : RelayTo) (handle : BitVec 16) (gen : Byte) (epoch : Word) (b : Bool) (r : BitVec 20) (s : State),
      Maps s → RelayFor s handle gen epoch → 
      Completes (.shadowOff (some q) handle gen epoch b r) s fun t =>
        PassesOn q 0x8C s t)

/-- Requests are held for ordered action and then acted on. Choices of the model: a frame sent names its addressee, log entry 38 -/
def Obligations.RequestsHeldAtAJobRoot : Prop :=
  (∀ (origin l : HT) (node root rank leaf : BitVec 20) (handle : BitVec 16) (gen : Byte) (b : Bool) (s : State),
      Maps s → root.toNat = s.node .dist → after (s.holdUntil origin) (s.ht .dist) = true → 
      Completes (.armReq origin node root handle gen rank l leaf b) s fun t =>
        t.held = s.held ++ [⟨origin, node.toNat, .armReq handle.toNat gen.toNat rank.toNat l leaf.toNat b⟩]) ∧
  (∀ (origin : HT) (node rank : BitVec 20) (handle : BitVec 16) (gen : Byte) (k : Nat) (s : State),
      Maps s → s.jobOfHandle handle.toNat = some k → after (s.holdUntil origin) (s.ht .dist) = true → 
      Completes (.releaseReq origin node handle gen rank) s fun t =>
        t.held = s.held ++ [⟨origin, node.toNat, .releaseReq handle.toNat gen.toNat rank.toNat⟩]) ∧
  (∀ (origin e : HT) (node : BitVec 20) (handle w : BitVec 16) (span : Byte) (b : Bool) (ranks : List (BitVec 20)) (s : State),
      Maps s → after (s.holdUntil origin) (s.ht .dist) = true → s.aLeafActs = false → 
      Completes (.rampReq origin node handle e w span b ranks) s fun t =>
        t.held = s.held ++ [⟨origin, node.toNat, .rampReq handle.toNat e w.toNat span.toNat b (ranks.map BitVec.toNat)⟩]) ∧
  (∀ (origin e : HT) (node : BitVec 20) (handle w : BitVec 16) (span : Byte) (b : Bool) (ranks : List (BitVec 20)) (s : State),
      Maps s → s.aLeafActs = true → 
      Completes (.rampReq origin node handle e w span b ranks) s fun t =>
        t.held = s.held ∧ (t.dist.sent.any fun (y : Sent) => y.dest == .twin && y.frame.ty == 0x50 && y.frame.origin == origin) = true) ∧
  (∀ (origin : HT) (src node : BitVec 20) (cause : Fin 6) (dies : List (BitVec 20)) (s : State),
      Maps s → after (s.holdUntil origin) (s.ht .dist) = true → s.jobs.any (fun kv => kv.2.state ≠ 0) = true → s.tier = 1 ∨ s.posOf node.toNat = none → 
      Completes (.dead origin src node cause dies) s fun t =>
        t.held.getLast? = some ⟨origin, src.toNat, .dead node.toNat cause.val⟩) ∧
  (∀ (origin : HT) (src leaf twin : BitVec 20) (s : State),
      Maps s → after (s.holdUntil origin) (s.ht .dist) = true → 
      Completes (.leafLost origin src leaf twin) s fun t =>
        t.held = s.held ++ [⟨origin, src.toNat, .leafLost leaf.toNat (some twin.toNat)⟩]) ∧
  (∀ (origin : HT) (node : BitVec 20) (handle : BitVec 16) (gen : Byte) (epoch : Word) (op sub tag : Nat) (v l : DWord) (k : Nat) (tg : Fin 8) (s : State),
      Maps s → after (s.holdUntil origin) (s.ht .dist) = true → s.jobOfHandle handle.toNat = some k → tg.val = tag → 
      Completes (.jobcmd origin node handle gen epoch op sub v l tg) s fun t =>
        t.held = s.held ++ [⟨origin, node.toNat, .jobCmd handle.toNat gen.toNat epoch.toNat op sub v.toNat l tag⟩]) ∧
  (∀ (s : State),
      Maps s → s.held ≠ [] → 
      Completes (.orderHoldRelease) s fun t =>
        ∃ h ∈ s.held, (∀ y ∈ s.held, y.before h = false) ∧ t.held = s.held.erase h) ∧
  (∀ (handle : BitVec 16) (h : Rise) (s : State),
      Maps s → s.ledger.rises.find? (fun (y : Rise) => y.handle == handle.toNat && !y.fixed) = some h → 
      Completes (.rampHoldLapse handle) s fun t =>
        t.ledger.rises = s.ledger.rises.filter fun (y : Rise) => y.fixed || y.handle ≠ handle.toNat) ∧
  (∀ (k : Fin 1024) (s : State),
      Maps s → (s.job k).state = 1 → (s.job k).matched.length ≠ (s.job k).n → 
      Completes (.armTimeout k) s fun t =>
        (t.job k).state = 0 ∧ t.bt .dist .plnStat 0 = true)

/-- Offers, fixes and confirmations of a planned launch. Choices of the model: a frame sent names its addressee, log entry 38 -/
def Obligations.RampPlanningOfALaunch : Prop :=
  (∀ (handle : BitVec 16) (leaf : BitVec 20) (l : HT) (k : Nat) (y : Planning) (s : State),
      Maps s → s.jobOfHandle handle.toNat = some k → (s.job k).planning = some y → (y.leaves.any fun (z : Nat × List Nat) => z.1 == leaf.toNat) = true → y.round = 0 → (y.offers.any fun (z : Nat × HT) => z.1 == leaf.toNat) = false → y.offers.length + 1 < y.leaves.length → 
      Completes (.rampOffer handle leaf (.inl l)) s fun t =>
        (t.job k).planning = some { y with offers := y.offers ++ [(leaf.toNat, l)] }) ∧
  (∀ (handle : BitVec 16) (leaf : BitVec 20) (code : Code) (k : Nat) (y : Planning) (s : State),
      Maps s → s.jobOfHandle handle.toNat = some k → (s.job k).planning = some y → (y.leaves.any fun (z : Nat × List Nat) => z.1 == leaf.toNat) = true → 
      Completes (.rampOffer handle leaf (.inr code)) s fun t =>
        (t.job k).planning = none) ∧
  (∀ (handle : BitVec 16) (l : HT) (r : RampJob) (s : State),
      Maps s → s.aLeafActs = false → (s.ledger.jobs.find? (fun (y : Nat × RampJob) => y.1 == handle.toNat)).map (·.2) = some r → (s.rampOfferFrom handle.toNat r l).2.map (fun (y : HT × List (Nat × Nat)) => y.1) = some l → 
      Completes (.rampFix handle l) s fun t =>
        (t.dist.sent.any fun (y : Sent) => y.dest == .jobRoot handle.toNat && y.frame.ty == 0x53 && y.frame.fields == [handle.toNat, l.toNat]) = true ∧
        ∀ y ∈ t.ledger.rises, y.handle = handle.toNat → y.fixed = true) ∧
  (∀ (handle : BitVec 16) (leaf : BitVec 20) (l : HT) (pre : List (Nat × Nat)) (k : Nat) (y : Planning) (o : OpRef) (s : State),
      Maps s → s.jobOfHandle handle.toNat = some k → (s.job k).planning = some y → y.round ≠ 0 → y.confirmed.contains leaf.toNat = false → (y.leaves.any fun (z : Nat × List Nat) => z.1 == leaf.toNat) = true → y.confirmed.length + 1 = y.leaves.length → (y.offers.all fun (z : Nat × HT) => z.2 == l) = true → y.op = some o → 
      Completes (.rampConfirm handle leaf l pre) s fun t =>
        (t.job k).planning = none ∧ (t.job k).planned = l ∧ t.todo = s.todo ++ [⟨o, .ok, l, 0, 0, [], false⟩])

/-- Launches, phases, gates and forwarded commands at the job root. Choices of the model: a timed row brings hall time forward to its instant, log entry 5; a frame sent names its addressee, log entry 38 -/
def Obligations.LaunchesAndCommandsAtAJobRoot : Prop :=
  (∀ (origin : HT) (node : BitVec 20) (handle : BitVec 16) (gen : Byte) (epoch : Word) (k sub : Nat) (v l : DWord) (tag : Fin 8) (s : State),
      Maps s → JobAtRoot s handle gen epoch k → after (s.holdUntil origin) (s.ht .dist) = false → s.holdUntil origin ≠ s.ht .dist → s.held.all (fun y => y.cmdOf != some handle.toNat) = true → (s.job k).state = 2 ∨ (s.job k).state = 3 → noSign l (s.ht .dist) = false → after (ceilTick l) (s.ht .dist) = true → 
      Completes (.jobcmd origin node handle gen epoch 0x35 sub v l tag) s fun t =>
        (t.job k).launches = (s.job k).launches ++ [{ at_ := ceilTick l, req := some (.member node.toNat tag), late := 0 }]) ∧
  (∀ (origin : HT) (node : BitVec 20) (handle : BitVec 16) (gen : Byte) (epoch : Word) (op sub : Nat) (v l : DWord) (tag : Fin 8) (k : Nat) (s : State),
      Maps s → after (s.holdUntil origin) (s.ht .dist) = false → s.holdUntil origin ≠ s.ht .dist → s.held.all (fun y => y.cmdOf != some handle.toNat) = true → s.jobOfHandle handle.toNat = some k → (s.job k).gen = gen.toNat → (s.job k).epoch ≠ epoch.toNat → 
      Completes (.jobcmd origin node handle gen epoch op sub v l tag) s fun t =>
        t.jobs = s.jobs ∧ t.fd .dist .mbrCnt 15 0 = min 65535 (s.fd .dist .mbrCnt 15 0 + 1) ∧
        (t.dist.sent.any fun (y : Sent) => y.dest == .node node.toNat && y.frame.ty == 0x41 && y.frame.fields == [tag.val, Code.epoch.num, 0, 0]) = true) ∧
  (∀ (k : Fin 1024) (y : LaunchRoot) (ys : List LaunchRoot) (s : State),
      Maps s → (s.job k).launches = y :: ys → (s.job k).phases = [] → (s.job k).replanAt = false → y.ends = false → (s.job k).state = 2 ∨ (s.job k).state = 4 → 
      Completes (.launchInstant (.root k)) s fun t =>
        (t.job k).state = (if (s.job k).state = 4 ∧ (s.job k).greplay then 6 else 3) ∧ (t.job k).launches = ys) ∧
  (∀ (k : Fin 1024) (y : PhaseRoot) (ys : List PhaseRoot) (s : State),
      Maps s → (s.job k).phases = y :: ys → (s.job k).state ≠ 4 → atOrAfter (s.ht .dist) y.tick = true → 
      Completes (.phaseTick (.root k)) s fun t =>
        (t.job k).map = y.map ∧ (t.job k).words = y.words) ∧
  (∀ (origin : HT) (handle : BitVec 16) (gen : Byte) (epoch : Word) (k : Nat) (v : DWord) (q : BitVec 16) (n : Byte) (g : GateRoot) (s : State),
      Maps s → JobAtRoot s handle gen epoch k → (s.job k).gate = some g → g.seq = q.toNat → g.n = n.toNat → g.count + 1 < (s.job k).live.length → 
      Completes (.gateFrame origin handle gen epoch v q n) s fun t =>
        (t.job k).gate.map (fun (y : GateRoot) => (y.count, y.or_, y.and_)) = some (g.count + 1, g.or_ ||| v, g.and_ &&& v)) ∧
  (∀ (origin : HT) (handle : BitVec 16) (gen : Byte) (epoch : Word) (k : Nat) (v : DWord) (q : BitVec 16) (g : GateRoot) (s : State),
      Maps s → JobAtRoot s handle gen epoch k → (s.job k).gate = some g → g.seq = q.toNat → g.n = 0 → (s.job k).live.length ≤ g.count + 1 → 
      Completes (.gateFrame origin handle gen epoch v q 0) s fun t =>
        (t.job k).gate = none ∧ (t.job k).resultSeq = ((s.job k).resultSeq + 1) % 65536) ∧
  (∀ (handle : BitVec 16) (gen : Byte) (epoch n : Word) (a b : DWord) (q : BitVec 16) (s : State),
      Maps s → s.jobOfHandle handle.toNat = none → s.knows handle.toNat gen.toNat epoch.toNat = true → ((s.voidOld handle.toNat epoch.toNat).gateParts.any fun (y : GatePart) => y.handle == handle.toNat) = false → n.toNat < s.expected handle.toNat → 
      Completes (.gatePart handle gen epoch a b n q) s fun t =>
        t.gateParts = (s.voidOld handle.toNat epoch.toNat).gateParts ++ [⟨handle.toNat, gen.toNat, epoch.toNat, q.toNat, n.toNat, a, b⟩]) ∧
  (∀ (k : Fin 1024) (ms : List (BitVec 20)) (g : GateRoot) (h : HT) (s : State),
      Maps s → (s.job k).gate = some g → g.first = some h → 
      Completes (.gateDeadline k ms) s fun t =>
        t.bt .dist .plnStat 1 = true) ∧
  (∀ (k : Fin 1024) (r : ReplayRoot) (s : State),
      Maps s → (s.job k).replay = some r → (s.job k).state ≠ 0 → (s.job k).state ≠ 7 → 
      Completes (.tRReached (.root k)) s fun t =>
        (t.job k).state = 6 ∧ (t.job k).gateSeq = r.gateSeq ∧ (t.job k).replay = none)

/-- Contributions, partials, spills and grants of the combiner. Choices of the model: a frame sent names its addressee, log entry 38 -/
def Obligations.CombinerInputsAndSpills : Prop :=
  (∀ (origin : HT) (handle q : BitVec 16) (gen : Byte) (epoch : Word) (coll : Bool) (i : Fin 4) (shape : Word) (ns f : Byte) (sp : DWord) (rank : BitVec 20) (es : List DWord) (last check : Bool) (s : State),
      Maps s → s.knows handle.toNat gen.toNat epoch.toNat = true → (s.voidOld handle.toNat epoch.toNat).instOpen (⟨handle.toNat, gen.toNat, epoch.toNat, q.toNat, coll, i.val⟩ : InstKey) = true → ((s.voidOld handle.toNat epoch.toNat).insts.any fun (y : Inst) => y.isKey (⟨handle.toNat, gen.toNat, epoch.toNat, q.toNat, coll, i.val⟩ : InstKey)) = false → s.fd .dist .cmbCfg 31 16 (combTile handle.toNat) = 0 → b2n last < s.expected handle.toNat → 
      Completes (.contribFrame origin handle gen epoch q coll i shape ns sp rank f es last check) s fun t =>
        t.insts.map (fun (y : Inst) => (y.isKey (⟨handle.toNat, gen.toNat, epoch.toNat, q.toNat, coll, i.val⟩ : InstKey), y.done)) = (s.voidOld handle.toNat epoch.toNat).insts.map (fun (y : Inst) => (y.isKey (⟨handle.toNat, gen.toNat, epoch.toNat, q.toNat, coll, i.val⟩ : InstKey), y.done)) ++ [(true, b2n last)]) ∧
  (∀ (origin : HT) (handle q : BitVec 16) (gen : Byte) (epoch : Word) (coll : Bool) (i : Fin 4) (shape : Word) (ns f : Byte) (sp : DWord) (rank : BitVec 20) (es : List DWord) (last check : Bool) (s : State),
      Maps s → s.viaTwin handle.toNat = true → 
      Completes (.contribFrame origin handle gen epoch q coll i shape ns sp rank f es last check) s fun t =>
        t.insts = s.insts ∧ t.dist.sent.getLast?.map (fun (y : Sent) => (y.dest, y.frame.ty, y.frame.origin)) = some (.twin, 0x01, origin)) ∧
  (∀ (handle q : BitVec 16) (gen : Byte) (epoch : Word) (coll : Bool) (i : Fin 4) (shape : Word) (ns f : Byte) (sp : DWord) (a b : Bool) (es : List WElem) (n : BitVec 20) (last check : Bool) (s : State),
      Maps s → s.knows handle.toNat gen.toNat epoch.toNat = true → (s.voidOld handle.toNat epoch.toNat).instOpen (⟨handle.toNat, gen.toNat, epoch.toNat, q.toNat, coll, i.val⟩ : InstKey) = true → ((s.voidOld handle.toNat epoch.toNat).insts.any fun (y : Inst) => y.isKey (⟨handle.toNat, gen.toNat, epoch.toNat, q.toNat, coll, i.val⟩ : InstKey)) = false → (if last then n.toNat else 0) < s.expected handle.toNat → 
      Completes (.partialFrame handle gen epoch q coll i shape ns sp a b f es n last check) s fun t =>
        t.insts.map (fun (y : Inst) => (y.isKey (⟨handle.toNat, gen.toNat, epoch.toNat, q.toNat, coll, i.val⟩ : InstKey), y.done)) = (s.voidOld handle.toNat epoch.toNat).insts.map (fun (y : Inst) => (y.isKey (⟨handle.toNat, gen.toNat, epoch.toNat, q.toNat, coll, i.val⟩ : InstKey), y.done)) ++ [(true, if last then n.toNat else 0)]) ∧
  (∀ (port : Fin 4) (handle q : BitVec 16) (gen : Byte) (epoch : Word) (coll : Bool) (i : Fin 4) (shape : Word) (ns f : Byte) (sp : DWord) (rank n : BitVec 20) (es : List DWord) (check : Bool) (s : State),
      Maps s → s.bt .tsu .cmbCfg 0 = true → s.fenced = false → s.spilled = none → 
      Completes (.spillIn port handle gen epoch q coll i shape ns sp rank f es false n check) s fun t =>
        t.spilled.map (fun (y : Inst × HT) => (y.1.isKey (⟨handle.toNat, gen.toNat, epoch.toNat, q.toNat, coll, i.val⟩ : InstKey), y.1.gen, y.1.epoch, y.2)) = some (true, gen.toNat, epoch.toNat, s.ht .tsu)) ∧
  (∀ (node : BitVec 20) (handle q : BitVec 16) (gen : Byte) (epoch : Word) (coll : Bool) (i : Fin 4) (b : Bool) (f : Byte) (es : List WElem) (check : Bool) (y : Inst) (s : State),
      Maps s → s.knows handle.toNat gen.toNat epoch.toNat = true → s.insts.find? (fun (z : Inst) => z.isKey (⟨handle.toNat, gen.toNat, epoch.toNat, q.toNat, coll, i.val⟩ : InstKey) && z.spill.isSome) = some y → 
      Completes (.spillOut node handle gen epoch q coll i .ok b false f es false check) s fun t =>
        t.insts = s.insts.map fun (z : Inst) => if z = y then { y with red := (es.zipIdx).foldl (fun (r : Red) (w : WElem × Nat) => r.absorbW (f.toNat + w.2) w.1) { y.red with poison := y.red.poison || b } } else z) ∧
  (∀ (ti : Fin 8) (check : Bool) (y : Inst × HT) (s : State),
      Maps s → s.spilled = some y → 
      Completes (.spillTimeout .tsu ti check) s fun t =>
        t.spilled = none) ∧
  (∀ (ti : Fin 8) (check : Bool) (y : Inst) (s : State),
      Maps s → s.insts.find? (fun (z : Inst) => z.tile == ti.val && z.spill.isSome) = some y → 
      Completes (.spillTimeout .dist ti check) s fun t =>
        t.bt .dist .cmbStat 4 ti = true) ∧
  (∀ (ti : Fin 8) (check : Bool) (y : Inst) (s : State),
      Maps s → s.groupsUsed ti < s.fd .dist .cmbStatus 7 0 ti → s.insts.find? (fun (z : Inst) => z.tile == ti.val && !z.granted && !z.ready && z.spill.isNone) = some y → y.done < s.expected y.handle → 
      Completes (.queueGrant ti check) s fun t =>
        t.insts = s.insts.map fun (z : Inst) => if z = y then { y with granted := true, red := y.waiting.foldl joinRed y.red, waiting := [] } else z)

/-- Suspicion, death, eviction and release of a node at its detector. Choices of the model: a frame sent names its addressee, log entry 38 -/
def Obligations.VerdictsOfADetector : Prop :=
  (∀ (pos : Fin 512) (s : State),
      Maps s → (s.nodeSt pos).state = 0 → 
      Completes (.suspectTimeout pos) s fun t =>
        (t.nodeSt pos).state = 1) ∧
  (∀ (pos : Fin 512) (s : State),
      Maps s → (s.nodeSt pos).state = 1 → (s.nodeSt pos).confirmed = false → (s.nodeSt pos).twinConfirmed = false → 
      Completes (.confirmTimeout pos) s fun t =>
        (t.nodeSt pos).confirmed = true) ∧
  (∀ (pos : Fin 512) (s : State),
      Maps s → (s.nodeSt pos).state = 1 → (s.nodeSt pos).confirmed = false → (s.nodeSt pos).twinConfirmed = true → s.decides pos = true → 
      Completes (.confirmTimeout pos) s fun t =>
        (t.nodeSt pos).state = 2) ∧
  (∀ (pos : Fin 512) (s : State),
      Maps s → (s.nodeSt pos).state = 1 → (if pos.val = twinPos then s.noParent else !s.twinUp) = true → 
      Completes (.onesideTimeout pos) s fun t =>
        (t.nodeSt pos).state = 2 ∧ (t.nodeSt pos).cause = 2) ∧
  (∀ (node : BitVec 20) (since : HT) (pos : Nat) (s : State),
      Maps s → s.posOf node.toNat = some pos → (s.nodeSt pos).state = 0 → 
      Completes (.suspect node since) s fun t =>
        (t.nodeSt pos).state = 1 ∧ (t.nodeSt pos).twinSince = some since) ∧
  (∀ (node : BitVec 20) (pos : Nat) (s : State),
      Maps s → s.posOf node.toNat = some pos → 
      Completes (.confirm node true) s fun t =>
        (t.nodeSt pos).twinSince = none) ∧
  (∀ (node : BitVec 20) (pos : Nat) (s : State),
      Maps s → s.posOf node.toNat = some pos → (s.nodeSt pos).state = 0 → 
      Completes (.suspectRpt node) s fun t =>
        (t.nodeSt pos).state = 1 ∧ (t.nodeSt pos).rpt = true) ∧
  (∀ (node : BitVec 20) (pos : Nat) (s : State),
      Maps s → s.posOf node.toNat = some pos → (s.nodeSt pos).state ≠ 2 → 
      Completes (.evictReq node) s fun t =>
        (t.nodeSt pos).state = 2 ∧ (t.nodeSt pos).cause = 3) ∧
  (∀ (node : BitVec 20) (pos : Nat) (s : State),
      Maps s → s.posOf node.toNat = some pos → (s.unfenceNode pos).1 = .ok → 
      Completes (.unfenceReq node) s fun t =>
        (t.nodeSt pos).state = 0) ∧
  (∀ (src : Src) (pos : Fin 512) (s : State),
      Maps s → s.permits .dist src (some 16) true = true → s.dist.unlocked.contains src.cls = true → (s.nodeSt pos).state ≠ 2 → 
      Completes (.mbrFenceFence src pos) s fun t =>
        (t.nodeSt pos).state = 2 ∧ (t.nodeSt pos).cause = 4) ∧
  (∀ (src : Src) (pos : Fin 512) (s : State),
      Maps s → s.permits .dist src (some 16) true = true → s.dist.unlocked.contains src.cls = true → (s.unfenceNode pos).1 = .ok → 
      Completes (.mbrFenceUnfence src pos) s fun t =>
        (t.nodeSt pos).state = 0) ∧
  (∀ (n : Fin 256) (b : Bool) (s : State),
      Maps s → s.tier = 1 → (s.nodeSt (s.posOfPort n)).state = 2 → 
      Completes (.fstate n b) s fun t =>
        ((s.portsOfPos (s.posOfPort n)).all fun q => s.portState .dist q != 6 || t.dist.sent.any fun (y : Sent) => y.dest == .port q && y.frame.cls == 2 && y.frame.ty == 0x83) = true) ∧
  (∀ (node : BitVec 20) (bin : Fin 32) (b : Bool) (pos : Nat) (s : State),
      Maps s → s.posOf node.toNat = some pos → 
      Completes (.condsusp node bin b) s fun t =>
        (t.nodeSt pos).cond.testBit bin = !b)

/-- Membership at the job root, and the fence of a TSU. Choices of the model: a frame sent names its addressee, log entry 38 -/
def Obligations.MembershipOfJobsAndTheTsuFence : Prop :=
  (∀ (k : Fin 1024) (h : HT) (m : Mirror) (ys : List (HT × Mirror)) (s : State),
      Maps s → (s.job k).mirrors = (h, m) :: ys → (match m with | .advance _ _ mv => !mv | .move => false | .commit _ => true) = true → 
      Completes (.mirrorAck (.ack k)) s fun t =>
        (t.job k).mirrors = ys) ∧
  (∀ (c : JobCopy) (s : State),
      Maps s → c.state ≠ 0 → c.moved = false → 
      Completes (.mirrorAck (.job c)) s fun t =>
        t.copies = s.copies.filter (fun (y : JobCopy) => y.handle ≠ c.handle) ++ [c]) ∧
  (∀ (c : JobCopy) (s : State),
      Maps s → c.state = 0 → 
      Completes (.mirrorAck (.job c)) s fun t =>
        t.copies = s.copies.filter (fun (y : JobCopy) => y.handle ≠ c.handle)) ∧
  (∀ (r : JRec) (s : State),
      Maps s → 
      Completes (.mirrorAck (.record r)) s fun t =>
        t.dist.jnl.count = s.dist.jnl.count + 1 ∧ t.dist.jnl.recs.getLast? = some { r with num := s.dist.jnl.count }) ∧
  (∀ (l : Ledger) (s : State),
      Maps s → 
      Completes (.mirrorAck (.ledger l)) s fun t =>
        t = { s with ledger := l }) ∧
  (∀ (k : Fin 1024) (h : HT) (cause node : Nat) (mv : Bool) (ys : List (HT × Mirror)) (s : State),
      Maps s → (s.job k).mirrors = (h, .advance cause node mv) :: ys → 
      Completes (.mirrorTimeout k) s fun t =>
        (t.job k).mirrors = ys ∧ t.bt .dist .mbrStat 5 = true) ∧
  (∀ (node : BitVec 20) (s : State),
      Maps s → s.jobsOf node.toNat ≠ [] → 
      Completes (.pathLost node) s fun t =>
        ∀ y ∈ s.jobsOf node.toNat, (t.job y.1).moveDomain = true) ∧
  (∀ (handle : BitVec 16) (gen : Byte) (epoch : Word) (k : Nat) (node : BitVec 20) (q : BitVec 16) (coll : Bool) (d : BitVec 128) (s : State),
      Maps s → JobAtRoot s handle gen epoch k → ((s.job k).shadows.all fun (y : Shadow) => y.theirs.all fun (d : Nat × Bool × Nat) => !(d.1 == q.toNat && d.2.1 == coll)) = true → 
      Completes (.digest handle gen epoch node q coll true d) s fun t =>
        (t.job k).shadows = (s.job k).shadows.map fun (y : Shadow) => if y.node = node.toNat then { y with own := (q.toNat, coll, d.toNat) :: y.own.take 15 } else y) ∧
  (∀ (handle : BitVec 16) (gen : Byte) (epoch : Word) (k : Nat) (node : BitVec 20) (q : BitVec 16) (coll : Bool) (d : BitVec 128) (y : Shadow) (s : State),
      Maps s → JobAtRoot s handle gen epoch k → (s.job k).shadows = [y] → y.node = node.toNat → y.on = true → y.frozen = false → y.judged.contains (q.toNat, coll) = false → y.theirs = [(q.toNat, coll, d.toNat)] → 
      Completes (.digest handle gen epoch node q coll true d) s fun t =>
        (t.job k).shadows.map (·.count) = [y.count + 1]) ∧
  (∀ (n : Nat) (s : State),
      Maps s → 2 ≤ s.tier → 
      Completes (.frPeriod n) s fun t =>
        t.rd .dist .mbrFrFail = 0) ∧
  (∀ (s : State),
      Maps s → s.fenced = false → 
      Completes (.fence) s fun t =>
        t.fenced = true ∧ t.fd .tsu .hltStatus 30 28 = 1) ∧
  (∀ (h : HT) (s : State),
      Maps s → s.fenced = false → s.domainHeard 0 = some h → 
      Completes (.selfFence) s fun t =>
        t.fenced = true ∧ t.fd .tsu .hltStatus 30 28 = 2) ∧
  (∀ (s : State),
      Maps s → s.fenced = true → 
      Completes (.unfence) s fun t =>
        t.fenced = false ∧ ∀ c : Fin 16, t.slotSt c = 0) ∧
  (∀ (src : Src) (v a b c : Word) (s : State),
      Maps s → s.permits .tsu src (some 10) true = true → mget (fun _ => none) s.sentRes (4 * src.cls.num) = some a → mget (fun _ => none) s.sentRes (4 * src.cls.num + 1) = some b → mget (fun _ => none) s.sentRes (4 * src.cls.num + 2) = some c → (a, b, c, v) ≠ (s.rd .tsu .hltSentExp 0 0, s.rd .tsu .hltSentExp 0 1, s.rd .tsu .hltSentExp 0 2, s.rd .tsu .hltSentExp 0 3) → 
      Completes (.hltSentRes3 src v) s fun t =>
        t.bt .tsu .hltStat 2 = true ∧ mget (fun _ => none) t.sentRes (4 * src.cls.num) = none) ∧
  (∀ (src : Src) (m : Word) (b : Fin 32) (s : State),
      Maps s → s.permits .tsu src (some 10) true = true → s.tsu.unlocked.contains src.cls = true → m.getLsbD b = true → 
      Completes (.hltBinClr src m) s fun t =>
        t.rd .tsu .hltBin b = 0 ∧ t.bt .tsu .hltCondsusp b = false)

/-- A checkpoint at the members and at the job root. Choices of the model: a frame sent names its addressee, log entry 38 -/
def Obligations.CheckpointsAtMemberAndRoot : Prop :=
  (∀ (handle : BitVec 16) (gen : Byte) (epoch : Word) (c : Nat) (slot : Fin 32) (l : HT) (b w : Word) (n : BitVec 16) (y : OpRef × Op) (s : State),
      Maps s → FrameFor s handle gen epoch c → (s.snapOp c slot.val) = some y → 
      Completes (.openEpoch .tsu handle gen epoch slot l b w n) s fun t =>
        (t.slot c).snap.map (fun (e : MemberEpoch) => (e.slot, e.wofs, e.wlen, e.b, e.base)) = some (slot.val, w.toNat, n.toNat, b.toNat, l)) ∧
  (∀ (handle : BitVec 16) (gen : Byte) (epoch : Word) (c : Nat) (slot : Fin 32) (code : Code) (y : OpRef × Op) (s : State),
      Maps s → FrameFor s handle gen epoch c → (s.snapOp c slot.val) = some y → 
      Completes (.openRefuse handle gen epoch slot code) s fun t =>
        t.todo = s.todo ++ [⟨y.1, code, BitVec.ofNat 64 slot.val, 0, 0, [], false⟩]) ∧
  (∀ (handle : BitVec 16) (gen : Byte) (epoch : Word) (c : Nat) (slot : Fin 32) (y : OpRef × Op) (s : State),
      Maps s → FrameFor s handle gen epoch c → (s.snapOp c slot.val) = some y → 
      Completes (.commitMessage .tsu handle gen epoch slot) s fun t =>
        t.todo = s.todo ++ [⟨y.1, .ok, BitVec.ofNat 64 slot.val, 0, 0, [], false⟩]) ∧
  (∀ (handle : BitVec 16) (gen : Byte) (epoch : Word) (c : Nat) (slot : Fin 32) (code : Code) (y : OpRef × Op) (s : State),
      Maps s → FrameFor s handle gen epoch c → (s.snapOp c slot.val) = some y → 
      Completes (.discard .tsu handle gen epoch slot code) s fun t =>
        t.todo = s.todo ++ [⟨y.1, code, BitVec.ofNat 64 slot.val, 0, 0, [], false⟩]) ∧
  (∀ (handle : BitVec 16) (gen : Byte) (epoch : Word) (k : Nat) (node : BitVec 20) (slot : Fin 32) (b w : Word) (n : BitVec 16) (s : State),
      Maps s → JobAtRoot s handle gen epoch k → ((s.job k).live.all fun (y : Nat × Nat) => y.2 == node.toNat || (s.epochSlot k slot).asked.any fun z => z.1 == y.2) = false → 
      Completes (.snapReq handle gen epoch node slot b w n) s fun t =>
        (t.epochSlot k slot).asked = (s.epochSlot k slot).asked.filter (fun z => z.1 ≠ node.toNat) ++ [(node.toNat, (b.toNat, w.toNat, n.toNat))]) ∧
  (∀ (handle : BitVec 16) (gen : Byte) (epoch : Word) (k : Nat) (leaf : BitVec 20) (slot : Fin 32) (s : State),
      Maps s → JobAtRoot s handle gen epoch k → (s.epochSlot k slot).state = 2 → (s.epochSlot k slot).op ≠ none → (s.epochSlot k slot).prep.contains leaf.toNat = false → (s.epochSlot k slot).prep.length + 1 < s.leafCount k → 
      Completes (.prepared handle gen epoch leaf slot 0) s fun t =>
        (t.epochSlot k slot).prep = leaf.toNat :: (s.epochSlot k slot).prep) ∧
  (∀ (handle : BitVec 16) (gen : Byte) (epoch : Word) (k : Nat) (leaf : BitVec 20) (slot : Fin 32) (s : State),
      Maps s → JobAtRoot s handle gen epoch k → (s.epochSlot k slot).state = 2 → (s.epochSlot k slot).op ≠ none → (s.epochSlot k slot).prep.contains leaf.toNat = false → s.leafCount k ≤ (s.epochSlot k slot).prep.length + 1 → 
      Completes (.prepared handle gen epoch leaf slot 0) s fun t =>
        (t.epochSlot k slot).state = 3 ∧ (t.job k).mirrors = (s.job k).mirrors ++ [(s.ht .dist, .commit slot.val)]) ∧
  (∀ (handle : BitVec 16) (gen : Byte) (epoch : Word) (k : Nat) (leaf : BitVec 20) (n : Fin 4) (r : RebuildRoot) (s : State),
      Maps s → JobAtRoot s handle gen epoch k → (s.job k).rebuild = some r → r.got.contains leaf.toNat = false → r.got.length + 1 < r.need → 
      Completes (.rebuilt handle gen epoch leaf .ok n) s fun t =>
        (t.job k).rebuild = some { r with got := leaf.toNat :: r.got, most := max r.most n.val }) ∧
  (∀ (handle : BitVec 16) (gen : Byte) (epoch : Word) (k : Nat) (leaf : BitVec 20) (n : Fin 4) (r : RebuildRoot) (s : State),
      Maps s → JobAtRoot s handle gen epoch k → (s.job k).rebuild = some r → r.got.contains leaf.toNat = false → r.need ≤ r.got.length + 1 → after r.tr (s.ht .dist) = true → 
      Completes (.rebuilt handle gen epoch leaf .ok n) s fun t =>
        (t.job k).rebuild = none ∧ (t.job k).replay.map (fun (y : ReplayRoot) => (y.tr, y.op, y.most)) = some (r.tr, r.op, max r.most n.val)) ∧
  (∀ (port : Fin 4) (handle : BitVec 16) (gen : Byte) (epoch : Word) (c : Nat) (ad : BitVec 96) (off : Word) (bs : List Byte) (s : State),
      Maps s → FrameFor s handle gen epoch c → s.slotSt c ≠ 6 → 
      Completes (.bulkRestore port handle gen epoch ad off bs) s fun t =>
        t.hostBulk.map (fun (y : Delivered) => (y.port, y.frame.data, y.rxts)) = s.hostBulk.map (fun (y : Delivered) => (y.port, y.frame.data, y.rxts)) ++ [(port.val, bs, s.ht .tsu)]) ∧
  (∀ (port : Fin 4) (handle : BitVec 16) (gen : Byte) (epoch off : Word) (ad : BitVec 96) (bs : List Byte) (s : State),
      Maps s → 2 ≤ port.val → s.portState .tsu 0 = 6 → 
      Completes (.synd (.member port ad) handle gen epoch off bs) s fun t =>
        (t.tsu.sent.any fun (y : Sent) => y.dest == .port 0 && y.frame.cls == 6 && y.frame.ty == 4 && y.frame.data == bs) = true)

/-- The chains of a leaf. Choices of the model: a frame sent names its addressee, log entry 38 -/
def Obligations.ChainsOfALeaf : Prop :=
  (∀ (handle : BitVec 16) (gen : Byte) (epoch : Word) (k : Nat) (slot : Fin 32) (z : Nat) (v : ChainSlot) (l : HT) (b w : Word) (n : BitVec 16) (s : State),
      Maps s → LeafFor s handle gen epoch k → (z, v) ∈ s.chainsOf handle.toNat slot.val → v.state = 1 → 
      Completes (.openEpoch .dist handle gen epoch slot l b w n) s fun t =>
        (t.chain z).state = 2 ∧ (t.chain z).lOpen = l ∧ (t.chain z).b = b.toNat) ∧
  (∀ (c : ChainCopy) (s : State),
      Maps s → c.entries ≠ [] → (s.chainCtxs.any fun (y : Nat × ChainCtx) => y.1 == c.ctx) = false → (s.chain (32 * c.set.val + c.slot.val)).state = 0 → 
      Completes (.mirrorAck (.chain c)) s fun t =>
        t.chain (32 * c.set.val + c.slot.val) = { state := 1, ctx := c.ctx, entries := c.entries, freeMask := c.freeMask }) ∧
  (∀ (set : Fin 128) (slot : Fin 32) (s : State),
      Maps s → (s.chain (32 * set.val + slot.val)).state = 2 → (s.chain (32 * set.val + slot.val)).opened < (s.chain (32 * set.val + slot.val)).b → 
      Completes (.leafWindowOpen set slot) s fun t =>
        (t.chain (32 * set.val + slot.val)).opened = (s.chain (32 * set.val + slot.val)).opened + 1) ∧
  (∀ (set : Fin 128) (slot : Fin 32) (s : State),
      Maps s → (s.chain (32 * set.val + slot.val)).state = 2 ∨ (s.chain (32 * set.val + slot.val)).state = 4 → (s.chain (32 * set.val + slot.val)).closed < (s.chain (32 * set.val + slot.val)).b → 
      Completes (.leafWindowClose set slot) s fun t =>
        (t.chain (32 * set.val + slot.val)).closed = (s.chain (32 * set.val + slot.val)).closed + 1) ∧
  (∀ (handle : BitVec 16) (gen : Byte) (epoch : Word) (k : Nat) (n : Fin 256) (slot : Fin 32) (h : Fin 2) (block off : Word) (bs : List Byte) (z : Nat) (e : ChainEntry) (s : State),
      Maps s → LeafFor s handle gen epoch k → off.toNat % 4096 = 0 → off.toNat < 131072 → bs.length = 4096 → s.bulkTarget handle.toNat slot.val (n.val / 2) false = some (z, e) → block.toNat < (s.chain z).b → (s.chain z).absorbed.contains (e.pos, chunkOf block.toNat h off.toNat) = false → 
      Completes (.bulkData n handle gen epoch slot h block off bs) s fun t =>
        (t.chain z).absorbed.contains (e.pos, chunkOf block.toNat h off.toNat) = true) ∧
  (∀ (handle : BitVec 16) (gen : Byte) (epoch : Word) (k : Nat) (n : Fin 256) (slot : Fin 32) (h : Fin 2) (block off : Word) (bs : List Byte) (z : Nat) (e : ChainEntry) (s : State),
      Maps s → LeafFor s handle gen epoch k → off.toNat % 4096 = 0 → off.toNat < 131072 → bs.length = 4096 → s.bulkTarget handle.toNat slot.val (n.val / 2) true = some (z, e) → block.toNat < (s.chain z).b → (s.chain z).resent.contains (e.pos, chunkOf block.toNat h off.toNat) = false → 
      Completes (.bulkResend n handle gen epoch slot h block off bs) s fun t =>
        (t.chain z).resent.contains (e.pos, chunkOf block.toNat h off.toNat) = true) ∧
  (∀ (handle : BitVec 16) (gen : Byte) (epoch : Word) (k : Nat) (n : Fin 256) (slot : Fin 32) (h : Fin 2) (block : Word) (z : Nat) (e : ChainEntry) (s : State),
      Maps s → LeafFor s handle gen epoch k → s.bulkTarget handle.toNat slot.val (n.val / 2) false = some (z, e) → block.toNat < (s.chain z).b → (s.chain z).absorbed.contains (e.pos, chunkOf block.toNat h 0) = false → 
      Completes (.bulkZero n handle gen epoch slot h block) s fun t =>
        ∀ i : Fin 32, (t.chain z).absorbed.contains (e.pos, chunkOf block.toNat h (4096 * i)) = true) ∧
  (∀ (set : Fin 128) (slot : Fin 32) (g : Staged) (gs : List Staged) (s : State),
      Maps s → (s.chain (32 * set.val + slot.val)).staged = g :: gs → ((s.chainCtx (s.chain (32 * set.val + slot.val)).ctx).bind fun (y : ChainCtx) => y.rebuild) = none → 
      Completes (.slowPathMerge set slot) s fun t =>
        (t.chain (32 * set.val + slot.val)).staged = gs) ∧
  (∀ (set : Fin 128) (slot : Fin 32) (h : Fin 2) (handle : BitVec 16) (gen : Byte) (epoch : Word) (k : Nat) (block off : Word) (bs : List Byte) (s : State),
      Maps s → LeafFor s handle gen epoch k → off.toNat % 4096 = 0 → bs.length = 4096 → (s.chain (32 * set.val + slot.val)).state = 6 → s.chainHandle (32 * set.val + slot.val) = handle.toNat → ((s.chain (32 * set.val + slot.val)).synd.any fun (y : Nat × List Byte) => y.1 == chunkOf block.toNat h off.toNat) = false → ((s.chainCtx (s.chain (32 * set.val + slot.val)).ctx).bind fun (y : ChainCtx) => y.rebuild).map (fun (r : LeafRebuild) => decide (chunkOf block.toNat h off.toNat / 64 < r.window)) = some false → 
      Completes (.synd (.leaf set slot h block) handle gen epoch off bs) s fun t =>
        (t.chain (32 * set.val + slot.val)).synd = (chunkOf block.toNat h off.toNat, bs) :: (s.chain (32 * set.val + slot.val)).synd) ∧
  (∀ (handle : BitVec 16) (gen : Byte) (epoch : Word) (k : Nat) (slot : Fin 32) (z : Nat) (v : ChainSlot) (s : State),
      Maps s → LeafFor s handle gen epoch k → (z, v) ∈ s.chainsOf handle.toNat slot.val → ((s.chainsOf handle.toNat slot.val).all fun (y : Nat × ChainSlot) => decide (y.2.state < 4)) = true → v.state = 2 ∨ v.state = 3 → (s.missing v).isEmpty = false → 
      Completes (.prepare handle gen epoch slot) s fun t =>
        (t.chain z).prep = true) ∧
  (∀ (handle : BitVec 16) (slot : Fin 32) (z : Nat) (v : ChainSlot) (s : State),
      Maps s → (z, v) ∈ s.chainsOf handle.toNat slot.val → v.prep = true → 
      Completes (.prepareTimeout handle slot) s fun t =>
        (t.chain z).state = 0) ∧
  (∀ (handle : BitVec 16) (gen : Byte) (epoch : Word) (k : Nat) (slot : Fin 32) (z : Nat) (v : ChainSlot) (s : State),
      Maps s → LeafFor s handle gen epoch k → (z, v) ∈ s.chainsOf handle.toNat slot.val → v.state = 4 → 
      Completes (.commitMessage .dist handle gen epoch slot) s fun t =>
        (t.chain z).state = 5) ∧
  (∀ (handle : BitVec 16) (gen : Byte) (epoch : Word) (k : Nat) (slot : Fin 32) (z : Nat) (v : ChainSlot) (code : Code) (s : State),
      Maps s → LeafFor s handle gen epoch k → (z, v) ∈ s.chainsOf handle.toNat slot.val → 1 ≤ v.state → v.state ≤ 4 → 
      Completes (.discard .dist handle gen epoch slot code) s fun t =>
        (t.chain z).state = 0) ∧
  (∀ (handle : BitVec 16) (gen : Byte) (epoch m : Word) (ts : HT) (ps : List (BitVec 20 × BitVec 20)) (s : State),
      Maps s → (s.chainCtxs.any fun (y : Nat × ChainCtx) => y.2.handle == handle.toNat) = false → 
      Completes (.rebuildReq handle gen epoch m ts ps) s fun t =>
        (t.dist.sent.any fun (y : Sent) => y.dest == .jobRoot handle.toNat && y.frame.ty == 0x32 && y.frame.fields == [10, 0, 0]) = true) ∧
  (∀ (handle : BitVec 16) (gen : Byte) (epoch : Word) (k : Nat) (slot : Fin 32) (ts : HT) (r tg : BitVec 20) (z nd q : Nat) (v : ChainSlot) (s : State),
      Maps s → LeafFor s handle gen epoch k → (s.rankNodes.find? fun (y : Nat × Nat × Nat) => y.1 == handle.toNat && y.2.1 == r.toNat).map (fun (y : Nat × Nat × Nat) => y.2.2) = some nd → s.posOf nd = some q → (z, v) ∈ s.ctxSlots k slot → ((s.ctxSlots k slot).all fun (y : Nat × ChainSlot) => decide (((y.2.erased [(q, tg.toNat)]).filter fun (e : ChainEntry × Nat) => !e.1.mirror).length ≤ 1)) = true → v.state = 5 → ((v.erased [(q, tg.toNat)]).filter fun (y : ChainEntry × Nat) => !y.1.mirror).length = 1 → 
      Completes (.rebuildReq handle gen epoch (BitVec.ofNat 32 (2 ^ slot.val)) ts [(r, tg)]) s fun t =>
        (t.chain z).state = 6) ∧
  (∀ (handle : BitVec 16) (k z : Nat) (x : ChainCtx) (r : LeafRebuild) (v : ChainSlot) (ys : List (Nat × ChainSlot)) (s : State),
      Maps s → s.chainCtxs.find? (fun (y : Nat × ChainCtx) => y.2.handle == handle.toNat) = some (k, x) → x.rebuild = some r → (s.affected k r).filter (fun (y : Nat × ChainSlot) => y.2.state == 6) = (z, v) :: ys → r.window + 1 < v.b → (((z, v) :: ys).all fun (y : Nat × ChainSlot) => (s.newErasures y.2 r.erased).isEmpty) = true → 
      Completes (.rebuildWindow handle) s fun t =>
        ((t.chainCtx k).bind fun (y : ChainCtx) => y.rebuild).map (fun (y : LeafRebuild) => y.window) = some (r.window + 1)) ∧
  (∀ (handle : BitVec 16) (k z : Nat) (x : ChainCtx) (r : LeafRebuild) (v : ChainSlot) (ys : List (Nat × ChainSlot)) (s : State),
      Maps s → s.chainCtxs.find? (fun (y : Nat × ChainCtx) => y.2.handle == handle.toNat) = some (k, x) → x.rebuild = some r → (s.affected k r).filter (fun (y : Nat × ChainSlot) => y.2.state == 6) = (z, v) :: ys → v.b ≤ r.window → 
      Completes (.rebuildPrepTo handle) s fun t =>
        ((t.chainCtx k).bind fun (y : ChainCtx) => y.rebuild) = none)

/-- A word that spells no instruction, and a fetch outside the window, fault. Choices of the model: an instruction command is its issue, log entry 14 -/
def Obligations.FaultsOfAnIssuingContext : Prop :=
  (∀ (x : CtxRef) (w : Word) (s : State),
      Maps s → CanIssue s x 0 → (decodeWord x w).isSome = false → divides w = false ∨ DivideFree s x → 
      Completes (.illegal x w) s fun t =>
        t.cst x.eng x.ctx = 4 ∧ t.fd x.eng.part .ctxState 15 4 (ctxInst x.eng x.ctx) = 1 ∧ ((s.ctx x.eng x.ctx).fx = [] → t.pc x.eng x.ctx = s.pc x.eng x.ctx)) ∧
  (∀ (x : CtxRef) (w : Word) (s : State),
      Maps s → s.cst x.eng x.ctx = 3 → s.pc x.eng x.ctx < s.iwinSize x.eng x.ctx → (s.eng x.eng).badI.contains (s.iwinBase x.eng x.ctx + s.pc x.eng x.ctx) = false → (decodeWord x w).isSome = false → 
      Completes (.illegal x w) s fun t =>
        t.cst x.eng x.ctx = 4 ∧ t.fd x.eng.part .ctxState 15 4 (ctxInst x.eng x.ctx) = 1 ∧ ((s.ctx x.eng x.ctx).fx = [] → t.pc x.eng x.ctx = s.pc x.eng x.ctx)) ∧
  (∀ (x : CtxRef) (s : State),
      Maps s → s.cst x.eng x.ctx = 3 ∨ (s.cst x.eng x.ctx = 1 ∧ s.turnAt x.eng (s.cycleOf x) = some x.ctx.val) → s.iwinSize x.eng x.ctx ≤ s.pc x.eng x.ctx → 
      Completes (.ifetch x) s fun t =>
        t.cst x.eng x.ctx = 4 ∧ t.fd x.eng.part .ctxState 15 4 (ctxInst x.eng x.ctx) = 5 ∧ ((s.ctx x.eng x.ctx).fx = [] → t.pc x.eng x.ctx = s.pc x.eng x.ctx)) ∧
  (∀ (x : CtxRef) (s : State),
      Maps s → s.cst x.eng x.ctx = 3 ∨ (s.cst x.eng x.ctx = 1 ∧ s.turnAt x.eng (s.cycleOf x) = some x.ctx.val) → s.pc x.eng x.ctx < s.iwinSize x.eng x.ctx → (s.eng x.eng).badI.contains (s.iwinBase x.eng x.ctx + s.pc x.eng x.ctx) = true → s.cst x.eng x.ctx = 3 ∨ divides (mget (fun _ => 0) (s.eng x.eng).imem (s.iwinBase x.eng x.ctx + s.pc x.eng x.ctx)) = false ∨ DivideFree s x → 
      Completes (.ifetch x) s fun t =>
        t.cst x.eng x.ctx = 4 ∧ t.fd x.eng.part .ctxState 15 4 (ctxInst x.eng x.ctx) = 9 ∧ ((s.ctx x.eng x.ctx).fx = [] → t.pc x.eng x.ctx = s.pc x.eng x.ctx))

/-- Management frames, the mailbox and the test port access registers. Choices of the model: a frame sent names its addressee, log entry 38 -/
def Obligations.ManagementAccessesAndMailbox : Prop :=
  (∀ (port : Port) (tag : BitVec 16) (s : State),
      noMgmt port = false → s.permits port.part { cls := .link } (some 0) false = true → 
      Completes (.mgmtRead port (BitVec.ofNat 32 (addrOf port.part .sysUpdMask)) 0 tag) s fun t =>
        ((t.part port.part).sent.any fun (x : Sent) => x.dest == .port port.num && x.frame.cls == 5 && x.frame.ty == 3 &&
          x.frame.fields == [tag.toNat, 0, 1, (s.rd port.part .sysUpdMask).toNat]) = true) ∧
  (∀ (port : Port) (tag : BitVec 16) (v : Word) (s : State),
      noMgmt port = false → s.permits port.part { cls := .link } (some 0) true = true → 
      Completes (.mgmtWrite port (BitVec.ofNat 32 (addrOf port.part .sysUpdMask)) tag [v]) s fun t =>
        t.rd port.part .sysUpdMask = v) ∧
  (∀ (ti : Fin 8) (src : Src) (s : State),
      s.permits .dist src (some 20) true = true → s.bt .dist .tilMreqStatus 31 ti = false → s.fd .dist .tilMreqPort 8 0 ti < 274 → portTile (s.fd .dist .tilMreqPort 8 0 ti) = ti → s.fd .dist .tilMreqAddr 25 0 ti % 4 = 0 → s.portState .dist (s.fd .dist .tilMreqPort 8 0 ti) = 6 → 
      Completes (.tilMreqGo ti src) s fun t =>
        t.bt .dist .tilMreqStatus 31 ti = true ∧ (t.mreqs.map (·.1)).contains ti.val = true) ∧
  (∀ (port : Port) (tag : BitVec 16) (code : Code) (done : Fin 9) (q : Mreq) (s : State),
      port.part = .dist → (s.mreqs.find? fun (x : Nat × Mreq) => x.1 == portTile port.num && x.2.port == port.num && x.2.tag == tag.toNat) = some (portTile port.num, q) → 
      Completes (.rsp port tag code done []) s fun t =>
        t.rd .dist .tilMreqStatus (portTile port.num) = BitVec.ofNat 32 (16 * done.val + code.num)) ∧
  (∀ (ti : Fin 8) (s : State),
      s.bt .dist .tilMreqStatus 31 ti = true → 
      Completes (.mreqTimeout ti) s fun t =>
        t.rd .dist .tilMreqStatus ti = BitVec.ofNat 32 Code.busy.num) ∧
  (∀ (p : PartId) (v : Word) (s : State),
      s.permits p { cls := .debug } (some 0) true = true → 
      Completes (.wsRegacc p true (BitVec.ofNat 24 (addrOf p .sysUpdMask / 4)) v) s fun t =>
        t.rd p .sysUpdMask = v) ∧
  (∀ (p : PartId) (v : Word) (s : State),
      s.permits p { cls := .debug } (some 0) false = true → 
      Completes (.wsRegacc p false (BitVec.ofNat 24 (addrOf p .sysUpdMask / 4)) v) s fun t =>
        mget (fun _ => (0, 0)) (t.part p).resp (Cls.num .debug) = (0, s.rd p .sysUpdMask)) ∧
  (∀ (seven : Bool) (v : Word) (s : State),
      s.permits .dist { cls := .i3c, tile := mgmtTile seven } (some 0) true = true → 
      Completes (.i3cPrivateWrite seven (BitVec.ofNat 32 (addrOf .dist .sysUpdMask)) [v]) s fun t =>
        t.rd .dist .sysUpdMask = v ∧ mget (fun _ => 0) t.pkg.i3cAddr (mgmtTile seven) = addrOf .dist .sysUpdMask) ∧
  (∀ (seven : Bool) (s : State),
      s.permits .dist { cls := .i3c, tile := mgmtTile seven } (some 0) false = true → mget (fun _ => 0) s.pkg.i3cAddr (mgmtTile seven) = addrOf .dist .sysUpdMask → 
      Completes (.i3cPrivateRead seven 1) s fun t =>
        mget (fun _ => []) t.pkg.i3cData (mgmtTile seven) = [s.rd .dist .sysUpdMask] ∧
        mget (fun _ => 0) t.pkg.i3cAddr (mgmtTile seven) = addrOf .dist .sysUpdMask + 4)

/-- The package: supplies, heat, memory and boot -/
def Obligations.PackageSuppliesHeatAndBoot : Prop :=
  (∀ (seven : Bool) (s : State),
      Completes (.perstN seven) s fun t =>
        mget (fun _ => (0, 0)) t.dist.resp (if seven then Cls.host2.num else Cls.host.num) = (0, 0)) ∧
  (∀ (s : State),
      Completes (.supplyFault) s fun t =>
        t.pkg.pwrFlt = true ∧ ∀ n : Fin 274, t.portState .dist n = 0) ∧
  (∀ (s : State),
      Completes (.thermtrip) s fun t =>
        t.pkg.tripped = true ∧ ∀ n : Fin 274, t.portState .dist n = 0) ∧
  (∀ (f : Fuses) (oscIn norOk : Bool) (s : State),
      s.pkg.pwrFlt = true → s.pkg.tripped = false ∨ s.pkg.rstLow = true → 
      Completes (.heldResetRelease f oscIn norOk) s fun t =>
        t.pkg.pwrFlt = false ∧ t.node .dist = 8 * f.node.toNat ∧ t.lcState .dist = (s.part .dist).lcStore % 4) ∧
  (∀ (stks : BitVec 24) (s : State),
      Completes (.hbmTrained stks) s fun t =>
        t.hbm.trained = (List.range 24).filter (fun k => stks.getLsbD k) ∧ t.chains = []) ∧
  (∀ (s : State),
      s.fd .dist .hkpBoot 7 0 = 1 → 
      Completes (.bootRom none none none none) s fun t =>
        t.fd .dist .hkpBoot 7 0 = 0xEE ∧ t.pkg.image = s.pkg.image) ∧
  (∀ (b : BootImage) (s : State),
      s.fd .dist .hkpBoot 7 0 = 1 → s.imageValid b = true → 
      Completes (.bootRom none none none (some b)) s fun t =>
        t.fd .dist .hkpBoot 7 0 = 0x05 ∧ t.pkg.image = some (3, b.svn.toNat)) ∧
  (∀ (ti : Fin 8) (temp : Int) (s : State),
      Completes (.bandSample [(ti, temp)] []) s fun t =>
        t.fd .dist .tilStatus 31 29 ti = bandAt (s.fd .dist .tilStatus 31 29 ti) temp) ∧
  (∀ (p : PartId) (e : EngSel) (fail : Option (BitVec 16)) (s : State),
      s.lcState p = 0 ∨ s.lcState p = 3 → e.part = p → 
      Completes (.wsMbist p true fail) s fun t =>
        (t.eng e).imem = [] ∧ (t.eng e).dmem = [] ∧ (t.eng e).objs = [] ∧ (t.part p).mbist.getLsbD 30 = true) ∧
  (∀ (h : HbmAt) (s : State),
      s.fd .dist .hbmCfg 7 0 ≠ 0 → 
      Completes (.patrolScrub (some (h, false))) s fun t =>
        t.fd .dist .hbmEcnt 15 0 = min (s.fd .dist .hbmEcnt 15 0 + 1) 65535 ∧ t.bt .dist .hbmStat 0 = true ∧
        t.rd .dist .hbmLasterr = BitVec.ofNat 32 (2 ^ 26 * h.stack.val + 2 ^ 21 * h.ch.val + h.row.toNat))

/-- Mesh edges and housekeeping processors -/
def Obligations.MeshEdgesAndHousekeeping : Prop :=
  (∀ (ti u : Fin 8) (s : State),
      meshEdge ti u = true → s.bt .dist .tilStatus u ti = true → 
      Completes (.meshEdgeDown ti u) s fun t =>
        t.bt .dist .tilStatus u ti = false ∧ t.bt .dist .tilStatus ti u = false) ∧
  (∀ (ti u : Fin 8) (s : State),
      meshEdge ti u = true → 
      Completes (.meshEdgeUp ti u) s fun t =>
        t.bt .dist .tilStatus u ti = true ∧ t.bt .dist .tilStatus ti u = true ∧
        t.pkg.isolated.contains ti.val = false ∧ t.pkg.isolated.contains u.val = false) ∧
  (∀ (ti : Fin 8) (s : State),
      s.meshUp ti = 0 → 
      Completes (.meshIsolation ti) s fun t =>
        t.pkg.isolated.contains ti.val = true ∧ ∀ n : Fin 274, portTile n = ti.val → t.portState .dist n = 0) ∧
  (∀ (k : Nat) (s : State),
      s.hkpStandby = some k → s.firmware = true → 
      Completes (.hkpWatchdogExpiry) s fun t =>
        t.hkpActive = k ∧ t.bt .dist .hkpStat 2 = true ∧ t.bt .dist .hkpStatus (24 + k) = false) ∧
  (∀ (src : Src) (v : Word) (s : State),
      s.permits .dist src (some 19) true = true → src.cls = .hkp → src.tile = s.hkpActive → 
      Completes (.hkpKick src v) s fun t =>
        t.pkg.kicked = s.ht .dist) ∧
  (∀ (src : Src) (k : Nat) (s : State),
      s.permits .dist src (some 19) true = true → s.dist.unlocked.contains src.cls = true → s.hkpStandby = some k → s.firmware = true → 
      Completes (.hkpCtrlTakeover src) s fun t =>
        t.hkpActive = k) ∧
  (∀ (src : Src) (v : Word) (s : State),
      s.permits .dist src (some 19) true = true → 
      Completes (.hkpH2p3 src v) s fun t =>
        t.bt .dist .hkpStat 0 = true ∧ t.rd .dist .hkpH2p 0 3 = v ∧ t.pkg.hkpIrq = s.pkg.hkpIrq + 1) ∧
  (∀ (src : Src) (v : Word) (s : State),
      s.permits .dist src (some 19) true = true → 
      Completes (.hkpP2h3 src v) s fun t =>
        t.bt .dist .hkpStat 1 = true ∧ t.rd .dist .hkpP2h 0 3 = v)

/-- A step carries out the command at the front of the queue with the rest of the queue; with none it is one edge of each part's clock (a choice of the model, log entry 24) -/
def Obligations.StepTakesTheFrontCommand : Prop :=
  (∀ (c : Instr) (rest : List Instr) (s : State), step { s with pending := c :: rest } = exec c { s with pending := rest }) ∧
  (∀ s : State, s.pending = [] → step s = .next ((s.edge .tsu).edge .dist))

/-- What reset leaves. The build, the fuse and store values and the inner values are choices of the model (log entries 1, 26 and 27) -/
def Obligations.ResetValues : Prop :=
  (∀ p a, State.reset.rdA p a = resetAt p a) ∧ State.reset.pending = [] ∧
  (∀ p, State.reset.isOpen p = true ∧ State.reset.wiping p = true ∧ State.reset.ht p = 0) ∧
  (∀ (p : PartId) (c : Cls), State.reset.rd p .proWinRd 0 c.num = 0xFFFFFFFF ∧ State.reset.rd p .proWinWr 0 c.num = 0xFFFFFFFF) ∧
  (∀ (e : EngSel) (c : Fin 16), State.reset.cst e c = 0) ∧ (∀ c : Fin 16, State.reset.slotSt c = 0) ∧
  (∀ k, (State.reset.job k).state = 0 ∧ (State.reset.chain k).state = 0) ∧
  (∀ e i, (State.reset.obj e i).word = 0) ∧ (∀ n, (State.reset.wick n).state = 0) ∧ State.reset.tsu.jnl.recs = [] ∧ State.reset.dist.jnl.recs = []

/-- The state after reset meets the invariant -/
def Obligations.ResetMeetsTheInvariant : Prop :=
  Inv State.reset

/-- Every step keeps registers and memories canonical and the journal rings within their sizes -/
def Obligations.EveryStepKeepsTheInvariant : Prop :=
  ∀ s t : State, Inv s → step s = .next t → Inv t

/-- Every instruction word decodes to its instruction -/
def Obligations.DecodingAnEncodedInstruction : Prop :=
  ∀ (i : Instr) (w : Word), i.wf = true → encodeWord i = some w → ∃ x : CtxRef, decodeWord x w = some i

/-- No command touches the queue of waiting commands -/
def Obligations.CommandsLeaveTheQueue : Prop :=
  ∀ (c : Instr) (s : State), Completes c s fun t => t.pending = s.pending

/-- Only stores, RESULT, register writes, memory tests and resets change a memory of an engine -/
def Obligations.OnlyStoresChangeTheMemories : Prop :=
  ∀ (c : Instr) (s : State), c.writesMemory = false → c.writesRegister = false → c.resets = false →
    Completes c s fun t => ∀ e : EngSel, (∀ a, (t.eng e).byte a = (s.eng e).byte a) ∧ (t.eng e).imem = (s.eng e).imem

/-- Each unit's state is changed only by the commands of that unit -/
def Obligations.EachUnitChangedOnlyByItsCommands : Prop :=
  ∀ (c : Instr) (s : State), c.writesRegister = false → c.resets = false →
    Completes c s fun t =>
      (c.movesRequests = false → t.held = s.held ∧ t.ledger = s.ledger ∧ t.relays = s.relays ∧ t.rankNodes = s.rankNodes) ∧
      (c.combines = false → t.insts = s.insts ∧ t.gateParts = s.gateParts ∧ t.rotation = s.rotation ∧ t.spilled = s.spilled) ∧
      (c.stores = false → t.chains = s.chains ∧ t.chainCtxs = s.chainCtxs) ∧
      (c.detects = false → t.nodes = s.nodes) ∧
      (c.lights = false → t.wicks = s.wicks ∧ t.taper = s.taper) ∧
      (c.keeps = false → t.kc = s.kc) ∧
      (c.disciplines = false → t.osc = s.osc) ∧
      (c.leadsJobs = false → t.jobs = s.jobs ∧ t.armGens = s.armGens) ∧
      (c.movesSlots = false → t.slots = s.slots) ∧
      (c.tendsHbm = false → t.hbm = s.hbm) ∧
      (c.inTsu = true → t.dist = s.dist) ∧ (c.inDist = true → t.tsu = s.tsu)

/-- Accesses a window refuses, or that are not a whole aligned word, have no effect -/
def Obligations.RefusedAccessesHaveNoEffect : Prop :=
  (∀ (p : PartId) (src : Src) (addr b : Nat) (v : Word) (whole : Bool) (s : State), blockOfTarget (locate p (addr / 4 * 4)) = some b →
    ((s.rd p .proWinRd 0 src.cls.num).getLsbD b = false → (s.regRead p src addr whole).1 = .perm ∧
      (s.regRead p src addr whole).2.1 = 0 ∧ NoEffect p src.cls s (s.regRead p src addr whole).2.2) ∧
    ((s.rd p .proWinWr 0 src.cls.num).getLsbD b = false → (s.regWrite p src addr v whole).1 = .perm ∧
      NoEffect p src.cls s (s.regWrite p src addr v whole).2)) ∧
  (∀ (p : PartId) (src : Src) (addr : Nat) (v : Word) (whole : Bool) (s : State), whole = false ∨ addr % 4 ≠ 0 →
    (s.permits p src (blockOfTarget (locate p (addr / 4 * 4))) false = true → (s.regRead p src addr whole).1 = .range ∧
      NoEffect p src.cls s (s.regRead p src addr whole).2.2) ∧
    (s.permits p src (blockOfTarget (locate p (addr / 4 * 4))) true = true → (s.regWrite p src addr v whole).1 = .range ∧
      NoEffect p src.cls s (s.regWrite p src addr v whole).2)) ∧
  (∀ (p : PartId) (c : Cls), State.reset.rd p .proWinRd 0 c.num = 0xFFFFFFFF ∧ State.reset.rd p .proWinWr 0 c.num = 0xFFFFFFFF) ∧
  (∀ (p : PartId) (n : RegName) (i j : Nat), addrOf p n i j % 4 = 0)

/-- Read-only registers ignore writes, write-only registers read as zero -/
def Obligations.ReadOnlyAndWriteOnlyRegisters : Prop :=
  ∀ (p : PartId) (src : Src) (addr : Nat) (v : Word) (l : Loc) (s : State), addr % 4 = 0 → locate p addr = .reg l →
    ((row l.name).acc = .ro → s.permits p src (blockOfTarget (.reg l)) true = true → (s.regWrite p src addr v true).1 = .ok ∧
      { (s.regWrite p src addr v true).2 with tsu := s.tsu, dist := s.dist } = s ∧
      ∀ q a, (s.regWrite p src addr v true).2.rdA q a = s.rdA q a) ∧
    ((row l.name).acc = .wo → s.permits p src (blockOfTarget (.reg l)) false = true →
      (s.regRead p src addr true).1 = .ok ∧ (s.regRead p src addr true).2.1 = 0)
end

