-- ==== Sys2Proof/Laws/Word.lean ====
section
/-!
SUPPORT. Laws of the sparse maps: what is read after a write, and that every operation keeps the canonical form.
-/
namespace Sys2Proof

variable {α : Type}

theorem mget_mput_same (d : Nat → α) (m : List (Nat × α)) (k : Nat) (v : α) : mget d (mput m k v) k = v := by
  induction m with
  | nil => simp [mput, mget]
  | cons kv m ih =>
    obtain ⟨k', v'⟩ := kv
    simp only [mput]
    split
    · simp [mget]
    · split
      · simp [mget]
      · simp [mget, *]

theorem mget_mput_other (d : Nat → α) (m : List (Nat × α)) {k j : Nat} (v : α) (h : j ≠ k) :
    mget d (mput m k v) j = mget d m j := by
  induction m with
  | nil => simp [mput, mget, h]
  | cons kv m ih =>
    obtain ⟨k', v'⟩ := kv
    simp only [mput]
    split
    · simp [mget, h]
    · split
      · next h1 => subst h1; simp [mget, h]
      · simp [mget, ih]

theorem mget_filter_same (d : Nat → α) (m : List (Nat × α)) (k : Nat) : mget d (m.filter fun kv => kv.1 ≠ k) k = d k := by
  induction m with
  | nil => rfl
  | cons kv m ih =>
    by_cases h : kv.1 = k
    · simpa [h] using ih
    · simp only [List.filter_cons, ne_eq, h, not_false_eq_true, decide_true, if_true, mget]
      rw [if_neg (fun e => h e.symm)]; simpa using ih

theorem mget_filter_other (d : Nat → α) (m : List (Nat × α)) {k j : Nat} (h : j ≠ k) :
    mget d (m.filter fun kv => kv.1 ≠ k) j = mget d m j := by
  induction m with
  | nil => rfl
  | cons kv m ih =>
    obtain ⟨k', v'⟩ := kv
    by_cases h1 : k' = k
    · subst h1; simp only [List.filter_cons, ne_eq, not_true, decide_false, mget]; simpa [h] using ih
    · simp only [List.filter_cons, ne_eq, h1, not_false_eq_true, decide_true, if_true, mget]
      split
      · rfl
      · simpa using ih

variable [DecidableEq α]

/-- A key set to a value reads as that value, whatever the list. -/
@[simp] theorem mget_mset_same (d : Nat → α) (m : List (Nat × α)) (k : Nat) (v : α) : mget d (mset d m k v) k = v := by
  unfold mset
  split
  · next h => rw [mget_filter_same, h]
  · exact mget_mput_same d m k v

/-- Every other key reads as before. -/
theorem mget_mset_other (d : Nat → α) (m : List (Nat × α)) {k j : Nat} (v : α) (h : j ≠ k) :
    mget d (mset d m k v) j = mget d m j := by
  unfold mset
  split
  · exact mget_filter_other d m h
  · exact mget_mput_other d m v h

/-- Reading any key after a write. -/
theorem mget_mset (d : Nat → α) (m : List (Nat × α)) (k j : Nat) (v : α) :
    mget d (mset d m k v) j = if j = k then v else mget d m j := by
  split
  · next h => subst h; simp
  · next h => exact mget_mset_other d m v h

theorem mwfFrom_mono {d : Nat → α} {lo lo' : Nat} {m : List (Nat × α)} (h : lo' ≤ lo) (hm : mwfFrom d lo m = true) :
    mwfFrom d lo' m = true := by
  cases m with
  | nil => rfl
  | cons kv m =>
    obtain ⟨k, v⟩ := kv
    simp only [mwfFrom, Bool.and_eq_true, decide_eq_true_eq] at hm ⊢
    exact ⟨⟨by omega, hm.1.2⟩, hm.2⟩

theorem mwfFrom_filter {d : Nat → α} (q : Nat × α → Bool) {lo : Nat} {m : List (Nat × α)} (h : mwfFrom d lo m = true) :
    mwfFrom d lo (m.filter q) = true := by
  induction m generalizing lo with
  | nil => rfl
  | cons kv m ih =>
    obtain ⟨k, v⟩ := kv
    simp only [mwfFrom, Bool.and_eq_true, decide_eq_true_eq] at h
    rw [List.filter_cons]
    split
    · simp only [mwfFrom, Bool.and_eq_true, decide_eq_true_eq]
      exact ⟨h.1, ih h.2⟩
    · exact mwfFrom_mono (by omega) (ih h.2)

theorem mwfFrom_mput {d : Nat → α} {lo k : Nat} {v : α} (hk : lo ≤ k) (hv : v ≠ d k) {m : List (Nat × α)}
    (h : mwfFrom d lo m = true) : mwfFrom d lo (mput m k v) = true := by
  induction m generalizing lo with
  | nil => simp [mput, mwfFrom, hk, hv]
  | cons kv m ih =>
    obtain ⟨k', v'⟩ := kv
    simp only [mwfFrom, Bool.and_eq_true, decide_eq_true_eq] at h
    simp only [mput]
    split
    · next h1 =>
      simp only [mwfFrom, Bool.and_eq_true, decide_eq_true_eq]
      exact ⟨⟨hk, hv⟩, ⟨by omega, h.1.2⟩, h.2⟩
    · split
      · next h1 =>
        subst h1
        simp only [mwfFrom, Bool.and_eq_true, decide_eq_true_eq]
        exact ⟨⟨hk, hv⟩, h.2⟩
      · simp only [mwfFrom, Bool.and_eq_true, decide_eq_true_eq]
        exact ⟨h.1, ih (by omega) h.2⟩

/-- A write keeps the canonical form. -/
theorem mwf_mset {d : Nat → α} {m : List (Nat × α)} (k : Nat) (v : α) (h : mwf d m = true) : mwf d (mset d m k v) = true := by
  unfold mset
  split
  · exact mwfFrom_filter _ h
  · next hv => exact mwfFrom_mput (Nat.zero_le _) hv h

/-- Dropping a range of keys keeps the canonical form. -/
theorem mwf_mdrop {d : Nat → α} {m : List (Nat × α)} (lo hi : Nat) (h : mwf d m = true) : mwf d (mdrop lo hi m) = true :=
  mwfFrom_filter _ h

/-- The empty map is canonical. -/
@[simp] theorem mwf_nil (d : Nat → α) : mwf d [] = true := rfl

end Sys2Proof
end

