-- ==== Sys2Proof/Laws/State.lean ====
section
/-!
SUPPORT. Every field of the state under every plain update: what an update does not name reads as before.
-/
namespace Sys2Proof.Machine

/-! ### A part, and a register word of it -/

@[simp] theorem State.part_setPart_same (s : State) (p : PartId) (q : Part) : (s.setPart p q).part p = q := by cases p <;> rfl

theorem State.part_setPart_other (s : State) {p r : PartId} (q : Part) (h : r ≠ p) : (s.setPart p q).part r = s.part r := by
  cases p <;> cases r <;> first | rfl | exact absurd rfl h

@[simp] theorem State.part_mod_same (s : State) (p : PartId) (f : Part → Part) : (s.mod p f).part p = f (s.part p) := by
  cases p <;> rfl

theorem State.part_mod_other (s : State) {p r : PartId} (f : Part → Part) (h : r ≠ p) : (s.mod p f).part r = s.part r :=
  s.part_setPart_other _ h

@[simp] theorem State.setPart_part (s : State) (p : PartId) : s.setPart p (s.part p) = s := by cases p <;> rfl

@[simp] theorem State.setPart_osc (s : State) (p : PartId) (q : Part) : (s.setPart p q).osc = s.osc := by cases p <;> rfl
@[simp] theorem State.setPart_kc (s : State) (p : PartId) (q : Part) : (s.setPart p q).kc = s.kc := by cases p <;> rfl
@[simp] theorem State.setPart_engines (s : State) (p : PartId) (q : Part) : (s.setPart p q).engines = s.engines := by cases p <;> rfl
@[simp] theorem State.setPart_wicks (s : State) (p : PartId) (q : Part) : (s.setPart p q).wicks = s.wicks := by cases p <;> rfl
@[simp] theorem State.setPart_taper (s : State) (p : PartId) (q : Part) : (s.setPart p q).taper = s.taper := by cases p <;> rfl
@[simp] theorem State.setPart_slots (s : State) (p : PartId) (q : Part) : (s.setPart p q).slots = s.slots := by cases p <;> rfl
@[simp] theorem State.setPart_chans (s : State) (p : PartId) (q : Part) : (s.setPart p q).chans = s.chans := by cases p <;> rfl
@[simp] theorem State.setPart_jobs (s : State) (p : PartId) (q : Part) : (s.setPart p q).jobs = s.jobs := by cases p <;> rfl
@[simp] theorem State.setPart_copies (s : State) (p : PartId) (q : Part) : (s.setPart p q).copies = s.copies := by cases p <;> rfl
@[simp] theorem State.setPart_armGens (s : State) (p : PartId) (q : Part) : (s.setPart p q).armGens = s.armGens := by cases p <;> rfl
@[simp] theorem State.setPart_held (s : State) (p : PartId) (q : Part) : (s.setPart p q).held = s.held := by cases p <;> rfl
@[simp] theorem State.setPart_ledger (s : State) (p : PartId) (q : Part) : (s.setPart p q).ledger = s.ledger := by cases p <;> rfl
@[simp] theorem State.setPart_relays (s : State) (p : PartId) (q : Part) : (s.setPart p q).relays = s.relays := by cases p <;> rfl
@[simp] theorem State.setPart_gateParts (s : State) (p : PartId) (q : Part) : (s.setPart p q).gateParts = s.gateParts := by cases p <;> rfl
@[simp] theorem State.setPart_nodes (s : State) (p : PartId) (q : Part) : (s.setPart p q).nodes = s.nodes := by cases p <;> rfl
@[simp] theorem State.setPart_sentRes (s : State) (p : PartId) (q : Part) : (s.setPart p q).sentRes = s.sentRes := by cases p <;> rfl
@[simp] theorem State.setPart_insts (s : State) (p : PartId) (q : Part) : (s.setPart p q).insts = s.insts := by cases p <;> rfl
@[simp] theorem State.setPart_rotation (s : State) (p : PartId) (q : Part) : (s.setPart p q).rotation = s.rotation := by cases p <;> rfl
@[simp] theorem State.setPart_spilled (s : State) (p : PartId) (q : Part) : (s.setPart p q).spilled = s.spilled := by cases p <;> rfl
@[simp] theorem State.setPart_chains (s : State) (p : PartId) (q : Part) : (s.setPart p q).chains = s.chains := by cases p <;> rfl
@[simp] theorem State.setPart_chainCtxs (s : State) (p : PartId) (q : Part) : (s.setPart p q).chainCtxs = s.chainCtxs := by cases p <;> rfl
@[simp] theorem State.setPart_rankNodes (s : State) (p : PartId) (q : Part) : (s.setPart p q).rankNodes = s.rankNodes := by cases p <;> rfl
@[simp] theorem State.setPart_hbm (s : State) (p : PartId) (q : Part) : (s.setPart p q).hbm = s.hbm := by cases p <;> rfl
@[simp] theorem State.setPart_fabricRd (s : State) (p : PartId) (q : Part) : (s.setPart p q).fabricRd = s.fabricRd := by cases p <;> rfl
@[simp] theorem State.setPart_hostBulk (s : State) (p : PartId) (q : Part) : (s.setPart p q).hostBulk = s.hostBulk := by cases p <;> rfl
@[simp] theorem State.setPart_mreqs (s : State) (p : PartId) (q : Part) : (s.setPart p q).mreqs = s.mreqs := by cases p <;> rfl
@[simp] theorem State.setPart_jnlFetch (s : State) (p : PartId) (q : Part) : (s.setPart p q).jnlFetch = s.jnlFetch := by cases p <;> rfl
@[simp] theorem State.setPart_jnlReady (s : State) (p : PartId) (q : Part) : (s.setPart p q).jnlReady = s.jnlReady := by cases p <;> rfl
@[simp] theorem State.setPart_jnlBad (s : State) (p : PartId) (q : Part) : (s.setPart p q).jnlBad = s.jnlBad := by cases p <;> rfl
@[simp] theorem State.setPart_pkg (s : State) (p : PartId) (q : Part) : (s.setPart p q).pkg = s.pkg := by cases p <;> rfl
@[simp] theorem State.setPart_macroBad (s : State) (p : PartId) (q : Part) : (s.setPart p q).macroBad = s.macroBad := by cases p <;> rfl
@[simp] theorem State.setPart_todo (s : State) (p : PartId) (q : Part) : (s.setPart p q).todo = s.todo := by cases p <;> rfl
@[simp] theorem State.setPart_freeIdx (s : State) (p : PartId) (q : Part) : (s.setPart p q).freeIdx = s.freeIdx := by cases p <;> rfl
@[simp] theorem State.setPart_pending (s : State) (p : PartId) (q : Part) : (s.setPart p q).pending = s.pending := by cases p <;> rfl

@[simp] theorem State.mod_osc (s : State) (p : PartId) (f : Part → Part) : (s.mod p f).osc = s.osc := by cases p <;> rfl
@[simp] theorem State.mod_kc (s : State) (p : PartId) (f : Part → Part) : (s.mod p f).kc = s.kc := by cases p <;> rfl
@[simp] theorem State.mod_engines (s : State) (p : PartId) (f : Part → Part) : (s.mod p f).engines = s.engines := by cases p <;> rfl
@[simp] theorem State.mod_wicks (s : State) (p : PartId) (f : Part → Part) : (s.mod p f).wicks = s.wicks := by cases p <;> rfl
@[simp] theorem State.mod_taper (s : State) (p : PartId) (f : Part → Part) : (s.mod p f).taper = s.taper := by cases p <;> rfl
@[simp] theorem State.mod_slots (s : State) (p : PartId) (f : Part → Part) : (s.mod p f).slots = s.slots := by cases p <;> rfl
@[simp] theorem State.mod_chans (s : State) (p : PartId) (f : Part → Part) : (s.mod p f).chans = s.chans := by cases p <;> rfl
@[simp] theorem State.mod_jobs (s : State) (p : PartId) (f : Part → Part) : (s.mod p f).jobs = s.jobs := by cases p <;> rfl
@[simp] theorem State.mod_copies (s : State) (p : PartId) (f : Part → Part) : (s.mod p f).copies = s.copies := by cases p <;> rfl
@[simp] theorem State.mod_armGens (s : State) (p : PartId) (f : Part → Part) : (s.mod p f).armGens = s.armGens := by cases p <;> rfl
@[simp] theorem State.mod_held (s : State) (p : PartId) (f : Part → Part) : (s.mod p f).held = s.held := by cases p <;> rfl
@[simp] theorem State.mod_ledger (s : State) (p : PartId) (f : Part → Part) : (s.mod p f).ledger = s.ledger := by cases p <;> rfl
@[simp] theorem State.mod_relays (s : State) (p : PartId) (f : Part → Part) : (s.mod p f).relays = s.relays := by cases p <;> rfl
@[simp] theorem State.mod_gateParts (s : State) (p : PartId) (f : Part → Part) : (s.mod p f).gateParts = s.gateParts := by cases p <;> rfl
@[simp] theorem State.mod_nodes (s : State) (p : PartId) (f : Part → Part) : (s.mod p f).nodes = s.nodes := by cases p <;> rfl
@[simp] theorem State.mod_sentRes (s : State) (p : PartId) (f : Part → Part) : (s.mod p f).sentRes = s.sentRes := by cases p <;> rfl
@[simp] theorem State.mod_insts (s : State) (p : PartId) (f : Part → Part) : (s.mod p f).insts = s.insts := by cases p <;> rfl
@[simp] theorem State.mod_rotation (s : State) (p : PartId) (f : Part → Part) : (s.mod p f).rotation = s.rotation := by cases p <;> rfl
@[simp] theorem State.mod_spilled (s : State) (p : PartId) (f : Part → Part) : (s.mod p f).spilled = s.spilled := by cases p <;> rfl
@[simp] theorem State.mod_chains (s : State) (p : PartId) (f : Part → Part) : (s.mod p f).chains = s.chains := by cases p <;> rfl
@[simp] theorem State.mod_chainCtxs (s : State) (p : PartId) (f : Part → Part) : (s.mod p f).chainCtxs = s.chainCtxs := by cases p <;> rfl
@[simp] theorem State.mod_rankNodes (s : State) (p : PartId) (f : Part → Part) : (s.mod p f).rankNodes = s.rankNodes := by cases p <;> rfl
@[simp] theorem State.mod_hbm (s : State) (p : PartId) (f : Part → Part) : (s.mod p f).hbm = s.hbm := by cases p <;> rfl
@[simp] theorem State.mod_fabricRd (s : State) (p : PartId) (f : Part → Part) : (s.mod p f).fabricRd = s.fabricRd := by cases p <;> rfl
@[simp] theorem State.mod_hostBulk (s : State) (p : PartId) (f : Part → Part) : (s.mod p f).hostBulk = s.hostBulk := by cases p <;> rfl
@[simp] theorem State.mod_mreqs (s : State) (p : PartId) (f : Part → Part) : (s.mod p f).mreqs = s.mreqs := by cases p <;> rfl
@[simp] theorem State.mod_jnlFetch (s : State) (p : PartId) (f : Part → Part) : (s.mod p f).jnlFetch = s.jnlFetch := by cases p <;> rfl
@[simp] theorem State.mod_jnlReady (s : State) (p : PartId) (f : Part → Part) : (s.mod p f).jnlReady = s.jnlReady := by cases p <;> rfl
@[simp] theorem State.mod_jnlBad (s : State) (p : PartId) (f : Part → Part) : (s.mod p f).jnlBad = s.jnlBad := by cases p <;> rfl
@[simp] theorem State.mod_pkg (s : State) (p : PartId) (f : Part → Part) : (s.mod p f).pkg = s.pkg := by cases p <;> rfl
@[simp] theorem State.mod_macroBad (s : State) (p : PartId) (f : Part → Part) : (s.mod p f).macroBad = s.macroBad := by cases p <;> rfl
@[simp] theorem State.mod_todo (s : State) (p : PartId) (f : Part → Part) : (s.mod p f).todo = s.todo := by cases p <;> rfl
@[simp] theorem State.mod_freeIdx (s : State) (p : PartId) (f : Part → Part) : (s.mod p f).freeIdx = s.freeIdx := by cases p <;> rfl
@[simp] theorem State.mod_pending (s : State) (p : PartId) (f : Part → Part) : (s.mod p f).pending = s.pending := by cases p <;> rfl

@[simp] theorem State.wrA_osc (s : State) (p : PartId) (a : Nat) (v : Word) : (s.wrA p a v).osc = s.osc := by unfold State.wrA; split <;> simp
@[simp] theorem State.wrA_kc (s : State) (p : PartId) (a : Nat) (v : Word) : (s.wrA p a v).kc = s.kc := by unfold State.wrA; split <;> simp
@[simp] theorem State.wrA_engines (s : State) (p : PartId) (a : Nat) (v : Word) : (s.wrA p a v).engines = s.engines := by unfold State.wrA; split <;> simp
@[simp] theorem State.wrA_wicks (s : State) (p : PartId) (a : Nat) (v : Word) : (s.wrA p a v).wicks = s.wicks := by unfold State.wrA; split <;> simp
@[simp] theorem State.wrA_taper (s : State) (p : PartId) (a : Nat) (v : Word) : (s.wrA p a v).taper = s.taper := by unfold State.wrA; split <;> simp
@[simp] theorem State.wrA_slots (s : State) (p : PartId) (a : Nat) (v : Word) : (s.wrA p a v).slots = s.slots := by unfold State.wrA; split <;> simp
@[simp] theorem State.wrA_chans (s : State) (p : PartId) (a : Nat) (v : Word) : (s.wrA p a v).chans = s.chans := by unfold State.wrA; split <;> simp
@[simp] theorem State.wrA_jobs (s : State) (p : PartId) (a : Nat) (v : Word) : (s.wrA p a v).jobs = s.jobs := by unfold State.wrA; split <;> simp
@[simp] theorem State.wrA_copies (s : State) (p : PartId) (a : Nat) (v : Word) : (s.wrA p a v).copies = s.copies := by unfold State.wrA; split <;> simp
@[simp] theorem State.wrA_armGens (s : State) (p : PartId) (a : Nat) (v : Word) : (s.wrA p a v).armGens = s.armGens := by unfold State.wrA; split <;> simp
@[simp] theorem State.wrA_held (s : State) (p : PartId) (a : Nat) (v : Word) : (s.wrA p a v).held = s.held := by unfold State.wrA; split <;> simp
@[simp] theorem State.wrA_ledger (s : State) (p : PartId) (a : Nat) (v : Word) : (s.wrA p a v).ledger = s.ledger := by unfold State.wrA; split <;> simp
@[simp] theorem State.wrA_relays (s : State) (p : PartId) (a : Nat) (v : Word) : (s.wrA p a v).relays = s.relays := by unfold State.wrA; split <;> simp
@[simp] theorem State.wrA_gateParts (s : State) (p : PartId) (a : Nat) (v : Word) : (s.wrA p a v).gateParts = s.gateParts := by unfold State.wrA; split <;> simp
@[simp] theorem State.wrA_nodes (s : State) (p : PartId) (a : Nat) (v : Word) : (s.wrA p a v).nodes = s.nodes := by unfold State.wrA; split <;> simp
@[simp] theorem State.wrA_sentRes (s : State) (p : PartId) (a : Nat) (v : Word) : (s.wrA p a v).sentRes = s.sentRes := by unfold State.wrA; split <;> simp
@[simp] theorem State.wrA_insts (s : State) (p : PartId) (a : Nat) (v : Word) : (s.wrA p a v).insts = s.insts := by unfold State.wrA; split <;> simp
@[simp] theorem State.wrA_rotation (s : State) (p : PartId) (a : Nat) (v : Word) : (s.wrA p a v).rotation = s.rotation := by unfold State.wrA; split <;> simp
@[simp] theorem State.wrA_spilled (s : State) (p : PartId) (a : Nat) (v : Word) : (s.wrA p a v).spilled = s.spilled := by unfold State.wrA; split <;> simp
@[simp] theorem State.wrA_chains (s : State) (p : PartId) (a : Nat) (v : Word) : (s.wrA p a v).chains = s.chains := by unfold State.wrA; split <;> simp
@[simp] theorem State.wrA_chainCtxs (s : State) (p : PartId) (a : Nat) (v : Word) : (s.wrA p a v).chainCtxs = s.chainCtxs := by unfold State.wrA; split <;> simp
@[simp] theorem State.wrA_rankNodes (s : State) (p : PartId) (a : Nat) (v : Word) : (s.wrA p a v).rankNodes = s.rankNodes := by unfold State.wrA; split <;> simp
@[simp] theorem State.wrA_hbm (s : State) (p : PartId) (a : Nat) (v : Word) : (s.wrA p a v).hbm = s.hbm := by unfold State.wrA; split <;> simp
@[simp] theorem State.wrA_fabricRd (s : State) (p : PartId) (a : Nat) (v : Word) : (s.wrA p a v).fabricRd = s.fabricRd := by unfold State.wrA; split <;> simp
@[simp] theorem State.wrA_hostBulk (s : State) (p : PartId) (a : Nat) (v : Word) : (s.wrA p a v).hostBulk = s.hostBulk := by unfold State.wrA; split <;> simp
@[simp] theorem State.wrA_mreqs (s : State) (p : PartId) (a : Nat) (v : Word) : (s.wrA p a v).mreqs = s.mreqs := by unfold State.wrA; split <;> simp
@[simp] theorem State.wrA_jnlFetch (s : State) (p : PartId) (a : Nat) (v : Word) : (s.wrA p a v).jnlFetch = s.jnlFetch := by unfold State.wrA; split <;> simp
@[simp] theorem State.wrA_jnlReady (s : State) (p : PartId) (a : Nat) (v : Word) : (s.wrA p a v).jnlReady = s.jnlReady := by unfold State.wrA; split <;> simp
@[simp] theorem State.wrA_jnlBad (s : State) (p : PartId) (a : Nat) (v : Word) : (s.wrA p a v).jnlBad = s.jnlBad := by unfold State.wrA; split <;> simp
@[simp] theorem State.wrA_pkg (s : State) (p : PartId) (a : Nat) (v : Word) : (s.wrA p a v).pkg = s.pkg := by unfold State.wrA; split <;> simp
@[simp] theorem State.wrA_macroBad (s : State) (p : PartId) (a : Nat) (v : Word) : (s.wrA p a v).macroBad = s.macroBad := by unfold State.wrA; split <;> simp
@[simp] theorem State.wrA_todo (s : State) (p : PartId) (a : Nat) (v : Word) : (s.wrA p a v).todo = s.todo := by unfold State.wrA; split <;> simp
@[simp] theorem State.wrA_freeIdx (s : State) (p : PartId) (a : Nat) (v : Word) : (s.wrA p a v).freeIdx = s.freeIdx := by unfold State.wrA; split <;> simp
@[simp] theorem State.wrA_pending (s : State) (p : PartId) (a : Nat) (v : Word) : (s.wrA p a v).pending = s.pending := by unfold State.wrA; split <;> simp

@[simp] theorem State.wr_osc (s : State) (p : PartId) (n : RegName) (v : Word) (i j : Nat) : (s.wr p n v i j).osc = s.osc := by simp [State.wr]
@[simp] theorem State.wr_kc (s : State) (p : PartId) (n : RegName) (v : Word) (i j : Nat) : (s.wr p n v i j).kc = s.kc := by simp [State.wr]
@[simp] theorem State.wr_engines (s : State) (p : PartId) (n : RegName) (v : Word) (i j : Nat) : (s.wr p n v i j).engines = s.engines := by simp [State.wr]
@[simp] theorem State.wr_wicks (s : State) (p : PartId) (n : RegName) (v : Word) (i j : Nat) : (s.wr p n v i j).wicks = s.wicks := by simp [State.wr]
@[simp] theorem State.wr_taper (s : State) (p : PartId) (n : RegName) (v : Word) (i j : Nat) : (s.wr p n v i j).taper = s.taper := by simp [State.wr]
@[simp] theorem State.wr_slots (s : State) (p : PartId) (n : RegName) (v : Word) (i j : Nat) : (s.wr p n v i j).slots = s.slots := by simp [State.wr]
@[simp] theorem State.wr_chans (s : State) (p : PartId) (n : RegName) (v : Word) (i j : Nat) : (s.wr p n v i j).chans = s.chans := by simp [State.wr]
@[simp] theorem State.wr_jobs (s : State) (p : PartId) (n : RegName) (v : Word) (i j : Nat) : (s.wr p n v i j).jobs = s.jobs := by simp [State.wr]
@[simp] theorem State.wr_copies (s : State) (p : PartId) (n : RegName) (v : Word) (i j : Nat) : (s.wr p n v i j).copies = s.copies := by simp [State.wr]
@[simp] theorem State.wr_armGens (s : State) (p : PartId) (n : RegName) (v : Word) (i j : Nat) : (s.wr p n v i j).armGens = s.armGens := by simp [State.wr]
@[simp] theorem State.wr_held (s : State) (p : PartId) (n : RegName) (v : Word) (i j : Nat) : (s.wr p n v i j).held = s.held := by simp [State.wr]
@[simp] theorem State.wr_ledger (s : State) (p : PartId) (n : RegName) (v : Word) (i j : Nat) : (s.wr p n v i j).ledger = s.ledger := by simp [State.wr]
@[simp] theorem State.wr_relays (s : State) (p : PartId) (n : RegName) (v : Word) (i j : Nat) : (s.wr p n v i j).relays = s.relays := by simp [State.wr]
@[simp] theorem State.wr_gateParts (s : State) (p : PartId) (n : RegName) (v : Word) (i j : Nat) : (s.wr p n v i j).gateParts = s.gateParts := by simp [State.wr]
@[simp] theorem State.wr_nodes (s : State) (p : PartId) (n : RegName) (v : Word) (i j : Nat) : (s.wr p n v i j).nodes = s.nodes := by simp [State.wr]
@[simp] theorem State.wr_sentRes (s : State) (p : PartId) (n : RegName) (v : Word) (i j : Nat) : (s.wr p n v i j).sentRes = s.sentRes := by simp [State.wr]
@[simp] theorem State.wr_insts (s : State) (p : PartId) (n : RegName) (v : Word) (i j : Nat) : (s.wr p n v i j).insts = s.insts := by simp [State.wr]
@[simp] theorem State.wr_rotation (s : State) (p : PartId) (n : RegName) (v : Word) (i j : Nat) : (s.wr p n v i j).rotation = s.rotation := by simp [State.wr]
@[simp] theorem State.wr_spilled (s : State) (p : PartId) (n : RegName) (v : Word) (i j : Nat) : (s.wr p n v i j).spilled = s.spilled := by simp [State.wr]
@[simp] theorem State.wr_chains (s : State) (p : PartId) (n : RegName) (v : Word) (i j : Nat) : (s.wr p n v i j).chains = s.chains := by simp [State.wr]
@[simp] theorem State.wr_chainCtxs (s : State) (p : PartId) (n : RegName) (v : Word) (i j : Nat) : (s.wr p n v i j).chainCtxs = s.chainCtxs := by simp [State.wr]
@[simp] theorem State.wr_rankNodes (s : State) (p : PartId) (n : RegName) (v : Word) (i j : Nat) : (s.wr p n v i j).rankNodes = s.rankNodes := by simp [State.wr]
@[simp] theorem State.wr_hbm (s : State) (p : PartId) (n : RegName) (v : Word) (i j : Nat) : (s.wr p n v i j).hbm = s.hbm := by simp [State.wr]
@[simp] theorem State.wr_fabricRd (s : State) (p : PartId) (n : RegName) (v : Word) (i j : Nat) : (s.wr p n v i j).fabricRd = s.fabricRd := by simp [State.wr]
@[simp] theorem State.wr_hostBulk (s : State) (p : PartId) (n : RegName) (v : Word) (i j : Nat) : (s.wr p n v i j).hostBulk = s.hostBulk := by simp [State.wr]
@[simp] theorem State.wr_mreqs (s : State) (p : PartId) (n : RegName) (v : Word) (i j : Nat) : (s.wr p n v i j).mreqs = s.mreqs := by simp [State.wr]
@[simp] theorem State.wr_jnlFetch (s : State) (p : PartId) (n : RegName) (v : Word) (i j : Nat) : (s.wr p n v i j).jnlFetch = s.jnlFetch := by simp [State.wr]
@[simp] theorem State.wr_jnlReady (s : State) (p : PartId) (n : RegName) (v : Word) (i j : Nat) : (s.wr p n v i j).jnlReady = s.jnlReady := by simp [State.wr]
@[simp] theorem State.wr_jnlBad (s : State) (p : PartId) (n : RegName) (v : Word) (i j : Nat) : (s.wr p n v i j).jnlBad = s.jnlBad := by simp [State.wr]
@[simp] theorem State.wr_pkg (s : State) (p : PartId) (n : RegName) (v : Word) (i j : Nat) : (s.wr p n v i j).pkg = s.pkg := by simp [State.wr]
@[simp] theorem State.wr_macroBad (s : State) (p : PartId) (n : RegName) (v : Word) (i j : Nat) : (s.wr p n v i j).macroBad = s.macroBad := by simp [State.wr]
@[simp] theorem State.wr_todo (s : State) (p : PartId) (n : RegName) (v : Word) (i j : Nat) : (s.wr p n v i j).todo = s.todo := by simp [State.wr]
@[simp] theorem State.wr_freeIdx (s : State) (p : PartId) (n : RegName) (v : Word) (i j : Nat) : (s.wr p n v i j).freeIdx = s.freeIdx := by simp [State.wr]
@[simp] theorem State.wr_pending (s : State) (p : PartId) (n : RegName) (v : Word) (i j : Nat) : (s.wr p n v i j).pending = s.pending := by simp [State.wr]

@[simp] theorem State.setF_osc (s : State) (p : PartId) (n : RegName) (hi lo v i j : Nat) : (s.setF p n hi lo v i j).osc = s.osc := by simp [State.setF]
@[simp] theorem State.setF_kc (s : State) (p : PartId) (n : RegName) (hi lo v i j : Nat) : (s.setF p n hi lo v i j).kc = s.kc := by simp [State.setF]
@[simp] theorem State.setF_engines (s : State) (p : PartId) (n : RegName) (hi lo v i j : Nat) : (s.setF p n hi lo v i j).engines = s.engines := by simp [State.setF]
@[simp] theorem State.setF_wicks (s : State) (p : PartId) (n : RegName) (hi lo v i j : Nat) : (s.setF p n hi lo v i j).wicks = s.wicks := by simp [State.setF]
@[simp] theorem State.setF_taper (s : State) (p : PartId) (n : RegName) (hi lo v i j : Nat) : (s.setF p n hi lo v i j).taper = s.taper := by simp [State.setF]
@[simp] theorem State.setF_slots (s : State) (p : PartId) (n : RegName) (hi lo v i j : Nat) : (s.setF p n hi lo v i j).slots = s.slots := by simp [State.setF]
@[simp] theorem State.setF_chans (s : State) (p : PartId) (n : RegName) (hi lo v i j : Nat) : (s.setF p n hi lo v i j).chans = s.chans := by simp [State.setF]
@[simp] theorem State.setF_jobs (s : State) (p : PartId) (n : RegName) (hi lo v i j : Nat) : (s.setF p n hi lo v i j).jobs = s.jobs := by simp [State.setF]
@[simp] theorem State.setF_copies (s : State) (p : PartId) (n : RegName) (hi lo v i j : Nat) : (s.setF p n hi lo v i j).copies = s.copies := by simp [State.setF]
@[simp] theorem State.setF_armGens (s : State) (p : PartId) (n : RegName) (hi lo v i j : Nat) : (s.setF p n hi lo v i j).armGens = s.armGens := by simp [State.setF]
@[simp] theorem State.setF_held (s : State) (p : PartId) (n : RegName) (hi lo v i j : Nat) : (s.setF p n hi lo v i j).held = s.held := by simp [State.setF]
@[simp] theorem State.setF_ledger (s : State) (p : PartId) (n : RegName) (hi lo v i j : Nat) : (s.setF p n hi lo v i j).ledger = s.ledger := by simp [State.setF]
@[simp] theorem State.setF_relays (s : State) (p : PartId) (n : RegName) (hi lo v i j : Nat) : (s.setF p n hi lo v i j).relays = s.relays := by simp [State.setF]
@[simp] theorem State.setF_gateParts (s : State) (p : PartId) (n : RegName) (hi lo v i j : Nat) : (s.setF p n hi lo v i j).gateParts = s.gateParts := by simp [State.setF]
@[simp] theorem State.setF_nodes (s : State) (p : PartId) (n : RegName) (hi lo v i j : Nat) : (s.setF p n hi lo v i j).nodes = s.nodes := by simp [State.setF]
@[simp] theorem State.setF_sentRes (s : State) (p : PartId) (n : RegName) (hi lo v i j : Nat) : (s.setF p n hi lo v i j).sentRes = s.sentRes := by simp [State.setF]
@[simp] theorem State.setF_insts (s : State) (p : PartId) (n : RegName) (hi lo v i j : Nat) : (s.setF p n hi lo v i j).insts = s.insts := by simp [State.setF]
@[simp] theorem State.setF_rotation (s : State) (p : PartId) (n : RegName) (hi lo v i j : Nat) : (s.setF p n hi lo v i j).rotation = s.rotation := by simp [State.setF]
@[simp] theorem State.setF_spilled (s : State) (p : PartId) (n : RegName) (hi lo v i j : Nat) : (s.setF p n hi lo v i j).spilled = s.spilled := by simp [State.setF]
@[simp] theorem State.setF_chains (s : State) (p : PartId) (n : RegName) (hi lo v i j : Nat) : (s.setF p n hi lo v i j).chains = s.chains := by simp [State.setF]
@[simp] theorem State.setF_chainCtxs (s : State) (p : PartId) (n : RegName) (hi lo v i j : Nat) : (s.setF p n hi lo v i j).chainCtxs = s.chainCtxs := by simp [State.setF]
@[simp] theorem State.setF_rankNodes (s : State) (p : PartId) (n : RegName) (hi lo v i j : Nat) : (s.setF p n hi lo v i j).rankNodes = s.rankNodes := by simp [State.setF]
@[simp] theorem State.setF_hbm (s : State) (p : PartId) (n : RegName) (hi lo v i j : Nat) : (s.setF p n hi lo v i j).hbm = s.hbm := by simp [State.setF]
@[simp] theorem State.setF_fabricRd (s : State) (p : PartId) (n : RegName) (hi lo v i j : Nat) : (s.setF p n hi lo v i j).fabricRd = s.fabricRd := by simp [State.setF]
@[simp] theorem State.setF_hostBulk (s : State) (p : PartId) (n : RegName) (hi lo v i j : Nat) : (s.setF p n hi lo v i j).hostBulk = s.hostBulk := by simp [State.setF]
@[simp] theorem State.setF_mreqs (s : State) (p : PartId) (n : RegName) (hi lo v i j : Nat) : (s.setF p n hi lo v i j).mreqs = s.mreqs := by simp [State.setF]
@[simp] theorem State.setF_jnlFetch (s : State) (p : PartId) (n : RegName) (hi lo v i j : Nat) : (s.setF p n hi lo v i j).jnlFetch = s.jnlFetch := by simp [State.setF]
@[simp] theorem State.setF_jnlReady (s : State) (p : PartId) (n : RegName) (hi lo v i j : Nat) : (s.setF p n hi lo v i j).jnlReady = s.jnlReady := by simp [State.setF]
@[simp] theorem State.setF_jnlBad (s : State) (p : PartId) (n : RegName) (hi lo v i j : Nat) : (s.setF p n hi lo v i j).jnlBad = s.jnlBad := by simp [State.setF]
@[simp] theorem State.setF_pkg (s : State) (p : PartId) (n : RegName) (hi lo v i j : Nat) : (s.setF p n hi lo v i j).pkg = s.pkg := by simp [State.setF]
@[simp] theorem State.setF_macroBad (s : State) (p : PartId) (n : RegName) (hi lo v i j : Nat) : (s.setF p n hi lo v i j).macroBad = s.macroBad := by simp [State.setF]
@[simp] theorem State.setF_todo (s : State) (p : PartId) (n : RegName) (hi lo v i j : Nat) : (s.setF p n hi lo v i j).todo = s.todo := by simp [State.setF]
@[simp] theorem State.setF_freeIdx (s : State) (p : PartId) (n : RegName) (hi lo v i j : Nat) : (s.setF p n hi lo v i j).freeIdx = s.freeIdx := by simp [State.setF]
@[simp] theorem State.setF_pending (s : State) (p : PartId) (n : RegName) (hi lo v i j : Nat) : (s.setF p n hi lo v i j).pending = s.pending := by simp [State.setF]

/-! ### An engine -/

@[simp] theorem State.setEng_tsu (s : State) (e : EngSel) (v : Engine) : (s.setEng e v).tsu = s.tsu := rfl
@[simp] theorem State.setEng_dist (s : State) (e : EngSel) (v : Engine) : (s.setEng e v).dist = s.dist := rfl
@[simp] theorem State.setEng_osc (s : State) (e : EngSel) (v : Engine) : (s.setEng e v).osc = s.osc := rfl
@[simp] theorem State.setEng_kc (s : State) (e : EngSel) (v : Engine) : (s.setEng e v).kc = s.kc := rfl
@[simp] theorem State.setEng_wicks (s : State) (e : EngSel) (v : Engine) : (s.setEng e v).wicks = s.wicks := rfl
@[simp] theorem State.setEng_taper (s : State) (e : EngSel) (v : Engine) : (s.setEng e v).taper = s.taper := rfl
@[simp] theorem State.setEng_slots (s : State) (e : EngSel) (v : Engine) : (s.setEng e v).slots = s.slots := rfl
@[simp] theorem State.setEng_chans (s : State) (e : EngSel) (v : Engine) : (s.setEng e v).chans = s.chans := rfl
@[simp] theorem State.setEng_jobs (s : State) (e : EngSel) (v : Engine) : (s.setEng e v).jobs = s.jobs := rfl
@[simp] theorem State.setEng_copies (s : State) (e : EngSel) (v : Engine) : (s.setEng e v).copies = s.copies := rfl
@[simp] theorem State.setEng_armGens (s : State) (e : EngSel) (v : Engine) : (s.setEng e v).armGens = s.armGens := rfl
@[simp] theorem State.setEng_held (s : State) (e : EngSel) (v : Engine) : (s.setEng e v).held = s.held := rfl
@[simp] theorem State.setEng_ledger (s : State) (e : EngSel) (v : Engine) : (s.setEng e v).ledger = s.ledger := rfl
@[simp] theorem State.setEng_relays (s : State) (e : EngSel) (v : Engine) : (s.setEng e v).relays = s.relays := rfl
@[simp] theorem State.setEng_gateParts (s : State) (e : EngSel) (v : Engine) : (s.setEng e v).gateParts = s.gateParts := rfl
@[simp] theorem State.setEng_nodes (s : State) (e : EngSel) (v : Engine) : (s.setEng e v).nodes = s.nodes := rfl
@[simp] theorem State.setEng_sentRes (s : State) (e : EngSel) (v : Engine) : (s.setEng e v).sentRes = s.sentRes := rfl
@[simp] theorem State.setEng_insts (s : State) (e : EngSel) (v : Engine) : (s.setEng e v).insts = s.insts := rfl
@[simp] theorem State.setEng_rotation (s : State) (e : EngSel) (v : Engine) : (s.setEng e v).rotation = s.rotation := rfl
@[simp] theorem State.setEng_spilled (s : State) (e : EngSel) (v : Engine) : (s.setEng e v).spilled = s.spilled := rfl
@[simp] theorem State.setEng_chains (s : State) (e : EngSel) (v : Engine) : (s.setEng e v).chains = s.chains := rfl
@[simp] theorem State.setEng_chainCtxs (s : State) (e : EngSel) (v : Engine) : (s.setEng e v).chainCtxs = s.chainCtxs := rfl
@[simp] theorem State.setEng_rankNodes (s : State) (e : EngSel) (v : Engine) : (s.setEng e v).rankNodes = s.rankNodes := rfl
@[simp] theorem State.setEng_hbm (s : State) (e : EngSel) (v : Engine) : (s.setEng e v).hbm = s.hbm := rfl
@[simp] theorem State.setEng_fabricRd (s : State) (e : EngSel) (v : Engine) : (s.setEng e v).fabricRd = s.fabricRd := rfl
@[simp] theorem State.setEng_hostBulk (s : State) (e : EngSel) (v : Engine) : (s.setEng e v).hostBulk = s.hostBulk := rfl
@[simp] theorem State.setEng_mreqs (s : State) (e : EngSel) (v : Engine) : (s.setEng e v).mreqs = s.mreqs := rfl
@[simp] theorem State.setEng_jnlFetch (s : State) (e : EngSel) (v : Engine) : (s.setEng e v).jnlFetch = s.jnlFetch := rfl
@[simp] theorem State.setEng_jnlReady (s : State) (e : EngSel) (v : Engine) : (s.setEng e v).jnlReady = s.jnlReady := rfl
@[simp] theorem State.setEng_jnlBad (s : State) (e : EngSel) (v : Engine) : (s.setEng e v).jnlBad = s.jnlBad := rfl
@[simp] theorem State.setEng_pkg (s : State) (e : EngSel) (v : Engine) : (s.setEng e v).pkg = s.pkg := rfl
@[simp] theorem State.setEng_macroBad (s : State) (e : EngSel) (v : Engine) : (s.setEng e v).macroBad = s.macroBad := rfl
@[simp] theorem State.setEng_todo (s : State) (e : EngSel) (v : Engine) : (s.setEng e v).todo = s.todo := rfl
@[simp] theorem State.setEng_freeIdx (s : State) (e : EngSel) (v : Engine) : (s.setEng e v).freeIdx = s.freeIdx := rfl
@[simp] theorem State.setEng_pending (s : State) (e : EngSel) (v : Engine) : (s.setEng e v).pending = s.pending := rfl

/-! ### A job context -/

@[simp] theorem State.setJob_tsu (s : State) (k : Nat) (v : Job) : (s.setJob k v).tsu = s.tsu := rfl
@[simp] theorem State.setJob_dist (s : State) (k : Nat) (v : Job) : (s.setJob k v).dist = s.dist := rfl
@[simp] theorem State.setJob_osc (s : State) (k : Nat) (v : Job) : (s.setJob k v).osc = s.osc := rfl
@[simp] theorem State.setJob_kc (s : State) (k : Nat) (v : Job) : (s.setJob k v).kc = s.kc := rfl
@[simp] theorem State.setJob_engines (s : State) (k : Nat) (v : Job) : (s.setJob k v).engines = s.engines := rfl
@[simp] theorem State.setJob_wicks (s : State) (k : Nat) (v : Job) : (s.setJob k v).wicks = s.wicks := rfl
@[simp] theorem State.setJob_taper (s : State) (k : Nat) (v : Job) : (s.setJob k v).taper = s.taper := rfl
@[simp] theorem State.setJob_slots (s : State) (k : Nat) (v : Job) : (s.setJob k v).slots = s.slots := rfl
@[simp] theorem State.setJob_chans (s : State) (k : Nat) (v : Job) : (s.setJob k v).chans = s.chans := rfl
@[simp] theorem State.setJob_copies (s : State) (k : Nat) (v : Job) : (s.setJob k v).copies = s.copies := rfl
@[simp] theorem State.setJob_armGens (s : State) (k : Nat) (v : Job) : (s.setJob k v).armGens = s.armGens := rfl
@[simp] theorem State.setJob_held (s : State) (k : Nat) (v : Job) : (s.setJob k v).held = s.held := rfl
@[simp] theorem State.setJob_ledger (s : State) (k : Nat) (v : Job) : (s.setJob k v).ledger = s.ledger := rfl
@[simp] theorem State.setJob_relays (s : State) (k : Nat) (v : Job) : (s.setJob k v).relays = s.relays := rfl
@[simp] theorem State.setJob_gateParts (s : State) (k : Nat) (v : Job) : (s.setJob k v).gateParts = s.gateParts := rfl
@[simp] theorem State.setJob_nodes (s : State) (k : Nat) (v : Job) : (s.setJob k v).nodes = s.nodes := rfl
@[simp] theorem State.setJob_sentRes (s : State) (k : Nat) (v : Job) : (s.setJob k v).sentRes = s.sentRes := rfl
@[simp] theorem State.setJob_insts (s : State) (k : Nat) (v : Job) : (s.setJob k v).insts = s.insts := rfl
@[simp] theorem State.setJob_rotation (s : State) (k : Nat) (v : Job) : (s.setJob k v).rotation = s.rotation := rfl
@[simp] theorem State.setJob_spilled (s : State) (k : Nat) (v : Job) : (s.setJob k v).spilled = s.spilled := rfl
@[simp] theorem State.setJob_chains (s : State) (k : Nat) (v : Job) : (s.setJob k v).chains = s.chains := rfl
@[simp] theorem State.setJob_chainCtxs (s : State) (k : Nat) (v : Job) : (s.setJob k v).chainCtxs = s.chainCtxs := rfl
@[simp] theorem State.setJob_rankNodes (s : State) (k : Nat) (v : Job) : (s.setJob k v).rankNodes = s.rankNodes := rfl
@[simp] theorem State.setJob_hbm (s : State) (k : Nat) (v : Job) : (s.setJob k v).hbm = s.hbm := rfl
@[simp] theorem State.setJob_fabricRd (s : State) (k : Nat) (v : Job) : (s.setJob k v).fabricRd = s.fabricRd := rfl
@[simp] theorem State.setJob_hostBulk (s : State) (k : Nat) (v : Job) : (s.setJob k v).hostBulk = s.hostBulk := rfl
@[simp] theorem State.setJob_mreqs (s : State) (k : Nat) (v : Job) : (s.setJob k v).mreqs = s.mreqs := rfl
@[simp] theorem State.setJob_jnlFetch (s : State) (k : Nat) (v : Job) : (s.setJob k v).jnlFetch = s.jnlFetch := rfl
@[simp] theorem State.setJob_jnlReady (s : State) (k : Nat) (v : Job) : (s.setJob k v).jnlReady = s.jnlReady := rfl
@[simp] theorem State.setJob_jnlBad (s : State) (k : Nat) (v : Job) : (s.setJob k v).jnlBad = s.jnlBad := rfl
@[simp] theorem State.setJob_pkg (s : State) (k : Nat) (v : Job) : (s.setJob k v).pkg = s.pkg := rfl
@[simp] theorem State.setJob_macroBad (s : State) (k : Nat) (v : Job) : (s.setJob k v).macroBad = s.macroBad := rfl
@[simp] theorem State.setJob_todo (s : State) (k : Nat) (v : Job) : (s.setJob k v).todo = s.todo := rfl
@[simp] theorem State.setJob_freeIdx (s : State) (k : Nat) (v : Job) : (s.setJob k v).freeIdx = s.freeIdx := rfl
@[simp] theorem State.setJob_pending (s : State) (k : Nat) (v : Job) : (s.setJob k v).pending = s.pending := rfl

/-! ### A job slot -/

@[simp] theorem State.setSlot_tsu (s : State) (c : Nat) (v : Slot) : (s.setSlot c v).tsu = s.tsu := rfl
@[simp] theorem State.setSlot_dist (s : State) (c : Nat) (v : Slot) : (s.setSlot c v).dist = s.dist := rfl
@[simp] theorem State.setSlot_osc (s : State) (c : Nat) (v : Slot) : (s.setSlot c v).osc = s.osc := rfl
@[simp] theorem State.setSlot_kc (s : State) (c : Nat) (v : Slot) : (s.setSlot c v).kc = s.kc := rfl
@[simp] theorem State.setSlot_engines (s : State) (c : Nat) (v : Slot) : (s.setSlot c v).engines = s.engines := rfl
@[simp] theorem State.setSlot_wicks (s : State) (c : Nat) (v : Slot) : (s.setSlot c v).wicks = s.wicks := rfl
@[simp] theorem State.setSlot_taper (s : State) (c : Nat) (v : Slot) : (s.setSlot c v).taper = s.taper := rfl
@[simp] theorem State.setSlot_chans (s : State) (c : Nat) (v : Slot) : (s.setSlot c v).chans = s.chans := rfl
@[simp] theorem State.setSlot_jobs (s : State) (c : Nat) (v : Slot) : (s.setSlot c v).jobs = s.jobs := rfl
@[simp] theorem State.setSlot_copies (s : State) (c : Nat) (v : Slot) : (s.setSlot c v).copies = s.copies := rfl
@[simp] theorem State.setSlot_armGens (s : State) (c : Nat) (v : Slot) : (s.setSlot c v).armGens = s.armGens := rfl
@[simp] theorem State.setSlot_held (s : State) (c : Nat) (v : Slot) : (s.setSlot c v).held = s.held := rfl
@[simp] theorem State.setSlot_ledger (s : State) (c : Nat) (v : Slot) : (s.setSlot c v).ledger = s.ledger := rfl
@[simp] theorem State.setSlot_relays (s : State) (c : Nat) (v : Slot) : (s.setSlot c v).relays = s.relays := rfl
@[simp] theorem State.setSlot_gateParts (s : State) (c : Nat) (v : Slot) : (s.setSlot c v).gateParts = s.gateParts := rfl
@[simp] theorem State.setSlot_nodes (s : State) (c : Nat) (v : Slot) : (s.setSlot c v).nodes = s.nodes := rfl
@[simp] theorem State.setSlot_sentRes (s : State) (c : Nat) (v : Slot) : (s.setSlot c v).sentRes = s.sentRes := rfl
@[simp] theorem State.setSlot_insts (s : State) (c : Nat) (v : Slot) : (s.setSlot c v).insts = s.insts := rfl
@[simp] theorem State.setSlot_rotation (s : State) (c : Nat) (v : Slot) : (s.setSlot c v).rotation = s.rotation := rfl
@[simp] theorem State.setSlot_spilled (s : State) (c : Nat) (v : Slot) : (s.setSlot c v).spilled = s.spilled := rfl
@[simp] theorem State.setSlot_chains (s : State) (c : Nat) (v : Slot) : (s.setSlot c v).chains = s.chains := rfl
@[simp] theorem State.setSlot_chainCtxs (s : State) (c : Nat) (v : Slot) : (s.setSlot c v).chainCtxs = s.chainCtxs := rfl
@[simp] theorem State.setSlot_rankNodes (s : State) (c : Nat) (v : Slot) : (s.setSlot c v).rankNodes = s.rankNodes := rfl
@[simp] theorem State.setSlot_hbm (s : State) (c : Nat) (v : Slot) : (s.setSlot c v).hbm = s.hbm := rfl
@[simp] theorem State.setSlot_fabricRd (s : State) (c : Nat) (v : Slot) : (s.setSlot c v).fabricRd = s.fabricRd := rfl
@[simp] theorem State.setSlot_hostBulk (s : State) (c : Nat) (v : Slot) : (s.setSlot c v).hostBulk = s.hostBulk := rfl
@[simp] theorem State.setSlot_mreqs (s : State) (c : Nat) (v : Slot) : (s.setSlot c v).mreqs = s.mreqs := rfl
@[simp] theorem State.setSlot_jnlFetch (s : State) (c : Nat) (v : Slot) : (s.setSlot c v).jnlFetch = s.jnlFetch := rfl
@[simp] theorem State.setSlot_jnlReady (s : State) (c : Nat) (v : Slot) : (s.setSlot c v).jnlReady = s.jnlReady := rfl
@[simp] theorem State.setSlot_jnlBad (s : State) (c : Nat) (v : Slot) : (s.setSlot c v).jnlBad = s.jnlBad := rfl
@[simp] theorem State.setSlot_pkg (s : State) (c : Nat) (v : Slot) : (s.setSlot c v).pkg = s.pkg := rfl
@[simp] theorem State.setSlot_macroBad (s : State) (c : Nat) (v : Slot) : (s.setSlot c v).macroBad = s.macroBad := rfl
@[simp] theorem State.setSlot_todo (s : State) (c : Nat) (v : Slot) : (s.setSlot c v).todo = s.todo := rfl
@[simp] theorem State.setSlot_freeIdx (s : State) (c : Nat) (v : Slot) : (s.setSlot c v).freeIdx = s.freeIdx := rfl
@[simp] theorem State.setSlot_pending (s : State) (c : Nat) (v : Slot) : (s.setSlot c v).pending = s.pending := rfl

/-! ### A result channel -/

@[simp] theorem State.setChan_tsu (s : State) (c : Nat) (v : Chan) : (s.setChan c v).tsu = s.tsu := rfl
@[simp] theorem State.setChan_dist (s : State) (c : Nat) (v : Chan) : (s.setChan c v).dist = s.dist := rfl
@[simp] theorem State.setChan_osc (s : State) (c : Nat) (v : Chan) : (s.setChan c v).osc = s.osc := rfl
@[simp] theorem State.setChan_kc (s : State) (c : Nat) (v : Chan) : (s.setChan c v).kc = s.kc := rfl
@[simp] theorem State.setChan_engines (s : State) (c : Nat) (v : Chan) : (s.setChan c v).engines = s.engines := rfl
@[simp] theorem State.setChan_wicks (s : State) (c : Nat) (v : Chan) : (s.setChan c v).wicks = s.wicks := rfl
@[simp] theorem State.setChan_taper (s : State) (c : Nat) (v : Chan) : (s.setChan c v).taper = s.taper := rfl
@[simp] theorem State.setChan_slots (s : State) (c : Nat) (v : Chan) : (s.setChan c v).slots = s.slots := rfl
@[simp] theorem State.setChan_jobs (s : State) (c : Nat) (v : Chan) : (s.setChan c v).jobs = s.jobs := rfl
@[simp] theorem State.setChan_copies (s : State) (c : Nat) (v : Chan) : (s.setChan c v).copies = s.copies := rfl
@[simp] theorem State.setChan_armGens (s : State) (c : Nat) (v : Chan) : (s.setChan c v).armGens = s.armGens := rfl
@[simp] theorem State.setChan_held (s : State) (c : Nat) (v : Chan) : (s.setChan c v).held = s.held := rfl
@[simp] theorem State.setChan_ledger (s : State) (c : Nat) (v : Chan) : (s.setChan c v).ledger = s.ledger := rfl
@[simp] theorem State.setChan_relays (s : State) (c : Nat) (v : Chan) : (s.setChan c v).relays = s.relays := rfl
@[simp] theorem State.setChan_gateParts (s : State) (c : Nat) (v : Chan) : (s.setChan c v).gateParts = s.gateParts := rfl
@[simp] theorem State.setChan_nodes (s : State) (c : Nat) (v : Chan) : (s.setChan c v).nodes = s.nodes := rfl
@[simp] theorem State.setChan_sentRes (s : State) (c : Nat) (v : Chan) : (s.setChan c v).sentRes = s.sentRes := rfl
@[simp] theorem State.setChan_insts (s : State) (c : Nat) (v : Chan) : (s.setChan c v).insts = s.insts := rfl
@[simp] theorem State.setChan_rotation (s : State) (c : Nat) (v : Chan) : (s.setChan c v).rotation = s.rotation := rfl
@[simp] theorem State.setChan_spilled (s : State) (c : Nat) (v : Chan) : (s.setChan c v).spilled = s.spilled := rfl
@[simp] theorem State.setChan_chains (s : State) (c : Nat) (v : Chan) : (s.setChan c v).chains = s.chains := rfl
@[simp] theorem State.setChan_chainCtxs (s : State) (c : Nat) (v : Chan) : (s.setChan c v).chainCtxs = s.chainCtxs := rfl
@[simp] theorem State.setChan_rankNodes (s : State) (c : Nat) (v : Chan) : (s.setChan c v).rankNodes = s.rankNodes := rfl
@[simp] theorem State.setChan_hbm (s : State) (c : Nat) (v : Chan) : (s.setChan c v).hbm = s.hbm := rfl
@[simp] theorem State.setChan_fabricRd (s : State) (c : Nat) (v : Chan) : (s.setChan c v).fabricRd = s.fabricRd := rfl
@[simp] theorem State.setChan_hostBulk (s : State) (c : Nat) (v : Chan) : (s.setChan c v).hostBulk = s.hostBulk := rfl
@[simp] theorem State.setChan_mreqs (s : State) (c : Nat) (v : Chan) : (s.setChan c v).mreqs = s.mreqs := rfl
@[simp] theorem State.setChan_jnlFetch (s : State) (c : Nat) (v : Chan) : (s.setChan c v).jnlFetch = s.jnlFetch := rfl
@[simp] theorem State.setChan_jnlReady (s : State) (c : Nat) (v : Chan) : (s.setChan c v).jnlReady = s.jnlReady := rfl
@[simp] theorem State.setChan_jnlBad (s : State) (c : Nat) (v : Chan) : (s.setChan c v).jnlBad = s.jnlBad := rfl
@[simp] theorem State.setChan_pkg (s : State) (c : Nat) (v : Chan) : (s.setChan c v).pkg = s.pkg := rfl
@[simp] theorem State.setChan_macroBad (s : State) (c : Nat) (v : Chan) : (s.setChan c v).macroBad = s.macroBad := rfl
@[simp] theorem State.setChan_todo (s : State) (c : Nat) (v : Chan) : (s.setChan c v).todo = s.todo := rfl
@[simp] theorem State.setChan_freeIdx (s : State) (c : Nat) (v : Chan) : (s.setChan c v).freeIdx = s.freeIdx := rfl
@[simp] theorem State.setChan_pending (s : State) (c : Nat) (v : Chan) : (s.setChan c v).pending = s.pending := rfl

/-! ### A checkpoint slot of a leaf -/

@[simp] theorem State.setChain_tsu (s : State) (k : Nat) (v : ChainSlot) : (s.setChain k v).tsu = s.tsu := rfl
@[simp] theorem State.setChain_dist (s : State) (k : Nat) (v : ChainSlot) : (s.setChain k v).dist = s.dist := rfl
@[simp] theorem State.setChain_osc (s : State) (k : Nat) (v : ChainSlot) : (s.setChain k v).osc = s.osc := rfl
@[simp] theorem State.setChain_kc (s : State) (k : Nat) (v : ChainSlot) : (s.setChain k v).kc = s.kc := rfl
@[simp] theorem State.setChain_engines (s : State) (k : Nat) (v : ChainSlot) : (s.setChain k v).engines = s.engines := rfl
@[simp] theorem State.setChain_wicks (s : State) (k : Nat) (v : ChainSlot) : (s.setChain k v).wicks = s.wicks := rfl
@[simp] theorem State.setChain_taper (s : State) (k : Nat) (v : ChainSlot) : (s.setChain k v).taper = s.taper := rfl
@[simp] theorem State.setChain_slots (s : State) (k : Nat) (v : ChainSlot) : (s.setChain k v).slots = s.slots := rfl
@[simp] theorem State.setChain_chans (s : State) (k : Nat) (v : ChainSlot) : (s.setChain k v).chans = s.chans := rfl
@[simp] theorem State.setChain_jobs (s : State) (k : Nat) (v : ChainSlot) : (s.setChain k v).jobs = s.jobs := rfl
@[simp] theorem State.setChain_copies (s : State) (k : Nat) (v : ChainSlot) : (s.setChain k v).copies = s.copies := rfl
@[simp] theorem State.setChain_armGens (s : State) (k : Nat) (v : ChainSlot) : (s.setChain k v).armGens = s.armGens := rfl
@[simp] theorem State.setChain_held (s : State) (k : Nat) (v : ChainSlot) : (s.setChain k v).held = s.held := rfl
@[simp] theorem State.setChain_ledger (s : State) (k : Nat) (v : ChainSlot) : (s.setChain k v).ledger = s.ledger := rfl
@[simp] theorem State.setChain_relays (s : State) (k : Nat) (v : ChainSlot) : (s.setChain k v).relays = s.relays := rfl
@[simp] theorem State.setChain_gateParts (s : State) (k : Nat) (v : ChainSlot) : (s.setChain k v).gateParts = s.gateParts := rfl
@[simp] theorem State.setChain_nodes (s : State) (k : Nat) (v : ChainSlot) : (s.setChain k v).nodes = s.nodes := rfl
@[simp] theorem State.setChain_sentRes (s : State) (k : Nat) (v : ChainSlot) : (s.setChain k v).sentRes = s.sentRes := rfl
@[simp] theorem State.setChain_insts (s : State) (k : Nat) (v : ChainSlot) : (s.setChain k v).insts = s.insts := rfl
@[simp] theorem State.setChain_rotation (s : State) (k : Nat) (v : ChainSlot) : (s.setChain k v).rotation = s.rotation := rfl
@[simp] theorem State.setChain_spilled (s : State) (k : Nat) (v : ChainSlot) : (s.setChain k v).spilled = s.spilled := rfl
@[simp] theorem State.setChain_chainCtxs (s : State) (k : Nat) (v : ChainSlot) : (s.setChain k v).chainCtxs = s.chainCtxs := rfl
@[simp] theorem State.setChain_rankNodes (s : State) (k : Nat) (v : ChainSlot) : (s.setChain k v).rankNodes = s.rankNodes := rfl
@[simp] theorem State.setChain_hbm (s : State) (k : Nat) (v : ChainSlot) : (s.setChain k v).hbm = s.hbm := rfl
@[simp] theorem State.setChain_fabricRd (s : State) (k : Nat) (v : ChainSlot) : (s.setChain k v).fabricRd = s.fabricRd := rfl
@[simp] theorem State.setChain_hostBulk (s : State) (k : Nat) (v : ChainSlot) : (s.setChain k v).hostBulk = s.hostBulk := rfl
@[simp] theorem State.setChain_mreqs (s : State) (k : Nat) (v : ChainSlot) : (s.setChain k v).mreqs = s.mreqs := rfl
@[simp] theorem State.setChain_jnlFetch (s : State) (k : Nat) (v : ChainSlot) : (s.setChain k v).jnlFetch = s.jnlFetch := rfl
@[simp] theorem State.setChain_jnlReady (s : State) (k : Nat) (v : ChainSlot) : (s.setChain k v).jnlReady = s.jnlReady := rfl
@[simp] theorem State.setChain_jnlBad (s : State) (k : Nat) (v : ChainSlot) : (s.setChain k v).jnlBad = s.jnlBad := rfl
@[simp] theorem State.setChain_pkg (s : State) (k : Nat) (v : ChainSlot) : (s.setChain k v).pkg = s.pkg := rfl
@[simp] theorem State.setChain_macroBad (s : State) (k : Nat) (v : ChainSlot) : (s.setChain k v).macroBad = s.macroBad := rfl
@[simp] theorem State.setChain_todo (s : State) (k : Nat) (v : ChainSlot) : (s.setChain k v).todo = s.todo := rfl
@[simp] theorem State.setChain_freeIdx (s : State) (k : Nat) (v : ChainSlot) : (s.setChain k v).freeIdx = s.freeIdx := rfl
@[simp] theorem State.setChain_pending (s : State) (k : Nat) (v : ChainSlot) : (s.setChain k v).pending = s.pending := rfl

/-! ### A node of the detector -/

@[simp] theorem State.setNode_tsu (s : State) (k : Nat) (v : NodeSt) : (s.setNode k v).tsu = s.tsu := rfl
@[simp] theorem State.setNode_dist (s : State) (k : Nat) (v : NodeSt) : (s.setNode k v).dist = s.dist := rfl
@[simp] theorem State.setNode_osc (s : State) (k : Nat) (v : NodeSt) : (s.setNode k v).osc = s.osc := rfl
@[simp] theorem State.setNode_kc (s : State) (k : Nat) (v : NodeSt) : (s.setNode k v).kc = s.kc := rfl
@[simp] theorem State.setNode_engines (s : State) (k : Nat) (v : NodeSt) : (s.setNode k v).engines = s.engines := rfl
@[simp] theorem State.setNode_wicks (s : State) (k : Nat) (v : NodeSt) : (s.setNode k v).wicks = s.wicks := rfl
@[simp] theorem State.setNode_taper (s : State) (k : Nat) (v : NodeSt) : (s.setNode k v).taper = s.taper := rfl
@[simp] theorem State.setNode_slots (s : State) (k : Nat) (v : NodeSt) : (s.setNode k v).slots = s.slots := rfl
@[simp] theorem State.setNode_chans (s : State) (k : Nat) (v : NodeSt) : (s.setNode k v).chans = s.chans := rfl
@[simp] theorem State.setNode_jobs (s : State) (k : Nat) (v : NodeSt) : (s.setNode k v).jobs = s.jobs := rfl
@[simp] theorem State.setNode_copies (s : State) (k : Nat) (v : NodeSt) : (s.setNode k v).copies = s.copies := rfl
@[simp] theorem State.setNode_armGens (s : State) (k : Nat) (v : NodeSt) : (s.setNode k v).armGens = s.armGens := rfl
@[simp] theorem State.setNode_held (s : State) (k : Nat) (v : NodeSt) : (s.setNode k v).held = s.held := rfl
@[simp] theorem State.setNode_ledger (s : State) (k : Nat) (v : NodeSt) : (s.setNode k v).ledger = s.ledger := rfl
@[simp] theorem State.setNode_relays (s : State) (k : Nat) (v : NodeSt) : (s.setNode k v).relays = s.relays := rfl
@[simp] theorem State.setNode_gateParts (s : State) (k : Nat) (v : NodeSt) : (s.setNode k v).gateParts = s.gateParts := rfl
@[simp] theorem State.setNode_sentRes (s : State) (k : Nat) (v : NodeSt) : (s.setNode k v).sentRes = s.sentRes := rfl
@[simp] theorem State.setNode_insts (s : State) (k : Nat) (v : NodeSt) : (s.setNode k v).insts = s.insts := rfl
@[simp] theorem State.setNode_rotation (s : State) (k : Nat) (v : NodeSt) : (s.setNode k v).rotation = s.rotation := rfl
@[simp] theorem State.setNode_spilled (s : State) (k : Nat) (v : NodeSt) : (s.setNode k v).spilled = s.spilled := rfl
@[simp] theorem State.setNode_chains (s : State) (k : Nat) (v : NodeSt) : (s.setNode k v).chains = s.chains := rfl
@[simp] theorem State.setNode_chainCtxs (s : State) (k : Nat) (v : NodeSt) : (s.setNode k v).chainCtxs = s.chainCtxs := rfl
@[simp] theorem State.setNode_rankNodes (s : State) (k : Nat) (v : NodeSt) : (s.setNode k v).rankNodes = s.rankNodes := rfl
@[simp] theorem State.setNode_hbm (s : State) (k : Nat) (v : NodeSt) : (s.setNode k v).hbm = s.hbm := rfl
@[simp] theorem State.setNode_fabricRd (s : State) (k : Nat) (v : NodeSt) : (s.setNode k v).fabricRd = s.fabricRd := rfl
@[simp] theorem State.setNode_hostBulk (s : State) (k : Nat) (v : NodeSt) : (s.setNode k v).hostBulk = s.hostBulk := rfl
@[simp] theorem State.setNode_mreqs (s : State) (k : Nat) (v : NodeSt) : (s.setNode k v).mreqs = s.mreqs := rfl
@[simp] theorem State.setNode_jnlFetch (s : State) (k : Nat) (v : NodeSt) : (s.setNode k v).jnlFetch = s.jnlFetch := rfl
@[simp] theorem State.setNode_jnlReady (s : State) (k : Nat) (v : NodeSt) : (s.setNode k v).jnlReady = s.jnlReady := rfl
@[simp] theorem State.setNode_jnlBad (s : State) (k : Nat) (v : NodeSt) : (s.setNode k v).jnlBad = s.jnlBad := rfl
@[simp] theorem State.setNode_pkg (s : State) (k : Nat) (v : NodeSt) : (s.setNode k v).pkg = s.pkg := rfl
@[simp] theorem State.setNode_macroBad (s : State) (k : Nat) (v : NodeSt) : (s.setNode k v).macroBad = s.macroBad := rfl
@[simp] theorem State.setNode_todo (s : State) (k : Nat) (v : NodeSt) : (s.setNode k v).todo = s.todo := rfl
@[simp] theorem State.setNode_freeIdx (s : State) (k : Nat) (v : NodeSt) : (s.setNode k v).freeIdx = s.freeIdx := rfl
@[simp] theorem State.setNode_pending (s : State) (k : Nat) (v : NodeSt) : (s.setNode k v).pending = s.pending := rfl

/-! ### A wick -/

@[simp] theorem State.setWick_tsu (s : State) (k : Nat) (v : Wick) : (s.setWick k v).tsu = s.tsu := rfl
@[simp] theorem State.setWick_dist (s : State) (k : Nat) (v : Wick) : (s.setWick k v).dist = s.dist := rfl
@[simp] theorem State.setWick_osc (s : State) (k : Nat) (v : Wick) : (s.setWick k v).osc = s.osc := rfl
@[simp] theorem State.setWick_kc (s : State) (k : Nat) (v : Wick) : (s.setWick k v).kc = s.kc := rfl
@[simp] theorem State.setWick_engines (s : State) (k : Nat) (v : Wick) : (s.setWick k v).engines = s.engines := rfl
@[simp] theorem State.setWick_taper (s : State) (k : Nat) (v : Wick) : (s.setWick k v).taper = s.taper := rfl
@[simp] theorem State.setWick_slots (s : State) (k : Nat) (v : Wick) : (s.setWick k v).slots = s.slots := rfl
@[simp] theorem State.setWick_chans (s : State) (k : Nat) (v : Wick) : (s.setWick k v).chans = s.chans := rfl
@[simp] theorem State.setWick_jobs (s : State) (k : Nat) (v : Wick) : (s.setWick k v).jobs = s.jobs := rfl
@[simp] theorem State.setWick_copies (s : State) (k : Nat) (v : Wick) : (s.setWick k v).copies = s.copies := rfl
@[simp] theorem State.setWick_armGens (s : State) (k : Nat) (v : Wick) : (s.setWick k v).armGens = s.armGens := rfl
@[simp] theorem State.setWick_held (s : State) (k : Nat) (v : Wick) : (s.setWick k v).held = s.held := rfl
@[simp] theorem State.setWick_ledger (s : State) (k : Nat) (v : Wick) : (s.setWick k v).ledger = s.ledger := rfl
@[simp] theorem State.setWick_relays (s : State) (k : Nat) (v : Wick) : (s.setWick k v).relays = s.relays := rfl
@[simp] theorem State.setWick_gateParts (s : State) (k : Nat) (v : Wick) : (s.setWick k v).gateParts = s.gateParts := rfl
@[simp] theorem State.setWick_nodes (s : State) (k : Nat) (v : Wick) : (s.setWick k v).nodes = s.nodes := rfl
@[simp] theorem State.setWick_sentRes (s : State) (k : Nat) (v : Wick) : (s.setWick k v).sentRes = s.sentRes := rfl
@[simp] theorem State.setWick_insts (s : State) (k : Nat) (v : Wick) : (s.setWick k v).insts = s.insts := rfl
@[simp] theorem State.setWick_rotation (s : State) (k : Nat) (v : Wick) : (s.setWick k v).rotation = s.rotation := rfl
@[simp] theorem State.setWick_spilled (s : State) (k : Nat) (v : Wick) : (s.setWick k v).spilled = s.spilled := rfl
@[simp] theorem State.setWick_chains (s : State) (k : Nat) (v : Wick) : (s.setWick k v).chains = s.chains := rfl
@[simp] theorem State.setWick_chainCtxs (s : State) (k : Nat) (v : Wick) : (s.setWick k v).chainCtxs = s.chainCtxs := rfl
@[simp] theorem State.setWick_rankNodes (s : State) (k : Nat) (v : Wick) : (s.setWick k v).rankNodes = s.rankNodes := rfl
@[simp] theorem State.setWick_hbm (s : State) (k : Nat) (v : Wick) : (s.setWick k v).hbm = s.hbm := rfl
@[simp] theorem State.setWick_fabricRd (s : State) (k : Nat) (v : Wick) : (s.setWick k v).fabricRd = s.fabricRd := rfl
@[simp] theorem State.setWick_hostBulk (s : State) (k : Nat) (v : Wick) : (s.setWick k v).hostBulk = s.hostBulk := rfl
@[simp] theorem State.setWick_mreqs (s : State) (k : Nat) (v : Wick) : (s.setWick k v).mreqs = s.mreqs := rfl
@[simp] theorem State.setWick_jnlFetch (s : State) (k : Nat) (v : Wick) : (s.setWick k v).jnlFetch = s.jnlFetch := rfl
@[simp] theorem State.setWick_jnlReady (s : State) (k : Nat) (v : Wick) : (s.setWick k v).jnlReady = s.jnlReady := rfl
@[simp] theorem State.setWick_jnlBad (s : State) (k : Nat) (v : Wick) : (s.setWick k v).jnlBad = s.jnlBad := rfl
@[simp] theorem State.setWick_pkg (s : State) (k : Nat) (v : Wick) : (s.setWick k v).pkg = s.pkg := rfl
@[simp] theorem State.setWick_macroBad (s : State) (k : Nat) (v : Wick) : (s.setWick k v).macroBad = s.macroBad := rfl
@[simp] theorem State.setWick_todo (s : State) (k : Nat) (v : Wick) : (s.setWick k v).todo = s.todo := rfl
@[simp] theorem State.setWick_freeIdx (s : State) (k : Nat) (v : Wick) : (s.setWick k v).freeIdx = s.freeIdx := rfl
@[simp] theorem State.setWick_pending (s : State) (k : Nat) (v : Wick) : (s.setWick k v).pending = s.pending := rfl

/-! ### A keeper -/

@[simp] theorem State.setKeeper_tsu (s : State) (k : Nat) (v : Keeper) : (s.setKeeper k v).tsu = s.tsu := rfl
@[simp] theorem State.setKeeper_dist (s : State) (k : Nat) (v : Keeper) : (s.setKeeper k v).dist = s.dist := rfl
@[simp] theorem State.setKeeper_osc (s : State) (k : Nat) (v : Keeper) : (s.setKeeper k v).osc = s.osc := rfl
@[simp] theorem State.setKeeper_engines (s : State) (k : Nat) (v : Keeper) : (s.setKeeper k v).engines = s.engines := rfl
@[simp] theorem State.setKeeper_wicks (s : State) (k : Nat) (v : Keeper) : (s.setKeeper k v).wicks = s.wicks := rfl
@[simp] theorem State.setKeeper_taper (s : State) (k : Nat) (v : Keeper) : (s.setKeeper k v).taper = s.taper := rfl
@[simp] theorem State.setKeeper_slots (s : State) (k : Nat) (v : Keeper) : (s.setKeeper k v).slots = s.slots := rfl
@[simp] theorem State.setKeeper_chans (s : State) (k : Nat) (v : Keeper) : (s.setKeeper k v).chans = s.chans := rfl
@[simp] theorem State.setKeeper_jobs (s : State) (k : Nat) (v : Keeper) : (s.setKeeper k v).jobs = s.jobs := rfl
@[simp] theorem State.setKeeper_copies (s : State) (k : Nat) (v : Keeper) : (s.setKeeper k v).copies = s.copies := rfl
@[simp] theorem State.setKeeper_armGens (s : State) (k : Nat) (v : Keeper) : (s.setKeeper k v).armGens = s.armGens := rfl
@[simp] theorem State.setKeeper_held (s : State) (k : Nat) (v : Keeper) : (s.setKeeper k v).held = s.held := rfl
@[simp] theorem State.setKeeper_ledger (s : State) (k : Nat) (v : Keeper) : (s.setKeeper k v).ledger = s.ledger := rfl
@[simp] theorem State.setKeeper_relays (s : State) (k : Nat) (v : Keeper) : (s.setKeeper k v).relays = s.relays := rfl
@[simp] theorem State.setKeeper_gateParts (s : State) (k : Nat) (v : Keeper) : (s.setKeeper k v).gateParts = s.gateParts := rfl
@[simp] theorem State.setKeeper_nodes (s : State) (k : Nat) (v : Keeper) : (s.setKeeper k v).nodes = s.nodes := rfl
@[simp] theorem State.setKeeper_sentRes (s : State) (k : Nat) (v : Keeper) : (s.setKeeper k v).sentRes = s.sentRes := rfl
@[simp] theorem State.setKeeper_insts (s : State) (k : Nat) (v : Keeper) : (s.setKeeper k v).insts = s.insts := rfl
@[simp] theorem State.setKeeper_rotation (s : State) (k : Nat) (v : Keeper) : (s.setKeeper k v).rotation = s.rotation := rfl
@[simp] theorem State.setKeeper_spilled (s : State) (k : Nat) (v : Keeper) : (s.setKeeper k v).spilled = s.spilled := rfl
@[simp] theorem State.setKeeper_chains (s : State) (k : Nat) (v : Keeper) : (s.setKeeper k v).chains = s.chains := rfl
@[simp] theorem State.setKeeper_chainCtxs (s : State) (k : Nat) (v : Keeper) : (s.setKeeper k v).chainCtxs = s.chainCtxs := rfl
@[simp] theorem State.setKeeper_rankNodes (s : State) (k : Nat) (v : Keeper) : (s.setKeeper k v).rankNodes = s.rankNodes := rfl
@[simp] theorem State.setKeeper_hbm (s : State) (k : Nat) (v : Keeper) : (s.setKeeper k v).hbm = s.hbm := rfl
@[simp] theorem State.setKeeper_fabricRd (s : State) (k : Nat) (v : Keeper) : (s.setKeeper k v).fabricRd = s.fabricRd := rfl
@[simp] theorem State.setKeeper_hostBulk (s : State) (k : Nat) (v : Keeper) : (s.setKeeper k v).hostBulk = s.hostBulk := rfl
@[simp] theorem State.setKeeper_mreqs (s : State) (k : Nat) (v : Keeper) : (s.setKeeper k v).mreqs = s.mreqs := rfl
@[simp] theorem State.setKeeper_jnlFetch (s : State) (k : Nat) (v : Keeper) : (s.setKeeper k v).jnlFetch = s.jnlFetch := rfl
@[simp] theorem State.setKeeper_jnlReady (s : State) (k : Nat) (v : Keeper) : (s.setKeeper k v).jnlReady = s.jnlReady := rfl
@[simp] theorem State.setKeeper_jnlBad (s : State) (k : Nat) (v : Keeper) : (s.setKeeper k v).jnlBad = s.jnlBad := rfl
@[simp] theorem State.setKeeper_pkg (s : State) (k : Nat) (v : Keeper) : (s.setKeeper k v).pkg = s.pkg := rfl
@[simp] theorem State.setKeeper_macroBad (s : State) (k : Nat) (v : Keeper) : (s.setKeeper k v).macroBad = s.macroBad := rfl
@[simp] theorem State.setKeeper_todo (s : State) (k : Nat) (v : Keeper) : (s.setKeeper k v).todo = s.todo := rfl
@[simp] theorem State.setKeeper_freeIdx (s : State) (k : Nat) (v : Keeper) : (s.setKeeper k v).freeIdx = s.freeIdx := rfl
@[simp] theorem State.setKeeper_pending (s : State) (k : Nat) (v : Keeper) : (s.setKeeper k v).pending = s.pending := rfl

/-! ### Reading what was set -/

@[simp] theorem State.eng_setEng_same (s : State) (e : EngSel) (v : Engine) : (s.setEng e v).eng e = v := mget_mset_same _ _ _ _

/-- The engines of different selectors are different engines. -/
theorem EngSel.key_inj {e f : EngSel} (h : e.key = f.key) : e = f := by
  cases e <;> cases f <;> simp_all [EngSel.key] <;> omega

theorem State.eng_setEng_other (s : State) {e f : EngSel} (v : Engine) (h : f ≠ e) : (s.setEng e v).eng f = s.eng f :=
  mget_mset_other _ _ v fun k => h (EngSel.key_inj k)

@[simp] theorem State.job_setJob_same (s : State) (k : Nat) (v : Job) : (s.setJob k v).job k = v := mget_mset_same _ _ _ _

theorem State.job_setJob_other (s : State) {k i : Nat} (v : Job) (h : i ≠ k) : (s.setJob k v).job i = s.job i :=
  mget_mset_other _ _ v h

@[simp] theorem State.slot_setSlot_same (s : State) (k : Nat) (v : Slot) : (s.setSlot k v).slot k = v := mget_mset_same _ _ _ _

theorem State.slot_setSlot_other (s : State) {k i : Nat} (v : Slot) (h : i ≠ k) : (s.setSlot k v).slot i = s.slot i :=
  mget_mset_other _ _ v h

@[simp] theorem State.chan_setChan_same (s : State) (k : Nat) (v : Chan) : (s.setChan k v).chan k = v := mget_mset_same _ _ _ _

theorem State.chan_setChan_other (s : State) {k i : Nat} (v : Chan) (h : i ≠ k) : (s.setChan k v).chan i = s.chan i :=
  mget_mset_other _ _ v h

@[simp] theorem State.chain_setChain_same (s : State) (k : Nat) (v : ChainSlot) : (s.setChain k v).chain k = v :=
  mget_mset_same _ _ _ _

theorem State.chain_setChain_other (s : State) {k i : Nat} (v : ChainSlot) (h : i ≠ k) : (s.setChain k v).chain i = s.chain i :=
  mget_mset_other _ _ v h

@[simp] theorem State.nodeSt_setNode_same (s : State) (k : Nat) (v : NodeSt) : (s.setNode k v).nodeSt k = v := mget_mset_same _ _ _ _

theorem State.nodeSt_setNode_other (s : State) {k i : Nat} (v : NodeSt) (h : i ≠ k) : (s.setNode k v).nodeSt i = s.nodeSt i :=
  mget_mset_other _ _ v h

@[simp] theorem State.wick_setWick_same (s : State) (k : Nat) (v : Wick) : (s.setWick k v).wick k = v := mget_mset_same _ _ _ _

theorem State.wick_setWick_other (s : State) {k i : Nat} (v : Wick) (h : i ≠ k) : (s.setWick k v).wick i = s.wick i :=
  mget_mset_other _ _ v h

end Sys2Proof.Machine
end

