-- ==== Sys2Proof/Laws/Memory.lean ====
section
/-!
SUPPORT. The memories of a step engine: what a byte reads as after a store, and that every store and every IMEM write keeps the canonical
form.
-/
namespace Sys2Proof.Machine

/-- The map after `n` bytes of `bs` are stored from `a` on. -/
def storeBytes (a n : Nat) (bs : List Byte) (m : List (Nat × Byte)) : List (Nat × Byte) :=
  (List.range n).foldl (fun m k => mset (fun _ => 0) m (a + k) (bs.getD k 0)) m

theorem mget_storeBytes (a n b : Nat) (bs : List Byte) (m : List (Nat × Byte)) :
    mget (fun _ => 0) (storeBytes a n bs m) b = if a ≤ b ∧ b < a + n then bs.getD (b - a) 0 else mget (fun _ => 0) m b := by
  induction n with
  | zero => rw [if_neg (by omega)]; rfl
  | succ n ih =>
    unfold storeBytes at *
    rw [List.range_succ, List.foldl_append, List.foldl_cons, List.foldl_nil, mget_mset, ih]
    by_cases h : b = a + n
    · subst h
      rw [if_pos rfl, if_pos (by omega), Nat.add_sub_cancel_left]
    · rw [if_neg h]
      by_cases k : a ≤ b ∧ b < a + n
      · rw [if_pos k, if_pos (by omega)]
      · rw [if_neg k, if_neg (by omega)]

theorem mwf_storeBytes (a n : Nat) (bs : List Byte) {m : List (Nat × Byte)} (h : mwf (fun _ => (0 : Byte)) m = true) :
    mwf (fun _ => (0 : Byte)) (storeBytes a n bs m) = true := by
  induction n with
  | zero => exact h
  | succ n ih =>
    unfold storeBytes at *
    rw [List.range_succ, List.foldl_append, List.foldl_cons, List.foldl_nil]
    exact mwf_mset _ _ ih

/-! ### Correcting single-bit errors (R204) -/

/-- A correction leaves the engines as the error lists' update leaves them. -/
theorem State.eng_eccCorrect (s : State) (e f : EngSel) (ws : List Nat) (im : Bool) :
    (s.eccCorrect e ws im).eng f = s.eng f ∨
      (f = e ∧ (s.eccCorrect e ws im).eng f = if im then { s.eng e with oneI := (s.eng e).oneI.filter fun w => !ws.contains w }
        else { s.eng e with oneD := (s.eng e).oneD.filter fun w => !ws.contains w }) := by
  have h : ∀ (t : State) (n : Nat), ((t.bump e.part .senEccCnt 15 0 n e.inst).setB e.part .senStat 1 e.inst).eng f = t.eng f :=
    fun t n => by simp [State.eng, State.bump, State.setB]
  by_cases z : ((if im then (s.eng e).oneI else (s.eng e).oneD).filter ws.contains).length = 0
  · exact .inl (by simp only [State.eccCorrect, if_pos z])
  · simp only [State.eccCorrect, if_neg z, h]
    by_cases k : f = e
    · subst k
      exact .inr ⟨rfl, by simp only [State.modEng, State.eng_setEng_same]⟩
    · exact .inl (s.eng_setEng_other _ k)

/-- Correcting what a read of DMEM found changes no byte of it. -/
theorem State.dmem_dmemSeen (s : State) (e f : EngSel) (a n : Nat) : ((s.dmemSeen e a n).eng f).dmem = (s.eng f).dmem := by
  obtain h | ⟨rfl, h⟩ := s.eng_eccCorrect e f (dmemWords a n) false
  · exact congrArg Engine.dmem h
  · rw [State.dmemSeen, h]; rfl

theorem State.eng_dmemSeen_other (s : State) {e f : EngSel} (a n : Nat) (h : f ≠ e) : (s.dmemSeen e a n).eng f = s.eng f :=
  (s.eng_eccCorrect e f (dmemWords a n) false).resolve_right fun k => h k.1

/-! ### Stores -/

/-- The bytes of DMEM after a store. -/
theorem State.dmem_dmemBlock (s : State) (e : EngSel) (a : Nat) (bs : List Byte) :
    ((s.dmemBlock e a bs).eng e).dmem = storeBytes a bs.length bs (s.eng e).dmem := by
  simp only [State.dmemBlock, State.dmem_dmemSeen, State.modEng, State.eng_setEng_same]
  rfl

/-- A byte of DMEM after a store: the stored byte inside the stored bytes, and as before outside them. -/
theorem State.byte_dmemBlock (s : State) (e : EngSel) (a b : Nat) (bs : List Byte) :
    ((s.dmemBlock e a bs).eng e).byte b = if a ≤ b ∧ b < a + bs.length then bs.getD (b - a) 0 else (s.eng e).byte b := by
  unfold Engine.byte
  rw [s.dmem_dmemBlock]
  exact mget_storeBytes a bs.length b bs (s.eng e).dmem

theorem natLe_length : ∀ n v : Nat, (natLe n v).length = n
  | 0, _ => rfl
  | n + 1, v => congrArg Nat.succ (natLe_length n (v / 256))

theorem State.byte_dmemWrite (s : State) (e : EngSel) (a n v b : Nat) :
    ((s.dmemWrite e a n v).eng e).byte b = if a ≤ b ∧ b < a + n then (natLe n v).getD (b - a) 0 else (s.eng e).byte b := by
  have h := s.byte_dmemBlock e a b (natLe n v)
  rwa [natLe_length] at h

theorem State.eng_dmemBlock_other (s : State) {e f : EngSel} (a : Nat) (bs : List Byte) (h : f ≠ e) :
    (s.dmemBlock e a bs).eng f = s.eng f := (State.eng_dmemSeen_other _ _ _ h).trans (s.eng_setEng_other _ h)

theorem State.eng_dmemWrite_other (s : State) {e f : EngSel} (a n v : Nat) (h : f ≠ e) : (s.dmemWrite e a n v).eng f = s.eng f :=
  s.eng_dmemBlock_other a _ h

/-- A store keeps the canonical form of DMEM. -/
theorem State.dmemBlock_wf (s : State) (e f : EngSel) (a : Nat) (bs : List Byte) (h : mwf (fun _ => (0 : Byte)) (s.eng f).dmem = true) :
    mwf (fun _ => (0 : Byte)) ((s.dmemBlock e a bs).eng f).dmem = true := by
  by_cases k : f = e
  · subst k
    rw [s.dmem_dmemBlock]
    exact mwf_storeBytes a bs.length _ h
  · rwa [s.eng_dmemBlock_other a bs k]

theorem State.dmemWrite_wf (s : State) (e f : EngSel) (a n v : Nat) (h : mwf (fun _ => (0 : Byte)) (s.eng f).dmem = true) :
    mwf (fun _ => (0 : Byte)) ((s.dmemWrite e a n v).eng f).dmem = true := s.dmemBlock_wf e f a _ h

/-- A write to an IMEM word keeps the canonical form of IMEM. -/
theorem State.imemWrite_wf (s : State) (e f : EngSel) (w : Nat) (v : Word) (h : mwf (fun _ => (0 : Word)) (s.eng f).imem = true) :
    mwf (fun _ => (0 : Word)) ((s.imemWrite e w v).2.eng f).imem = true := by
  unfold State.imemWrite
  split
  · exact h
  · split
    · exact h
    · by_cases k : f = e
      · subst k
        simp only [State.modEng, State.eng_setEng_same]
        exact mwf_mset w v h
      · simpa only [State.modEng, State.eng_setEng_other _ _ k] using h

/-- A register write keeps the canonical form of both parts' register words. -/
theorem State.wrA_wf (s : State) (p q : PartId) (a : Nat) (v : Word) (h : mwf (resetAt q) (s.part q).regs = true) :
    mwf (resetAt q) ((s.wrA p a v).part q).regs = true := by
  unfold State.wrA
  split
  · by_cases k : q = p
    · subst k
      rw [State.part_mod_same]
      exact mwf_mset a v h
    · rwa [s.part_mod_other _ k]
  · exact h

end Sys2Proof.Machine
end

