-- ==== Sys2Proof/Laws/Ops.lean ====
section
/-!
SUPPORT. What the shared operations of Machine/Ops.lean can do: reading a register word after a write, the operations that change the two
parts and nothing else, and what a journal record leaves alone.
-/
namespace Sys2Proof.Machine

/-! ### Register words -/

theorem State.rdA_wrA_same (s : State) (p : PartId) {a : Nat} (v : Word) (h : a < 0x4000000) : (s.wrA p a v).rdA p a = v := by
  simp [State.wrA, State.rdA, h]

theorem State.rdA_wrA_other (s : State) {p q : PartId} {a b : Nat} (v : Word) (h : q ≠ p ∨ b ≠ a) :
    (s.wrA p a v).rdA q b = s.rdA q b := by
  unfold State.wrA
  split
  · by_cases hq : q = p
    · subst hq
      have hb : b ≠ a := h.resolve_left fun k => k rfl
      simp [State.rdA, mget_mset_other _ _ v hb]
    · simp [State.rdA, s.part_mod_other _ hq]
  · rfl

theorem State.rd_wr_same (s : State) (p : PartId) (n : RegName) (v : Word) (i j : Nat) (h : addrOf p n i j < 0x4000000) :
    (s.wr p n v i j).rd p n i j = v := s.rdA_wrA_same p v h

theorem State.rdA_wr_other (s : State) {p q : PartId} (n : RegName) (v : Word) (i j : Nat) {b : Nat} (h : q ≠ p ∨ b ≠ addrOf p n i j) :
    (s.wr p n v i j).rdA q b = s.rdA q b := s.rdA_wrA_other v h

theorem State.rdA_setF_other (s : State) {p q : PartId} (n : RegName) (hi lo v i j : Nat) {b : Nat}
    (h : q ≠ p ∨ b ≠ addrOf p n i j) : (s.setF p n hi lo v i j).rdA q b = s.rdA q b := s.rdA_wr_other n _ i j h

/-- A part changed without its registers reads as before. -/
theorem State.rdA_mod (s : State) (p q : PartId) (f : Part → Part) (a : Nat) (h : (f (s.part p)).regs = (s.part p).regs) :
    (s.mod p f).rdA q a = s.rdA q a := by
  unfold State.rdA
  by_cases hq : q = p
  · subst hq; rw [s.part_mod_same, h]
  · rw [s.part_mod_other f hq]

/-! ### Operations that change the parts alone -/

/-- Nothing outside the two parts has changed. -/
def OnlyParts (s t : State) : Prop := { t with tsu := s.tsu, dist := s.dist } = s

theorem OnlyParts.refl (s : State) : OnlyParts s s := rfl

theorem OnlyParts.trans {s t u : State} (h : OnlyParts s t) (k : OnlyParts t u) : OnlyParts s u := by
  unfold OnlyParts at *
  rw [← h, ← k]

theorem State.setPart_onlyParts (s : State) (p : PartId) (q : Part) : OnlyParts s (s.setPart p q) := by cases p <;> rfl

theorem State.tsu_onlyParts (s : State) (q : Part) : OnlyParts s { s with tsu := q } := rfl

theorem State.dist_onlyParts (s : State) (q : Part) : OnlyParts s { s with dist := q } := rfl

theorem State.mod_onlyParts (s : State) (p : PartId) (f : Part → Part) : OnlyParts s (s.mod p f) := s.setPart_onlyParts p _

theorem State.wrA_onlyParts (s : State) (p : PartId) (a : Nat) (v : Word) : OnlyParts s (s.wrA p a v) := by
  unfold State.wrA
  split
  · exact s.mod_onlyParts p _
  · rfl

theorem State.wr_onlyParts (s : State) (p : PartId) (n : RegName) (v : Word) (i j : Nat) : OnlyParts s (s.wr p n v i j) :=
  s.wrA_onlyParts p _ v

theorem State.setF_onlyParts (s : State) (p : PartId) (n : RegName) (hi lo v i j : Nat) : OnlyParts s (s.setF p n hi lo v i j) :=
  s.wr_onlyParts p n _ i j

theorem State.setB_onlyParts (s : State) (p : PartId) (n : RegName) (b i : Nat) : OnlyParts s (s.setB p n b i) :=
  s.setF_onlyParts p n b b 1 i 0

theorem State.bump_onlyParts (s : State) (p : PartId) (n : RegName) (hi lo k i j : Nat) : OnlyParts s (s.bump p n hi lo k i j) :=
  s.setF_onlyParts p n hi lo _ i j

theorem State.spillPump_onlyParts (s : State) : OnlyParts s s.spillPump := by
  unfold State.spillPump
  split
  · dsimp only
    split
    · exact OnlyParts.trans (s.tsu_onlyParts _) (State.setB_onlyParts _ .tsu .jnlStat 1 0)
    · rfl
  · rfl

theorem State.pushRec_onlyParts (s : State) (w : Who) (h : HT) (ty payload : Nat) : OnlyParts s (s.pushRec w h ty payload) := by
  unfold State.pushRec
  dsimp only
  split
  · exact OnlyParts.trans (OnlyParts.trans (s.tsu_onlyParts _) (State.bump_onlyParts _ .tsu .jnlLost 31 0 1 0 0))
      (State.setB_onlyParts _ .tsu .jnlStat 2 0)
  · rfl

theorem State.flushLoss_onlyParts (s : State) : OnlyParts s s.flushLoss := by
  unfold State.flushLoss
  split
  · split
    · dsimp only
      exact OnlyParts.trans (s.tsu_onlyParts _) (State.pushRec_onlyParts _ _ _ _ _)
    · rfl
  · rfl

theorem State.pushRing_onlyParts (s : State) (tile : Nat) (r : JRec) : OnlyParts s (s.pushRing tile r) := by
  unfold State.pushRing
  dsimp only
  split
  · exact OnlyParts.trans (OnlyParts.trans (s.dist_onlyParts _) (State.bump_onlyParts _ .dist .jnlLost 31 0 1 0 0))
      (State.setB_onlyParts _ .dist .jnlStat 2 0)
  · rfl

theorem State.pushHbm_onlyParts (s : State) (w : Who) (h : HT) (ty payload : Nat) : OnlyParts s (s.pushHbm w h ty payload) :=
  (s.pushRing_onlyParts _ _).trans (State.mod_onlyParts _ .dist _)

theorem State.savePump_onlyParts (s : State) : OnlyParts s s.savePump := s.mod_onlyParts .tsu _

/-- A journal record changes nothing outside the parts. -/
theorem State.jnlAt_onlyParts (s : State) (w : Who) (h : HT) (ty payload : Nat) : OnlyParts s (s.jnlAt w h ty payload) := by
  unfold State.jnlAt
  split
  · rfl
  · split
    · exact (s.flushLoss_onlyParts.trans (State.pushRec_onlyParts _ _ _ _ _)).trans (State.spillPump_onlyParts _)
    · exact s.pushHbm_onlyParts w h ty payload

theorem State.jnl_onlyParts (s : State) (w : Who) (ty payload : Nat) : OnlyParts s (s.jnl w ty payload) :=
  s.jnlAt_onlyParts w _ ty payload

theorem State.outcome_onlyParts (s : State) (w : Who) (c : Code) (op pc late : Nat) : OnlyParts s (s.outcome w c op pc late) :=
  s.jnl_onlyParts w _ _

theorem State.frameOutcome_onlyParts (s : State) (p : PartId) (blk : Nat) (c : Code) (cls ty late tile : Nat) :
    OnlyParts s (s.frameOutcome p blk c cls ty late tile) := s.outcome_onlyParts _ c _ _ late

theorem State.cfgRec_onlyParts (s : State) (p : PartId) (src : Src) (a : Nat) (old new : Word) (flags : Nat) (h : HT) (c : Code) :
    OnlyParts s (s.cfgRec p src a old new flags h c) := s.jnlAt_onlyParts _ h _ _

theorem State.timeEvent_onlyParts (s : State) (p : PartId) (reg b port : Nat) (v : Int) : OnlyParts s (s.timeEvent p reg b port v) :=
  s.jnl_onlyParts _ _ _

theorem State.stepHt_onlyParts (s : State) (p : PartId) (h : HT) (sub : Nat) (w : Who) : OnlyParts s (s.stepHt p h sub w) :=
  (s.mod_onlyParts p _).trans (State.jnl_onlyParts _ w _ _)

theorem State.setQual_onlyParts (s : State) (p : PartId) (code : Nat) : OnlyParts s (s.setQual p code) := by
  unfold State.setQual
  dsimp only
  split
  · rfl
  · refine OnlyParts.trans ?_ (State.jnl_onlyParts _ _ _ _)
    refine OnlyParts.trans ((s.setF_onlyParts p .tbsQual 2 0 code 0 0).trans (State.setB_onlyParts _ p .tbsStat 1 0)) ?_
    split
    · exact State.setB_onlyParts _ p .tbsStat 2 0
    · exact State.wr_onlyParts _ p .tbsHoldErr 0 0 0

theorem State.send_onlyParts (s : State) (p : PartId) (d : Dest) (f : Frame) : OnlyParts s (s.send p d f) := s.mod_onlyParts p _

theorem State.sendFlit_onlyParts (s : State) (p : PartId) (port : Nat) (sub : Option Nat) (fields : List Nat) :
    OnlyParts s (s.sendFlit p port sub fields) := s.mod_onlyParts p _

theorem State.lifCount_onlyParts (s : State) (p : PartId) (off n : Nat) : OnlyParts s (s.lifCount p off n) := s.mod_onlyParts p _

theorem State.unitEvent_onlyParts (s : State) (p : PartId) (key n : Nat) : OnlyParts s (s.unitEvent p key n) := s.mod_onlyParts p _

/-! ### A journal record and the registers -/

/-- No register word has changed but JNL_LOST and JNL_STAT of part `p`. -/
def OnlyJnlRegs (p : PartId) (s t : State) : Prop :=
  ∀ q a, (q = p ∧ (a = addrOf p .jnlLost ∨ a = addrOf p .jnlStat)) ∨ t.rdA q a = s.rdA q a

theorem OnlyJnlRegs.trans {p : PartId} {s t u : State} (h : OnlyJnlRegs p s t) (k : OnlyJnlRegs p t u) : OnlyJnlRegs p s u :=
  fun q a => (h q a).elim .inl fun h1 => (k q a).elim .inl fun k1 => .inr (k1.trans h1)

theorem State.tsu_jnlRegs (s : State) (p : PartId) (q : Part) (h : q.regs = s.tsu.regs) : OnlyJnlRegs p s { s with tsu := q } :=
  fun r a => .inr (by cases r <;> simp [State.rdA, State.part, h])

theorem State.dist_jnlRegs (s : State) (p : PartId) (q : Part) (h : q.regs = s.dist.regs) : OnlyJnlRegs p s { s with dist := q } :=
  fun r a => .inr (by cases r <;> simp [State.rdA, State.part, h])

theorem State.setF_jnl (s : State) (p : PartId) (n : RegName) (hi lo v : Nat) (hn : n = .jnlLost ∨ n = .jnlStat) :
    OnlyJnlRegs p s (s.setF p n hi lo v) := by
  intro q a
  by_cases h : q = p ∧ a = addrOf p n
  · rcases hn with rfl | rfl
    · exact .inl ⟨h.1, .inl h.2⟩
    · exact .inl ⟨h.1, .inr h.2⟩
  · exact .inr (s.rdA_setF_other n hi lo v 0 0 (by tauto))

theorem State.spillPump_regs (s : State) : OnlyJnlRegs .tsu s s.spillPump := by
  unfold State.spillPump
  split
  · dsimp only
    split
    · exact OnlyJnlRegs.trans (s.tsu_jnlRegs _ _ (by rfl)) (State.setF_jnl _ _ _ _ _ _ (.inr rfl))
    · exact fun q a => .inr (by cases q <;> rfl)
  · exact fun q a => .inr rfl

theorem State.pushRec_regs (s : State) (w : Who) (h : HT) (ty payload : Nat) : OnlyJnlRegs .tsu s (s.pushRec w h ty payload) := by
  unfold State.pushRec
  dsimp only
  split
  · exact OnlyJnlRegs.trans (OnlyJnlRegs.trans (s.tsu_jnlRegs _ _ (by rfl))
      (State.setF_jnl _ _ _ _ _ _ (.inl rfl))) (State.setF_jnl _ _ _ _ _ _ (.inr rfl))
  · exact fun q a => .inr (by cases q <;> rfl)

theorem State.flushLoss_regs (s : State) : OnlyJnlRegs .tsu s s.flushLoss := by
  unfold State.flushLoss
  split
  · split
    · dsimp only
      exact OnlyJnlRegs.trans (s.tsu_jnlRegs _ _ (by rfl)) (State.pushRec_regs _ _ _ _ _)
    · exact fun q a => .inr rfl
  · exact fun q a => .inr rfl

theorem State.pushRing_regs (s : State) (tile : Nat) (r : JRec) : OnlyJnlRegs .dist s (s.pushRing tile r) := by
  unfold State.pushRing
  dsimp only
  split
  · exact OnlyJnlRegs.trans (OnlyJnlRegs.trans (s.dist_jnlRegs _ _ (by rfl))
      (State.setF_jnl _ _ _ _ _ _ (.inl rfl))) (State.setF_jnl _ _ _ _ _ _ (.inr rfl))
  · exact fun q a => .inr (by cases q <;> rfl)

theorem State.pushHbm_regs (s : State) (w : Who) (h : HT) (ty payload : Nat) : OnlyJnlRegs .dist s (s.pushHbm w h ty payload) :=
  (s.pushRing_regs _ _).trans fun q a => .inr (State.rdA_mod _ .dist q _ a rfl)

/-- A journal record changes no register word but JNL_LOST and JNL_STAT of its part. -/
theorem State.jnlAt_regs (s : State) (w : Who) (h : HT) (ty payload : Nat) : OnlyJnlRegs w.p s (s.jnlAt w h ty payload) := by
  unfold State.jnlAt
  split
  · exact fun q a => .inr rfl
  · split
    · next hw => rw [hw]; exact (s.flushLoss_regs.trans (State.pushRec_regs _ _ _ _ _)).trans (State.spillPump_regs _)
    · next hw => rw [hw]; exact s.pushHbm_regs w h ty payload

theorem State.jnl_regs (s : State) (w : Who) (ty payload : Nat) : OnlyJnlRegs w.p s (s.jnl w ty payload) := s.jnlAt_regs w _ ty payload

/-! ### Hall time -/

/-- An instant already reached changes nothing. -/
theorem State.reach_reached (s : State) (p : PartId) {target : HT} (h : atOrAfter (s.ht p) target = true) : s.reach p target = s :=
  if_pos h

/-- Nothing outside the distributor's registers, queues and reference has changed. -/
def OnlyDist (s t : State) : Prop := { t with dist := s.dist, osc := s.osc } = s

theorem OnlyDist.refl (s : State) : OnlyDist s s := rfl

theorem OnlyDist.trans {s t u : State} (h : OnlyDist s t) (k : OnlyDist t u) : OnlyDist s u := by
  unfold OnlyDist at *
  rw [← h, ← k]

theorem State.dist_onlyDist (s : State) (f : Part → Part) : OnlyDist s (s.mod .dist f) := rfl

theorem State.wr_onlyDist (s : State) (n : RegName) (v : Word) (i j : Nat) : OnlyDist s (s.wr .dist n v i j) := by
  unfold State.wr State.wrA
  split
  · exact s.dist_onlyDist _
  · rfl

/-- A fold each of whose steps keeps to the distributor keeps to it. -/
theorem OnlyDist.foldl {α : Type} (f : State → α → State) (hf : ∀ s a, OnlyDist s (f s a)) :
    ∀ (l : List α) (s : State), OnlyDist s (l.foldl f s)
  | [], s => .refl s
  | a :: l, s => (hf s a).trans (OnlyDist.foldl f hf l (f s a))

theorem State.rebase_onlyDist (s : State) (h : HT) (rate : Int) : OnlyDist s (s.rebase .dist h rate) :=
  OnlyDist.foldl _ (fun t _ => t.wr_onlyDist _ _ 0 0) _ _

theorem State.serveDown_onlyDist (s : State) (f : Frame) : OnlyDist s (s.serveDown .dist f) :=
  OnlyDist.foldl _ (fun t _ => t.dist_onlyDist _) _ _

theorem State.osc_onlyDist (s : State) (o : OscState) : OnlyDist s { s with osc := o } := rfl

theorem State.endCalTerm_onlyDist (s : State) : OnlyDist s s.endCalTerm := by
  unfold State.endCalTerm
  split
  · split
    · exact ((s.rebase_onlyDist _ _).trans (State.osc_onlyDist _ _)).trans (State.serveDown_onlyDist _ _)
    · exact .refl s
  · exact .refl s

/-- Time passing in the distributor changes nothing outside it. -/
theorem State.passed_dist_onlyDist (s : State) (tb : TimeBase) : OnlyDist s (s.passed .dist tb) := by
  unfold State.passed
  dsimp only
  refine OnlyDist.trans ?_ (State.endCalTerm_onlyDist _)
  split
  · exact (s.dist_onlyDist _).trans (State.wr_onlyDist _ _ _ _ _)
  · exact s.dist_onlyDist _

theorem State.reach_dist_onlyDist (s : State) (target : HT) : OnlyDist s (s.reach .dist target) := by
  unfold State.reach
  split
  · rfl
  · exact s.passed_dist_onlyDist _

/-- With neither a slew nor a calendar term running, time passing sets the time base and drains the tiles' journal buffers. -/
theorem State.passed_dist_idle (s : State) (tb : TimeBase) (hr : s.dist.tb.rem = 0) (hc : s.osc.calTerm = none) :
    s.passed .dist tb = s.mod .dist fun q => { q with tb := tb, jnl := { q.jnl with wbuf := [] } } := by
  simp [State.passed, State.part, hr, State.endCalTerm, hc]

/-- Time passing in a distributor with neither a slew nor a calendar term running changes no register word. -/
theorem State.reach_dist_regs (s : State) (q : PartId) (target : HT) (a : Nat) (hr : s.dist.tb.rem = 0) (hc : s.osc.calTerm = none) :
    (s.reach .dist target).rdA q a = s.rdA q a := by
  unfold State.reach
  split
  · rfl
  · rw [s.passed_dist_idle _ hr hc]
    exact s.rdA_mod .dist q _ a rfl

/-! ### Free values and completions -/

@[simp] theorem State.draw_state (s : State) : s.draw.2 = { s with freeIdx := s.freeIdx + 1 } := rfl

@[simp] theorem State.completeOp_none (s : State) (c : Code) (v : DWord) (late extra : Nat) (rs : List Byte) :
    s.completeOp none c v late extra rs = s := rfl

@[simp] theorem State.completeOp_some (s : State) (o : OpRef) (c : Code) (v : DWord) (late extra : Nat) (rs : List Byte) :
    s.completeOp (some o) c v late extra rs = { s with todo := s.todo ++ [{ op := o, code := c, value := v, late := late, extra := extra, results := rs }] } := rfl

end Sys2Proof.Machine
end

