-- ==== Sys2Proof/Tests/Slice0.lean ====
section
/-!
SUPPORT. Tests: for every statement with hypotheses a state and operands that meet them, ill-formed commands that `Instr.wf` refuses, words
and numbers of the spec's worked examples, and the step. Expected values are the spec's, or worked out by hand from its rules.
-/
set_option linter.unusedVariables false
set_option Elab.async false
open Sys2Proof Sys2Proof.Machine
namespace Sys2Proof.Tests

/-! ### States the witnesses start from -/

/-- Both parts after their wipes. -/
def awake : State := (State.reset.wr .tsu .sysLifecycle 0).wr .dist .sysLifecycle 0

/-- A source of class DEBUG, which both parts have. -/
def dbg : Src := { cls := .debug }

/-- The housekeeping processor of tile 7. -/
def hkp7 : Src := { cls := .hkp, tile := 7 }

/-- A converted TDC event. -/
def tres : TdcResult := { value := 0xFEDCBA9876543210#64, ovf := false, uncal := true, stale := false, falling := false, seq := 65535, raw := 255 }

/-- The TSU with slot `c` in state `st`, of handle 0xFFFF, generation 3 and epoch 5. -/
def slotIn (c st : Nat) : State :=
  ((awake.wr .tsu .slotState (BitVec.ofNat 32 (0xFFFF0000 + st)) c).wr .tsu .slotJob 0x03000000 c).wr .tsu .slotEpoch 5 c

/-- A distributor of tier 3 that acts as the time source. -/
def srcD : State := (awake.wr .dist .sysTier 3).mod .dist fun q => { q with srv := { q.srv with source := true } }

/-- The state with the next GK write of class `c` unlocked. -/
def unlock (p : PartId) (c : Cls) (s : State) : State := s.mod p fun q => { q with unlocked := [c] }

/-- Context `c` of an engine RUNNING at PC 62 of an IWIN of 64 words, with a DWIN of 256 bytes at byte 256. -/
def ctxAt (e : EngSel) (c : Fin 16) : State :=
  (((awake.setCst e c 1).wr e.part .ctxIwin 0x10000 (ctxInst e c)).wr e.part .ctxDwin 0x10001 (ctxInst e c)).setPc e c 62

/-- Context 15 of tile 7 and of the TSU. -/
def x7 : CtxRef := { eng := .tile 7, ctx := 15 }
def xT : CtxRef := { eng := .tsu, ctx := 15 }

/-- The TSU's context 15 RUNNING, and slot 15 with state word `w`, of handle 0xFFFF, generation 3 and epoch 5, in SERVICE. -/
def slotRun (w : Nat) : State :=
  ((((ctxAt .tsu 15).wr .tsu .slotState (BitVec.ofNat 32 (0xFFFF0000 + w)) 15).wr .tsu .slotJob 0x03000000 15).wr .tsu .slotEpoch 5 15).wr
    .tsu .sysLifecycle 2

/-- As `slotRun`, with object 8191 a COUNT owned by slot 15, and operand bytes at the start of the DWIN. -/
def slotOp (w : Nat) (bs : List Byte) : State :=
  ((slotRun w).setObj .tsu 8191 { word := 0x1F03000000000005#64 }).dmemBlock .tsu 256 bs

/-- Tile 7's context 15 RUNNING for job context 1023, with object 8191 a COUNT of slot 15. -/
def rootOp (j : Job) : State :=
  (((ctxAt (.tile 7) 15).setObj (.tile 7) 8191 { word := 0x1F00000000000005#64 }).setG (.tile 7) 15 30 1023).setJob 1023 j

/-! ### What the statements suppose is met -/

/-- A state and operands that meet the hypotheses of RegisterWritesTakeEffectByAccess, for each of its clauses. -/
theorem meets_RegisterWritesTakeEffectByAccess :
    ((fun (p : PartId) (src : Src) (v : Word) (s : State) => (s.permits p src (some 0) true = true)) (.dist) (hkp7) (0xFFFFFFFF#32) (awake)) ∧
    ((fun (p : PartId) (src : Src) (v : Word) (s : State) => (s.permits p src (some 1) true = true)) (.tsu) (dbg) (0xFFFFFFFF#32) (awake)) ∧
    ((fun (p : PartId) (src : Src) (v : Word) (s : State) => (s.permits p src (some 0) true = true)) (.tsu) (dbg) (1#32) (awake)) ∧
    ((fun (p : PartId) (src : Src) (v : Word) (s : State) => (s.permits p src (some 0) true = true)) (.dist) (hkp7) (0#32) (awake)) :=
  by
  iterate 3 refine ⟨by decide +kernel, ?_⟩
  decide +kernel

/-- A state and operands that meet the hypotheses of StatusReadsReturnAndClear, for each of its clauses. -/
theorem meets_StatusReadsReturnAndClear :
    ((fun (p : PartId) (src : Src) (s : State) => (src.cls ≠ .engine) ∧ (s.permits p src (some 1) false = true)) (.dist) (hkp7) (awake.setB .dist .tbsStat 3)) ∧
    ((fun (src : Src) (c : Fin 16) (q : Nat) (bs : List Byte) (s : State) => (s.permits .tsu src (some 9) false = true) ∧ (s.chan c = { s.chan c with pend := some (q, bs) })) (dbg) (15) (65535) ([1, 2]) (awake.setChan 15 { pend := some (65535, [1, 2]), overw := true })) ∧
    ((fun (e : EngSel) (un : Fin 2) (src : Src) (r : TdcResult) (rs : List TdcResult) (s : State) => (s.permits e.part src (some 4) false = true) ∧ (mget (fun _ => []) (s.tdcU e.part (tdcInst e un)).fifos (s.fd e.part .tdcRsel 3 0 (tdcInst e un)) = r :: rs)) (.tile 7) (1) (dbg) (tres) ([]) (awake.setTdc .dist 15 { fifos := [(0, [tres])] })) ∧
    ((fun (src : Src) (v : JobEvent) (vs : List JobEvent) (s : State) => (s.permits .dist src (some 16) false = true) ∧ ((s.job (s.selJob src)).events = v :: vs)) (hkp7) (⟨2, 1048575, 7⟩) ([]) (awake.setJob 0 { events := [⟨2, 1048575, 7⟩] })) :=
  by
  iterate 3 refine ⟨by decide +kernel, ?_⟩
  decide +kernel

/-- A state and operands that meet the hypotheses of StrobesAreQueuedAppliedRemoved, for each of its clauses. -/
theorem meets_StrobesAreQueuedAppliedRemoved :
    ((fun (p : PartId) (src : Src) (mask : Word) (s : State) => (s.permits p src (some 0) true = true)) (.tsu) (dbg) (0xFFFFFFFF#32) (awake)) ∧
    ((fun (p : PartId) (src : Src) (v : Word) (lo : Word) (s : State) => (s.permits p src (some 0) true = true) ∧ (s.staged p src (addrOf p .sysUpdAtLo) (s.rd p .sysUpdAtLo) = lo) ∧ ((s.part p).scheduled.length < strobeCap p) ∧ (noSign (v ++ lo) (s.ht p) = false)) (.dist) (hkp7) (0x7FFFFFFF#32) (0xFFFFFFFF#32) ((awake.wr .dist .sysUpdMask 6).setStage .dist hkp7 (addrOf .dist .sysUpdAtLo) (some 0xFFFFFFFF))) ∧
    ((fun (p : PartId) (src : Src) (v : Word) (s : State) => (s.permits p src (some 0) true = true) ∧ (strobeCap p ≤ (s.part p).scheduled.length)) (.tsu) (dbg) (7#32) (awake.mod .tsu fun q => { q with strobes := List.replicate 8 ⟨512, 512, 4, dbg, .register, false⟩ })) ∧
    ((fun (p : PartId) (src : Src) (v : Word) (s : State) => (s.permits p src (some 0) true = true) ∧ (v.getLsbD 0 = true)) (.tsu) (dbg) (1#32) (awake.mod .tsu fun q => { q with strobes := [⟨512, 512, 4, dbg, .register, false⟩] })) ∧
    ((fun (p : PartId) (src : Src) (v : Word) (s : State) => (s.permits p src (some 0) true = true) ∧ (v.getLsbD 0 = false)) (.tsu) (dbg) (2#32) (awake.mod .tsu fun q => { q with strobes := [⟨512, 512, 4, dbg, .register, false⟩] })) ∧
    ((fun (p : PartId) (t0 : HT) (u : HT) (r : StrobeReq) (v : Word) (s : State) => (earliest (s.strobeTicks p) = some t0) ∧ ((if atOrAfter (s.ht p) t0 then s.ht p else t0) = u) ∧ ((s.part p).strobes.contains r = true) ∧ (atOrAfter u (s.tickAt p r.due) = true) ∧ (r.mask.testBit 1 = true) ∧ ((match r.kind with | .frame _ _ => !(decide (p = .tsu) && s.fenced) | _ => true) = true) ∧ (((s.part p).pend.all fun (y : Nat × Word) => y.1 != addrOf p .tbsHoldMax || y.2 == v) = true) ∧ ((s.part p).pend.contains (addrOf p .tbsHoldMax, v) = true)) (.dist) (0x200#64) (0x200#64) (⟨0x180, 0x180, 6, dbg, .register, false⟩) (9#32) (awake.mod .dist fun q => { q with pend := [(addrOf .dist .tbsHoldMax, 9), (addrOf .dist .oscCtrl, 2)], strobes := [⟨0x180, 0x180, 6, dbg, .register, false⟩, ⟨0x1F0, 0x1F0, 4, hkp7, .register, false⟩, ⟨0x300, 0x300, 2, dbg, .register, false⟩] })) ∧
    ((fun (handle : BitVec 16) (gen : Byte) (epoch : Word) (mask : Word) (tick : HT) (c : Nat) (s : State) => (s.fenced = false) ∧ (s.slotOfHandle handle.toNat = some c) ∧ (s.slotMatches c gen.toNat epoch.toNat = true) ∧ ((s.part .tsu).scheduled.length < 8) ∧ (noSign tick (s.ht .tsu) = false)) (0xFFFF#16) (3#8) (5#32) (2#32) (0x100#64) (15) (slotIn 15 1)) :=
  by
  iterate 6 refine ⟨by decide +kernel, ?_⟩
  decide +kernel

/-- A state and operands that meet the hypotheses of GuardsLocksAndSeals, for each of its clauses. -/
theorem meets_GuardsLocksAndSeals :
    ((fun (p : PartId) (src : Src) (key : Word) (s : State) => (s.permits p src (some 0) true = true) ∧ (fld key 15 0 = 0xC4D1)) (.dist) (hkp7) (0xFFFFC4D1#32) (awake)) ∧
    ((fun (p : PartId) (src : Src) (lo : Word) (g : GuardOpen) (s : State) => (s.permits p src (some 1) true = true) ∧ ((s.part p).guard = some g) ∧ (g.addr = addrOf p .tbsHtsetHi) ∧ (s.staged p g.src (addrOf p .tbsHtsetLo) (s.rd p .tbsHtsetLo) = lo) ∧ (s.htSetAllowed p = true)) (.tsu) (dbg) (0x123#32) (⟨addrOf .tsu .tbsHtsetHi, 5, dbg⟩) ((awake.setStage .tsu dbg (addrOf .tsu .tbsHtsetLo) (some 0x123)).mod .tsu fun q => { q with guard := some ⟨addrOf .tsu .tbsHtsetHi, 5, dbg⟩ })) ∧
    ((fun (p : PartId) (src : Src) (s : State) => (s.permits p src (some 0) true = true) ∧ (s.isOpen p = true)) (.dist) (hkp7) (awake)) ∧
    ((fun (p : PartId) (src : Src) (target : Fin 4) (force : Bool) (s : State) => (s.permits p src (some 0) true = true) ∧ ((s.part p).unlocked.contains src.cls = true) ∧ (s.lcReqCode p target force = .ok)) (.dist) (hkp7) (3) (true) (awake.mod .dist fun q => { q with unlocked := [.hkp] })) :=
  by
  iterate 3 refine ⟨by decide +kernel, ?_⟩
  decide +kernel

/-- A state and operands that meet the hypotheses of IndirectSpacesFetchAndAdvance, for each of its clauses. -/
theorem meets_IndirectSpacesFetchAndAdvance :
    ((fun (p : PartId) (src : Src) (v : Word) (s : State) => (s.permits p src (some 12) true = true)) (.dist) (hkp7) (0x80FFFFFF#32) (awake)) ∧
    ((fun (p : PartId) (src : Src) (s : State) => (src.cls ≠ .engine) ∧ (s.permits p src (some 12) false = true) ∧ (s.wiping p = false) ∧ (s.indexOf p .lifIaddr < lifSpace p) ∧ (s.bt p .lifIaddr 31 = true)) (.dist) (hkp7) (awake.wr .dist .lifIaddr 0x80000000)) ∧
    ((fun (k : Nat) (s : State) => (s.jnlFetch = some k)) (16777215) ({ awake with jnlFetch := some 16777215 })) ∧
    ((fun (k : Nat) (v : Word) (s : State) => (s.kc.fetching = some k) ∧ (k < 16384)) (16383) (7#32) ({ awake with kc := { awake.kc with fetching := some 16383 } })) :=
  by
  iterate 3 refine ⟨by decide +kernel, ?_⟩
  decide +kernel

/-- A state and operands that meet the hypotheses of LifeCycleTransitionsAndWipes, for each of its clauses. -/
theorem meets_LifeCycleTransitionsAndWipes :
    ((fun (p : PartId) (r : LcRequest) (s : State) => ((s.part p).lcReq = some r) ∧ (r.target < 4)) (.dist) (⟨3, true, hkp7⟩) ((awake.setObj (.tile 7) 3 { word := 1 }).mod .dist fun q => { q with lcReq := some ⟨3, true, hkp7⟩ })) ∧
    ((fun (p : PartId) (r : LcRequest) (s : State) => ((s.part p).lcReq = some r)) (.tsu) (⟨1, false, dbg⟩) (awake.mod .tsu fun q => { q with lcReq := some ⟨1, false, dbg⟩ })) ∧
    ((fun (p : PartId) (r : LcRequest) (s : State) => ((s.part p).lcReq = some r)) (.dist) (⟨1, false, dbg⟩) (awake.mod .dist fun q => { q with lcReq := some ⟨1, false, dbg⟩ })) ∧
    ((fun (p : PartId) (s : State) => (s.wiping p = true)) (.dist) (State.reset)) ∧
    ((fun (node : BitVec 20) (macrosOk : Bool) (s : State) => (s.tsu.lcStore < 4)) (0xFFFFF#20) (true) ((slotIn 15 1).mod .tsu fun q => { q with lcStore := 3 })) ∧
    ((fun (f : Fuses) (oscIn : Bool) (norOk : Bool) (s : State) => (s.pkg.pwrFlt = false) ∧ (s.dist.lcStore < 4)) (⟨0x1FFFF#17, 1, 3⟩) (true) (false) (awake)) ∧
    ((fun (f : Fuses) (oscIn : Bool) (norOk : Bool) (s : State) => (s.pkg.pwrFlt = true)) (⟨0x1FFFF#17, 1, 3⟩) (true) (false) ({ awake with pkg := { awake.pkg with pwrFlt := true } })) :=
  by
  iterate 6 refine ⟨by decide +kernel, ?_⟩
  decide +kernel

/-- A state and operands that meet the hypotheses of SpillsAndLifetimeSaves, for each of its clauses. -/
theorem meets_SpillsAndLifetimeSaves :
    ((fun (n : Nat) (rest : List Nat) (s : State) => (s.tsu.jnl.outstanding = n :: rest)) (0) ([]) (awake.mod .tsu fun q => { q with jnl := { q.jnl with outstanding := [0], nextSpill := 1, count := 1, recs := [⟨0, 0, 0, 0, 0, 0, 0, 0⟩] } })) ∧
    ((fun (n : Nat) (rest : List Nat) (s : State) => (s.tsu.jnl.outstanding = n :: rest)) (0) ([1]) (awake.mod .tsu fun q => { q with jnl := { q.jnl with outstanding := [0, 1], nextSpill := 2, count := 2 } })) ∧
    ((fun (n : Nat) (s : State) => (s.tsu.lif.saveLeft = n + 2) ∧ (0 < s.tsu.lif.saveOut) ∧ (s.tsu.lif.saveVoid = 0)) (126) (awake.modLif .tsu fun l => { l with saveLeft := 128, saveOut := 16 })) ∧
    ((fun (n : Nat) (rest : List Nat) (s : State) => (s.tsu.jnl.failed = n :: rest) ∧ (s.bt .tsu .jnlSpillCtrl 0 = true)) (0) ([]) ((awake.wr .tsu .jnlSpillCtrl 1).mod .tsu fun q => { q with jnl := { q.jnl with failed := [0], nextSpill := 1, count := 1 } })) ∧
    ((fun (p : PartId) (src : Src) (s : State) => (s.permits p src (some 12) true = true) ∧ (p = .dist ∨ s.lifBegun p = true) ∧ (s.lifBusy p = false)) (.dist) (hkp7) (awake.modLif .dist fun l => { l with saveGen := 0xFFFFFFFF })) ∧
    ((fun (src : Src) (s : State) => (s.permits .tsu src (some 12) true = true) ∧ (s.lifBusy .tsu = false)) (dbg) (awake)) ∧
    ((fun (src : Src) (s : State) => (s.permits .tsu src (some 12) true = true) ∧ (s.tsu.unlocked.contains src.cls = true)) (dbg) ((awake.modLif .tsu fun l => { l with saveGen := 7, base := [(1, 7)] }).mod .tsu fun q => { q with unlocked := [.debug] })) ∧
    ((fun (p : PartId) (s : State) => (p = .dist ∨ s.lifBegun p = true) ∧ (s.lifBusy p = false)) (.tsu) (awake.wr .tsu .lifStatus 4)) ∧
    ((fun (p : PartId) (ok : Bool) (s : State) => (s.lifBusy p = true)) (.dist) (true) (awake.wr .dist .lifStatus 1)) :=
  by
  iterate 8 refine ⟨by decide +kernel, ?_⟩
  decide +kernel

/-- A state and operands that meet the hypotheses of TrendsAndChannelMoves, for each of its clauses. -/
theorem meets_TrendsAndChannelMoves :
    ((fun (p : PartId) (i : Fin 8) (l : Fin 72) (n : Nat) (s : State) => ((s.part p).lif.trends = []) ∧ ((s.part p).lif.recent = []) ∧ (0 < n) ∧ (min n (2 ^ 32 - 1) ≤ s.fd p .lifThrUnit 15 0)) (.dist) (7) (71) (1) (awake)) ∧
    ((fun (c : Fin 768) (s : State) => (s.hbm.moving.contains c.val = true)) (767) ({ awake with hbm := { awake.hbm with moving := [767] } })) :=
  by
  refine ⟨by decide +kernel, ?_⟩
  decide +kernel

/-- A state and operands that meet the hypotheses of HallTimeSetAndCalendar, for each of its clauses. -/
theorem meets_HallTimeSetAndCalendar :
    ((fun (p : PartId) (v : HT) (src : Src) (s : State) => ((s.part p).tb.htSet = some (v, src))) (.tsu) (0xFFFFFFFFFFFFFF00#64) (dbg) (awake.mod .tsu fun q => { q with tb := { q.tb with htSet := some (0xFFFFFFFFFFFFFF00#64, dbg) }, strobes := [⟨512, 512, 4, dbg, .register, false⟩] })) ∧
    ((fun (port : Port) (eff : HT) (calHt : HT) (sec : BitVec 48) (ns : BitVec 30) (rate : Word) (utc : BitVec 16) (s : State) => (s.isSource port.part = false) ∧ (1 ≤ s.srvState port.part port.num) ∧ (s.srvState port.part port.num ≤ 4) ∧ ((port.part = .dist ∨ s.tsu.srv.followed = 1 + port.num / 2)) ∧ (after (s.ht port.part) eff = false)) (.up 15) (0x100#64) (0xFFFFFFFFFFFFFFFF#64) (0xFFFFFFFFFFFF#48) (0x3FFFFFFF#30) (6#32) (0xFFFF#16) (awake.wr .dist .srvPState 3 271)) ∧
    ((fun (port : Port) (eff : HT) (calHt : HT) (sec : BitVec 48) (ns : BitVec 30) (rate : Word) (utc : BitVec 16) (s : State) => (s.isSource port.part = false) ∧ (1 ≤ s.srvState port.part port.num) ∧ (s.srvState port.part port.num ≤ 4) ∧ ((port.part = .dist ∨ s.tsu.srv.followed = 1 + port.num / 2)) ∧ (after (s.ht port.part) eff = true)) (.sl 3) (0x8000000000000001#64) (0xFFFFFFFFFFFFFFFF#64) (0xFFFFFFFFFFFF#48) (0x3FFFFFFF#30) (6#32) (0xFFFF#16) ((awake.wr .tsu .srvPState 1 3).mod .tsu fun q => { q with srv := { q.srv with followed := 2 } })) ∧
    ((fun (p : PartId) (eff : HT) (calHt : HT) (sec : BitVec 48) (ns : BitVec 30) (rate : Word) (utc : BitVec 16) (s : State) => (firstDue (s.part p).tb.calinfo = some (eff, [calHt.toNat, sec.toNat, ns.toNat, rate.toNat, utc.toNat]))) (.dist) (0x100#64) (0xFFFFFFFFFFFFFFFF#64) (0xFFFFFFFFFFFF#48) (0x3FFFFFFF#30) (6#32) (0xFFFF#16) (awake.mod .dist fun q => { q with tb := { q.tb with calinfo := [(0x200#64, [1, 2, 3, 4, 5]), (0x100#64, [0xFFFFFFFFFFFFFFFF, 0xFFFFFFFFFFFF, 0x3FFFFFFF, 6, 0xFFFF])] } })) ∧
    ((fun (n : Fin 274) (s : State) => (s.isSource .dist = true) ∧ (s.portState .dist n = 6) ∧ (s.srvState .dist n = 5)) (273) ((srcD.wr .dist .prtState 6 273).wr .dist .srvPState 5 273)) ∧
    ((fun (p : PartId) (bound : Nat) (s : State) => ((s.part p).tb.holding = true)) (.dist) (5) ((awake.mod .dist fun q => { q with tb := { q.tb with holding := true } }).wr .dist .tbsQual 0xFFFF0002)) ∧
    ((fun (p : PartId) (s : State) => ((s.part p).tb.holding = true) ∧ (s.qual p = 2) ∧ (s.fd p .tbsHoldMax 15 0 ≤ s.fd p .tbsQual 31 16)) (.tsu) ((awake.mod .tsu fun q => { q with tb := { q.tb with holding := true } }).wr .tsu .tbsQual 0xFFFF0002)) ∧
    ((fun (p : PartId) (s : State) => (s.fd p .tbsQual 31 16 < s.fd p .tbsHoldMax 15 0)) (.dist) (awake)) :=
  by
  iterate 7 refine ⟨by decide +kernel, ?_⟩
  decide +kernel

/-- A state and operands that meet the hypotheses of OscillatorAndReferences, for each of its clauses. -/
theorem meets_OscillatorAndReferences :
    ((fun (ext10m : Bool) (s : State) => (s.isSource .dist = true) ∧ (s.osc.pllOnOsc = true) ∧ (s.osc.sampled = true) ∧ (s.bt .dist .oscStatus 1 = false) ∧ (1000 * s.fd .dist .oscCtrl 31 16 ≤ s.osc.ovenMs + 1) ∧ (s.qual .dist = 1)) (false) ({ (srcD.wr .dist .oscCtrl 0).wr .dist .tbsQual 1 with osc := { srcD.osc with sampled := true } })) ∧
    ((fun (ext10m : Bool) (s : State) => (s.isSource .dist = true) ∧ (s.osc.pllOnOsc = true) ∧ (s.osc.sampled = true) ∧ (s.bt .dist .oscStatus 1 = true)) (true) ({ (srcD.wr .dist .oscStatus 2).wr .dist .tbsQual 4 with osc := { srcD.osc with sampled := true } })) ∧
    ((fun (r : RefSrc) (s : State) => (s.osc.qualOf r = false) ∧ (r = .pps → 16 ≤ s.osc.ppsGood) ∧ (r = .ptp → 16 ≤ s.osc.ptp.good)) (.pps) ({ srcD.wr .dist .oscCtrl 2 with osc := { srcD.osc with ppsGood := 16 } })) ∧
    ((fun (r : RefSrc) (s : State) => (s.osc.qualOf r = true) ∧ (r = .pps → 3 ≤ s.osc.ppsMiss)) (.ptp) ({ ((srcD.wr .dist .oscCtrl 3).wr .dist .oscStatus 0x40).wr .dist .tbsQual 0x70004 with osc := { srcD.osc with ptpQual := true } })) ∧
    ((fun (stamp : HT) (s : State) => ((s.osc.ppsLast.any fun (l : HT) => decide (256000 < (htDiff stamp (l + 256000000000#64)).natAbs)) = false)) (256000012800#64) ({ awake.wr .dist .oscTodLo 0xFFFFFFFF with osc := { awake.osc with ppsLast := some 0, ppsMiss := 2 } })) ∧
    ((fun (stamp : HT) (l : HT) (s : State) => (s.osc.ppsLast = some l) ∧ (256000 < (htDiff stamp (l + 256000000000#64)).natAbs)) (256000256001#64) (0#64) ({ awake with osc := { awake.osc with ppsLast := some 0, ppsGood := 3 } })) ∧
    ((fun (port1 : Bool) (domain : Byte) (stamp : HT) (m : PtpMsg) (s : State) => ((s.bt .dist .oscPtpCfg 8 ≠ port1 ∨ s.fd .dist .oscPtpCfg 6 0 ≠ domain.toNat))) (true) (126) (5#64) (.announce ⟨128, 6, 0x21, 0x4E5D, 128, 7, 0, 0xFF#80⟩) (awake.wr .dist .oscPtpCfg 0x17F)) ∧
    ((fun (port1 : Bool) (domain : Byte) (stamp : HT) (d : PtpData) (s : State) => (s.bt .dist .oscPtpCfg 8 = port1) ∧ (s.fd .dist .oscPtpCfg 6 0 = domain.toNat) ∧ (s.osc.ptp.best = none)) (true) (127) (5#64) (⟨128, 6, 0x21, 0x4E5D, 128, 7, 0, 0xFF#80⟩) (awake.wr .dist .oscPtpCfg 0x17F)) ∧
    ((fun (port1 : Bool) (domain : Byte) (stamp : HT) (sender : BitVec 80) (seq : BitVec 16) (o : PtpTime) (s : State) => (s.bt .dist .oscPtpCfg 8 = port1) ∧ (s.fd .dist .oscPtpCfg 6 0 = domain.toNat) ∧ (s.osc.ptp.selected sender = true)) (true) (127) (25600#64) (0xFF#80) (1#16) (⟨0, 0, 0⟩) ({ awake.wr .dist .oscPtpCfg 0x17F with osc := { awake.osc with ptp := { best := some ⟨128, 6, 0x21, 0x4E5D, 128, 7, 0, 0xFF#80⟩ } } })) ∧
    ((fun (port1 : Bool) (domain : Byte) (stamp : HT) (at_ : HT) (sender : BitVec 80) (seq : BitVec 16) (o : PtpTime) (s : State) => (s.bt .dist .oscPtpCfg 8 = port1) ∧ (s.fd .dist .oscPtpCfg 6 0 = domain.toNat) ∧ (s.osc.ptp.selected sender = true) ∧ (s.osc.ptp.wait = some (seq.toNat, at_))) (true) (127) (0#64) (25601#64) (0xFF#80) (1#16) (⟨0, 0, 0⟩) ({ awake.wr .dist .oscPtpCfg 0x17F with osc := { awake.osc with ptp := { best := some ⟨128, 6, 0x21, 0x4E5D, 128, 7, 0, 0xFF#80⟩, wait := some (1, 25601) } } })) ∧
    ((fun (port1 : Bool) (domain : Byte) (stamp : HT) (t2 : HT) (sender : BitVec 80) (rx : PtpTime) (t1 : Int) (s : State) => (s.bt .dist .oscPtpCfg 8 = port1) ∧ (s.fd .dist .oscPtpCfg 6 0 = domain.toNat) ∧ (s.osc.ptp.selected sender = true) ∧ (s.bt .dist .oscPtpCfg 9 = false) ∧ (s.osc.ptp.last = some (t1, t2))) (true) (127) (0#64) (512#64) (0xFF#80) (⟨0, 3, 0⟩) (0) ({ awake.wr .dist .oscPtpCfg 0x17F with osc := { awake.osc with ptp := { best := some ⟨128, 6, 0x21, 0x4E5D, 128, 7, 0, 0xFF#80⟩, last := some (0, 512) } } })) ∧
    ((fun (port1 : Bool) (domain : Byte) (stamp : HT) (back : HT) (seq : BitVec 16) (turn : Int) (s : State) => (s.bt .dist .oscPtpCfg 8 = port1) ∧ (s.fd .dist .oscPtpCfg 6 0 = domain.toNat) ∧ (s.bt .dist .oscPtpCfg 9 = true)) (true) (127) (0#64) (512#64) (1#16) (65536) (awake.wr .dist .oscPtpCfg 0x37F)) :=
  by
  iterate 11 refine ⟨by decide +kernel, ?_⟩
  decide +kernel

/-- A state and operands that meet the hypotheses of TdcConvertsAndCalibrates, for each of its clauses. -/
theorem meets_TdcConvertsAndCalibrates :
    ((fun (e : EngSel) (un : Fin 2) (ch : Fin 9) (src : Byte) (raw : Fin 256) (falling : Bool) (k : Nat) (level : Nat) (i : Nat) (f : List TdcResult) (s : State) => (tdcInst e un = i) ∧ (s.clockRuns e.part = true) ∧ (s.tdcTaken e.part i ch = false) ∧ (s.tdcLooped e.part i ch = false) ∧ (s.fd e.part .tdcChCfg 31 24 i ch = src.toNat) ∧ (src ≠ 0) ∧ (s.bt e.part .tdcChCfg (if falling then 23 else 22) i ch = true) ∧ (s.bt e.part .tdcCalst 31 i = false) ∧ (s.bt e.part .tdcCtrl 0 i = true) ∧ (s.fd e.part .tdcChCfg 21 20 i ch ≠ 1) ∧ (s.fd e.part .tdcChCfg 21 20 i ch ≠ 2) ∧ (un = 0) ∧ (s.bt e.part .tdcCtrl 1 i = false) ∧ (((mget (fun _ => none) (s.tdcU e.part i).lastConv ch.val).any fun (y : Int) => decide ((256 * ((s.part e.part).tb.edgeNo + k : Nat) - ((s.tdcU e.part i).frac ch raw : Nat) : Int) < y + 2048)) = false) ∧ (mget (fun _ => []) (s.tdcU e.part i).fifos ch.val = f) ∧ (f.length < 16)) (.tile 7) (0) (8) (1) (255) (false) (9) (0) (14) ([]) ((awake.wr .dist .tdcChCfg 0x01C00000 14 8).wr .dist .tdcCtrl 1 14)) ∧
    ((fun (e : EngSel) (un : Fin 2) (ch : Fin 9) (src : Byte) (raw : Fin 256) (falling : Bool) (k : Nat) (level : Nat) (i : Nat) (s : State) => (tdcInst e un = i) ∧ (s.clockRuns e.part = true) ∧ (s.tdcTaken e.part i ch = false) ∧ (s.tdcLooped e.part i ch = false) ∧ (s.fd e.part .tdcChCfg 31 24 i ch = src.toNat) ∧ (src ≠ 0) ∧ (s.bt e.part .tdcChCfg (if falling then 23 else 22) i ch = true) ∧ (s.bt e.part .tdcCalst 31 i = false) ∧ (s.bt e.part .tdcCtrl 0 i = true) ∧ (s.fd e.part .tdcChCfg 21 20 i ch ≠ 1) ∧ (s.fd e.part .tdcChCfg 21 20 i ch ≠ 2) ∧ (ch = 8) ∧ (s.bt e.part .tdcCtrl 1 i = true) ∧ (((mget (fun _ => none) (s.tdcU e.part i).lastConv ch.val).any fun (y : Int) => decide ((256 * ((s.part e.part).tb.edgeNo + k : Nat) - ((s.tdcU e.part i).frac ch raw : Nat) : Int) < y + 2048)) = false)) (.tile 7) (0) (8) (1) (255) (true) (9) (0) (14) (((awake.wr .dist .tdcChCfg 0x01C00000 14 8).wr .dist .tdcCtrl 3 14).setTdc .dist 14 { startSeq := 65535 })) ∧
    ((fun (e : EngSel) (un : Fin 2) (ch : Fin 9) (src : Byte) (raw : Fin 256) (falling : Bool) (k : Nat) (level : Nat) (i : Nat) (f : List TdcResult) (a : TdcStart) (s : State) => (tdcInst e un = i) ∧ (s.clockRuns e.part = true) ∧ (s.tdcTaken e.part i ch = false) ∧ (s.tdcLooped e.part i ch = false) ∧ (s.fd e.part .tdcChCfg 31 24 i ch = src.toNat) ∧ (src ≠ 0) ∧ (s.bt e.part .tdcChCfg (if falling then 23 else 22) i ch = true) ∧ (s.bt e.part .tdcCalst 31 i = false) ∧ (s.bt e.part .tdcCtrl 0 i = true) ∧ (s.fd e.part .tdcChCfg 21 20 i ch ≠ 1) ∧ (s.fd e.part .tdcChCfg 21 20 i ch ≠ 2) ∧ (un = 0) ∧ (ch ≠ 8) ∧ (s.bt e.part .tdcCtrl 1 i = true) ∧ (((mget (fun _ => none) (s.tdcU e.part i).lastConv ch.val).any fun (y : Int) => decide ((256 * ((s.part e.part).tb.edgeNo + k : Nat) - ((s.tdcU e.part i).frac ch raw : Nat) : Int) < y + 2048)) = false) ∧ (mget (fun _ => []) (s.tdcU e.part i).fifos ch.val = f) ∧ (f.length < 16) ∧ ((s.tdcU e.part i).startFor ((s.part e.part).tb.edgeNo + k) ((s.tdcU e.part i).frac ch raw) = some a)) (.tile 7) (0) (7) (1) (0) (false) (16777217) (0) (14) ([]) (⟨1, 5, 3⟩) (((awake.wr .dist .tdcChCfg 0x01C00000 14 7).wr .dist .tdcCtrl 3 14).setTdc .dist 14 { start := some ⟨1, 5, 3⟩ })) ∧
    ((fun (e : EngSel) (un : Fin 2) (ch : Fin 9) (src : Byte) (raw : Fin 256) (falling : Bool) (k : Nat) (level : Nat) (i : Nat) (s : State) => (tdcInst e un = i) ∧ (s.clockRuns e.part = true) ∧ (s.tdcTaken e.part i ch = false) ∧ (s.tdcLooped e.part i ch = false) ∧ (s.fd e.part .tdcChCfg 31 24 i ch = src.toNat) ∧ (src ≠ 0) ∧ (s.bt e.part .tdcChCfg (if falling then 23 else 22) i ch = true) ∧ (s.fd e.part .tdcChCfg 21 20 i ch = 1)) (.tile 7) (0) (8) (1) (255) (true) (9) (0) (14) (awake.wr .dist .tdcChCfg 0x01D00000 14 8)) ∧
    ((fun (un : Fin 2) (ch : Fin 9) (src : Byte) (raw : Fin 256) (falling : Bool) (k : Nat) (level : Nat) (s : State) => (s.clockRuns .tsu = false)) (1) (8) (1) (255) (true) (9) (0) (awake)) ∧
    ((fun (e : EngSel) (un : Fin 2) (a : TdcStart) (s : State) => (s.bt e.part .tdcCtrl 1 (tdcInst e un) = true) ∧ (s.clockRuns e.part = true) ∧ ((s.tdcU e.part (tdcInst e un)).start = some a) ∧ (a.edge ≤ (s.part e.part).tb.edgeNo) ∧ ((s.tdcU e.part (tdcInst e un)).wrapped = false)) (.tile 7) (1) (⟨0, 0, 1⟩) ((awake.wr .dist .tdcCtrl 3 15).setTdc .dist 15 { start := some ⟨0, 0, 1⟩ })) ∧
    ((fun (e : EngSel) (un : Fin 2) (a : TdcStart) (s : State) => (s.bt e.part .tdcCtrl 1 (tdcInst e un) = true) ∧ (s.clockRuns e.part = true) ∧ ((s.tdcU e.part (tdcInst e un)).start = some a) ∧ (a.edge ≤ (s.part e.part).tb.edgeNo) ∧ ((s.tdcU e.part (tdcInst e un)).wrapped = true)) (.tile 7) (1) (⟨0, 0, 1⟩) ((awake.wr .dist .tdcCtrl 3 15).setTdc .dist 15 { start := some ⟨0, 0, 1⟩, wrapped := true })) ∧
    ((fun (e : EngSel) (un : Fin 2) (src : Src) (s : State) => (s.permits e.part src (some 4) true = true) ∧ (e = .tsu → s.macroBad = false) ∧ (s.bt e.part .tdcCalst 31 (tdcInst e un) = false) ∧ ((s.tdcU e.part (tdcInst e un)).held = false)) (.tile 7) (1) (hkp7) (awake)) ∧
    ((fun (e : EngSel) (un : Fin 2) (src : Src) (s : State) => (s.permits e.part src (some 4) true = true) ∧ (s.bt e.part .tdcCalst 31 (tdcInst e un) = true)) (.tsu) (0) (dbg) (awake.wr .tsu .tdcCalst 0x80000000)) ∧
    ((fun (e : EngSel) (un : Fin 2) (hits : List (List Nat)) (taps : List (List Nat)) (s : State) => (s.bt e.part .tdcCalst 31 (tdcInst e un) = true) ∧ (((List.range 9).any fun (c : Nat) => calFails (2 ^ s.fd e.part .tdcCtrl 20 16 (tdcInst e un)) (addHits (mget (fun _ => []) (s.tdcU e.part (tdcInst e un)).hits c) (hits.getD c [])) (taps.getD c []).length) = true) ∧ ((s.tdcU e.part (tdcInst e un)).autoWait = false)) (.tsu) (0) ([]) ([]) (awake.wr .tsu .tdcCalst 0x80000000)) :=
  by
  iterate 9 refine ⟨by decide +kernel, ?_⟩
  decide +kernel

/-- A state and operands that meet the hypotheses of TdcConvertsAndCalibrates, for each of its clauses, continued. -/
theorem meets_TdcConvertsAndCalibrates_more :
    ((fun (e : EngSel) (un : Fin 2) (hits : List (List Nat)) (taps : List (List Nat)) (c : Fin 9) (s : State) => (s.bt e.part .tdcCalst 31 (tdcInst e un) = true) ∧ (((List.range 9).any fun (c : Nat) => calFails (2 ^ s.fd e.part .tdcCtrl 20 16 (tdcInst e un)) (addHits (mget (fun _ => []) (s.tdcU e.part (tdcInst e un)).hits c) (hits.getD c [])) (taps.getD c []).length) = false) ∧ ((s.tdcU e.part (tdcInst e un)).autoWait = false)) (.tsu) (0) (List.replicate 9 (List.replicate 128 512)) ([]) (8) ((awake.wr .tsu .tdcCalst 0xC0000000).wr .tsu .tdcCtrl 0x100000)) :=
  by decide +kernel

/-- A state and operands that meet the hypotheses of TdcConvertsAndCalibrates, for each of its clauses, continued. -/
theorem meets_TdcConvertsAndCalibrates_last :
    ((fun (e : EngSel) (un : Fin 2) (hits : List (List Nat)) (taps : List (List Nat)) (s : State) => (s.bt e.part .tdcCalst 31 (tdcInst e un) = true) ∧ ((s.tdcU e.part (tdcInst e un)).autoWait = true) ∧ ((s.tdcU e.part (tdcInst e un)).held = false) ∧ (e = .tsu → s.macroBad = false)) (.tile 7) (1) ([]) ([]) ((awake.wr .dist .tdcCalst 0x80000000 15).setTdc .dist 15 { autoWait := true })) :=
  by decide +kernel

/-- A state and operands that meet the hypotheses of FineTriggersArmFireCalibrate, for each of its clauses. -/
theorem meets_FineTriggersArmFireCalibrate :
    ((fun (e : EngSel) (n : Fin 8) (i : Nat) (src : Src) (v : Word) (lo : Word) (s : State) => (dtcInst e n = i) ∧ (hasDtc e = true) ∧ (s.permits e.part src (some 5) true = true) ∧ (s.staged e.part src (addrOf e.part .dtcAtLo i) (s.rd e.part .dtcAtLo i) = lo) ∧ (e = .tsu → s.fenced = false) ∧ (noSign (v ++ lo) (s.ht e.part) = false) ∧ ((s.dtcO e.part i).armed.length < 4) ∧ (((s.dtcO e.part i).armed.any fun (y : Trigger) => decide ((htDiff (v ++ lo) y.target).natAbs < 2048)) = false) ∧ (s.bt e.part .dtcCfg 0 i = true) ∧ (s.bt e.part .dtcStatus 3 i = false) ∧ (s.clockRuns e.part = true)) (.tile 7) (7) (63) (hkp7) (1#32) (5#32) (((awake.wr .dist .dtcCfg 1 63).setStage .dist hkp7 (addrOf .dist .dtcAtLo 63) (some 5)).setDtc .dist 63 { armed := [⟨0x100000805, 0, 63⟩] })) ∧
    ((fun (n : Fin 8) (src : Src) (v : Word) (s : State) => (s.permits .tsu src (some 5) true = true) ∧ (s.fenced = true)) (7) (dbg) (1#32) ((awake.wr .tsu .hltStatus 0x80000000).setDtc .tsu 7 { armed := [⟨0x805, 0, 63⟩] })) ∧
    ((fun (e : EngSel) (n : Fin 8) (src : Src) (s : State) => (hasDtc e = true) ∧ (s.permits e.part src (some 5) true = true)) (.tsu) (7) (dbg) (awake.setDtc .tsu 7 { armed := [⟨512, 0, 63⟩] })) ∧
    ((fun (e : EngSel) (n : Fin 8) (i : Nat) (g : Trigger) (rest : List Trigger) (want : HT) (s : State) => (dtcInst e n = i) ∧ ((s.dtcO e.part i).armed = g :: rest) ∧ (s.clockRuns e.part = true) ∧ (g.target + BitVec.ofInt 64 (sext 12 (s.fd e.part .dtcCfg 31 20 i)) - BitVec.ofNat 64 (s.fd e.part .dtcIns 11 0 i) = want) ∧ (after (s.edgeBefore e.part want) want = false) ∧ (after (g.armedAt + 1024#64) (s.edgeBefore e.part want) = false)) (.tile 7) (7) (63) (⟨0x1080, 0, 63⟩) ([]) (0x1080#64) ((awake.wr .dist .dtcCfg 0x0403 63).setDtc .dist 63 { armed := [⟨0x1080, 0, 63⟩] })) ∧
    ((fun (e : EngSel) (n : Fin 8) (i : Nat) (g : Trigger) (rest : List Trigger) (want : HT) (s : State) => (dtcInst e n = i) ∧ ((s.dtcO e.part i).armed = g :: rest) ∧ (s.clockRuns e.part = true) ∧ (g.target + BitVec.ofInt 64 (sext 12 (s.fd e.part .dtcCfg 31 20 i)) - BitVec.ofNat 64 (s.fd e.part .dtcIns 11 0 i) = want) ∧ (after (g.armedAt + 1024#64) (if after (s.edgeBefore e.part want) want then want else s.edgeBefore e.part want) = true)) (.tsu) (0) (0) (⟨0x1080, 0x2000, 63⟩) ([⟨0x2000, 0, 3⟩]) (0x1080#64) ((awake.wr .tsu .prtState 6 3).setDtc .tsu 0 { armed := [⟨0x1080, 0x2000, 63⟩, ⟨0x2000, 0, 3⟩] })) ∧
    ((fun (e : EngSel) (src : Src) (mask : Byte) (n : Fin 8) (s : State) => (hasDtc e = true) ∧ (s.permits e.part src (some 5) true = true) ∧ (e = .tsu → s.macroBad = false) ∧ (mask.getLsbD n = true) ∧ (∀ k : Fin 8, k < n → mask.getLsbD k = false) ∧ (∀ k : Fin 8, s.bt e.part .dtcStatus 3 (8 * e.tileNo + k) = false) ∧ (s.fd e.part .tdcCalst 30 29 (2 * e.tileNo) = 0)) (.tile 7) (hkp7) (0xC2#8) (1) (awake.wr .dist .tdcCalst 0 14)) ∧
    ((fun (e : EngSel) (src : Src) (mask : Byte) (n : Fin 8) (s : State) => (hasDtc e = true) ∧ (s.permits e.part src (some 5) true = true) ∧ (e = .tsu → s.macroBad = false) ∧ (s.bt e.part .dtcStatus 3 (8 * e.tileNo + n) = true)) (.tsu) (dbg) (0x81#8) (7) ((awake.wr .tsu .dtcStatus 8 7).mod .tsu fun q => { q with dtcCalQ := [(0, [(7, 3)])] })) ∧
    ((fun (e : EngSel) (src : Src) (mask : Byte) (s : State) => (hasDtc e = true) ∧ (s.permits e.part src (some 5) true = true) ∧ (e = .tsu → s.macroBad = false) ∧ (∀ k : Fin 8, s.bt e.part .dtcStatus 3 (8 * e.tileNo + k) = false) ∧ (s.fd e.part .tdcCalst 30 29 (2 * e.tileNo) ≠ 0)) (.tsu) (dbg) (0x81#8) (awake.wr .tsu .tdcCalst 0x40000000)) ∧
    ((fun (e : EngSel) (n : Fin 8) (i : Nat) (d : List Int) (q : List (Nat × Nat)) (s : State) => (dtcInst e n = i) ∧ (s.bt e.part .dtcStatus 3 i = true) ∧ (mget (fun _ => []) (s.part e.part).dtcCalQ e.tileNo = q) ∧ ((q.all fun (y : Nat × Nat) => y.1 != n.val && decide (y.1 < 8)) = true)) (.tsu) (7) (7) ((List.range 256).map fun (k : Nat) => (256 * k + 512 : Int)) ([(3, 5)]) ((awake.wr .tsu .dtcStatus 8 7).mod .tsu fun q => { q with dtcCalQ := [(0, [(3, 5)])] })) ∧
    ((fun (e : EngSel) (n : Fin 8) (i : Nat) (d : List Int) (m : Fin 8) (j : Nat) (q : List (Nat × Nat)) (s : State) => (dtcInst e n = i) ∧ (s.bt e.part .dtcStatus 3 i = true) ∧ (mget (fun _ => []) (s.part e.part).dtcCalQ e.tileNo = (m.val, j) :: q) ∧ (s.fd e.part .tdcCalst 30 29 (2 * e.tileNo) = 0)) (.tile 0) (7) (7) ([]) (3) (5) ([]) (((awake.wr .dist .tdcCalst 0).wr .dist .dtcStatus 8 7).mod .dist fun q => { q with dtcCalQ := [(0, [(3, 5)])] })) :=
  by
  iterate 9 refine ⟨by decide +kernel, ?_⟩
  decide +kernel

/-- A state and operands that meet the hypotheses of TimeTransferExchanges, for each of its clauses. -/
theorem meets_TimeTransferExchanges :
    ((fun (port : Port) (x : Nat) (t4 : Nat) (ans : Nat) (hops : Nat) (s : State) => (s.sendsSync port.part port.num = true) ∧ (s.portState port.part port.num = 6) ∧ (((s.psrv port.part port.num).xn + 1) % 65536 = x) ∧ (((s.psrv port.part port.num).dreq.map fun (y : Nat × HT) => (y.2.toNat, y.1)).getD (0, 0) = (t4, ans)) ∧ ((if s.isSource port.part then 0 else ((s.part port.part).srv.tport.map fun (n : Nat) => min 255 (s.fd port.part .srvPState 23 16 n + 1)).getD 0) = hops)) (.pp 1) (0) (9) (65535) (0) ((srcD.wr .dist .prtState 6 273).setPsrv .dist 273 { xn := 65535, dreq := some (65535, 9) })) ∧
    ((fun (port : Port) (m : SyncRx) (s : State) => (s.portState port.part port.num = 6)) (.sl 3) (⟨0, 1, 2, 65535, 65535, 7, true, true, 300, 255, false⟩) (awake.wr .tsu .prtState 0x8006 3)) ∧
    ((fun (port : Port) (m : SyncRx) (s : State) => (s.portState port.part port.num = 6) ∧ (s.downstreamEnd port.part port.num = true) ∧ ((m.source = false ∨ port.num < 272))) (.up 15) (⟨7, 9, 0, 65535, 0, 4, true, true, 255, 255, true⟩) ((awake.wr .dist .prtState 0x8006 271).wr .dist .srvPState 1 271)) ∧
    ((fun (port : Port) (m : SyncRx) (y : Exchange) (t3 : HT) (s : State) => (s.portState port.part port.num = 6) ∧ (((s.part port.part).sent.any fun (f : Sent) => f.onPort port.num && (!f.started || f.again)) = false) ∧ ((s.prt port.part port.num).calRun = none) ∧ (((s.prt port.part port.num).bulk.all fun (b : BulkXfer) => b.rest.isEmpty) = true) ∧ ((s.srvState port.part port.num = 1 ∨ s.srvState port.part port.num = 6)) ∧ ((m.source = false ∨ port.num < 272)) ∧ ((s.psrv port.part port.num).open_ = [y]) ∧ (y.xn = m.xnAns) ∧ (y.t3 = some t3) ∧ (m.t4 ≠ 0) ∧ (htDiff m.t1 y.t1 ≤ (8 * s.syncInt port.part : Nat)) ∧ (64 ≤ (s.psrv port.part port.num).dn.count y.f) ∧ (64 ≤ (s.psrv port.part port.num).up.count y.r)) (.sl 3) (⟨100, 200, 400, 8, 7, 4, true, false, 3, 1, false⟩) (⟨7, 10, 20, some 30, 5, 0, 0, true⟩) (30#64) (((awake.wr .tsu .prtState 0x8006 3).wr .tsu .srvPState 1 3).setPsrv .tsu 3 { open_ := [⟨7, 10, 20, some 30, 5, 0, 0, true⟩], dn := { since := [(0, 64)] }, up := { since := [(0, 64)] } })) ∧
    ((fun (port : Port) (m : SyncRx) (s : State) => (s.portState port.part port.num = 6) ∧ (s.downstreamEnd port.part port.num = true) ∧ ((m.source = false ∨ port.num < 272)) ∧ ((s.psrv port.part port.num).open_ = []) ∧ (m.t4 ≠ 0) ∧ ((s.psrv port.part port.num).answered ≠ some m.xnAns)) (.up 0) (⟨100, 200, 400, 8, 7, 4, true, false, 3, 1, false⟩) (((awake.wr .dist .prtState 0x8006 256).wr .dist .srvPState 3 256).wr .dist .srvPCnt 0xFFFE0000 256)) ∧
    ((fun (port : Port) (s : State) => (1 ≤ s.srvState port.part port.num) ∧ (s.srvState port.part port.num ≤ 3)) (.sl 3) (awake.wr .tsu .srvPState 3 3)) ∧
    ((fun (p : PartId) (h : HT) (s : State) => ((s.part p).srv.prefSince = some h) ∧ (s.revertRuns p = true)) (.tsu) (0#64) (((awake.wr .tsu .srvCfg 2).wr .tsu .srvPState 3 0).mod .tsu fun q => { q with srv := { q.srv with followed := 2, prefSince := some 0 } })) ∧
    ((fun (p : PartId) (s : State) => ((s.part p).tb.rem ≠ 0) ∧ (s.clockRuns p = true)) (.dist) (awake.mod .dist fun q => { q with tb := { q.tb with rem := -1000000 } })) :=
  by
  iterate 7 refine ⟨by decide +kernel, ?_⟩
  decide +kernel

/-- A state and operands that meet the hypotheses of DomainsDifferencesAndLoopback, for each of its clauses. -/
theorem meets_DomainsDifferencesAndLoopback :
    ((fun (h : HT) (s : State) => (s.sourceTier = true) ∧ (s.actsPrimary = false) ∧ (s.dist.srv.source = false) ∧ (s.eligible .dist 1 = false) ∧ (s.eligible .dist 2 = false) ∧ (s.dist.srv.noRef = some h)) (5#64) ((awake.wr .dist .sysTier 11).mod .dist fun q => { q with srv := { q.srv with noRef := some 5 } })) ∧
    ((fun  (s : State) => (s.wiping .dist = false))  ((awake.wr .dist .srvPState 6 273).wr .dist .prtState 6 273)) ∧
    ((fun (n : Fin 274) (s : State) => (s.srvState .dist n = 6) ∧ (s.portState .dist n = 6) ∧ (s.tier = 5)) (255) ((((awake.wr .dist .sysTier 5).wr .dist .srvPState 6 255).wr .dist .prtState 6 255).setPsrv .dist 255 { theta := -3 })) ∧
    ((fun (offs : List (Nat × Nat × Int)) (s : State) => (s.wiping .dist = false)) ([(5, 4, -7)]) (awake)) ∧
    ((fun (ti : Fin 8) (src : Src) (x : Fin 512) (y : Fin 512) (s : State) => (s.permits .dist src (some 2) true = true) ∧ (s.dist.unlocked.contains src.cls = true) ∧ (x.val < 274) ∧ (y.val < 274) ∧ (x ≠ y) ∧ (portTile x = ti) ∧ (portTile y = ti) ∧ (s.portState .dist x = 0) ∧ (s.portState .dist y = 0) ∧ (s.jobsFree .dist = true)) (7) (hkp7) (271) (273) (awake.mod .dist fun q => { q with unlocked := [.hkp] })) ∧
    ((fun (ti : Fin 8) (src : Src) (x : Fin 512) (y : Fin 512) (s : State) => (s.permits .dist src (some 2) true = true) ∧ (s.dist.unlocked.contains src.cls = true) ∧ (x.val < 274) ∧ (y.val < 274) ∧ (x ≠ y) ∧ (portTile x = ti) ∧ (portTile y = ti) ∧ (s.bt .dist .srvLcal 30 ti = false) ∧ ((s.portState .dist x ≠ 0 ∨ s.portState .dist y ≠ 0 ∨ s.jobsFree .dist = false))) (7) (hkp7) (271) (273) ((awake.wr .dist .prtState 6 273).mod .dist fun q => { q with unlocked := [.hkp] })) ∧
    ((fun (ti : Fin 8) (src : Src) (x : Fin 512) (y : Fin 512) (arm : Bool) (s : State) => (s.permits .dist src (some 2) true = true) ∧ (s.dist.unlocked.contains src.cls = true) ∧ (x.val < 274) ∧ (y.val < 274) ∧ (x ≠ y) ∧ (portTile x = ti) ∧ (portTile y = ti) ∧ (arm = true → s.bt .dist .srvLcal 30 ti = true ∧ s.fd .dist .srvLcal 8 0 ti = x ∧ s.fd .dist .srvLcal 17 9 ti = y) ∧ (s.bt .dist .prtState 15 x = true) ∧ (s.bt .dist .prtState 15 y = true) ∧ (s.bt .dist .srvLcalStat 31 ti = false)) (7) (hkp7) (271) (273) (true) ((((awake.wr .dist .prtState 0x8006 271).wr .dist .prtState 0x8006 273).wr .dist .srvLcal 0x4002230F 7).mod .dist fun q => { q with unlocked := [.hkp] })) ∧
    ((fun (ti : Fin 8) (n : Nat) (discarded : Nat) (sum : Int) (s : State) => (s.bt .dist .srvLcalStat 31 ti = true) ∧ (mget (fun _ => (0, 0, 0)) s.dist.srv.lcal ti.val = (n, discarded, sum)) ∧ (4096 ≤ n)) (7) (4096) (64) (-4033) ((awake.wr .dist .srvLcalStat 0x80000000 7).mod .dist fun q => { q with srv := { q.srv with lcal := [(7, (4096, 64, -4033))] } })) :=
  by
  iterate 7 refine ⟨by decide +kernel, ?_⟩
  decide +kernel

/-- A state and operands that meet the hypotheses of PortsTrainAndNegotiate, for each of its clauses. -/
theorem meets_PortsTrainAndNegotiate :
    ((fun (port : Port) (src : Src) (s : State) => (s.permits port.part src (some 3) true = true) ∧ ((s.part port.part).unlocked.contains src.cls = true) ∧ (port.part = .tsu → s.macroBad = false) ∧ (s.portState port.part port.num = 0) ∧ (s.portAllowed port.part port.num = true)) (.sl 3) (dbg) (unlock .tsu .debug (awake.wr .tsu .sysLifecycle 2))) ∧
    ((fun (port : Port) (src : Src) (s : State) => (s.permits port.part src (some 3) true = true) ∧ ((s.part port.part).unlocked.contains src.cls = true) ∧ (port.part = .tsu → s.macroBad = false) ∧ (s.portState port.part port.num ≠ 0)) (.pp 0) (hkp7) (unlock .dist .hkp (awake.wr .dist .prtState 6 272))) ∧
    ((fun (port : Port) (src : Src) (s : State) => (s.permits port.part src (some 3) true = true) ∧ ((s.part port.part).unlocked.contains src.cls = true)) (.sl 0) (dbg) (unlock .tsu .debug ((awake.wr .tsu .prtState 6).wr .tsu .prtCtrl 1))) ∧
    ((fun (port : Port) (src : Src) (s : State) => (s.permits port.part src (some 3) true = true) ∧ ((s.part port.part).unlocked.contains src.cls = true) ∧ (port.part = .tsu → s.macroBad = false) ∧ (s.portState port.part port.num = 6)) (.pp 1) (hkp7) (unlock .dist .hkp (awake.wr .dist .prtState 6 273))) ∧
    ((fun (port : Port) (src : Src) (s : State) => (s.permits port.part src (some 3) true = true) ∧ ((s.part port.part).unlocked.contains src.cls = true) ∧ (port.part = .tsu → s.macroBad = false) ∧ (s.portState port.part port.num = 7)) (.sl 3) (dbg) (unlock .tsu .debug (awake.wr .tsu .prtState 0x40000007 3))) ∧
    ((fun (port : Port) (mask : Fin 32) (s : State) => (s.portState port.part port.num = 1) ∧ (4 ≤ lanesIn (mask.val &&& (31 - (s.prt port.part port.num).retired / 32 % 32)))) (.sl 3) (15) ((awake.wr .tsu .prtState 1 3).setPrt .tsu 3 { retired := 512 })) ∧
    ((fun (port : Port) (mask : Fin 32) (s : State) => (s.portState port.part port.num = 1) ∧ (lanesIn (mask.val &&& (31 - (s.prt port.part port.num).retired / 32 % 32)) < 4)) (.sl 3) (31) ((awake.wr .tsu .prtState 1 3).setPrt .tsu 3 { retired := 96, laneFails := 3 })) ∧
    ((fun (port : Port) (rx : Fin 32) (tx : Fin 32) (s : State) => (s.portState port.part port.num = 2) ∧ (4 ≤ lanesIn (rx.val &&& (31 - (s.prt port.part port.num).retired / 32 % 32))) ∧ (4 ≤ lanesIn (tx.val &&& (31 - (s.prt port.part port.num).retired % 32)))) (.sl 3) (31) (30) (awake.wr .tsu .prtState 2 3)) ∧
    ((fun (port : Port) (rx : Fin 32) (tx : Fin 32) (s : State) => (s.portState port.part port.num = 2) ∧ ((lanesIn (rx.val &&& (31 - (s.prt port.part port.num).retired / 32 % 32)) < 4 ∨ lanesIn (tx.val &&& (31 - (s.prt port.part port.num).retired % 32)) < 4))) (.dp 0) (7) (31) (awake.wr .dist .prtState 2)) ∧
    ((fun (port : Port) (s : State) => (s.portState port.part port.num = 3)) (.sl 3) ((awake.wr .tsu .prtState 3 3).setPrt .tsu 3 { txExp := 5, credit := 0 })) ∧
    ((fun (port : Port) (s : State) => (2 ≤ s.portState port.part port.num) ∧ (s.portState port.part port.num ≤ 5)) (.sl 3) ((awake.wr .tsu .prtState 5 3).setPrt .tsu 3 { fails := 3 })) ∧
    ((fun (port : Port) (k : Fin 17) (s : State) => (s.inService port.part port.num = true)) (.dp 255) (8) (awake.wr .dist .prtState 6 255)) ∧
    ((fun (port : Port) (lane : Fin 5) (s : State) => (s.portState port.part port.num = 6) ∧ (((List.range 4).any fun ln => mapLane (s.fd port.part .prtLmap 30 16 port.num) ln == lane.val) = true)) (.sl 3) (0) ((awake.wr .tsu .prtState 6 3).wr .tsu .prtLmap 0x46884688 3)) ∧
    ((fun (port : Port) (f : NegFlit) (s : State) => (s.portState port.part port.num = 4) ∧ (f.fault = 0) ∧ ((s.versions port.part port.num).1 ≤ min (s.versions port.part port.num).2 f.vmax) ∧ (f.vmin ≤ min (s.versions port.part port.num).2 f.vmax) ∧ (port.part = .dist → s.miscabled port.num f = false) ∧ (((s.prt port.part port.num).fec == 1) = f.strong)) (.sl 3) (⟨1048575, 511, 1, 7, 3, 3, false, true, 0⟩) (awake.wr .tsu .prtState 4 3)) ∧
    ((fun (port : Port) (f : NegFlit) (s : State) => (s.portState port.part port.num = 4) ∧ (f.fault = 0) ∧ ((min (s.versions port.part port.num).2 f.vmax < (s.versions port.part port.num).1 ∨ min (s.versions port.part port.num).2 f.vmax < f.vmin))) (.up 0) (⟨5, 0, 0, 3, 2, 2, false, false, 0⟩) (awake.wr .dist .prtState 4 256)) ∧
    ((fun (port : Port) (f : NegFlit) (s : State) => (s.portState port.part port.num = 4) ∧ (f.fault % 16 ≠ 0)) (.pp 1) (⟨5, 0, 0, 3, 2, 2, false, false, 3⟩) (awake.wr .dist .prtState 4 273)) ∧
    ((fun (port : Port) (s : State) => (s.portState port.part port.num = 4)) (.up 15) (awake.wr .dist .prtState 4 271)) :=
  by
  iterate 16 refine ⟨by decide +kernel, ?_⟩
  decide +kernel

/-- A state and operands that meet the hypotheses of FramesAcknowledgedAndReplayed, for each of its clauses. -/
theorem meets_FramesAcknowledgedAndReplayed :
    ((fun (port : Port) (hb : HT) (ackE : BitVec 16) (ackN : BitVec 16) (credit : BitVec 16) (spare : Bool) (s : State) => (s.linkRuns port.part port.num = true)) (.sl 3) (0) (0xFFFF#16) (0) (512) (true) (awake.wr .tsu .prtState 6 3)) ∧
    ((fun (port : Port) (ackE : BitVec 16) (ackN : BitVec 16) (credit : BitVec 16) (s : State) => (s.linkRuns port.part port.num = true) ∧ (((s.part port.part).sent.any fun (f : Sent) => f.onPort port.num && (!f.started || f.again)) = false) ∧ ((s.prt port.part port.num).calRun = none) ∧ (((s.prt port.part port.num).bulk.all fun (b : BulkXfer) => b.rest.isEmpty) = true)) (.sl 3) (0#16) (0#16) (0xFFFF#16) ((awake.wr .tsu .prtState 6 3).mod .tsu fun q => { q with sent := [{ dest := .port 3, frame := { cls := 1, ty := 1 }, seq := 65535, started := true, sends := 6 }, { dest := .port 3, frame := { cls := 6, ty := 1 }, seq := 2, started := true, sends := 1 }] })) ∧
    ((fun (port : Port) (express : Bool) (seq : BitVec 16) (s : State) => (s.linkRuns port.part port.num = true) ∧ (((s.part port.part).sent.any fun (f : Sent) => f.onPort port.num && (!f.started || f.again)) = false) ∧ ((s.prt port.part port.num).calRun = none) ∧ (((s.prt port.part port.num).bulk.all fun (b : BulkXfer) => b.rest.isEmpty) = true) ∧ (((s.part port.part).sent.any fun (f : Sent) => (f.inReplay port.num express && seqLe seq.toNat f.seq) && decide (7 ≤ f.sends)) = false)) (.sl 3) (true) (0xFFFF#16) ((awake.wr .tsu .prtState 6 3).mod .tsu fun q => { q with sent := [{ dest := .port 3, frame := { cls := 1, ty := 1 }, seq := 65535, started := true, sends := 6 }, { dest := .port 3, frame := { cls := 6, ty := 1 }, seq := 2, started := true, sends := 1 }] })) ∧
    ((fun (port : Port) (express : Bool) (seq : BitVec 16) (s : State) => (s.portState port.part port.num = 6) ∧ (((s.part port.part).sent.any fun (f : Sent) => f.onPort port.num && (!f.started || f.again)) = false) ∧ ((s.prt port.part port.num).calRun = none) ∧ (((s.prt port.part port.num).bulk.all fun (b : BulkXfer) => b.rest.isEmpty) = true) ∧ (((s.part port.part).sent.any fun (f : Sent) => (f.inReplay port.num express && seqLe seq.toNat f.seq) && decide (7 ≤ f.sends)) = true)) (.sl 3) (true) (0xFFFF#16) ((awake.wr .tsu .prtState 6 3).mod .tsu fun q => { q with sent := [{ dest := .port 3, frame := { cls := 1, ty := 1 }, seq := 65535, started := true, sends := 7 }] })) ∧
    ((fun (port : Port) (s : State) => (s.portState port.part port.num = 6)) (.dp 0) (awake.wr .dist .prtState 6 0)) ∧
    ((fun (port : Port) (sub : Byte) (crcOk : Bool) (s : State) => ((crcOk = false ∨ sub = 0 ∨ 6 < sub.toNat))) (.dp 0) (7) (true) (awake.wr .dist .prtState 6 0)) ∧
    ((fun (port : Port) (express : Bool) (hdr : List Byte) (body : List Byte) (tdec : Int) (place : Nat) (f : Frame) (q : Nat) (s : State) => (s.linkRuns port.part port.num = true) ∧ (body.length + 28 = 62 * ((hdr.getD 5 0).toNat + 1)) ∧ (parseFrame hdr body = (f, q)) ∧ (protoBad port.part f = false) ∧ ((s.prt port.part port.num).rxExp = q) ∧ (f.cls = 1) ∧ (f.ty = 0xFF)) (.sl 3) (true) ([0xF1, 0x1F] ++ List.replicate 22 0) (List.replicate 34 0) (0) (0) ({ cls := 1, ty := 255, tsi := true, data := List.replicate 34 0 }) (0) (awake.wr .tsu .prtState 6 3)) ∧
    ((fun (port : Port) (express : Bool) (hdr : List Byte) (body : List Byte) (tdec : Int) (place : Nat) (f : Frame) (q : Nat) (s : State) => (s.linkRuns port.part port.num = true) ∧ (body.length + 28 = 62 * ((hdr.getD 5 0).toNat + 1)) ∧ (parseFrame hdr body = (f, q)) ∧ (protoBad port.part f = false) ∧ ((s.prt port.part port.num).rxExp = q) ∧ (f.cls = 2) ∧ (port.part = .dist → s.fencedDrop port.num f.cls f.ty = false)) (.sl 3) (true) ([0x02, 0x51] ++ List.replicate 22 0) (List.replicate 34 0) (0) (0) ({ cls := 2, ty := 0x10, tsi := true, nojob := true, data := List.replicate 34 0 }) (0) (awake.wr .tsu .prtState 6 3)) ∧
    ((fun (port : Port) (express : Bool) (hdr : List Byte) (body : List Byte) (crc : Word) (tdec : Int) (place : Nat) (s : State) => (s.linkRuns port.part port.num = true) ∧ (crc32 (hdr ++ body) ≠ crc) ∧ ((if express then (s.prt port.part port.num).nakExp else (s.prt port.part port.num).nakNorm) = false)) (.pp 1) (false) ([0xF1, 0x1F] ++ List.replicate 22 0) ([]) (5#32) (0) (0) (awake.wr .dist .prtState 6 273)) ∧
    ((fun (port : Port) (express : Bool) (hdr : List Byte) (body : List Byte) (tdec : Int) (place : Nat) (f : Frame) (q : Nat) (s : State) => (s.linkRuns port.part port.num = true) ∧ (body.length + 28 = 62 * ((hdr.getD 5 0).toNat + 1)) ∧ (parseFrame hdr body = (f, q)) ∧ (isExpress f.cls = express) ∧ ((if express then (s.prt port.part port.num).rxExp else (s.prt port.part port.num).rxNorm) ≠ q) ∧ ((if express then (s.prt port.part port.num).nakExp else (s.prt port.part port.num).nakNorm) = false)) (.sl 3) (true) ([0xF1, 0x1F] ++ List.replicate 22 0) (List.replicate 34 0) (0) (0) ({ cls := 1, ty := 255, tsi := true, data := List.replicate 34 0 }) (0) ((awake.wr .tsu .prtState 6 3).setPrt .tsu 3 { rxExp := 1 })) ∧
    ((fun (port : Port) (s : State) => (s.linkRuns port.part port.num = true)) (.sl 3) (awake.wr .tsu .prtState 6 3)) ∧
    ((fun (port : Port) (s : State) => (s.linkRuns port.part port.num = true) ∧ ((s.prt port.part port.num).ackDue = true)) (.sl 3) ((awake.wr .tsu .prtState 6 3).setPrt .tsu 3 { ackDue := true })) ∧
    ((fun (port : Port) (express : Bool) (s : State) => (s.linkRuns port.part port.num = true) ∧ ((if express then (s.prt port.part port.num).nakExp else (s.prt port.part port.num).nakNorm) = true)) (.sl 3) (false) ((awake.wr .tsu .prtState 6 3).setPrt .tsu 3 { nakNorm := true, rxNorm := 65535 })) ∧
    ((fun (port : Port) (express : Bool) (g : Sent) (s : State) => (s.linkRuns port.part port.num = true) ∧ (((s.part port.part).sent.any fun (f : Sent) => f.onPort port.num && (!f.started || f.again)) = false) ∧ ((s.prt port.part port.num).calRun = none) ∧ (((s.prt port.part port.num).bulk.all fun (b : BulkXfer) => b.rest.isEmpty) = true) ∧ (((s.part port.part).sent.find? fun (f : Sent) => f.inReplay port.num express) = some g) ∧ (((s.part port.part).sent.any fun (f : Sent) => (f.inReplay port.num express && seqLe g.seq f.seq) && decide (7 ≤ f.sends)) = false)) (.sl 3) (true) ({ dest := .port 3, frame := { cls := 1, ty := 1 }, seq := 65535, started := true, sends := 6 }) ((awake.wr .tsu .prtState 6 3).mod .tsu fun q => { q with sent := [{ dest := .port 3, frame := { cls := 1, ty := 1 }, seq := 65535, started := true, sends := 6 }] })) :=
  by
  iterate 13 refine ⟨by decide +kernel, ?_⟩
  decide +kernel

/-- A state and operands that meet the hypotheses of LatenciesLaneSwapsAndBulk, for each of its clauses. -/
theorem meets_LatenciesLaneSwapsAndBulk :
    ((fun (port : Port) (s : State) => ((s.portState port.part port.num = 5 ∨ s.portState port.part port.num = 6)) ∧ ((s.prt port.part port.num).calWait = true) ∧ ((s.prt port.part port.num).calibrating = false) ∧ ((s.prt port.part port.num).swap = none) ∧ (s.bt port.part .tdcCalst 30 (linkUnit port.part port.num) = false)) (.pp 1) (((awake.wr .dist .prtState 6 273).wr .dist .tdcCalst 0 15).setPrt .dist 273 { calWait := true })) ∧
    ((fun (port : Port) (s : State) => (s.portState port.part port.num = 5) ∧ ((s.prt port.part port.num).calWait = true) ∧ ((s.prt port.part port.num).calibrating = false) ∧ ((s.prt port.part port.num).swap = none) ∧ (s.bt port.part .tdcCalst 30 (linkUnit port.part port.num) = true)) (.sl 0) (((awake.wr .tsu .prtState 0x8005).wr .tsu .tdcCalst 0x40000000 1).setPrt .tsu 0 { calWait := true })) ∧
    ((fun (port : Port) (tx : List (Option Int)) (rx : List (Option Int)) (l : Fin 5) (x : Int) (s : State) => ((s.prt port.part port.num).calibrating = true) ∧ (tx.getD l none = some x)) (.sl 3) ([none, none, none, none, some 640000]) ([]) (4) (640000) ((awake.wr .tsu .prtState 5 3).setPrt .tsu 3 { calibrating := true })) ∧
    ((fun (port : Port) (src : Src) (v : Word) (at_ : HT) (s : State) => (s.permits port.part src (some 3) true = true) ∧ ((s.part port.part).unlocked.contains src.cls = true) ∧ (s.portState port.part port.num = 6) ∧ ((s.prt port.part port.num).swap = none) ∧ ((s.prt port.part port.num).calibrating = false) ∧ (s.spareReady port.part port.num (fld v 2 2) = true) ∧ ((if (s.rd port.part .prtSwapAtHi port.num ++ s.rd port.part .prtSwapAtLo port.num : HT) = 0 then s.ht port.part + BitVec.ofNat 64 (256000 * s.fd port.part .prtCfg 31 24 port.num)
        else s.rd port.part .prtSwapAtHi port.num ++ s.rd port.part .prtSwapAtLo port.num) = at_) ∧ (512000 ≤ htDiff at_ (s.ht port.part))) (.sl 3) (dbg) (7#32) (512000#64) (unlock .tsu .debug (((awake.wr .tsu .prtState 0x6006 3).wr .tsu .prtLmap 0x46884688 3).wr .tsu .prtSwapAtLo 512000 3))) ∧
    ((fun (port : Port) (src : Src) (v : Word) (w : Swap) (s : State) => (s.permits port.part src (some 3) true = true) ∧ ((s.part port.part).unlocked.contains src.cls = true) ∧ ((s.prt port.part port.num).swap = some w)) (.sl 3) (dbg) (7#32) (⟨1, 3, 0, 0, true, 0⟩) (unlock .tsu .debug ((awake.wr .tsu .prtState 0x7006 3).setPrt .tsu 3 { swap := some ⟨1, 3, 0, 0, true, 0⟩ }))) ∧
    ((fun (port : Port) (farDir : Fin 2) (ln : Fin 4) (block : Word) (b : Nat) (at_ : HT) (s : State) => (s.portState port.part port.num = 6) ∧ ((s.prt port.part port.num).swap = none) ∧ ((s.prt port.part port.num).calibrating = false) ∧ (s.spareReady port.part port.num (1 - farDir.val) = true) ∧ (nearBlock (s.placeNow port.part port.num / placesPerBlock (s.strongFec port.part port.num)) block = b) ∧ (s.blockHt port.part port.num b (s.laneLat port.part port.num (1 - farDir.val) ln) = at_) ∧ (512000 ≤ htDiff at_ (s.ht port.part))) (.sl 3) (0) (3) (40#32) (40) (0x7f200#64) ((awake.wr .tsu .prtState 0x6006 3).wr .tsu .prtLmap 0x46884688 3)) ∧
    ((fun (port : Port) (ready : Word) (w : Swap) (m : Nat) (s : State) => (s.portState port.part port.num = 6) ∧ ((s.prt port.part port.num).swap = some w) ∧ (w.dir = 1) ∧ (w.lane < 4) ∧ (s.dirMap port.part port.num 1 = m)) (.sl 3) (7#32) (⟨1, 3, 5, 0, true, 0⟩) (0x4688) (((awake.wr .tsu .prtState 0x7006 3).wr .tsu .prtLmap 0x46884688 3).setPrt .tsu 3 { swap := some ⟨1, 3, 5, 0, true, 0⟩ })) ∧
    ((fun (port : Port) (block : Word) (w : Swap) (m : Nat) (s : State) => (s.portState port.part port.num = 6) ∧ ((s.prt port.part port.num).swap = some w) ∧ (w.dir = 0) ∧ (w.lane < 4) ∧ (s.dirMap port.part port.num 0 = m)) (.sl 3) (9#32) (⟨0, 0, 9, 0, false, 0⟩) (0x4688) (((awake.wr .tsu .prtState 0x7006 3).wr .tsu .prtLmap 0x46884688 3).setPrt .tsu 3 { swap := some ⟨0, 0, 9, 0, false, 0⟩, holdTsi := true })) ∧
    ((fun (n : Fin 4) (slot : Fin 16) (ty : Byte) (tag : BitVec 16) (addr : BitVec 96) (data : List Byte) (s : State) => (s.portState .tsu n = 6) ∧ (s.fenced = false) ∧ (1 ≤ s.slotSt slot) ∧ (s.slotSt slot ≤ 5) ∧ (1 ≤ ty.toNat) ∧ (ty.toNat ≤ 3) ∧ (1 ≤ data.length) ∧ (data.length ≤ 2 ^ 32)) (3) (15) (3#8) (0xFFFF#16) (0) ([1, 2]) ((slotIn 15 1).wr .tsu .prtState 6 3)) ∧
    ((fun (n : Fin 4) (slot : Fin 16) (ty : Byte) (tag : BitVec 16) (addr : BitVec 96) (data : List Byte) (s : State) => (s.portState .tsu n = 6) ∧ (s.fenced = false) ∧ (1 ≤ s.slotSt slot) ∧ (s.slotSt slot ≤ 5) ∧ (1 ≤ ty.toNat) ∧ (ty.toNat ≤ 3) ∧ (1 ≤ data.length) ∧ (data.length ≤ 2 ^ 32) ∧ ((s.prt .tsu n).bulk = []) ∧ ((s.tsu.sent.any fun (f : Sent) => f.onPort n && f.xfer.isSome) = false)) (3) (15) (3#8) (0xFFFF#16) (0) ([1, 2]) ((slotIn 15 1).wr .tsu .prtState 6 3)) ∧
    ((fun (n : Fin 4) (slot : Fin 16) (ty : Byte) (tag : BitVec 16) (addr : BitVec 96) (data : List Byte) (s : State) => (s.portState .tsu n = 6) ∧ (s.fenced = true)) (3) (15) (3#8) (0xFFFF#16) (0) ([1, 2]) (((slotIn 15 1).wr .tsu .prtState 6 3).wr .tsu .hltStatus 0x80000000)) ∧
    ((fun (n : Fin 4) (b : BulkXfer) (tag : BitVec 16) (s : State) => (((s.prt .tsu n).bulk.find? fun (y : BulkXfer) => y.tag == tag.toNat && y.left == 0 && y.rest.isEmpty) = some b)) (3) ({ tag := 65535, slot := 0, ty := 1, addr := 0, bytes := 9, left := 0 }) (0xFFFF#16) (awake.setPrt .tsu 3 { bulk := [{ tag := 65535, slot := 0, ty := 1, addr := 0, bytes := 9, left := 0 }] })) :=
  by
  iterate 11 refine ⟨by decide +kernel, ?_⟩
  decide +kernel

/-- A state and operands that meet the hypotheses of KeeperCoreBeaconsAndChanges, for each of its clauses. -/
theorem meets_KeeperCoreBeaconsAndChanges :
    ((fun (bht : HT) (n : Nat) (s : State) => (s.bt .tsu .kprCtrl 0 = true) ∧ (s.kc.nextBcn = n) ∧ (n < 2 ^ 32)) (0xFFFFFFFFFFFFFFFF#64) (4294967295) ({ (awake.wr .tsu .kprCtrl 1).wr .tsu .kprCfg 3 with kc := { awake.kc with nextBcn := 4294967295 } })) ∧
    ((fun (src : Src) (s : State) => (s.permits .tsu src (some 6) true = true) ∧ (s.macroBad = false) ∧ (s.bt .tsu .kprCtrl 0 = false)) (dbg) (awake.wr .tsu .kprCfg 3)) ∧
    ((fun (src : Src) (s : State) => (s.permits .tsu src (some 6) true = true)) (dbg) ((awake.wr .tsu .kprCtrl 1).setKeeper 255 { running := true, inc := 7 })) ∧
    ((fun (b : Fin 4) (count : Fin 65) (h : RingHdr) (i : Nat) (s : State) => (s.kprBase b + count.val = i) ∧ (i < 256) ∧ (h.addr.toNat = allKeepers) ∧ (RingGood s i h ⟨1, allKeepers, count, b⟩)) (0) (64) (⟨0x100, 0, crc16 (RingFrame.body ⟨1, 0x100, 64, 0⟩ 0)⟩) (64) (awake)) ∧
    ((fun (b : Fin 4) (count : Fin 65) (h : RingHdr) (rlat : Fin 65536) (s : State) => (RingGood s (256 + b.val) h ⟨1, h.addr.toNat, count, b⟩)) (3) (64) (⟨0x100, 0, crc16 (RingFrame.body ⟨1, 0x100, 64, 3⟩ 0)⟩) (65535) (awake)) ∧
    ((fun (src : Src) (init : Bool) (s : State) => (s.permits .tsu src (some 6) true = true) ∧ (s.tsu.unlocked.contains src.cls = true) ∧ (s.chgState = 0) ∧ (3 ≤ (s.rd .tsu .kprFat - s.rd .tsu .kprBcn).toNat) ∧ ((s.rd .tsu .kprFat - s.rd .tsu .kprBcn).toNat < 2 ^ 31) ∧ (0x00333333 ≤ (s.rd .tsu .kprFinc).toNat) ∧ ((s.rd .tsu .kprFinc).toNat ≤ 0x02000000) ∧ (init = false → s.kc.initialised = true)) (dbg) (true) (unlock .tsu .debug (((awake.wr .tsu .kprFat 3).wr .tsu .kprFinc 0x02000000).wr .tsu .kprCfg 15))) ∧
    ((fun (rx : Fin 260) (h : RingHdr) (k : Word) (chgid : Byte) (s : State) => (ForCore s rx h 10 k.toNat (2 ^ 32 * chgid.toNat)) ∧ (s.chgState = 1) ∧ (s.fd .tsu .kprFstat 23 16 = chgid.toNat)) (259) (⟨255, 0, crc16 (RingFrame.body ⟨10, 255, 7, 0xFF00000000⟩ 0)⟩) (7#32) (0xFF#8) (awake.wr .tsu .kprFstat 0x04FF01FF)) ∧
    ((fun (rx : Fin 260) (h : RingHdr) (k : Word) (chgid : Byte) (s : State) => (rx.val < 256) ∧ (RingGood s rx h ⟨10, h.addr.toNat, k.toNat, 2 ^ 32 * chgid.toNat⟩)) (255) (⟨0, 0, crc16 (RingFrame.body ⟨10, 0, 7, 0xFF00000000⟩ 0)⟩) (7#32) (0xFF#8) (awake)) ∧
    ((fun (rx : Fin 260) (h : RingHdr) (k : Word) (chgid : Byte) (miss : Bool) (s : State) => (ForCore s rx h 11 k.toNat (2 ^ 32 * chgid.toNat + 2 ^ 40 * b2n miss)) ∧ (s.chgState = 2) ∧ (s.fd .tsu .kprFstat 23 16 = chgid.toNat)) (256) (⟨255, 0, crc16 (RingFrame.body ⟨11, 255, 7, 0x1FF00000000⟩ 0)⟩) (7#32) (0xFF#8) (true) (awake.wr .tsu .kprFstat 0x08FF01FF)) ∧
    ((fun (rx : Fin 260) (h : RingHdr) (k : Word) (chgid : Byte) (miss : Bool) (s : State) => (¬ RingGood s rx h ⟨11, h.addr.toNat, k.toNat, 2 ^ 32 * chgid.toNat + 2 ^ 40 * b2n miss⟩)) (256) (⟨255, 1, 0⟩) (7#32) (0xFF#8) (true) (awake.wr .tsu .kprFstat 0x08FF01FF)) ∧
    ((fun (rx : Fin 260) (h : RingHdr) (w : Fin 64) (v : Word) (s : State) => (ForCore s rx h 9 w.val v.toNat) ∧ (s.kc.fetching = some (64 * h.addr.toNat + w.val))) (256) (⟨255, 0, crc16 (RingFrame.body ⟨9, 255, 63, 5⟩ 0)⟩) (63) (5#32) ({ awake with kc := { awake.kc with fetching := some 16383 } })) ∧
    ((fun (rx : Fin 260) (h : RingHdr) (out : Fin 4) (code : Fin 16) (at_ : HT) (s : State) => (ForCore s rx h 12 (out.val + 16 * code.val) at_.toNat) ∧ (Code.ofNum code ≠ .ok)) (256) (⟨255, 0, crc16 (RingFrame.body ⟨12, 255, 19, 7⟩ 0)⟩) (3) (1) (7#64) (awake)) ∧
    ((fun (src : Src) (v : Word) (lo : Word) (a : Nat) (m : Nat) (s : State) => (s.permits .tsu src (some 6) true = true) ∧ (s.staged .tsu src (addrOf .tsu .kprTatLo) (s.rd .tsu .kprTatLo) = lo) ∧ (s.fd .tsu .kprTsel 12 4 = a) ∧ (s.fd .tsu .kprTsel 3 0 = m) ∧ (s.fenced = false) ∧ (noSign (v ++ lo) (s.ht .tsu) = false) ∧ (a = allKeepers ∨ a < s.fd .tsu .kprNkeep 8 0)) (dbg) (1#32) (0#32) (256) (15) ((awake.wr .tsu .kprTsel 0x100F).wr .tsu .kprCfg 5)) ∧
    ((fun (src : Src) (v : Word) (a : Nat) (s : State) => (s.permits .tsu src (some 6) true = true) ∧ (v.getLsbD 0 = true) ∧ (s.fd .tsu .kprTsel 12 4 = a)) (dbg) (1#32) (255) ((awake.wr .tsu .kprTsel 0x0FFF).setKeeper 255 { branch := 3 })) :=
  by
  iterate 13 refine ⟨by decide +kernel, ?_⟩
  decide +kernel

/-- A state and operands that meet the hypotheses of KeepersCountFireAndAnswer, for each of its clauses. -/
theorem meets_KeepersCountFireAndAnswer :
    ((fun (i : Fin 256) (phi : Int) (n : Nat) (str : Nat) (s : State) => ((s.keeper i).bcnKnown = true) ∧ (∀ x ∈ (s.keeper i).held, x.k ≠ ((s.keeper i).bcn + 1) % 2 ^ 32)) (255) (-7) (40) (3) (awake.setKeeper 255 { bcn := 4294967295, bcnKnown := true, running := true, inc := 0x100000, d := 5, x := 7, dFresh := true })) ∧
    ((fun (i : Fin 256) (phi : Int) (n : Nat) (str : Nat) (x : HeldChange) (s : State) => ((s.keeper i).bcnKnown = true) ∧ ((s.keeper i).held = some x) ∧ (x.k = ((s.keeper i).bcn + 1) % 2 ^ 32) ∧ (x.committed = true) ∧ (x.init = false)) (255) (-7) (40) (3) (⟨0, 9, 255, false, true⟩) (awake.setKeeper 255 { bcn := 4294967295, bcnKnown := true, inc := 0x100000, held := some ⟨0, 9, 255, false, true⟩ })) ∧
    ((fun (i : Fin 256) (rx : Fin 260) (h : RingHdr) (n : Word) (bht : HT) (s : State) => (ForKeeper s i rx h 2 (n.toNat) (bht.toNat))) (255) (255) (⟨0x100, 7, crc16 (RingFrame.body ⟨2, 0x100, 0xFFFFFFFF, 0x100⟩ 7)⟩) (0xFFFFFFFF#32) (0x100#64) ((awake.setKeeper 255 { mesh := 0xFFFFFFFF, edgePhi := -3, edgeC := 99 }).setHop 255 { expect := 7 })) ∧
    ((fun (i : Fin 256) (rx : Fin 260) (h : RingHdr) (v : Word) (s : State) => (ForKeeper s i rx h 3 (1) (v.toNat))) (255) (255) (⟨255, 0, crc16 (RingFrame.body ⟨3, 255, 1, 0xFFFFFFFF⟩ 0)⟩) (0xFFFFFFFF#32) (awake)) ∧
    ((fun (i : Fin 256) (rx : Fin 260) (h : RingHdr) (v : Word) (s : State) => (ForKeeper s i rx h 3 (2) (v.toNat))) (0) (0) (⟨0x100, 0, crc16 (RingFrame.body ⟨3, 0x100, 2, 0xFFFFFFFF⟩ 0)⟩) (0xFFFFFFFF#32) (awake)) ∧
    ((fun (rx : Fin 260) (h : RingHdr) (w : Fin 64) (v : Word) (s : State) => (rx.val < 256) ∧ (h.addr.toNat ≠ rx.val) ∧ (h.addr.toNat ≠ allKeepers) ∧ (RingGood s rx h ⟨3, h.addr.toNat, w, v.toNat⟩)) (0) (⟨255, 0, crc16 (RingFrame.body ⟨3, 255, 2, 0xFFFFFFFF⟩ 0)⟩) (2) (0xFFFFFFFF#32) (awake)) ∧
    ((fun (i : Fin 256) (rx : Fin 260) (h : RingHdr) (w : Fin 64) (n : Nat) (str : Nat) (s : State) => (ForKeeper s i rx h 4 (w.val) (0))) (255) (255) (⟨255, 0, crc16 (RingFrame.body ⟨4, 255, 9, 0⟩ 0)⟩) (9) (0) (0) (awake.setKeeper 255 { stat := 5 })) ∧
    ((fun (i : Fin 256) (rx : Fin 260) (h : RingHdr) (out : Fin 4) (mask : Fin 16) (target : HT) (n : Nat) (str : Nat) (l : List (HT × Bool)) (s : State) => (ForKeeper s i rx h 5 (mask.val) (target.toNat)) ∧ (mask.val = 2 ^ out.val) ∧ ((s.keeper i).ctrl.getLsbD out = true) ∧ (mget (fun _ => []) (s.keeper i).armed out.val = l) ∧ (l.length < 4) ∧ ((l.all fun (x : HT × Bool) => decide (2 * (s.keeper i).inc ≤ (htDiff target x.1).natAbs * 65536)) = true)) (255) (255) (⟨255, 0, crc16 (RingFrame.body ⟨5, 255, 8, 0x100⟩ 0)⟩) (3) (8) (0x100#64) (0) (0) ([(7, true)]) (awake.setKeeper 255 { ctrl := 8, inc := 65536, armed := [(3, [(7, true)])] })) ∧
    ((fun (i : Fin 256) (rx : Fin 260) (h : RingHdr) (out : Fin 4) (mask : Fin 16) (s : State) => (ForKeeper s i rx h 6 (mask.val) (0)) ∧ (mask.val.testBit out = true)) (255) (255) (⟨255, 0, crc16 (RingFrame.body ⟨6, 255, 8, 0⟩ 0)⟩) (3) (8) (awake.setKeeper 255 { armed := [(3, [(7, false)])] })) ∧
    ((fun (i : Fin 256) (out : Fin 4) (n : Nat) (str : Nat) (g : HT) (late : Bool) (rest : List (HT × Bool)) (s : State) => (mget (fun _ => []) (s.keeper i).armed out.val = (g, late) :: rest) ∧ (atOrAfter ((s.keeper i).lhtAt n str) g = true)) (255) (3) (0) (0) (7#64) (true) ([]) (awake.setKeeper 255 { acc := 0x1000000000, armed := [(3, [(7, true)])] })) ∧
    ((fun (i : Fin 256) (rx : Fin 260) (h : RingHdr) (k : Word) (inc : Word) (chgid : Byte) (init : Bool) (s : State) => (ForKeeper s i rx h 7 (k.toNat) (inc.toNat + 2 ^ 32 * chgid.toNat + 2 ^ 40 * b2n init)) ∧ (1 ≤ (k - BitVec.ofNat 32 (s.keeper i).bcn).toInt)) (255) (255) (⟨0x100, 0, crc16 (RingFrame.body ⟨7, 0x100, 0, 0x1FF00000007⟩ 0)⟩) (0#32) (7#32) (0xFF#8) (true) (awake.setKeeper 255 { bcn := 4294967295 })) ∧
    ((fun (i : Fin 256) (rx : Fin 260) (h : RingHdr) (k : Word) (chgid : Byte) (cancel : Bool) (x : HeldChange) (s : State) => (ForKeeper s i rx h 8 (k.toNat) (2 ^ 32 * chgid.toNat + 2 ^ 41 * b2n cancel)) ∧ ((s.keeper i).held = some x) ∧ (x.chgid = chgid.toNat)) (255) (255) (⟨0x100, 0, crc16 (RingFrame.body ⟨8, 0x100, 3, 0xFF00000000⟩ 0)⟩) (3#32) (0xFF#8) (false) (⟨3, 7, 255, true, false⟩) (awake.setKeeper 255 { held := some ⟨3, 7, 255, true, false⟩ })) :=
  by
  iterate 11 refine ⟨by decide +kernel, ?_⟩
  decide +kernel

/-- A state and operands that meet the hypotheses of SignalsChangeObjects, for each of its clauses. -/
theorem meets_SignalsChangeObjects :
    ((fun (e : EngSel) (src : Src) (v : Word) (lo : Word) (i : Nat) (s : State) => (s.permits e.part src (some 8) true = true) ∧ (s.staged e.part src (addrOf e.part .sobSigLo e.tileNo) (s.rd e.part .sobSigLo e.tileNo) = lo) ∧ (s.fd e.part .sobSigIdx 12 0 e.tileNo = i) ∧ ((s.eng e).signals = []) ∧ (s.signalCode e { src := 3, idx := i, word := v ++ lo, jctx := src.jctx } = .ok)) (.tile 7) (hkp7) (0x03000000#32) (0xFFFFFFFF#32) (8191) (((awake.setObj (.tile 7) 8191 { word := 0x1300000000000005#64 }).wr .dist .sobSigIdx 8191 7).setStage .dist hkp7 (addrOf .dist .sobSigLo 7) (some 0xFFFFFFFF))) ∧
    ((fun (handle : BitVec 16) (gen : Byte) (epoch : Word) (entries : List (BitVec 16 × DWord)) (c : Nat) (s : State) => (s.slotOfHandle handle.toNat = some c) ∧ (s.slotMatches c gen.toNat epoch.toNat = true)) (0xFFFF#16) (3#8) (5#32) ([(8191, 0xFFFFFFFFFFFF#64), (8192, 0x1000000000000#64)]) (15) (slotIn 15 1)) ∧
    ((fun (e : EngSel) (g : Signal) (gs : List Signal) (s : State) => ((s.eng e).signals = g :: gs)) (.tile 7) ({ src := 1, idx := 8191, word := 0x0300000000000002, jctx := 32 }) ([]) ((awake.setObj (.tile 7) 8191 { word := 0x1300000000000005#64 }).modEng (.tile 7) fun v => { v with signals := [{ src := 1, idx := 8191, word := 0x0300000000000002, jctx := 32 }] })) ∧
    ((fun (e : EngSel) (i : Fin 8192) (s : State) => (oMode (s.obj e i).word = 5) ∧ (oArmed (s.obj e i).word = true)) (.tsu) (8191) (awake.setObj .tsu 8191 { word := 0x5008000000000100#64 })) ∧
    ((fun (e : EngSel) (src : Src) (obj : Fin 8192) (s : State) => (src.cls ≠ .engine) ∧ (s.permits e.part src (some 8) false = true)) (.tsu) (dbg) (8191) (awake.setObj .tsu 8191 { word := 0x5008000000000100#64, stamp := 7 })) ∧
    ((fun (e : EngSel) (src : Src) (obj : Fin 8192) (v : Word) (lo : Word) (img : DWord) (s : State) => (s.permits e.part src (some 8) true = true) ∧ (mget (fun _ => none) (s.eng e).low src.cls.num = some lo) ∧ (v ++ lo = img) ∧ (oMode (s.obj e obj).word = 0) ∧ (oDirty (s.obj e obj).word = false) ∧ (oMode img = 1) ∧ (badLayout img = false) ∧ (s.ownerDraining e (oOwner img) = false) ∧ ((s.eng e).resetRange = none)) (.tile 7) (hkp7) (8191) (0x13000000#32) (9#32) (0x1300000000000009#64) (awake.modEng (.tile 7) fun g => { g with low := [(4, some 9)] })) ∧
    ((fun (e : EngSel) (src : Src) (v : Word) (s : State) => (s.permits e.part src (some 8) true = true) ∧ (fld v 12 0 ≤ fld v 28 16) ∧ ((s.eng e).resetRange = none)) (.tile 7) (hkp7) (0x1FFF0000#32) (awake)) ∧
    ((fun (n : Fin 8) (a : Nat) (b : Nat) (i : Nat) (s : State) => ((s.eng (.tile n)).resetRange = some (a, b)) ∧ (a ≤ i) ∧ (i ≤ b)) (7) (8191) (8191) (8191) (awake.modEng (.tile 7) fun g => { g with resetRange := some (8191, 8191), objs := [(8191, { word := 5 })] })) :=
  by
  iterate 7 refine ⟨by decide +kernel, ?_⟩
  decide +kernel

/-- A state and operands that meet the hypotheses of WicksBindRiseAndFall, for each of its clauses. -/
theorem meets_WicksBindRiseAndFall :
    ((fun (e : EngSel) (i : Nat) (rest : List Nat) (s : State) => ((s.eng e).evals = i :: rest)) (.tile 7) (8191) ([3]) (awake.modEng (.tile 7) fun g => { g with evals := [8191, 3] })) ∧
    ((fun (n : Fin 256) (w : Wick) (rest : List Nat) (s : State) => ((s.eng .tsu).evals = w.obj :: rest) ∧ (s.wick n = w) ∧ (w.state = 1) ∧ (oMode (s.obj .tsu w.obj).word = 1) ∧ (oDirty (s.obj .tsu w.obj).word = false) ∧ (w.thr ≤ bits (s.obj .tsu w.obj).word.toNat 31 0) ∧ (∀ m : Fin 256, m.val < n.val → (s.wick m).obj = w.obj → (s.wick m).consume = false)) (255) ({ state := 1, obj := 8191, thr := 5, consume := true }) ([]) ({ (awake.setObj .tsu 8191 { word := 0x1000000000000005#64 }).modEng .tsu fun g => { g with evals := [8191] } with wicks := [(3, { state := 1, obj := 8191 }), (255, { state := 1, obj := 8191, thr := 5, consume := true })] })) ∧
    ((fun (n : Fin 256) (src : Src) (v : Word) (thr : Nat) (i : Nat) (s : State) => (s.permits .tsu src (some 8) true = true) ∧ ((s.rd .tsu .wkThrLo n).toNat + 2 ^ 32 * s.fd .tsu .wkThrHi 15 0 n = thr) ∧ (fld v 12 0 = i) ∧ (s.bindCode n (fld v 31 28) i thr (v.getLsbD 14) false false = .ok) ∧ (condMet (s.obj .tsu i).word thr (s.ht .tsu) = false)) (255) (dbg) (0xF0005FFF#32) (9) (8191) (((slotIn 15 1).setObj .tsu 8191 { word := 0x1F03000000000005#64 }).wr .tsu .wkThrLo 9 255)) ∧
    ((fun (n : Fin 256) (src : Src) (v : Word) (s : State) => (s.permits .tsu src (some 8) true = true) ∧ (s.bindCode n (fld v 31 28) 0 0 false true false = .ok)) (255) (dbg) (0xF0000000#32) ((slotIn 15 1).setWick 255 { state := 1, slot := 15 })) ∧
    ((fun (n : Fin 256) (s : State) => (s.fenced = false) ∧ (s.clockRuns .tsu = true) ∧ ((s.wick n).state = 2) ∧ ((s.wick n).ackHeld = false) ∧ (s.fd .tsu .sobCfg 7 0 = 0)) (255) ({ (awake.wr .tsu .prtState 6 3).wr .tsu .sobCfg 0 with wicks := [(3, { state := 2 }), (255, { state := 2 })] })) ∧
    ((fun (n : Fin 256) (held : Bool) (w : Wick) (s : State) => (s.fenced = false) ∧ (s.clockRuns .tsu = true) ∧ (s.wick n = w) ∧ (w.state = 3) ∧ (condMet (s.obj .tsu w.obj).word w.thr (s.ht .tsu) = false)) (255) (true) ({ state := 3, oneshot := true, obj := 5 }) ((awake.wr .tsu .prtState 6 3).setWick 255 { state := 3, oneshot := true, obj := 5 })) ∧
    ((fun (n : Fin 256) (held : Bool) (s : State) => (s.fenced = false) ∧ (s.clockRuns .tsu = true) ∧ ((s.wick n).state ≠ 3) ∧ (held = true ∨ (s.wick n).ackHeld = false)) (0) (false) (awake.wr .tsu .prtState 6 3)) ∧
    ((fun (n : Fin 256) (held : Bool) (s : State) => (s.fenced = true ∨ s.clockRuns .tsu = false)) (0) (false) (awake)) ∧
    ((fun (n : Fin 256) (s : State) => (s.fenced = false) ∧ ((s.wick n).state = 4) ∧ (oMode (s.obj .tsu (s.wick n).obj).word ≠ 5) ∧ (condMet (s.obj .tsu (s.wick n).obj).word (s.wick n).thr (s.ht .tsu) = false)) (255) (awake.setWick 255 { state := 4, prelit := true })) ∧
    ((fun (slot : Fin 16) (n : Fin 256) (pl : Prelit) (g : Nat) (h : HT) (rest : List (HT × Nat)) (s : State) => (mwf (fun _ => ({} : Wick)) s.wicks = true) ∧ ((mget (fun _ => ({} : Slot)) s.slots slot.val).prelits.getLast? = some pl) ∧ (pl.stages = (h, g) :: rest) ∧ ((s.wick n).state = 1) ∧ ((s.wick n).slot = slot.val) ∧ ((s.wick n).plgrp = g) ∧ (s.fenced = false) ∧ (atOrAfter (s.ht .tsu) h = true)) (15) (255) ({ id := 3, at_ := 512, stages := [(0, 15)] }) (15) (0#64) ([]) ({ awake with slots := [(15, { prelits := [{ id := 3, at_ := 512, stages := [(0, 15)] }] })], wicks := [(255, { state := 1, slot := 15, plgrp := 15 })] })) ∧
    ((fun (slot : Fin 16) (s : State) => (s.slotSt slot = 6) ∧ ((mget (fun _ => ({} : Slot)) s.slots slot.val).balanced = false) ∧ (mwf (fun _ => ({} : Wick)) s.wicks = true)) (15) (((slotIn 15 6).setWick 255 { state := 1, slot := 15 }).setWick 7 { state := 3, slot := 15 })) :=
  by
  iterate 10 refine ⟨by decide +kernel, ?_⟩
  decide +kernel

/-- A state and operands that meet the hypotheses of EnginesStartStopAndScrub, for each of its clauses. -/
theorem meets_EnginesStartStopAndScrub :
    ((fun (e : EngSel) (src : Src) (s : State) => (s.permits e.part src (some 7) true = true)) (.tile 7) (hkp7) (awake)) ∧
    ((fun (e : EngSel) (src : Src) (s : State) => (s.permits e.part src (some 7) true = true) ∧ (∀ c : Fin 16, s.ctxActive e c = false)) (.tsu) (dbg) ((awake.wr .tsu .senCtrl 1).wr .tsu .senStatus 2)) ∧
    ((fun (e : EngSel) (s : State) => (s.bt e.part .senCtrl 0 e.inst = true)) (.tile 7) (awake.wr .dist .senCtrl 1 7)) ∧
    ((fun (e : EngSel) (k : Nat) (s : State) => (s.fd e.part .senCfg 15 8 e.inst ≠ 0) ∧ (s.wiping e.part = false) ∧ ((s.eng e).scrub = k) ∧ (k < imemWords e)) (.tsu) (16383) ((awake.wr .tsu .senCfg 0x100).modEng .tsu fun g => { g with scrub := 16383, badI := [16383] })) ∧
    ((fun (e : EngSel) (k : Nat) (s : State) => (s.fd e.part .senCfg 15 8 e.inst ≠ 0) ∧ (s.wiping e.part = false) ∧ ((s.eng e).scrub = k) ∧ (k < imemWords e) ∧ ((s.eng e).oneI.filter (· == k) = [k])) (.tsu) (0) (((awake.wr .tsu .senCfg 0x100).wr .tsu .senEccCnt 65535).modEng .tsu fun g => { g with oneI := [7, 0] })) ∧
    ((fun (e : EngSel) (k : Nat) (s : State) => (s.fd e.part .senCfg 15 8 e.inst ≠ 0) ∧ (s.wiping e.part = false) ∧ ((s.eng e).scrub = k) ∧ (k < imemWords e)) (.tile 7) (65535) ((awake.wr .dist .senCfg 0x100 7).modEng (.tile 7) fun g => { g with scrub := 65535, oneI := [65535] })) ∧
    ((fun (e : EngSel) (c : Fin 16) (src : Src) (s : State) => (s.permits e.part src (some 7) true = true) ∧ (s.cst e c = 0) ∧ (s.startRange e c = false) ∧ (s.pllReady e = true)) (.tile 7) (15) (hkp7) (((ctxAt (.tile 7) 15).setCst (.tile 7) 15 0).wr .dist .senStatus 2 7)) ∧
    ((fun (e : EngSel) (c : Fin 16) (src : Src) (s : State) => (s.permits e.part src (some 7) true = true) ∧ (s.cst e c = 1)) (.tile 7) (15) (hkp7) ((ctxAt (.tile 7) 15).modCtx (.tile 7) 15 fun v => { v with fx := [7], fxPc := 61 })) ∧
    ((fun (e : EngSel) (c : Fin 16) (src : Src) (s : State) => (s.permits e.part src (some 7) true = true) ∧ (s.cst e c = 2) ∧ ((s.ctx e c).fx = [])) (.tsu) (15) (dbg) (((ctxAt .tsu 15).setCst .tsu 15 2).modCtx .tsu 15 fun v => { v with wait := some (.tick 5 1) })) ∧
    ((fun (e : EngSel) (c : Fin 16) (src : Src) (s : State) => (s.permits e.part src (some 7) true = true) ∧ (s.cst e c = 4)) (.tsu) (15) (dbg) (awake.wr .tsu .ctxState 0x94 15)) ∧
    ((fun (e : EngSel) (c : Fin 16) (src : Src) (s : State) => (s.permits e.part src (some 7) true = true) ∧ (s.cst e c = 0) ∧ (s.startRange e c = false) ∧ (s.pllReady e = true)) (.tsu) (15) (dbg) (((ctxAt .tsu 15).setCst .tsu 15 0).wr .tsu .senStatus 2)) ∧
    ((fun (e : EngSel) (c : Fin 16) (s : State) => (s.cst e c = 3) ∧ ((s.ctx e c).fxPc < 65536)) (.tile 7) (15) (((ctxAt (.tile 7) 15).setCst (.tile 7) 15 3).modCtx (.tile 7) 15 fun v => { v with fx := [7], fxPc := 61 })) :=
  by
  iterate 11 refine ⟨by decide +kernel, ?_⟩
  decide +kernel

/-- A state and operands that meet the hypotheses of EngineWindowsAndCompletions, for each of its clauses. -/
theorem meets_EngineWindowsAndCompletions :
    ((fun (e : EngSel) (src : Src) (word : BitVec 18) (v : Word) (s : State) => (s.permits e.part src (some 7) true = true) ∧ (word.toNat < imemWords e) ∧ (s.wiping e.part = false) ∧ (∀ c : Fin 16, s.ctxActive e c = false)) (.tile 7) (hkp7) (0xFFFF#18) (0xFFFFFFFF#32) (awake.modEng (.tile 7) fun g => { g with badI := [65535] })) ∧
    ((fun (e : EngSel) (src : Src) (word : BitVec 18) (v : Word) (s : State) => (s.permits e.part src (some 7) true = true) ∧ (4 * word.toNat < dmemBytes e) ∧ (s.wiping e.part = false) ∧ (s.badDmem e (4 * word.toNat) 4 = false)) (.tsu) (dbg) (0x3FFF#18) (0x80000001#32) (awake)) ∧
    ((fun (e : EngSel) (src : Src) (c : Fin 16) (r : Fin 32) (v : Word) (lo : Word) (word : BitVec 11) (a : Nat) (s : State) => (s.permits e.part src (some 7) true = true) ∧ (word.toNat = 128 * c.val + 2 * r.val + 1) ∧ (winBase e.tileNo + 0x200000 + 4 * (128 * c.val + 2 * r.val) = a) ∧ (mget (fun _ => none) (s.part e.part).stage (clsKey src a) = some lo) ∧ (s.ctxActive e c = false)) (.tile 7) (hkp7) (15) (31) (0x80000000#32) (9#32) (1983#11) (0x03E01EF8) (awake.setStage .dist hkp7 0x03E01EF8 (some 9))) ∧
    ((fun (e : EngSel) (d : Deferred) (o : Op) (s : State) => (s.todo.find? (fun d => d.op.eng == e) = some d) ∧ (s.op d.op = some o) ∧ (o.result = none) ∧ ((s.outstandingAll e).all (fun (y : OpRef × Op) => y.2.opcode ≠ 0x3D) = true)) (.tsu) (⟨⟨.tsu, 15, 7, 255⟩, .late, 9, 3, 0, [], false⟩) (⟨255, 0x35, 0, 3, 8191, 15, [], none⟩) ({ (awake.modCtx .tsu 15 fun v => { v with ops := [(7, ⟨255, 0x35, 0, 3, 8191, 15, [], none⟩)] }) with todo := [⟨⟨.tsu, 15, 7, 255⟩, .late, 9, 3, 0, [], false⟩] })) :=
  by
  iterate 3 refine ⟨by decide +kernel, ?_⟩
  decide +kernel

/-- A state and operands that meet the hypotheses of IntegerRegisterInstructions, for each of its clauses. -/
theorem meets_IntegerRegisterInstructions :
    ((fun (x : CtxRef) (d : Fin 32) (a : Fin 32) (b : Fin 32) (s : State) => (CanIssue s x 0)) (x7) (31) (1) (2) (((ctxAt (.tile 7) 15).setG (.tile 7) 15 1 0x8000000000000001#64).setG (.tile 7) 15 2 0x7FFFFFFFFFFFFFC3#64)) ∧
    ((fun (x : CtxRef) (d : Fin 32) (a : Fin 32) (b : Fin 32) (s : State) => (CanIssue s x 0)) (x7) (31) (1) (2) (((ctxAt (.tile 7) 15).setG (.tile 7) 15 1 0x8000000000000001#64).setG (.tile 7) 15 2 0x7FFFFFFFFFFFFFC3#64)) ∧
    ((fun (x : CtxRef) (d : Fin 32) (a : Fin 32) (b : Fin 32) (s : State) => (CanIssue s x 0)) (x7) (31) (1) (2) (((ctxAt (.tile 7) 15).setG (.tile 7) 15 1 0x8000000000000001#64).setG (.tile 7) 15 2 0x7FFFFFFFFFFFFFC3#64)) ∧
    ((fun (x : CtxRef) (d : Fin 32) (a : Fin 32) (b : Fin 32) (s : State) => (CanIssue s x 0)) (x7) (31) (1) (2) (((ctxAt (.tile 7) 15).setG (.tile 7) 15 1 0x8000000000000001#64).setG (.tile 7) 15 2 0x7FFFFFFFFFFFFFC3#64)) ∧
    ((fun (x : CtxRef) (d : Fin 32) (a : Fin 32) (b : Fin 32) (s : State) => (CanIssue s x 0)) (x7) (31) (1) (2) (((ctxAt (.tile 7) 15).setG (.tile 7) 15 1 0x8000000000000001#64).setG (.tile 7) 15 2 0x7FFFFFFFFFFFFFC3#64)) ∧
    ((fun (x : CtxRef) (d : Fin 32) (a : Fin 32) (b : Fin 32) (s : State) => (CanIssue s x 0)) (x7) (31) (1) (2) (((ctxAt (.tile 7) 15).setG (.tile 7) 15 1 0x8000000000000001#64).setG (.tile 7) 15 2 0x7FFFFFFFFFFFFFC3#64)) ∧
    ((fun (x : CtxRef) (d : Fin 32) (a : Fin 32) (b : Fin 32) (s : State) => (CanIssue s x 0)) (x7) (31) (1) (2) (((ctxAt (.tile 7) 15).setG (.tile 7) 15 1 0x8000000000000001#64).setG (.tile 7) 15 2 0x7FFFFFFFFFFFFFC3#64)) ∧
    ((fun (x : CtxRef) (d : Fin 32) (a : Fin 32) (b : Fin 32) (s : State) => (CanIssue s x 0)) (x7) (31) (1) (2) (((ctxAt (.tile 7) 15).setG (.tile 7) 15 1 0x8000000000000001#64).setG (.tile 7) 15 2 0x7FFFFFFFFFFFFFC3#64)) ∧
    ((fun (x : CtxRef) (d : Fin 32) (a : Fin 32) (b : Fin 32) (s : State) => (CanIssue s x 0)) (x7) (31) (1) (2) (((ctxAt (.tile 7) 15).setG (.tile 7) 15 1 0x8000000000000001#64).setG (.tile 7) 15 2 0x7FFFFFFFFFFFFFC3#64)) ∧
    ((fun (x : CtxRef) (d : Fin 32) (a : Fin 32) (b : Fin 32) (s : State) => (CanIssue s x 0)) (x7) (31) (1) (2) (((ctxAt (.tile 7) 15).setG (.tile 7) 15 1 0x8000000000000001#64).setG (.tile 7) 15 2 0x7FFFFFFFFFFFFFC3#64)) ∧
    ((fun (x : CtxRef) (d : Fin 32) (a : Fin 32) (b : Fin 32) (s : State) => (CanIssue s x 0)) (x7) (31) (1) (2) (((ctxAt (.tile 7) 15).setG (.tile 7) 15 1 0x8000000000000001#64).setG (.tile 7) 15 2 0x7FFFFFFFFFFFFFC3#64)) ∧
    ((fun (x : CtxRef) (d : Fin 32) (a : Fin 32) (b : Fin 32) (s : State) => (CanIssue s x 0)) (x7) (31) (1) (2) (((ctxAt (.tile 7) 15).setG (.tile 7) 15 1 0x8000000000000001#64).setG (.tile 7) 15 2 0x7FFFFFFFFFFFFFC3#64)) ∧
    ((fun (x : CtxRef) (d : Fin 32) (a : Fin 32) (s : State) => (CanIssue s x 0)) (x7) (31) (1) ((ctxAt (.tile 7) 15).setG (.tile 7) 15 1 0x8000000000000001#64)) :=
  by
  iterate 12 refine ⟨by decide +kernel, ?_⟩
  decide +kernel

/-- A state and operands that meet the hypotheses of IntegerComparisons, for each of its clauses. -/
theorem meets_IntegerComparisons :
    ((fun (x : CtxRef) (d : Fin 8) (a : Fin 32) (b : Fin 32) (s : State) => (CanIssue s x 0)) (x7) (7) (1) (2) (((ctxAt (.tile 7) 15).setG (.tile 7) 15 1 5).setG (.tile 7) 15 2 5)) ∧
    ((fun (x : CtxRef) (d : Fin 8) (a : Fin 32) (b : Fin 32) (s : State) => (CanIssue s x 0)) (x7) (7) (1) (2) (((ctxAt (.tile 7) 15).setG (.tile 7) 15 1 0x8000000000000000).setG (.tile 7) 15 2 0)) ∧
    ((fun (x : CtxRef) (d : Fin 8) (a : Fin 32) (b : Fin 32) (s : State) => (CanIssue s x 0)) (x7) (7) (1) (2) (((ctxAt (.tile 7) 15).setG (.tile 7) 15 1 0x8000000000000000).setG (.tile 7) 15 2 0)) :=
  by
  iterate 2 refine ⟨by decide +kernel, ?_⟩
  decide +kernel

/-- A state and operands that meet the hypotheses of ImmediateInstructionsAndPrefixes, for each of its clauses. -/
theorem meets_ImmediateInstructionsAndPrefixes :
    ((fun (x : CtxRef) (d : Fin 32) (a : Fin 32) (imm : BitVec 16) (s : State) => (CanIssue s x 2)) (x7) (31) (1) (0xFFFF#16) (((ctxAt (.tile 7) 15).setG (.tile 7) 15 1 0x00000000FFFF0000#64).modCtx (.tile 7) 15 fun v => { v with fx := [1, 2], fxPc := 60 })) ∧
    ((fun (x : CtxRef) (d : Fin 32) (a : Fin 32) (imm : BitVec 16) (s : State) => (CanIssue s x 2)) (x7) (31) (1) (0xFFFF#16) (((ctxAt (.tile 7) 15).setG (.tile 7) 15 1 0x00000000FFFF0000#64).modCtx (.tile 7) 15 fun v => { v with fx := [1, 2], fxPc := 60 })) ∧
    ((fun (x : CtxRef) (d : Fin 32) (a : Fin 32) (imm : BitVec 16) (s : State) => (CanIssue s x 2)) (x7) (31) (1) (0xFFFF#16) (((ctxAt (.tile 7) 15).setG (.tile 7) 15 1 0x00000000FFFF0000#64).modCtx (.tile 7) 15 fun v => { v with fx := [1, 2], fxPc := 60 })) ∧
    ((fun (x : CtxRef) (d : Fin 32) (a : Fin 32) (imm : BitVec 16) (s : State) => (CanIssue s x 2)) (x7) (31) (1) (0xFFFF#16) (((ctxAt (.tile 7) 15).setG (.tile 7) 15 1 0x00000000FFFF0000#64).modCtx (.tile 7) 15 fun v => { v with fx := [1, 2], fxPc := 60 })) ∧
    ((fun (x : CtxRef) (d : Fin 32) (imm : BitVec 16) (s : State) => (CanIssue s x 2)) (x7) (31) (0x8000#16) (ctxAt (.tile 7) 15)) ∧
    ((fun (x : CtxRef) (imm : BitVec 26) (s : State) => (CanIssue s x (s.ctx x.eng x.ctx).fx.length)) (x7) (0x3FFFFFF#26) ((ctxAt (.tile 7) 15).modCtx (.tile 7) 15 fun v => { v with fx := [1, 2], fxPc := 60 })) :=
  by
  iterate 5 refine ⟨by decide +kernel, ?_⟩
  decide +kernel

/-- A state and operands that meet the hypotheses of FloatingPointInstructions, for each of its clauses. -/
theorem meets_FloatingPointInstructions :
    ((fun (x : CtxRef) (md : Rnd) (d : Fin 32) (a : Fin 32) (b : Fin 32) (s : State) => (CanIssue s x 0)) (x7) (.rtz) (31) (1) (2) (((ctxAt (.tile 7) 15).setG (.tile 7) 15 1 0x3FF0000000000001#64).setG (.tile 7) 15 2 0x4008000000000000#64)) ∧
    ((fun (x : CtxRef) (md : Rnd) (d : Fin 32) (a : Fin 32) (b : Fin 32) (s : State) => (CanIssue s x 0)) (x7) (.rtz) (31) (1) (2) (((ctxAt (.tile 7) 15).setG (.tile 7) 15 1 0x3FF0000000000001#64).setG (.tile 7) 15 2 0x4008000000000000#64)) ∧
    ((fun (x : CtxRef) (md : Rnd) (d : Fin 32) (a : Fin 32) (b : Fin 32) (s : State) => (CanIssue s x 0)) (x7) (.rtz) (31) (1) (2) (((ctxAt (.tile 7) 15).setG (.tile 7) 15 1 0x3FF0000000000001#64).setG (.tile 7) 15 2 0x4008000000000000#64)) ∧
    ((fun (x : CtxRef) (md : Rnd) (d : Fin 32) (a : Fin 32) (b : Fin 32) (s : State) => (CanIssue s x 0) ∧ (DivideFree s x)) (x7) (.rtz) (31) (1) (2) (((ctxAt (.tile 7) 15).setG (.tile 7) 15 1 0x3FF0000000000001#64).setG (.tile 7) 15 2 0x4008000000000000#64)) ∧
    ((fun (x : CtxRef) (md : Rnd) (d : Fin 32) (a : Fin 32) (s : State) => (CanIssue s x 0) ∧ (DivideFree s x)) (x7) (.rup) (31) (1) ((ctxAt (.tile 7) 15).setG (.tile 7) 15 1 0xC008000000000001#64)) ∧
    ((fun (x : CtxRef) (d : Fin 32) (a : Fin 32) (b : Fin 32) (s : State) => (CanIssue s x 0)) (x7) (31) (1) (2) (((ctxAt (.tile 7) 15).setG (.tile 7) 15 1 0x3FF0000000000001#64).setG (.tile 7) 15 2 0x4008000000000000#64)) ∧
    ((fun (x : CtxRef) (d : Fin 32) (a : Fin 32) (b : Fin 32) (s : State) => (CanIssue s x 0)) (x7) (31) (1) (2) (((ctxAt (.tile 7) 15).setG (.tile 7) 15 1 0x3FF0000000000001#64).setG (.tile 7) 15 2 0x4008000000000000#64)) ∧
    ((fun (x : CtxRef) (md : Rnd) (d : Fin 32) (a : Fin 32) (b : Fin 32) (s : State) => (CanIssue s x 0)) (x7) (.rtz) (31) (1) (2) (((ctxAt (.tile 7) 15).setG (.tile 7) 15 1 0x3FF0000000000001#64).setG (.tile 7) 15 2 0x4008000000000000#64)) ∧
    ((fun (x : CtxRef) (md : Rnd) (d : Fin 32) (a : Fin 32) (s : State) => (CanIssue s x 0)) (x7) (.rup) (31) (1) ((ctxAt (.tile 7) 15).setG (.tile 7) 15 1 0xC008000000000001#64)) ∧
    ((fun (x : CtxRef) (md : Rnd) (d : Fin 32) (a : Fin 32) (s : State) => (CanIssue s x 0)) (x7) (.rup) (31) (1) ((ctxAt (.tile 7) 15).setG (.tile 7) 15 1 0xC008000000000001#64)) ∧
    ((fun (x : CtxRef) (md : Rnd) (d : Fin 32) (a : Fin 32) (s : State) => (CanIssue s x 0)) (x7) (.rup) (31) (1) ((ctxAt (.tile 7) 15).setG (.tile 7) 15 1 0xC008000000000001#64)) ∧
    ((fun (x : CtxRef) (md : Rnd) (d : Fin 32) (a : Fin 32) (s : State) => (CanIssue s x 0)) (x7) (.rup) (31) (1) ((ctxAt (.tile 7) 15).setG (.tile 7) 15 1 0xC008000000000001#64)) ∧
    ((fun (x : CtxRef) (md : Rnd) (d : Fin 32) (a : Fin 32) (s : State) => (CanIssue s x 0)) (x7) (.rup) (31) (1) ((ctxAt (.tile 7) 15).setG (.tile 7) 15 1 0xC008000000000001#64)) :=
  by
  iterate 12 refine ⟨by decide +kernel, ?_⟩
  decide +kernel

/-- A state and operands that meet the hypotheses of FloatingPointComparisons, for each of its clauses. -/
theorem meets_FloatingPointComparisons :
    ((fun (x : CtxRef) (d : Fin 8) (a : Fin 32) (b : Fin 32) (s : State) => (CanIssue s x 0)) (x7) (7) (1) (2) (((ctxAt (.tile 7) 15).setG (.tile 7) 15 1 0x8000000000000000).setG (.tile 7) 15 2 0)) ∧
    ((fun (x : CtxRef) (d : Fin 8) (a : Fin 32) (b : Fin 32) (s : State) => (CanIssue s x 0)) (x7) (7) (1) (2) (((ctxAt (.tile 7) 15).setG (.tile 7) 15 1 0xFFF0000000000000).setG (.tile 7) 15 2 0)) ∧
    ((fun (x : CtxRef) (d : Fin 8) (a : Fin 32) (b : Fin 32) (s : State) => (CanIssue s x 0)) (x7) (7) (1) (2) (((ctxAt (.tile 7) 15).setG (.tile 7) 15 1 0xFFF0000000000000).setG (.tile 7) 15 2 0)) ∧
    ((fun (x : CtxRef) (d : Fin 8) (a : Fin 32) (b : Fin 32) (s : State) => (CanIssue s x 0)) (x7) (7) (1) (2) (((ctxAt (.tile 7) 15).setG (.tile 7) 15 1 0x7FF8000000000000).setG (.tile 7) 15 2 0)) :=
  by
  iterate 3 refine ⟨by decide +kernel, ?_⟩
  decide +kernel

/-- A state and operands that meet the hypotheses of ControlFlowInstructions, for each of its clauses. -/
theorem meets_ControlFlowInstructions :
    ((fun (x : CtxRef) (off : BitVec 16) (n : Int) (s : State) => (CanIssue s x 2) ∧ ((s.pc x.eng x.ctx : Int) + s.immS x.eng x.ctx 16 off.toNat = n) ∧ (0 ≤ n) ∧ (n < s.iwinSize x.eng x.ctx)) (x7) (0xFFC2#16) (0) (ctxAt (.tile 7) 15)) ∧
    ((fun (x : CtxRef) (p : Fin 8) (inv : Bool) (off : BitVec 16) (n : Int) (s : State) => (CanIssue s x 2) ∧ ((s.pc x.eng x.ctx : Int) + s.immS x.eng x.ctx 16 off.toNat = n) ∧ (s.pr x.eng x.ctx p ≠ inv → 0 ≤ n ∧ n < s.iwinSize x.eng x.ctx)) (x7) (7) (true) (1#16) (63) (ctxAt (.tile 7) 15)) ∧
    ((fun (x : CtxRef) (a : Fin 32) (b : Fin 32) (off : BitVec 16) (n : Int) (s : State) => (CanIssue s x 2) ∧ ((s.pc x.eng x.ctx : Int) + s.immS x.eng x.ctx 16 off.toNat = n) ∧ (s.g x.eng x.ctx a = s.g x.eng x.ctx b → 0 ≤ n ∧ n < s.iwinSize x.eng x.ctx)) (x7) (1) (2) (0xFFFF#16) (61) (((ctxAt (.tile 7) 15).setG (.tile 7) 15 1 5).setG (.tile 7) 15 2 5)) ∧
    ((fun (x : CtxRef) (a : Fin 32) (b : Fin 32) (off : BitVec 16) (n : Int) (s : State) => (CanIssue s x 2) ∧ ((s.pc x.eng x.ctx : Int) + s.immS x.eng x.ctx 16 off.toNat = n) ∧ (s.g x.eng x.ctx a ≠ s.g x.eng x.ctx b → 0 ≤ n ∧ n < s.iwinSize x.eng x.ctx)) (x7) (1) (2) (0xFFFF#16) (61) (((ctxAt (.tile 7) 15).setG (.tile 7) 15 1 5).setG (.tile 7) 15 2 5)) ∧
    ((fun (x : CtxRef) (a : Fin 32) (b : Fin 32) (off : BitVec 16) (n : Int) (s : State) => (CanIssue s x 2) ∧ ((s.pc x.eng x.ctx : Int) + s.immS x.eng x.ctx 16 off.toNat = n) ∧ ((s.g x.eng x.ctx a).toInt < (s.g x.eng x.ctx b).toInt → 0 ≤ n ∧ n < s.iwinSize x.eng x.ctx)) (x7) (1) (2) (0xFFFF#16) (61) (((ctxAt (.tile 7) 15).setG (.tile 7) 15 1 0x8000000000000000).setG (.tile 7) 15 2 0)) ∧
    ((fun (x : CtxRef) (a : Fin 32) (b : Fin 32) (off : BitVec 16) (n : Int) (s : State) => (CanIssue s x 2) ∧ ((s.pc x.eng x.ctx : Int) + s.immS x.eng x.ctx 16 off.toNat = n) ∧ ((s.g x.eng x.ctx b).toInt ≤ (s.g x.eng x.ctx a).toInt → 0 ≤ n ∧ n < s.iwinSize x.eng x.ctx)) (x7) (1) (2) (0xFFFF#16) (61) (((ctxAt (.tile 7) 15).setG (.tile 7) 15 1 0x8000000000000000).setG (.tile 7) 15 2 0)) ∧
    ((fun (x : CtxRef) (a : Fin 32) (b : Fin 32) (off : BitVec 16) (n : Int) (s : State) => (CanIssue s x 2) ∧ ((s.pc x.eng x.ctx : Int) + s.immS x.eng x.ctx 16 off.toNat = n) ∧ ((s.g x.eng x.ctx a).toNat < (s.g x.eng x.ctx b).toNat → 0 ≤ n ∧ n < s.iwinSize x.eng x.ctx)) (x7) (1) (2) (0xFFFF#16) (61) (((ctxAt (.tile 7) 15).setG (.tile 7) 15 1 0x8000000000000000).setG (.tile 7) 15 2 0)) ∧
    ((fun (x : CtxRef) (a : Fin 32) (b : Fin 32) (off : BitVec 16) (n : Int) (s : State) => (CanIssue s x 2) ∧ ((s.pc x.eng x.ctx : Int) + s.immS x.eng x.ctx 16 off.toNat = n) ∧ ((s.g x.eng x.ctx b).toNat ≤ (s.g x.eng x.ctx a).toNat → 0 ≤ n ∧ n < s.iwinSize x.eng x.ctx)) (x7) (1) (2) (0xFFFF#16) (61) (((ctxAt (.tile 7) 15).setG (.tile 7) 15 1 0x8000000000000000).setG (.tile 7) 15 2 0)) ∧
    ((fun (x : CtxRef) (a : Fin 32) (off : BitVec 16) (n : Int) (s : State) => (CanIssue s x 2) ∧ ((s.pc x.eng x.ctx : Int) + s.immS x.eng x.ctx 16 off.toNat = n) ∧ (0 ≤ n) ∧ (n < s.iwinSize x.eng x.ctx)) (x7) (31) (1#16) (63) (ctxAt (.tile 7) 15)) ∧
    ((fun (x : CtxRef) (a : Fin 32) (s : State) => (CanIssue s x 0) ∧ (0 ≤ (s.g x.eng x.ctx a).toInt) ∧ ((s.g x.eng x.ctx a).toInt < s.iwinSize x.eng x.ctx)) (x7) (31) ((ctxAt (.tile 7) 15).setG (.tile 7) 15 31 63)) ∧
    ((fun (x : CtxRef) (s : State) => (CanIssue s x 0)) (xT) (ctxAt .tsu 15)) :=
  by
  iterate 10 refine ⟨by decide +kernel, ?_⟩
  decide +kernel

/-- A state and operands that meet the hypotheses of LoadsAndStores, for each of its clauses. -/
theorem meets_LoadsAndStores :
    ((fun (x : CtxRef) (d : Fin 32) (a : Fin 32) (imm : BitVec 16) (o : Nat) (s : State) => (CanIssue s x 2) ∧ ((s.g x.eng x.ctx a + BitVec.ofInt 64 (s.immS x.eng x.ctx 16 imm.toNat)).toNat = o) ∧ (InDwin s x o 8) ∧ (s.badDmem x.eng (s.dwinBase x.eng x.ctx + o) 8 = false)) (x7) (31) (1) (65528#16) (248) (((ctxAt (.tile 7) 15).setG (.tile 7) 15 1 256).dmemWrite (.tile 7) 504 8 0x8182838485868788)) ∧
    ((fun (x : CtxRef) (d : Fin 32) (a : Fin 32) (imm : BitVec 16) (o : Nat) (s : State) => (CanIssue s x 2) ∧ ((s.g x.eng x.ctx a + BitVec.ofInt 64 (s.immS x.eng x.ctx 16 imm.toNat)).toNat = o) ∧ (InDwin s x o 4) ∧ (s.badDmem x.eng (s.dwinBase x.eng x.ctx + o) 4 = false)) (x7) (31) (1) (65528#16) (248) (((ctxAt (.tile 7) 15).setG (.tile 7) 15 1 256).dmemWrite (.tile 7) 504 8 0x8182838485868788)) ∧
    ((fun (x : CtxRef) (d : Fin 32) (a : Fin 32) (off : BitVec 10) (o : Nat) (s : State) => (CanIssue s x 0) ∧ ((s.g x.eng x.ctx a + BitVec.ofInt 64 (off.toInt)).toNat = o) ∧ (InDwin s x o 2) ∧ (s.badDmem x.eng (s.dwinBase x.eng x.ctx + o) 2 = false)) (x7) (31) (1) (1016#10) (248) (((ctxAt (.tile 7) 15).setG (.tile 7) 15 1 256).dmemWrite (.tile 7) 504 8 0x8182838485868788)) ∧
    ((fun (x : CtxRef) (d : Fin 32) (a : Fin 32) (off : BitVec 10) (o : Nat) (s : State) => (CanIssue s x 0) ∧ ((s.g x.eng x.ctx a + BitVec.ofInt 64 (off.toInt)).toNat = o) ∧ (InDwin s x o 1) ∧ (s.badDmem x.eng (s.dwinBase x.eng x.ctx + o) 1 = false)) (x7) (31) (1) (1016#10) (248) (((ctxAt (.tile 7) 15).setG (.tile 7) 15 1 256).dmemWrite (.tile 7) 504 8 0x8182838485868788)) ∧
    ((fun (x : CtxRef) (d : Fin 32) (a : Fin 32) (imm : BitVec 16) (o : Nat) (s : State) => (CanIssue s x 2) ∧ ((s.g x.eng x.ctx a + BitVec.ofInt 64 (s.immS x.eng x.ctx 16 imm.toNat)).toNat = o) ∧ (InDwin s x o 8)) (x7) (2) (1) (65528#16) (248) (((ctxAt (.tile 7) 15).setG (.tile 7) 15 1 256).setG (.tile 7) 15 2 0x8182838485868788)) ∧
    ((fun (x : CtxRef) (d : Fin 32) (a : Fin 32) (imm : BitVec 16) (o : Nat) (s : State) => (CanIssue s x 2) ∧ ((s.g x.eng x.ctx a + BitVec.ofInt 64 (s.immS x.eng x.ctx 16 imm.toNat)).toNat = o) ∧ (InDwin s x o 4) ∧ (s.badDmem x.eng (s.dwinBase x.eng x.ctx + o) 4 = false)) (x7) (2) (1) (65528#16) (248) (((ctxAt (.tile 7) 15).setG (.tile 7) 15 1 256).setG (.tile 7) 15 2 0x8182838485868788)) ∧
    ((fun (x : CtxRef) (d : Fin 32) (a : Fin 32) (off : BitVec 10) (o : Nat) (s : State) => (CanIssue s x 0) ∧ ((s.g x.eng x.ctx a + BitVec.ofInt 64 (off.toInt)).toNat = o) ∧ (InDwin s x o 2) ∧ (s.badDmem x.eng (s.dwinBase x.eng x.ctx + o) 2 = false)) (x7) (2) (1) (1016#10) (248) (((ctxAt (.tile 7) 15).setG (.tile 7) 15 1 256).setG (.tile 7) 15 2 0x8182838485868788)) ∧
    ((fun (x : CtxRef) (d : Fin 32) (a : Fin 32) (off : BitVec 10) (o : Nat) (s : State) => (CanIssue s x 0) ∧ ((s.g x.eng x.ctx a + BitVec.ofInt 64 (off.toInt)).toNat = o) ∧ (InDwin s x o 1) ∧ (s.badDmem x.eng (s.dwinBase x.eng x.ctx + o) 1 = false)) (x7) (2) (1) (1016#10) (248) (((ctxAt (.tile 7) 15).setG (.tile 7) 15 1 256).setG (.tile 7) 15 2 0x8182838485868788)) :=
  by
  iterate 7 refine ⟨by decide +kernel, ?_⟩
  decide +kernel

/-- A state and operands that meet the hypotheses of TimeInstructions, for each of its clauses. -/
theorem meets_TimeInstructions :
    ((fun (x : CtxRef) (td : Fin 8) (s : State) => (CanIssue s x 0)) (x7) (7) (ctxAt (.tile 7) 15)) ∧
    ((fun (x : CtxRef) (td : Fin 8) (ta : Fin 8) (a : Fin 32) (imm : BitVec 15) (s : State) => (CanIssue s x 2)) (x7) (7) (7) (1) (0x7FFF#15) ((ctxAt (.tile 7) 15).setG (.tile 7) 15 1 5)) ∧
    ((fun (x : CtxRef) (td : Fin 8) (ta : Fin 8) (a : Fin 32) (s : State) => (CanIssue s x 0)) (x7) (7) (6) (31) ((ctxAt (.tile 7) 15).setT (.tile 7) 15 6 9)) ∧
    ((fun (x : CtxRef) (p : Fin 8) (td : Fin 8) (ta : Fin 8) (r : TRel) (s : State) => (CanIssue s x 0)) (x7) (7) (7) (6) (.bef) ((ctxAt (.tile 7) 15).setT (.tile 7) 15 6 9)) ∧
    ((fun (x : CtxRef) (ta : Fin 8) (a : Fin 32) (h : HT) (s : State) => (CanIssue s x 0) ∧ (s.t x.eng x.ctx ta = h) ∧ (noSign h (s.ht x.eng.part) = false) ∧ (after (ceilTick h) (s.ht x.eng.part) = true)) (x7) (7) (31) (9#64) ((ctxAt (.tile 7) 15).setT (.tile 7) 15 7 9)) ∧
    ((fun (x : CtxRef) (ta : Fin 8) (a : Fin 32) (h : HT) (s : State) => (CanIssue s x 0) ∧ (s.t x.eng x.ctx ta = h) ∧ (noSign h (s.ht x.eng.part) = false) ∧ (after (ceilTick h) (s.ht x.eng.part) = false)) (x7) (7) (31) (0xFFFFFFFFFFFF0000#64) ((ctxAt (.tile 7) 15).setT (.tile 7) 15 7 0xFFFFFFFFFFFF0000)) ∧
    ((fun (e : EngSel) (c : Fin 16) (a : Fin 32) (h : HT) (s : State) => (s.cst e c = 2) ∧ ((s.ctx e c).wait = some (.tick h a))) (.tile 7) (15) (31) (9#64) (((ctxAt (.tile 7) 15).setCst (.tile 7) 15 2).modCtx (.tile 7) 15 fun v => { v with wait := some (.tick 9 31) })) ∧
    ((fun (x : CtxRef) (ta : Fin 8) (a : Fin 32) (imm : BitVec 15) (n : Fin 8) (h : HT) (i : Nat) (s : State) => (CanIssue s x 2) ∧ (s.t x.eng x.ctx ta + BitVec.ofInt 64 (256 * s.immS x.eng x.ctx 15 imm.toNat) = h) ∧ (s.g x.eng x.ctx a = BitVec.ofNat 64 n) ∧ (dtcInst x.eng n = i) ∧ (hasDtc x.eng = true) ∧ (x.eng = .tsu → s.fenced = false) ∧ (noSign h (s.ht x.eng.part) = false) ∧ ((s.dtcO x.eng.part i).armed = []) ∧ (s.bt x.eng.part .dtcCfg 0 i = true) ∧ (s.bt x.eng.part .dtcStatus 3 i = false) ∧ (s.clockRuns x.eng.part = true)) (x7) (7) (31) (100#15) (7) (25600#64) (63) (((ctxAt (.tile 7) 15).setG (.tile 7) 15 31 7).wr .dist .dtcCfg 1 63)) ∧
    ((fun (x : CtxRef) (ta : Fin 8) (a : Fin 32) (imm : BitVec 15) (addr : Nat) (mask : Nat) (h : HT) (s : State) => (CanIssue s x 2) ∧ (s.t x.eng x.ctx ta + BitVec.ofInt 64 (256 * s.immS x.eng x.ctx 15 imm.toNat) = h) ∧ (trigDest x.eng (s.g x.eng x.ctx a) = some (.keeper addr mask)) ∧ (s.fenced = false) ∧ (noSign h (s.ht .tsu) = false) ∧ (addr = allKeepers ∨ addr < s.fd .tsu .kprNkeep 8 0) ∧ (s.bt .tsu .kprCtrl 0 = true)) (xT) (7) (31) (100#15) (256) (15) (25600#64) ((((ctxAt .tsu 15).setG .tsu 15 31 0x400000000100000F).wr .tsu .kprCtrl 1).wr .tsu .kprCfg 9)) ∧
    ((fun (x : CtxRef) (td : Fin 8) (a : Fin 32) (ch : BitVec 5) (r : TdcResult) (rs : List TdcResult) (i : Nat) (s : State) => (CanIssue s x 0) ∧ (ch.toNat < 9) ∧ (2 * x.eng.tileNo = i) ∧ (mget (fun _ => []) (s.tdcU x.eng.part i).fifos ch.toNat = r :: rs)) (x7) (7) (31) (8#5) (tres) ([]) (14) ((ctxAt (.tile 7) 15).setTdc .dist 14 { fifos := [(8, [tres])] })) :=
  by
  iterate 9 refine ⟨by decide +kernel, ?_⟩
  decide +kernel

/-- A state and operands that meet the hypotheses of SyncInstructions, for each of its clauses. -/
theorem meets_SyncInstructions :
    ((fun (x : CtxRef) (obj : Fin 8192) (a : Fin 32) (q : Signal) (s : State) => (CanIssue s x 0) ∧ ((s.g x.eng x.ctx a).toNat < 2 ^ 48) ∧ ((s.eng x.eng).signals = []) ∧ (q = { src := 4, idx := obj.val, word := s.sigWord x.eng x.ctx (s.g x.eng x.ctx a).toNat, jctx := x.ctx.val }) ∧ (s.signalCode x.eng q = .ok)) (x7) (8191) (31) ({ src := 4, idx := 8191, word := 0x0F00000000000002, jctx := 15 }) (((ctxAt (.tile 7) 15).setG (.tile 7) 15 31 2).setObj (.tile 7) 8191 { word := 0x1F00000000000005#64 })) ∧
    ((fun (x : CtxRef) (obj : Fin 8192) (a : Fin 32) (consume : Bool) (timed : Bool) (td : Fin 8) (thr : Nat) (s : State) => (CanIssue s x 0) ∧ (bits (s.g x.eng x.ctx a).toNat 47 0 = thr) ∧ (s.condCode x.eng x.ctx obj thr consume = .ok) ∧ (condMet (s.obj x.eng obj).word thr (s.ht x.eng.part) = true)) (x7) (8191) (31) (true) (true) (7) (5) (((ctxAt (.tile 7) 15).setG (.tile 7) 15 31 5).setObj (.tile 7) 8191 { word := 0x1F00000000000005#64 })) ∧
    ((fun (x : CtxRef) (obj : Fin 8192) (a : Fin 32) (consume : Bool) (td : Fin 8) (thr : Nat) (s : State) => (CanIssue s x 0) ∧ (bits (s.g x.eng x.ctx a).toNat 47 0 = thr) ∧ (s.condCode x.eng x.ctx obj thr consume = .ok) ∧ (condMet (s.obj x.eng obj).word thr (s.ht x.eng.part) = false)) (x7) (8191) (31) (true) (7) (6) (((ctxAt (.tile 7) 15).setG (.tile 7) 15 31 6).setObj (.tile 7) 8191 { word := 0x1F00000000000005#64 })) ∧
    ((fun (e : EngSel) (c : Fin 16) (a : Fin 32) (i : Nat) (thr : Nat) (consume : Bool) (h : HT) (s : State) => (s.cst e c = 2) ∧ ((s.ctx e c).wait = some (.obj i thr consume (some h) a))) (.tsu) (15) (31) (8191) (5) (true) (9#64) (((ctxAt .tsu 15).setCst .tsu 15 2).modCtx .tsu 15 fun v => { v with wait := some (.obj 8191 5 true (some 9) 31), stepping := true })) ∧
    ((fun (x : CtxRef) (obj : Fin 8192) (a : Fin 32) (consume : Bool) (thr : Nat) (s : State) => (CanIssue s x 0) ∧ (bits (s.g x.eng x.ctx a).toNat 47 0 = thr) ∧ (s.condCode x.eng x.ctx obj thr consume = .ok)) (x7) (8191) (31) (false) (5) (((ctxAt (.tile 7) 15).setG (.tile 7) 15 31 5).setObj (.tile 7) 8191 { word := 0x1F00000000000005#64 })) ∧
    ((fun (x : CtxRef) (obj : Fin 8192) (a : Fin 32) (img : DWord) (s : State) => (CanIssue s x 0) ∧ (s.g x.eng x.ctx a = img) ∧ ((s.obj x.eng obj).word = 0) ∧ (oMode img = 1) ∧ (badLayout img = false) ∧ (s.ownerDraining x.eng x.ctx = false) ∧ ((s.eng x.eng).resetRange = none)) (x7) (8191) (31) (0x1300000000000009#64) ((ctxAt (.tile 7) 15).setG (.tile 7) 15 31 0x1300000000000009#64)) ∧
    ((fun (x : CtxRef) (obj : Fin 8192) (a : Fin 32) (stamp : Bool) (s : State) => (CanIssue s x 0)) (x7) (8191) (31) (true) ((ctxAt (.tile 7) 15).setObj (.tile 7) 8191 { word := 5, stamp := 7 })) :=
  by
  iterate 6 refine ⟨by decide +kernel, ?_⟩
  decide +kernel

/-- A state and operands that meet the hypotheses of WickAndGuardInstructions, for each of its clauses. -/
theorem meets_WickAndGuardInstructions :
    ((fun (x : CtxRef) (obj : Fin 8192) (a : Fin 32) (consume : Bool) (oneshot : Bool) (plgrp : Fin 16) (n : Nat) (thr : Nat) (s : State) => (CanIssue s x 0) ∧ (x.eng = .tsu) ∧ (bits (s.g x.eng x.ctx a).toNat 55 48 = n) ∧ (bits (s.g x.eng x.ctx a).toNat 47 0 = thr) ∧ (s.bindCode n x.ctx obj thr consume false true = .ok) ∧ (condMet (s.obj .tsu obj).word thr (s.ht .tsu) = false)) (xT) (8191) (31) (true) (true) (15) (255) (9) (((slotRun 2).setObj .tsu 8191 { word := 0x1F03000000000005#64 }).setG .tsu 15 31 0x07FF000000000009#64)) ∧
    ((fun (x : CtxRef) (obj : Fin 8192) (a : Fin 32) (consume : Bool) (oneshot : Bool) (plgrp : Fin 16) (n : Nat) (s : State) => (CanIssue s x 0) ∧ (x.eng = .tsu) ∧ (bits (s.g x.eng x.ctx a).toNat 55 48 = n) ∧ (s.bindCode n x.ctx 0 0 false true true = .ok)) (xT) (8191) (31) (false) (false) (0) (255) ((((slotRun 2).setObj .tsu 8191 { word := 0x1F03000000000005#64 }).setG .tsu 15 31 0x00FF000000000000#64).setWick 255 { state := 1, slot := 15 })) ∧
    ((fun (x : CtxRef) (ta : Fin 8) (a : Fin 32) (mask : Nat) (k : Nat) (h : HT) (h0 : HT) (sl : Slot) (rest : List (HT × Nat)) (s : State) => (CanIssue s x 0) ∧ (x.eng = .tsu) ∧ (s.fenced = false) ∧ (mget (fun _ => ({} : Slot)) s.slots x.ctx.val = sl) ∧ (s.slotSt x.ctx = 0 ∨ s.bt .tsu .slotState 14 x.ctx = true) ∧ (sl.prelits.all (fun pl => pl.stages.isEmpty) = true) ∧ (s.g x.eng x.ctx a = BitVec.ofNat 64 mask) ∧ (0 < mask ∧ mask < 2 ^ 16) ∧ (s.t x.eng x.ctx ta = h) ∧ (h.toNat % 256 = 0) ∧ (noSign h (s.ht .tsu) = false) ∧ (plStages h ((List.range 16).filter fun g => mask.testBit g) (s.fd .tsu .sobPlCfg 19 8) (s.fd .tsu .sobPlCfg 31 20) sl.pre (!sl.launched && decide (s.slotSt x.ctx ≠ 0)) = (h0, k) :: rest) ∧ (atOrAfter (s.ht .tsu) h0 = false)) (xT) (7) (31) (0x8000) (15) (0x100000000#64) (ceilTick (0x100000000#64 - BitVec.ofNat 64 (256 * awake.fd .tsu .sobPlCfg 19 8))) ({}) ([]) (((ctxAt .tsu 15).setG .tsu 15 31 0x8000).setT .tsu 15 7 0x100000000)) ∧
    ((fun (x : CtxRef) (obj : Fin 8192) (a : Fin 32) (n : Fin 256) (v : Nat) (s : State) => (CanIssue s x 0) ∧ (x.eng = .tsu) ∧ ((s.g x.eng x.ctx a).toNat = v) ∧ (v < 2 ^ 48 - 1) ∧ (s.slotSt x.ctx = 2 ∨ s.slotSt x.ctx = 3) ∧ (s.bt .tsu .slotState 13 x.ctx = true) ∧ (oMode (s.obj .tsu obj).word = 4) ∧ (s.bindCode n x.ctx obj (v + 1) false false true = .ok) ∧ (oValue (s.obj .tsu obj).word ≤ v)) (xT) (8191) (31) (255) (5) (((slotRun 0x2002).setObj .tsu 8191 { word := 0x4F03000000000005#64 }).setG .tsu 15 31 5)) ∧
    ((fun (x : CtxRef) (d : Fin 32) (a : Fin 32) (imm : BitVec 16) (s : State) => (CanIssue s x 2) ∧ (s.ctlAddr x a imm = some (addrOf x.eng.part .sysUpdMask)) ∧ (s.permits x.eng.part { cls := .engine } (some 0) false = true)) (xT) (31) (1) (0x0028#16) (((ctxAt .tsu 15).setG .tsu 15 1 0).wr .tsu .sysUpdMask 0x80000001)) ∧
    ((fun (x : CtxRef) (d : Fin 32) (a : Fin 32) (imm : BitVec 16) (v : Word) (s : State) => (CanIssue s x 2) ∧ (s.ctlAddr x a imm = some (addrOf x.eng.part .sysUpdMask)) ∧ (s.permits x.eng.part { cls := .engine } (some 0) true = true) ∧ ((s.g x.eng x.ctx d).setWidth 32 = v)) (xT) (31) (1) (0x0028#16) (0x80000001#32) (((ctxAt .tsu 15).setG .tsu 15 1 0).setG .tsu 15 31 0x80000001)) ∧
    ((fun (x : CtxRef) (d : Fin 32) (a : Fin 32) (b : Fin 32) (code : Byte) (n : Nat) (s : State) => (CanIssue s x 0) ∧ (s.jnlBusy x.eng = false) ∧ (s.wiping x.eng.part = false) ∧ (x.eng = .tsu) ∧ (s.tsu.jnl.loss = none) ∧ (s.tsu.jnl.count = n)) (xT) (31) (1) (2) (0xFF#8) (0) ((ctxAt .tsu 15).setG .tsu 15 1 7)) :=
  by
  iterate 6 refine ⟨by decide +kernel, ?_⟩
  decide +kernel

/-- A state and operands that meet the hypotheses of CollectiveInstructionsOfAMember, for each of its clauses. -/
theorem meets_CollectiveInstructionsOfAMember :
    ((fun (x : CtxRef) (obj : Fin 8192) (a : Fin 32) (timed : Bool) (td : Fin 8) (d : Nat) (n : Nat) (s : State) => (CanAccept s x obj) ∧ (x.eng = .tsu) ∧ (s.fenced = false) ∧ (HasBlock s x (s.g x.eng x.ctx a).toNat (32 + 16 * n) d) ∧ (s.dmemRead .tsu (d + 7) 1 = n) ∧ (n ≤ 8) ∧ (s.badDmem .tsu d 32 = false) ∧ (s.dmemRead .tsu d 2 ≠ 0) ∧ (s.dmemRead .tsu (d + 3) 1 < 2) ∧ (s.dmemRead .tsu (d + 4) 3 < 2 ^ 20) ∧ (s.dmemRead .tsu (d + 8) 3 < 2 ^ 20) ∧ (s.dmemRead .tsu (d + 11) 8 = 0) ∧ (s.dmemRead .tsu (d + 19) 8 = 0) ∧ (s.dmemRead .tsu (d + 27) 5 = 0) ∧ ((s.trigList .tsu d n).any (fun t => s.destBad t.1) = false) ∧ (s.slotSt x.ctx = 0) ∧ (∀ k : Fin 16, k.val ≠ x.ctx.val → s.slotSt k ≠ 0 ∨ s.bt .tsu .slotState 5 k = true → s.fd .tsu .slotState 31 16 k ≠ s.dmemRead .tsu d 2) ∧ (s.lcState .tsu = 2) ∧ (s.bt .tsu .slotState 5 x.ctx = false)) (xT) (8191) (31) (true) (7) (256) (1) ((slotOp 0 ([0x34, 0x12, 7, 1, 5, 0, 0, 1, 9] ++ List.replicate 23 0 ++ [0xF, 0, 0, 1, 0, 0, 0, 0x40, 5])))) ∧
    ((fun (x : CtxRef) (obj : Fin 8192) (a : Fin 32) (s : State) => (CanAccept s x obj) ∧ (x.eng = .tsu) ∧ (s.fenced = false) ∧ (s.slotSt x.ctx ≠ 0) ∧ (s.slotSt x.ctx ≠ 6)) (xT) (8191) (31) (slotOp 2 [])) ∧
    ((fun (x : CtxRef) (obj : Fin 8192) (a : Fin 32) (n : Fin 8) (d : Nat) (ds : List RedDesc) (els : List (List Nat)) (s : State) => (CanAccept s x obj) ∧ (x.eng = .tsu) ∧ (s.fenced = false) ∧ (n.val ≤ 4) ∧ (HasBlock s x (s.g x.eng x.ctx a).toNat (16 + 8 * n.val) d) ∧ ((s.redDescs .tsu x.ctx ((List.range n.val).map fun i => s.dmemRead .tsu (d + 16 + 8 * i) 8)).getLeft? = some ds) ∧ ((s.redElems .tsu x.ctx ds).getLeft? = some els) ∧ (s.dmemRead .tsu (d + 8) 8 = 0) ∧ (ds.any (·.bad (s.bt .tsu .slotState 12 x.ctx)) = false) ∧ (worstCase (ds.map (·.shape)) ≤ 16384) ∧ (s.poolFull x.ctx (ceilDiv (worstCase (ds.map (·.shape))) 64) = false) ∧ (s.slotSt x.ctx = 2 ∨ s.slotSt x.ctx = 5)) (xT) (8191) (31) (1) (256) ([⟨0x80, 48, 0, 0, 0⟩]) ([[7]]) (slotOp 5 ([1] ++ List.replicate 15 0 ++ [24] ++ List.replicate 7 0 ++ [0x80, 0, 0, 0, 48] ++ List.replicate 19 0 ++ [7]))) ∧
    ((fun (x : CtxRef) (obj : Fin 8192) (a : Fin 32) (ds : List RedDesc) (els : List (List Nat)) (s : State) => (CanAccept s x obj) ∧ (x.eng = .tsu) ∧ (s.fenced = false) ∧ ((s.redDescs .tsu x.ctx [(s.g x.eng x.ctx a).toNat]).getLeft? = some ds) ∧ ((s.redElems .tsu x.ctx ds).getLeft? = some els) ∧ (ds.any (·.bad (s.bt .tsu .slotState 12 x.ctx)) = false) ∧ (worstCase (ds.map (·.shape)) ≤ 16384) ∧ (s.poolFull x.ctx (ceilDiv (worstCase (ds.map (·.shape))) 64) = false) ∧ (s.slotSt x.ctx = 2 ∨ s.slotSt x.ctx = 3 ∨ s.slotSt x.ctx = 5)) (xT) (8191) (31) ([⟨0x80, 32, 0, 0, 0⟩]) ([[0]]) (slotOp 2 [0x80, 0, 0, 0, 32, 0, 0, 0])) ∧
    ((fun (x : CtxRef) (d : Fin 32) (a : Fin 32) (b : Fin 32) (td : Option (Fin 8)) (q : Nat) (p : Op) (r : CompRec) (o : Nat) (s : State) => (CanIssue s x 0) ∧ ((s.g x.eng x.ctx a).toNat = q) ∧ ((s.ctx x.eng x.ctx).ops.find? (fun (y : Nat × Op) => y.1 == q % 8) = some (q % 8, p)) ∧ (p.seq = bits q 15 8) ∧ (p.result = some r) ∧ ((s.g x.eng x.ctx b).toNat = o) ∧ (InDwin s x o 8) ∧ (o + (32 + r.results.length) ≤ s.dwinSize x.eng x.ctx)) (xT) (31) (1) (2) (some 7) (0xFF07) (⟨255, 0x32, 0, 3, 8191, 15, [], some ⟨7, 0, .late, 5, 9, 3, 0, []⟩⟩) (⟨7, 0, .late, 5, 9, 3, 0, []⟩) (224) ((((slotOp 2 []).setG .tsu 15 1 0xFF07).setG .tsu 15 2 224).modCtx .tsu 15 fun v => { v with ops := [(7, ⟨255, 0x32, 0, 3, 8191, 15, [], some ⟨7, 0, .late, 5, 9, 3, 0, []⟩⟩)] })) ∧
    ((fun (x : CtxRef) (a : Fin 32) (ta : Fin 8) (obj : Fin 8192) (s : State) => (CanAccept s x obj) ∧ (x.eng = .tsu) ∧ (s.fenced = false) ∧ (s.slotSt x.ctx ≠ 0) ∧ (s.slotSt x.ctx ≠ 6) ∧ (noSign (s.t x.eng x.ctx ta) (s.ht .tsu) = false)) (xT) (31) (7) (8191) (slotOp 3 [])) ∧
    ((fun (x : CtxRef) (a : Fin 32) (ta : Fin 8) (obj : Fin 8192) (s : State) => (CanAccept s x obj) ∧ (x.eng = .tsu) ∧ (s.fenced = false) ∧ (s.slotSt x.ctx ≠ 0) ∧ (s.slotSt x.ctx ≠ 6) ∧ ((s.g x.eng x.ctx a).toNat < 16) ∧ (noSign (s.t x.eng x.ctx ta) (s.ht .tsu) = false)) (xT) (31) (7) (8191) ((slotOp 3 []).setG .tsu 15 31 15)) ∧
    ((fun (x : CtxRef) (obj : Fin 8192) (a : Fin 32) (s : State) => (CanAccept s x obj) ∧ (x.eng = .tsu) ∧ (s.fenced = false) ∧ (s.slotSt x.ctx ≠ 0) ∧ (s.slotSt x.ctx ≠ 6) ∧ ((s.g x.eng x.ctx a).toNat < 2 ^ 20)) (xT) (8191) (31) ((slotOp 2 []).setG .tsu 15 31 0xFFFFF)) ∧
    ((fun (x : CtxRef) (obj : Fin 8192) (a : Fin 32) (s : State) => (CanAccept s x obj) ∧ (x.eng = .tsu) ∧ (s.fenced = false) ∧ (s.slotSt x.ctx ≠ 0) ∧ (s.slotSt x.ctx ≠ 6) ∧ ((s.g x.eng x.ctx a).toNat < 2 ^ 40)) (xT) (8191) (31) ((slotOp 2 []).setG .tsu 15 31 0xFFFFFFFFFF)) ∧
    ((fun (x : CtxRef) (obj : Fin 8192) (a : Fin 32) (s : State) => (CanAccept s x obj) ∧ (x.eng = .tsu) ∧ (s.fenced = false) ∧ (s.slotSt x.ctx ≠ 0) ∧ (s.slotSt x.ctx ≠ 6)) (xT) (8191) (31) ((slotOp 2 []).setG .tsu 15 31 0xFFFFF)) ∧
    ((fun (x : CtxRef) (obj : Fin 8192) (a : Fin 32) (s : State) => (CanAccept s x obj) ∧ (x.eng = .tsu) ∧ (s.fenced = false) ∧ (s.slotSt x.ctx ≠ 0) ∧ (s.slotSt x.ctx ≠ 6)) (xT) (8191) (31) ((slotOp 2 []).setG .tsu 15 31 0xFFFFF)) ∧
    ((fun (x : CtxRef) (obj : Fin 8192) (a : Fin 32) (d : Nat) (o : Nat) (s : State) => (CanAccept s x obj) ∧ (x.eng = .tsu) ∧ (s.fenced = false) ∧ (HasBlock s x (s.g x.eng x.ctx a).toNat 16 d) ∧ (s.dmemRead .tsu d 1 < 32) ∧ (s.dmemRead .tsu (d + 1) 1 = 0) ∧ (s.dmemRead .tsu (d + 2) 2 = o) ∧ (o < 8192) ∧ (1 ≤ s.dmemRead .tsu (d + 4) 4) ∧ (s.dmemRead .tsu (d + 4) 4 ≤ 2 ^ 24) ∧ (1000 ≤ s.dmemRead .tsu (d + 8) 4) ∧ (s.dmemRead .tsu (d + 8) 4 ≤ 1000000) ∧ (1500 ≤ s.dmemRead .tsu (d + 12) 2) ∧ (s.dmemRead .tsu (d + 14) 2 = 0) ∧ (oMode (s.obj .tsu o).word = 1 ∨ oMode (s.obj .tsu o).word = 2) ∧ (oOwner (s.obj .tsu o).word = x.ctx) ∧ ((mget (fun _ => ({} : Slot)) s.slots x.ctx.val).shadow ≠ 1) ∧ (s.slotSt x.ctx = 2 ∨ s.slotSt x.ctx = 3)) (xT) (8191) (31) (256) (8191) (slotOp 3 [31, 0, 0xFF, 0x1F, 0, 0, 0, 1, 0xE8, 3, 0, 0, 0xDC, 5, 0, 0])) ∧
    ((fun (x : CtxRef) (a : Fin 32) (ta : Fin 8) (obj : Fin 8192) (s : State) => (CanAccept s x obj) ∧ (x.eng = .tsu) ∧ (s.fenced = false) ∧ (s.slotSt x.ctx = 2 ∨ s.slotSt x.ctx = 3) ∧ ((mget (fun _ => ({} : Slot)) s.slots x.ctx.val).snap.map (·.opened) = some true) ∧ ((s.g x.eng x.ctx a).toNat < 2 ^ 32) ∧ (noSign (s.t x.eng x.ctx ta) (s.ht .tsu) = false)) (xT) (31) (7) (8191) ({ slotOp 3 [] with slots := [(15, { snap := some { slot := 31, wofs := 1000, wlen := 1500, b := 1, base := 0, opened := true } })] })) ∧
    ((fun (x : CtxRef) (a : Fin 32) (ta : Fin 8) (obj : Fin 8192) (h : HT) (s : State) => (CanAccept s x obj) ∧ ((s.g x.eng x.ctx a).toNat < 2 ^ 32) ∧ (s.t x.eng x.ctx ta = h) ∧ (noSign h (s.ht x.eng.part) = false) ∧ (noSign (ceilTick h) (s.ht x.eng.part) = false) ∧ ((s.part x.eng.part).scheduled.length < strobeCap x.eng.part)) (xT) (31) (7) (8191) (9#64) (((slotOp 2 []).setT .tsu 15 7 9).setG .tsu 15 31 0xFFFFFFFF)) ∧
    ((fun (x : CtxRef) (a : Fin 32) (ta : Fin 8) (obj : Fin 8192) (h : HT) (s : State) => (CanAccept s x obj) ∧ (x.eng = .tsu) ∧ (s.fenced = false) ∧ (s.slotSt x.ctx ≠ 0) ∧ (s.slotSt x.ctx ≠ 6) ∧ ((s.g x.eng x.ctx a).toNat < 2 ^ 32) ∧ (s.t x.eng x.ctx ta = h) ∧ (noSign h (s.ht .tsu) = false) ∧ (noSign (ceilTick h) (s.ht .tsu) = false)) (xT) (31) (7) (8191) (9#64) (((slotOp 2 []).setT .tsu 15 7 9).setG .tsu 15 31 0xFFFFFFFF)) ∧
    ((fun (x : CtxRef) (obj : Fin 8192) (a : Fin 32) (s : State) => (CanAccept s x obj)) (xT) (8191) (31) (slotOp 2 [])) :=
  by
  iterate 15 refine ⟨by decide +kernel, ?_⟩
  decide +kernel

/-- A state and operands that meet the hypotheses of CollectiveInstructionsOfAJobRoot, for each of its clauses. -/
theorem meets_CollectiveInstructionsOfAJobRoot :
    ((fun (x : CtxRef) (obj : Fin 8192) (a : Fin 32) (timed : Bool) (td : Fin 8) (n : Fin 8) (k : Nat) (d : Nat) (m : Nat) (cnt : Nat) (lead : Nat) (o : Nat) (d1 : Nat) (ws : List MapWord) (s : State) => (CanAccept s x obj) ∧ (x.eng = .tile n) ∧ (s.jobOf x.eng x.ctx = some k) ∧ (HasBlock s x (s.g x.eng x.ctx a).toNat (32 + 8 * m) d) ∧ (s.badDmem x.eng d 32 = false) ∧ (s.dmemRead x.eng (d + 19) 1 = m) ∧ (1 ≤ m ∧ m ≤ 16) ∧ (s.dmemRead x.eng d 2 ≠ 0) ∧ (bits (s.dmemRead x.eng (d + 3) 1) 7 5 = 0) ∧ (s.dmemRead x.eng (d + 4) 4 = cnt) ∧ (1 ≤ cnt ∧ cnt ≤ 65536) ∧ (s.dmemRead x.eng (d + 8) 4 = lead) ∧ (lead = 0 ∨ (100 ≤ lead ∧ lead ≤ 1000000)) ∧ (s.dmemRead x.eng (d + 18) 1 ≤ 8) ∧ (s.dmemRead x.eng (d + 22) 8 = 0) ∧ (s.dmemRead x.eng (d + 30) 2 = 0) ∧ (s.dmemRead x.eng (d + 32) 8 = o) ∧ (HasBlock s x o (4 * cnt) d1) ∧ (s.readMap { tile := n, ctx := x.ctx, n := cnt, mapOffs := [o] } 0 = some ws) ∧ (mapOk ws [] (s.job k).fenced = true) ∧ (s.twoSections ws = false) ∧ ((s.armGens.find? (fun g => g.1 == s.dmemRead x.eng d 2)).all (fun g => (g.2 + 1) % 256 == s.dmemRead x.eng (d + 2) 1) = true) ∧ ((s.job k).state = 0) ∧ (s.jobOfHandle (s.dmemRead x.eng d 2) = none) ∧ (s.tier ≠ 1) ∧ (s.lcState .dist = 2) ∧ (s.isOpen .dist = false)) (x7) (8191) (31) (true) (7) (7) (1023) (256) (1) (1) (100) (64) (320) ([⟨5, false⟩]) (((((rootOp {}).wr .dist .sysBoot 0).wr .dist .sysLifecycle 2).wr .dist .sysTier 2).dmemBlock (.tile 7) 256 ([0x34, 0x12, 7, 0, 1, 0, 0, 0, 100] ++ List.replicate 9 0 ++ [8, 1] ++ List.replicate 12 0 ++ [64] ++ List.replicate 31 0 ++ [5]))) ∧
    ((fun (x : CtxRef) (obj : Fin 8192) (a : Fin 32) (n : Fin 8) (k : Nat) (s : State) => (CanAccept s x obj) ∧ (x.eng = .tile n) ∧ (s.jobOf x.eng x.ctx = some k) ∧ (2 ≤ (s.job k).state) ∧ ((s.job k).state ≠ 7)) (x7) (8191) (31) (7) (1023) (rootOp { state := 3, handle := 9, words := [⟨5, false⟩] })) ∧
    ((fun (x : CtxRef) (obj : Fin 8192) (a : Fin 32) (r : Fin 8) (n : Fin 8) (k : Nat) (d : Nat) (lead : Nat) (ds : List RedDesc) (s : State) => (CanAccept s x obj) ∧ (x.eng = .tile n) ∧ (s.jobOf x.eng x.ctx = some k) ∧ (r.val ≤ 4) ∧ (HasBlock s x (s.g x.eng x.ctx a).toNat (16 + 8 * r.val) d) ∧ ((s.redDescs x.eng x.ctx ((List.range r.val).map fun i => s.dmemRead x.eng (d + 16 + 8 * i) 8)).getLeft? = some ds) ∧ (s.dmemRead x.eng d 4 = lead) ∧ (lead = 0 ∨ (100 ≤ lead ∧ lead ≤ 1000000)) ∧ (s.dmemRead x.eng (d + 4) 4 ≤ 4000000) ∧ (s.dmemRead x.eng (d + 8) 8 = 0) ∧ (ds.any (·.badRoot ((s.job k).floor.testBit 0)) = false) ∧ (worstCase (ds.map (·.shape)) ≤ 16384) ∧ ((s.job k).state = 3 ∨ (s.job k).state = 6)) (x7) (8191) (31) (1) (7) (1023) (256) (0) ([⟨0x80, 0, 0, 0, 0⟩]) ((rootOp { state := 3, handle := 9, words := [⟨5, false⟩] }).dmemBlock (.tile 7) 256 (List.replicate 16 0 ++ [24] ++ List.replicate 7 0 ++ [0x80]))) ∧
    ((fun (x : CtxRef) (obj : Fin 8192) (a : Fin 32) (n : Fin 8) (k : Nat) (r : RedDesc) (s : State) => (CanAccept s x obj) ∧ (x.eng = .tile n) ∧ (s.jobOf x.eng x.ctx = some k) ∧ ((s.redDescs x.eng x.ctx [(s.g x.eng x.ctx a).toNat]).getLeft? = some [r]) ∧ (r.badRoot ((s.job k).floor.testBit 0) = false) ∧ (worstCase [r.shape] ≤ 16384) ∧ ((s.job k).state = 3 ∨ (s.job k).state = 4 ∨ (s.job k).state = 6)) (x7) (8191) (31) (7) (1023) (⟨0x80, 0, 0, 0, 0⟩) ((rootOp { state := 4, handle := 9 }).dmemBlock (.tile 7) 256 [0x80])) ∧
    ((fun (x : CtxRef) (a : Fin 32) (ta : Fin 8) (obj : Fin 8192) (n : Fin 8) (k : Nat) (s : State) => (CanAccept s x obj) ∧ (x.eng = .tile n) ∧ (s.jobOf x.eng x.ctx = some k) ∧ (s.held.all (fun y => y.cmdOf != some (s.job k).handle) = true) ∧ ((s.job k).state = 2 ∨ (s.job k).state = 3) ∧ (noSign (s.t x.eng x.ctx ta) (s.ht .dist) = false) ∧ (noSign (ceilTick (s.t x.eng x.ctx ta)) (s.ht .dist) = false)) (x7) (31) (7) (8191) (7) (1023) (rootOp { state := 2, handle := 9 })) ∧
    ((fun (x : CtxRef) (a : Fin 32) (ta : Fin 8) (obj : Fin 8192) (n : Fin 8) (k : Nat) (ws : List MapWord) (s : State) => (CanAccept s x obj) ∧ (x.eng = .tile n) ∧ (s.jobOf x.eng x.ctx = some k) ∧ (s.held.all (fun y => y.cmdOf != some (s.job k).handle) = true) ∧ ((s.g x.eng x.ctx a).toNat < 16) ∧ (noSign (s.t x.eng x.ctx ta) (s.ht .dist) = false) ∧ (noSign (ceilTick (s.t x.eng x.ctx ta)) (s.ht .dist) = false) ∧ (s.readMap (s.job k) (s.g x.eng x.ctx a).toNat = some ws) ∧ ((s.job k).mapFits ws = true) ∧ ((s.job k).state = 3 ∨ (s.job k).state = 4 ∨ (s.job k).state = 5) ∧ ((s.job k).phases.all (fun p => after (ceilTick (s.t x.eng x.ctx ta)) p.tick) = true)) (x7) (31) (7) (8191) (7) (1023) ([⟨5, false⟩]) (((rootOp { state := 3, handle := 9, n := 1, tile := 7, ctx := 15, mapOffs := [64], words := [⟨5, false⟩] }).dmemBlock (.tile 7) 320 [5]).setG (.tile 7) 15 31 0)) ∧
    ((fun (x : CtxRef) (obj : Fin 8192) (a : Fin 32) (n : Fin 8) (k : Nat) (w : MapWord) (s : State) => (CanAccept s x obj) ∧ (x.eng = .tile n) ∧ (s.jobOf x.eng x.ctx = some k) ∧ (s.held.all (fun y => y.cmdOf != some (s.job k).handle) = true) ∧ (2 ≤ (s.job k).state) ∧ ((s.job k).state ≠ 7) ∧ ((s.job k).words[(s.g x.eng x.ctx a).toNat]? = some w) ∧ (w.vacant = false) ∧ ((s.job k).fenced.contains w.node = false) ∧ ((s.g x.eng x.ctx a).toNat < 2 ^ 20)) (x7) (8191) (31) (7) (1023) (⟨5, false⟩) ((rootOp { state := 3, handle := 9, words := [⟨4, true⟩, ⟨5, false⟩] }).setG (.tile 7) 15 31 1)) ∧
    ((fun (x : CtxRef) (obj : Fin 8192) (a : Fin 32) (n : Fin 8) (k : Nat) (s : State) => (CanAccept s x obj) ∧ (x.eng = .tile n) ∧ (s.jobOf x.eng x.ctx = some k) ∧ (s.held.all (fun y => y.cmdOf != some (s.job k).handle) = true) ∧ (2 ≤ (s.job k).state) ∧ ((s.job k).state ≠ 7) ∧ ((s.g x.eng x.ctx a).toNat < 2 ^ 40) ∧ (((s.job k).liveAt (bits (s.g x.eng x.ctx a).toNat 39 20)).isSome = true) ∧ ((s.job k).rankOf ((s.g x.eng x.ctx a).toNat % 2 ^ 20) = none) ∧ ((s.job k).shadows.any (fun y => y.node == (s.g x.eng x.ctx a).toNat % 2 ^ 20) = false)) (x7) (8191) (31) (7) (1023) ((rootOp { state := 3, handle := 9, words := [⟨4, true⟩, ⟨5, false⟩] }).setG (.tile 7) 15 31 0x100007)) ∧
    ((fun (x : CtxRef) (obj : Fin 8192) (a : Fin 32) (n : Fin 8) (k : Nat) (s : State) => (CanAccept s x obj) ∧ (x.eng = .tile n) ∧ (s.jobOf x.eng x.ctx = some k) ∧ (s.held.all (fun y => y.cmdOf != some (s.job k).handle) = true) ∧ (2 ≤ (s.job k).state) ∧ ((s.job k).state ≠ 7) ∧ ((s.job k).shadows.any (fun y => y.node == (s.g x.eng x.ctx a).toNat % 2 ^ 20 && y.eligible) = true)) (x7) (8191) (31) (7) (1023) ((rootOp { state := 3, handle := 9, shadows := [{ node := 7, rank := 1, start := none, eligible := true }] }).setG (.tile 7) 15 31 7)) ∧
    ((fun (x : CtxRef) (obj : Fin 8192) (a : Fin 32) (n : Fin 8) (k : Nat) (s : State) => (CanAccept s x obj) ∧ (x.eng = .tile n) ∧ (s.jobOf x.eng x.ctx = some k) ∧ (s.held.all (fun y => y.cmdOf != some (s.job k).handle) = true) ∧ (2 ≤ (s.job k).state) ∧ ((s.job k).state ≠ 7) ∧ ((s.job k).shadows.any (fun y => y.node == (s.g x.eng x.ctx a).toNat % 2 ^ 20) = true)) (x7) (8191) (31) (7) (1023) ((rootOp { state := 3, handle := 9, shadows := [{ node := 7, rank := 1, start := none }] }).setG (.tile 7) 15 31 7)) ∧
    ((fun (x : CtxRef) (a : Fin 32) (ta : Fin 8) (obj : Fin 8192) (n : Fin 8) (k : Nat) (s : State) => (CanAccept s x obj) ∧ (x.eng = .tile n) ∧ (s.jobOf x.eng x.ctx = some k) ∧ (s.held.all (fun y => y.cmdOf != some (s.job k).handle) = true) ∧ (2 ≤ (s.job k).state) ∧ ((s.job k).state ≠ 7) ∧ ((s.g x.eng x.ctx a).toNat < 2 ^ 32) ∧ (noSign (s.t x.eng x.ctx ta) (s.ht .dist) = false) ∧ (noSign (ceilTick (s.t x.eng x.ctx ta)) (s.ht .dist) = false)) (x7) (31) (7) (8191) (7) (1023) (rootOp { state := 2, handle := 9 })) ∧
    ((fun (x : CtxRef) (a : Fin 32) (ta : Fin 8) (obj : Fin 8192) (n : Fin 8) (k : Nat) (s : State) => (CanAccept s x obj) ∧ (x.eng = .tile n) ∧ (s.jobOf x.eng x.ctx = some k) ∧ (noSign (s.t x.eng x.ctx ta) (s.ht .dist) = false) ∧ (2 ≤ (s.job k).state) ∧ ((s.job k).state ≠ 7) ∧ (s.isOpen .dist = false) ∧ ((s.job k).planning = none)) (x7) (31) (7) (8191) (7) (1023) ((rootOp { state := 6, handle := 9 }).wr .dist .sysBoot 0)) ∧
    ((fun (x : CtxRef) (obj : Fin 8192) (a : Fin 32) (n : Fin 8) (k : Nat) (i : Nat) (s : State) => (CanAccept s x obj) ∧ (x.eng = .tile n) ∧ (s.jobOf x.eng x.ctx = some k) ∧ ((s.g x.eng x.ctx a).toNat = i) ∧ (i < 32) ∧ ((s.epochSlot k i).state = 2) ∧ ((s.epochSlot k i).op = none)) (x7) (8191) (31) (7) (1023) (31) ((rootOp { state := 3, handle := 9, slots := [(31, { state := 2 })] }).setG (.tile 7) 15 31 31)) ∧
    ((fun (x : CtxRef) (obj : Fin 8192) (a : Fin 32) (n : Fin 8) (k : Nat) (d : Nat) (r : RebuildDesc) (s : State) => (CanAccept s x obj) ∧ (x.eng = .tile n) ∧ (s.jobOf x.eng x.ctx = some k) ∧ (s.tier ≠ 1) ∧ (HasBlock s x (s.g x.eng x.ctx a).toNat (32 + 8 * r.pairs.length) d) ∧ (s.badDmem x.eng d 32 = false) ∧ (s.rebuildDesc x.eng d = r) ∧ (r.bad (s.ht .dist) = false) ∧ ((r.pairs.all fun (p : Nat × Nat) => (match (s.job k).words[p.1]? with | some w => w.vacant | none => false) && ((s.job k).rankOf p.2).isSome) = true) ∧ (∀ i : Fin 32, r.mask.testBit i = true → (s.epochSlot k i).state = 3) ∧ ((s.job k).state = 3 ∨ (s.job k).state = 5) ∧ ((s.job k).rebuild = none)) (x7) (8191) (31) (7) (1023) (256) (⟨2147483648, 1, 1, 0x1000000, 0x2000000, [(0, 5)], true⟩) ((rootOp { state := 5, handle := 9, words := [⟨4, true⟩, ⟨5, false⟩], slots := [(31, { state := 3 })] }).dmemBlock (.tile 7) 256 ([0, 0, 0, 0x80, 1, 1] ++ List.replicate 5 0 ++ [1] ++ List.replicate 7 0 ++ [2] ++ List.replicate 15 0 ++ [5]))) ∧
    ((fun (x : CtxRef) (obj : Fin 8192) (a : Fin 32) (n : Fin 8) (k : Nat) (d : Nat) (r : RebuildDesc) (y : ChainCtx) (s : State) => (CanAccept s x obj) ∧ (x.eng = .tile n) ∧ (s.jobOf x.eng x.ctx = some k) ∧ (s.tier = 1) ∧ (HasBlock s x (s.g x.eng x.ctx a).toNat (32 + 8 * r.pairs.length) d) ∧ (s.badDmem x.eng d 32 = false) ∧ (s.rebuildDesc x.eng d = r) ∧ (r.bad (s.ht .dist) = false) ∧ (s.chainCtx k = some y) ∧ (y.rebuild = none) ∧ (∀ i : Fin 32, r.mask.testBit i = true → ((s.ctxSlots k i).any fun kv => kv.2.state == 5) = true)) (x7) (8191) (31) (7) (1023) (256) (⟨2147483648, 1, 1, 0x1000000, 0x2000000, [(0, 5)], true⟩) ({ handle := 9, gen := 3, epoch := 5 }) (({ (((rootOp {}).wr .dist .sysTier 1).setChain 31 { state := 5, ctx := 1023, b := 1 }) with chainCtxs := [(1023, { handle := 9, gen := 3, epoch := 5 })] }).dmemBlock (.tile 7) 256 ([0, 0, 0, 0x80, 1, 1] ++ List.replicate 5 0 ++ [1] ++ List.replicate 7 0 ++ [2] ++ List.replicate 15 0 ++ [5]))) ∧
    ((fun (x : CtxRef) (obj : Fin 8192) (a : Fin 32) (n : Fin 8) (k : Nat) (d : Nat) (m : Nat) (set : Nat) (slot : Nat) (raw : List (Nat × Nat × Nat)) (s : State) => (CanAccept s x obj) ∧ (x.eng = .tile n) ∧ (s.jobOf x.eng x.ctx = some k) ∧ (s.tier = 1) ∧ (s.isOpen .dist = false) ∧ ((s.job k).state = 0) ∧ (HasBlock s x (s.g x.eng x.ctx a).toNat (32 + 4 * m) d) ∧ (s.badDmem x.eng d 32 = false) ∧ (s.dmemRead x.eng (d + 5) 1 = m) ∧ (1 ≤ m ∧ m ≤ 64) ∧ (s.dmemRead x.eng (d + 3) 1 = slot) ∧ (slot < 32) ∧ (s.dmemRead x.eng (d + 4) 1 = set) ∧ (set < 128) ∧ (s.dmemRead x.eng (d + 6) 2 = 0) ∧ (s.dmemRead x.eng (d + 12) 8 = 0) ∧ (s.dmemRead x.eng (d + 20) 8 = 0) ∧ (s.dmemRead x.eng (d + 28) 4 = 0) ∧ (s.chainEntries x.eng d m = raw) ∧ (entriesOk raw = true) ∧ ((s.chainCtxs.find? fun y => y.1 == k) = none) ∧ (s.chains = []) ∧ (s.lockstep < 128) ∧ (({ state := 1, ctx := k, entries := raw.map fun y => ⟨y.1 % 128, decide (y.1 / 128 = 1), y.2.1⟩, b := 1 } : ChainSlot).blocks ≤ s.chainFree)) (x7) (8191) (31) (7) (1023) (256) (1) (3) (31) ([(5, 0, 0)]) ({ (((rootOp {}).wr .dist .sysBoot 0).wr .dist .sysTier 1) with hbm := { State.reset.hbm with trained := List.range 24 } }.dmemBlock (.tile 7) 256 ([9, 0, 3, 31, 3, 1] ++ List.replicate 26 0 ++ [5]))) ∧
    ((fun (x : CtxRef) (a : Fin 32) (ta : Fin 8) (obj : Fin 8192) (n : Fin 8) (k : Nat) (s : State) => (CanAccept s x obj) ∧ (x.eng = .tile n) ∧ (s.jobOf x.eng x.ctx = some k) ∧ ((s.g x.eng x.ctx a).toNat < 2 ^ 32) ∧ (noSign (s.t x.eng x.ctx ta) (s.ht .dist) = false)) (x7) (31) (7) (8191) (7) (1023) (rootOp { state := 3, handle := 9 })) :=
  by
  iterate 16 refine ⟨by decide +kernel, ?_⟩
  decide +kernel

/-- A state and operands that meet the hypotheses of JobFramesAtAMember, for each of its clauses. -/
theorem meets_JobFramesAtAMember :
    ((fun (handle : BitVec 16) (gen : Byte) (epoch : Word) (pre : Word) (l : HT) (floor : BitVec 4) (c : Nat) (s : State) => (Maps s) ∧ (s.fenced = false) ∧ (s.armPending handle.toNat gen.toNat = some c)) (0xFFFF#16) (255) (5) (9) (77) (0xF#4) (15) ({ awake.wr .tsu .slotState 32 15 with slots := [(15, { asked := (0xFFFF, 255, 3) })] })) ∧
    ((fun (handle : BitVec 16) (gen : Byte) (code : Code) (c : Nat) (s : State) => (Maps s) ∧ (s.fenced = false) ∧ (s.armPending handle.toNat gen.toNat = some c)) (0xFFFF#16) (255) (.busy) (15) ({ awake.wr .tsu .slotState 32 15 with slots := [(15, { asked := (0xFFFF, 255, 3) })] })) ∧
    ((fun (handle : BitVec 16) (gen : Byte) (epoch : Word) (c : Nat) (f : HT) (s : State) => (Maps s) ∧ (FrameFor s handle gen epoch c) ∧ (s.slotSt c = 6)) (0xFFFF#16) (3) (5) (15) (0#64) (slotIn 15 6)) ∧
    ((fun (handle : BitVec 16) (gen : Byte) (epoch : Word) (c : Nat) (l : HT) (q : BitVec 16) (r : BitVec 16) (w : DWord × DWord × Nat) (s : State) => (Maps s) ∧ (FrameFor s handle gen epoch c) ∧ (s.slotSt c = 1 ∨ s.slotSt c = 2) ∧ (after l (s.ht .tsu) = true)) (0xFFFF#16) (3) (5) (15) (0x7FFFFFFFFFFFFFFF#64) (0) (0) ((0, 0, 0)) (slotIn 15 2)) ∧
    ((fun (handle : BitVec 16) (gen : Byte) (epoch : Word) (c : Nat) (l : HT) (q : BitVec 16) (r : BitVec 16) (w : DWord × DWord × Nat) (h : ResHold) (s : State) => (Maps s) ∧ (FrameFor s handle gen epoch c) ∧ (s.slotSt c = 3) ∧ (after l (s.ht .tsu) = true) ∧ ((s.slot c).results.find? (fun y => !y.coll && y.seq == q.toNat && (s.holdOp c y).isSome) = some h)) (0xFFFF#16) (3) (5) (15) (0x7FFFFFFFFFFFFFFF#64) (9) (5) ((0, 0, 0)) (⟨0, 7, false, 9, [], 1, []⟩) (((slotIn 15 3).modCtx .tsu 15 fun v => { v with ops := [(0, ⟨7, 0x32, 0, 3, 8191, 15, [], none⟩)] }).setSlot 15 { results := [⟨0, 7, false, 9, [], 1, []⟩] })) ∧
    ((fun (handle : BitVec 16) (gen : Byte) (epoch : Word) (c : Nat) (l : HT) (q : BitVec 16) (r : BitVec 16) (w : DWord × DWord × Nat) (s : State) => (Maps s) ∧ (FrameFor s handle gen epoch c) ∧ (s.slotSt c = 1) ∧ (after l (s.ht .tsu) = false) ∧ ((s.slot c).replanDue = none) ∧ ((s.slot c).phases = [])) (0xFFFF#16) (3) (5) (15) (0xFFFFFFFFFFFFFFFF#64) (0) (0) ((0, 0, 0)) (slotIn 15 1)) ∧
    ((fun (handle : BitVec 16) (gen : Byte) (epoch : Word) (c : Nat) (s : State) => (Maps s) ∧ (FrameFor s handle gen epoch c) ∧ (s.slotSt c = 3)) (0xFFFF#16) (3) (5) (15) (slotIn 15 3)) ∧
    ((fun (handle : BitVec 16) (gen : Byte) (epoch : Word) (c : Nat) (d : Fin 2) (s : State) => (Maps s) ∧ (FrameAt s handle gen c) ∧ (epochNewer epoch.toNat (s.rd .tsu .slotEpoch c).toNat = true) ∧ (s.slotSt c ≠ 6)) (0xFFFF#16) (3) (6) (15) (1) ((slotIn 15 2).setSlot 15 { launches := [⟨9, false, 0, 0, false⟩] })) ∧
    ((fun (handle : BitVec 16) (gen : Byte) (epoch : Word) (c : Nat) (tk : HT) (m : Fin 16) (r : BitVec 20) (s : State) => (Maps s) ∧ (FrameFor s handle gen epoch c) ∧ (s.slotSt c ≠ 6) ∧ (after tk (s.ht .tsu) = true)) (0xFFFF#16) (3) (5) (15) (9) (15) (0xFFFFF#20) (slotIn 15 2)) ∧
    ((fun (handle : BitVec 16) (gen : Byte) (epoch : Word) (c : Nat) (tr : HT) (q : BitVec 16) (s : State) => (Maps s) ∧ (FrameFor s handle gen epoch c) ∧ (s.slotSt c = 2 ∨ s.slotSt c = 3 ∨ s.slotSt c = 4) ∧ (after tr (s.ht .tsu) = true)) (0xFFFF#16) (3) (5) (15) (9) (0xFFFF#16) (slotIn 15 3)) ∧
    ((fun (handle : BitVec 16) (gen : Byte) (epoch : Word) (c : Nat) (tk : HT) (s : State) => (Maps s) ∧ (FrameFor s handle gen epoch c) ∧ (s.slotSt c = 5) ∧ (after tk (s.ht .tsu) = true)) (0xFFFF#16) (3) (5) (15) (9) (slotIn 15 5)) ∧
    ((fun (handle : BitVec 16) (gen : Byte) (epoch : Word) (c : Nat) (tag : Fin 8) (code : Code) (v : DWord) (late : Word) (y : OpRef × Op) (s : State) => (Maps s) ∧ (FrameFor s handle gen epoch c) ∧ ((s.outstanding .tsu c).find? (fun (z : OpRef × Op) => z.1.tag == tag.val && z.2.jobCommand) = some y)) (0xFFFF#16) (3) (5) (15) (0) (.late) (1) (0xFFFFFFFF#32) ((⟨.tsu, 15, 0, 7⟩, ⟨7, 0x35, 0, 3, 8191, 15, [], none⟩)) ((slotIn 15 2).modCtx .tsu 15 fun v => { v with ops := [(0, ⟨7, 0x35, 0, 3, 8191, 15, [], none⟩)] })) ∧
    ((fun (handle : BitVec 16) (gen : Byte) (epoch : Word) (c : Nat) (b : Bool) (q : BitVec 20) (s : State) => (Maps s) ∧ (FrameFor s handle gen epoch c)) (0xFFFF#16) (3) (5) (15) (true) (0xFFFFF#20) (slotIn 15 2)) ∧
    ((fun (handle : BitVec 16) (gen : Byte) (epoch : Word) (c : Nat) (r : BitVec 20) (s : State) => (Maps s) ∧ (FrameFor s handle gen epoch c) ∧ ((s.slot c).shadow = 1)) (0xFFFF#16) (3) (5) (15) (0xFFFFF#20) ({ slotIn 15 2 with slots := [(15, { shadow := 1 })] })) ∧
    ((fun (handle : BitVec 16) (gen : Byte) (epoch : Word) (c : Nat) (q : BitVec 16) (coll : Bool) (s : State) => (Maps s) ∧ (FrameFor s handle gen epoch c)) (0xFFFF#16) (3) (5) (15) (0xFFFF#16) (true) (slotIn 15 2)) ∧
    ((fun (handle : BitVec 16) (gen : Byte) (epoch : Word) (c : Nat) (coll : Bool) (last : Bool) (q : BitVec 16) (i : Fin 4) (bs : List Byte) (h : ResHold) (s : State) => (Maps s) ∧ (FrameFor s handle gen epoch c) ∧ ((s.slot c).results.find? (fun (y : ResHold) => y.coll == coll && y.seq == q.toNat && (s.holdOp c y).isSome) = some h) ∧ (i.val < h.shapes.length) ∧ ((mget (fun _ => (([] : List Byte), false)) h.got i.val).2 = false)) (0xFFFF#16) (3) (5) (15) (true) (false) (9) (0) ([1]) (⟨0, 7, true, 9, [128], 1, []⟩) (((slotIn 15 2).modCtx .tsu 15 fun v => { v with ops := [(0, ⟨7, 0x33, 0, 3, 8191, 15, [], none⟩)] }).setSlot 15 { results := [⟨0, 7, true, 9, [128], 1, []⟩] })) ∧
    ((fun (handle : BitVec 16) (gen : Byte) (epoch : Word) (c : Nat) (coll : Bool) (last : Bool) (q : BitVec 16) (i : Fin 4) (bs : List Byte) (h : ResHold) (s : State) => (Maps s) ∧ (FrameFor s handle gen epoch c) ∧ ((s.slot c).results.find? (fun (y : ResHold) => y.coll == coll && y.seq == q.toNat && (s.holdOp c y).isSome) = some h) ∧ (i.val < h.shapes.length) ∧ ((mget (fun _ => (([] : List Byte), false)) h.got i.val).2 = false)) (0xFFFF#16) (3) (5) (15) (true) (false) (9) (0) ([1]) (⟨0, 7, true, 9, [128], 1, []⟩) (((slotIn 15 2).modCtx .tsu 15 fun v => { v with ops := [(0, ⟨7, 0x33, 0, 3, 8191, 15, [], none⟩)] }).setSlot 15 { results := [⟨0, 7, true, 9, [128], 1, []⟩] })) :=
  by
  iterate 16 refine ⟨by decide +kernel, ?_⟩
  decide +kernel

/-- A state and operands that meet the hypotheses of TicksOfASlot, for each of its clauses. -/
theorem meets_TicksOfASlot :
    ((fun (c : Fin 16) (f : HT) (s : State) => (Maps s) ∧ (s.fenced = false) ∧ (s.slotSt c = 6) ∧ ((s.slot c).relTick = some f) ∧ ((s.slot c).balanced = true)) (15) (9) ({ slotIn 15 6 with slots := [(15, { relTick := some 9, balanced := true })] })) ∧
    ((fun (c : Fin 16) (s : State) => (Maps s) ∧ (s.fenced = false) ∧ (s.slotSt c = 6) ∧ ((s.slot c).relTick = none)) (15) (slotIn 15 6)) ∧
    ((fun (c : Fin 16) (y : PendLaunch) (ys : List PendLaunch) (s : State) => (Maps s) ∧ (s.fenced = false) ∧ (s.slotSt c = 1) ∧ ((s.slot c).launches = y :: ys) ∧ (y.void = false) ∧ ((s.slot c).replanDue = none)) (15) (⟨9, false, 0, 0, false⟩) ([]) ({ slotIn 15 1 with slots := [(15, { launches := [⟨9, false, 0, 0, false⟩] })] })) ∧
    ((fun (c : Fin 16) (y : PendLaunch) (ys : List PendLaunch) (s : State) => (Maps s) ∧ (s.fenced = false) ∧ (s.slotSt c = 3) ∧ ((s.slot c).launches = y :: ys) ∧ (y.void = false) ∧ (y.gate = true) ∧ ((s.slot c).replanDue = none) ∧ ((s.slot c).phases = []) ∧ ((s.slot c).runAt = [])) (15) (⟨9, true, 0, 0, false⟩) ([]) ({ slotIn 15 67 with slots := [(15, { launches := [⟨9, true, 0, 0, false⟩] })] })) ∧
    ((fun (c : Fin 16) (m : Fin 16) (tk : HT) (r : BitVec 20) (e : Nat) (ps : List (HT × Nat × Nat × Nat)) (s : State) => (Maps s) ∧ (s.fenced = false) ∧ ((s.slot c).phases = (tk, m.val, r.toNat, e) :: ps)) (15) (15) (9) (0xFFFFF#20) (5) ([(10, 3, 2, 5)]) ({ slotIn 15 2 with slots := [(15, { phases := [(9, 15, 0xFFFFF, 5), (10, 3, 2, 5)] })] })) ∧
    ((fun (c : Fin 16) (tk : HT) (ts : List HT) (s : State) => (Maps s) ∧ (s.fenced = false) ∧ ((s.slot c).replayAt = tk :: ts) ∧ (s.slotSt c = 2 ∨ s.slotSt c = 3 ∨ s.slotSt c = 4)) (15) (9) ([11]) ({ slotIn 15 3 with slots := [(15, { replayAt := [9, 11] })] })) :=
  by
  iterate 5 refine ⟨by decide +kernel, ?_⟩
  decide +kernel

/-- A state and operands that meet the hypotheses of FramesARelayPassesOn, for each of its clauses. -/
theorem meets_FramesARelayPassesOn :
    ((fun (q : RelayTo) (handle : BitVec 16) (gen : Byte) (epoch : Word) (l : HT) (floor : BitVec 4) (pre : Word) (s : State) => (Maps s) ∧ (RelayFor s handle gen epoch)) (⟨9, 0xFFFFF#20, 7⟩) (0xFFFF#16) (3) (5) (9) (15) (0) ({ awake with relays := [(0xFFFF, { gen := 3, epoch := 5, root := 7, members := [] })] })) ∧
    ((fun (q : RelayTo) (handle : BitVec 16) (gen : Byte) (epoch : Word) (d : Fin 2) (s : State) => (Maps s) ∧ (RelayFor s handle gen epoch)) (⟨9, 0xFFFFF#20, 7⟩) (0xFFFF#16) (3) (5) (1) ({ awake with relays := [(0xFFFF, { gen := 3, epoch := 5, root := 7, members := [] })] })) ∧
    ((fun (q : RelayTo) (handle : BitVec 16) (gen : Byte) (epoch : Word) (tk : HT) (m : Fin 16) (r : BitVec 20) (s : State) => (Maps s) ∧ (RelayFor s handle gen epoch)) (⟨9, 0xFFFFF#20, 7⟩) (0xFFFF#16) (3) (5) (9) (15) (0xFFFFF#20) ({ awake with relays := [(0xFFFF, { gen := 3, epoch := 5, root := 7, members := [] })] })) ∧
    ((fun (q : RelayTo) (handle : BitVec 16) (gen : Byte) (epoch : Word) (b : Bool) (n : BitVec 20) (s : State) => (Maps s) ∧ (RelayFor s handle gen epoch)) (⟨9, 0xFFFFF#20, 7⟩) (0xFFFF#16) (3) (5) (true) (9) ({ awake with relays := [(0xFFFF, { gen := 3, epoch := 5, root := 7, members := [] })] })) ∧
    ((fun (q : RelayTo) (handle : BitVec 16) (gen : Byte) (epoch : Word) (b : Bool) (r : BitVec 20) (s : State) => (Maps s) ∧ (RelayFor s handle gen epoch)) (⟨9, 0xFFFFF#20, 7⟩) (0xFFFF#16) (3) (5) (false) (9) ({ awake with relays := [(0xFFFF, { gen := 3, epoch := 5, root := 7, members := [] })] })) :=
  by
  iterate 4 refine ⟨by decide +kernel, ?_⟩
  decide +kernel

/-- A state and operands that meet the hypotheses of RequestsHeldAtAJobRoot, for each of its clauses. -/
theorem meets_RequestsHeldAtAJobRoot :
    ((fun (origin : HT) (l : HT) (node : BitVec 20) (root : BitVec 20) (rank : BitVec 20) (leaf : BitVec 20) (handle : BitVec 16) (gen : Byte) (b : Bool) (s : State) => (Maps s) ∧ (root.toNat = s.node .dist) ∧ (after (s.holdUntil origin) (s.ht .dist) = true)) (0x3FFFFFFFFFFFFFFF#64) (0) (0xFFFFF#20) (0) (3) (4) (0xFFFF#16) (255) (true) (awake)) ∧
    ((fun (origin : HT) (node : BitVec 20) (rank : BitVec 20) (handle : BitVec 16) (gen : Byte) (k : Nat) (s : State) => (Maps s) ∧ (s.jobOfHandle handle.toNat = some k) ∧ (after (s.holdUntil origin) (s.ht .dist) = true)) (0x3FFFFFFFFFFFFFFF#64) (0xFFFFF#20) (3) (0xFFFF#16) (255) (1023) (awake.setJob 1023 { handle := 0xFFFF, gen := 3, epoch := 5, state := 3 })) ∧
    ((fun (origin : HT) (e : HT) (node : BitVec 20) (handle : BitVec 16) (w : BitVec 16) (span : Byte) (b : Bool) (ranks : List (BitVec 20)) (s : State) => (Maps s) ∧ (after (s.holdUntil origin) (s.ht .dist) = true) ∧ (s.aLeafActs = false)) (0x3FFFFFFFFFFFFFFF#64) (9) (0xFFFFF#20) (0xFFFF#16) (1) (8) (true) ([0, 0xFFFFF#20]) (awake)) ∧
    ((fun (origin : HT) (e : HT) (node : BitVec 20) (handle : BitVec 16) (w : BitVec 16) (span : Byte) (b : Bool) (ranks : List (BitVec 20)) (s : State) => (Maps s) ∧ (s.aLeafActs = true)) (9) (9) (0xFFFFF#20) (0xFFFF#16) (1) (8) (true) ([0]) ((awake.wr .dist .sysTier 9).wr .dist .prtState 6 272)) ∧
    ((fun (origin : HT) (src : BitVec 20) (node : BitVec 20) (cause : Fin 6) (dies : List (BitVec 20)) (s : State) => (Maps s) ∧ (after (s.holdUntil origin) (s.ht .dist) = true) ∧ (s.jobs.any (fun kv => kv.2.state ≠ 0) = true) ∧ (s.tier = 1 ∨ s.posOf node.toNat = none)) (0x3FFFFFFFFFFFFFFF#64) (0xFFFFF#20) (3) (5) ([4]) (awake.setJob 1023 { handle := 0xFFFF, gen := 3, epoch := 5, state := 3 })) ∧
    ((fun (origin : HT) (src : BitVec 20) (leaf : BitVec 20) (twin : BitVec 20) (s : State) => (Maps s) ∧ (after (s.holdUntil origin) (s.ht .dist) = true)) (0x3FFFFFFFFFFFFFFF#64) (0xFFFFF#20) (3) (4) (awake)) ∧
    ((fun (origin : HT) (node : BitVec 20) (handle : BitVec 16) (gen : Byte) (epoch : Word) (op : Nat) (sub : Nat) (tag : Nat) (v : DWord) (l : DWord) (k : Nat) (tg : Fin 8) (s : State) => (Maps s) ∧ (after (s.holdUntil origin) (s.ht .dist) = true) ∧ (s.jobOfHandle handle.toNat = some k) ∧ (tg.val = tag)) (0x3FFFFFFFFFFFFFFF#64) (9) (0xFFFF#16) (3) (5) (0x35) (0) (7) (0) (1) (1023) (7) (awake.setJob 1023 { handle := 0xFFFF, gen := 3, epoch := 5, state := 2 })) ∧
    ((fun  (s : State) => (Maps s) ∧ (s.held ≠ []))  ({ awake with held := [⟨9, 3, .dead 5 1⟩, ⟨8, 4, .leafLost 7 none⟩] })) ∧
    ((fun (handle : BitVec 16) (h : Rise) (s : State) => (Maps s) ∧ (s.ledger.rises.find? (fun (y : Rise) => y.handle == handle.toNat && !y.fixed) = some h)) (0xFFFF#16) (⟨0xFFFF, 0, 9, false, 0⟩) ({ awake with ledger := { rises := [⟨0xFFFF, 0, 9, false, 0⟩, ⟨0xFFFF, 1, 9, true, 0⟩] } })) ∧
    ((fun (k : Fin 1024) (s : State) => (Maps s) ∧ ((s.job k).state = 1) ∧ ((s.job k).matched.length ≠ (s.job k).n)) (1023) (awake.setJob 1023 { handle := 0xFFFF, gen := 3, epoch := 5, state := 1, n := 2 })) :=
  by
  iterate 9 refine ⟨by decide +kernel, ?_⟩
  decide +kernel

/-- A state and operands that meet the hypotheses of RampPlanningOfALaunch, for each of its clauses. -/
theorem meets_RampPlanningOfALaunch :
    ((fun (handle : BitVec 16) (leaf : BitVec 20) (l : HT) (k : Nat) (y : Planning) (s : State) => (Maps s) ∧ (s.jobOfHandle handle.toNat = some k) ∧ ((s.job k).planning = some y) ∧ ((y.leaves.any fun (z : Nat × List Nat) => z.1 == leaf.toNat) = true) ∧ (y.round = 0) ∧ ((y.offers.any fun (z : Nat × HT) => z.1 == leaf.toNat) = false) ∧ (y.offers.length + 1 < y.leaves.length)) (0xFFFF#16) (77) (9) (1023) ({ earliest := 9, leaves := [(76, [0]), (77, [1])], op := none }) (awake.setJob 1023 { handle := 0xFFFF, gen := 3, epoch := 5, state := 1, planning := some { earliest := 9, leaves := [(76, [0]), (77, [1])], op := none } })) ∧
    ((fun (handle : BitVec 16) (leaf : BitVec 20) (code : Code) (k : Nat) (y : Planning) (s : State) => (Maps s) ∧ (s.jobOfHandle handle.toNat = some k) ∧ ((s.job k).planning = some y) ∧ ((y.leaves.any fun (z : Nat × List Nat) => z.1 == leaf.toNat) = true)) (0xFFFF#16) (77) (.busy) (1023) ({ earliest := 9, leaves := [(77, [1])], op := none }) (awake.setJob 1023 { handle := 0xFFFF, gen := 3, epoch := 5, state := 1, planning := some { earliest := 9, leaves := [(77, [1])], op := none } })) ∧
    ((fun (handle : BitVec 16) (l : HT) (r : RampJob) (s : State) => (Maps s) ∧ (s.aLeafActs = false) ∧ ((s.ledger.jobs.find? (fun (y : Nat × RampJob) => y.1 == handle.toNat)).map (·.2) = some r) ∧ ((s.rampOfferFrom handle.toNat r l).2.map (fun (y : HT × List (Nat × Nat)) => y.1) = some l)) (0xFFFF#16) (0x10000000#64) (⟨0, 0, 1, 1, false, [0]⟩) ({ awake with ledger := { jobs := [(0xFFFF, ⟨0, 0, 1, 1, false, [0]⟩)] } })) ∧
    ((fun (handle : BitVec 16) (leaf : BitVec 20) (l : HT) (pre : List (Nat × Nat)) (k : Nat) (y : Planning) (o : OpRef) (s : State) => (Maps s) ∧ (s.jobOfHandle handle.toNat = some k) ∧ ((s.job k).planning = some y) ∧ (y.round ≠ 0) ∧ (y.confirmed.contains leaf.toNat = false) ∧ ((y.leaves.any fun (z : Nat × List Nat) => z.1 == leaf.toNat) = true) ∧ (y.confirmed.length + 1 = y.leaves.length) ∧ ((y.offers.all fun (z : Nat × HT) => z.2 == l) = true) ∧ (y.op = some o)) (0xFFFF#16) (77) (9) ([]) (1023) ({ earliest := 9, leaves := [(77, [0])], op := some ⟨.tile 7, 15, 0, 7⟩, round := 1, offers := [(77, 9)] }) (⟨.tile 7, 15, 0, 7⟩) (awake.setJob 1023 { handle := 0xFFFF, gen := 3, epoch := 5, state := 3, planning := some { earliest := 9, leaves := [(77, [0])], op := some ⟨.tile 7, 15, 0, 7⟩, round := 1, offers := [(77, 9)] } })) :=
  by
  iterate 3 refine ⟨by decide +kernel, ?_⟩
  decide +kernel

/-- A state and operands that meet the hypotheses of LaunchesAndCommandsAtAJobRoot, for each of its clauses. -/
theorem meets_LaunchesAndCommandsAtAJobRoot :
    ((fun (origin : HT) (node : BitVec 20) (handle : BitVec 16) (gen : Byte) (epoch : Word) (k : Nat) (sub : Nat) (v : DWord) (l : DWord) (tag : Fin 8) (s : State) => (Maps s) ∧ (JobAtRoot s handle gen epoch k) ∧ (after (s.holdUntil origin) (s.ht .dist) = false) ∧ (s.holdUntil origin ≠ s.ht .dist) ∧ (s.held.all (fun y => y.cmdOf != some handle.toNat) = true) ∧ ((s.job k).state = 2 ∨ (s.job k).state = 3) ∧ (noSign l (s.ht .dist) = false) ∧ (after (ceilTick l) (s.ht .dist) = true)) (0xF000000000000000#64) (9) (0xFFFF#16) (3) (5) (1023) (0) (0) (1) (7) (awake.setJob 1023 { handle := 0xFFFF, gen := 3, epoch := 5, state := 2 })) ∧
    ((fun (origin : HT) (node : BitVec 20) (handle : BitVec 16) (gen : Byte) (epoch : Word) (op : Nat) (sub : Nat) (v : DWord) (l : DWord) (tag : Fin 8) (k : Nat) (s : State) => (Maps s) ∧ (after (s.holdUntil origin) (s.ht .dist) = false) ∧ (s.holdUntil origin ≠ s.ht .dist) ∧ (s.held.all (fun y => y.cmdOf != some handle.toNat) = true) ∧ (s.jobOfHandle handle.toNat = some k) ∧ ((s.job k).gen = gen.toNat) ∧ ((s.job k).epoch ≠ epoch.toNat)) (0xF000000000000000#64) (9) (0xFFFF#16) (3) (6) (0x35) (0) (0) (1) (7) (1023) (awake.setJob 1023 { handle := 0xFFFF, gen := 3, epoch := 5, state := 2 })) ∧
    ((fun (k : Fin 1024) (y : LaunchRoot) (ys : List LaunchRoot) (s : State) => (Maps s) ∧ ((s.job k).launches = y :: ys) ∧ ((s.job k).phases = []) ∧ ((s.job k).replanAt = false) ∧ (y.ends = false) ∧ ((s.job k).state = 2 ∨ (s.job k).state = 4)) (1023) ({ at_ := 9, req := none, late := 0 }) ([]) (awake.setJob 1023 { handle := 0xFFFF, gen := 3, epoch := 5, state := 4, greplay := true, launches := [{ at_ := 9, req := none, late := 0 }] })) ∧
    ((fun (k : Fin 1024) (y : PhaseRoot) (ys : List PhaseRoot) (s : State) => (Maps s) ∧ ((s.job k).phases = y :: ys) ∧ ((s.job k).state ≠ 4) ∧ (atOrAfter (s.ht .dist) y.tick = true)) (1023) (⟨0, 15, [⟨5, false⟩], .member 9 7⟩) ([]) (awake.setJob 1023 { handle := 0xFFFF, gen := 3, epoch := 5, state := 3, phases := [⟨0, 15, [⟨5, false⟩], .member 9 7⟩] })) ∧
    ((fun (origin : HT) (handle : BitVec 16) (gen : Byte) (epoch : Word) (k : Nat) (v : DWord) (q : BitVec 16) (n : Byte) (g : GateRoot) (s : State) => (Maps s) ∧ (JobAtRoot s handle gen epoch k) ∧ ((s.job k).gate = some g) ∧ (g.seq = q.toNat) ∧ (g.n = n.toNat) ∧ (g.count + 1 < (s.job k).live.length)) (9) (0xFFFF#16) (3) (5) (1023) (0xFFFF0000FFFF0000#64) (0xFFFF#16) (4) (⟨⟨.tile 7, 15, 0, 7⟩, 4, 0, 0, [], 65535, 0, 0, 5, 7, none, none⟩) (awake.setJob 1023 { handle := 0xFFFF, gen := 3, epoch := 5, state := 4, words := [⟨5, false⟩, ⟨6, false⟩], gate := some ⟨⟨.tile 7, 15, 0, 7⟩, 4, 0, 0, [], 65535, 0, 0, 5, 7, none, none⟩ })) ∧
    ((fun (origin : HT) (handle : BitVec 16) (gen : Byte) (epoch : Word) (k : Nat) (v : DWord) (q : BitVec 16) (g : GateRoot) (s : State) => (Maps s) ∧ (JobAtRoot s handle gen epoch k) ∧ ((s.job k).gate = some g) ∧ (g.seq = q.toNat) ∧ (g.n = 0) ∧ ((s.job k).live.length ≤ g.count + 1)) (9) (0xFFFF#16) (3) (5) (1023) (9) (0xFFFF#16) (⟨⟨.tile 7, 15, 0, 7⟩, 0, 0, 0, [], 65535, 0, 1, 5, 7, none, none⟩) (awake.setJob 1023 { handle := 0xFFFF, gen := 3, epoch := 5, state := 4, words := [⟨5, false⟩, ⟨6, false⟩], gate := some ⟨⟨.tile 7, 15, 0, 7⟩, 0, 0, 0, [], 65535, 0, 1, 5, 7, none, none⟩ })) ∧
    ((fun (handle : BitVec 16) (gen : Byte) (epoch : Word) (n : Word) (a : DWord) (b : DWord) (q : BitVec 16) (s : State) => (Maps s) ∧ (s.jobOfHandle handle.toNat = none) ∧ (s.knows handle.toNat gen.toNat epoch.toNat = true) ∧ (((s.voidOld handle.toNat epoch.toNat).gateParts.any fun (y : GatePart) => y.handle == handle.toNat) = false) ∧ (n.toNat < s.expected handle.toNat)) (0xFFFF#16) (3) (5) (1) (9) (8) (0xFFFF#16) ({ awake with relays := [(0xFFFF, { gen := 3, epoch := 5, root := 7, members := [5, 6] })] })) ∧
    ((fun (k : Fin 1024) (ms : List (BitVec 20)) (g : GateRoot) (h : HT) (s : State) => (Maps s) ∧ ((s.job k).gate = some g) ∧ (g.first = some h)) (1023) ([5]) (⟨⟨.tile 7, 15, 0, 7⟩, 0, 0, 1, [], 65535, 0, 0, 5, 7, some 9, none⟩) (9) (awake.setJob 1023 { handle := 0xFFFF, gen := 3, epoch := 5, state := 4, words := [⟨5, false⟩], gate := some ⟨⟨.tile 7, 15, 0, 7⟩, 0, 0, 1, [], 65535, 0, 0, 5, 7, some 9, none⟩ })) ∧
    ((fun (k : Fin 1024) (r : ReplayRoot) (s : State) => (Maps s) ∧ ((s.job k).replay = some r) ∧ ((s.job k).state ≠ 0) ∧ ((s.job k).state ≠ 7)) (1023) (⟨9, ⟨.tile 7, 15, 0, 7⟩, 2, 77, true⟩) (awake.setJob 1023 { handle := 0xFFFF, gen := 3, epoch := 5, state := 5, replay := some ⟨9, ⟨.tile 7, 15, 0, 7⟩, 2, 77, true⟩ })) :=
  by
  iterate 8 refine ⟨by decide +kernel, ?_⟩
  decide +kernel

/-- A state and operands that meet the hypotheses of CombinerInputsAndSpills, for each of its clauses. -/
theorem meets_CombinerInputsAndSpills :
    ((fun (origin : HT) (handle : BitVec 16) (q : BitVec 16) (gen : Byte) (epoch : Word) (coll : Bool) (i : Fin 4) (shape : Word) (ns : Byte) (f : Byte) (sp : DWord) (rank : BitVec 20) (es : List DWord) (last : Bool) (check : Bool) (s : State) => (Maps s) ∧ (s.knows handle.toNat gen.toNat epoch.toNat = true) ∧ ((s.voidOld handle.toNat epoch.toNat).instOpen (⟨handle.toNat, gen.toNat, epoch.toNat, q.toNat, coll, i.val⟩ : InstKey) = true) ∧ (((s.voidOld handle.toNat epoch.toNat).insts.any fun (y : Inst) => y.isKey (⟨handle.toNat, gen.toNat, epoch.toNat, q.toNat, coll, i.val⟩ : InstKey)) = false) ∧ (s.fd .dist .cmbCfg 31 16 (combTile handle.toNat) = 0) ∧ (b2n last < s.expected handle.toNat)) (9) (0xFFFF#16) (0xFFFF#16) (3) (5) (true) (3) (128) (0) (0) (0) (0xFFFFF#20) ([5]) (true) (true) ({ awake.wr .dist .cmbCfg 0 7 with relays := [(0xFFFF, { gen := 3, epoch := 5, root := 7, members := [5, 6] })] })) ∧
    ((fun (origin : HT) (handle : BitVec 16) (q : BitVec 16) (gen : Byte) (epoch : Word) (coll : Bool) (i : Fin 4) (shape : Word) (ns : Byte) (f : Byte) (sp : DWord) (rank : BitVec 20) (es : List DWord) (last : Bool) (check : Bool) (s : State) => (Maps s) ∧ (s.viaTwin handle.toNat = true)) (9) (0xFFFF#16) (0xFFFF#16) (3) (5) (true) (3) (128) (0) (0) (0) (0xFFFFF#20) ([5]) (true) (true) ((awake.wr .dist .sysTier 1).wr .dist .prtState 6 272)) ∧
    ((fun (handle : BitVec 16) (q : BitVec 16) (gen : Byte) (epoch : Word) (coll : Bool) (i : Fin 4) (shape : Word) (ns : Byte) (f : Byte) (sp : DWord) (a : Bool) (b : Bool) (es : List WElem) (n : BitVec 20) (last : Bool) (check : Bool) (s : State) => (Maps s) ∧ (s.knows handle.toNat gen.toNat epoch.toNat = true) ∧ ((s.voidOld handle.toNat epoch.toNat).instOpen (⟨handle.toNat, gen.toNat, epoch.toNat, q.toNat, coll, i.val⟩ : InstKey) = true) ∧ (((s.voidOld handle.toNat epoch.toNat).insts.any fun (y : Inst) => y.isKey (⟨handle.toNat, gen.toNat, epoch.toNat, q.toNat, coll, i.val⟩ : InstKey)) = false) ∧ ((if last then n.toNat else 0) < s.expected handle.toNat)) (0xFFFF#16) (0xFFFF#16) (3) (5) (true) (3) (128) (0) (0) (0) (true) (false) ([]) (1) (true) (true) ({ awake with relays := [(0xFFFF, { gen := 3, epoch := 5, root := 7, members := [5, 6] })] })) ∧
    ((fun (port : Fin 4) (handle : BitVec 16) (q : BitVec 16) (gen : Byte) (epoch : Word) (coll : Bool) (i : Fin 4) (shape : Word) (ns : Byte) (f : Byte) (sp : DWord) (rank : BitVec 20) (n : BitVec 20) (es : List DWord) (check : Bool) (s : State) => (Maps s) ∧ (s.bt .tsu .cmbCfg 0 = true) ∧ (s.fenced = false) ∧ (s.spilled = none)) (3) (0xFFFF#16) (0xFFFF#16) (3) (5) (true) (3) (128) (0) (0) (0) (9) (0) ([5]) (true) (awake.wr .tsu .cmbCfg 1)) ∧
    ((fun (node : BitVec 20) (handle : BitVec 16) (q : BitVec 16) (gen : Byte) (epoch : Word) (coll : Bool) (i : Fin 4) (b : Bool) (f : Byte) (es : List WElem) (check : Bool) (y : Inst) (s : State) => (Maps s) ∧ (s.knows handle.toNat gen.toNat epoch.toNat = true) ∧ (s.insts.find? (fun (z : Inst) => z.isKey (⟨handle.toNat, gen.toNat, epoch.toNat, q.toNat, coll, i.val⟩ : InstKey) && z.spill.isSome) = some y)) (9) (0xFFFF#16) (0xFFFF#16) (3) (5) (true) (3) (true) (0) ([]) (true) ({ tile := 7, handle := 0xFFFF, gen := 3, epoch := 5, seq := 65535, coll := true, idx := 3, granted := false, red := { shape := 128 }, spill := some { target := 5, copy := [], sentAt := 0, lastSent := false } }) ({ awake with relays := [(0xFFFF, { gen := 3, epoch := 5, root := 7, members := [5, 6] })], insts := [{ tile := 7, handle := 0xFFFF, gen := 3, epoch := 5, seq := 65535, coll := true, idx := 3, granted := false, red := { shape := 128 }, spill := some { target := 5, copy := [], sentAt := 0, lastSent := false } }] })) ∧
    ((fun (ti : Fin 8) (check : Bool) (y : Inst × HT) (s : State) => (Maps s) ∧ (s.spilled = some y)) (0) (true) (({ tile := 7, handle := 0xFFFF, gen := 3, epoch := 5, seq := 65535, coll := true, idx := 3, granted := false, red := { shape := 128 } }, 9)) ({ awake with spilled := some ({ tile := 7, handle := 0xFFFF, gen := 3, epoch := 5, seq := 65535, coll := true, idx := 3, granted := false, red := { shape := 128 } }, 9) })) ∧
    ((fun (ti : Fin 8) (check : Bool) (y : Inst) (s : State) => (Maps s) ∧ (s.insts.find? (fun (z : Inst) => z.tile == ti.val && z.spill.isSome) = some y)) (7) (true) ({ tile := 7, handle := 0xFFFF, gen := 3, epoch := 5, seq := 65535, coll := true, idx := 3, granted := false, red := { shape := 128 }, spill := some { target := 5, copy := [], sentAt := 0, lastSent := false } }) ({ awake with relays := [(0xFFFF, { gen := 3, epoch := 5, root := 7, members := [5, 6] })], insts := [{ tile := 7, handle := 0xFFFF, gen := 3, epoch := 5, seq := 65535, coll := true, idx := 3, granted := false, red := { shape := 128 }, spill := some { target := 5, copy := [], sentAt := 0, lastSent := false } }] })) ∧
    ((fun (ti : Fin 8) (check : Bool) (y : Inst) (s : State) => (Maps s) ∧ (s.groupsUsed ti < s.fd .dist .cmbStatus 7 0 ti) ∧ (s.insts.find? (fun (z : Inst) => z.tile == ti.val && !z.granted && !z.ready && z.spill.isNone) = some y) ∧ (y.done < s.expected y.handle)) (7) (true) ({ tile := 7, handle := 0xFFFF, gen := 3, epoch := 5, seq := 65535, coll := true, idx := 3, granted := false, red := { shape := 128 } }) ({ awake.wr .dist .cmbStatus 1 7 with relays := [(0xFFFF, { gen := 3, epoch := 5, root := 7, members := [5, 6] })], insts := [{ tile := 7, handle := 0xFFFF, gen := 3, epoch := 5, seq := 65535, coll := true, idx := 3, granted := false, red := { shape := 128 } }] })) :=
  by
  iterate 7 refine ⟨by decide +kernel, ?_⟩
  decide +kernel

/-- A state and operands that meet the hypotheses of VerdictsOfADetector, for each of its clauses. -/
theorem meets_VerdictsOfADetector :
    ((fun (pos : Fin 512) (s : State) => (Maps s) ∧ ((s.nodeSt pos).state = 0)) (511) ({ awake with nodes := [(511, { node := 0xFFFFF, state := 0 })] })) ∧
    ((fun (pos : Fin 512) (s : State) => (Maps s) ∧ ((s.nodeSt pos).state = 1) ∧ ((s.nodeSt pos).confirmed = false) ∧ ((s.nodeSt pos).twinConfirmed = false)) (511) ({ awake with nodes := [(511, { node := 0xFFFFF, state := 1 })] })) ∧
    ((fun (pos : Fin 512) (s : State) => (Maps s) ∧ ((s.nodeSt pos).state = 1) ∧ ((s.nodeSt pos).confirmed = false) ∧ ((s.nodeSt pos).twinConfirmed = true) ∧ (s.decides pos = true)) (511) ({ awake with nodes := [(511, { node := 0xFFFFF, state := 1, twinConfirmed := true })] })) ∧
    ((fun (pos : Fin 512) (s : State) => (Maps s) ∧ ((s.nodeSt pos).state = 1) ∧ ((if pos.val = twinPos then s.noParent else !s.twinUp) = true)) (511) ({ awake with nodes := [(511, { node := 0xFFFFF, state := 1 })] })) ∧
    ((fun (node : BitVec 20) (since : HT) (pos : Nat) (s : State) => (Maps s) ∧ (s.posOf node.toNat = some pos) ∧ ((s.nodeSt pos).state = 0)) (0xFFFFF#20) (9) (511) ({ awake with nodes := [(511, { node := 0xFFFFF, state := 0 })] })) ∧
    ((fun (node : BitVec 20) (pos : Nat) (s : State) => (Maps s) ∧ (s.posOf node.toNat = some pos)) (0xFFFFF#20) (511) ({ awake with nodes := [(511, { node := 0xFFFFF, state := 1, twinSince := some 9 })] })) ∧
    ((fun (node : BitVec 20) (pos : Nat) (s : State) => (Maps s) ∧ (s.posOf node.toNat = some pos) ∧ ((s.nodeSt pos).state = 0)) (0xFFFFF#20) (511) ({ awake with nodes := [(511, { node := 0xFFFFF, state := 0 })] })) ∧
    ((fun (node : BitVec 20) (pos : Nat) (s : State) => (Maps s) ∧ (s.posOf node.toNat = some pos) ∧ ((s.nodeSt pos).state ≠ 2)) (0xFFFFF#20) (511) ({ awake with nodes := [(511, { node := 0xFFFFF, state := 0 })] })) ∧
    ((fun (node : BitVec 20) (pos : Nat) (s : State) => (Maps s) ∧ (s.posOf node.toNat = some pos) ∧ ((s.unfenceNode pos).1 = .ok)) (0xFFFFF#20) (511) ((awake.wr .dist .mbrCfg 0xFFFF0000).setNode 511 { node := 0xFFFFF, state := 2 })) ∧
    ((fun (src : Src) (pos : Fin 512) (s : State) => (Maps s) ∧ (s.permits .dist src (some 16) true = true) ∧ (s.dist.unlocked.contains src.cls = true) ∧ ((s.nodeSt pos).state ≠ 2)) (dbg) (511) (unlock .dist .debug ({ awake with nodes := [(511, { node := 0xFFFFF, state := 1 })] }))) ∧
    ((fun (src : Src) (pos : Fin 512) (s : State) => (Maps s) ∧ (s.permits .dist src (some 16) true = true) ∧ (s.dist.unlocked.contains src.cls = true) ∧ ((s.unfenceNode pos).1 = .ok)) (dbg) (511) (unlock .dist .debug ((awake.wr .dist .mbrCfg 0xFFFF0000).setNode 511 { node := 0xFFFFF, state := 2 }))) ∧
    ((fun (n : Fin 256) (b : Bool) (s : State) => (Maps s) ∧ (s.tier = 1) ∧ ((s.nodeSt (s.posOfPort n)).state = 2)) (255) (true) (((awake.wr .dist .sysTier 1).wr .dist .prtState 6 255).setNode 127 { state := 2 })) ∧
    ((fun (node : BitVec 20) (bin : Fin 32) (b : Bool) (pos : Nat) (s : State) => (Maps s) ∧ (s.posOf node.toNat = some pos)) (0xFFFFF#20) (31) (true) (511) ({ awake with nodes := [(511, { node := 0xFFFFF, state := 0, cond := 0x80000001 })] })) :=
  by
  iterate 12 refine ⟨by decide +kernel, ?_⟩
  decide +kernel

/-- A state and operands that meet the hypotheses of MembershipOfJobsAndTheTsuFence, for each of its clauses. -/
theorem meets_MembershipOfJobsAndTheTsuFence :
    ((fun (k : Fin 1024) (h : HT) (m : Mirror) (ys : List (HT × Mirror)) (s : State) => (Maps s) ∧ ((s.job k).mirrors = (h, m) :: ys) ∧ ((match m with | .advance _ _ mv => !mv | .move => false | .commit _ => true) = true)) (1023) (9) (.commit 31) ([]) (awake.setJob 1023 { handle := 0xFFFF, gen := 3, epoch := 5, state := 3, mirrors := [(9, .commit 31)] })) ∧
    ((fun (c : JobCopy) (s : State) => (Maps s) ∧ (c.state ≠ 0) ∧ (c.moved = false)) ((State.reset.job 3).copy 3 false |> fun c => { c with state := 3, handle := 9 }) (awake)) ∧
    ((fun (l : Ledger) (s : State) => (Maps s)) ({ falls := [(1, 2)] }) (awake)) ∧
    ((fun (k : Fin 1024) (h : HT) (cause : Nat) (node : Nat) (mv : Bool) (ys : List (HT × Mirror)) (s : State) => (Maps s) ∧ ((s.job k).mirrors = (h, .advance cause node mv) :: ys)) (1023) (9) (1) (5) (true) ([]) (awake.setJob 1023 { handle := 0xFFFF, gen := 3, epoch := 5, state := 3, words := [⟨5, false⟩, ⟨6, false⟩], fenced := [5], mirrors := [(9, .advance 1 5 true)] })) ∧
    ((fun (node : BitVec 20) (s : State) => (Maps s) ∧ (s.jobsOf node.toNat ≠ [])) (5#20) (awake.setJob 1023 { handle := 0xFFFF, gen := 3, epoch := 5, state := 3, words := [⟨5, false⟩] })) ∧
    ((fun (handle : BitVec 16) (gen : Byte) (epoch : Word) (k : Nat) (node : BitVec 20) (q : BitVec 16) (coll : Bool) (d : BitVec 128) (s : State) => (Maps s) ∧ (JobAtRoot s handle gen epoch k) ∧ (((s.job k).shadows.all fun (y : Shadow) => y.theirs.all fun (d : Nat × Bool × Nat) => !(d.1 == q.toNat && d.2.1 == coll)) = true)) (0xFFFF#16) (3) (5) (1023) (9) (0xFFFF#16) (true) (8) (awake.setJob 1023 { handle := 0xFFFF, gen := 3, epoch := 5, state := 3, words := [⟨5, false⟩], shadows := [⟨9, 0, none, true, 2, false, none, [], [(7, true, 8)], [], false⟩] })) ∧
    ((fun (handle : BitVec 16) (gen : Byte) (epoch : Word) (k : Nat) (node : BitVec 20) (q : BitVec 16) (coll : Bool) (d : BitVec 128) (y : Shadow) (s : State) => (Maps s) ∧ (JobAtRoot s handle gen epoch k) ∧ ((s.job k).shadows = [y]) ∧ (y.node = node.toNat) ∧ (y.on = true) ∧ (y.frozen = false) ∧ (y.judged.contains (q.toNat, coll) = false) ∧ (y.theirs = [(q.toNat, coll, d.toNat)])) (0xFFFF#16) (3) (5) (1023) (9) (7) (true) (8) (⟨9, 0, none, true, 2, false, none, [], [(7, true, 8)], [], false⟩) (awake.setJob 1023 { handle := 0xFFFF, gen := 3, epoch := 5, state := 3, words := [⟨5, false⟩], shadows := [⟨9, 0, none, true, 2, false, none, [], [(7, true, 8)], [], false⟩] })) ∧
    ((fun (n : Nat) (s : State) => (Maps s) ∧ (2 ≤ s.tier)) (3600) ((awake.wr .dist .sysTier 2).wr .dist .mbrFrFail 5)) ∧
    ((fun  (s : State) => (Maps s) ∧ (s.fenced = false))  (awake)) ∧
    ((fun (h : HT) (s : State) => (Maps s) ∧ (s.fenced = false) ∧ (s.domainHeard 0 = some h)) (9) ((awake.wr .tsu .prtCtrl 1 1).modPrt .tsu 1 fun v => { v with heard := some 9 })) ∧
    ((fun  (s : State) => (Maps s) ∧ (s.fenced = true))  ((slotIn 15 2).wr .tsu .hltStatus 0x90000000)) ∧
    ((fun (src : Src) (v : Word) (a : Word) (b : Word) (c : Word) (s : State) => (Maps s) ∧ (s.permits .tsu src (some 10) true = true) ∧ (mget (fun _ => none) s.sentRes (4 * src.cls.num) = some a) ∧ (mget (fun _ => none) s.sentRes (4 * src.cls.num + 1) = some b) ∧ (mget (fun _ => none) s.sentRes (4 * src.cls.num + 2) = some c) ∧ ((a, b, c, v) ≠ (s.rd .tsu .hltSentExp 0 0, s.rd .tsu .hltSentExp 0 1, s.rd .tsu .hltSentExp 0 2, s.rd .tsu .hltSentExp 0 3))) (dbg) (7) (1) (2) (3) ({ awake with sentRes := [(4 * (Cls.num .debug), some 1), (4 * (Cls.num .debug) + 1, some 2), (4 * (Cls.num .debug) + 2, some 3)] })) ∧
    ((fun (src : Src) (m : Word) (b : Fin 32) (s : State) => (Maps s) ∧ (s.permits .tsu src (some 10) true = true) ∧ (s.tsu.unlocked.contains src.cls = true) ∧ (m.getLsbD b = true)) (dbg) (0xFFFFFFFF#32) (31) (unlock .tsu .debug ((awake.wr .tsu .hltBin 7 31).wr .tsu .hltCondsusp 0x80000000))) :=
  by
  iterate 12 refine ⟨by decide +kernel, ?_⟩
  decide +kernel

/-- A state and operands that meet the hypotheses of CheckpointsAtMemberAndRoot, for each of its clauses. -/
theorem meets_CheckpointsAtMemberAndRoot :
    ((fun (handle : BitVec 16) (gen : Byte) (epoch : Word) (c : Nat) (slot : Fin 32) (l : HT) (b : Word) (w : Word) (n : BitVec 16) (y : OpRef × Op) (s : State) => (Maps s) ∧ (FrameFor s handle gen epoch c) ∧ ((s.snapOp c slot.val) = some y)) (0xFFFF#16) (3) (5) (15) (31) (9) (1) (1000) (1500) ((⟨.tsu, 15, 0, 7⟩, ⟨7, 0x38, 0, 3, 8191, 15, [31, 9], none⟩)) ((slotIn 15 2).modCtx .tsu 15 fun v => { v with ops := [(0, ⟨7, 0x38, 0, 3, 8191, 15, [31, 9], none⟩)] })) ∧
    ((fun (handle : BitVec 16) (gen : Byte) (epoch : Word) (c : Nat) (slot : Fin 32) (code : Code) (y : OpRef × Op) (s : State) => (Maps s) ∧ (FrameFor s handle gen epoch c) ∧ ((s.snapOp c slot.val) = some y)) (0xFFFF#16) (3) (5) (15) (31) (.range) ((⟨.tsu, 15, 0, 7⟩, ⟨7, 0x38, 0, 3, 8191, 15, [31, 9], none⟩)) ((slotIn 15 2).modCtx .tsu 15 fun v => { v with ops := [(0, ⟨7, 0x38, 0, 3, 8191, 15, [31, 9], none⟩)] })) ∧
    ((fun (handle : BitVec 16) (gen : Byte) (epoch : Word) (c : Nat) (slot : Fin 32) (y : OpRef × Op) (s : State) => (Maps s) ∧ (FrameFor s handle gen epoch c) ∧ ((s.snapOp c slot.val) = some y)) (0xFFFF#16) (3) (5) (15) (31) ((⟨.tsu, 15, 0, 7⟩, ⟨7, 0x38, 0, 3, 8191, 15, [31, 9], none⟩)) ((slotIn 15 2).modCtx .tsu 15 fun v => { v with ops := [(0, ⟨7, 0x38, 0, 3, 8191, 15, [31, 9], none⟩)] })) ∧
    ((fun (handle : BitVec 16) (gen : Byte) (epoch : Word) (c : Nat) (slot : Fin 32) (code : Code) (y : OpRef × Op) (s : State) => (Maps s) ∧ (FrameFor s handle gen epoch c) ∧ ((s.snapOp c slot.val) = some y)) (0xFFFF#16) (3) (5) (15) (31) (.epoch) ((⟨.tsu, 15, 0, 7⟩, ⟨7, 0x38, 0, 3, 8191, 15, [31, 9], none⟩)) ((slotIn 15 2).modCtx .tsu 15 fun v => { v with ops := [(0, ⟨7, 0x38, 0, 3, 8191, 15, [31, 9], none⟩)] })) ∧
    ((fun (handle : BitVec 16) (gen : Byte) (epoch : Word) (k : Nat) (node : BitVec 20) (slot : Fin 32) (b : Word) (w : Word) (n : BitVec 16) (s : State) => (Maps s) ∧ (JobAtRoot s handle gen epoch k) ∧ (((s.job k).live.all fun (y : Nat × Nat) => y.2 == node.toNat || (s.epochSlot k slot).asked.any fun z => z.1 == y.2) = false)) (0xFFFF#16) (3) (5) (1023) (5) (31) (1) (1000) (1500) (awake.setJob 1023 { handle := 0xFFFF, gen := 3, epoch := 5, state := 3, words := [⟨5, false⟩, ⟨6, false⟩] })) ∧
    ((fun (handle : BitVec 16) (gen : Byte) (epoch : Word) (k : Nat) (leaf : BitVec 20) (slot : Fin 32) (s : State) => (Maps s) ∧ (JobAtRoot s handle gen epoch k) ∧ ((s.epochSlot k slot).state = 2) ∧ ((s.epochSlot k slot).op ≠ none) ∧ ((s.epochSlot k slot).prep.contains leaf.toNat = false) ∧ ((s.epochSlot k slot).prep.length + 1 < s.leafCount k)) (0xFFFF#16) (3) (5) (1023) (77) (31) (awake.setJob 1023 { handle := 0xFFFF, gen := 3, epoch := 5, state := 3, words := [⟨5, false⟩, ⟨6, false⟩], leafOf := [(5, 77), (6, 78)], slots := [(31, { state := 2, op := some ⟨.tile 7, 15, 0, 7⟩ })] })) ∧
    ((fun (handle : BitVec 16) (gen : Byte) (epoch : Word) (k : Nat) (leaf : BitVec 20) (slot : Fin 32) (s : State) => (Maps s) ∧ (JobAtRoot s handle gen epoch k) ∧ ((s.epochSlot k slot).state = 2) ∧ ((s.epochSlot k slot).op ≠ none) ∧ ((s.epochSlot k slot).prep.contains leaf.toNat = false) ∧ (s.leafCount k ≤ (s.epochSlot k slot).prep.length + 1)) (0xFFFF#16) (3) (5) (1023) (78) (31) (awake.setJob 1023 { handle := 0xFFFF, gen := 3, epoch := 5, state := 3, words := [⟨5, false⟩, ⟨6, false⟩], leafOf := [(5, 77), (6, 78)], slots := [(31, { state := 2, prep := [77], op := some ⟨.tile 7, 15, 0, 7⟩ })] })) ∧
    ((fun (handle : BitVec 16) (gen : Byte) (epoch : Word) (k : Nat) (leaf : BitVec 20) (n : Fin 4) (r : RebuildRoot) (s : State) => (Maps s) ∧ (JobAtRoot s handle gen epoch k) ∧ ((s.job k).rebuild = some r) ∧ (r.got.contains leaf.toNat = false) ∧ (r.got.length + 1 < r.need)) (0xFFFF#16) (3) (5) (1023) (77) (3) (⟨⟨.tile 7, 15, 0, 7⟩, 9, [], 2, 0, true, 31⟩) (awake.setJob 1023 { handle := 0xFFFF, gen := 3, epoch := 5, state := 5, rebuild := some ⟨⟨.tile 7, 15, 0, 7⟩, 9, [], 2, 0, true, 31⟩ })) ∧
    ((fun (handle : BitVec 16) (gen : Byte) (epoch : Word) (k : Nat) (leaf : BitVec 20) (n : Fin 4) (r : RebuildRoot) (s : State) => (Maps s) ∧ (JobAtRoot s handle gen epoch k) ∧ ((s.job k).rebuild = some r) ∧ (r.got.contains leaf.toNat = false) ∧ (r.need ≤ r.got.length + 1) ∧ (after r.tr (s.ht .dist) = true)) (0xFFFF#16) (3) (5) (1023) (77) (3) (⟨⟨.tile 7, 15, 0, 7⟩, 9, [78], 2, 0, true, 31⟩) (awake.setJob 1023 { handle := 0xFFFF, gen := 3, epoch := 5, state := 5, rebuild := some ⟨⟨.tile 7, 15, 0, 7⟩, 9, [78], 2, 0, true, 31⟩ })) ∧
    ((fun (port : Fin 4) (handle : BitVec 16) (gen : Byte) (epoch : Word) (c : Nat) (ad : BitVec 96) (off : Word) (bs : List Byte) (s : State) => (Maps s) ∧ (FrameFor s handle gen epoch c) ∧ (s.slotSt c ≠ 6)) (3) (0xFFFF#16) (3) (5) (15) (9) (0) ([7]) (slotIn 15 5)) ∧
    ((fun (port : Fin 4) (handle : BitVec 16) (gen : Byte) (epoch : Word) (off : Word) (ad : BitVec 96) (bs : List Byte) (s : State) => (Maps s) ∧ (2 ≤ port.val) ∧ (s.portState .tsu 0 = 6)) (3) (0xFFFF#16) (3) (5) (0) (9) ([7]) (awake.wr .tsu .prtState 6 0)) :=
  by
  iterate 10 refine ⟨by decide +kernel, ?_⟩
  decide +kernel

/-- A state and operands that meet the hypotheses of ChainsOfALeaf, for each of its clauses. -/
theorem meets_ChainsOfALeaf :
    ((fun (handle : BitVec 16) (gen : Byte) (epoch : Word) (k : Nat) (slot : Fin 32) (z : Nat) (v : ChainSlot) (l : HT) (b : Word) (w : Word) (n : BitVec 16) (s : State) => (Maps s) ∧ (LeafFor s handle gen epoch k) ∧ (s.chainsOf handle.toNat slot.val = [(z, v)]) ∧ (v.state = 1)) (0xFFFF#16) (3) (5) (1023) (31) (4095) ({ ctx := 1023, state := 1, freeMask := 1 }) (9) (1) (1000) (1500) ({ awake with chainCtxs := [(1023, { handle := 0xFFFF, gen := 3, epoch := 5 })], chains := [(4095, { ctx := 1023, state := 1, freeMask := 1 })] })) ∧
    ((fun (set : Fin 128) (slot : Fin 32) (s : State) => (Maps s) ∧ ((s.chain (32 * set.val + slot.val)).state = 2) ∧ ((s.chain (32 * set.val + slot.val)).opened < (s.chain (32 * set.val + slot.val)).b)) (127) (31) ({ awake with chainCtxs := [(1023, { handle := 0xFFFF, gen := 3, epoch := 5 })], chains := [(4095, { ctx := 1023, state := 2, b := 1 })] })) ∧
    ((fun (set : Fin 128) (slot : Fin 32) (s : State) => (Maps s) ∧ ((s.chain (32 * set.val + slot.val)).state = 2 ∨ (s.chain (32 * set.val + slot.val)).state = 4) ∧ ((s.chain (32 * set.val + slot.val)).closed < (s.chain (32 * set.val + slot.val)).b)) (127) (31) ({ awake with chainCtxs := [(1023, { handle := 0xFFFF, gen := 3, epoch := 5 })], chains := [(4095, { ctx := 1023, state := 2, b := 1, entries := [⟨127, false, 63⟩, ⟨126, true, 0⟩] })] })) ∧
    ((fun (handle : BitVec 16) (gen : Byte) (epoch : Word) (k : Nat) (n : Fin 256) (slot : Fin 32) (h : Fin 2) (block : Word) (off : Word) (bs : List Byte) (z : Nat) (e : ChainEntry) (s : State) => (Maps s) ∧ (LeafFor s handle gen epoch k) ∧ (off.toNat % 4096 = 0) ∧ (off.toNat < 131072) ∧ (bs.length = 4096) ∧ (s.bulkTarget handle.toNat slot.val (n.val / 2) false = some (z, e)) ∧ (block.toNat < (s.chain z).b) ∧ ((s.chain z).absorbed.contains (e.pos, chunkOf block.toNat h off.toNat) = false)) (0xFFFF#16) (3) (5) (1023) (255) (31) (1) (0) (126976) (List.replicate 4096 7) (4095) (⟨127, false, 63⟩) ({ awake with chainCtxs := [(1023, { handle := 0xFFFF, gen := 3, epoch := 5 })], chains := [(4095, { ctx := 1023, state := 2, b := 1, entries := [⟨127, false, 63⟩, ⟨126, true, 0⟩] })] })) ∧
    ((fun (handle : BitVec 16) (gen : Byte) (epoch : Word) (k : Nat) (n : Fin 256) (slot : Fin 32) (h : Fin 2) (block : Word) (off : Word) (bs : List Byte) (z : Nat) (e : ChainEntry) (s : State) => (Maps s) ∧ (LeafFor s handle gen epoch k) ∧ (off.toNat % 4096 = 0) ∧ (off.toNat < 131072) ∧ (bs.length = 4096) ∧ (s.bulkTarget handle.toNat slot.val (n.val / 2) true = some (z, e)) ∧ (block.toNat < (s.chain z).b) ∧ ((s.chain z).resent.contains (e.pos, chunkOf block.toNat h off.toNat) = false)) (0xFFFF#16) (3) (5) (1023) (255) (31) (1) (0) (126976) (List.replicate 4096 7) (4095) (⟨127, false, 63⟩) ({ awake with chainCtxs := [(1023, { handle := 0xFFFF, gen := 3, epoch := 5 })], chains := [(4095, { ctx := 1023, state := 6, b := 1, entries := [⟨127, false, 63⟩, ⟨126, true, 0⟩] })] })) ∧
    ((fun (handle : BitVec 16) (gen : Byte) (epoch : Word) (k : Nat) (n : Fin 256) (slot : Fin 32) (h : Fin 2) (block : Word) (z : Nat) (e : ChainEntry) (s : State) => (Maps s) ∧ (LeafFor s handle gen epoch k) ∧ (s.bulkTarget handle.toNat slot.val (n.val / 2) false = some (z, e)) ∧ (block.toNat < (s.chain z).b) ∧ ((s.chain z).absorbed.contains (e.pos, chunkOf block.toNat h 0) = false)) (0xFFFF#16) (3) (5) (1023) (255) (31) (1) (0) (4095) (⟨127, false, 63⟩) ({ awake with chainCtxs := [(1023, { handle := 0xFFFF, gen := 3, epoch := 5 })], chains := [(4095, { ctx := 1023, state := 2, b := 1, entries := [⟨127, false, 63⟩, ⟨126, true, 0⟩] })] })) ∧
    ((fun (set : Fin 128) (slot : Fin 32) (g : Staged) (gs : List Staged) (s : State) => (Maps s) ∧ ((s.chain (32 * set.val + slot.val)).staged = g :: gs) ∧ (((s.chainCtx (s.chain (32 * set.val + slot.val)).ctx).bind fun (y : ChainCtx) => y.rebuild) = none)) (127) (31) (⟨false, 127, 0, [7]⟩) ([]) ({ awake with chainCtxs := [(1023, { handle := 0xFFFF, gen := 3, epoch := 5 })], chains := [(4095, { ctx := 1023, state := 3, b := 1, staged := [⟨false, 127, 0, [7]⟩] })] })) ∧
    ((fun (set : Fin 128) (slot : Fin 32) (h : Fin 2) (handle : BitVec 16) (gen : Byte) (epoch : Word) (k : Nat) (block : Word) (off : Word) (bs : List Byte) (s : State) => (Maps s) ∧ (LeafFor s handle gen epoch k) ∧ (off.toNat % 4096 = 0) ∧ (bs.length = 4096) ∧ ((s.chain (32 * set.val + slot.val)).state = 6) ∧ (s.chainHandle (32 * set.val + slot.val) = handle.toNat) ∧ (((s.chain (32 * set.val + slot.val)).synd.any fun (y : Nat × List Byte) => y.1 == chunkOf block.toNat h off.toNat) = false) ∧ (((s.chainCtx (s.chain (32 * set.val + slot.val)).ctx).bind fun (y : ChainCtx) => y.rebuild).map (fun (r : LeafRebuild) => decide (chunkOf block.toNat h off.toNat / 64 < r.window)) = some false)) (127) (31) (1) (0xFFFF#16) (3) (5) (1023) (0) (4096) (List.replicate 4096 7) ({ awake with chainCtxs := [(1023, { handle := 0xFFFF, gen := 3, epoch := 5, rebuild := some { slots := [31], start := 9, erased := [(127, 6)], op := none, window := 0 } })], chains := [(4095, { ctx := 1023, state := 6, b := 1, entries := [⟨127, false, 63⟩, ⟨126, true, 0⟩] })] })) ∧
    ((fun (handle : BitVec 16) (gen : Byte) (epoch : Word) (k : Nat) (slot : Fin 32) (z : Nat) (v : ChainSlot) (s : State) => (Maps s) ∧ (LeafFor s handle gen epoch k) ∧ (s.chainsOf handle.toNat slot.val = [(z, v)]) ∧ (v.state = 2 ∨ v.state = 3) ∧ ((s.missing v).isEmpty = false)) (0xFFFF#16) (3) (5) (1023) (31) (4095) ({ ctx := 1023, state := 3, b := 1, entries := [⟨127, false, 63⟩, ⟨126, true, 0⟩] }) ({ awake with chainCtxs := [(1023, { handle := 0xFFFF, gen := 3, epoch := 5 })], chains := [(4095, { ctx := 1023, state := 3, b := 1, entries := [⟨127, false, 63⟩, ⟨126, true, 0⟩] })] })) ∧
    ((fun (handle : BitVec 16) (slot : Fin 32) (z : Nat) (v : ChainSlot) (s : State) => (Maps s) ∧ ((s.chainsOf handle.toNat slot.val).filter (fun (y : Nat × ChainSlot) => y.2.prep) = [(z, v)]) ∧ (v.state ≠ 0)) (0xFFFF#16) (31) (4095) ({ ctx := 1023, state := 3, b := 1, prep := true }) ({ awake with chainCtxs := [(1023, { handle := 0xFFFF, gen := 3, epoch := 5 })], chains := [(4095, { ctx := 1023, state := 3, b := 1, prep := true })] })) ∧
    ((fun (handle : BitVec 16) (gen : Byte) (epoch : Word) (k : Nat) (slot : Fin 32) (z : Nat) (v : ChainSlot) (s : State) => (Maps s) ∧ (LeafFor s handle gen epoch k) ∧ (s.chainsOf handle.toNat slot.val = [(z, v)]) ∧ (v.state = 4)) (0xFFFF#16) (3) (5) (1023) (31) (4095) ({ ctx := 1023, state := 4, b := 1 }) ({ awake with chainCtxs := [(1023, { handle := 0xFFFF, gen := 3, epoch := 5 })], chains := [(4095, { ctx := 1023, state := 4, b := 1 })] })) ∧
    ((fun (handle : BitVec 16) (gen : Byte) (epoch : Word) (k : Nat) (slot : Fin 32) (z : Nat) (v : ChainSlot) (code : Code) (s : State) => (Maps s) ∧ (LeafFor s handle gen epoch k) ∧ (s.chainsOf handle.toNat slot.val = [(z, v)]) ∧ (1 ≤ v.state) ∧ (v.state ≤ 4)) (0xFFFF#16) (3) (5) (1023) (31) (4095) ({ ctx := 1023, state := 4, b := 1 }) (.epoch) ({ awake with chainCtxs := [(1023, { handle := 0xFFFF, gen := 3, epoch := 5 })], chains := [(4095, { ctx := 1023, state := 4, b := 1 })] })) ∧
    ((fun (handle : BitVec 16) (gen : Byte) (epoch : Word) (m : Word) (ts : HT) (ps : List (BitVec 20 × BitVec 20)) (s : State) => (Maps s) ∧ ((s.chainCtxs.any fun (y : Nat × ChainCtx) => y.2.handle == handle.toNat) = false)) (0xFFFF#16) (3) (5) (1) (9) ([(0, 5)]) (awake)) ∧
    ((fun (handle : BitVec 16) (gen : Byte) (epoch : Word) (k : Nat) (slot : Fin 32) (ts : HT) (r : BitVec 20) (tg : BitVec 20) (z : Nat) (nd : Nat) (q : Nat) (v : ChainSlot) (s : State) => (Maps s) ∧ (LeafFor s handle gen epoch k) ∧ ((s.rankNodes.find? fun (y : Nat × Nat × Nat) => y.1 == handle.toNat && y.2.1 == r.toNat).map (fun (y : Nat × Nat × Nat) => y.2.2) = some nd) ∧ (s.posOf nd = some q) ∧ (s.ctxSlots k slot = [(z, v)]) ∧ (v.state = 5) ∧ (((v.erased [(q, tg.toNat)]).filter fun (y : ChainEntry × Nat) => !y.1.mirror).length = 1)) (0xFFFF#16) (3) (5) (1023) (31) (9) (0) (6) (4095) (5) (127) ({ ctx := 1023, state := 5, b := 1, entries := [⟨127, false, 63⟩, ⟨126, true, 0⟩] }) ({ awake with chainCtxs := [(1023, { handle := 0xFFFF, gen := 3, epoch := 5 })], chains := [(4095, { ctx := 1023, state := 5, b := 1, entries := [⟨127, false, 63⟩, ⟨126, true, 0⟩] })], nodes := [(127, { node := 5, state := 2 })], rankNodes := [(0xFFFF, 0, 5)] })) ∧
    ((fun (handle : BitVec 16) (k : Nat) (z : Nat) (x : ChainCtx) (r : LeafRebuild) (v : ChainSlot) (s : State) => (Maps s) ∧ (s.chainCtxs.find? (fun (y : Nat × ChainCtx) => y.2.handle == handle.toNat) = some (k, x)) ∧ (x.rebuild = some r) ∧ ((s.affected k r).filter (fun (y : Nat × ChainSlot) => y.2.state == 6) = [(z, v)]) ∧ (r.window + 1 < v.b) ∧ (s.newErasures v r.erased = [])) (0xFFFF#16) (1023) (4095) ({ handle := 0xFFFF, gen := 3, epoch := 5, rebuild := some { slots := [31], start := 9, erased := [(127, 6)], op := none, window := 0 } }) ({ slots := [31], start := 9, erased := [(127, 6)], op := none }) ({ ctx := 1023, state := 6, b := 2, entries := [⟨127, false, 63⟩, ⟨126, true, 0⟩] }) ({ awake with chainCtxs := [(1023, { handle := 0xFFFF, gen := 3, epoch := 5, rebuild := some { slots := [31], start := 9, erased := [(127, 6)], op := none, window := 0 } })], chains := [(4095, { ctx := 1023, state := 6, b := 2, entries := [⟨127, false, 63⟩, ⟨126, true, 0⟩] })] })) ∧
    ((fun (handle : BitVec 16) (k : Nat) (z : Nat) (x : ChainCtx) (r : LeafRebuild) (v : ChainSlot) (s : State) => (Maps s) ∧ (s.chainCtxs.find? (fun (y : Nat × ChainCtx) => y.2.handle == handle.toNat) = some (k, x)) ∧ (x.rebuild = some r) ∧ ((s.affected k r).filter (fun (y : Nat × ChainSlot) => y.2.state == 6) = [(z, v)]) ∧ (v.b ≤ r.window)) (0xFFFF#16) (1023) (4095) ({ handle := 0xFFFF, gen := 3, epoch := 5, rebuild := some { slots := [31], start := 9, erased := [(127, 6)], op := none, window := 1 } }) ({ slots := [31], start := 9, erased := [(127, 6)], op := none, window := 1 }) ({ ctx := 1023, state := 6, b := 1, entries := [⟨127, false, 63⟩, ⟨126, true, 0⟩] }) ({ awake with chainCtxs := [(1023, { handle := 0xFFFF, gen := 3, epoch := 5, rebuild := some { slots := [31], start := 9, erased := [(127, 6)], op := none, window := 1 } })], chains := [(4095, { ctx := 1023, state := 6, b := 1, entries := [⟨127, false, 63⟩, ⟨126, true, 0⟩] })] })) :=
  by
  iterate 15 refine ⟨by decide +kernel, ?_⟩
  decide +kernel

/-- A state and operands that meet the hypotheses of FaultsOfAnIssuingContext, for each of its clauses. -/
theorem meets_FaultsOfAnIssuingContext :
    ((fun (x : CtxRef) (w : Word) (s : State) => (Maps s) ∧ (CanIssue s x 0) ∧ ((decodeWord x w).isSome = false)) (x7) (0xFBFFFFFF#32) (ctxAt (.tile 7) 15)) ∧
    ((fun (x : CtxRef) (s : State) => (Maps s) ∧ (s.cst x.eng x.ctx = 1) ∧ (s.iwinSize x.eng x.ctx ≤ s.pc x.eng x.ctx)) (x7) ((ctxAt (.tile 7) 15).setPc (.tile 7) 15 64)) ∧
    ((fun (x : CtxRef) (s : State) => (Maps s) ∧ (s.cst x.eng x.ctx = 1) ∧ (s.pc x.eng x.ctx < s.iwinSize x.eng x.ctx) ∧ ((s.eng x.eng).badI.contains (s.iwinBase x.eng x.ctx + s.pc x.eng x.ctx) = true)) (x7) ((ctxAt (.tile 7) 15).modEng (.tile 7) fun v => { v with badI := [62] })) :=
  by
  iterate 2 refine ⟨by decide +kernel, ?_⟩
  decide +kernel

/-- A state and operands that meet the hypotheses of ManagementAccessesAndMailbox, for each of its clauses. -/
theorem meets_ManagementAccessesAndMailbox :
    ((fun (port : Port) (tag : BitVec 16) (s : State) => (noMgmt port = false) ∧ (s.permits port.part { cls := .link } (some 0) false = true)) (.pp 1) (0xFFFF#16) (awake.wr .dist .sysUpdMask 0x80000001)) ∧
    ((fun (port : Port) (tag : BitVec 16) (v : Word) (s : State) => (noMgmt port = false) ∧ (s.permits port.part { cls := .link } (some 0) true = true)) (.sl 3) (0#16) (0xFFFFFFFF#32) (awake)) ∧
    ((fun (ti : Fin 8) (src : Src) (s : State) => (s.permits .dist src (some 20) true = true) ∧ (s.bt .dist .tilMreqStatus 31 ti = false) ∧ (s.fd .dist .tilMreqPort 8 0 ti < 274) ∧ (portTile (s.fd .dist .tilMreqPort 8 0 ti) = ti) ∧ (s.fd .dist .tilMreqAddr 25 0 ti % 4 = 0) ∧ (s.portState .dist (s.fd .dist .tilMreqPort 8 0 ti) = 6)) (7) (hkp7) ((awake.wr .dist .tilMreqPort 273 7).wr .dist .prtState 6 273)) ∧
    ((fun (port : Port) (tag : BitVec 16) (code : Code) (done : Fin 9) (q : Mreq) (s : State) => (port.part = .dist) ∧ ((s.mreqs.find? fun (x : Nat × Mreq) => x.1 == portTile port.num && x.2.port == port.num && x.2.tag == tag.toNat) = some (portTile port.num, q))) (.up 15) (0xFFFF#16) (.perm) (8) (⟨271, 65535, true, 8⟩) ({ awake with mreqs := [(7, ⟨271, 65535, true, 8⟩)] })) ∧
    ((fun (ti : Fin 8) (s : State) => (s.bt .dist .tilMreqStatus 31 ti = true)) (7) (awake.wr .dist .tilMreqStatus 0x80000000 7)) ∧
    ((fun (p : PartId) (v : Word) (s : State) => (s.permits p { cls := .debug } (some 0) true = true)) (.tsu) (0x80000000#32) (awake)) ∧
    ((fun (p : PartId) (v : Word) (s : State) => (s.permits p { cls := .debug } (some 0) false = true)) (.dist) (0#32) (awake)) ∧
    ((fun (seven : Bool) (v : Word) (s : State) => (s.permits .dist { cls := .i3c, tile := mgmtTile seven } (some 0) true = true)) (true) (0xFFFFFFFF#32) (awake)) ∧
    ((fun (seven : Bool) (s : State) => (s.permits .dist { cls := .i3c, tile := mgmtTile seven } (some 0) false = true) ∧ (mget (fun _ => 0) s.pkg.i3cAddr (mgmtTile seven) = addrOf .dist .sysUpdMask)) (true) ({ awake with pkg := { awake.pkg with i3cAddr := [(7, addrOf .dist .sysUpdMask)] } })) :=
  by
  iterate 8 refine ⟨by decide +kernel, ?_⟩
  decide +kernel

/-- A state and operands that meet the hypotheses of PackageSuppliesHeatAndBoot, for each of its clauses. -/
theorem meets_PackageSuppliesHeatAndBoot :
    ((fun (f : Fuses) (oscIn : Bool) (norOk : Bool) (s : State) => (s.pkg.pwrFlt = true) ∧ (s.pkg.tripped = false ∨ s.pkg.rstLow = true)) (⟨0x1FFFF#17, 3, 1⟩) (false) (false) ({ awake with pkg := { awake.pkg with pwrFlt := true, tripped := true, rstLow := true } })) ∧
    ((fun  (s : State) => (s.fd .dist .hkpBoot 7 0 = 1))  (awake.wr .dist .hkpBoot 1)) ∧
    ((fun (b : BootImage) (s : State) => (s.fd .dist .hkpBoot 7 0 = 1) ∧ (s.imageValid b = true)) (⟨0x44334D4C#32, 4096, 0xFFFFFFFF#32, 1, true, true⟩) (awake.wr .dist .hkpBoot 1)) ∧
    ((fun (p : PartId) (e : EngSel) (fail : Option (BitVec 16)) (s : State) => (s.lcState p = 0 ∨ s.lcState p = 3) ∧ (e.part = p)) (.dist) (.tile 7) (some 0xFFFF) ((awake.setEng (.tile 7) { imem := [(1, 1)], dmem := [(1, 1)] }).wr .dist .sysLifecycle 3)) ∧
    ((fun (h : HbmAt) (s : State) => (s.fd .dist .hbmCfg 7 0 ≠ 0)) (⟨23, 31, 0x1FFFFF#21⟩) (awake.wr .dist .hbmCfg 1)) :=
  by
  iterate 4 refine ⟨by decide +kernel, ?_⟩
  decide +kernel

/-- A state and operands that meet the hypotheses of MeshEdgesAndHousekeeping, for each of its clauses. -/
theorem meets_MeshEdgesAndHousekeeping :
    ((fun (ti : Fin 8) (u : Fin 8) (s : State) => (meshEdge ti u = true) ∧ (s.bt .dist .tilStatus u ti = true)) (3) (7) ((awake.wr .dist .tilStatus 0x88 3).wr .dist .tilStatus 0x88 7)) ∧
    ((fun (ti : Fin 8) (u : Fin 8) (s : State) => (meshEdge ti u = true)) (0) (4) ({ awake with pkg := { awake.pkg with isolated := [4, 0] } })) ∧
    ((fun (ti : Fin 8) (s : State) => (s.meshUp ti = 0)) (7) (awake.wr .dist .prtState 1 273)) ∧
    ((fun (k : Nat) (s : State) => (s.hkpStandby = some k) ∧ (s.firmware = true)) (7) ((awake.wr .dist .hkpStatus 0x80000000).wr .dist .hkpBoot 5)) ∧
    ((fun (src : Src) (v : Word) (s : State) => (s.permits .dist src (some 19) true = true) ∧ (src.cls = .hkp) ∧ (src.tile = s.hkpActive)) (hkp7) (0#32) (awake.wr .dist .hkpStatus 7)) ∧
    ((fun (src : Src) (k : Nat) (s : State) => (s.permits .dist src (some 19) true = true) ∧ (s.dist.unlocked.contains src.cls = true) ∧ (s.hkpStandby = some k) ∧ (s.firmware = true)) (hkp7) (0) (((awake.wr .dist .hkpStatus 0x01000007).wr .dist .hkpBoot 5).mod .dist fun q => { q with unlocked := [.hkp] })) ∧
    ((fun (src : Src) (v : Word) (s : State) => (s.permits .dist src (some 19) true = true)) (dbg) (0xFFFFFFFF#32) (awake)) ∧
    ((fun (src : Src) (v : Word) (s : State) => (s.permits .dist src (some 19) true = true)) (hkp7) (0xFFFFFFFF#32) (awake)) :=
  by
  iterate 7 refine ⟨by decide +kernel, ?_⟩
  decide +kernel

/-- A state and operands that meet the hypotheses of StepTakesTheFrontCommand, for each of its clauses. -/
theorem meets_StepTakesTheFrontCommand :
    (State.reset.pending = []) :=
  by decide +kernel

/-- A state and operands that meet the hypotheses of DecodingAnEncodedInstruction, for each of its clauses. -/
theorem meets_DecodingAnEncodedInstruction :
    ((Instr.add x7 31 30 29).wf = true ∧ (encodeWord (.add x7 31 30 29)).isSome = true) :=
  by decide +kernel

/-- A state and operands that meet the hypotheses of OnlyStoresChangeTheMemories, for each of its clauses. -/
theorem meets_OnlyStoresChangeTheMemories :
    ((Instr.fence).writesMemory = false ∧ (Instr.fence).writesRegister = false ∧ (Instr.fence).resets = false) :=
  by decide +kernel

/-- A state and operands that meet the hypotheses of EachUnitChangedOnlyByItsCommands, for each of its clauses. -/
theorem meets_EachUnitChangedOnlyByItsCommands :
    ((Instr.fence).writesRegister = false ∧ (Instr.fence).resets = false) :=
  by decide +kernel

/-- A state and operands that meet the hypotheses of RefusedAccessesHaveNoEffect, for each of its clauses. -/
theorem meets_RefusedAccessesHaveNoEffect :
    (blockOfTarget (locate .tsu (addrOf .tsu .sysId / 4 * 4)) = some 0 ∧ ((State.reset.wr .tsu .proWinRd 0 0 6).rd .tsu .proWinRd 0 6).getLsbD 0 = false ∧ ((State.reset.wr .tsu .proWinWr 0 0 6).rd .tsu .proWinWr 0 6).getLsbD 0 = false) ∧
    (State.reset.permits .dist dbg (blockOfTarget (locate .dist (0x3FFFFFF / 4 * 4))) false = true ∧ State.reset.permits .dist dbg (blockOfTarget (locate .dist (0x3FFFFFF / 4 * 4))) true = true ∧ 0x3FFFFFF % 4 ≠ 0) :=
  by
  refine ⟨by decide +kernel, ?_⟩
  decide +kernel

/-- A state and operands that meet the hypotheses of ReadOnlyAndWriteOnlyRegisters, for each of its clauses. -/
theorem meets_ReadOnlyAndWriteOnlyRegisters :
    ((match locate .tsu (addrOf .tsu .sysId) with | .reg l => decide ((row l.name).acc = .ro ∧ State.reset.permits .tsu dbg (blockOfTarget (.reg l)) true = true) | _ => false) = true) ∧
    ((match locate .dist (addrOf .dist .sysSeal) with | .reg l => decide ((row l.name).acc = .wo ∧ State.reset.permits .dist dbg (blockOfTarget (.reg l)) false = true) | _ => false) = true) :=
  by
  refine ⟨by decide +kernel, ?_⟩
  decide +kernel


/-! ### Well-formedness refuses an ill-formed command of each check -/

/-- A source class that the part has not, a tile that is not there, and a context that is not there (R24). -/
theorem test_wf_source :
    (Instr.registerWrite .tsu { cls := .hkp } 0 0 true).wf = false ∧ (Instr.registerWrite .tsu { cls := .host, tile := 1 } 0 0 true).wf = false ∧
    (Instr.sysUpdate .dist { cls := .hkp, tile := 8 } 0).wf = false ∧ (Instr.statRead .dist { cls := .engine, ctx := 16 } 0).wf = false ∧
    (Instr.iaddrWrite .dist { cls := .hkp } .kpr 0).wf = false ∧ (Instr.kprFcmdGo { cls := .i3c } false).wf = false ∧
    (Instr.mbrJevtRead { cls := .hkp, tile := 9 }).wf = false ∧ (Instr.dtcCal .tsu { cls := .host2 } 0).wf = false ∧
    (Instr.prtSwap (.sl 0) { cls := .hkp } 0).wf = false := by decide

/-- A field of a flit, frame or message that its bits cannot hold, a subtype another row has, an engine, a port or an edge that is not one of the
row's. -/
theorem test_wf_fields :
    (Instr.neg (.sl 0) { node := 2 ^ 20, port := 0, domain := 0, tier := 0, vmin := 2, vmax := 3, strong := false, spare := true, fault := 0 } true).wf = false ∧
    (Instr.sync (.sl 0) { t1 := 0, t2 := 0, t4 := 0, xn := 2 ^ 16, xnAns := 0, code := 0, tscal := true, source := true, setgen := 0, hops := 0, uncal := false }).wf = false ∧
    (Instr.jobcmd 0 5 0 0 0 64 0 0 0 0).wf = false ∧ (Instr.ptpMessage false 0 0 (.followUp 0 0 ⟨0, 1000000000, 0⟩)).wf = false ∧
    (Instr.keeperRead 0 ⟨0, 0, 0⟩ 0 0 (2 ^ 32)).wf = false ∧ (Instr.sig xT 0 0 .here).wf = true ∧ (Instr.sig xT 0 0 .live).wf = false ∧
    (Instr.meshEdgeDown 0 2).wf = false ∧ (Instr.retrain (.sl 0) 5 true).wf = false ∧ (Instr.rsp (.sl 0) 0 .ok 0 []).wf = false ∧
    (Instr.srvLcalArm 0 { cls := .host } 274 0).wf = false := by decide

/-- A list that is too short or too long. -/
theorem test_wf_lengths :
    (Instr.frameReceive (.sl 0) true (List.replicate 23 0) [] 0 0 0).wf = false ∧ (Instr.tdcCalDone .tsu 0 [] []).wf = false ∧
    (Instr.dtcCalDone .tsu 0 []).wf = false ∧ (Instr.latencyCalibrationDone (.sl 0) [] []).wf = false ∧
    (Instr.bulkTransfer 0 0 0 0 0 []).wf = false ∧ (Instr.sigFrame 0 0 0 []).wf = false ∧ (Instr.fabricSignalWrite (.write [])).wf = false ∧
    (Instr.mgmtWrite (.sl 0) 0 0 []).wf = false ∧ (Instr.rsp (.dp 0) 0 .ok 0 (List.replicate 9 0)).wf = false ∧
    (Instr.bandSample (List.replicate 9 (0, 0)) []).wf = false ∧ (Instr.bulkData 0 0 0 0 0 0 0 0 []).wf = false ∧
    (Instr.synd (.leaf 0 0 0 0) 0 0 0 0 []).wf = false ∧ (Instr.bulkRestore 0 0 0 0 0 0 []).wf = false := by decide

/-! ### Words of the spec's worked examples, and a word of each format written out from its encoding -/

/-- "Worked example: encoding a short sequence" of 10_isa_core.md. -/
theorem test_words_core :
    decodeWord x7 0xFC101640 = some (.fx x7 0x101640) ∧ decodeWord x7 0x04A00000 = some (.addi x7 5 0 0) ∧
    decodeWord x7 0x40C52802 = some (.fmul x7 .rne 6 5 5) ∧ decodeWord x7 0x48E60100 = some (.fcvtF2i x7 .rtz 7 6) ∧
    decodeWord x7 0x60C50004 = some (.ld x7 6 5 4) := by decide

/-- "Worked example: one gated step in a TSU" of 11_isa_step.md. -/
theorem test_words_step :
    decodeWord xT 0x05000800 = some (.addi xT 8 0 0x800) ∧ decodeWord xT 0xC8190701 = some (.gate xT 200 7 1) ∧
    decodeWord xT 0xA4190501 = some (.wait xT 200 5 true false 0) ∧ decodeWord xT 0xD0C74401 = some (.result xT 6 7 8 (some 1)) ∧
    decodeWord xT 0x0520000F = some (.addi xT 9 0 15) ∧ decodeWord xT 0xB8148000 = some (.prelit xT 1 9) := by decide

/-- A branch on a predicate (R224: opcode 0x08, bits [26:25] = 1, inverted in bit 24, p7 in bits [23:21]), an integer comparison (R218: fn 0x021,
p5), a call, a store of a byte (R227: fn bit 10, offset 3) and a relation of times (R242: BEF). -/
theorem test_words_by_field :
    decodeWord x7 0b00100011111000001111111111111111#32 = some (.br x7 (some (7, true)) 0xFFFF) ∧
    decodeWord x7 0b00000000101000010001000000100001#32 = some (.cmplt x7 5 1 2) ∧
    decodeWord x7 0b00011011111000000000000000010000#32 = some (.call x7 31 16) ∧
    decodeWord x7 0b01110100001000100000010000000011#32 = some (.stb x7 1 2 3) := by decide

/-- A word with a bit set that its encoding marks zero, an opcode and a function that no row has (R214). -/
theorem test_words_illegal :
    decodeWord x7 0x00000003#32 = some (.or x7 0 0 0) ∧ decodeWord x7 0x0000080A#32 = none ∧ decodeWord x7 0x3C000000#32 = none ∧
    decodeWord x7 0x00000015#32 = none ∧ decodeWord x7 0xFBFFFFFF#32 = none := by decide

/-! ### Numbers of the spec's worked examples -/

/-- "Worked example: encoding a short sequence": the chain gives 100.0, FMUL 10,000.0 and FCVT 10,000. -/
theorem test_short_sequence :
    fxConcat [0x101640, 0] 16 0 = (64, 0x4059000000000000) ∧
    fMul .rne 0x4059000000000000 0x4059000000000000 = 0x40C3880000000000 ∧ fF2I .rtz 0x40C3880000000000 = 10000 := by decide

/-- "Worked example: across the wrap" (R51). -/
theorem test_across_the_wrap : htDiff 0x400 0xFFFFFFFFFFFFFF00 = 0x500 ∧ after 0x400 0xFFFFFFFFFFFFFF00 = true := by decide

/-- "Worked example: calendar across the wrap" (R56). -/
theorem test_calendar_across_the_wrap :
    calendarOf 0xFFFFFFFFFFF00000 1930000000 999995000 0 0x100080 = (1930000001, 3192) := by decide

/-- "Worked example" of 04_interval_measurement.md: the edges of R81 and the fraction of raw code 2. -/
theorem test_tdc_calibration :
    ((calEdges (2 ^ 20) [5100, 5420, 4980, 5300]).take 5) = [0, 319, 658, 969, 1300] ∧
    ({ edges := [(0, [0, 319, 658, 969, 1300])] } : TdcUnit).frac 0 2 = 3 := by decide

/-- "Worked example" of 06_time_transfer.md (R133): path 3,994.5 hu and an offset of +80 hu. -/
theorem test_exchange :
    exchange 1000 5080 205080 208990 768 (-512) 1280 = (1022592, 20480) := by decide

/-- The MW example of 02_register_behaviour.md (R31), over a register's sixteen writable bits. -/
theorem test_masked_write : merged 0xF6 0x00050001 0x0005 = 0xF3 := by decide

/-- "Worked example: finding addresses" of 17_tsu_registers.md. -/
theorem test_tsu_addresses :
    addrOf .tsu .sysUnlock = 0x18 ∧ addrOf .tsu .prtCtrl 2 = 0x30800 ∧ addrOf .tsu .prtState 2 = 0x30808 ∧ addrOf .tsu .prtStat 2 = 0x30814 ∧
    addrOf .tsu .srvPOfs 2 = 0x20204 ∧ addrOf .tsu .wkCfg 100 = 0x81C80 ∧ addrOf .tsu .sysIrqEn 0 1 = 0x74 := by decide

/-- "Worked example: locating a die's port and a tile's memory" of 18_distributor_registers.md. -/
theorem test_distributor_addresses :
    addrOf .dist .prtState 77 = 0x1231A08 ∧ addrOf .dist .prtStat 77 = 0x1231A14 ∧ addrOf .dist .mbrNsel = 0x100010 ∧
    addrOf .dist .mbrNstate = 0x100014 := by decide

/-- "Worked example: a gradient norm from any order" of 13_combiner.md: the four elements in either order give FP64 2.0. -/
theorem test_gradient_norm :
    let sh := 0x10
    let a := elemOf sh 0 0x4B800000
    let b := elemOf sh 1 0x3F800000
    let c := elemOf sh 2 0xCB800000
    let d := elemOf sh 3 0x3F800000
    let whole := mergeElem sh (mergeElem sh a b) (mergeElem sh c d)
    elemWords sh (mergeElem sh a b) = [0x420, 0x0000200000200000] ∧
    elemWords sh (mergeElem sh c d) = [0x421, 0x00001FFFFFE00000] ∧
    whole = mergeElem sh (mergeElem sh (mergeElem sh d c) b) a ∧
    (elemResult sh 4 whole).1 = natLe 8 0x4000000000000000 := by decide +kernel

/-- "Worked example: a fault record" of 16_journal_lifetime.md: LD g6, 4(g5) at PC 3 of context 4 faults with MISALIGN and its record. -/
theorem test_fault_record :
    let s := (((ctxAt .tsu 4).setPc .tsu 4 3).setG .tsu 4 5 0x4059000000000000).wr .tsu .sysNode 0x2A31
    let r : Option JRec := match exec (.ld { eng := .tsu, ctx := 4 } 6 5 4) s with
      | .next t => t.tsu.jnl.recs.head?
      | _ => none
    r.map (fun x => (x.node, x.blk, x.ctx, x.ty, x.payload)) =
      some (0x2A31, 7, 4, 0x500, 0x000004070000000460C5000400000003#128) := by decide

/-! ### The step -/

/-- An empty queue: the distributor's hall time goes on by one edge, 256 hu at a zero rate adjustment (R50; log entry 24). -/
theorem test_idle : (match step State.reset with | .next t => t.ht .dist | _ => 0) = 0x100 := by decide

/-- The front of the queue is carried out and the rest waits. -/
theorem test_front :
    (match step { awake with pending := [.sysUnlock .dist dbg 0xC4D1, .fence] } with
     | .next t => decide (t.dist.unlocked = [.debug]) && decide (t.pending = [.fence])
     | _ => false) = true := by decide

/-- No word spells a command by the opcode table's bits. -/
theorem test_table_word : decodeTableWord 32 0 = none ∧ State.reset.withFetchWord 32 0 = State.reset := by decide

/-- A state that meets the hypotheses of EveryStepKeepsTheInvariant, with a command that changes it. -/
theorem meets_EveryStepKeepsTheInvariant :
    ∃ s t : State, Inv s ∧ step s = .next t ∧ t.pkg.pwrFlt = true := by
  refine ⟨{ State.reset with pending := [.supplyFault] }, _, ⟨by decide, by decide, fun e => ?_, by decide, by decide, by decide⟩, rfl, by decide⟩
  cases e with
  | tsu => decide
  | tile i => revert i; decide

end Sys2Proof.Tests
end

section
/-!
PROOFS. What the end of a loopback calibration leaves in the registers (R136, R149), and O14. The model writes SRV_LCAL_STAT as one word,
the number of exchanges counted added to DONE or FAIL. A count below 2^29 leaves those bits alone; O14 bounds the count from below only, and a
count of 2^30 carries into BUSY.
-/
namespace Sys2Proof.Machine

/-! ### A link unit and the registers -/

/-- A unit's own state holds no register word. -/
theorem State.rdA_setTdc (s : State) (p q : PartId) (i : Nat) (u : TdcUnit) (a : Nat) : (s.setTdc p i u).rdA q a = s.rdA q a :=
  s.rdA_mod p q _ a rfl

/-- An automatic start changes no register word but TDC_CALST of its unit (R81, R84). -/
theorem State.rdA_tdcAuto_other (s : State) {p q : PartId} {i a : Nat} (h : q ≠ p ∨ a ≠ addrOf p .tdcCalst i) :
    (s.tdcAuto p i).rdA q a = s.rdA q a := by
  unfold State.tdcAuto
  dsimp only
  split
  · rfl
  · split
    · exact s.rdA_setTdc p q i _ a
    · exact (State.rdA_setF_other _ .tdcCalst 31 31 1 i 0 h).trans (s.rdA_setTdc p q i _ a)

/-- Holding or releasing a unit changes no register word but TDC_CALST of the unit, whose waiting calibration may start (R84, R92). -/
theorem State.rdA_holdUnit_other (s : State) {p q : PartId} {i a : Nat} (h : q ≠ p ∨ a ≠ addrOf p .tdcCalst i) :
    (s.holdUnit p i).rdA q a = s.rdA q a := by
  unfold State.holdUnit
  dsimp only
  split
  · exact (State.rdA_tdcAuto_other _ h).trans ((State.rdA_setTdc _ p q i _ a).trans (s.rdA_setTdc p q i _ a))
  · exact s.rdA_setTdc p q i _ a

/-! ### The end of a loopback calibration -/

/-- The two words that the end of a calibration sets. -/
abbrev lcalResults : List RegName := [.srvLcalStat, .srvLcalAsym]

/-- Neither word is one that a journal record or the release of the tile's link unit writes. -/
theorem lcalResults_addrOf (ti : Fin 8) : ∀ r ∈ lcalResults, addrOf .dist r ti < 0x4000000 ∧ addrOf .dist r ti ≠ addrOf .dist .jnlLost ∧
    addrOf .dist r ti ≠ addrOf .dist .jnlStat ∧ addrOf .dist r ti ≠ addrOf .dist .tdcCalst (2 * ti + 1) := by
  revert ti; decide

theorem srvLcalStat_ne_srvLcalAsym (ti : Fin 8) : addrOf .dist .srvLcalStat ti ≠ addrOf .dist .srvLcalAsym ti := by
  revert ti; decide

theorem State.rd_wr_lcal_same (s : State) (ti : Fin 8) {r : RegName} (hr : r ∈ lcalResults) (v : Word) :
    (s.wr .dist r v ti).rd .dist r ti = v :=
  s.rd_wr_same .dist r v ti 0 (lcalResults_addrOf ti r hr).1

/-- The journal record and the release of the link unit, with which a calibration ends, leave its results alone. -/
theorem State.rd_lcal_jnl_holdUnit (s : State) (ti : Fin 8) {r : RegName} (hr : r ∈ lcalResults) (w : Who) (ty payload : Nat) :
    ((s.jnl w ty payload).holdUnit .dist (2 * ti.val + 1)).rd .dist r ti = s.rd .dist r ti := by
  obtain ⟨-, hlost, hstat, hcal⟩ := lcalResults_addrOf ti r hr
  exact (State.rdA_holdUnit_other _ (.inr hcal)).trans
    ((s.jnl_regs w ty payload .dist _).resolve_left fun h => h.2.elim hlost hstat)

section
variable {s : State} {ti : Fin 8} {n discarded : Nat} {sum : Int}

/-- What a calibration that has run its exchanges ends with: in SRV_LCAL_STAT the whole count with DONE or FAIL added to it, in SRV_LCAL_ASYM
twice the mean offset of the exchanges used, or the word as before when too many were discarded. -/
theorem rd_loopbackDone (hb : s.bt .dist .srvLcalStat 31 ti = true)
    (hz : mget (fun _ => (0, 0, 0)) s.dist.srv.lcal ti.val = (n, discarded, sum)) (hn : 4096 ≤ n) :
    (loopbackDone ti s).rd .dist .srvLcalStat ti = BitVec.ofNat 32 ((if 64 < discarded then 2 ^ 29 else 2 ^ 30) + n) ∧
    (loopbackDone ti s).rd .dist .srvLcalAsym ti =
      if 64 < discarded then s.rd .dist .srvLcalAsym ti else BitVec.ofInt 32 (satInt 32 (2 * sum / ((n - discarded : Nat) : Int))) := by
  have hrun : (!s.bt .dist .srvLcalStat 31 ti || decide (n < 4096)) = false := by simp [hb, hn]
  have hS : RegName.srvLcalStat ∈ lcalResults := by decide
  have hA : RegName.srvLcalAsym ∈ lcalResults := by decide
  have hne := srvLcalStat_ne_srvLcalAsym ti
  simp only [loopbackDone, hz, hrun, Bool.false_eq_true, if_false]
  split
  · rw [State.rd_lcal_jnl_holdUnit _ ti hS, State.rd_lcal_jnl_holdUnit _ ti hA]
    exact ⟨State.rd_wr_lcal_same _ ti hS _, State.rdA_wr_other _ _ _ _ _ (.inr hne.symm)⟩
  · rw [State.rd_lcal_jnl_holdUnit _ ti hS, State.rd_lcal_jnl_holdUnit _ ti hA]
    exact ⟨(State.rdA_wr_other _ _ _ _ _ (.inr hne)).trans (State.rd_wr_lcal_same _ ti hS _), State.rd_wr_lcal_same _ ti hA _⟩

/-- What O14 asks of the end of a calibration, true of every count that stays below the flags of SRV_LCAL_STAT. -/
theorem loopbackDone_of_count_lt (hb : s.bt .dist .srvLcalStat 31 ti = true)
    (hz : mget (fun _ => (0, 0, 0)) s.dist.srv.lcal ti.val = (n, discarded, sum)) (hn : 4096 ≤ n) (hlt : n < 2 ^ 29) :
    Completes (.loopbackCalibrationDone ti) s fun t =>
      t.bt .dist .srvLcalStat 31 ti = false ∧
      (if 64 < discarded then t.bt .dist .srvLcalStat 29 ti = true ∧ t.rd .dist .srvLcalAsym ti = s.rd .dist .srvLcalAsym ti
       else t.bt .dist .srvLcalStat 30 ti = true ∧
         t.rd .dist .srvLcalAsym ti = BitVec.ofInt 32 (satInt 32 (2 * sum / ((n - discarded : Nat) : Int)))) := by
  obtain ⟨hstat, hasym⟩ := rd_loopbackDone hb hz hn
  refine ⟨loopbackDone ti s, rfl, ?_⟩
  simp only [State.bt, hstat, hasym, BitVec.getLsbD_ofNat]
  have hflag (k : Nat) (hk : 29 ≤ k) : (2 ^ k + n).testBit k = true := by
    rw [Nat.testBit_two_pow_add_eq, Nat.testBit_lt_two_pow (hlt.trans_le (Nat.pow_le_pow_right (by decide) hk))]; rfl
  split
  · exact ⟨by rw [Nat.testBit_lt_two_pow (by omega)]; rfl, by rw [hflag 29 le_rfl]; rfl, rfl⟩
  · exact ⟨by rw [Nat.testBit_lt_two_pow (by omega)]; rfl, by rw [hflag 30 (by decide)]; rfl, rfl⟩

end

/-- Refutes O14: a loopback calibration of tile 7 that has counted 2^30 exchanges ends with BUSY still set. The counter of the model itself stops
at 4,096 (`State.loopCount`), which the last clause does not suppose: it bounds the count from below only. -/
theorem not_domainsDifferencesAndLoopback : ¬ Obligations.DomainsDifferencesAndLoopback := by
  unfold Obligations.DomainsDifferencesAndLoopback
  intro h
  obtain ⟨-, -, -, -, -, -, -, hdone⟩ := h
  have hb : ((State.reset.wr .dist .srvLcalStat 0x80000000 7).modSrv .dist
    fun w => { w with lcal := [(7, (2 ^ 30, 0, 0))] }).bt .dist .srvLcalStat 31 (7 : Fin 8) = true := by decide +kernel
  obtain ⟨t, ht, hclear, -⟩ := hdone 7 (2 ^ 30) 0 0 _ hb rfl (by decide)
  have hword := (rd_loopbackDone (n := 2 ^ 30) (discarded := 0) (sum := 0) hb rfl (by decide)).1
  obtain rfl : loopbackDone 7 _ = t := Host.Outcome.next.inj ht
  rw [State.bt, hword] at hclear
  exact absurd hclear (by decide)

end Sys2Proof.Machine
end

section
/-!
PROOFS. Register accesses: what the bookkeeping around an access leaves alone (its journal records, SYS_LASTERR and the response), and what a
read and a write of a located register come to (R8, R9, R23, R26, R38, R39, R42). O59 and O60.
-/
namespace Sys2Proof.Machine
set_option Elab.async false

/-! ### Bookkeeping: journal records, SYS_LASTERR and the response -/

/-- A part without its register words, its journal and its responses. -/
def Part.core (q : Part) : Part := { q with regs := [], jnl := {}, resp := [] }

/-- What of a part is neither register word nor journal nor response reads alike of parts that agree in the rest. -/
theorem Part.field_of_core {q r : Part} (h : q.core = r.core) {α : Type} (f : Part → α)
    (hf : ∀ x : Part, f x.core = f x := by intro _; rfl) : f q = f r := by
  rw [← hf, h, hf]

/-- The register words that the refusal of an access and its records write (R9, R26, R368). -/
def bookWords (p : PartId) (c : Cls) : List Nat := [addrOf p .sysLasterr 0 c.num, addrOf p .jnlLost, addrOf p .jnlStat]

/-- `t` is `s` but for the bookkeeping of an access of class `c` to part `p`. -/
structure Books (p : PartId) (c : Cls) (s t : State) : Prop where
  outside : OnlyParts s t
  regs : ∀ q a, (q = p ∧ a ∈ bookWords p c) ∨ t.rdA q a = s.rdA q a
  core : ∀ q, (t.part q).core = (s.part q).core

theorem Books.refl (p : PartId) (c : Cls) (s : State) : Books p c s s := ⟨.refl s, fun _ _ => .inr rfl, fun _ => rfl⟩

theorem Books.trans {p : PartId} {c : Cls} {s t u : State} (h : Books p c s t) (k : Books p c t u) : Books p c s u :=
  ⟨h.outside.trans k.outside, fun q a => (h.regs q a).elim .inl fun h1 => (k.regs q a).imp_right (·.trans h1),
    fun q => (k.core q).trans (h.core q)⟩

/-- Setting a register word changes nothing else of its part. -/
theorem State.core_wrA (s : State) (p q : PartId) (a : Nat) (v : Word) : ((s.wrA p a v).part q).core = (s.part q).core := by
  unfold State.wrA
  split
  · by_cases h : q = p
    · subst h; rw [s.part_mod_same]; rfl
    · rw [s.part_mod_other _ h]
  · rfl

theorem State.core_setF (s : State) (p q : PartId) (n : RegName) (hi lo v i j : Nat) :
    ((s.setF p n hi lo v i j).part q).core = (s.part q).core := s.core_wrA p q _ _

theorem State.core_tsu (s : State) (r : Part) (q : PartId) (h : r.core = s.tsu.core) :
    (({ s with tsu := r } : State).part q).core = (s.part q).core := by
  cases q
  · exact h
  · rfl

theorem State.core_dist (s : State) (r : Part) (q : PartId) (h : r.core = s.dist.core) :
    (({ s with dist := r } : State).part q).core = (s.part q).core := by
  cases q
  · rfl
  · exact h

theorem State.core_mod (s : State) (p q : PartId) (f : Part → Part) (h : (f (s.part p)).core = (s.part p).core) :
    ((s.mod p f).part q).core = (s.part q).core := by
  by_cases k : q = p
  · subst k; rw [s.part_mod_same, h]
  · rw [s.part_mod_other f k]

theorem State.core_pushRec (s : State) (w : Who) (h : HT) (ty payload : Nat) (q : PartId) :
    ((s.pushRec w h ty payload).part q).core = (s.part q).core := by
  unfold State.pushRec
  dsimp only
  split
  · exact (State.core_setF _ _ _ _ _ _ _ _ _).trans ((State.core_setF _ _ _ _ _ _ _ _ _).trans (s.core_tsu _ q rfl))
  · exact s.core_tsu _ q rfl

theorem State.core_flushLoss (s : State) (q : PartId) : (s.flushLoss.part q).core = (s.part q).core := by
  unfold State.flushLoss
  split
  · split
    · exact (State.core_pushRec _ _ _ _ _ q).trans (s.core_tsu _ q rfl)
    · rfl
  · rfl

theorem State.core_spillPump (s : State) (q : PartId) : (s.spillPump.part q).core = (s.part q).core := by
  unfold State.spillPump
  split
  · dsimp only
    split
    · exact (State.core_setF _ _ _ _ _ _ _ _ _).trans (s.core_tsu _ q rfl)
    · exact s.core_tsu _ q rfl
  · rfl

theorem State.core_pushRing (s : State) (tile : Nat) (r : JRec) (q : PartId) :
    ((s.pushRing tile r).part q).core = (s.part q).core := by
  unfold State.pushRing
  dsimp only
  split
  · exact (State.core_setF _ _ _ _ _ _ _ _ _).trans ((State.core_setF _ _ _ _ _ _ _ _ _).trans (s.core_dist _ q rfl))
  · exact s.core_dist _ q rfl

/-- A journal record changes nothing of a part but its journal and register words. -/
theorem State.core_jnlAt (s : State) (w : Who) (h : HT) (ty payload : Nat) (q : PartId) :
    ((s.jnlAt w h ty payload).part q).core = (s.part q).core := by
  unfold State.jnlAt
  split
  · rfl
  · split
    · exact (State.core_spillPump _ q).trans ((State.core_pushRec _ _ _ _ _ q).trans (s.core_flushLoss q))
    · exact (State.core_mod _ .dist q _ rfl).trans (s.core_pushRing _ _ q)

theorem State.jnlAt_books (s : State) (w : Who) (c : Cls) (h : HT) (ty payload : Nat) : Books w.p c s (s.jnlAt w h ty payload) :=
  ⟨s.jnlAt_onlyParts w h ty payload,
    fun q a => (s.jnlAt_regs w h ty payload q a).imp_left fun ⟨hq, ha⟩ => ⟨hq, by simp [bookWords, ha]⟩,
    fun q => s.core_jnlAt w h ty payload q⟩

theorem State.accessOutcome_books (s : State) (p : PartId) (c : Cls) (src : Src) (a : Nat) (k : Code) (late : Nat) :
    Books p c s (s.accessOutcome p src a k late) := s.jnlAt_books (whoReg p src a) c _ _ _

theorem State.cfgRec_books (s : State) (p : PartId) (c : Cls) (src : Src) (a : Nat) (old new : Word) (flags : Nat) (h : HT) (k : Code) :
    Books p c s (s.cfgRec p src a old new flags h k) := by
  unfold State.cfgRec
  dsimp only
  split
  · exact s.jnlAt_books { whoReg p src a with ctx := _ } c h _ _
  · exact s.jnlAt_books (whoReg p src a) c h _ _

/-- The response to a source class (R412, R429, R442) is no register word. -/
theorem State.resp_books (s : State) (p : PartId) (c : Cls) (k : Nat) (x : Nat × Word) :
    Books p c s (s.mod p fun q => { q with resp := mset (fun _ => (0, 0)) q.resp k x }) :=
  ⟨s.mod_onlyParts p _, fun q a => .inr (s.rdA_mod p q _ a rfl), fun q => s.core_mod p q _ rfl⟩

theorem State.lasterr_books (s : State) (p : PartId) (c : Cls) (v : Word) : Books p c s (s.wr p .sysLasterr v 0 c.num) := by
  refine ⟨s.wr_onlyParts p _ v 0 _, fun q a => ?_, fun q => s.core_wrA p q _ v⟩
  by_cases h : q = p ∧ a = addrOf p .sysLasterr 0 c.num
  · exact .inl ⟨h.1, by simp [bookWords, h.2]⟩
  · exact .inr (s.rdA_wr_other _ v 0 _ (by tauto))

theorem State.respond_books (s : State) (p : PartId) (src : Src) (a : Nat) (k : Code) (d : Word) :
    Books p src.cls s (s.respond p src a k d) := by
  unfold State.respond
  have h1 : Books p src.cls s (if k = .ok then s else s.wr p .sysLasterr (BitVec.ofNat 32 (2 ^ 8 * wordOff a + k.num)) 0 src.cls.num) := by
    split
    · exact .refl p _ s
    · exact s.lasterr_books p _ _
  dsimp only
  split
  · exact h1
  · exact h1.trans (State.resp_books _ p _ _ _)

/-! ### What the two accesses come to -/

/-- The state in which a write that is no _N write of an open guarded operation meets its target, but for the record of a guarded operation
that it ends (R38, R39). -/
def State.opened (s : State) (p : PartId) (src : Src) : State :=
  s.mod p fun q => { q with unlocked := q.unlocked.filter (· ≠ src.cls), guard := none }

/-- The class's unlock used up (R39). -/
def State.locked (s : State) (p : PartId) (src : Src) : State :=
  s.mod p fun q => { q with unlocked := q.unlocked.filter (· ≠ src.cls) }

theorem State.mod_mod (s : State) (p : PartId) (f g : Part → Part) : (s.mod p f).mod p g = s.mod p fun q => g (f q) := by
  cases p <;> rfl

theorem State.cancelGuard_books (s : State) (p : PartId) (c : Cls) :
    Books p c (s.mod p fun q => { q with guard := none }) (s.cancelGuard p) := by
  unfold State.cancelGuard
  split
  · next h =>
    have : (s.mod p fun q => { q with guard := none }) = s := by
      rw [State.mod]
      conv_rhs => rw [← s.setPart_part p]
      rw [← h]
    rw [this]
    exact .refl p c s
  · exact State.accessOutcome_books _ p c _ _ _ _

theorem State.locked_cancelGuard_books (s : State) (p : PartId) (src : Src) (c : Cls) :
    Books p c (s.opened p src) ((s.locked p src).cancelGuard p) := by
  have h := (s.locked p src).cancelGuard_books p c
  rwa [State.locked, State.mod_mod] at h

/-- Window, alignment and target of an access: the code before the target is asked (R8). -/
theorem State.permits_locked (s : State) (p : PartId) (src : Src) (b : Option Nat) (w : Bool) :
    (s.locked p src).permits p src b w = s.permits p src b w := by
  unfold State.permits State.rd State.locked
  cases b <;> simp only [s.rdA_mod p p (fun q => { q with unlocked := q.unlocked.filter (· ≠ src.cls) }) _ rfl]

theorem State.accessCode_locked (s : State) (p : PartId) (src : Src) (t : Target) (a : Nat) (whole w : Bool) :
    (s.locked p src).accessCode p src t a whole w = s.accessCode p src t a whole w := by
  unfold State.accessCode
  rw [s.permits_locked]

theorem State.accessCode_refused {s : State} {p : PartId} {src : Src} {t : Target} (h : s.permits p src (blockOfTarget t) w = false)
    (a : Nat) (whole : Bool) : s.accessCode p src t a whole w = .perm := by
  simp [State.accessCode, firstFail, h]

theorem State.accessCode_misaligned {s : State} {p : PartId} {src : Src} {t : Target} {a : Nat} {whole : Bool}
    (h : s.permits p src (blockOfTarget t) w = true) (hw : whole = false ∨ a % 4 ≠ 0) : s.accessCode p src t a whole w = .range := by
  have hb : badAccess t a whole = true := by
    obtain rfl | hw := hw <;> simp [badAccess, *]
  simp [State.accessCode, firstFail, h, hb]

theorem State.accessCode_reg {s : State} {p : PartId} {src : Src} {l : Loc} {a : Nat}
    (h : s.permits p src (blockOfTarget (.reg l)) w = true) (ha : a % 4 = 0) : s.accessCode p src (.reg l) a true w = .ok := by
  simp [State.accessCode, firstFail, h, ha, badAccess]

/-- A read whose access is refused answers with the refusal and reads zero; only its bookkeeping shows it. -/
theorem State.regRead_refused {s : State} {p : PartId} {src : Src} {a : Nat} {whole : Bool} {c : Code}
    (hc : s.accessCode p src (locate p (a / 4 * 4)) a whole false = c) (hne : c ≠ .ok) :
    (s.regRead p src a whole).1 = c ∧ (s.regRead p src a whole).2.1 = 0 ∧ Books p src.cls s (s.regRead p src a whole).2.2 := by
  unfold State.regRead
  simp only [hc, hne, ne_eq, not_false_eq_true, if_true, if_false, true_and]
  exact (s.accessOutcome_books p _ src a c 0).trans (State.respond_books _ p src a c 0)

/-- A read of a located register answers what the register gives, and books the access. -/
theorem State.regRead_reg {s : State} {p : PartId} {src : Src} {a : Nat} {l : Loc} (hl : locate p a = .reg l) (ha : a % 4 = 0)
    (hp : s.permits p src (blockOfTarget (.reg l)) false = true) :
    (s.regRead p src a true).1 = (s.readReg p src l).1 ∧ (s.regRead p src a true).2.1 = (s.readReg p src l).2.1 ∧
      Books p src.cls (s.readReg p src l).2.2 (s.regRead p src a true).2.2 := by
  have haa : a / 4 * 4 = a := by omega
  unfold State.regRead
  simp only [haa, hl, State.accessCode_reg hp ha, ne_eq, not_true_eq_false, if_false, State.readTarget, true_and]
  split
  · exact State.respond_books _ p src a _ _
  · exact (State.accessOutcome_books _ p _ src a _ 0).trans (State.respond_books _ p src a _ _)

/-- What follows a write's effect: the configuration record of an accepted write, the record of an outcome other than OK, and the response. -/
def WRes.booked (r : WRes) (p : PartId) (src : Src) (a ra : Nat) (h : HT) : State :=
  let s3 := match r.cfg with
    | some (old, new) => if r.code == Code.ok || r.code == Code.late then r.s.cfgRec p src ra old new r.flags h r.code else r.s
    | none => r.s
  (if r.code == Code.ok || r.quiet then s3 else s3.accessOutcome p src a r.code r.late).respond p src a r.code 0

theorem WRes.booked_books (r : WRes) (p : PartId) (src : Src) (a ra : Nat) (h : HT) :
    Books p src.cls r.s (r.booked p src a ra h) := by
  refine Books.trans ?_ (State.respond_books _ p src a r.code 0)
  have hcfg : Books p src.cls r.s (match r.cfg with
      | some (old, new) => if r.code == Code.ok || r.code == Code.late then r.s.cfgRec p src ra old new r.flags h r.code else r.s
      | none => r.s) := by
    split
    · split
      · exact State.cfgRec_books _ p _ src ra _ _ _ h _
      · exact .refl p _ _
    · exact .refl p _ _
  split
  · exact hcfg
  · exact hcfg.trans (State.accessOutcome_books _ p _ src a _ _)

/-- A write whose access is refused answers with the refusal and, apart from the unlock and an open guarded operation, shows only in its
bookkeeping. -/
theorem State.regWrite_refused {s : State} {p : PartId} {src : Src} {a : Nat} {whole : Bool} {c : Code} (v : Word)
    (hc : s.accessCode p src (locate p (a / 4 * 4)) a whole true = c) (hne : c ≠ .ok) :
    (s.regWrite p src a v whole).1 = c ∧ Books p src.cls (s.opened p src) (s.regWrite p src a v whole).2 := by
  have hc' := (s.accessCode_locked p src (locate p (a / 4 * 4)) a whole true).trans hc
  unfold State.regWrite
  rw [State.locked] at hc'
  simp only [hc', ne_eq, hne, not_false_eq_true, if_true]
  exact ⟨rfl, (s.locked_cancelGuard_books p src _).trans ((WRes.fail c _).booked_books p src a a (s.ht p))⟩

/-- A write of a located register that is not the _N write of the open guarded operation: the register's own effect, in the bookkeeping of the
access. -/
theorem State.regWrite_reg {s : State} {p : PartId} {src : Src} {a : Nat} {l : Loc} (v : Word) (hl : locate p a = .reg l) (ha : a % 4 = 0)
    (hp : s.permits p src (blockOfTarget (.reg l)) true = true) (hm : guardedOf l.name = none) :
    ∃ u, Books p src.cls (s.opened p src) u ∧
      (s.regWrite p src a v true).1 = (u.writeReg p src l v ((s.part p).unlocked.contains src.cls)).code ∧
      Books p src.cls (u.writeReg p src l v ((s.part p).unlocked.contains src.cls)).s (s.regWrite p src a v true).2 := by
  have haa : a / 4 * 4 = a := by omega
  have hc' := (s.accessCode_locked p src (.reg l) a true true).trans (State.accessCode_reg hp ha)
  have hmate : (s.locked p src).isMate p (.reg l) = false := by
    unfold State.isMate
    split <;> simp_all
  refine ⟨_, s.locked_cancelGuard_books p src _, ?_⟩
  unfold State.regWrite
  rw [State.locked] at hc' hmate
  simp only [haa, hl, hc', hmate, decide_true, Bool.and_false, Bool.false_eq_true, if_false, ne_eq, not_true_eq_false, State.writeTarget]
  exact ⟨rfl, WRes.booked_books _ p src a a (s.ht p)⟩

end Sys2Proof.Machine
end

section
/-!
PROOFS. Refused accesses (O59), and read-only and write-only registers (O60). What a write-only register reads as, and what a write of a
read-only register leaves, hold in every state; O60 asks for more, that no register at all changes with a write of a read-only register,
and the record of a guarded operation which that write ends (R38) can change JNL_STAT.
-/
namespace Sys2Proof.Machine
set_option Elab.async false

/-! ### Refused accesses -/

theorem State.rdA_opened (s : State) (p q : PartId) (src : Src) (a : Nat) : (s.opened p src).rdA q a = s.rdA q a :=
  s.rdA_mod p q _ a rfl

theorem State.opened_onlyParts (s : State) (p : PartId) (src : Src) : OnlyParts s (s.opened p src) := s.mod_onlyParts p _

/-- Bookkeeping is no effect. -/
theorem Books.noEffect {p : PartId} {c : Cls} {s t : State} (h : Books p c s t) : NoEffect p c s t :=
  ⟨h.outside, fun q a => (h.regs q a).imp_left fun ⟨hq, ha⟩ => ⟨hq, by simpa [bookWords] using ha⟩⟩

/-- Nor is the bookkeeping of a write that uses up the unlock and ends a guarded operation. -/
theorem Books.noEffect_opened {p : PartId} {src : Src} {s t : State} (h : Books p src.cls (s.opened p src) t) : NoEffect p src.cls s t :=
  ⟨(s.opened_onlyParts p src).trans h.outside, fun q a => (h.noEffect.2 q a).imp_right (·.trans (s.rdA_opened p q src a))⟩

/-- Groups start at word boundaries. -/
theorem grpBase_aligned (p : PartId) (g : Grp) (i b : Nat) (h : grpBase p g i = some b) : b % 4 = 0 := by
  cases p <;> cases g <;> simp only [grpBase, tileBase, Option.ite_none_right_eq_some, Option.some.injEq, reduceCtorEq] at h <;> omega

/-- Registers lie at word offsets of their group, as do the members of an array. -/
theorem row_aligned (n : RegName) : (row n).off % 4 = 0 ∧ (row n).stride % 4 = 0 := by
  cases n <;> decide

/-- Every register sits on a word boundary (R23). -/
theorem addrOf_aligned (p : PartId) (n : RegName) (i j : Nat) : addrOf p n i j % 4 = 0 := by
  obtain ⟨hoff, hstride⟩ := row_aligned n
  unfold addrOf
  split
  · next b hb =>
    have := grpBase_aligned p _ i b hb
    have : (row n).stride * j % 4 = 0 := by rw [Nat.mul_mod, hstride, Nat.zero_mul]
    omega
  · rfl

theorem proWin_reset (p : PartId) (c : Cls) :
    State.reset.rd p .proWinRd 0 c.num = 0xFFFFFFFF ∧ State.reset.rd p .proWinWr 0 c.num = 0xFFFFFFFF := by
  cases p <;> cases c <;> decide

/-- Settles O59: an access that its window or its alignment refuses leaves only its bookkeeping. -/
theorem refusedAccessesHaveNoEffect : Obligations.RefusedAccessesHaveNoEffect := by
  unfold Obligations.RefusedAccessesHaveNoEffect
  have hread {p : PartId} {src : Src} {a : Nat} {whole : Bool} {c : Code} {s : State}
      (hc : s.accessCode p src (locate p (a / 4 * 4)) a whole false = c) (hne : c ≠ .ok) :
      (s.regRead p src a whole).1 = c ∧ (s.regRead p src a whole).2.1 = 0 ∧ NoEffect p src.cls s (s.regRead p src a whole).2.2 :=
    (State.regRead_refused hc hne).imp_right fun h => h.imp_right Books.noEffect
  have hwrite {p : PartId} {src : Src} {a : Nat} {v : Word} {whole : Bool} {c : Code} {s : State}
      (hc : s.accessCode p src (locate p (a / 4 * 4)) a whole true = c) (hne : c ≠ .ok) :
      (s.regWrite p src a v whole).1 = c ∧ NoEffect p src.cls s (s.regWrite p src a v whole).2 :=
    (State.regWrite_refused v hc hne).imp_right Books.noEffect_opened
  refine ⟨fun p src a b v whole s hb => ⟨fun h => ?_, fun h => ?_⟩, fun p src a v whole s hw => ⟨fun h => ?_, fun h => ?_⟩,
    proWin_reset, addrOf_aligned⟩
  · exact hread (State.accessCode_refused (by rw [hb]; exact h) a whole) (by decide)
  · exact hwrite (State.accessCode_refused (by rw [hb]; exact h) a whole) (by decide)
  · exact ⟨(hread (State.accessCode_misaligned h hw) (by decide)).1, (hread (State.accessCode_misaligned h hw) (by decide)).2.2⟩
  · exact hwrite (State.accessCode_misaligned h hw) (by decide)

/-! ### Read-only and write-only registers -/

/-- A read-only register is no half of a writable or guarded pair. -/
theorem ro_unpaired {n : RegName} (h : (row n).acc = .ro) : pairLo n = none ∧ pairHi n = none ∧ guardedOf n = none ∧ n ≠ .lifCtrl := by
  revert h; cases n <;> decide

/-- A write of a read-only register does nothing (R28). -/
theorem State.writeReg_ro (s : State) (p : PartId) (src : Src) {l : Loc} (v : Word) (had : Bool) (h : (row l.name).acc = .ro) :
    s.writeReg p src l v had = { s := s } := by
  obtain ⟨hlo, hhi, -, hlif⟩ := ro_unpaired h
  unfold State.writeReg
  simp [hlo, hhi, hlif, h]

/-- A write-only register has no read of its own. -/
theorem wo_read {n : RegName} (h : (row n).acc = .wo) :
    n ≠ .cmbRstat ∧ n ≠ .tdcRstat ∧ n ≠ .mbrJevt ∧ n ≠ .kprIdata ∧ n ≠ .jnlIdata ∧ n ≠ .lifIdata := by
  revert h; cases n <;> decide

/-- A write-only register reads zero, and the read does nothing (R28). -/
theorem State.readReg_wo (s : State) (p : PartId) (src : Src) {l : Loc} (h : (row l.name).acc = .wo) :
    s.readReg p src l = (.ok, 0, s) := by
  obtain ⟨h1, h2, h3, h4, h5, h6⟩ := wo_read h
  have hv : s.regView p src l = 0 := by simp [State.regView, h]
  unfold State.readReg
  split <;> simp_all

/-- A write of a read-only register that its window permits ends with OK and leaves its bookkeeping alone (R28). -/
theorem State.regWrite_ro {s : State} {p : PartId} {src : Src} {a : Nat} {l : Loc} (v : Word) (ha : a % 4 = 0) (hl : locate p a = .reg l)
    (hacc : (row l.name).acc = .ro) (hp : s.permits p src (blockOfTarget (.reg l)) true = true) :
    (s.regWrite p src a v true).1 = .ok ∧ Books p src.cls (s.opened p src) (s.regWrite p src a v true).2 := by
  obtain ⟨u, hu, hcode, ht⟩ := State.regWrite_reg v hl ha hp (ro_unpaired hacc).2.2.1
  rw [State.writeReg_ro _ _ _ _ _ hacc] at hcode ht
  exact ⟨hcode, hu.trans ht⟩

/-- A read of a write-only register that its window permits ends with OK and returns zero (R28). -/
theorem State.regRead_wo {s : State} {p : PartId} {src : Src} {a : Nat} {l : Loc} (ha : a % 4 = 0) (hl : locate p a = .reg l)
    (hacc : (row l.name).acc = .wo) (hp : s.permits p src (blockOfTarget (.reg l)) false = true) :
    (s.regRead p src a true).1 = .ok ∧ (s.regRead p src a true).2.1 = 0 := by
  obtain ⟨hcode, hdata, -⟩ := State.regRead_reg hl ha hp
  rw [State.readReg_wo _ _ _ hacc] at hcode hdata
  exact ⟨hcode, hdata⟩

/-- A TSU that is not wiping, whose host ring of 128 records is full with records the host has not read, and in which an HT set waits for its
_N write. -/
def hostFullGuardOpen : State :=
  ((State.reset.wr .tsu .sysLifecycle 0).wr .tsu .jnlSpillCtrl 1).mod .tsu fun q => { q with
    jnl := { count := 128, nextSpill := 128, spillWr := 128 }
    guard := some ⟨addrOf .tsu .tbsHtsetHi, 0, { cls := .host }⟩ }

/-- Refutes O60: a write of SYS_ID ends the guarded operation that waits, the record of that (R38) finds the host ring full, and JNL_STAT rises
(R367). -/
theorem not_readOnlyAndWriteOnlyRegisters : ¬ Obligations.ReadOnlyAndWriteOnlyRegisters := by
  unfold Obligations.ReadOnlyAndWriteOnlyRegisters
  intro h
  obtain ⟨hro, -⟩ := h .tsu { cls := .host } (addrOf .tsu .sysId) 0 ⟨.sysId, 0, 0, false⟩ hostFullGuardOpen (by decide) (by decide)
  obtain ⟨-, -, hregs⟩ := hro rfl (by decide +kernel)
  exact absurd (hregs .tsu (addrOf .tsu .jnlStat)) (by decide +kernel)

end Sys2Proof.Machine
end

section
/-!
PROOFS. The registers of the blocks that both parts have: their addresses, and an access to one of them. Register writes by access type (O1),
and reads that clear or move on (O2).
-/
namespace Sys2Proof.Machine
set_option Elab.async false

/-! ### Registers that both parts have once -/

/-- The registers of both parts that the statements on register access name, apart from those that bookkeeping writes. -/
def plainRegs : List RegName :=
  [.sysId, .sysNode, .sysBoot, .sysSeal, .sysUnlock, .sysLifecycle, .sysLcreq, .sysUpdate, .sysUpdMask, .sysUpdAtLo, .sysUpdAtHi, .sysUpdCancel,
   .tbsHtsetLo, .tbsHtsetHi, .tbsHtsetHiN, .tbsHoldMax, .tbsStat, .lifIaddr, .lifIdata]

/-- The located register of a name of which a part has one. -/
abbrev Loc.one (n : RegName) : Loc := ⟨n, 0, 0, false⟩

theorem locate_plain (p : PartId) {n : RegName} (hn : n ∈ plainRegs) : locate p (addrOf p n) = .reg (.one n) := by
  revert n; cases p <;> decide

theorem addrOf_plain_lt (p : PartId) {n : RegName} (hn : n ∈ plainRegs) : addrOf p n < 0x4000000 := by
  revert n; cases p <;> decide

theorem addrOf_plain_not_book (p : PartId) (c : Cls) {n : RegName} (hn : n ∈ plainRegs) : addrOf p n ∉ bookWords p c := by
  revert n; cases p <;> cases c <;> decide

theorem Books.rdA {p : PartId} {c : Cls} {s t : State} (h : Books p c s t) {a : Nat} (ha : a ∉ bookWords p c) (q : PartId) :
    t.rdA q a = s.rdA q a := (h.regs q a).resolve_left fun k => ha k.2

theorem Books.rd {p : PartId} {c : Cls} {s t : State} (h : Books p c s t) {n : RegName} (hn : n ∈ plainRegs) : t.rd p n = s.rd p n :=
  h.rdA (addrOf_plain_not_book p c hn) p

/-- What of a part no bookkeeping touches reads alike before and after. -/
theorem Books.field {p : PartId} {c : Cls} {s t : State} (h : Books p c s t) (q : PartId) {α : Type} (f : Part → α)
    (hf : ∀ r : Part, f r.core = f r := by intro _; rfl) : f (t.part q) = f (s.part q) := Part.field_of_core (h.core q) f hf

theorem State.rd_opened (s : State) (p : PartId) (src : Src) (n : RegName) : (s.opened p src).rd p n = s.rd p n :=
  s.rdA_opened p p src _

theorem State.part_opened (s : State) (p : PartId) (src : Src) :
    (s.opened p src).part p = { s.part p with unlocked := (s.part p).unlocked.filter (· ≠ src.cls), guard := none } :=
  s.part_mod_same p _

/-- A 26-bit address holds the address of a register. -/
theorem toNat_addr_plain (p : PartId) {n : RegName} (hn : n ∈ plainRegs) : (BitVec.ofNat 26 (addrOf p n)).toNat = addrOf p n := by
  rw [BitVec.toNat_ofNat, Nat.mod_eq_of_lt (addrOf_plain_lt p hn)]

/-- The access to a register that both parts have and that is no _N register: `u` is what its effect meets, and the rest is bookkeeping. -/
structure WritesPlain (p : PartId) (src : Src) (n : RegName) (v : Word) (s u t : State) : Prop where
  before : Books p src.cls (s.opened p src) u
  after : Books p src.cls (u.writeReg p src (.one n) v ((s.part p).unlocked.contains src.cls)).s t

theorem State.writeAt_plain {s : State} {p : PartId} {src : Src} (n : RegName) (v : Word)
    (hp : s.permits p src (some (blkOf (row n).grp)) true = true) (hn : n ∈ plainRegs := by decide) (hg : guardedOf n = none := by rfl) :
    ∃ u, WritesPlain p src n v s u (s.writeAt p src n 0 0 v) := by
  obtain ⟨u, hu, -, ht⟩ := State.regWrite_reg v (locate_plain p hn) (addrOf_aligned p n 0 0) hp hg
  exact ⟨u, hu, ht⟩

section
variable {p : PartId} {src : Src} {n : RegName} {v : Word} {s u t : State}

/-- What the effect of a write meets: the registers as they were, -/
theorem WritesPlain.rd (h : WritesPlain p src n v s u t) {m : RegName} (hm : m ∈ plainRegs := by decide) : u.rd p m = s.rd p m :=
  (h.before.rd hm).trans (s.rd_opened p src m)

/-- and whatever of the part is neither bookkeeping nor a lock nor a guard. -/
theorem WritesPlain.field (h : WritesPlain p src n v s u t) {α : Type} (f : Part → α) (hf : ∀ r : Part, f r.core = f r := by intro _; rfl)
    (ho : ∀ r : Part, f { r with unlocked := r.unlocked.filter (· ≠ src.cls), guard := none } = f r := by intro _; rfl) :
    f (u.part p) = f (s.part p) := by
  rw [h.before.field p f hf, s.part_opened, ho]

end

/-! ### Writes by access type (O1) -/

theorem merged_all (old v : Word) : merged old v 0xFFFFFFFF = v := by
  unfold merged
  rw [show BitVec.ofNat 32 0xFFFFFFFF = BitVec.allOnes 32 from rfl, BitVec.not_allOnes, BitVec.and_zero, BitVec.and_allOnes, BitVec.zero_or]

/-- A key reads as the value set, whatever the default elsewhere. -/
theorem mget_mset_default {α : Type} [DecidableEq α] {d d' : Nat → α} {k : Nat} (h : d' k = d k) (m : List (Nat × α)) (v : α) :
    mget d' (mset d m k v) k = v := by
  unfold mset
  split
  · next hv => rw [mget_filter_same, h, hv]
  · exact mget_mput_same _ m k v

/-- A pending copy after a write to it. -/
theorem State.pendA_setPend (s : State) (p : PartId) (a : Nat) (v : Word) : (s.setPend p a v).pendA p a = v := by
  have hr : (s.setPend p a v).rdA p a = s.rdA p a := s.rdA_mod p p _ a rfl
  unfold State.pendA
  rw [show ((s.setPend p a v).part p).pend = mset (fun k => s.rdA p k) (s.part p).pend a v by rw [State.setPend, s.part_mod_same]]
  exact mget_mset_default hr _ v

/-- What a pending copy reads as turns on the pending list and the active copy alone. -/
theorem State.pendA_congr {s t : State} {p : PartId} {a : Nat} (hp : (t.part p).pend = (s.part p).pend) (hr : t.rdA p a = s.rdA p a) :
    t.pendA p a = s.pendA p a := by
  unfold State.pendA
  rw [hp]
  induction (s.part p).pend with
  | nil => exact hr
  | cons kv m ih => simp only [mget, ih]

/-- What a class has staged turns on the part's staging words alone. -/
theorem State.staged_congr {s t : State} {p : PartId} (h : (t.part p).stage = (s.part p).stage) (src : Src) (a : Nat) (cur : Word) :
    t.staged p src a cur = s.staged p src a cur := by
  unfold State.staged
  rw [h]

theorem State.staged_setStage (s : State) (p : PartId) (src : Src) (a : Nat) (v cur : Word) :
    (s.setStage p src a (some v)).staged p src a cur = v := by
  unfold State.staged State.setStage
  rw [s.part_mod_same, mget_mset_same]
  rfl

theorem State.rdA_setStage (s : State) (p q : PartId) (src : Src) (a : Nat) (v : Option Word) (b : Nat) :
    (s.setStage p src a v).rdA q b = s.rdA q b := s.rdA_mod p q _ b rfl

theorem State.rdA_setPend (s : State) (p q : PartId) (a : Nat) (v : Word) (b : Nat) : (s.setPend p a v).rdA q b = s.rdA q b :=
  s.rdA_mod p q _ b rfl

/-- RW: the register reads back the value. -/
theorem State.writeAt_updMask {s : State} {p : PartId} {src : Src} (v : Word) (hp : s.permits p src (some 0) true = true) :
    (s.writeAt p src .sysUpdMask 0 0 v).rd p .sysUpdMask = v := by
  obtain ⟨u, h⟩ := State.writeAt_plain .sysUpdMask v hp
  have heff (had : Bool) : (u.writeReg p src (.one .sysUpdMask) v had).s =
      u.wr p .sysUpdMask (merged (u.rd p .sysUpdMask) v 0xFFFFFFFF) := by cases p <;> rfl
  have hafter := h.after
  rw [heff, merged_all] at hafter
  rw [hafter.rd (by decide)]
  exact u.rd_wr_same p .sysUpdMask v 0 0 (addrOf_plain_lt p (by decide))

/-- BW: the pending copy takes the writable bits and the active copy stays. -/
theorem State.writeAt_holdMax {s : State} {p : PartId} {src : Src} (v : Word) (hp : s.permits p src (some 1) true = true) :
    (s.writeAt p src .tbsHoldMax 0 0 v).rd p .tbsHoldMax = s.rd p .tbsHoldMax ∧
      (s.writeAt p src .tbsHoldMax 0 0 v).pendA p (addrOf p .tbsHoldMax) = merged (s.pendA p (addrOf p .tbsHoldMax)) v 0xFFFF := by
  obtain ⟨u, h⟩ := State.writeAt_plain .tbsHoldMax v hp
  have heff (had : Bool) : (u.writeReg p src (.one .tbsHoldMax) v had).s =
      u.setPend p (addrOf p .tbsHoldMax) (merged (u.pendA p (addrOf p .tbsHoldMax)) v 0xFFFF) := by cases p <;> rfl
  have hafter := h.after
  rw [heff] at hafter
  have hrd := hafter.rd (n := .tbsHoldMax) (by decide)
  refine ⟨hrd.trans ((u.rdA_setPend p p _ _ _).trans h.rd), ?_⟩
  rw [State.pendA_congr (hafter.field p Part.pend) hrd, State.pendA_setPend, State.pendA_congr (h.field Part.pend) h.rd]

/-- The *_LO of a writable pair: staged for the class, and no other effect. -/
theorem State.writeAt_updAtLo {s : State} {p : PartId} {src : Src} (v : Word) (hp : s.permits p src (some 0) true = true) :
    (s.writeAt p src .sysUpdAtLo 0 0 v).staged p src (addrOf p .sysUpdAtLo) 0 = v ∧
      (s.writeAt p src .sysUpdAtLo 0 0 v).rd p .sysUpdAtLo = s.rd p .sysUpdAtLo ∧
      ((s.writeAt p src .sysUpdAtLo 0 0 v).part p).strobes = (s.part p).strobes := by
  obtain ⟨u, h⟩ := State.writeAt_plain .sysUpdAtLo v hp
  have heff (had : Bool) : (u.writeReg p src (.one .sysUpdAtLo) v had).s = u.setStage p src (addrOf p .sysUpdAtLo) (some v) := by
    cases p <;> rfl
  have hafter := h.after
  rw [heff] at hafter
  have hstrobes : ((u.setStage p src (addrOf p .sysUpdAtLo) (some v)).part p).strobes = (u.part p).strobes := by
    rw [State.setStage, u.part_mod_same]
  refine ⟨?_, (hafter.rd (by decide)).trans ((u.rdA_setStage p p _ _ _ _).trans h.rd),
    (hafter.field p Part.strobes).trans (hstrobes.trans (h.field Part.strobes))⟩
  rw [State.staged_congr (hafter.field p Part.stage), State.staged_setStage]

/-- Settles O1, by the register's own effect within the bookkeeping of the access. -/
theorem registerWritesTakeEffectByAccess : Obligations.RegisterWritesTakeEffectByAccess := by
  unfold Obligations.RegisterWritesTakeEffectByAccess
  have haddr (p : PartId) {n : RegName} (hn : n ∈ plainRegs) (src : Src) (v : Word) (s : State) :
      exec (.registerWrite p src (BitVec.ofNat 26 (addrOf p n)) v true) s = .next (s.writeAt p src n 0 0 v) :=
    congrArg (fun a => Host.Outcome.next (s.regWrite p src a v true).2) (toNat_addr_plain p hn)
  have haddrLo (p : PartId) (src : Src) (v : Word) (s : State) :
      exec (.stagingLoWrite p src (BitVec.ofNat 26 (addrOf p .sysUpdAtLo)) v) s = .next (s.writeAt p src .sysUpdAtLo 0 0 v) :=
    congrArg (fun a => Host.Outcome.next (s.regWrite p src a v true).2) (toNat_addr_plain p (by decide))
  refine ⟨fun p src v s hp => ⟨_, haddr p (by decide) src v s, State.writeAt_updMask v hp⟩,
    fun p src v s hp => ⟨_, haddr p (by decide) src v s, State.writeAt_holdMax v hp⟩,
    fun p src v s hp => ⟨_, haddr p (by decide) src v s, ?_⟩,
    fun p src v s hp => ⟨_, haddrLo p src v s, State.writeAt_updAtLo v hp⟩⟩
  obtain ⟨-, ht⟩ := State.regWrite_ro v (addrOf_aligned p .sysId 0 0) (locate_plain p (n := .sysId) (by decide)) rfl hp
  exact (ht.rd (by decide)).trans (s.rd_opened p src _)

end Sys2Proof.Machine
end

section
/-!
PROOFS. Reads that clear or move on: *_STAT registers, result channels, TDC results, job events (R29, R41, R79, R320), and O2.
-/
namespace Sys2Proof.Machine
set_option Elab.async false

/-- The response a source of a class other than ENGINE is left (R412, R429, R442). -/
theorem State.resp_respond (s : State) (p : PartId) {src : Src} (a : Nat) (c : Code) (d : Word) (h : src.cls ≠ .engine) :
    mget (fun _ => (0, 0)) ((s.respond p src a c d).part p).resp src.cls.num = (c.num, if c ≠ .ok then 0 else d) := by
  unfold State.respond
  simp only [h, if_false, State.part_mod_same, mget_mset_same]

/-- What a read responds. -/
theorem State.resp_regRead (s : State) (p : PartId) {src : Src} (a : Nat) (whole : Bool) (h : src.cls ≠ .engine) :
    mget (fun _ => (0, 0)) ((s.regRead p src a whole).2.2.part p).resp src.cls.num =
      ((s.regRead p src a whole).1.num, if (s.regRead p src a whole).1 ≠ .ok then 0 else (s.regRead p src a whole).2.1) :=
  State.resp_respond _ p a _ _ h

/-- A read of a located register whose own answer is OK: what the read leaves, but for its bookkeeping, and the response. -/
theorem State.readAt_reg {s : State} {p : PartId} {src : Src} {n : RegName} {i j : Nat} {d : Word} {t : State}
    (hl : locate p (addrOf p n i j) = .reg ⟨n, i, j, false⟩) (hp : s.permits p src (some (blkOf (row n).grp)) false = true)
    (hr : s.readReg p src ⟨n, i, j, false⟩ = (.ok, d, t)) :
    Books p src.cls t (s.readAt p src n i j) ∧
      (src.cls ≠ .engine → mget (fun _ => (0, 0)) ((s.readAt p src n i j).part p).resp src.cls.num = (0, d)) := by
  obtain ⟨hcode, hdata, ht⟩ := State.regRead_reg hl (addrOf_aligned p n i j) hp
  rw [hr] at hcode hdata ht
  refine ⟨ht, fun hc => ?_⟩
  rw [State.readAt, State.resp_regRead s p _ true hc, hcode, hdata]
  rfl

/-! ### A *_STAT register (R29) -/

/-- A read of TBS_STAT leaves it zero and answers with what it held. -/
theorem State.readAt_tbsStat {s : State} {p : PartId} {src : Src} (hc : src.cls ≠ .engine) (hp : s.permits p src (some 1) false = true) :
    (s.readAt p src .tbsStat 0 0).rd p .tbsStat = 0 ∧
      mget (fun _ => (0, 0)) ((s.readAt p src .tbsStat 0 0).part p).resp src.cls.num = (0, s.rd p .tbsStat) := by
  have hn : RegName.tbsStat ∈ plainRegs := by decide
  have hr : s.readReg p src (.one .tbsStat) = (.ok, s.rd p .tbsStat, s.wr p .tbsStat 0) := by cases p <;> rfl
  obtain ⟨ht, hresp⟩ := State.readAt_reg (locate_plain p hn) hp hr
  exact ⟨(ht.rd hn).trans (s.rd_wr_same p .tbsStat 0 0 0 (addrOf_plain_lt p hn)), hresp hc⟩

/-! ### A result channel (R41) -/

theorem locate_cmbRstat (c : Fin 16) : locate .tsu (addrOf .tsu .cmbRstat 0 c) = .reg ⟨.cmbRstat, 0, c, false⟩ := by
  revert c; decide

/-- What lies outside the two parts reads as before. -/
theorem OnlyParts.field {s t : State} (h : OnlyParts s t) {α : Type} (f : State → α)
    (hf : ∀ (x : State) (q r : Part), f { x with tsu := q, dist := r } = f x := by intros; rfl) : f t = f s :=
  (hf t s.tsu s.dist).symm.trans (congrArg f h)

theorem Books.chan {p : PartId} {c : Cls} {s t : State} (h : Books p c s t) (k : Nat) : t.chan k = s.chan k :=
  h.outside.field fun x => x.chan k

/-- A read of CMB_RSTATc with a result pending moves it into the window. -/
theorem State.readAt_cmbRstat {s : State} {src : Src} {c : Fin 16} {q : Nat} {bs : List Byte} (hp : s.permits .tsu src (some 9) false = true)
    (hpend : (s.chan c).pend = some (q, bs)) :
    (s.readAt .tsu src .cmbRstat 0 c).chan c = { winSeq := q, win := bs } := by
  have hr : s.rstatRead c = ((s.rstatRead c).1, s.setChan c { winSeq := q, win := bs }) := by
    unfold State.rstatRead
    simp only [hpend]
  have hread : s.readReg .tsu src ⟨.cmbRstat, 0, c, false⟩ = (.ok, (s.rstatRead c).1, s.setChan c { winSeq := q, win := bs }) :=
    congrArg (Prod.mk Code.ok) hr
  rw [(State.readAt_reg (locate_cmbRstat c) hp hread).1.chan, State.chan_setChan_same]

/-! ### A TDC unit's oldest result (R79) -/

theorem tdcResult_addrOf (e : EngSel) (un : Fin 2) (c : Cls) :
    locate e.part (addrOf e.part .tdcRstat (tdcInst e un)) = .reg ⟨.tdcRstat, tdcInst e un, 0, false⟩ ∧
      ∀ n ∈ [RegName.tdcRlo, RegName.tdcRhi], addrOf e.part n (tdcInst e un) < 0x4000000 ∧
        addrOf e.part n (tdcInst e un) ∉ bookWords e.part c := by
  cases e with
  | tsu => revert un; cases c <;> decide
  | tile t => revert un t; cases c <;> decide

theorem tdcRlo_ne_tdcRhi (e : EngSel) (un : Fin 2) : addrOf e.part .tdcRlo (tdcInst e un) ≠ addrOf e.part .tdcRhi (tdcInst e un) := by
  cases e with
  | tsu => revert un; decide
  | tile t => revert un t; decide

/-- A read of RSTAT takes the oldest result of the selected channel out of its FIFO and shows its value. -/
theorem State.readAt_tdcRstat {s : State} {e : EngSel} {un : Fin 2} {src : Src} {r : TdcResult} {rs : List TdcResult} {i k : Nat}
    (hi : tdcInst e un = i) (hk : s.fd e.part .tdcRsel 3 0 i = k) (hp : s.permits e.part src (some 4) false = true)
    (hf : mget (fun _ => []) (s.tdcU e.part i).fifos k = r :: rs) :
    mget (fun _ => []) ((s.readAt e.part src .tdcRstat i 0).tdcU e.part i).fifos k = rs ∧
      (s.readAt e.part src .tdcRstat i 0).rd e.part .tdcRlo i = r.value.truncate 32 ∧
      (s.readAt e.part src .tdcRstat i 0).rd e.part .tdcRhi i = (r.value >>> 32).truncate 32 := by
  subst hi
  obtain ⟨hl, haddr⟩ := tdcResult_addrOf e un src.cls
  obtain ⟨hlo, hlob⟩ := haddr .tdcRlo (by simp)
  obtain ⟨hhi, hhib⟩ := haddr .tdcRhi (by simp)
  let u := s.tdcU e.part (tdcInst e un)
  let s1 := s.setTdc e.part (tdcInst e un) { u with fifos := mset (fun _ => []) u.fifos k rs }
  let s2 := s1.wr e.part .tdcRlo (r.value.truncate 32) (tdcInst e un)
  let s3 := s2.wr e.part .tdcRhi ((r.value >>> 32).truncate 32) (tdcInst e un)
  have hr : s.tdcReadRstat e.part (tdcInst e un) = (r.status, s3) := by
    simp only [State.tdcReadRstat, State.tdcTake, hk, hf, s3, s2, s1, u]
  have hread : s.readReg e.part src ⟨.tdcRstat, tdcInst e un, 0, false⟩ = (.ok, r.status, s3) := congrArg (Prod.mk Code.ok) hr
  have ht := (State.readAt_reg hl hp hread).1
  refine ⟨?_, ?_, ?_⟩
  · have hcore : (s3.part e.part).core = (s1.part e.part).core := (s2.core_wrA e.part e.part _ _).trans (s1.core_wrA e.part e.part _ _)
    have htdc : ((s.readAt e.part src .tdcRstat (tdcInst e un) 0).part e.part).tdc = (s1.part e.part).tdc :=
      (ht.field e.part Part.tdc).trans (Part.field_of_core hcore Part.tdc)
    unfold State.tdcU
    rw [htdc]
    simp only [s1, u, State.setTdc, State.part_mod_same, mget_mset_same]
  · exact (ht.rdA hlob _).trans ((s2.rdA_wr_other _ _ _ _ (.inr (tdcRlo_ne_tdcRhi e un))).trans (s1.rd_wr_same _ _ _ _ _ hlo))
  · exact (ht.rdA hhib _).trans (s2.rd_wr_same _ _ _ _ _ hhi)

/-! ### A job event (R320) -/

theorem Books.job {p : PartId} {c : Cls} {s t : State} (h : Books p c s t) (k : Nat) : t.job k = s.job k :=
  h.outside.field fun x => x.job k

/-- A read of MBR_JEVT takes the oldest event of the selected job context. -/
theorem State.readAt_mbrJevt {s : State} {src : Src} {v : JobEvent} {vs : List JobEvent} (hp : s.permits .dist src (some 16) false = true)
    (he : (s.job (s.selJob src)).events = v :: vs) :
    ((s.readAt .dist src .mbrJevt 0 0).job (s.selJob src)).events = vs := by
  obtain ⟨d, hr⟩ : ∃ d, s.jevtRead (s.selJob src) =
      (d, (s.setJob (s.selJob src) { s.job (s.selJob src) with events := vs, eventLost := false }).wr .dist .mbrJevtNode
        (BitVec.ofNat 32 (v.node % 2 ^ 20))) := by
    unfold State.jevtRead
    simp only [he]
    exact ⟨_, rfl⟩
  have hread := congrArg (Prod.mk Code.ok) hr
  have hl : locate .dist (addrOf .dist .mbrJevt) = .reg ⟨.mbrJevt, 0, 0, false⟩ := by decide
  rw [(State.readAt_reg (s := s) (src := src) hl hp hread).1.job]
  simp [State.wr, State.job, State.setJob]

/-- Settles O2: each read answers, and leaves what the register's own read leaves within the bookkeeping of the access. -/
theorem statusReadsReturnAndClear : Obligations.StatusReadsReturnAndClear := by
  unfold Obligations.StatusReadsReturnAndClear
  refine ⟨fun p src s hc hp => ⟨_, congrArg (fun a => Host.Outcome.next (s.regRead p src a true).2.2) (toNat_addr_plain p (by decide)),
      State.readAt_tbsStat hc hp⟩,
    fun src c q bs s hp hc => ⟨_, rfl, ?_⟩,
    fun e un src r rs s hp hf => ⟨_, rfl, State.readAt_tdcRstat rfl rfl hp hf⟩,
    fun src v vs s hp he => ⟨_, rfl, State.readAt_mbrJevt hp he⟩⟩
  have hpend : (s.chan c).pend = some (q, bs) := by rw [hc]
  have ht := State.readAt_cmbRstat hp hpend
  exact ⟨congrArg Chan.pend ht, congrArg Chan.overw ht, congrArg Chan.winSeq ht, congrArg Chan.win ht⟩

end Sys2Proof.Machine
end

section
/-!
PROOFS. Bit fields of a register word: what a field and a bit read as after a field is set (R2).
-/
namespace Sys2Proof

theorem testBit_bits (x hi lo i : Nat) : (bits x hi lo).testBit i = (decide (i < hi + 1 - lo) && x.testBit (lo + i)) := by
  rw [bits, Nat.testBit_mod_two_pow, Nat.testBit_shiftRight]

/-- A number in three pieces: the bits above a field, the field, and the bits below it. -/
theorem testBit_pieces {lo hi h f l : Nat} (hle : lo ≤ hi + 1) (hf : f < 2 ^ (hi + 1 - lo)) (hl : l < 2 ^ lo) (i : Nat) :
    (2 ^ (hi + 1) * h + (2 ^ lo * f + l)).testBit i =
      if i < lo then l.testBit i else if i < hi + 1 then f.testBit (i - lo) else h.testBit (i - (hi + 1)) := by
  have hmid : 2 ^ lo * f + l < 2 ^ (hi + 1) := by
    have h1 : 2 ^ lo * (f + 1) ≤ 2 ^ lo * 2 ^ (hi + 1 - lo) := Nat.mul_le_mul_left _ hf
    rw [← Nat.pow_add, Nat.add_sub_cancel' hle] at h1
    rw [Nat.mul_add, Nat.mul_one] at h1
    omega
  rw [Nat.testBit_two_pow_mul_add _ hmid, Nat.testBit_two_pow_mul_add _ hl]
  by_cases hlow : i < lo
  · simp only [hlow, show i < hi + 1 by omega, if_true]
  · simp only [hlow, if_false]

/-- Setting a field puts its value in place of it and keeps the other bits. -/
theorem testBit_setBits (x hi lo v i : Nat) (hle : lo ≤ hi + 1) :
    (setBits x hi lo v).testBit i = if lo ≤ i ∧ i ≤ hi then v.testBit (i - lo) else x.testBit i := by
  have hpow : 2 ^ (hi + 1) = 2 ^ lo * 2 ^ (hi + 1 - lo) := by rw [← Nat.pow_add, Nat.add_sub_cancel' hle]
  have hbits : bits x hi lo = x / 2 ^ lo % 2 ^ (hi + 1 - lo) := by rw [bits, Nat.shiftRight_eq_div_pow]
  have hx : x = 2 ^ (hi + 1) * (x / 2 ^ (hi + 1)) + (2 ^ lo * bits x hi lo + x % 2 ^ lo) := by
    have h1 := Nat.div_add_mod x (2 ^ lo)
    have h2 := Nat.div_add_mod (x / 2 ^ lo) (2 ^ (hi + 1 - lo))
    rw [Nat.div_div_eq_div_mul, ← hpow, ← hbits] at h2
    rw [← h2, Nat.mul_add, ← Nat.mul_assoc, ← hpow] at h1
    omega
  have hset : setBits x hi lo v = 2 ^ (hi + 1) * (x / 2 ^ (hi + 1)) + (2 ^ lo * (v % 2 ^ (hi + 1 - lo)) + x % 2 ^ lo) := by
    rw [setBits, Nat.mul_comm (bits x hi lo), Nat.mul_comm (v % _)]
    omega
  have hxi := congrArg (Nat.testBit · i) hx
  simp only [testBit_pieces hle (by rw [hbits]; exact Nat.mod_lt _ (Nat.two_pow_pos _) : bits x hi lo < 2 ^ (hi + 1 - lo))
    (Nat.mod_lt x (Nat.two_pow_pos lo)) i] at hxi
  rw [hset, testBit_pieces hle (Nat.mod_lt _ (Nat.two_pow_pos _)) (Nat.mod_lt _ (Nat.two_pow_pos _)), hxi]
  by_cases hlow : i < lo
  · simp only [hlow, if_true, show ¬(lo ≤ i ∧ i ≤ hi) by omega, if_false]
  · by_cases hin : i < hi + 1
    · simp only [hlow, hin, if_true, if_false, show lo ≤ i ∧ i ≤ hi by omega, Nat.testBit_mod_two_pow,
        show i - lo < hi + 1 - lo by omega, decide_true, Bool.true_and, and_self]
    · simp only [hlow, hin, if_false, show ¬(lo ≤ i ∧ i ≤ hi) by omega]

theorem getLsbD_setFld (w : Word) (hi lo v i : Nat) (hle : lo ≤ hi + 1) (hi32 : hi < 32) :
    (setFld w hi lo v).getLsbD i = if lo ≤ i ∧ i ≤ hi then v.testBit (i - lo) else w.getLsbD i := by
  rw [setFld, BitVec.getLsbD_ofNat, testBit_setBits _ _ _ _ _ hle]
  split
  · rw [decide_eq_true (by omega), Bool.true_and]
  · by_cases h : i < 32
    · rw [decide_eq_true h, Bool.true_and]; rfl
    · rw [decide_eq_false h, Bool.false_and, BitVec.getLsbD_of_ge _ _ (by omega)]

/-- A field turns on its bits alone. -/
theorem fld_congr {w x : Word} {hi lo : Nat} (h : ∀ i, lo ≤ i → i ≤ hi → w.getLsbD i = x.getLsbD i) : fld w hi lo = fld x hi lo := by
  refine Nat.eq_of_testBit_eq fun i => ?_
  rw [fld, fld, testBit_bits, testBit_bits]
  by_cases hi' : i < hi + 1 - lo
  · exact congrArg _ (h (lo + i) (by omega) (by omega))
  · rw [decide_eq_false hi', Bool.false_and, Bool.false_and]

/-- A field reads as the value it is set to. -/
theorem fld_setFld_same (w : Word) (hi lo v : Nat) (hle : lo ≤ hi + 1) (hi32 : hi < 32) :
    fld (setFld w hi lo v) hi lo = v % 2 ^ (hi + 1 - lo) := by
  refine Nat.eq_of_testBit_eq fun i => ?_
  rw [fld, testBit_bits, Nat.testBit_mod_two_pow]
  by_cases h : i < hi + 1 - lo
  · have := getLsbD_setFld w hi lo v (lo + i) hle hi32
    rw [if_pos ⟨by omega, by omega⟩, Nat.add_sub_cancel_left] at this
    exact congrArg _ this
  · rw [decide_eq_false h, Bool.false_and, Bool.false_and]

/-- A field apart from the one that is set reads as before. -/
theorem fld_setFld_other (w : Word) {hi lo hi' lo' : Nat} (v : Nat) (hle : lo' ≤ hi' + 1) (hi32 : hi' < 32) (h : hi < lo' ∨ hi' < lo) :
    fld (setFld w hi' lo' v) hi lo = fld w hi lo :=
  fld_congr fun i h1 h2 => by rw [getLsbD_setFld _ _ _ _ _ hle hi32, if_neg (by omega)]

end Sys2Proof
end

section
/-!
PROOFS. Indirect spaces (O5, R40) and what reset leaves (O52, R386).
-/
namespace Sys2Proof.Machine
set_option Elab.async false

/-! ### Indirect spaces -/

/-- A write of LIF_IADDR sets the index. -/
theorem State.writeAt_lifIaddr {s : State} {p : PartId} {src : Src} (v : Word) (hp : s.permits p src (some 12) true = true) :
    (s.writeAt p src .lifIaddr 0 0 v).indexOf p .lifIaddr = fld v 23 0 := by
  have hn : RegName.lifIaddr ∈ plainRegs := by decide
  obtain ⟨u, h⟩ := State.writeAt_plain .lifIaddr v hp
  have heff (had : Bool) : (u.writeReg p src (.one .lifIaddr) v had).s =
      u.wr p .lifIaddr (merged (u.rd p .lifIaddr) v 0x80FFFFFF) := by cases p <;> rfl
  have hafter := h.after
  rw [heff] at hafter
  rw [State.indexOf, hafter.rd hn, u.rd_wr_same p .lifIaddr _ 0 0 (addrOf_plain_lt p hn)]
  refine fld_congr fun i _ hi => ?_
  have hmask : (BitVec.ofNat 32 0x80FFFFFF).getLsbD i = true := by
    have : ∀ k : Fin 24, (BitVec.ofNat 32 0x80FFFFFF).getLsbD k = true := by decide
    exact this ⟨i, by omega⟩
  rw [merged, BitVec.getLsbD_or, BitVec.getLsbD_and, BitVec.getLsbD_and, BitVec.getLsbD_not, hmask]
  simp

/-- A read of LIF_IDATA at an index in the space, while no wipe runs, answers with the word and moves the index on under AUTOINC. -/
theorem State.readAt_lifIdata {s : State} {p : PartId} {src : Src} (hc : src.cls ≠ .engine) (hp : s.permits p src (some 12) false = true)
    (hw : s.wiping p = false) (hi : s.indexOf p .lifIaddr < lifSpace p) (hinc : s.bt p .lifIaddr 31 = true) :
    mget (fun _ => (0, 0)) ((s.readAt p src .lifIdata 0 0).part p).resp src.cls.num = (0, s.lifWord p (s.indexOf p .lifIaddr)) ∧
      (s.readAt p src .lifIdata 0 0).indexOf p .lifIaddr = s.indexOf p .lifIaddr + 1 := by
  have hn : RegName.lifIaddr ∈ plainRegs := by decide
  have hr : s.readReg p src (.one .lifIdata) =
      (.ok, s.lifWord p (s.indexOf p .lifIaddr), s.setF p .lifIaddr 23 0 (s.indexOf p .lifIaddr + 1)) := by
    show s.idataRead p src .lifIdata = _
    simp [State.idataRead, iaddrOf, firstFail, State.indSpace, State.indReady, hw, Nat.not_le.2 hi, State.indAdvance, hinc, State.indFetch]
  obtain ⟨ht, hresp⟩ := State.readAt_reg (locate_plain p (by decide)) hp hr
  refine ⟨hresp hc, ?_⟩
  have hsmall : s.indexOf p .lifIaddr + 1 < 2 ^ 24 := by
    have : lifSpace p ≤ 2394 := by cases p <;> decide
    omega
  rw [State.indexOf, ht.rd hn, State.setF, s.rd_wr_same p .lifIaddr _ 0 0 (addrOf_plain_lt p hn), fld_setFld_same _ _ _ _ (by decide) (by decide)]
  exact Nat.mod_eq_of_lt hsmall

/-- Settles O5. -/
theorem indirectSpacesFetchAndAdvance : Obligations.IndirectSpacesFetchAndAdvance := by
  unfold Obligations.IndirectSpacesFetchAndAdvance
  refine ⟨fun p src v s hp => ⟨_, rfl, State.writeAt_lifIaddr v hp⟩,
    fun p src s hc hp hw hi hinc => ⟨_, rfl, State.readAt_lifIdata hc hp hw hi hinc⟩,
    fun k s hk => ⟨_, rfl, ?_⟩, fun k v s hk _ => ⟨_, rfl, ?_⟩⟩
  · show (journalFetched none s).jnlReady = true
    simp only [journalFetched, hk]
  · simp only [fetchDone, hk, Option.isSome_some, if_true, and_self]

/-! ### What reset leaves -/

theorem cst_reset (e : EngSel) (c : Fin 16) : State.reset.cst e c = 0 := by
  cases e with
  | tsu => revert c; decide
  | tile t => revert c t; decide

/-- Settles O52: the maps of the reset state list nothing, so every word and every structure reads as its default. -/
theorem resetValues : Obligations.ResetValues := by
  unfold Obligations.ResetValues
  refine ⟨fun p a => by cases p <;> rfl, rfl, fun p => ?_, proWin_reset, cst_reset, by decide, fun k => ⟨rfl, rfl⟩, fun e i => rfl, fun n => rfl,
    rfl, rfl⟩
  cases p <;> decide

end Sys2Proof.Machine
end

section
/-!
PROOFS. What the operations behind a strobe, a seal and a reset leave alone: the registers that a life-cycle state, a seal and a pending copy
show in, the strobes queued, the pending copies, the life-cycle request and store, the engines, and the journal of a part that wipes.
-/
namespace Sys2Proof.Machine
set_option Elab.async false

/-! ### Where the followed registers lie -/

/-- The registers followed through an operation. -/
def keptRegs : List RegName := [.sysNode, .sysBoot, .sysLifecycle, .tbsHoldMax, .hltStatus]

/-- Groups other than those of the followed registers lie apart from these. -/
theorem grpBase_away {p : PartId} {g : Grp} {i b : Nat} (h : grpBase p g i = some b) (hs : g ≠ .sys) (ht : g ≠ .tbs) (hh : g ≠ .hlt) :
    (0x100 ≤ b ∧ b < 0x400) ∨ (0x20000 ≤ b ∧ (b + 0x1000 ≤ 0xA0000 ∨ 0xB0000 ≤ b)) := by
  have hports : nPort = 4 := rfl
  have hwicks : nWick = 256 := rfl
  cases p <;> cases g <;>
    simp only [grpBase, tileBase, Option.ite_none_right_eq_some, Option.some.injEq, reduceCtorEq, ne_eq, not_true_eq_false] at h hs ht hh <;>
    omega

theorem row_off_lt (n : RegName) : (row n).off < 0x1000 := by cases n <;> decide

/-- No other register of their groups has the address of a followed one. -/
theorem keptRegs_apart {n : RegName} (hn : n ∉ keptRegs) (hg : (row n).grp = .sys ∨ (row n).grp = .tbs ∨ (row n).grp = .hlt) (p : PartId) :
    ∀ m ∈ keptRegs, addrOf p m < 0x4000000 → addrOf p n ≠ addrOf p m := by
  revert hn hg; cases n <;> cases p <;> decide

theorem keptRegs_addr (p : PartId) : ∀ m ∈ keptRegs, addrOf p m < 0x4000000 →
    addrOf p m ∈ [0xC, 0x10, 0x1C, 0x10018, 0xA0004] := by
  cases p <;> decide

/-- A write of a register that is not followed meets no followed one. -/
theorem addrOf_ne_kept {p : PartId} {n m : RegName} {i : Nat} (hn : n ∉ keptRegs) (hm : m ∈ keptRegs) (hlt : addrOf p n i < 0x4000000) :
    addrOf p n i ≠ addrOf p m := by
  intro heq
  have hmlt : addrOf p m < 0x4000000 := heq ▸ hlt
  by_cases hg : (row n).grp = .sys ∨ (row n).grp = .tbs ∨ (row n).grp = .hlt
  · by_cases hi : i = 0
    · subst hi; exact keptRegs_apart hn hg p m hm hmlt heq
    · have hnone : grpBase p (row n).grp i = none := by
        obtain h | h | h := hg <;> rw [h] <;> cases p <;> simp [grpBase, hi]
      simp [addrOf, hnone] at hlt
  · have hmem := keptRegs_addr p m hm hmlt
    have hoff := row_off_lt n
    rw [← heq] at hmem
    unfold addrOf at hmem hlt
    split at hmem
    · next b hb =>
      have := grpBase_away hb (fun h => hg (.inl h)) (fun h => hg (.inr (.inl h))) (fun h => hg (.inr (.inr h)))
      simp only [Nat.mul_zero, Nat.add_zero, List.mem_cons, List.not_mem_nil, or_false] at hmem
      omega
    · next hb => simp [hb] at hlt

/-! ### Operations that leave it all alone -/

/-- What of a part is followed. -/
def Part.kept (q : Part) : List StrobeReq × List (Nat × Word) × Option LcRequest × Nat := (q.strobes, q.pend, q.lcReq, q.lcStore)

/-- Nothing followed of the parts has changed; of the registers, those of `ks`. -/
structure QuietParts (ks : List RegName) (s t : State) : Prop where
  regs : ∀ q, ∀ n ∈ ks, t.rd q n = s.rd q n
  kept : ∀ q, (t.part q).kept = (s.part q).kept
  recs : ∀ q, s.wiping q = true → (t.part q).jnl.recs = (s.part q).jnl.recs

/-- Nothing followed has changed; of the registers, those of `ks`. -/
structure Quiet (ks : List RegName) (s t : State) : Prop extends QuietParts ks s t where
  engines : t.engines = s.engines

/-- Nothing followed has changed. -/
abbrev Still : State → State → Prop := Quiet keptRegs

theorem QuietParts.wiping {ks : List RegName} {s t : State} (h : QuietParts ks s t) (hk : RegName.sysLifecycle ∈ ks) (q : PartId) :
    t.wiping q = s.wiping q := congrArg (BitVec.getLsbD · 8) (h.regs q _ hk)

theorem QuietParts.refl (ks : List RegName) (s : State) : QuietParts ks s s := ⟨fun _ _ _ => rfl, fun _ => rfl, fun _ _ => rfl⟩

theorem QuietParts.trans {ks : List RegName} {s t u : State} (h : QuietParts ks s t) (k : QuietParts ks t u)
    (hk : RegName.sysLifecycle ∈ ks := by decide) : QuietParts ks s u :=
  ⟨fun q n hn => (k.regs q n hn).trans (h.regs q n hn), fun q => (k.kept q).trans (h.kept q),
    fun q hw => (k.recs q ((h.wiping hk q).trans hw)).trans (h.recs q hw)⟩

theorem Quiet.refl (ks : List RegName) (s : State) : Quiet ks s s := ⟨.refl ks s, rfl⟩

theorem Quiet.trans {ks : List RegName} {s t u : State} (h : Quiet ks s t) (k : Quiet ks t u) (hk : RegName.sysLifecycle ∈ ks := by decide) :
    Quiet ks s u := ⟨h.toQuietParts.trans k.toQuietParts hk, k.engines.trans h.engines⟩

theorem Quiet.mono {ks ls : List RegName} {s t : State} (h : Quiet ks s t) (hl : ls ⊆ ks) : Quiet ls s t :=
  ⟨⟨fun q n hn => h.regs q n (hl hn), h.kept, h.recs⟩, h.engines⟩

theorem Quiet.ite {ks : List RegName} {s t u : State} {c : Prop} [Decidable c] (h : Quiet ks s t) (k : Quiet ks s u) :
    Quiet ks s (if c then t else u) := by
  split
  · exact h
  · exact k

/-- A fold each of whose steps leaves it alone leaves it alone. -/
theorem Quiet.foldl {ks : List RegName} {α : Type} {f : State → α → State} (hf : ∀ s a, Quiet ks s (f s a)) (l : List α) (s : State)
    (hk : RegName.sysLifecycle ∈ ks := by decide) : Quiet ks s (l.foldl f s) := by
  induction l generalizing s with
  | nil => exact .refl ks s
  | cons a l ih => exact (hf s a).trans (ih (f s a)) hk

/-! #### The plain updates -/

/-- A part changed in nothing followed. -/
theorem State.mod_still (s : State) (p : PartId) (f : Part → Part) (hr : ∀ x, (f x).regs = x.regs := by intro _; rfl)
    (hk : ∀ x, (f x).kept = x.kept := by intro _; rfl) (hj : ∀ x, (f x).jnl.recs = x.jnl.recs := by intro _; rfl) :
    Still s (s.mod p f) := by
  have hpart (α : Type) (g : Part → α) (hg : ∀ x, g (f x) = g x) (q : PartId) : g ((s.mod p f).part q) = g (s.part q) := by
    by_cases h : q = p
    · subst h; rw [s.part_mod_same, hg]
    · rw [s.part_mod_other f h]
  exact ⟨⟨fun q n _ => s.rdA_mod p q f _ (hr _), hpart _ Part.kept hk, fun q _ => hpart _ (fun x => x.jnl.recs) hj q⟩, s.mod_engines p f⟩

/-- A change outside the parts. -/
theorem State.outside_quietParts {s t : State} (ht : t.tsu = s.tsu := by rfl) (hd : t.dist = s.dist := by rfl) : QuietParts keptRegs s t := by
  have hpart (q : PartId) : t.part q = s.part q := by
    cases q
    · exact ht
    · exact hd
  exact ⟨fun q n _ => by rw [State.rd, State.rd, State.rdA, State.rdA, hpart], fun q => by rw [hpart], fun q _ => by rw [hpart]⟩

/-- A change outside parts and engines. -/
theorem State.outside_still {s t : State} (ht : t.tsu = s.tsu := by rfl) (hd : t.dist = s.dist := by rfl) (he : t.engines = s.engines := by rfl) :
    Still s t := ⟨State.outside_quietParts ht hd, he⟩

theorem State.jnl_wrA (s : State) (p q : PartId) (a : Nat) (v : Word) : ((s.wrA p a v).part q).jnl = (s.part q).jnl := by
  unfold State.wrA
  split
  · by_cases hq : q = p
    · subst hq; rw [s.part_mod_same]
    · rw [s.part_mod_other _ hq]
  · rfl

theorem State.wrA_quiet (s : State) (p : PartId) {a : Nat} (v : Word) {ks : List RegName}
    (h : a < 0x4000000 → ∀ m ∈ ks, addrOf p m ≠ a) : Quiet ks s (s.wrA p a v) := by
  refine ⟨⟨fun q m hm => ?_, fun q => Part.field_of_core (s.core_wrA p q a v) Part.kept, fun q _ => congrArg Journal.recs (s.jnl_wrA p q a v)⟩,
    s.wrA_engines p a v⟩
  by_cases ha : a < 0x4000000
  · by_cases hq : q = p
    · subst hq; exact s.rdA_wrA_other v (.inr (h ha m hm))
    · exact s.rdA_wrA_other v (.inl hq)
  · rw [State.wrA, if_neg ha]

theorem State.wr_still (s : State) (p : PartId) (n : RegName) (v : Word) (i : Nat) (hn : n ∉ keptRegs := by decide) :
    Still s (s.wr p n v i) := s.wrA_quiet p v fun hlt _ hm heq => addrOf_ne_kept hn hm hlt heq.symm

theorem State.setF_still (s : State) (p : PartId) (n : RegName) (hi lo v i : Nat) (hn : n ∉ keptRegs := by decide) :
    Still s (s.setF p n hi lo v i) := s.wr_still p n _ i hn

theorem State.setB_still (s : State) (p : PartId) (n : RegName) (b i : Nat) (hn : n ∉ keptRegs := by decide) :
    Still s (s.setB p n b i) := s.setF_still p n b b 1 i hn

theorem State.bump_still (s : State) (p : PartId) (n : RegName) (hi lo k i : Nat) (hn : n ∉ keptRegs := by decide) :
    Still s (s.bump p n hi lo k i) := s.setF_still p n hi lo _ i hn

theorem keptRegs_not_jnl (p : PartId) : ∀ m ∈ keptRegs, addrOf p m ≠ addrOf p .jnlLost ∧ addrOf p m ≠ addrOf p .jnlStat := by
  cases p <;> decide

theorem State.jnlAt_wiping (s : State) (w : Who) (h : HT) (ty payload : Nat) (hw : s.wiping w.p = true) : s.jnlAt w h ty payload = s :=
  if_pos hw

/-- A journal record changes the journal of its own part alone. -/
theorem State.part_jnlAt_other (s : State) (w : Who) (h : HT) (ty payload : Nat) {q : PartId} (hq : q ≠ w.p) :
    (s.jnlAt w h ty payload).part q = s.part q := by
  have htsu (x : State) (n : RegName) (hi lo v : Nat) : (x.setF .tsu n hi lo v).part .dist = x.part .dist := by
    unfold State.setF State.wr State.wrA; split <;> rfl
  have hdist (x : State) (n : RegName) (hi lo v : Nat) : (x.setF .dist n hi lo v).part .tsu = x.part .tsu := by
    unfold State.setF State.wr State.wrA; split <;> rfl
  have hpush (x : State) (w : Who) (h : HT) (ty payload : Nat) : (x.pushRec w h ty payload).part .dist = x.part .dist := by
    unfold State.pushRec
    dsimp only
    split
    · exact (htsu _ _ _ _ _).trans (htsu _ _ _ _ _)
    · rfl
  have hflush (x : State) : x.flushLoss.part .dist = x.part .dist := by
    unfold State.flushLoss
    split
    · split
      · exact hpush _ _ _ _ _
      · rfl
    · rfl
  have hpump (x : State) : x.spillPump.part .dist = x.part .dist := by
    unfold State.spillPump
    split
    · dsimp only
      split
      · exact htsu _ _ _ _ _
      · rfl
    · rfl
  have hring (x : State) (tile : Nat) (r : JRec) : (x.pushRing tile r).part .tsu = x.part .tsu := by
    unfold State.pushRing
    dsimp only
    split
    · exact (hdist _ _ _ _ _).trans (hdist _ _ _ _ _)
    · rfl
  unfold State.jnlAt
  split
  · rfl
  · split
    · next hp =>
      cases q with
      | tsu => exact absurd hp.symm hq
      | dist => exact (hpump _).trans ((hpush _ _ _ _ _).trans (hflush s))
    · next hp =>
      cases q with
      | tsu => exact (State.part_mod_other _ _ (by decide)).trans (hring s _ _)
      | dist => exact absurd hp.symm hq

/-- A journal record leaves it alone: a part that wipes records nothing (R378). -/
theorem State.jnlAt_still (s : State) (w : Who) (h : HT) (ty payload : Nat) : Still s (s.jnlAt w h ty payload) := by
  refine ⟨⟨fun q n hn => ?_, fun q => Part.field_of_core (s.core_jnlAt w h ty payload q) Part.kept, fun q hq => ?_⟩,
    (s.jnlAt_onlyParts w h ty payload).field State.engines⟩
  · refine (s.jnlAt_regs w h ty payload q _).resolve_left fun ⟨hq, ha⟩ => ?_
    subst hq
    exact ha.elim (keptRegs_not_jnl _ n hn).1 (keptRegs_not_jnl _ n hn).2
  · by_cases hw : q = w.p
    · subst hw; rw [s.jnlAt_wiping w h ty payload hq]
    · rw [s.part_jnlAt_other w h ty payload hw]

theorem State.jnl_still (s : State) (w : Who) (ty payload : Nat) : Still s (s.jnl w ty payload) := s.jnlAt_still w _ ty payload

theorem State.send_still (s : State) (p : PartId) (d : Dest) (f : Frame) (lane : Option Nat) : Still s (s.send p d f lane) := s.mod_still p _

theorem State.completeOp_still (s : State) (o : Option OpRef) (c : Code) (v : DWord) (late extra : Nat) (rs : List Byte) :
    Still s (s.completeOp o c v late extra rs) := by
  cases o
  · exact .refl _ s
  · exact State.outside_still

/-! #### Hall time -/

theorem State.endReplays_still (s : State) : Still s s.endReplays := by
  unfold State.endReplays
  refine .ite (.refl _ s) (Quiet.foldl (fun t kv => .ite (.refl _ t) ?_) _ s)
  have hslots (x : List (Nat × Slot)) : Still t { t with slots := x } := State.outside_still
  exact .ite ((hslots _).trans (State.setF_still _ _ _ _ _ _ _)) ((hslots _).trans (State.setF_still _ _ _ _ _ _ _))

theorem State.rebase_still (s : State) (p : PartId) (h : HT) (rate : Int) : Still s (s.rebase p h rate) := by
  unfold State.rebase State.setAnchor calWords
  simp only [List.foldl_cons, List.foldl_nil]
  exact ((((((s.wr_still p .tbsCalHtLo _ 0).trans (State.wr_still _ p .tbsCalHtHi _ 0)).trans (State.wr_still _ p .tbsCalSLo _ 0)).trans
    (State.wr_still _ p .tbsCalSHi _ 0)).trans (State.wr_still _ p .tbsCalNs _ 0)).trans (State.wr_still _ p .tbsCalRate _ 0)).trans
    (State.wr_still _ p .tbsUtcOff _ 0)

theorem State.serveDown_still (s : State) (p : PartId) (f : Frame) : Still s (s.serveDown p f) :=
  Quiet.foldl (fun t n => t.send_still p (.port n) f none) _ s

theorem State.osc_still (s : State) (o : OscState) : Still s { s with osc := o } := State.outside_still

theorem State.endCalTerm_still (s : State) : Still s s.endCalTerm := by
  unfold State.endCalTerm
  split
  · split
    · exact ((s.rebase_still .dist _ _).trans (State.osc_still _ _)).trans (State.serveDown_still _ .dist _)
    · exact .refl _ s
  · exact .refl _ s

theorem State.passed_still (s : State) (p : PartId) (tb : TimeBase) : Still s (s.passed p tb) := by
  have h1 := s.mod_still p fun q => { q with tb := tb, jnl := { q.jnl with wbuf := [] } }
  unfold State.passed
  dsimp only
  cases p with
  | tsu => exact (h1.trans (.ite (State.setB_still _ .tsu .srvStat 3 0) (.refl _ _))).trans (State.endReplays_still _)
  | dist => exact (h1.trans (.ite (State.setB_still _ .dist .srvStat 3 0) (.refl _ _))).trans (State.endCalTerm_still _)

theorem State.reach_still (s : State) (p : PartId) (target : HT) : Still s (s.reach p target) :=
  .ite (.refl _ s) (s.passed_still p _)

theorem State.stepHt_still (s : State) (p : PartId) (h : HT) (sub : Nat) (w : Who) : Still s (s.stepHt p h sub w) :=
  (s.mod_still p _).trans (State.jnl_still _ w _ _)

/-! #### References and the servo -/

theorem State.stepBy_still (s : State) (p : PartId) (c : Int) : Still s (s.stepBy p c) :=
  (s.reach_still p _).trans (State.stepHt_still _ p _ _ _)

theorem State.slewBy_still (s : State) (p : PartId) (port : Nat) (c : Int) : Still s (s.slewBy p port c) :=
  (s.mod_still p _).trans (.ite ((State.setB_still _ p .srvStat 2 0).trans (State.jnl_still _ _ _ _)) (.refl _ _))

theorem State.refChange_still (s : State) (p : PartId) (port : Nat) (c : Int) : Still s (s.refChange p port c) :=
  .ite ((s.mod_still p _).trans (.ite (.refl _ _) (State.stepBy_still _ p c))) (s.slewBy_still p port c)

theorem State.moveRef_still (s : State) (p : PartId) (d : Nat) : Still s (s.moveRef p d) := by
  unfold State.moveRef
  dsimp only
  refine .ite (.refl _ s) ?_
  have h1 (f : Servo → Servo) : Still s (s.modSrv p f) := s.mod_still p _
  split
  · exact h1 _
  · exact .ite (h1 _) (((h1 _).trans (.ite (.refl _ _) ((State.setB_still _ p .srvStat 0 0).trans (State.jnl_still _ _ _ _)))).trans
      (State.refChange_still _ p _ _))

theorem State.setQual_still (s : State) (p : PartId) (code : Nat) : Still s (s.setQual p code) :=
  .ite (.refl _ s) ((((s.setF_still p .tbsQual 2 0 code 0).trans (State.setB_still _ p .tbsStat 1 0)).trans
    (.ite (State.setB_still _ p .tbsStat 2 0) (State.wr_still _ p .tbsHoldErr 0 0))).trans (State.jnl_still _ _ _ _))

theorem State.enterHoldover_still (s : State) (p : PartId) : Still s (s.enterHoldover p) :=
  ((((s.mod_still p fun q => { q with tb := { q.tb with locked := false, holding := true, holdRate := q.tb.applied, holdAt := q.tb.ht } }).trans
    (.ite (State.osc_still _ _) (.refl _ _))).trans (State.setF_still _ p .tbsQual 31 16 0 0)).trans
    (State.wr_still _ p .tbsHoldErr 0 0)).trans (State.setQual_still _ p 2)

theorem State.refreshQual_still (s : State) (p : PartId) : Still s (s.refreshQual p) := by
  unfold State.refreshQual
  dsimp only
  refine .ite ?_ (.ite (.refl _ s) (.ite ?_ (.ite (.refl _ s) ?_)))
  · exact (s.mod_still p fun q => { q with tb := { q.tb with locked := false } }).trans
      (.ite (State.enterHoldover_still _ p) (State.setQual_still _ p 0))
  · exact ((s.mod_still p fun q => { q with tb := { q.tb with locked := true, everLocked := true, holding := false } }).trans
      (State.setF_still _ p .tbsQual 31 16 0 0)).trans (State.setQual_still _ p _)
  · cases p with
    | tsu => exact s.setQual_still .tsu 0
    | dist => exact .ite (s.setQual_still .dist _) (.refl _ s)

theorem State.selectRef_still (s : State) (p : PartId) : Still s (s.selectRef p) :=
  ((s.moveRef_still p _).trans (State.mod_still _ p _)).trans (State.refreshQual_still _ p)

theorem State.refreshRef_still (s : State) : Still s s.refreshRef := by
  unfold State.refreshRef
  dsimp only
  have h1 := (s.setF_still .dist .oscStatus 6 6 (b2n s.refQualified) 0).trans (State.setF_still _ .dist .oscStatus 5 5 (b2n s.osc.ptpQual) 0)
  refine .ite ?_ (.ite ?_ h1)
  · have h2 := h1.trans (State.setB_still _ .dist .oscStat 3 0)
    refine .ite h2 ?_
    have h3 := (h2.trans (State.mod_still _ .dist fun q => { q with tb := { q.tb with holding := false } })).trans
      (State.setF_still _ .dist .tbsQual 31 16 0 0)
    exact .ite (h3.trans (State.setQual_still _ .dist 4)) h3
  · have h2 := h1.trans (State.setB_still _ .dist .oscStat 2 0)
    exact .ite (h2.trans (State.enterHoldover_still _ .dist)) h2

/-! #### Fine triggers, link units and ports -/

theorem State.dropFine_still (s : State) (p : PartId) (i : Nat) (c : Code) : Still s (s.dropFine p i c) :=
  .ite (.refl _ s) (((s.mod_still p _).trans (State.setB_still _ p .dtcStat 2 i)).trans (Quiet.foldl (fun t _ => t.jnl_still _ _ _) _ _))

theorem State.dropAllFine_still (s : State) (p : PartId) (c : Code) : Still s (s.dropAllFine p c) :=
  Quiet.foldl (fun t i => t.dropFine_still p i c) _ s

theorem State.setTdc_still (s : State) (p : PartId) (i : Nat) (u : TdcUnit) : Still s (s.setTdc p i u) := s.mod_still p _

theorem State.tdcAuto_still (s : State) (p : PartId) (i : Nat) : Still s (s.tdcAuto p i) :=
  .ite (.refl _ s) (.ite (s.setTdc_still p i _) ((s.setTdc_still p i _).trans (State.setF_still _ p .tdcCalst 31 31 1 i)))

theorem State.holdUnit_still (s : State) (p : PartId) (i : Nat) : Still s (s.holdUnit p i) :=
  .ite (((s.setTdc_still p i _).trans (State.setTdc_still _ p i _)).trans (State.tdcAuto_still _ p i)) (s.setTdc_still p i _)

theorem State.tdcCtrlActive_still (s : State) (p : PartId) (i : Nat) (old new : Word) : Still s (s.tdcCtrlActive p i old new) :=
  .ite (s.setTdc_still p i _) (.ite (.ite ((s.setTdc_still p i _).trans (State.tdcAuto_still _ p i)) (s.setTdc_still p i _)) (.refl _ s))

theorem State.linkEnable_still (s : State) (p : PartId) (n : Nat) : Still s (s.linkEnable p n) :=
  .ite (.refl _ s) ((s.wr_still p .tdcCtrl _ _).trans (State.tdcCtrlActive_still _ p _ _ _))

theorem State.modPrt_still (s : State) (p : PartId) (n : Nat) (f : PortSt → PortSt) : Still s (s.modPrt p n f) := by
  unfold State.modPrt State.setPrt
  exact s.mod_still p _

theorem State.linkEnds_still (s : State) (p : PartId) (n : Nat) : Still s (s.linkEnds p n) :=
  (s.mod_still p _).trans (State.modPrt_still _ p n _)

theorem State.setPsrv_still (s : State) (p : PartId) (n : Nat) (v : PortSrv) : Still s (s.setPsrv p n v) := s.mod_still p _

theorem State.srvPortDown_still (s : State) (p : PartId) (n : Nat) : Still s (s.srvPortDown p n) := by
  have h1 (v : PortSrv) := (s.setF_still p .srvPState 2 0 0 n).trans (State.setPsrv_still _ p n v)
  exact ((h1 _).trans (.ite ((State.setB_still _ p .srvStat 1 0).trans (State.jnl_still _ _ _ _)) (.refl _ _))).trans (State.selectRef_still _ p)

theorem State.pathGone_still (s : State) (p : PartId) (n : Nat) : Still s (s.pathGone p n) :=
  .ite (.refl _ s) (Quiet.foldl (fun t r => t.send_still .dist (.node r) _ none) _ s)

theorem State.spillsLost_still (s : State) (p : PartId) (n : Nat) : Still s (s.spillsLost p n) := .ite (.refl _ s) State.outside_still

theorem State.swapRec_still (s : State) (p : PartId) (n dir ln trig : Nat) (c : Code) : Still s (s.swapRec p n dir ln trig c) :=
  Quiet.trans (.ite (s.setB_still p .lifStat 4 0) (.refl _ s)) (State.jnl_still _ _ _ _)

theorem State.portEvent_still (s : State) (p : PartId) (n b : Nat) : Still s (s.portEvent p n b) := s.jnl_still _ _ _

theorem State.leaveUp_still (s : State) (p : PartId) (n : Nat) : Still s (s.leaveUp p n) := by
  unfold State.leaveUp
  extract_lets v lost s1 s2 s3 s5 s4
  have h1 : Still s s1 := ((s.setB_still p .prtStat 1 n).trans (State.bump_still _ p .prtCntLost 31 0 lost n)).trans (State.linkEnds_still _ p n)
  have h2 : Still s s2 := h1.trans (s1.mod_still p _)
  have h3 : Still s s3 := h2.trans (s2.modPrt_still p n _)
  have h4 : Still s s4 := by
    unfold s4
    split
    · have h5 : Still s s5 := (h3.trans (s3.setF_still p .prtState 12 12 0 n)).trans (State.portEvent_still _ p n 7)
      exact .ite h5 (h5.trans (State.swapRec_still _ p n _ _ _ _))
    · exact h3
  exact ((h4.trans (s4.srvPortDown_still p n)).trans (State.pathGone_still _ p n)).trans (State.spillsLost_still _ p n)

theorem State.portTo_still (s : State) (p : PartId) (n st : Nat) : Still s (s.portTo p n st) := by
  unfold State.portTo
  extract_lets was ran s1 s2 s3 s4 s5 s6
  refine .ite (.refl _ s) ?_
  have h1 : Still s s1 := s.setF_still p .prtState 2 0 st n
  have h2 : Still s s2 := h1.trans (.ite (s1.leaveUp_still p n) (.ite (s1.linkEnds_still p n) (.refl _ _)))
  have h3 : Still s s3 := h2.trans (.ite ((s2.setF_still p .prtState 23 20 0 n).trans (State.setF_still _ p .prtState 14 13 0 n)) (.refl _ _))
  have h4 : Still s s4 := h3.trans (.ite (s3.holdUnit_still p (linkUnit p n)) (.ite (s3.linkEnable_still p n) (.refl _ _)))
  have h5 : Still s s5 := h4.trans (.ite ((s4.setF_still p .prtState 31 28 0 n).trans (State.modPrt_still _ p n _)) (.refl _ _))
  have h6 : Still s s6 := h5.trans (.ite (s5.send_still .tsu (.port n) _ none) (.refl _ _))
  exact .ite (h6.trans (s6.dropAllFine_still p .state)) h6

theorem State.toDetect_still (s : State) (p : PartId) (n : Nat) (full : Bool) : Still s (s.toDetect p n full) := by
  have h2 := (((s.portTo_still p n 1).trans (State.setF_still _ p .prtState 23 20 0 n)).trans (State.setF_still _ p .prtState 14 14 0 n)).trans
    (State.setF_still _ p .prtState 13 13 0 n)
  exact .ite (h2.trans (State.modPrt_still _ p n _)) h2

/-- Ports that go DOWN or DETECT with a change of life cycle, tier or seal (R116). -/
theorem State.portsRecheck_still (s : State) (p : PartId) : Still s (s.portsRecheck p) :=
  Quiet.foldl (fun t n => .ite (t.portTo_still p n 0) (.ite (t.toDetect_still p n true) (.refl _ t))) _ s

end Sys2Proof.Machine
end

section
/-!
PROOFS. Guarded pairs, the unlock, the seal and life-cycle requests (R38, R39, R43, R46), and O4.
-/
namespace Sys2Proof.Machine
set_option Elab.async false

/-- The unlock: the key unlocks the class's next write (R39). -/
theorem State.writeAt_sysUnlock {s : State} {p : PartId} {src : Src} {key : Word} (hp : s.permits p src (some 0) true = true)
    (hk : fld key 15 0 = 0xC4D1) : ((s.writeAt p src .sysUnlock 0 0 key).part p).unlocked.contains src.cls = true := by
  obtain ⟨u, h⟩ := State.writeAt_plain .sysUnlock key hp
  have heff (had : Bool) : (u.writeReg p src (.one .sysUnlock) key had).s =
      (if fld key 15 0 = 0xC4D1 then { s := u.mod p fun q => { q with unlocked := q.unlocked ++ [src.cls] } } else .fail .perm u : WRes).s := by
    cases p <;> rfl
  have hafter := h.after
  rw [heff, if_pos hk] at hafter
  rw [hafter.field p Part.unlocked, u.part_mod_same]
  simp

/-! ### The _N write of a guarded pair -/

/-- A write of the _N register of the open guarded operation: its effect, in the bookkeeping of the access. -/
theorem State.regWrite_mate {s : State} {p : PartId} {src : Src} {a : Nat} {l : Loc} {g : GuardOpen} (v : Word) (hl : locate p a = .reg l)
    (ha : a % 4 = 0) (hp : s.permits p src (blockOfTarget (.reg l)) true = true) (hg : (s.part p).guard = some g)
    (hm : s.isMate p (.reg l) = true) :
    Books p src.cls ((s.locked p src).writeReg p src l v ((s.part p).unlocked.contains src.cls)).s (s.regWrite p src a v true).2 := by
  have haa : a / 4 * 4 = a := by omega
  have hc := (s.accessCode_locked p src (.reg l) a true true).trans (State.accessCode_reg hp ha)
  have hguard : ((s.locked p src).part p).guard = some g := by rw [State.locked, s.part_mod_same, ← hg]
  have hmate : (s.locked p src).isMate p (.reg l) = true := by
    unfold State.isMate at hm ⊢
    rwa [hguard, ← hg]
  unfold State.regWrite
  rw [State.locked] at hc hmate hguard
  simp only [haa, hl, hc, hmate, hguard, decide_true, Bool.and_self, if_true, ne_eq, not_true_eq_false, if_false, State.writeTarget]
  exact WRes.booked_books _ p src a g.addr (s.ht p)

/-- What the complement of a waiting HT set does where a set is allowed: the operation is no longer open, and the set waits at {HI, staged LO}
with bits [7:0] zero (R54). -/
theorem State.mateWrite_htset {s : State} {p : PartId} {g : GuardOpen} (hg : (s.part p).guard = some g) (hok : s.htSetAllowed p = true) :
    ((s.mateWrite p (.one .tbsHtsetHiN) (~~~g.value)).s.part p).tb.htSet =
        some ((g.value ++ s.staged p g.src (addrOf p .tbsHtsetLo) (s.rd p .tbsHtsetLo)) &&& 0xFFFFFFFFFFFFFF00#64, g.src) ∧
      ((s.mateWrite p (.one .tbsHtsetHiN) (~~~g.value)).s.part p).guard = none := by
  let s1 := s.mod p fun q => { q with guard := none }
  let s2 := s1.setStage p g.src (addrOf p .tbsHtsetLo) none
  let lo := s1.staged p g.src (addrOf p .tbsHtsetLo) (s1.rdA p (addrOf p .tbsHtsetLo))
  let s3 := ((s2.wrA p (addrOf p .tbsHtsetLo) lo).wrA p g.addr g.value).wrA p (addrOf p .tbsHtsetHiN) (~~~g.value)
  have hlo : lo = s.staged p g.src (addrOf p .tbsHtsetLo) (s.rd p .tbsHtsetLo) := by cases p <;> rfl
  have hallowed : s2.htSetAllowed p = true := by rw [← hok]; cases p <;> rfl
  have heff : (s.mateWrite p (.one .tbsHtsetHiN) (~~~g.value)).s = s3.acceptHtSet p (g.value ++ lo) g.src := by
    unfold State.mateWrite
    simp only [hg, ne_eq, not_true_eq_false, if_false, if_true]
    exact congrArg WRes.s (if_neg (by rw [hallowed]; decide))
  have hcore := (State.core_wrA (s2.wrA p (addrOf p .tbsHtsetLo) lo |>.wrA p g.addr g.value) p p (addrOf p .tbsHtsetHiN) (~~~g.value)).trans
    ((State.core_wrA (s2.wrA p (addrOf p .tbsHtsetLo) lo) p p g.addr g.value).trans (s2.core_wrA p p (addrOf p .tbsHtsetLo) lo))
  rw [heff, hlo]
  unfold State.acceptHtSet State.setB
  refine ⟨(Part.field_of_core (State.core_setF _ p p _ _ _ _ _ _) fun q => q.tb.htSet).trans ?_,
    (Part.field_of_core (State.core_setF _ p p _ _ _ _ _ _) Part.guard).trans ?_⟩
  · rw [State.part_mod_same]
  · rw [State.part_mod_same]
    refine (Part.field_of_core hcore Part.guard).trans ?_
    rw [show s2 = s1.mod p _ from rfl, s1.part_mod_same, s.part_mod_same]

/-- The complement written while an HT set waits accepts it, where one is allowed (R38, R54). -/
theorem State.writeAt_htsetHiN {s : State} {p : PartId} {src : Src} {lo : Word} {g : GuardOpen} (hp : s.permits p src (some 1) true = true)
    (hg : (s.part p).guard = some g) (ha : g.addr = addrOf p .tbsHtsetHi)
    (hlo : s.staged p g.src (addrOf p .tbsHtsetLo) (s.rd p .tbsHtsetLo) = lo) (hok : s.htSetAllowed p = true) :
    ((s.writeAt p src .tbsHtsetHiN 0 0 (~~~g.value)).part p).tb.htSet = some ((g.value ++ lo) &&& 0xFFFFFFFFFFFFFF00#64, g.src) ∧
      ((s.writeAt p src .tbsHtsetHiN 0 0 (~~~g.value)).part p).guard = none := by
  have hn : RegName.tbsHtsetHiN ∈ plainRegs := by decide
  have hmate : s.isMate p (.reg (.one .tbsHtsetHiN)) = true := by simp [State.isMate, hg, ha, guardedOf]
  have hbooks := State.regWrite_mate (~~~g.value) (locate_plain p hn) (addrOf_aligned p _ 0 0) hp hg hmate
  have hguard : ((s.locked p src).part p).guard = some g := by rw [State.locked, s.part_mod_same, ← hg]
  have hallowed : (s.locked p src).htSetAllowed p = true := by rw [← hok]; cases p <;> rfl
  have hstaged : (s.locked p src).staged p g.src (addrOf p .tbsHtsetLo) ((s.locked p src).rd p .tbsHtsetLo) = lo := by
    rw [← hlo]; cases p <;> rfl
  obtain ⟨hset, hopen⟩ := State.mateWrite_htset hguard hallowed
  rw [hstaged] at hset
  exact ⟨(hbooks.field p fun q => q.tb.htSet).trans hset, (hbooks.field p Part.guard).trans hopen⟩

/-! ### The seal (R43) -/

/-- SYS_SEAL with 0x5EA1 clears OPEN while it is set. -/
theorem State.writeAt_sysSeal {s : State} {p : PartId} {src : Src} (hp : s.permits p src (some 0) true = true) (hopen : s.isOpen p = true) :
    (s.writeAt p src .sysSeal 0 0 0x5EA1).isOpen p = false := by
  have hn : RegName.sysBoot ∈ plainRegs := by decide
  obtain ⟨u, h⟩ := State.writeAt_plain .sysSeal 0x5EA1 hp
  have hu : u.isOpen p = true := by
    unfold State.isOpen State.bt
    rw [h.rd hn]
    exact hopen
  have heff (had : Bool) : (u.writeReg p src (.one .sysSeal) 0x5EA1 had).s =
      (if firstFail false false ((0x5EA1 : Word) ≠ 0x5EA1#32) false (!u.isOpen p) false ≠ .ok
        then .fail (firstFail false false ((0x5EA1 : Word) ≠ 0x5EA1#32) false (!u.isOpen p) false) u
        else { s := ((u.setF p .sysBoot 0 0 0).jnl (whoReg p src (addrOf p .sysSeal)) 0x0002 0).portsRecheck p } : WRes).s := by
    cases p <;> rfl
  have hafter := h.after
  rw [heff, hu] at hafter
  have hkept := ((u.setF p .sysBoot 0 0 0).jnl_still (whoReg p src (addrOf p .sysSeal)) 0x0002 0).trans (State.portsRecheck_still _ p)
  have hboot : (s.writeAt p src .sysSeal 0 0 0x5EA1).rd p .sysBoot = setFld (u.rd p .sysBoot) 0 0 0 :=
    (hafter.rd hn).trans ((hkept.regs p .sysBoot (by decide)).trans (u.rd_wr_same p .sysBoot _ 0 0 (addrOf_plain_lt p hn)))
  unfold State.isOpen State.bt
  rw [hboot, getLsbD_setFld _ _ _ _ _ (by decide) (by decide)]
  rfl

/-! ### Life-cycle requests (R46) -/

theorem slotState_not_book (c : Cls) : ∀ k ∈ List.range 16, addrOf .tsu .slotState k ∉ bookWords .tsu c := by
  cases c <;> decide

/-- What decides a life-cycle request is read alike after bookkeeping. -/
theorem WritesPlain.lcReqCode {p : PartId} {src : Src} {n : RegName} {v : Word} {s u t : State} (h : WritesPlain p src n v s u t) (dst : Nat)
    (force : Bool) : u.lcReqCode p dst force = s.lcReqCode p dst force := by
  have hboot := h.rd (m := .sysBoot)
  have hlife := h.rd (m := .sysLifecycle)
  have hreq := h.field Part.lcReq
  have hjobs : u.jobsFree p = s.jobsFree p := by
    cases p with
    | tsu =>
      unfold State.jobsFree
      rw [Bool.eq_iff_iff, List.all_eq_true, List.all_eq_true]
      refine forall₂_congr fun k hk => ?_
      have : u.rd .tsu .slotState k = s.rd .tsu .slotState k :=
        (h.before.rdA (slotState_not_book _ k hk) .tsu).trans (s.rdA_opened .tsu .tsu src _)
      rw [State.fd, State.fd, this]
    | dist => exact (h.before.outside.field fun x => x.jobsFree .dist).trans rfl
  unfold State.lcReqCode State.lcState State.isOpen State.wiping State.fd State.bt
  rw [hboot, hlife, hreq, hjobs]

/-- SYS_LCREQ's fields as the command gives them. -/
theorem lcreq_fields (target : Fin 4) (force : Bool) :
    fld (BitVec.ofNat 32 (target.val + 256 * b2n force)) 1 0 = target ∧
      (BitVec.ofNat 32 (target.val + 256 * b2n force)).getLsbD 8 = force := by
  revert target; cases force <;> decide

/-- An unlocked request for a transition that is allowed is raised, and the state stands (R46). -/
theorem State.writeAt_sysLcreq {s : State} {p : PartId} {src : Src} {target : Fin 4} {force : Bool} (hp : s.permits p src (some 0) true = true)
    (hun : (s.part p).unlocked.contains src.cls = true) (hok : s.lcReqCode p target force = .ok) :
    ((s.writeAt p src .sysLcreq 0 0 (BitVec.ofNat 32 (target.val + 256 * b2n force))).part p).lcReq =
        some { target := target.val, force := force, src := src } ∧
      (s.writeAt p src .sysLcreq 0 0 (BitVec.ofNat 32 (target.val + 256 * b2n force))).lcState p = s.lcState p := by
  have hn : RegName.sysLifecycle ∈ plainRegs := by decide
  obtain ⟨hdst, hforce⟩ := lcreq_fields target force
  generalize BitVec.ofNat 32 (target.val + 256 * b2n force) = v at hdst hforce ⊢
  obtain ⟨u, h⟩ := State.writeAt_plain .sysLcreq v hp
  have heff : (u.writeReg p src (.one .sysLcreq) v true).s =
      (if u.lcReqCode p (fld v 1 0) (v.getLsbD 8) ≠ .ok then .fail (u.lcReqCode p (fld v 1 0) (v.getLsbD 8)) u
        else { s := u.mod p fun q => { q with lcReq := some ⟨fld v 1 0, v.getLsbD 8, src⟩ },
               cfg := some (u.rdA p (addrOf p .sysLcreq), v &&& BitVec.ofNat 32 0x103) } : WRes).s := by
    cases p <;> rfl
  have hafter := h.after
  rw [hun, heff, hdst, hforce, h.lcReqCode, hok] at hafter
  refine ⟨(hafter.field p Part.lcReq).trans (by simp only [ne_eq, not_true_eq_false, if_false, State.part_mod_same]), ?_⟩
  unfold State.lcState State.fd
  exact congrArg (fld · 1 0) ((hafter.rd hn).trans ((u.rdA_mod p p _ _ rfl).trans (h.rd hn)))

/-- Settles O4. -/
theorem guardsLocksAndSeals : Obligations.GuardsLocksAndSeals := by
  unfold Obligations.GuardsLocksAndSeals
  exact ⟨fun p src key s hp hk => ⟨_, rfl, State.writeAt_sysUnlock hp hk⟩,
    fun p src lo g s hp hg ha hlo hok =>
      ⟨_, congrArg (fun a => Host.Outcome.next (s.regWrite p src a (~~~g.value) true).2) (toNat_addr_plain p (by decide)),
        State.writeAt_htsetHiN hp hg ha hlo hok⟩,
    fun p src s hp hopen => ⟨_, rfl, State.writeAt_sysSeal hp hopen⟩,
    fun p src target force s hp hun hok => ⟨_, rfl, State.writeAt_sysLcreq hp hun hok⟩⟩

end Sys2Proof.Machine
end

section
/-!
PROOFS. What a wipe leaves (R47): the registers of the life cycle but for WIPING, the life-cycle request and store, no record, blank engines.
-/
namespace Sys2Proof.Machine
set_option Elab.async false

/-! ### A field of the state, or of the life-cycle register, over a fold and a setting -/

theorem foldl_keeps {σ α β : Type} {f : σ → α → σ} (g : σ → β) (h : ∀ s a, g (f s a) = g s) (l : List α) (s : σ) : g (l.foldl f s) = g s := by
  induction l generalizing s with
  | nil => rfl
  | cons a l ih => exact (ih (f s a)).trans (h s a)

theorem State.rd_setF_plain (s : State) (p : PartId) {n : RegName} (hn : n ∈ plainRegs) (hi lo v : Nat) :
    (s.setF p n hi lo v).rd p n = setFld (s.rd p n) hi lo v := s.rd_wr_same p n _ 0 0 (addrOf_plain_lt p hn)

theorem addrOf_plain_inj (p : PartId) {n m : RegName} (hn : n ∈ plainRegs) (hm : m ∈ plainRegs) (hne : n ≠ m) : addrOf p n ≠ addrOf p m := by
  have h : ∀ n ∈ plainRegs, ∀ m ∈ plainRegs, n ≠ m → addrOf p n ≠ addrOf p m := by cases p <;> decide
  exact h n hn m hm hne

theorem State.rd_setF_plain_other (s : State) (p : PartId) {n m : RegName} (hn : n ∈ plainRegs) (hm : m ∈ plainRegs) (hne : m ≠ n) (hi lo v : Nat) :
    (s.setF p n hi lo v).rd p m = s.rd p m := s.rdA_setF_other n hi lo v 0 0 (.inr (addrOf_plain_inj p hm hn hne))

/-! ### The engines of a part wiped -/

/-- Nothing is held in the memories and objects of an engine. -/
def Engine.Blank (v : Engine) : Prop := v.imem = [] ∧ v.dmem = [] ∧ v.objs = []

/-- Stopping an engine's contexts touches neither its memories nor its objects, and no other engine. -/
theorem State.stopAll_blank (s : State) (e f : EngSel) (h : (s.eng f).Blank) : ((s.stopAll e).eng f).Blank := by
  have hstep (t : State) (c : Nat) (ht : (t.eng f).Blank) : (((t.setPc e c 0).wr e.part .ctxState 0 (ctxInst e c)).eng f).Blank := by
    have heng : ((t.setPc e c 0).wr e.part .ctxState 0 (ctxInst e c)).eng f = (t.setPc e c 0).eng f :=
      congrArg (fun m => mget (fun _ => ({} : Engine)) m f.key) (State.wrA_engines _ _ _ _)
    have hwr : (t.wr e.part .ctxPc (BitVec.ofNat 32 (0 % 65536)) (ctxInst e c)).eng f = t.eng f :=
      congrArg (fun m => mget (fun _ => ({} : Engine)) m f.key) (State.wrA_engines _ _ _ _)
    rw [heng, State.setPc, State.modCtx, State.setCtx, State.modEng]
    by_cases hf : f = e
    · subst hf
      rw [State.eng_setEng_same, hwr]
      exact ht
    · rw [State.eng_setEng_other _ _ hf, hwr]
      exact ht
  unfold State.stopAll
  generalize List.range 16 = l
  induction l generalizing s with
  | nil => exact h
  | cons c l ih => exact ih _ (hstep s c h)

theorem State.wipeEngine_blank (s : State) (e f : EngSel) (h : f = e ∨ (s.eng f).Blank) : ((s.wipeEngine e).eng f).Blank := by
  refine State.stopAll_blank (s.setEng e {}) e f ?_
  by_cases hf : f = e
  · subst hf
    rw [State.eng_setEng_same]
    exact ⟨rfl, rfl, rfl⟩
  · rw [s.eng_setEng_other _ hf]
    exact h.resolve_left hf

/-- Every engine of a list that is wiped one after another is blank in the end. -/
theorem State.foldl_wipeEngine_blank (l : List EngSel) (s : State) (f : EngSel) (h : f ∈ l ∨ (s.eng f).Blank) :
    ((l.foldl (fun t e => t.wipeEngine e) s).eng f).Blank := by
  induction l generalizing s with
  | nil => exact h.resolve_left List.not_mem_nil
  | cons e l ih =>
    refine ih _ ?_
    by_cases hf : f = e
    · exact .inr (s.wipeEngine_blank e f (.inl hf))
    · exact h.imp (fun k => (List.mem_cons.1 k).resolve_left hf) fun k => s.wipeEngine_blank e f (.inr k)

theorem State.wipeEngine_quietParts (s : State) (e : EngSel) : QuietParts keptRegs s (s.wipeEngine e) := by
  have hstep (t : State) (c : Nat) : QuietParts keptRegs t ((t.setPc e c 0).wr e.part .ctxState 0 (ctxInst e c)) :=
    (((t.wr_still e.part .ctxPc _ _).toQuietParts.trans State.outside_quietParts).trans (State.wr_still _ e.part .ctxState 0 _).toQuietParts)
  have hstop (l : List Nat) (t : State) :
      QuietParts keptRegs t (l.foldl (fun t c => (t.setPc e c 0).wr e.part .ctxState 0 (ctxInst e c)) t) := by
    induction l generalizing t with
    | nil => exact .refl _ t
    | cons c l ih => exact (hstep t c).trans (ih _)
  have hset : QuietParts keptRegs s (s.setEng e {}) := State.outside_quietParts
  exact (hset.trans (hstop (List.range 16) _)).trans State.outside_quietParts

theorem State.foldl_wipeEngine_quietParts (l : List EngSel) (s : State) : QuietParts keptRegs s (l.foldl (fun t e => t.wipeEngine e) s) := by
  induction l generalizing s with
  | nil => exact .refl _ s
  | cons e l ih => exact (s.wipeEngine_quietParts e).trans (ih _)

/-! ### The wipe (R47) -/

/-- The registers of the life cycle that a wipe leaves alone. -/
abbrev lifeRegs : List RegName := [.sysNode, .sysBoot, .sysLifecycle, .tbsHoldMax]

theorem State.wipeTsu_quiet (s : State) : Quiet lifeRegs s s.wipeTsu := by
  unfold State.wipeTsu
  extract_lets s1 s2 s3
  have hsub : lifeRegs ⊆ keptRegs := by decide
  have h1 : Still s s1 := Quiet.foldl (fun t c => ((t.wr_still .tsu .slotState 0 c).trans (State.wr_still _ .tsu .slotJob 0 c)).trans
    (State.wr_still _ .tsu .slotEpoch 0 c)) _ s
  have hstatus (t : State) (v : Nat) : Quiet lifeRegs t (t.setF .tsu .hltStatus 31 28 v) :=
    t.wrA_quiet .tsu (a := addrOf .tsu .hltStatus) _ (by decide)
  have h2 : Quiet lifeRegs s s2 := (h1.mono hsub).trans (.ite ((hstatus _ _).trans ((State.setB_still _ .tsu .hltStat 5 0).mono hsub)) (.refl _ _))
  have hwick (t : State) (kv : Nat × Wick) : Still t ((t.setWick kv.1 kv.2.unbound).showUnbound kv.1 0) :=
    Quiet.trans (t := t.setWick kv.1 kv.2.unbound) State.outside_still (.ite (State.setF_still _ .tsu .wkCfg 13 13 0 kv.1) (.refl _ _))
  have h3 : Quiet lifeRegs s s3 := h2.trans ((Quiet.foldl hwick _ s2).mono hsub)
  exact h3.trans ((State.outside_still : Still s3 _).mono hsub)

theorem State.wipeDist_still (s : State) : Still s s.wipeDist := State.outside_still

/-- What neither register words nor wicks nor the TSU's slots make up, its wipe leaves alone. -/
theorem State.wipeTsu_keeps {β : Type} (g : State → β) (hwr : ∀ t p n v i, g (State.wr t p n v i) = g t)
    (hwick : ∀ t k w, g (State.setWick t k w) = g t)
    (hslots : ∀ t : State, g { t with slots := [], chans := [], taper := (0, []), spilled := none } = g t) (s : State) : g s.wipeTsu = g s := by
  unfold State.wipeTsu
  extract_lets s1 s2 s3
  have h1 : g s1 = g s := foldl_keeps g (fun t c => by rw [hwr, hwr, hwr]) _ _
  have hset (t : State) (n : RegName) (hi lo v i : Nat) : g (t.setF .tsu n hi lo v i) = g t := hwr t _ _ _ _
  have h2 : g s2 = g s1 := by
    unfold s2
    split
    · exact (hset _ .hltStat 5 5 1 0).trans (hset _ .hltStatus 31 28 0 0)
    · rfl
  have hshow (t : State) (k : Nat) : g (t.showUnbound k 0) = g t := hset t .wkCfg 13 13 0 k
  have h3 : g s3 = g s2 := foldl_keeps g (fun t kv => (hshow _ _).trans (hwick _ _ _)) _ _
  exact (hslots s3).trans (h3.trans (h2.trans h1))

theorem State.wipeEngine_macroBad (s : State) (e : EngSel) : (s.wipeEngine e).macroBad = s.macroBad := by
  show (State.stopAll _ e).macroBad = _
  exact foldl_keeps State.macroBad (fun t c => by simp [State.wr, State.setPc, State.modCtx, State.setCtx, State.modEng]) _ _

theorem State.wipe_macroBad (s : State) : (s.wipe .tsu).macroBad = s.macroBad := by
  unfold State.wipe
  extract_lets s1 s2 s3
  have h3 : s3.macroBad = s2.macroBad := State.wipeTsu_keeps State.macroBad (fun t p n v i => t.wrA_macroBad p _ v) (fun _ _ _ => rfl) (fun _ => rfl) s2
  exact (State.wrA_macroBad s3 _ _ _).trans (h3.trans ((s1.mod_macroBad .tsu _).trans (foldl_keeps State.macroBad State.wipeEngine_macroBad _ s)))

/-- What a wipe leaves: the registers and the life-cycle request and store as they were, WIPING, no record, blank engines. -/
structure Wiped (p : PartId) (s t : State) : Prop where
  node : t.rd p .sysNode = s.rd p .sysNode
  boot : t.rd p .sysBoot = s.rd p .sysBoot
  life : t.rd p .sysLifecycle = setFld (s.rd p .sysLifecycle) 8 8 1
  req : (t.part p).lcReq = (s.part p).lcReq
  store : (t.part p).lcStore = (s.part p).lcStore
  recs : (t.part p).jnl.recs = []
  engines : ∀ e ∈ enginesOf p, (t.eng e).Blank

theorem Part.lcReq_of_kept {q r : Part} (h : q.kept = r.kept) : q.lcReq = r.lcReq := congrArg (·.2.2.1) h
theorem Part.lcStore_of_kept {q r : Part} (h : q.kept = r.kept) : q.lcStore = r.lcStore := congrArg (·.2.2.2) h
theorem Part.strobes_of_kept {q r : Part} (h : q.kept = r.kept) : q.strobes = r.strobes := congrArg (·.1) h
theorem Part.pend_of_kept {q r : Part} (h : q.kept = r.kept) : q.pend = r.pend := congrArg (·.2.1) h

theorem Wiped.wiping {p : PartId} {s t : State} (h : Wiped p s t) : t.wiping p = true := by
  rw [State.wiping, State.bt, h.life, getLsbD_setFld _ _ _ _ _ (by decide) (by decide)]
  rfl

theorem Wiped.lcState {p : PartId} {s t : State} (h : Wiped p s t) : t.lcState p = s.lcState p := by
  rw [State.lcState, State.fd, h.life, fld_setFld_other _ _ (by decide) (by decide) (.inl (by decide))]
  rfl

/-- Operations on a wiping part that leave everything followed alone leave it wiped. -/
theorem Wiped.quiet {p : PartId} {s t u : State} (h : Wiped p s t) (k : Quiet lifeRegs t u) : Wiped p s u where
  node := (k.regs p _ (by decide)).trans h.node
  boot := (k.regs p _ (by decide)).trans h.boot
  life := (k.regs p _ (by decide)).trans h.life
  req := (Part.lcReq_of_kept (k.kept p)).trans h.req
  store := (Part.lcStore_of_kept (k.kept p)).trans h.store
  recs := (k.recs p h.wiping).trans h.recs
  engines := fun e he => by
    have := h.engines e he
    unfold State.eng at this ⊢
    rwa [k.engines]

/-- The part of a wipe that is the TSU's or the distributor's own. -/
theorem State.wipeOwn (s : State) (p : PartId) : Quiet lifeRegs s (match p with | .tsu => s.wipeTsu | .dist => s.wipeDist) ∧
    ((match p with | .tsu => s.wipeTsu | .dist => s.wipeDist : State).part p).jnl = (s.part p).jnl := by
  cases p with
  | tsu =>
    exact ⟨s.wipeTsu_quiet,
      State.wipeTsu_keeps (fun t => (t.part .tsu).jnl) (fun t p n v i => t.jnl_wrA p .tsu _ v) (fun _ _ _ => rfl) (fun _ => rfl) s⟩
  | dist => exact ⟨s.wipeDist_still.mono (by decide), rfl⟩

theorem State.wipe_wiped (s : State) (p : PartId) : Wiped p s (s.wipe p) := by
  unfold State.wipe
  extract_lets s1 s2 s3
  have h1 : QuietParts keptRegs s s1 := s.foldl_wipeEngine_quietParts _
  have hblank (e : EngSel) (he : e ∈ enginesOf p) : (s1.eng e).Blank := s.foldl_wipeEngine_blank _ e (.inl he)
  have h2 (n : RegName) : s2.rd p n = s1.rd p n := s1.rdA_mod p p _ _ rfl
  have hpart : s2.part p = { s1.part p with jnl := {}, strobes := (s1.part p).strobes.map StrobeReq.orphan } := s1.part_mod_same p _
  have heng : s2.engines = s1.engines := s1.mod_engines p _
  obtain ⟨h3, h3jnl⟩ : Quiet lifeRegs s2 s3 ∧ (s3.part p).jnl = (s2.part p).jnl := s2.wipeOwn p
  clear_value s1 s2 s3
  have hrd (n : RegName) (hn : n ∈ lifeRegs) : s3.rd p n = s.rd p n :=
    (h3.regs p n hn).trans ((h2 n).trans (h1.regs p n ((by decide : lifeRegs ⊆ keptRegs) hn)))
  have hcore := s3.core_setF p p .sysLifecycle 8 8 1 0 0
  have hother (n : RegName) (hn : n ∈ lifeRegs) (hp : n ∈ plainRegs) (hne : n ≠ .sysLifecycle) :
      (s3.setF p .sysLifecycle 8 8 1).rd p n = s.rd p n :=
    (s3.rd_setF_plain_other p (by decide) hp hne 8 8 1).trans (hrd n hn)
  refine ⟨hother _ (by decide) (by decide) (by decide), hother _ (by decide) (by decide) (by decide), ?_, ?_, ?_, ?_, fun e he => ?_⟩
  · rw [s3.rd_setF_plain p (by decide), hrd _ (by decide)]
  · refine (Part.field_of_core hcore Part.lcReq).trans ((Part.lcReq_of_kept (h3.kept p)).trans ?_)
    rw [hpart]
    exact (Part.lcReq_of_kept (h1.kept p) : (s1.part p).lcReq = (s.part p).lcReq)
  · refine (Part.field_of_core hcore Part.lcStore).trans ((Part.lcStore_of_kept (h3.kept p)).trans ?_)
    rw [hpart]
    exact (Part.lcStore_of_kept (h1.kept p) : (s1.part p).lcStore = (s.part p).lcStore)
  · rw [State.setF, State.wr, State.jnl_wrA, h3jnl, hpart]
  · have : ((s3.setF p .sysLifecycle 8 8 1).eng e) = s1.eng e := by
      unfold State.eng
      rw [State.setF, State.wr, State.wrA_engines, h3.engines, heng]
    rw [this]
    exact hblank e he

end Sys2Proof.Machine
end

section
/-!
PROOFS. Life-cycle answers, the end of a wipe and resets (R43, R45, R46, R47, R441, R444, R453, R457, R468), and O6.
-/
namespace Sys2Proof.Machine
set_option Elab.async false

/-! ### The lifetime record and the sensors leave the life cycle alone -/

theorem State.accessOutcome_still (s : State) (p : PartId) (src : Src) (a : Nat) (c : Code) (late : Nat) :
    Still s (s.accessOutcome p src a c late) := s.jnlAt_still _ _ _ _

theorem State.modLif_still (s : State) (p : PartId) (f : Lifetime → Lifetime) : Still s (s.modLif p f) := s.mod_still p _

theorem State.lifCount_still (s : State) (p : PartId) (off n : Nat) : Still s (s.lifCount p off n) := s.mod_still p _

theorem State.lifeRec_still (s : State) (p : PartId) (kind : Nat) (c : Code) : Still s (s.lifeRec p kind c) := s.jnl_still _ _ _

theorem State.lifFresh_still (s : State) (p : PartId) : Still s (s.lifFresh p) :=
  (((s.modLif_still p _).trans (State.setF_still _ p .lifStatus 2 1 2 0)).trans (State.setF_still _ p .lifStatus 31 16 0 0)).trans
    (State.lifeRec_still _ p 2 .ok)

theorem State.lifLoaded_still (s : State) (p : PartId) (ws : List Word) : Still s (s.lifLoaded p ws) :=
  ((((s.modLif_still p _).trans (State.setF_still _ p .lifStatus 2 1 1 0)).trans (State.setF_still _ p .lifStatus 31 16 (recGen ws) 0)).trans
    (State.setB_still _ p .lifStat 1 0)).trans (State.lifeRec_still _ p 1 .ok)

theorem State.lifBoot_still (s : State) (norOk : Bool) : Still s (s.lifBoot norOk) := by
  unfold State.lifBoot
  dsimp only
  split
  · exact (s.setF_still .dist .lifStatus 3 3 _ 0).trans (State.lifLoaded_still _ .dist _)
  · exact (s.setB_still .dist .lifStat 3 0).trans (State.lifFresh_still _ .dist)

theorem State.savePump_still (s : State) : Still s s.savePump := s.mod_still .tsu fun q => { q with lif := { q.lif with saveOut := _ } }

theorem State.lifSave_still (s : State) (p : PartId) : Still s (s.lifSave p) := by
  unfold State.lifSave
  extract_lets s1 s2 old s3
  have h2 : Still s s2 := ((s.modLif_still p _).trans (s1.setF_still p .lifStatus 31 16 _ 0)).trans (State.setF_still _ p .lifStatus 0 0 1 0)
  have h3 : Still s s3 := h2.trans (s2.modLif_still p _)
  exact .ite (.refl _ s) (.ite (h3.trans s3.savePump_still) h3)

theorem State.showBands_still (s : State) : Still s s.showBands := by
  have hband (t : State) (x : Nat × Nat) : Still t (t.setF .dist .tilStatus 31 29 x.2 x.1) := t.setF_still .dist .tilStatus 31 29 x.2 x.1
  unfold State.showBands
  exact Quiet.foldl hband s.pkg.bands s

/-! ### A part enters a life-cycle state -/

/-- The life-cycle state set and a count of the lifetime record taken, on which a wipe follows (R45, R46). -/
def State.enterState (s : State) (p : PartId) (v off : Nat) : State := ((s.setF p .sysLifecycle 1 0 v).lifCount p off 1).wipe p

/-- What has entered a life-cycle state: the state, a running wipe, node, seal, request and store as they were, no record, blank engines. -/
structure Entered (p : PartId) (v : Nat) (s t : State) : Prop where
  lcState : t.lcState p = v
  wiping : t.wiping p = true
  node : t.node p = s.node p
  isOpen : t.isOpen p = s.isOpen p
  req : (t.part p).lcReq = (s.part p).lcReq
  store : (t.part p).lcStore = (s.part p).lcStore
  recs : (t.part p).jnl.recs = []
  engines : ∀ e ∈ enginesOf p, (t.eng e).Blank

theorem State.enterState_entered (s : State) (p : PartId) {v : Nat} (off : Nat) (hv : v < 4) {t : State}
    (k : Quiet lifeRegs (s.enterState p v off) t) : Entered p v s t := by
  have hw := (State.wipe_wiped _ p).quiet k
  have hc := (s.setF p .sysLifecycle 1 0 v).lifCount_still p off 1
  have hcore := s.core_setF p p .sysLifecycle 1 0 v 0 0
  have hother (n : RegName) (hn : n ∈ keptRegs) (hp : n ∈ plainRegs) (hne : n ≠ .sysLifecycle) :
      ((s.setF p .sysLifecycle 1 0 v).lifCount p off 1).rd p n = s.rd p n :=
    (hc.regs p n hn).trans (s.rd_setF_plain_other p (by decide) hp hne 1 0 v)
  refine ⟨?_, hw.wiping, congrArg (fld · 19 0) (hw.node.trans (hother _ (by decide) (by decide) (by decide))),
    congrArg (BitVec.getLsbD · 0) (hw.boot.trans (hother _ (by decide) (by decide) (by decide))),
    hw.req.trans ((Part.lcReq_of_kept (hc.kept p)).trans (Part.field_of_core hcore Part.lcReq)),
    hw.store.trans ((Part.lcStore_of_kept (hc.kept p)).trans (Part.field_of_core hcore Part.lcStore)), hw.recs, hw.engines⟩
  rw [hw.lcState, State.lcState, State.fd, hc.regs p _ (by decide), s.rd_setF_plain p (by decide), fld_setFld_same _ _ _ _ (by decide) (by decide)]
  exact Nat.mod_eq_of_lt hv

/-! ### Answers to a life-cycle request (R46, R441) -/

theorem lcsAck_entered {p : PartId} {r : LcRequest} {s : State} (hr : (s.part p).lcReq = some r) (ht : r.target < 4) :
    ∃ u : State, Entered p r.target u (lcsAck p s) ∧ (u.part p).lcReq = none ∧ (u.part p).lcStore = r.target := by
  refine ⟨s.mod p fun q => { q with lcReq := none, lcStore := r.target, wipeInfo := (1, s.lcState p, r.target, b2n r.force) }, ?_,
    by rw [s.part_mod_same], by rw [s.part_mod_same]⟩
  refine State.enterState_entered _ p 28 ht (Quiet.mono ?_ (by decide : lifeRegs ⊆ keptRegs))
  simp only [lcsAck, hr]
  exact Quiet.trans (.ite (State.lifSave_still _ .dist) (.refl _ _)) (State.portsRecheck_still _ p)

/-- A request that fails: it ends, and its outcome is journalled. -/
theorem lcsFail_ends {p : PartId} {r : LcRequest} {s : State} (hr : (s.part p).lcReq = some r) :
    (lcsFail p s).lcState p = s.lcState p ∧ ((lcsFail p s).part p).lcReq = none ∧
      ((lcsFail p s).part p).lcStore = (s.part p).lcStore ∧ (lcsFail p s).wiping p = s.wiping p := by
  have heq : lcsFail p s = (s.mod p fun q => { q with lcReq := none }).accessOutcome p r.src (addrOf p .sysLcreq) .integrity 0 := by
    simp only [lcsFail, hr]
  have h := (s.mod p fun q => { q with lcReq := none }).accessOutcome_still p r.src (addrOf p .sysLcreq) .integrity 0
  rw [← heq] at h
  have hlife : (lcsFail p s).rd p .sysLifecycle = s.rd p .sysLifecycle := (h.regs p _ (by decide)).trans (s.rdA_mod p p _ _ rfl)
  exact ⟨congrArg (fld · 1 0) hlife, (Part.lcReq_of_kept (h.kept p)).trans (by rw [s.part_mod_same]),
    (Part.lcStore_of_kept (h.kept p)).trans (by rw [s.part_mod_same]), congrArg (BitVec.getLsbD · 8) hlife⟩

/-! ### The end of a wipe (R47) -/

theorem recs_spillScan (rd size room : Nat) (rs : List JRec) (j : Journal) : (spillScan rd size room rs j).1.recs = j.recs := by
  induction rs generalizing j with
  | nil => rfl
  | cons r rs ih =>
    unfold spillScan
    split
    · exact ih j
    · split
      · rfl
      · split
        · exact ih _
        · rfl

theorem State.recs_spillPump (s : State) : s.spillPump.tsu.jnl.recs = s.tsu.jnl.recs := by
  unfold State.spillPump
  split
  · dsimp only
    split
    · exact (congrArg Journal.recs (State.jnl_wrA _ .tsu .tsu _ _)).trans (recs_spillScan _ _ _ _ _)
    · exact recs_spillScan _ _ _ _ _
  · rfl

/-- The first record of an empty journal. -/
theorem State.jnlAt_recs_of_empty {s : State} {w : Who} (h : HT) (ty payload : Nat) (hw : s.wiping w.p = false) (hj : (s.part w.p).jnl = {}) :
    ((s.jnlAt w h ty payload).part w.p).jnl.recs.map (·.ty) = [ty] := by
  obtain ⟨p, tile, blk, ctx⟩ := w
  rw [State.jnlAt, if_neg (by rw [hw]; decide)]
  cases p with
  | tsu =>
    have hj : s.tsu.jnl = {} := hj
    have hflush : s.flushLoss = s := by simp only [State.flushLoss, hj]
    show (State.spillPump _).tsu.jnl.recs.map (·.ty) = [ty]
    rw [State.recs_spillPump, hflush]
    simp [State.pushRec, pushTsu, hj, ringSize, State.mkRec]
  | dist =>
    have hj : s.dist.jnl = {} := hj
    simp [State.pushHbm, State.pushRing, hj, hbmRingSize, State.mkRec, State.part, State.mod, State.setPart]

theorem State.wipeEnd_ends {s : State} {p : PartId} (hw : s.wiping p = true) :
    (wipeEnd p s).wiping p = false ∧ ((s.part p).jnl = {} → ((wipeEnd p s).part p).jnl.recs.map (·.ty) = [0x0001]) := by
  unfold wipeEnd
  extract_lets s1 l w
  rw [if_neg (by rw [hw]; decide)]
  have hs1 : s1.wiping p = false := by
    rw [State.wiping, State.bt, s.rd_setF_plain p (by decide), getLsbD_setFld _ _ _ _ _ (by decide) (by decide)]
    rfl
  exact ⟨((s1.jnl_still _ _ _).wiping (by decide) p).trans hs1,
    fun hj => State.jnlAt_recs_of_empty _ _ _ hs1 ((s.jnl_wrA p p _ _).trans hj)⟩

/-! ### Resets (R444, R457, R468) -/

/-- Node and store sampled into a part in its reset state. -/
theorem State.sampled_entered {s : State} {p : PartId} {node : Nat} (hr : (s.part p).regs = []) (hn : node < 2 ^ 20)
    (hst : (s.part p).lcStore < 4) {t : State} (k : Quiet lifeRegs (s.sampled p node) t) :
    t.node p = node ∧ t.lcState p = (s.part p).lcStore ∧ t.wiping p = true ∧ t.isOpen p = true ∧ (t.part p).jnl.recs = [] := by
  have h := (s.setF p .sysNode 19 0 node).enterState_entered p 24 hst k
  refine ⟨?_, h.lcState, h.wiping, ?_, h.recs⟩
  · rw [h.node, State.node, State.fd, s.rd_setF_plain p (by decide), fld_setFld_same _ _ _ _ (by decide) (by decide)]
    exact Nat.mod_eq_of_lt hn
  · rw [h.isOpen, State.isOpen, State.bt, s.rd_setF_plain_other p (by decide) (by decide) (by decide), State.rd, State.rdA, hr]
    cases p <;> decide

theorem rstTsu_reset (node : BitVec 20) (macrosOk : Bool) {s : State} (hst : s.tsu.lcStore < 4) :
    (rstTsu node macrosOk s).node .tsu = node.toNat ∧ (rstTsu node macrosOk s).lcState .tsu = s.tsu.lcStore ∧
      (rstTsu node macrosOk s).wiping .tsu = true ∧ (rstTsu node macrosOk s).isOpen .tsu = true ∧
      (rstTsu node macrosOk s).tsu.jnl.recs = [] ∧ (rstTsu node macrosOk s).macroBad = !macrosOk := by
  unfold rstTsu
  extract_lets bin s1
  have hk : Quiet lifeRegs (s1.sampled .tsu node.toNat) ((s1.sampled .tsu node.toNat).setF .tsu .hltStatus 4 0 bin) :=
    State.wrA_quiet _ .tsu (a := addrOf .tsu .hltStatus) _ (by decide)
  obtain ⟨hnode, hlc, hw, ho, hj⟩ := State.sampled_entered (s := s1) (p := .tsu) rfl node.isLt hst hk
  refine ⟨hnode, hlc, hw, ho, hj, (State.wrA_macroBad _ _ _ _).trans ((State.wipe_macroBad _).trans ((State.mod_macroBad _ _ _).trans ?_))⟩
  exact (State.wrA_macroBad _ _ _ _).trans (State.wrA_macroBad _ _ _ _)

theorem State.bootDist_reset (f : Fuses) (oscIn norOk : Bool) {s : State} (hst : s.dist.lcStore < 4) :
    (s.bootDist f oscIn norOk).node .dist = 8 * f.node.toNat ∧ (s.bootDist f oscIn norOk).lcState .dist = s.dist.lcStore ∧
      (s.bootDist f oscIn norOk).wiping .dist = true ∧ (s.bootDist f oscIn norOk).isOpen .dist = true ∧
      (s.bootDist f oscIn norOk).dist.jnl.recs = [] ∧ (s.bootDist f oscIn norOk).fd .dist .hkpBoot 7 0 = 1 := by
  unfold State.bootDist
  extract_lets pkg s1 s2
  have hk : Still (s1.sampled .dist (8 * f.node.toNat)) ((s2.setF .dist .oscStatus 2 2 (b2n oscIn)).setF .dist .hkpBoot 7 0 1) :=
    (((State.lifBoot_still _ norOk).trans (State.showBands_still _)).trans (s2.setF_still .dist .oscStatus 2 2 _ 0)).trans
      (State.setF_still _ .dist .hkpBoot 7 0 1 0)
  obtain ⟨hnode, hlc, hw, ho, hj⟩ := State.sampled_entered (s := s1) (p := .dist) rfl (by omega : 8 * f.node.toNat < 2 ^ 20) hst (hk.mono (by decide))
  refine ⟨hnode, hlc, hw, ho, hj, ?_⟩
  rw [State.fd, State.setF, State.rd_wr_same _ .dist .hkpBoot _ 0 0 (by decide), fld_setFld_same _ _ _ _ (by decide) (by decide)]
  rfl

/-! ### O6 -/

theorem Engine.Blank.isEmpty {v : Engine} (h : v.Blank) : (v.imem.isEmpty && v.dmem.isEmpty && v.objs.isEmpty) = true := by
  obtain ⟨hi, hd, ho⟩ := h
  rw [hi, hd, ho]
  rfl

/-- Settles O6. -/
theorem lifeCycleTransitionsAndWipes : Obligations.LifeCycleTransitionsAndWipes := by
  unfold Obligations.LifeCycleTransitionsAndWipes
  refine ⟨fun p r s hr ht => ⟨_, rfl, ?_⟩, fun p r s hr => ⟨_, rfl, lcsFail_ends hr⟩, fun p r s hr => ⟨_, rfl, lcsFail_ends hr⟩,
    fun p s hw => ⟨_, rfl, State.wipeEnd_ends hw⟩, fun node ok s hst => ⟨_, rfl, rstTsu_reset node ok hst⟩,
    fun f o n s hp hst => ⟨s.bootDist f o n, congrArg Host.Outcome.next (if_neg (by rw [hp]; decide)), State.bootDist_reset f o n hst⟩,
    fun f o n s hp => ⟨_, rfl, if_pos hp⟩⟩
  obtain ⟨u, h, hreq, hstore⟩ := lcsAck_entered hr ht
  exact ⟨h.lcState, h.wiping, h.req.trans hreq, h.store.trans hstore, h.recs, List.all_eq_true.2 fun e he => (h.engines e he).isEmpty⟩

end Sys2Proof.Machine
end

section
/-!
PROOFS. Strobes (R33–R37, R144), and O3.
-/
namespace Sys2Proof.Machine
set_option Elab.async false

/-! ### The queue -/

/-- A strobe with a valid sign and room in its queue is queued, LATE where its target is at or before the present. -/
theorem State.queueStrobe_room {s : State} {p : PartId} (src : Src) (kind : StrobeKind) {target : HT} (mask : Nat)
    (hn : noSign target (s.ht p) = false) (hr : (s.part p).scheduled.length < strobeCap p) :
    ((s.queueStrobe p src kind target mask).1 = .ok ∨ (s.queueStrobe p src kind target mask).1 = .late) ∧
      ((s.queueStrobe p src kind target mask).2.2.part p).strobes = (s.part p).strobes ++
        [{ target := target, due := if atOrAfter (s.ht p) target then s.ht p + 1 else target, mask := mask, src := src, kind := kind,
           late := atOrAfter (s.ht p) target }] := by
  unfold State.queueStrobe
  extract_lets now late r s1
  rw [if_neg (by rw [hn]; decide), if_neg (by omega)]
  have hs1 : (s1.part p).strobes = (s.part p).strobes ++ [r] := by rw [s.part_mod_same]
  by_cases hl : late = true
  · rw [if_pos hl]
    exact ⟨.inr rfl, hs1⟩
  · rw [if_neg hl]
    exact ⟨.inl rfl, hs1⟩

/-- A full queue takes no strobe. -/
theorem State.queueStrobe_full {s : State} {p : PartId} (src : Src) (kind : StrobeKind) (target : HT) (mask : Nat)
    (hf : strobeCap p ≤ (s.part p).scheduled.length) :
    (s.queueStrobe p src kind target mask).1 ≠ .ok ∧ (s.queueStrobe p src kind target mask).1 ≠ .late := by
  unfold State.queueStrobe
  extract_lets now late r s1
  by_cases hn : noSign target now = true
  · rw [if_pos hn]
    exact ⟨nofun, nofun⟩
  · rw [if_neg hn, if_pos hf]
    exact ⟨nofun, nofun⟩

/-- SYS_UPDATE queues an immediate strobe (R35). -/
theorem State.writeAt_sysUpdate {s : State} {p : PartId} {src : Src} (mask : Word) (hp : s.permits p src (some 0) true = true) :
    ((s.writeAt p src .sysUpdate 0 0 mask).part p).strobes = (s.part p).strobes ++
      [{ target := s.ht p + 1, due := s.ht p + 1, mask := mask.toNat, src := src, kind := .immediate }] := by
  obtain ⟨u, h⟩ := State.writeAt_plain .sysUpdate mask hp
  have heff (had : Bool) : (u.writeReg p src (.one .sysUpdate) mask had).s = u.immediateStrobe p src mask.toNat := by cases p <;> rfl
  have hafter := h.after
  rw [heff] at hafter
  have hht : u.ht p = s.ht p := h.field fun q => q.tb.ht
  rw [hafter.field p Part.strobes, State.immediateStrobe, u.part_mod_same, hht]
  exact congrArg (· ++ _) (h.field Part.strobes)

/-- SYS_UPD_AT_HI as it meets a state: the scheduled strobe at {HI, staged LO}, and the staging word reloaded. -/
theorem State.writeReg_updAtHi (u : State) (p : PartId) (src : Src) (v : Word) (had : Bool) :
    (u.writeReg p src (.one .sysUpdAtHi) v had).s =
      (u.updAtWrite p src (.one .sysUpdAtHi) (u.staged p src (addrOf p .sysUpdAtLo) (u.rd p .sysUpdAtLo)) v).s.setStage p src
        (addrOf p .sysUpdAtLo) none := by
  cases p <;> rfl

theorem State.strobes_setStage (s : State) (p : PartId) (src : Src) (a : Nat) (v : Option Word) :
    ((s.setStage p src a v).part p).strobes = (s.part p).strobes := by rw [State.setStage, s.part_mod_same]

theorem State.strobes_putPair (s : State) (p : PartId) (l : Loc) (lo : RegName) (lv hv : Word) :
    ((s.putPair p l lo lv hv).part p).strobes = (s.part p).strobes :=
  (Part.field_of_core (State.core_wrA _ p p _ hv) Part.strobes).trans (Part.field_of_core (s.core_wrA p p _ lv) Part.strobes)

/-- A scheduled strobe with room in the queue (R35, R36). -/
theorem State.writeAt_sysUpdAtHi {s : State} {p : PartId} {src : Src} {v lo : Word} (hp : s.permits p src (some 0) true = true)
    (hlo : s.staged p src (addrOf p .sysUpdAtLo) (s.rd p .sysUpdAtLo) = lo) (hr : (s.part p).scheduled.length < strobeCap p)
    (hn : noSign (v ++ lo) (s.ht p) = false) :
    ((s.writeAt p src .sysUpdAtHi 0 0 v).part p).strobes = (s.part p).strobes ++
      [{ target := v ++ lo, due := if atOrAfter (s.ht p) (v ++ lo) then s.ht p + 1 else v ++ lo, mask := (s.rd p .sysUpdMask).toNat,
         src := src, kind := .register, late := atOrAfter (s.ht p) (v ++ lo) }] := by
  obtain ⟨u, h⟩ := State.writeAt_plain .sysUpdAtHi v hp
  have hht : u.ht p = s.ht p := h.field fun q => q.tb.ht
  have hstaged : u.staged p src (addrOf p .sysUpdAtLo) (u.rd p .sysUpdAtLo) = lo := by
    rw [h.rd, State.staged_congr (h.field Part.stage), hlo]
  have hsched : (u.part p).scheduled = (s.part p).scheduled := h.field Part.scheduled
  obtain ⟨hcode, hq⟩ := State.queueStrobe_room (s := u) (p := p) src .register (target := v ++ lo) (u.rd p .sysUpdMask).toNat
    (by rw [hht, hn]) (by rw [hsched]; exact hr)
  have hupd : (u.updAtWrite p src (.one .sysUpdAtHi) lo v).s =
      (u.queueStrobe p src .register (v ++ lo) (u.rd p .sysUpdMask).toNat).2.2.putPair p (.one .sysUpdAtHi) .sysUpdAtLo lo v :=
    congrArg WRes.s (if_pos (by simpa using hcode))
  have hafter := h.after
  rw [State.writeReg_updAtHi, hstaged, hupd] at hafter
  rw [hafter.field p Part.strobes, State.strobes_setStage, State.strobes_putPair, hq, hht, h.rd, h.field Part.strobes]

/-- A full queue takes no scheduled strobe. -/
theorem State.writeAt_sysUpdAtHi_full {s : State} {p : PartId} {src : Src} {v : Word} (hp : s.permits p src (some 0) true = true)
    (hf : strobeCap p ≤ (s.part p).scheduled.length) :
    ((s.writeAt p src .sysUpdAtHi 0 0 v).part p).strobes = (s.part p).strobes := by
  obtain ⟨u, h⟩ := State.writeAt_plain .sysUpdAtHi v hp
  have hsched : (u.part p).scheduled = (s.part p).scheduled := h.field Part.scheduled
  have hupd (lo : Word) : (u.updAtWrite p src (.one .sysUpdAtHi) lo v).s = u := by
    obtain ⟨h1, h2⟩ := State.queueStrobe_full (s := u) (p := p) src .register (v ++ lo) (u.rd p .sysUpdMask).toNat (by rw [hsched]; exact hf)
    exact congrArg WRes.s (if_neg (by simpa using And.intro h1 h2))
  have hafter := h.after
  rw [State.writeReg_updAtHi, hupd] at hafter
  rw [hafter.field p Part.strobes, State.strobes_setStage, h.field Part.strobes]

theorem State.outcome_still (s : State) (w : Who) (c : Code) (op pc late : Nat) : Still s (s.outcome w c op pc late) := s.jnl_still w _ _

theorem State.completeTold_still (s : State) (op : Option OpRef) (c : Code) : Still s (s.completeTold op c) := by
  cases op
  · exact .refl _ s
  · exact State.outside_still

theorem State.strobeRemoved_still (s : State) (p : PartId) (r : StrobeReq) : Still s (s.strobeRemoved p r) := by
  unfold State.strobeRemoved
  extract_lets w
  split
  · exact (s.outcome_still _ _ _ _ _).trans (State.completeTold_still _ _ _)
  · exact s.outcome_still _ _ _ _ _
  · exact s.outcome_still _ _ _ _ _
  · exact .refl _ s

/-- The removal of strobes leaves the others. -/
theorem State.strobes_removeStrobes (s : State) (p : PartId) (f : StrobeReq → Bool) :
    ((s.removeStrobes p f).part p).strobes = (s.part p).strobes.filter fun r => !(decide (r.kind ≠ .immediate) && f r) := by
  unfold State.removeStrobes
  extract_lets gone s1
  refine (Part.strobes_of_kept ((Quiet.foldl (fun t r => t.strobeRemoved_still p r) gone s1).kept p)).trans ?_
  rw [s.part_mod_same]

theorem State.writeReg_updCancel (u : State) (p : PartId) (src : Src) (v : Word) (had : Bool) :
    (u.writeReg p src (.one .sysUpdCancel) v had).s = if v.getLsbD 0 then u.removeStrobes p fun r => r.src.cls == src.cls else u := by
  cases p <;> rfl

/-- SYS_UPD_CANCEL with ALL leaves no scheduled strobe of the writer's class (R36). -/
theorem State.writeAt_sysUpdCancel_all {s : State} {p : PartId} {src : Src} {v : Word} (hp : s.permits p src (some 0) true = true)
    (hv : v.getLsbD 0 = true) :
    ((s.writeAt p src .sysUpdCancel 0 0 v).part p).strobes =
      (s.part p).strobes.filter fun r => !(decide (r.kind ≠ .immediate) && r.src.cls == src.cls) := by
  obtain ⟨u, h⟩ := State.writeAt_plain .sysUpdCancel v hp
  have hafter := h.after
  rw [State.writeReg_updCancel, if_pos hv] at hafter
  rw [hafter.field p Part.strobes, State.strobes_removeStrobes, h.field Part.strobes]

theorem State.writeAt_sysUpdCancel_none {s : State} {p : PartId} {src : Src} {v : Word} (hp : s.permits p src (some 0) true = true)
    (hv : v.getLsbD 0 = false) : ((s.writeAt p src .sysUpdCancel 0 0 v).part p).strobes = (s.part p).strobes := by
  obtain ⟨u, h⟩ := State.writeAt_plain .sysUpdCancel v hp
  have hafter := h.after
  rw [State.writeReg_updCancel, if_neg (by rw [hv]; decide)] at hafter
  rw [hafter.field p Part.strobes, h.field Part.strobes]

/-! ### A STROBE frame (R37) -/

/-- A STEP frame of a slot's own generation and epoch acts on it. -/
theorem State.stepFrame_own {s : State} {handle : BitVec 16} {gen : Byte} {epoch : Word} {newer : Bool} {act : Nat → State} {c : Nat}
    (hf : s.fenced = false) (hc : s.slotOfHandle handle.toNat = some c) (hm : s.slotMatches c gen.toNat epoch.toNat = true) :
    s.stepFrame handle gen epoch newer act = act c := by
  obtain ⟨hgen, hepoch⟩ : s.fd .tsu .slotJob 31 24 c = gen.toNat ∧ (s.rd .tsu .slotEpoch c).toNat = epoch.toNat := by
    simpa [State.slotMatches] using hm
  simp [State.stepFrame, hc, hf, hgen, hepoch]

theorem strobeFrame_strobes {handle : BitVec 16} {gen : Byte} {epoch mask : Word} {tick : HT} {c : Nat} {s : State} (hf : s.fenced = false)
    (hc : s.slotOfHandle handle.toNat = some c) (hm : s.slotMatches c gen.toNat epoch.toNat = true) (hr : s.tsu.scheduled.length < 8)
    (hn : noSign tick (s.ht .tsu) = false) :
    (strobeFrame handle gen epoch mask tick s).tsu.strobes = s.tsu.strobes ++
      [{ target := tick, due := if atOrAfter (s.ht .tsu) tick then s.ht .tsu + 1 else tick, mask := mask.toNat, src := { cls := .link },
         kind := .frame 2 0x60, late := atOrAfter (s.ht .tsu) tick }] := by
  obtain ⟨-, hq⟩ := State.queueStrobe_room (s := s) (p := .tsu) { cls := .link } (.frame 2 0x60) (target := tick) mask.toNat hn hr
  rw [strobeFrame, State.stepFrame_own hf hc hm]
  generalize s.queueStrobe .tsu { cls := .link } (.frame 2 0x60) tick mask.toNat = r at hq ⊢
  have hkept : Still r.2.2 (if r.1 = .ok then r.2.2 else r.2.2.frameOutcome .tsu 0 r.1 2 0x60 r.2.1) := .ite (.refl _ _) (State.jnl_still _ _ _ _)
  exact (Part.strobes_of_kept (hkept.kept .tsu)).trans hq

end Sys2Proof.Machine
end

section
/-!
PROOFS. The update strobe (R33–R37, R144), and O3.
-/
namespace Sys2Proof.Machine
set_option Elab.async false

/-! ### A pending copy becomes active -/

theorem State.core_applyPend (s : State) (p q : PartId) (due : List StrobeReq) (t : HT) (a : Nat) (v : Word) :
    ((s.applyPend p due t a v).part q).core = (s.part q).core := by
  unfold State.applyPend
  extract_lets old
  split
  · rfl
  · split
    · next r _ => exact ((State.cfgRec_books _ p r.src.cls r.src a old v 2 t .ok).core q).trans (s.core_wrA p q a v)
    · rfl

/-- At another address it leaves a register alone, -/
theorem State.rd_applyPend_other (s : State) {p : PartId} (due : List StrobeReq) (t : HT) {a : Nat} (v : Word) {n : RegName} (hn : n ∈ plainRegs)
    (ha : a ≠ addrOf p n) : (s.applyPend p due t a v).rd p n = s.rd p n := by
  unfold State.applyPend
  extract_lets old
  split
  · rfl
  · split
    · next r _ => exact ((State.cfgRec_books _ p r.src.cls r.src a old v 2 t .ok).rd hn).trans (s.rdA_wrA_other v (.inr ha.symm))
    · rfl

/-- and at the register's own, where a strobe includes its block, the register takes the value. -/
theorem State.rd_applyPend_same (s : State) {p : PartId} {due : List StrobeReq} (t : HT) (v : Word) {n : RegName} (hn : n ∈ plainRegs)
    (hd : ∃ r ∈ due, maskHas r.mask p (addrOf p n) = true) : (s.applyPend p due t (addrOf p n) v).rd p n = v := by
  unfold State.applyPend
  extract_lets old
  split
  · next hold => exact hold
  · split
    · next r _ =>
      exact ((State.cfgRec_books _ p r.src.cls r.src (addrOf p n) old v 2 t .ok).rd hn).trans (s.rdA_wrA_same p v (addrOf_plain_lt p hn))
    · next hnone =>
      obtain ⟨r, hr, hm⟩ := hd
      exact absurd hm (List.find?_eq_none.1 hnone r hr)

theorem State.core_foldl_applyPend (p q : PartId) (due : List StrobeReq) (t : HT) (l : List (Nat × Word)) (s : State) :
    ((l.foldl (fun u kv => u.applyPend p due t kv.1 kv.2) s).part q).core = (s.part q).core :=
  foldl_keeps (fun u : State => (u.part q).core) (fun u kv => u.core_applyPend p q due t kv.1 kv.2) l s

/-- Of copies that agree on a register's value, one that is there makes it active. -/
theorem State.rd_foldl_applyPend {p : PartId} {due : List StrobeReq} (t : HT) {v : Word} {n : RegName} (hn : n ∈ plainRegs)
    (hd : ∃ r ∈ due, maskHas r.mask p (addrOf p n) = true) (l : List (Nat × Word)) (hl : ∀ x ∈ l, x.1 = addrOf p n → x.2 = v) (s : State)
    (h : (addrOf p n, v) ∈ l ∨ s.rd p n = v) : (l.foldl (fun u kv => u.applyPend p due t kv.1 kv.2) s).rd p n = v := by
  induction l generalizing s with
  | nil => exact h.resolve_left List.not_mem_nil
  | cons x l ih =>
    refine ih (fun y hy => hl y (List.mem_cons_of_mem x hy)) _ ?_
    by_cases hx : x.1 = addrOf p n
    · right
      show (s.applyPend p due t x.1 x.2).rd p n = v
      rw [hx, hl x List.mem_cons_self hx]
      exact s.rd_applyPend_same t v hn hd
    · rw [s.rd_applyPend_other due t x.2 hn hx]
      exact h.imp_left fun k => (List.mem_cons.1 k).resolve_left fun e => hx (congrArg Prod.fst e).symm

/-! ### The effects that follow -/

theorem State.refSelChanged_still (s : State) (old new : Nat) : Still s (s.refSelChanged old new) :=
  .ite (.refl _ s) (Quiet.trans (.ite (.refl _ s) (.ite (s.setQual_still .dist 0) (.ite (s.setQual_still .dist 3) (.refl _ s))))
    (State.refreshRef_still _))

theorem State.afterStrobe_still (s : State) (p : PartId) (c : Nat × Word × Word) : Still s (s.afterStrobe p c) := by
  unfold State.afterStrobe
  split
  · split
    · exact s.tdcCtrlActive_still p _ _ _
    · exact s.setTdc_still p _ _
    · exact .ite (s.dropFine_still p _ _) (.refl _ s)
    · exact s.refSelChanged_still _ _
    · exact (s.selectRef_still p).trans (State.refreshQual_still _ p)
    · exact (s.selectRef_still p).trans (State.refreshQual_still _ p)
    · exact s.osc_still _
    · exact .refl _ s
  · exact .refl _ s

theorem State.strobeDone_still (s : State) (t : HT) (r : StrobeReq) : Still s (s.strobeDone t r) := by
  unfold State.strobeDone
  split
  · exact .ite (s.completeOp_still _ _ _ _ _ _) (s.completeOp_still _ _ _ _ _ _)
  · exact .refl _ s

theorem State.answer_still (s : State) (k : Nat) (r : Req) (c : Code) (v late : Nat) : Still s (s.answer k r c v late) := by
  unfold State.answer
  split
  · exact s.completeOp_still _ _ _ _ _ _
  · exact s.send_still _ _ _ _

theorem State.jobStrobes_still (s : State) (k : Nat) (t : HT) : Still s (s.jobStrobes k t) :=
  Quiet.trans (t := s.modJob k fun j => { j with upds := j.upds.filter fun u => !atOrAfter t u.1 }) State.outside_still
    (Quiet.foldl (fun w _ => w.answer_still k _ _ _ _) _ _)

/-! ### The strobe itself -/

/-- A FENCED TSU applies no strobe that a STROBE frame asked for (R37). -/
def StrobeReq.acts (r : StrobeReq) (p : PartId) (s : State) : Bool :=
  match r.kind with
  | .frame _ _ => !(decide (p = .tsu) && s.fenced)
  | _ => true

/-- The strobes that fall on a tick and act. -/
def State.actingStrobes (s : State) (p : PartId) (falls : StrobeReq → Bool) : List StrobeReq :=
  ((s.part p).strobes.filter falls).filter fun r => r.acts p s

/-- The union of the masks of some strobes. -/
def unionMask (l : List StrobeReq) : Nat := l.foldl (fun m r => m ||| r.mask) 0

/-- The state in which the strobes of a tick have left the queue and the pending copies of their blocks are active. -/
def State.strobeApplied (s : State) (p : PartId) (t : HT) (falls : StrobeReq → Bool) : State :=
  ((s.part p).pend.filter fun kv => maskHas (unionMask (s.actingStrobes p falls)) p kv.1).foldl
    (fun u kv => u.applyPend p (s.actingStrobes p falls) t kv.1 kv.2)
    (s.mod p fun q => { q with
      strobes := q.strobes.filter fun r => !falls r
      pend := q.pend.filter fun kv => !maskHas (unionMask (s.actingStrobes p falls)) p kv.1 })

/-- UPDATE_STROBE is that, and effects that leave registers, queue and pending copies alone. -/
theorem updateStrobe_still {p : PartId} {s : State} {t0 u : HT} (he : earliest (s.strobeTicks p) = some t0)
    (hu : (if atOrAfter (s.ht p) t0 then s.ht p else t0) = u) :
    Still ((s.reach p u).strobeApplied p u fun r => atOrAfter u (s.tickAt p r.due)) (updateStrobe p s) := by
  unfold updateStrobe
  split
  · next hnone => rw [he] at hnone; cases hnone
  · next t1 hsome =>
    rw [he] at hsome
    cases hsome
    extract_lets t falls s1 acts mask taken changed s2 s3 s4 s5 s6
    have ht : t = u := hu
    subst ht
    have h4 : Still s3 s4 := Quiet.foldl (fun x c => x.afterStrobe_still p c) changed s3
    have h5 : Still s3 s5 := h4.trans (.ite (s4.serveDown_still p _) (.refl _ _))
    have h6 : Still s3 s6 := h5.trans (Quiet.foldl (fun x r => x.strobeDone_still t r) acts s5)
    have h7 := h6.trans (.ite (c := p = .dist) (Quiet.foldl (fun x k => x.jobStrobes_still k t) (s6.jobs.map (·.1)) s6) (.refl _ s6))
    exact h7

theorem testBit_foldl_or (l : List StrobeReq) (m b : Nat) (h : m.testBit b = true ∨ ∃ r ∈ l, r.mask.testBit b = true) :
    (l.foldl (fun m r => m ||| r.mask) m).testBit b = true := by
  induction l generalizing m with
  | nil => exact h.resolve_right fun ⟨_, hr, _⟩ => List.not_mem_nil hr
  | cons x l ih =>
    refine ih _ ?_
    rw [Nat.testBit_or, Bool.or_eq_true]
    obtain h | ⟨r, hr, hb⟩ := h
    · exact .inl (.inl h)
    · obtain rfl | hr := List.mem_cons.1 hr
      · exact .inl (.inr hb)
      · exact .inr ⟨r, hr, hb⟩

theorem maskHas_holdMax (m : Nat) (p : PartId) : maskHas m p (addrOf p .tbsHoldMax) = m.testBit 1 := by
  unfold maskHas
  rw [locate_plain p (by decide)]
  rfl

/-- What a strobe that falls and includes block 1 makes of TBS_HOLD_MAX, its pending copy and the queue. -/
theorem State.strobeApplied_holdMax {s : State} {p : PartId} (t : HT) {falls : StrobeReq → Bool} {r : StrobeReq} {v : Word}
    (hr : r ∈ s.actingStrobes p falls) (hm : r.mask.testBit 1 = true) (hall : ∀ y ∈ (s.part p).pend, y.1 = addrOf p .tbsHoldMax → y.2 = v)
    (hv : (addrOf p .tbsHoldMax, v) ∈ (s.part p).pend) :
    (s.strobeApplied p t falls).rd p .tbsHoldMax = v ∧
      (∀ y ∈ ((s.strobeApplied p t falls).part p).pend, y.1 ≠ addrOf p .tbsHoldMax) ∧
      ((s.strobeApplied p t falls).part p).strobes = (s.part p).strobes.filter fun r => !falls r := by
  have hunion : maskHas (unionMask (s.actingStrobes p falls)) p (addrOf p .tbsHoldMax) = true :=
    (maskHas_holdMax _ p).trans (testBit_foldl_or _ 0 1 (.inr ⟨r, hr, hm⟩))
  have hd : ∃ r ∈ s.actingStrobes p falls, maskHas r.mask p (addrOf p .tbsHoldMax) = true := ⟨r, hr, (maskHas_holdMax _ p).trans hm⟩
  have hcore (x : State) (l : List (Nat × Word)) := State.core_foldl_applyPend p p (s.actingStrobes p falls) t l x
  unfold State.strobeApplied
  refine ⟨State.rd_foldl_applyPend t (by decide) hd _ (fun x hx => hall x (List.mem_filter.1 hx).1) _
    (.inl (List.mem_filter.2 ⟨hv, hunion⟩)), ?_, ?_⟩
  · rw [Part.field_of_core (hcore _ _) Part.pend, s.part_mod_same]
    intro y hy heq
    have hno := (List.mem_filter.1 hy).2
    rw [heq, hunion] at hno
    cases hno
  · rw [Part.field_of_core (hcore _ _) Part.strobes, s.part_mod_same]

/-- UPDATE_STROBE with a strobe of block 1 due and a pending copy of TBS_HOLD_MAX. -/
theorem updateStrobe_holdMax {p : PartId} {t0 u : HT} {r : StrobeReq} {v : Word} {s : State} (he : earliest (s.strobeTicks p) = some t0)
    (hu : (if atOrAfter (s.ht p) t0 then s.ht p else t0) = u) (hr : r ∈ (s.part p).strobes) (hdue : atOrAfter u (s.tickAt p r.due) = true)
    (hm : r.mask.testBit 1 = true) (hk : r.acts p s = true)
    (hall : ∀ y ∈ (s.part p).pend, y.1 = addrOf p .tbsHoldMax → y.2 = v) (hv : (addrOf p .tbsHoldMax, v) ∈ (s.part p).pend) :
    (updateStrobe p s).rd p .tbsHoldMax = v ∧ (∀ y ∈ ((updateStrobe p s).part p).pend, y.1 ≠ addrOf p .tbsHoldMax) ∧
      ((updateStrobe p s).part p).strobes = (s.part p).strobes.filter fun y => !atOrAfter u (s.tickAt p y.due) := by
  have hreach := s.reach_still p u
  have hstrobes := Part.strobes_of_kept (hreach.kept p)
  have hpend := Part.pend_of_kept (hreach.kept p)
  have hfenced : (s.reach p u).fenced = s.fenced := congrArg (BitVec.getLsbD · 31) (hreach.regs .tsu .hltStatus (by decide))
  have hacts : r.acts p (s.reach p u) = true := by
    rwa [StrobeReq.acts, hfenced]
  have hact : r ∈ (s.reach p u).actingStrobes p fun r => atOrAfter u (s.tickAt p r.due) := by
    unfold State.actingStrobes
    rw [hstrobes]
    exact List.mem_filter.2 ⟨List.mem_filter.2 ⟨hr, hdue⟩, hacts⟩
  rw [← hpend] at hall hv
  obtain ⟨hrd, hnone, hqueue⟩ := State.strobeApplied_holdMax u hact hm hall hv
  have hafter := updateStrobe_still he hu
  refine ⟨(hafter.regs p _ (by decide)).trans hrd, ?_, (Part.strobes_of_kept (hafter.kept p)).trans (hqueue.trans (by rw [hstrobes]))⟩
  rwa [Part.pend_of_kept (hafter.kept p)]

/-! ### O3 -/

/-- Settles O3. -/
theorem strobesAreQueuedAppliedRemoved : Obligations.StrobesAreQueuedAppliedRemoved := by
  unfold Obligations.StrobesAreQueuedAppliedRemoved
  refine ⟨fun p src mask s hp => ⟨_, rfl, State.writeAt_sysUpdate mask hp⟩,
    fun p src v lo s hp hlo hr hn => ⟨_, rfl, State.writeAt_sysUpdAtHi hp hlo hr hn⟩,
    fun p src v s hp hf => ⟨_, rfl, State.writeAt_sysUpdAtHi_full hp hf⟩,
    fun p src v s hp hv => ⟨_, rfl, State.writeAt_sysUpdCancel_all hp hv⟩,
    fun p src v s hp hv => ⟨_, rfl, State.writeAt_sysUpdCancel_none hp hv⟩,
    fun p t0 u r v s he hu hr hdue hm hk hall hv => ⟨_, rfl, ?_⟩,
    fun handle gen epoch mask tick c s hf hc hsm hr hn => ⟨_, rfl, ?_⟩⟩
  · have hagree : ∀ y ∈ (s.part p).pend, y.1 = addrOf p .tbsHoldMax → y.2 = v := by
      intro y hy ha
      simpa [ha] using List.all_eq_true.1 hall y hy
    obtain ⟨hrd, hnone, hqueue⟩ := updateStrobe_holdMax he hu (List.contains_iff_mem.1 hr) hdue hm hk hagree
      (List.contains_iff_mem.1 hv)
    exact ⟨hrd, List.all_eq_true.2 fun y hy => bne_iff_ne.2 (hnone y hy), hqueue⟩
  · beta_reduce
    rw [strobeFrame_strobes hf hc hsm hr hn, List.map_append]
    rfl

end Sys2Proof.Machine
end

section
/-!
PROOFS. What a transmitter's work leaves of its part (R104–R109): the register words and the time base, and of every frame sent all that no
transmission stamps anew.
-/
namespace Sys2Proof.Machine

/-! ### A transmitter's work -/

/-- A part without its queue of frames and its ports' data, which a transmitter moves. -/
def Part.atRest (q : Part) : Part := { q with sent := [], ports := [], psrv := [] }

/-- What of a frame sent no transmission changes: addressee, class, type, flits, and the fields after the first, into which TXTS goes (R112). -/
def Sent.content (f : Sent) : Dest × Nat × Nat × Nat × List Nat := (f.dest, f.frame.cls, f.frame.ty, f.frame.flits, f.frame.fields.drop 1)

/-- `t` is `s` but for what transmitters do: frames may have been added and stamped, none is gone. -/
structure Transmits (s t : State) : Prop where
  rest : ∀ q, (t.part q).atRest = (s.part q).atRest
  sent : ∀ q, (s.part q).sent.map Sent.content <+: (t.part q).sent.map Sent.content

theorem Transmits.refl (s : State) : Transmits s s := ⟨fun _ => rfl, fun _ => List.prefix_refl _⟩

theorem Transmits.trans {s t u : State} (h : Transmits s t) (k : Transmits t u) : Transmits s u :=
  ⟨fun q => (k.rest q).trans (h.rest q), fun q => (h.sent q).trans (k.sent q)⟩

theorem Transmits.ite {s t u : State} {c : Prop} [Decidable c] (h : Transmits s t) (k : Transmits s u) : Transmits s (if c then t else u) := by
  split
  · exact h
  · exact k

theorem Transmits.foldl {α : Type} {f : State → α → State} (hf : ∀ s a, Transmits s (f s a)) (l : List α) (s : State) :
    Transmits s (l.foldl f s) := List.foldlRecOn (motive := Transmits s) l f (.refl s) fun t h a _ => h.trans (hf t a)

/-- A frame that was sent is still there, whatever was stamped on it. -/
theorem Transmits.mem_content {s t : State} (h : Transmits s t) {q : PartId} {c : Dest × Nat × Nat × Nat × List Nat}
    (hc : c ∈ (s.part q).sent.map Sent.content) : c ∈ (t.part q).sent.map Sent.content := (h.sent q).subset hc

theorem State.mod_transmits (s : State) (p : PartId) (f : Part → Part) (hr : (f (s.part p)).atRest = (s.part p).atRest := by rfl)
    (hs : (s.part p).sent.map Sent.content <+: (f (s.part p)).sent.map Sent.content := by exact List.prefix_refl _) :
    Transmits s (s.mod p f) := by
  have hpart {P : Part → Part → Prop} (hsame : P (s.part p) (f (s.part p))) (hrefl : ∀ x, P x x) (q : PartId) :
      P (s.part q) ((s.mod p f).part q) := by
    by_cases h : q = p
    · subst h; rw [s.part_mod_same]; exact hsame
    · rw [s.part_mod_other f h]; exact hrefl _
  exact ⟨hpart (P := fun x y => y.atRest = x.atRest) hr fun _ => rfl,
    hpart (P := fun x y => x.sent.map Sent.content <+: y.sent.map Sent.content) hs fun _ => List.prefix_refl _⟩

theorem State.setPrt_transmits (s : State) (p : PartId) (n : Nat) (v : PortSt) : Transmits s (s.setPrt p n v) := s.mod_transmits p _

theorem State.setPsrv_transmits (s : State) (p : PartId) (n : Nat) (v : PortSrv) : Transmits s (s.setPsrv p n v) := s.mod_transmits p _

theorem State.send_transmits (s : State) (p : PartId) (d : Dest) (f : Frame) (lane : Option Nat) : Transmits s (s.send p d f lane) :=
  s.mod_transmits p _ rfl (by rw [List.map_append]; exact List.prefix_append _ _)

theorem State.serveDown_transmits (s : State) (p : PartId) (f : Frame) : Transmits s (s.serveDown p f) :=
  Transmits.foldl (fun t n => t.send_transmits p (.port n) f none) _ s

theorem State.noteDreq_transmits (s : State) (p : PartId) (n : Nat) (f : Sent) : Transmits s (s.noteDreq p n f) :=
  .ite (s.setPsrv_transmits p n _) (.refl s)

/-- Replacing an item by one that a function sees alike changes no image. -/
theorem map_modAt_of_eq {α β : Type} {c : α → β} {x y : α} (h : c y = c x) :
    ∀ {i : Nat} {l : List α}, l[i]? = some x → (modAt i (fun _ => y) l).map c = l.map c
  | 0, [], hi => rfl
  | 0, a :: l, hi => by
    obtain rfl : a = x := by simpa using hi
    simp [modAt, h]
  | i + 1, [], hi => rfl
  | i + 1, a :: l, hi => congrArg (c a :: ·) (map_modAt_of_eq h (by simpa using hi))

/-- The time-stamps of a frame that starts leave its content alone (R110, R112). -/
theorem State.content_stamped (s : State) (p : PartId) (n : Nat) (f : Sent) : (s.stamped p n f).content = f.content := by
  unfold State.stamped
  dsimp only
  split
  · split <;> rfl
  · rfl

theorem State.startFrame_transmits (s : State) (p : PartId) (n i : Nat) : Transmits s (s.startFrame p n i) := by
  unfold State.startFrame
  split
  · exact .refl s
  · next f hf =>
    extract_lets v e now fresh v0 vm v1 g
    have hg : g.content = f.content := s.content_stamped p n _
    have hmod : Transmits s (s.mod p fun q => { q with sent := modAt i (fun _ => g) q.sent }) :=
      s.mod_transmits p _ rfl (by rw [map_modAt_of_eq hg hf])
    exact (hmod.trans (State.setPrt_transmits _ p n v1)).trans (State.noteDreq_transmits _ p n g)

theorem State.bulkFill_transmits (s : State) (n : Nat) : Transmits s (s.bulkFill n) := by
  unfold State.bulkFill
  extract_lets v
  split
  · exact .refl s
  · split
    · exact .refl s
    · extract_lets d f b1
      refine .ite (.refl s) (Transmits.trans ?_ (State.setPrt_transmits _ .tsu n _))
      exact s.mod_transmits .tsu _ rfl (by rw [List.map_append]; exact List.prefix_append _ _)

theorem State.bulkRefill_transmits (s : State) (p : PartId) (n : Nat) : Transmits s (s.bulkRefill p n) :=
  .ite ((s.bulkFill_transmits n).trans (State.bulkFill_transmits _ n)) (.refl s)

theorem State.calQueue_transmits (s : State) (p : PartId) (n : Nat) : Transmits s (s.calQueue p n) := by
  unfold State.calQueue
  extract_lets v
  split
  · exact .ite (.refl s) ((s.send_transmits p _ _ _).trans (State.setPrt_transmits _ p n _))
  · exact .refl s

theorem wireN_transmits (fuel : Nat) (p : PartId) (n lim : Nat) (s : State) : Transmits s (wireN fuel p n lim s) := by
  induction fuel generalizing s with
  | zero => exact .refl s
  | succ fuel ih =>
    unfold wireN
    extract_lets s1 v k1 cal stop k2
    have h1 : Transmits s s1 := s.calQueue_transmits p n
    have hport (x : PortSt) : Transmits s (wireN fuel p n lim (s1.setPrt p n x)) := (h1.trans (s1.setPrt_transmits p n x)).trans (ih _)
    refine .ite h1 (.ite (hport _) ?_)
    split
    · exact (h1.trans (s1.startFrame_transmits p n _)).trans (ih _)
    · refine .ite (hport _) ?_
      split
      · exact ((h1.trans (s1.startFrame_transmits p n _)).trans (State.bulkRefill_transmits _ p n)).trans (ih _)
      · exact hport _

theorem State.pump_transmits (s : State) (p : PartId) (n : Nat) : Transmits s (s.pump p n) :=
  .ite ((s.bulkRefill_transmits p n).trans (wireN_transmits _ p n _ _)) (.refl s)

/-- Bringing transmitters up to date is transmitters' work. -/
theorem State.pumpAll_transmits (s : State) (p : PartId) : Transmits s (s.pumpAll p) :=
  Transmits.foldl (fun t n => t.pump_transmits p n) _ s

end Sys2Proof.Machine
end

section
/-!
PROOFS. Hall time set, the calendar and holdover (R54, R56–R59, R70, R145), and O9.
-/
namespace Sys2Proof.Machine

/-! ### The registers of the time base -/

/-- The calendar, the time-quality code and what a change of the code writes besides. -/
def timeRegs : List RegName :=
  [.tbsCalHtLo, .tbsCalHtHi, .tbsCalSLo, .tbsCalSHi, .tbsCalNs, .tbsCalRate, .tbsUtcOff, .tbsQual, .tbsHoldErr, .tbsStat]

theorem addrOf_time_lt (p : PartId) {n : RegName} (hn : n ∈ timeRegs) : addrOf p n < 0x4000000 := by
  revert n; cases p <;> decide

theorem addrOf_time_not_book (p : PartId) (c : Cls) {n : RegName} (hn : n ∈ timeRegs) : addrOf p n ∉ bookWords p c := by
  revert n; cases p <;> cases c <;> decide

theorem addrOf_time_inj (p : PartId) {n m : RegName} (hn : n ∈ timeRegs) (hm : m ∈ timeRegs) (hne : n ≠ m) : addrOf p n ≠ addrOf p m := by
  have h : ∀ n ∈ timeRegs, ∀ m ∈ timeRegs, n ≠ m → addrOf p n ≠ addrOf p m := by cases p <;> decide
  exact h n hn m hm hne

theorem State.rd_wr_time_same (s : State) (p : PartId) {n : RegName} (v : Word) (hn : n ∈ timeRegs := by decide) : (s.wr p n v).rd p n = v :=
  s.rd_wr_same p n v 0 0 (addrOf_time_lt p hn)

theorem State.rd_wr_time_other (s : State) (p : PartId) {n m : RegName} (v : Word) (hn : n ∈ timeRegs := by decide)
    (hm : m ∈ timeRegs := by decide) (hne : m ≠ n := by decide) : (s.wr p n v).rd p m = s.rd p m :=
  s.rdA_wr_other n v 0 0 (.inr (addrOf_time_inj p hm hn hne))

theorem State.fd_setF_time_same (s : State) (p : PartId) {n : RegName} {hi lo v : Nat} (hv : v < 2 ^ (hi + 1 - lo))
    (hn : n ∈ timeRegs := by decide) (hle : lo ≤ hi + 1 := by decide) (hi32 : hi < 32 := by decide) : (s.setF p n hi lo v).fd p n hi lo = v := by
  rw [State.fd, State.setF, s.rd_wr_time_same p _ hn, fld_setFld_same _ _ _ _ hle hi32, Nat.mod_eq_of_lt hv]

/-- Neither those registers of part `p` nor its time base has changed. -/
structure TimeKept (p : PartId) (s t : State) : Prop where
  rd : ∀ n ∈ timeRegs, t.rd p n = s.rd p n
  tb : (t.part p).tb = (s.part p).tb

theorem TimeKept.refl (p : PartId) (s : State) : TimeKept p s s := ⟨fun _ _ => rfl, rfl⟩

theorem TimeKept.trans {p : PartId} {s t u : State} (h : TimeKept p s t) (k : TimeKept p t u) : TimeKept p s u :=
  ⟨fun n hn => (k.rd n hn).trans (h.rd n hn), k.tb.trans h.tb⟩

theorem TimeKept.foldl {p : PartId} {α : Type} {f : State → α → State} (hf : ∀ s a, TimeKept p s (f s a)) (l : List α) (s : State) :
    TimeKept p s (l.foldl f s) := List.foldlRecOn (motive := TimeKept p s) l f (.refl p s) fun t h a _ => h.trans (hf t a)

theorem TimeKept.fd {p : PartId} {s t : State} (h : TimeKept p s t) {n : RegName} (hi lo : Nat) (hn : n ∈ timeRegs := by decide) :
    t.fd p n hi lo = s.fd p n hi lo := congrArg (fld · hi lo) (h.rd n hn)

/-- What of a part is neither register word nor time base may change. -/
theorem TimeKept.of_part {p : PartId} {s t : State} (hr : (t.part p).regs = (s.part p).regs) (ht : (t.part p).tb = (s.part p).tb) :
    TimeKept p s t := ⟨fun n _ => by rw [State.rd, State.rd, State.rdA, State.rdA, hr], ht⟩

theorem Books.timeKept {p : PartId} {c : Cls} {s t : State} (h : Books p c s t) : TimeKept p s t :=
  ⟨fun _ hn => h.rdA (addrOf_time_not_book p c hn) p, h.field p Part.tb⟩

theorem Transmits.timeKept {s t : State} (h : Transmits s t) (p : PartId) : TimeKept p s t := by
  have hregs := congrArg Part.regs (h.rest p)
  have htb := congrArg Part.tb (h.rest p)
  exact .of_part hregs htb

theorem State.mod_timeKept (s : State) (p : PartId) (f : Part → Part) (hr : ∀ x, (f x).regs = x.regs := by intro _; rfl)
    (ht : ∀ x, (f x).tb = x.tb := by intro _; rfl) : TimeKept p s (s.mod p f) :=
  .of_part (by rw [s.part_mod_same, hr]) (by rw [s.part_mod_same, ht])

theorem State.jnl_timeKept (s : State) (w : Who) (ty payload : Nat) : TimeKept w.p s (s.jnl w ty payload) :=
  (s.jnlAt_books w .host _ ty payload).timeKept

/-! ### Loading the calendar (R56, R57) -/

/-- One calendar word loaded: active at once, with a record where it changes. -/
def State.loadWord (s : State) (p : PartId) (h : HT) (x : RegName × Nat) : State :=
  if s.rd p x.1 = BitVec.ofNat 32 x.2 then s
  else (s.wr p x.1 (BitVec.ofNat 32 x.2)).cfgRec p { cls := .link } (addrOf p x.1) (s.rd p x.1) (BitVec.ofNat 32 x.2) 2 h

theorem State.loadCalendar_eq (s : State) (p : PartId) (vals : List Nat) (h : HT) :
    s.loadCalendar p vals h = (calWords vals).foldl (fun t x => t.loadWord p h x) s := rfl

theorem State.tb_loadWord (s : State) (p : PartId) (h : HT) (x : RegName × Nat) : ((s.loadWord p h x).part p).tb = (s.part p).tb := by
  unfold State.loadWord
  split
  · rfl
  · exact (State.cfgRec_books _ p .link _ _ _ _ _ h .ok).timeKept.tb.trans (Part.field_of_core (s.core_wrA p p _ _) Part.tb)

theorem State.rd_loadWord_same (s : State) (p : PartId) (h : HT) {x : RegName × Nat} (hx : x.1 ∈ timeRegs) :
    (s.loadWord p h x).rd p x.1 = BitVec.ofNat 32 x.2 := by
  unfold State.loadWord
  split
  · next hold => exact hold
  · exact ((State.cfgRec_books _ p .link _ _ _ _ _ h .ok).timeKept.rd _ hx).trans (s.rd_wr_time_same p _ hx)

theorem State.rd_loadWord_other (s : State) (p : PartId) (h : HT) {x : RegName × Nat} {n : RegName} (hx : x.1 ∈ timeRegs) (hn : n ∈ timeRegs)
    (hne : n ≠ x.1) : (s.loadWord p h x).rd p n = s.rd p n := by
  unfold State.loadWord
  split
  · rfl
  · exact ((State.cfgRec_books _ p .link _ _ _ _ _ h .ok).timeKept.rd _ hn).trans (s.rd_wr_time_other p _ hx hn hne)

theorem calWords_names (vals : List Nat) : (∀ x ∈ calWords vals, x.1 ∈ timeRegs) ∧ ((calWords vals).map Prod.fst).Nodup := by
  unfold calWords
  split
  · simp [timeRegs]
  · simp

/-- Words of different registers, loaded one after another, are all there in the end. -/
theorem State.rd_foldl_loadWord (p : PartId) (h : HT) {l : List (RegName × Nat)} (hl : ∀ x ∈ l, x.1 ∈ timeRegs) (hnd : (l.map Prod.fst).Nodup)
    (s : State) : ∀ x ∈ l, (l.foldl (fun t x => t.loadWord p h x) s).rd p x.1 = BitVec.ofNat 32 x.2 := by
  induction l using List.reverseRecOn generalizing s with
  | nil => exact fun x hx => absurd hx List.not_mem_nil
  | append_singleton l y ih =>
    rw [List.map_append, List.nodup_append] at hnd
    obtain ⟨hnd, -, hdisj⟩ := hnd
    intro x hx
    rw [List.foldl_append]
    have hy := hl y (by simp)
    obtain hx | hx := List.mem_append.1 hx
    · have hxl := hl x (by simp [hx])
      refine (State.rd_loadWord_other _ p h hy hxl ?_).trans (ih (fun z hz => hl z (by simp [hz])) hnd s x hx)
      exact hdisj _ (List.mem_map_of_mem hx) _ (by simp)
    · obtain rfl := List.mem_singleton.1 hx
      exact State.rd_loadWord_same _ p h hy

theorem State.rd_loadCalendar (s : State) (p : PartId) (vals : List Nat) (h : HT) :
    ∀ x ∈ calWords vals, (s.loadCalendar p vals h).rd p x.1 = BitVec.ofNat 32 x.2 :=
  State.rd_foldl_loadWord p h (calWords_names vals).1 (calWords_names vals).2 s

theorem State.tb_loadCalendar (s : State) (p : PartId) (vals : List Nat) (h : HT) : ((s.loadCalendar p vals h).part p).tb = (s.part p).tb :=
  foldl_keeps (fun u : State => (u.part p).tb) (fun u x => u.tb_loadWord p h x) _ s

/-- The low field of a word that holds no more. -/
theorem fld_ofNat_low {hi v : Nat} (hv : v < 2 ^ (hi + 1)) (hi32 : hi < 32) : fld (BitVec.ofNat 32 v) hi 0 = v := by
  have : v < 2 ^ 32 := hv.trans_le (Nat.pow_le_pow_right (by decide) hi32)
  rw [fld, bits, BitVec.toNat_ofNat, Nat.mod_eq_of_lt this, Nat.shiftRight_zero, Nat.sub_zero, Nat.mod_eq_of_lt hv]

/-- Two words make up a value of up to 64 bits. -/
theorem toNat_two_words (x : Nat) : (BitVec.ofNat 32 (x % 2 ^ 32)).toNat + 2 ^ 32 * (x / 2 ^ 32) = x := by
  rw [BitVec.toNat_ofNat]; omega

/-- Once the words of a CALINFO are in the registers, its five values are the calendar. -/
theorem State.calValues_of_words {t : State} {p : PartId} {calHt : HT} {sec : BitVec 48} {ns : BitVec 30} {rate : Word} {utc : BitVec 16}
    (h : ∀ x ∈ calWords [calHt.toNat, sec.toNat, ns.toNat, rate.toNat, utc.toNat], t.rd p x.1 = BitVec.ofNat 32 x.2) :
    t.calValues p = [calHt.toNat, sec.toNat, ns.toNat, rate.toNat, utc.toNat] := by
  simp only [calWords, List.forall_mem_cons, List.not_mem_nil, false_imp_iff, implies_true, and_true] at h
  obtain ⟨hhtLo, hhtHi, hsLo, hsHi, hns, hrate, hutc⟩ := h
  have hcal := calHt.isLt
  have hsec := sec.isLt
  have hsecHi : sec.toNat / 2 ^ 32 % 2 ^ 16 = sec.toNat / 2 ^ 32 := Nat.mod_eq_of_lt (by omega)
  simp only [State.calValues, State.anchor, State.fd, hhtLo, hhtHi, hsLo, hsHi, hns, hrate, hutc, List.cons.injEq, and_true]
  refine ⟨?_, ?_, ?_, ?_, ?_⟩
  · have hhi : (BitVec.ofNat 32 (calHt.toNat / 2 ^ 32)).toNat = calHt.toNat / 2 ^ 32 := Nat.mod_eq_of_lt (by omega)
    rw [hhi, toNat_two_words, BitVec.toNat_ofNat, Nat.mod_eq_of_lt hcal]
  · rw [fld_ofNat_low (Nat.mod_lt _ (by decide)) (by decide), hsecHi, toNat_two_words]
  · rw [fld_ofNat_low (Nat.mod_lt _ (by decide)) (by decide), Nat.mod_eq_of_lt ns.isLt]
  · rw [BitVec.toNat_ofNat, Nat.mod_mod, Nat.mod_eq_of_lt rate.isLt]
  · rw [fld_ofNat_low (Nat.mod_lt _ (by decide)) (by decide), Nat.mod_eq_of_lt utc.isLt]

/-! ### Hall time's advance and the time base -/

theorem State.tb_wr (s : State) (p q : PartId) (n : RegName) (v : Word) (i j : Nat) : ((s.wr p n v i j).part q).tb = (s.part q).tb :=
  Part.field_of_core (s.core_wrA p q _ v) Part.tb

theorem State.tb_endReplays (s : State) (q : PartId) : (s.endReplays.part q).tb = (s.part q).tb := by
  unfold State.endReplays
  split
  · rfl
  · refine foldl_keeps (fun u : State => (u.part q).tb) (fun t _ => ?_) _ s
    have hslots (x : List (Nat × Slot)) : ({ t with slots := x } : State).part q = t.part q := by cases q <;> rfl
    dsimp only
    split
    · rfl
    · split <;> exact (State.tb_wr _ _ q _ _ _ _).trans (congrArg Part.tb (hslots _))

theorem State.tb_rebase (s : State) (p q : PartId) (h : HT) (rate : Int) : ((s.rebase p h rate).part q).tb = (s.part q).tb :=
  foldl_keeps (fun u : State => (u.part q).tb) (fun u _ => u.tb_wr p q _ _ 0 0) _ s

theorem State.part_osc (s : State) (o : OscState) (q : PartId) : ({ s with osc := o } : State).part q = s.part q := by cases q <;> rfl

theorem State.tb_endCalTerm (s : State) (q : PartId) : (s.endCalTerm.part q).tb = (s.part q).tb := by
  unfold State.endCalTerm
  split
  · split
    · exact ((State.serveDown_transmits _ .dist _).timeKept q).tb.trans ((congrArg Part.tb (State.part_osc _ _ q)).trans (s.tb_rebase .dist q _ _))
    · rfl
  · rfl

/-- Time passing sets the time base and leaves it there. -/
theorem State.tb_passed (s : State) (p : PartId) (tb : TimeBase) : ((s.passed p tb).part p).tb = tb := by
  unfold State.passed
  extract_lets done s1 s2
  have h1 : (s1.part p).tb = tb := congrArg Part.tb (s.part_mod_same p _)
  have h2 : (s2.part p).tb = tb := by
    unfold s2
    split
    · exact (s1.tb_wr p p _ _ 0 0).trans h1
    · exact h1
  cases p with
  | tsu => exact (s2.tb_endReplays .tsu).trans h2
  | dist => exact (s2.tb_endCalTerm .dist).trans h2

theorem State.calinfo_advanced (s : State) (p : PartId) (target : HT) : (s.advanced p target).calinfo = (s.part p).tb.calinfo := by
  unfold State.advanced
  split <;> rfl

/-- CALINFOs wait while time passes. -/
theorem State.calinfo_reach (s : State) (p : PartId) (target : HT) : ((s.reach p target).part p).tb.calinfo = (s.part p).tb.calinfo := by
  unfold State.reach
  split
  · rfl
  · rw [s.tb_passed, s.calinfo_advanced]

/-! ### An HT set loads (R54, R55) -/

theorem State.part_completeTold (s : State) (o : Option OpRef) (c : Code) (q : PartId) : (s.completeTold o c).part q = s.part q := by
  cases o <;> cases q <;> rfl

theorem State.strobeRemoved_timeKept (s : State) (p : PartId) (r : StrobeReq) : TimeKept p s (s.strobeRemoved p r) := by
  unfold State.strobeRemoved
  extract_lets w
  split
  · next pc op _ =>
    have hpart := (s.outcome w .state 0x3E pc 0).part_completeTold op .state p
    exact (s.jnl_timeKept w _ _).trans (.of_part (congrArg Part.regs hpart) (congrArg Part.tb hpart))
  · exact s.jnl_timeKept w _ _
  · exact s.jnl_timeKept { w with ctx := 0x20 } _ _
  · exact .refl p s

theorem State.removeStrobes_timeKept (s : State) (p : PartId) (f : StrobeReq → Bool) : TimeKept p s (s.removeStrobes p f) := by
  unfold State.removeStrobes
  extract_lets gone s1
  have h1 : TimeKept p s s1 := s.mod_timeKept p _
  exact h1.trans (TimeKept.foldl (fun t r => t.strobeRemoved_timeKept p r) gone s1)

/-- With every scheduled strobe removed none is left. -/
theorem State.scheduled_removeStrobes_all (s : State) (p : PartId) : ((s.removeStrobes p fun _ => true).part p).scheduled = [] := by
  rw [Part.scheduled, s.strobes_removeStrobes, List.filter_filter, List.filter_eq_nil_iff]
  simp

/-- HT is the value it is set to. -/
theorem State.ht_stepHt (s : State) (p : PartId) (h : HT) (sub : Nat) {w : Who} (hw : w.p = p) : (s.stepHt p h sub w).ht p = h := by
  subst hw
  unfold State.stepHt State.ht
  extract_lets old move s1
  rw [(s1.jnl_timeKept w _ _).tb, s.part_mod_same]

/-- HT_SET_LOAD sets HT, what waits and HOLD_S, and then removes the strobes; the references that restart at a source lie outside the part. -/
theorem loadHtSet_eq {p : PartId} {v : HT} {src : Src} {s : State} (hs : (s.part p).tb.htSet = some (v, src)) :
    ∃ s2 s5 : State, s2.ht p = v ∧ loadHtSet p s = s5.removeStrobes p (fun _ => true) ∧
      TimeKept p ((s2.mod p fun q => { q with tb := { q.tb with htSet := none, holdAt := q.tb.ht } }).setF p .tbsQual 31 16 0) s5 := by
  unfold loadHtSet
  rw [hs]
  refine ⟨(s.reach p (s.nextTick p)).stepHt p v 0 { p := p, blk := 1, ctx := src.jctx }, _, State.ht_stepHt _ p v 0 rfl, rfl, ?_⟩
  split
  · exact .of_part (congrArg Part.regs (State.part_osc _ _ p)) (congrArg Part.tb (State.part_osc _ _ p))
  · exact .refl p _

/-- An accepted HT set: HT takes the value, nothing waits any more, HOLD_S restarts. -/
theorem loadHtSet_loads {p : PartId} {v : HT} {src : Src} {s : State} (hs : (s.part p).tb.htSet = some (v, src)) :
    (loadHtSet p s).ht p = v ∧ ((loadHtSet p s).part p).tb.htSet = none ∧ ((loadHtSet p s).part p).scheduled = [] ∧
      (loadHtSet p s).fd p .tbsQual 31 16 = 0 := by
  obtain ⟨s2, s5, hht, heq, h5⟩ := loadHtSet_eq hs
  have h := h5.trans (s5.removeStrobes_timeKept p fun _ => true)
  have htb : ((s5.removeStrobes p fun _ => true).part p).tb = { (s2.part p).tb with htSet := none, holdAt := s2.ht p } :=
    h.tb.trans ((State.tb_wr _ p p _ _ 0 0).trans (congrArg Part.tb (s2.part_mod_same p _)))
  rw [heq]
  exact ⟨(congrArg TimeBase.ht htb).trans hht, congrArg TimeBase.htSet htb, s5.scheduled_removeStrobes_all p,
    (h.fd 31 16).trans (State.fd_setF_time_same _ p (by decide))⟩

/-! ### CALINFO (R57, R145) -/

/-- A distributor passes a CALINFO it takes on downstream (R145). -/
def State.relayCalinfo (s : State) (p : PartId) (eff : HT) (vals : List Nat) : State :=
  if p = .dist then s.serveDown .dist (calinfoFrame eff vals) else s

theorem State.relayCalinfo_transmits (s : State) (p : PartId) (eff : HT) (vals : List Nat) : Transmits s (s.relayCalinfo p eff vals) :=
  .ite (s.serveDown_transmits .dist _) (.refl s)

/-- A frame that a port takes as the downstream end is past its effective tick or waits. -/
theorem recvCalinfo_taken {port : Port} {eff calHt : HT} {sec ns : Nat} {rate : Word} {utc : Nat} {s : State} (hsrc : s.isSource port.part = false)
    (hlo : 1 ≤ s.srvState port.part port.num) (hhi : s.srvState port.part port.num ≤ 4)
    (hdom : port.part = .dist ∨ s.tsu.srv.followed = 1 + port.num / 2) :
    recvCalinfo port eff calHt sec ns rate utc s =
      let vals := [calHt.toNat, sec, ns, rate.toNat, utc]
      let s1 := s.relayCalinfo port.part eff vals
      if after (s.ht port.part) eff then
        (s1.loadCalendar port.part vals (s.ht port.part)).frameOutcome port.part 1 .late 1 3 (htDiff (s.ht port.part) eff).toNat
      else s1.mod port.part fun q => { q with tb := { q.tb with calinfo := q.tb.calinfo ++ [(eff, vals)] } } := by
  have huses : (decide (1 ≤ s.srvState port.part port.num) && decide (s.srvState port.part port.num ≤ 4) &&
      (decide (port.part = .dist) || s.tsu.srv.followed == 1 + port.num / 2)) = true := by simp [hlo, hhi, hdom]
  exact if_neg (by simp only [hsrc, huses]; decide)

theorem State.frameOutcome_timeKept (s : State) (p : PartId) (blk : Nat) (c : Code) (cls ty late tile : Nat) :
    TimeKept p s (s.frameOutcome p blk c cls ty late tile) := s.jnl_timeKept { p := p, tile := tile, blk := blk, ctx := 0x20 } _ _

/-- CALENDAR_LOAD makes the next waiting CALINFO the calendar, and that one waits no more. -/
theorem calendarLoad_loads {p : PartId} {eff calHt : HT} {sec : BitVec 48} {ns : BitVec 30} {rate : Word} {utc : BitVec 16} {s : State}
    (hd : firstDue (s.part p).tb.calinfo = some (eff, [calHt.toNat, sec.toNat, ns.toNat, rate.toNat, utc.toNat])) :
    (calendarLoad p s).calValues p = [calHt.toNat, sec.toNat, ns.toNat, rate.toNat, utc.toNat] ∧
      ((calendarLoad p s).part p).tb.calinfo = (s.part p).tb.calinfo.filter fun y : HT × List Nat =>
        decide (y ≠ (eff, [calHt.toNat, sec.toNat, ns.toNat, rate.toNat, utc.toNat])) := by
  unfold calendarLoad
  simp only [hd]
  refine ⟨State.calValues_of_words fun x hx => (State.rdA_mod _ p p _ _ rfl).trans (State.rd_loadCalendar _ p _ eff x hx), ?_⟩
  rw [State.part_mod_same, State.tb_loadCalendar, s.calinfo_reach]

/-! ### CALINFO frames of a source (R57, R145) -/

theorem length_natLe (n x : Nat) : (natLe n x).length = n := by
  induction n generalizing x with
  | zero => rfl
  | succ n ih => simp [natLe, ih]

/-- The seven fields of a CALINFO frame need two flits (R101, R145). -/
theorem sized_calinfo {f : Frame} {x y : Nat} {vals : List Nat} (hcls : f.cls = 1) (hty : f.ty = 3) (hdata : f.data = [])
    (hf : f.fields = x :: y :: vals) (hlen : vals.length = 5) : f.sized = { f with flits := 2 } := by
  obtain ⟨a, b, c, d, e, rfl⟩ : ∃ a b c d e, vals = [a, b, c, d, e] := by
    match vals, hlen with
    | [a, b, c, d, e], _ => exact ⟨a, b, c, d, e, rfl⟩
  obtain ⟨num, hnum⟩ : ∃ num, f.payload = some (natLe 40 num) := by
    cases f
    subst hcls hty hdata hf
    exact ⟨_, congrArg some (List.append_nil _)⟩
  unfold Frame.sized
  rw [hnum]
  simp only [length_natLe, flitsOf]

/-- What a CALINFO frame is once it has been sent. -/
theorem calinfoFrame_mem_sent (s : State) (p : PartId) (d : Dest) (eff : HT) {vals : List Nat} (hlen : vals.length = 5) (lane : Option Nat) :
    (d, 1, 3, 2, eff.toNat :: vals) ∈ ((s.send p d (calinfoFrame eff vals) lane).part p).sent.map Sent.content := by
  rw [State.send, State.part_mod_same, List.map_append]
  refine List.mem_append_right _ (List.mem_singleton.2 ?_)
  rw [Sent.content, sized_calinfo rfl rfl rfl rfl hlen]
  rfl

/-- A frame goes to every port at which the part is the upstream end. -/
theorem State.serveDown_sends (s : State) (p : PartId) {n : Nat} (hn : n < 274) (hup : s.portState p n = 6) (hserves : s.srvState p n = 5)
    (eff : HT) {vals : List Nat} (hlen : vals.length = 5) :
    (.port n, 1, 3, 2, eff.toNat :: vals) ∈ ((s.serveDown p (calinfoFrame eff vals)).part p).sent.map Sent.content := by
  have hmem : n ∈ (List.range 274).filter fun n => s.portState p n == 6 && s.fd p .srvPState 2 0 n == 5 :=
    List.mem_filter.2 ⟨List.mem_range.2 hn, by rw [hup, show s.fd p .srvPState 2 0 n = 5 from hserves]; rfl⟩
  obtain ⟨before, later, hl⟩ := List.append_of_mem hmem
  rw [State.serveDown, hl, List.foldl_append, List.foldl_cons]
  exact (Transmits.foldl (fun t n => t.send_transmits p (.port n) _ none) later _).mem_content (calinfoFrame_mem_sent _ p _ eff hlen none)

/-- A source's CALINFO names its next tick and carries its calendar. -/
theorem calinfoInterval_sends {s : State} {n : Nat} (hn : n < 274) (hsrc : s.isSource .dist = true) (hup : s.portState .dist n = 6)
    (hserves : s.srvState .dist n = 5) :
    (.port n, 1, 3, 2, (s.nextTick .dist).toNat :: s.calValues .dist) ∈ ((calinfoInterval s).part .dist).sent.map Sent.content := by
  rw [calinfoInterval, if_pos hsrc]
  exact s.serveDown_sends .dist hn hup hserves _ rfl

/-! ### Holdover (R58, R59, R70) -/

/-- A second of holdover counts HOLD_S, and in a distributor in HOLDOVER sets the error bound. -/
theorem holdoverSecond_counts {p : PartId} {s : State} (bound : Nat) (hh : (s.part p).tb.holding = true) :
    (holdoverSecond p bound s).fd p .tbsQual 31 16 = min 65535 (s.fd p .tbsQual 31 16 + 1) ∧
      (p = .dist → s.qual .dist = 2 → (holdoverSecond p bound s).rd .dist .tbsHoldErr = BitVec.ofNat 32 (min (2 ^ 32 - 1) bound)) := by
  unfold holdoverSecond
  extract_lets tb s1 osc s2
  rw [if_neg (by rw [show tb.holding = true from hh]; decide)]
  have h1 : s1.fd p .tbsQual 31 16 = min 65535 (s.fd p .tbsQual 31 16 + 1) :=
    s.fd_setF_time_same p ((Nat.min_le_left _ _).trans_lt (by decide))
  cases p with
  | tsu => exact ⟨h1, nofun⟩
  | dist =>
    have h2 : s2.fd .dist .tbsQual 31 16 = s1.fd .dist .tbsQual 31 16 := by
      unfold s2
      split <;> rfl
    have h12 := h2.trans h1
    rw [if_neg (by decide)]
    split
    · next hq =>
      refine ⟨(congrArg (fld · 31 16) (s2.rd_wr_time_other .dist _)).trans h12, fun _ _ => ?_⟩
      rw [s2.rd_wr_time_same .dist, satNat, Nat.min_comm]
    · next hq => exact ⟨h12, fun _ h => absurd h hq⟩

/-- The code is what it is set to. -/
theorem State.qual_setQual (s : State) (p : PartId) {code : Nat} (hc : code < 8) : (s.setQual p code).qual p = code := by
  unfold State.setQual
  extract_lets old s1 s2
  split
  · next h => exact h
  · have h0 := s.fd_setF_time_same p (n := .tbsQual) (hi := 2) (lo := 0) hc
    have h1 : s1.rd p .tbsQual = (s.setF p .tbsQual 2 0 code).rd p .tbsQual := State.rd_wr_time_other _ p _
    have h2 : s2.rd p .tbsQual = s1.rd p .tbsQual := by
      unfold s2
      split <;> exact State.rd_wr_time_other _ p _
    exact ((s2.jnl_timeKept { p := p, blk := 1 } _ _).fd 2 0).trans ((congrArg (fld · 2 0) (h2.trans h1)).trans h0)

/-! ### O9 -/

/-- Settles O9: each row sets what it is to set, and the transmitters brought up to date after it leave that alone. -/
theorem hallTimeSetAndCalendar : Obligations.HallTimeSetAndCalendar := by
  unfold Obligations.HallTimeSetAndCalendar
  refine ⟨fun p v src s hs => ⟨_, rfl, loadHtSet_loads hs⟩, fun port eff calHt sec ns rate utc s hsrc hlo hhi hdom hlate => ⟨_, rfl, ?_⟩,
    fun port eff calHt sec ns rate utc s hsrc hlo hhi hdom hlate => ⟨_, rfl, ?_⟩,
    fun p eff calHt sec ns rate utc s hd => ⟨_, rfl, calendarLoad_loads hd⟩, fun n s hsrc hup hserves => ⟨_, rfl, ?_⟩,
    fun p bound s hh => ⟨_, rfl, holdoverSecond_counts bound hh⟩, fun p s hh hq hmax => ⟨_, rfl, ?_⟩, fun p s hlt => ⟨_, rfl, ?_⟩⟩
  · rw [recvCalinfo_taken hsrc hlo hhi hdom, if_neg (by rw [hlate]; decide)]
    beta_reduce
    rw [((State.pumpAll_transmits _ _).timeKept _).tb, State.part_mod_same, ((s.relayCalinfo_transmits _ _ _).timeKept _).tb]
  · rw [recvCalinfo_taken hsrc hlo hhi hdom, if_pos hlate]
    refine State.calValues_of_words fun x hx => ?_
    have hname := (calWords_names _).1 x hx
    rw [((State.pumpAll_transmits _ _).timeKept _).rd _ hname, (State.frameOutcome_timeKept _ _ _ _ _ _ _ _).rd _ hname]
    exact State.rd_loadCalendar _ _ _ _ x hx
  · have hsent := (State.pumpAll_transmits _ .dist).mem_content (calinfoInterval_sends n.isLt hsrc hup hserves)
    obtain ⟨y, hy, hc⟩ := List.mem_map.1 hsent
    simp only [Sent.content, Prod.mk.injEq] at hc
    obtain ⟨hdest, hcls, hty, hflits, hfields⟩ := hc
    exact List.any_eq_true.2 ⟨y, hy, by rw [hdest, hcls, hty, hflits, hfields]; simp⟩
  · rw [holdoverExpiry, if_pos (by simp [hq, hh, hmax])]
    exact s.qual_setQual p (by decide)
  · exact if_neg (by simp [Nat.not_le.2 hlt])

end Sys2Proof.Machine
end

section
/-!
PROOFS. Hall time's advance: the register words it writes (R57, R143, R254), and what of a part it leaves alone.
-/
namespace Sys2Proof.Machine
set_option Elab.async false

/-- The register words that time passing writes: SRV_STAT, a TSU's slot states, a distributor's calendar. -/
def passWords : PartId → List Nat
  | .tsu => addrOf .tsu .srvStat :: (List.range 16).map fun c => addrOf .tsu .slotState c
  | .dist => addrOf .dist .srvStat ::
      [RegName.tbsCalHtLo, .tbsCalHtHi, .tbsCalSLo, .tbsCalSHi, .tbsCalNs, .tbsCalRate, .tbsUtcOff].map fun n => addrOf .dist n

/-- Apart from those words. -/
def OffPass (p q : PartId) (a : Nat) : Prop := q ≠ p ∨ a ∉ passWords p

theorem State.rdA_setF_pass (s : State) {p q : PartId} {n : RegName} {i a : Nat} (hi lo v : Nat) (h : OffPass p q a)
    (hn : addrOf p n i < 0x4000000 → addrOf p n i ∈ passWords p) : (s.setF p n hi lo v i).rdA q a = s.rdA q a := by
  by_cases hlt : addrOf p n i < 0x4000000
  · exact s.rdA_setF_other n hi lo v i 0 (h.imp_right fun ha heq => ha (heq ▸ hn hlt))
  · rw [State.setF, State.wr, State.wrA, if_neg hlt]

theorem slotState_mem_passWords {i : Nat} (h : addrOf .tsu .slotState i < 0x4000000) : addrOf .tsu .slotState i ∈ passWords .tsu := by
  by_cases hi : i < 16
  · exact List.mem_cons_of_mem _ (List.mem_map.2 ⟨i, List.mem_range.2 hi, rfl⟩)
  · have hnone : grpBase .tsu (row .slotState).grp i = none := if_neg hi
    rw [addrOf, hnone] at h
    exact absurd h (by decide)

theorem State.rdA_endReplays (s : State) {q : PartId} {a : Nat} (h : OffPass .tsu q a) : s.endReplays.rdA q a = s.rdA q a := by
  unfold State.endReplays
  split
  · rfl
  · refine foldl_keeps (fun u : State => u.rdA q a) (fun t kv => ?_) _ s
    have hslots (l : List (Nat × Slot)) : ({ t with slots := l } : State).rdA q a = t.rdA q a := by cases q <;> rfl
    dsimp only
    split
    · rfl
    · split <;> exact (State.rdA_setF_pass _ _ _ _ h slotState_mem_passWords).trans (hslots _)

theorem State.rdA_serveDown (s : State) (p q : PartId) (f : Frame) (a : Nat) : (s.serveDown p f).rdA q a = s.rdA q a :=
  foldl_keeps (fun u : State => u.rdA q a) (fun t _ => t.rdA_mod p q _ a rfl) _ s

theorem State.rdA_rebase (s : State) {q : PartId} {a : Nat} (h : HT) (rate : Int) (ha : OffPass .dist q a) :
    (s.rebase .dist h rate).rdA q a = s.rdA q a := by
  have hw (t : State) {n : RegName} (v : Word) (hn : addrOf .dist n ∈ passWords .dist := by decide) : (t.wr .dist n v).rdA q a = t.rdA q a :=
    t.rdA_wr_other n v 0 0 (ha.imp_right fun hna heq => hna (heq ▸ hn))
  unfold State.rebase State.setAnchor calWords
  simp only [List.foldl_cons, List.foldl_nil]
  rw [hw, hw, hw, hw, hw, hw, hw]

theorem State.rdA_osc (s : State) (o : OscState) (q : PartId) (a : Nat) : ({ s with osc := o } : State).rdA q a = s.rdA q a := by
  rw [State.rdA, State.rdA, s.part_osc]

theorem State.rdA_endCalTerm (s : State) {q : PartId} {a : Nat} (h : OffPass .dist q a) : s.endCalTerm.rdA q a = s.rdA q a := by
  unfold State.endCalTerm
  split
  · split
    · exact (State.rdA_serveDown _ .dist q _ a).trans ((State.rdA_osc _ _ q a).trans (s.rdA_rebase _ _ h))
    · rfl
  · rfl

/-- Time passing writes no other register word. -/
theorem State.rdA_passed (s : State) {p q : PartId} {a : Nat} (tb : TimeBase) (h : OffPass p q a) : (s.passed p tb).rdA q a = s.rdA q a := by
  unfold State.passed
  extract_lets done s1 s2
  have h1 : s1.rdA q a = s.rdA q a := s.rdA_mod p q _ a rfl
  have h2 : s2.rdA q a = s.rdA q a := by
    unfold s2
    split
    · exact (s1.rdA_setF_pass 3 3 1 h fun _ => by cases p <;> exact List.mem_cons_self).trans h1
    · exact h1
  cases p with
  | tsu => exact (s2.rdA_endReplays h).trans h2
  | dist => exact (s2.rdA_endCalTerm h).trans h2

theorem State.rdA_reach (s : State) {p q : PartId} {a : Nat} (target : HT) (h : OffPass p q a) : (s.reach p target).rdA q a = s.rdA q a := by
  unfold State.reach
  split
  · rfl
  · exact s.rdA_passed _ h

/-! ### The parts -/

/-- A part without its registers, journal, responses, time base and frames. -/
def Part.untimed (q : Part) : Part := { q.core with tb := {}, sent := [] }

/-- What of a part is none of these reads alike of parts that agree in the rest. -/
theorem Part.field_of_untimed {q r : Part} (h : q.untimed = r.untimed) {α : Type} (f : Part → α)
    (hf : ∀ x : Part, f x.untimed = f x := by intro _; rfl) : f q = f r := by
  rw [← hf, h, hf]

theorem State.untimed_wr (s : State) (p q : PartId) (n : RegName) (v : Word) (i j : Nat) :
    ((s.wr p n v i j).part q).untimed = (s.part q).untimed :=
  congrArg (fun r : Part => { r with tb := {}, sent := [] }) (s.core_wrA p q _ v)

theorem State.untimed_mod (s : State) (p q : PartId) (f : Part → Part) (h : (f (s.part p)).untimed = (s.part p).untimed) :
    ((s.mod p f).part q).untimed = (s.part q).untimed := by
  by_cases hq : q = p
  · subst hq; rw [s.part_mod_same, h]
  · rw [s.part_mod_other f hq]

theorem State.untimed_endReplays (s : State) (q : PartId) : (s.endReplays.part q).untimed = (s.part q).untimed := by
  unfold State.endReplays
  split
  · rfl
  · refine foldl_keeps (fun u : State => (u.part q).untimed) (fun t _ => ?_) _ s
    have hslots (l : List (Nat × Slot)) : ({ t with slots := l } : State).part q = t.part q := by cases q <;> rfl
    dsimp only
    split
    · rfl
    · split <;> exact (State.untimed_wr _ _ q _ _ _ _).trans (congrArg Part.untimed (hslots _))

theorem State.untimed_endCalTerm (s : State) (q : PartId) : (s.endCalTerm.part q).untimed = (s.part q).untimed := by
  have hrebase (h : HT) (rate : Int) : ((s.rebase .dist h rate).part q).untimed = (s.part q).untimed :=
    foldl_keeps (fun u : State => (u.part q).untimed) (fun u _ => u.untimed_wr .dist q _ _ 0 0) _ s
  have hserve (t : State) (f : Frame) : ((t.serveDown .dist f).part q).untimed = (t.part q).untimed :=
    foldl_keeps (fun u : State => (u.part q).untimed) (fun u _ => u.untimed_mod .dist q _ rfl) _ t
  unfold State.endCalTerm
  split
  · split
    · exact (hserve _ _).trans ((congrArg Part.untimed (State.part_osc _ _ q)).trans (hrebase _ _))
    · rfl
  · rfl

/-- Time passing changes nothing else of the parts. -/
theorem State.untimed_passed (s : State) (p q : PartId) (tb : TimeBase) : ((s.passed p tb).part q).untimed = (s.part q).untimed := by
  unfold State.passed
  extract_lets done s1 s2
  have h1 : (s1.part q).untimed = (s.part q).untimed := s.untimed_mod p q _ rfl
  have h2 : (s2.part q).untimed = (s.part q).untimed := by
    unfold s2
    split
    · exact (s1.untimed_wr p q _ _ _ _).trans h1
    · exact h1
  cases p with
  | tsu => exact (s2.untimed_endReplays q).trans h2
  | dist => exact (s2.untimed_endCalTerm q).trans h2

end Sys2Proof.Machine
end

section
/-!
PROOFS. A step engine's contexts: their registers and data under the updates an instruction makes (R193, R206, R207).
-/
namespace Sys2Proof.Machine
set_option Elab.async false

/-! ### The two registers of a context that an instruction writes -/

/-- PC and STATE. -/
abbrev ctxRegs : List RegName := [.ctxPc, .ctxState]

theorem ctxRegs_addrOf (e : EngSel) (c : Fin 16) : ∀ n ∈ ctxRegs, addrOf e.part n (ctxInst e c) < 0x4000000 ∧
    addrOf e.part n (ctxInst e c) ∉ passWords e.part ∧ addrOf e.part n (ctxInst e c) ∉ [addrOf e.part .jnlLost, addrOf e.part .jnlStat,
      addrOf e.part .senEccCnt e.inst, addrOf e.part .senStat e.inst] := by
  cases e with
  | tsu => revert c; decide
  | tile t => revert c t; decide

theorem ctxPc_ne_ctxState (e : EngSel) (c : Fin 16) : addrOf e.part .ctxPc (ctxInst e c) ≠ addrOf e.part .ctxState (ctxInst e c) := by
  cases e with
  | tsu => revert c; decide
  | tile t => revert c t; decide

section
variable (s : State) (e : EngSel) (c : Fin 16)

theorem State.rd_wr_ctx_same {n : RegName} (v : Word) (hn : n ∈ ctxRegs := by decide) :
    (s.wr e.part n v (ctxInst e c)).rd e.part n (ctxInst e c) = v := s.rd_wr_same e.part n v _ 0 (ctxRegs_addrOf e c n hn).1

theorem State.rd_ctxState_wr_ctxPc (v : Word) :
    (s.wr e.part .ctxPc v (ctxInst e c)).rd e.part .ctxState (ctxInst e c) = s.rd e.part .ctxState (ctxInst e c) :=
  s.rdA_wr_other _ v _ 0 (.inr (ctxPc_ne_ctxState e c).symm)

theorem State.rd_ctxPc_wr_ctxState (v : Word) :
    (s.wr e.part .ctxState v (ctxInst e c)).rd e.part .ctxPc (ctxInst e c) = s.rd e.part .ctxPc (ctxInst e c) :=
  s.rdA_wr_other _ v _ 0 (.inr (ctxPc_ne_ctxState e c))

/-- A journal record leaves both alone, -/
theorem State.rd_ctx_jnl (w : Who) (ty payload : Nat) {n : RegName} (hn : n ∈ ctxRegs) (hw : w.p = e.part) :
    (s.jnl w ty payload).rd e.part n (ctxInst e c) = s.rd e.part n (ctxInst e c) := by
  refine (s.jnl_regs w ty payload e.part _).resolve_left fun ⟨_, h⟩ => ?_
  rw [hw] at h
  exact (ctxRegs_addrOf e c n hn).2.2 (by obtain h | h := h <;> simp [h])

/-- and so does time passing. -/
theorem State.rd_ctx_reach (target : HT) {n : RegName} (hn : n ∈ ctxRegs) :
    (s.reach e.part target).rd e.part n (ctxInst e c) = s.rd e.part n (ctxInst e c) :=
  s.rdA_reach target (.inr (ctxRegs_addrOf e c n hn).2.1)

end

/-! ### A context's data -/

/-- An engine turns on the engines alone, -/
theorem State.eng_congr {s t : State} (h : t.engines = s.engines) (e : EngSel) : t.eng e = s.eng e := by
  rw [State.eng, State.eng, h]

/-- and a context on its engine. -/
theorem State.ctx_congr {s t : State} {e : EngSel} (h : t.eng e = s.eng e) (c : Nat) : t.ctx e c = s.ctx e c := by
  rw [State.ctx, State.ctx, h]

theorem State.eng_wr (s : State) (p : PartId) (n : RegName) (v : Word) (i j : Nat) (e : EngSel) : (s.wr p n v i j).eng e = s.eng e :=
  State.eng_congr (s.wrA_engines p _ v) e

theorem State.eng_jnl (s : State) (w : Who) (ty payload : Nat) (e : EngSel) : (s.jnl w ty payload).eng e = s.eng e :=
  State.eng_congr (s.jnl_still w ty payload).engines e

theorem State.eng_reach (s : State) (p : PartId) (target : HT) (e : EngSel) : (s.reach p target).eng e = s.eng e :=
  State.eng_congr (s.reach_still p target).engines e

section
variable (s : State) (e : EngSel) (c : Nat) (f : Ctx → Ctx)

theorem State.eng_modCtx_same : (s.modCtx e c f).eng e = { s.eng e with ctxs := mset (fun _ => {}) (s.eng e).ctxs c (f (s.ctx e c)) } :=
  State.eng_setEng_same s e _

theorem State.eng_modCtx_other {e' : EngSel} (h : e' ≠ e) : (s.modCtx e c f).eng e' = s.eng e' := s.eng_setEng_other _ h

theorem State.ctx_modCtx_same : (s.modCtx e c f).ctx e c = f (s.ctx e c) := by
  rw [State.ctx, s.eng_modCtx_same]
  exact mget_mset_same _ _ _ _

theorem State.ctx_modCtx_other {d : Nat} (h : d ≠ c) : (s.modCtx e c f).ctx e d = s.ctx e d := by
  rw [State.ctx, s.eng_modCtx_same]
  exact mget_mset_other _ _ _ h

theorem State.dmem_modCtx : ((s.modCtx e c f).eng e).dmem = (s.eng e).dmem := by rw [s.eng_modCtx_same]

theorem State.rdA_modCtx (p : PartId) (a : Nat) : (s.modCtx e c f).rdA p a = s.rdA p a := by cases p <;> rfl

end

/-- g registers, t registers and predicates turn on the context's own. -/
theorem State.g_congr {s t : State} {e : EngSel} {c : Nat} (h : (t.ctx e c).g = (s.ctx e c).g) (r : Fin 32) : t.g e c r = s.g e c r := by
  rw [State.g, State.g, h]

theorem State.t_congr {s t : State} {e : EngSel} {c : Nat} (h : (t.ctx e c).t = (s.ctx e c).t) (r : Fin 8) : t.t e c r = s.t e c r := by
  rw [State.t, State.t, h]

theorem State.pr_congr {s t : State} {e : EngSel} {c : Nat} (h : (t.ctx e c).p = (s.ctx e c).p) (r : Fin 8) : t.pr e c r = s.pr e c r := by
  rw [State.pr, State.pr, h]

section
variable (s : State) (e : EngSel) (c : Nat)

/-- A context with a g register written: g0 takes nothing (R193). -/
def Ctx.withG (x : Ctx) (r : Fin 32) (v : DWord) : Ctx := if r.val = 0 then x else { x with g := mset (fun _ => 0) x.g r.val v }

theorem State.ctx_setG (r : Fin 32) (v : DWord) : (s.setG e c r v).ctx e c = (s.ctx e c).withG r v := by
  unfold State.setG Ctx.withG
  split
  · rfl
  · exact s.ctx_modCtx_same e c _

theorem State.ctx_setT (r : Fin 8) (v : HT) :
    (s.setT e c r v).ctx e c = { s.ctx e c with t := mset (fun _ => 0) (s.ctx e c).t r.val v } := s.ctx_modCtx_same e c _

theorem State.ctx_setP (r : Fin 8) (v : Bool) :
    (s.setP e c r v).ctx e c = { s.ctx e c with p := setBits (s.ctx e c).p r.val r.val (b2n v) } := s.ctx_modCtx_same e c _

/-- Nothing of a context but its g registers changes with one of them. -/
theorem Ctx.withG_rest (y : Ctx) (r : Fin 32) (v : DWord) : { y.withG r v with g := y.g } = y := by
  unfold Ctx.withG
  split <;> rfl

theorem Ctx.field_withG (y : Ctx) (r : Fin 32) (v : DWord) {α : Type} (f : Ctx → α) (hf : ∀ z g, f { z with g := g } = f z := by intros; rfl) :
    f (y.withG r v) = f y := (hf _ y.g).symm.trans (congrArg f (y.withG_rest r v))

/-- What of a context is no g register reads alike after a write of one. -/
theorem State.field_setG (r : Fin 32) (v : DWord) {α : Type} (f : Ctx → α) (hf : ∀ z g, f { z with g := g } = f z := by intros; rfl) :
    f ((s.setG e c r v).ctx e c) = f (s.ctx e c) := by
  rw [s.ctx_setG, Ctx.field_withG _ r v f hf]

theorem State.dmem_setG (r : Fin 32) (v : DWord) : ((s.setG e c r v).eng e).dmem = (s.eng e).dmem := by
  unfold State.setG
  split
  · rfl
  · exact s.dmem_modCtx e c _

theorem State.g_setG_same (r : Fin 32) (v : DWord) : (s.setG e c r v).g e c r = gAfter r v := by
  unfold State.g gAfter
  rw [s.ctx_setG, Ctx.withG]
  split
  · rfl
  · exact mget_mset_same _ _ _ _

theorem State.g_setG_other {r q : Fin 32} (v : DWord) (h : q ≠ r) : (s.setG e c r v).g e c q = s.g e c q := by
  unfold State.g
  rw [s.ctx_setG, Ctx.withG]
  by_cases hr : r.val = 0
  · rw [if_pos hr]
  · rw [if_neg hr, mget_mset_other _ _ _ fun hv => h (Fin.ext hv)]

theorem State.t_setT_same (r : Fin 8) (v : HT) : (s.setT e c r v).t e c r = v := by
  rw [State.t, s.ctx_setT]
  exact mget_mset_same _ _ _ _

theorem State.t_setT_other {r q : Fin 8} (v : HT) (h : q ≠ r) : (s.setT e c r v).t e c q = s.t e c q := by
  rw [State.t, s.ctx_setT]
  exact mget_mset_other _ _ _ fun hv => h (Fin.ext hv)

theorem State.pr_setP_same (r : Fin 8) (v : Bool) : (s.setP e c r v).pr e c r = v := by
  rw [State.pr, s.ctx_setP, testBit_setBits _ _ _ _ _ (by omega), if_pos ⟨le_rfl, le_rfl⟩, Nat.sub_self]
  cases v <;> rfl

theorem State.pr_setP_other {r q : Fin 8} (v : Bool) (h : q ≠ r) : (s.setP e c r v).pr e c q = s.pr e c q := by
  rw [State.pr, s.ctx_setP, testBit_setBits _ _ _ _ _ (by omega), if_neg fun hv => h (Fin.ext (by omega))]
  rfl

theorem State.rdA_setG (r : Fin 32) (v : DWord) (p : PartId) (a : Nat) : (s.setG e c r v).rdA p a = s.rdA p a := by
  unfold State.setG
  split
  · rfl
  · exact s.rdA_modCtx e c _ p a

end

/-! ### Only one context -/

/-- Only context `x` may differ, as `OnlyContext` has it, but for whose turn it is. -/
structure Inside (x : CtxRef) (s t : State) : Prop where
  outside : SameOutside s t
  regs : ∀ p a, (p = x.eng.part ∧ (a = addrOf p .ctxPc (ctxInst x.eng x.ctx) ∨ a = addrOf p .ctxState (ctxInst x.eng x.ctx) ∨
      (((s.eng x.eng).oneI ≠ [] ∨ (s.eng x.eng).oneD ≠ []) ∧ (a = addrOf p .senEccCnt x.eng.inst ∨ a = addrOf p .senStat x.eng.inst)))) ∨
    t.rdA p a = s.rdA p a
  ones : (t.eng x.eng).oneI ≠ [] ∨ (t.eng x.eng).oneD ≠ [] → (s.eng x.eng).oneI ≠ [] ∨ (s.eng x.eng).oneD ≠ []
  others : ∀ e, e ≠ x.eng → t.eng e = s.eng e
  engine : let v := s.eng x.eng
    { t.eng x.eng with
      ctxs := v.ctxs, dmem := v.dmem, badD := v.badD, oneI := v.oneI, oneD := v.oneD, last := v.last, cycle := v.cycle, ready := v.ready
      divFree := v.divFree } = v
  ctxs : ∀ c, c ≠ x.ctx.val → t.ctx x.eng c = s.ctx x.eng c

theorem SameOutside.trans {s t u : State} (h : SameOutside s t) (k : SameOutside t u) : SameOutside s u := by
  unfold SameOutside at *
  rw [← h, ← k]

theorem Inside.refl (x : CtxRef) (s : State) : Inside x s s := ⟨rfl, fun _ _ => .inr rfl, id, fun _ _ => rfl, rfl, fun _ _ => rfl⟩

theorem Inside.trans {x : CtxRef} {s t u : State} (h : Inside x s t) (k : Inside x t u) : Inside x s u where
  outside := h.outside.trans k.outside
  regs p a := by
    obtain ⟨hp, hpc | hst | ⟨ho, ha⟩⟩ | hk := k.regs p a
    · exact .inl ⟨hp, .inl hpc⟩
    · exact .inl ⟨hp, .inr (.inl hst)⟩
    · exact .inl ⟨hp, .inr (.inr ⟨h.ones ho, ha⟩)⟩
    · exact (h.regs p a).imp_right hk.trans
  ones := h.ones ∘ k.ones
  others e he := (k.others e he).trans (h.others e he)
  engine := by
    have h1 := h.engine
    have h2 := k.engine
    dsimp only at h1 h2 ⊢
    rw [← h1, ← h2]
  ctxs c hc := (k.ctxs c hc).trans (h.ctxs c hc)

theorem Inside.onlyContext {x : CtxRef} {s t : State} (h : Inside x s t) (hl : (t.eng x.eng).last = x.ctx.val)
    (hc : (t.eng x.eng).cycle = s.cycleOf x) : OnlyContext x s t :=
  ⟨h.outside, h.regs, h.others, h.engine, hl, hc, h.ctxs⟩

section
variable (x : CtxRef) (s : State)

/-- A register write changes nothing outside the parts' registers. -/
theorem State.wr_sameOutside (p : PartId) (n : RegName) (v : Word) (i j : Nat) : SameOutside s (s.wr p n v i j) := by
  unfold State.wr State.wrA
  split
  · cases p <;> rfl
  · rfl

theorem State.wr_ctx_inside {n : RegName} (v : Word) (hn : n ∈ ctxRegs := by decide) : Inside x s (s.wr x.eng.part n v (ctxInst x.eng x.ctx)) := by
  have heng := s.eng_wr x.eng.part n v (ctxInst x.eng x.ctx) 0
  refine ⟨s.wr_sameOutside _ _ _ _ _, fun p a => ?_, by rw [heng]; exact id, fun e _ => heng e, by rw [heng], fun c _ => State.ctx_congr (heng _) c⟩
  by_cases h : p = x.eng.part ∧ a = addrOf x.eng.part n (ctxInst x.eng x.ctx)
  · obtain ⟨rfl, rfl⟩ := h
    simp only [List.mem_cons, List.not_mem_nil, or_false] at hn
    obtain rfl | rfl := hn
    · exact .inl ⟨rfl, .inl rfl⟩
    · exact .inl ⟨rfl, .inr (.inl rfl)⟩
  · exact .inr (s.rdA_wr_other n v _ 0 (by tauto))

/-- A change of the context's own engine that keeps to its data. -/
theorem State.modEng_inside (f : Engine → Engine)
    (hf : let v := s.eng x.eng
      { f v with
        ctxs := v.ctxs, dmem := v.dmem, badD := v.badD, oneI := v.oneI, oneD := v.oneD, last := v.last, cycle := v.cycle, ready := v.ready
        divFree := v.divFree } = v := by rfl)
    (ho : (f (s.eng x.eng)).oneI ≠ [] ∨ (f (s.eng x.eng)).oneD ≠ [] → (s.eng x.eng).oneI ≠ [] ∨ (s.eng x.eng).oneD ≠ [] := by exact id)
    (hc : ∀ c, c ≠ x.ctx.val → mget (fun _ => {}) (f (s.eng x.eng)).ctxs c = s.ctx x.eng c := by exact fun _ _ => rfl) :
    Inside x s (s.modEng x.eng f) := by
  have heng : (s.modEng x.eng f).eng x.eng = f (s.eng x.eng) := s.eng_setEng_same x.eng _
  refine ⟨rfl, fun p a => .inr (by cases p <;> rfl), by rw [heng]; exact ho, fun e he => s.eng_setEng_other _ he, by rw [heng]; exact hf,
    fun c h => ?_⟩
  rw [State.ctx, heng]
  exact hc c h

theorem State.modCtx_inside (f : Ctx → Ctx) : Inside x s (s.modCtx x.eng x.ctx f) :=
  s.modEng_inside x (fun g => { g with ctxs := mset (fun _ => {}) g.ctxs x.ctx.val (f (s.ctx x.eng x.ctx)) }) rfl id
    fun _ h => mget_mset_other _ _ _ h

theorem State.setG_inside (r : Fin 32) (v : DWord) : Inside x s (s.setG x.eng x.ctx r v) := by
  unfold State.setG
  split
  · exact .refl x s
  · exact s.modCtx_inside x _

theorem State.setT_inside (r : Fin 8) (v : HT) : Inside x s (s.setT x.eng x.ctx r v) := s.modCtx_inside x _

theorem State.setP_inside (r : Fin 8) (v : Bool) : Inside x s (s.setP x.eng x.ctx r v) := s.modCtx_inside x _

theorem State.setCst_inside (v : Nat) : Inside x s (s.setCst x.eng x.ctx v) := s.wr_ctx_inside x _

theorem State.setPc_inside (v : Nat) : Inside x s (s.setPc x.eng x.ctx v) := (s.wr_ctx_inside x _).trans (State.modCtx_inside x _ _)

theorem State.retire_inside (pc : Nat) : Inside x s (s.retire x.eng x.ctx pc) := by
  have h := (s.setPc_inside x pc).trans (State.modCtx_inside x _ fun y => { y with fx := [], stepping := false })
  unfold State.retire
  dsimp only
  split
  · exact h.trans (State.setCst_inside x _ 0)
  · exact h

theorem State.tookTurn_inside (y : Nat) (word : Word) : Inside x s (s.tookTurn x y word) := s.modEng_inside x _

end

/-! ### The end of an instruction (R207, R216) -/

section
variable (s : State) (e : EngSel) (c : Fin 16)

theorem State.ctx_setPc (v : Nat) : (s.setPc e c v).ctx e c = { s.ctx e c with pastEnd := decide (65536 ≤ v) } := by
  rw [State.setPc, State.ctx_modCtx_same, State.ctx_congr (s.eng_wr _ _ _ _ _ e)]

theorem State.ctx_setCst (v : Nat) : (s.setCst e c v).ctx e c = s.ctx e c := State.ctx_congr (s.eng_wr _ _ _ _ _ e) c

theorem State.cst_setCst {v : Nat} (hv : v < 8) : (s.setCst e c v).cst e c = v := by
  rw [State.cst, State.fd, State.setCst, State.setF, s.rd_wr_ctx_same e c _, fld_setFld_same _ _ _ _ (by decide) (by decide)]
  exact Nat.mod_eq_of_lt hv

theorem fld_word_low (v : Nat) : fld (BitVec.ofNat 32 (v % 65536)) 15 0 = v % 65536 :=
  fld_ofNat_low (Nat.mod_lt _ (by decide)) (by decide)

theorem pcAt_eq (v : Nat) : pcAt v = v % 65536 + if decide (65536 ≤ v) then 65536 else 0 := by simp

theorem State.ctx_retire (pc : Nat) :
    (s.retire e c pc).ctx e c = { s.ctx e c with pastEnd := decide (65536 ≤ pc), fx := [], stepping := false } := by
  have h : ((s.setPc e c pc).modCtx e c fun y => { y with fx := [], stepping := false }).ctx e c =
      { s.ctx e c with pastEnd := decide (65536 ≤ pc), fx := [], stepping := false } := by
    rw [State.ctx_modCtx_same, s.ctx_setPc]
  unfold State.retire
  dsimp only
  split
  · exact (State.ctx_setCst _ e c 0).trans h
  · exact h

/-- The registers when an instruction has ended. -/
theorem State.rd_retire (pc : Nat) : (s.retire e c pc).rd e.part .ctxPc (ctxInst e c) = BitVec.ofNat 32 (pc % 65536) ∧
    (s.retire e c pc).cst e c = if (s.ctx e c).stepping then 0 else s.cst e c := by
  let t := s.wr e.part .ctxPc (BitVec.ofNat 32 (pc % 65536)) (ctxInst e c)
  let u := (s.setPc e c pc).modCtx e c fun y => { y with fx := [], stepping := false }
  have hu (n : RegName) : u.rd e.part n (ctxInst e c) = t.rd e.part n (ctxInst e c) :=
    (State.rdA_modCtx _ e c _ e.part _).trans (t.rdA_modCtx e c _ e.part _)
  have hpc : u.rd e.part .ctxPc (ctxInst e c) = BitVec.ofNat 32 (pc % 65536) := (hu _).trans (s.rd_wr_ctx_same e c _)
  have hcst : u.cst e c = s.cst e c := congrArg (fld · 2 0) ((hu _).trans (s.rd_ctxState_wr_ctxPc e c _))
  have heq : s.retire e c pc = if (s.ctx e c).stepping then u.setCst e c 0 else u := rfl
  rw [heq]
  split
  · exact ⟨(u.rd_ctxPc_wr_ctxState e c _).trans hpc, u.cst_setCst e c (by decide)⟩
  · exact ⟨hpc, hcst⟩

theorem State.dmem_retire (pc : Nat) : ((s.retire e c pc).eng e).dmem = (s.eng e).dmem := by
  have h : (((s.setPc e c pc).modCtx e c fun y => { y with fx := [], stepping := false }).eng e).dmem = (s.eng e).dmem := by
    rw [State.dmem_modCtx, State.setPc, State.dmem_modCtx, s.eng_wr]
  unfold State.retire
  dsimp only
  split
  · exact (congrArg Engine.dmem (State.eng_wr _ _ _ _ _ _ e)).trans h
  · exact h

theorem State.pc_retire (pc : Nat) : (s.retire e c pc).pc e c = pcAt pc := by
  rw [State.pc, State.fd, (s.rd_retire e c pc).1, s.ctx_retire, fld_word_low, pcAt_eq]

end

end Sys2Proof.Machine
end

section
/-!
PROOFS. The issue of one instruction: what the engine does besides, how the instruction ends, and the instructions that write one register
(R195–R197, R204, R205, R213–R216).
-/
namespace Sys2Proof.Machine
set_option Elab.async false

/-! ### Errors corrected and the turn taken -/

/-- The words in which an engine counts the errors it corrects. -/
abbrev eccRegs : List RegName := [.senEccCnt, .senStat]

/-- An engine that stored a single-bit error may write them. -/
theorem Inside.wr_ecc {x : CtxRef} {s t : State} (h : Inside x s t) {n : RegName} (v : Word) (hn : n ∈ eccRegs)
    (ho : (s.eng x.eng).oneI ≠ [] ∨ (s.eng x.eng).oneD ≠ []) : Inside x s (t.wr x.eng.part n v x.eng.inst) := by
  have heng := t.eng_wr x.eng.part n v x.eng.inst 0
  refine ⟨h.outside.trans (t.wr_sameOutside _ _ _ _ _), fun p a => ?_, fun _ => ho, fun e he => (heng e).trans (h.others e he),
    by rw [heng]; exact h.engine, fun c hc => (State.ctx_congr (heng _) c).trans (h.ctxs c hc)⟩
  by_cases k : p = x.eng.part ∧ a = addrOf x.eng.part n x.eng.inst
  · obtain ⟨rfl, rfl⟩ := k
    simp only [List.mem_cons, List.not_mem_nil, or_false] at hn
    obtain rfl | rfl := hn
    · exact .inl ⟨rfl, .inr (.inr ⟨ho, .inl rfl⟩)⟩
    · exact .inl ⟨rfl, .inr (.inr ⟨ho, .inr rfl⟩)⟩
  · exact (h.regs p a).imp_right (t.rdA_wr_other n v _ 0 (by tauto)).trans

theorem State.rd_ctx_wr_ecc (s : State) (e : EngSel) (c : Fin 16) {n m : RegName} (v : Word) (hn : n ∈ ctxRegs) (hm : m ∈ eccRegs) :
    (s.wr e.part m v e.inst).rd e.part n (ctxInst e c) = s.rd e.part n (ctxInst e c) := by
  refine s.rdA_wr_other m v _ 0 (.inr fun heq => (ctxRegs_addrOf e c n hn).2.2 ?_)
  simp only [List.mem_cons, List.not_mem_nil, or_false] at hm
  obtain rfl | rfl := hm <;> simp [← heq]

/-- `t` is `s` with what does not count for the context: errors corrected, the rotation moved on. -/
structure Aside (x : CtxRef) (s t : State) : Prop where
  inside : Inside x s t
  ctx : t.ctx x.eng x.ctx = s.ctx x.eng x.ctx
  dmem : (t.eng x.eng).dmem = (s.eng x.eng).dmem
  rd : ∀ n ∈ ctxRegs, t.rd x.eng.part n (ctxInst x.eng x.ctx) = s.rd x.eng.part n (ctxInst x.eng x.ctx)

theorem Aside.trans {x : CtxRef} {s t u : State} (h : Aside x s t) (k : Aside x t u) : Aside x s u :=
  ⟨h.inside.trans k.inside, k.ctx.trans h.ctx, k.dmem.trans h.dmem, fun n hn => (k.rd n hn).trans (h.rd n hn)⟩

theorem Aside.pc {x : CtxRef} {s t : State} (h : Aside x s t) : t.pc x.eng x.ctx = s.pc x.eng x.ctx := by
  rw [State.pc, State.pc, State.fd, State.fd, h.rd _ (by decide), h.ctx]

theorem Aside.cst {x : CtxRef} {s t : State} (h : Aside x s t) : t.cst x.eng x.ctx = s.cst x.eng x.ctx :=
  congrArg (fld · 2 0) (h.rd .ctxState (by decide))

/-- A correction of single-bit errors (R204). -/
theorem State.eccCorrect_aside (x : CtxRef) (s : State) (ws : List Nat) (imem : Bool) : Aside x s (s.eccCorrect x.eng ws imem) := by
  unfold State.eccCorrect
  extract_lets v n s1
  split
  · exact ⟨.refl x s, rfl, rfl, fun _ _ => rfl⟩
  · next hn =>
    have hone : v.oneI ≠ [] ∨ v.oneD ≠ [] := by
      by_contra hno
      rw [not_or, not_not, not_not] at hno
      exact hn (by cases imem <;> simp [n, hno])
    have h1 : Inside x s s1 := by
      cases imem
      · exact s.modEng_inside x _ rfl (fun _ => hone)
      · exact s.modEng_inside x _ rfl (fun _ => hone)
    have heng1 : s1.ctx x.eng x.ctx = s.ctx x.eng x.ctx ∧ (s1.eng x.eng).dmem = (s.eng x.eng).dmem := by
      have : s1.eng x.eng = _ := s.eng_setEng_same x.eng _
      rw [State.ctx, this]
      cases imem <;> exact ⟨rfl, rfl⟩
    have heng (t : State) (m : RegName) (w : Word) := t.eng_wr x.eng.part m w x.eng.inst 0 x.eng
    refine ⟨(h1.wr_ecc _ (by decide) hone).wr_ecc _ (by decide) hone, ?_, ?_, fun m hm => ?_⟩
    · exact (State.ctx_congr ((heng _ .senStat _).trans (heng s1 .senEccCnt _)) _).trans heng1.1
    · exact (congrArg Engine.dmem ((heng _ .senStat _).trans (heng s1 .senEccCnt _))).trans heng1.2
    · exact (State.rd_ctx_wr_ecc _ x.eng x.ctx _ hm (by decide)).trans ((s1.rd_ctx_wr_ecc x.eng x.ctx _ hm (by decide)).trans
        (by cases hp : x.eng.part <;> rfl))

theorem State.tookTurn_aside (x : CtxRef) (s : State) (y : Nat) (word : Word) : Aside x s (s.tookTurn x y word) := by
  have heng : (s.tookTurn x y word).eng x.eng = _ := s.eng_setEng_same x.eng _
  exact ⟨s.tookTurn_inside x y word, by rw [State.ctx, heng]; rfl, by rw [heng], fun _ _ => by cases x.eng.part <;> rfl⟩

/-- How an instruction ends that the engine's checks pass (R200, R207, R225, R233). -/
def State.ended (s : State) (x : CtxRef) (word : Word) : Ends → State
  | .done t => t.retire x.eng x.ctx (s.pc x.eng x.ctx + 1)
  | .jump g t => if g < 0 ∨ (s.iwinSize x.eng x.ctx : Int) ≤ g then s.faultCtx x.eng x.ctx 0x06 (wrapInt 32 g) word
      else t.retire x.eng x.ctx g.toNat
  | .fault cause faddr => (if cause = 0x0A then s.eccUncorr x.eng else s).faultCtx x.eng x.ctx cause faddr word
  | .wait w t => (t.modCtx x.eng x.ctx fun y => { y with wait := some w }).setCst x.eng x.ctx 2
  | .held => (s.modCtx x.eng x.ctx fun y => { y with wait := some .held }).setCst x.eng x.ctx 2
  | .halt t => (t.retire x.eng x.ctx (s.pc x.eng x.ctx + 1)).setCst x.eng x.ctx 0

/-- What follows an instruction that has had its effect: the error of its word corrected, the rotation moved on (R195, R204). -/
def State.afterIssue (s : State) (x : CtxRef) (word : Word) (ended : State) : State :=
  (ended.eccCorrect x.eng [s.iwinBase x.eng x.ctx + s.pc x.eng x.ctx] true).tookTurn x (s.cycleOf x) word

theorem State.afterIssue_aside (s : State) (x : CtxRef) (word : Word) (ended : State) : Aside x ended (s.afterIssue x word ended) :=
  (ended.eccCorrect_aside x _ _).trans (State.tookTurn_aside x _ _ _)

theorem State.afterIssue_turn (s : State) (x : CtxRef) (word : Word) (ended : State) :
    ((s.afterIssue x word ended).eng x.eng).last = x.ctx.val ∧ ((s.afterIssue x word ended).eng x.eng).cycle = s.cycleOf x := by
  have heng : (s.afterIssue x word ended).eng x.eng = _ := State.eng_setEng_same _ x.eng _
  rw [heng]
  exact ⟨rfl, rfl⟩

section
variable {s t : State} {x : CtxRef} {n : Nat} {word : Word} {prefixed : Bool} {body : Nat → Ends}

/-- An issue that nothing holds back is the instruction and what follows it. -/
theorem State.issue_eq (h : CanIssue s x n) (hd : divides word = true → DivideFree s x) :
    s.issue x word prefixed 0 body = s.afterIssue x word (s.executes x word prefixed 0 body) := by
  obtain ⟨hst, hturn, -⟩ := h
  have hdiv : (divides word && decide (s.cycleOf x < (s.eng x.eng).divFree)) = false := by
    cases hw : divides word
    · rfl
    · have : (s.eng x.eng).divFree ≤ s.cycleOf x := hd hw
      simp [this]
  unfold State.issue
  dsimp only
  rw [if_neg (by simp [hst]), State.inTurn, if_neg (by simp [hst]), if_neg (by simp [hturn]), if_neg (by rw [hdiv]; decide)]
  rfl

/-- An instruction that the engine's checks pass is its effect and its end (R203, R205, R213, R215). -/
theorem State.executes_eq (h : CanIssue s x n) (hn : n ≤ if prefixed then 2 else 0) :
    s.executes x word prefixed 0 body = s.ended x word (body (s.pc x.eng x.ctx)) := by
  obtain ⟨-, -, hpc, hbad, hfx, hck⟩ := h
  have hopen : (decide (3 ≤ (s.ctx x.eng x.ctx).fx.length) || (!(s.ctx x.eng x.ctx).fx.isEmpty && !prefixed)) = false := by
    cases prefixed
    · have : (s.ctx x.eng x.ctx).fx = [] := List.length_eq_zero_iff.1 (Nat.le_zero.1 (hfx.trans hn))
      simp [this]
    · have : (s.ctx x.eng x.ctx).fx.length ≤ 2 := hfx.trans hn
      simp; omega
  have hpar : x.check ≠ .parity := by rw [hck]; decide
  have hres : x.check ≠ .residue := by rw [hck]; decide
  unfold State.executes
  dsimp only
  rw [if_neg (by omega), if_neg (by rw [hbad]; decide), if_neg (by decide), if_neg (by rw [hopen]; decide), if_neg (by decide), if_neg hpar]
  cases body (s.pc x.eng x.ctx) with
  | done t => exact if_neg hres
  | jump g t => exact if_neg hres
  | fault cause faddr => rfl
  | wait w t => rfl
  | held => rfl
  | halt t => rfl

/-- `u` is what the issue of an instruction leaves that leaves `t` and moves the PC to `pc`. -/
structure Issued (x : CtxRef) (pc : Nat) (s t u : State) : Prop where
  inside : Inside x t u
  last : (u.eng x.eng).last = x.ctx.val
  cycle : (u.eng x.eng).cycle = s.cycleOf x
  ctx : u.ctx x.eng x.ctx = { t.ctx x.eng x.ctx with pastEnd := decide (65536 ≤ pc), fx := [], stepping := false }
  dmem : (u.eng x.eng).dmem = (t.eng x.eng).dmem
  retired : Retired x pc s u

theorem State.afterIssue_retire {pc : Nat} (hc : t.cst x.eng x.ctx = 1)
    (hs : (t.ctx x.eng x.ctx).stepping = (s.ctx x.eng x.ctx).stepping) :
    Issued x pc s t (s.afterIssue x word (t.retire x.eng x.ctx pc)) := by
  have ha := s.afterIssue_aside x word (t.retire x.eng x.ctx pc)
  obtain ⟨hlast, hcycle⟩ := s.afterIssue_turn x word (t.retire x.eng x.ctx pc)
  have hctx := ha.ctx.trans (t.ctx_retire x.eng x.ctx pc)
  refine ⟨(t.retire_inside x pc).trans ha.inside, hlast, hcycle, hctx, ha.dmem.trans (t.dmem_retire x.eng x.ctx pc),
    ha.pc.trans (t.pc_retire x.eng x.ctx pc), by rw [hctx], by rw [hctx], ?_⟩
  rw [ha.cst, (t.rd_retire x.eng x.ctx pc).2, hs, hc]

/-- An instruction that completes. -/
theorem State.issue_done (h : CanIssue s x n) (hn : n ≤ if prefixed then 2 else 0) (hd : divides word = true → DivideFree s x)
    (hb : body (s.pc x.eng x.ctx) = .done t) (hc : t.cst x.eng x.ctx = s.cst x.eng x.ctx)
    (hs : (t.ctx x.eng x.ctx).stepping = (s.ctx x.eng x.ctx).stepping) :
    Issued x (nextPc x s) s t (s.issue x word prefixed 0 body) := by
  rw [State.issue_eq h hd, State.executes_eq h hn, hb]
  exact State.afterIssue_retire (hc.trans h.1) hs

/-- An instruction that waits. -/
theorem State.issue_wait {w : Waiting} (h : CanIssue s x n) (hn : n ≤ if prefixed then 2 else 0) (hd : divides word = true → DivideFree s x)
    (hb : body (s.pc x.eng x.ctx) = .wait w s) : Waits x w s (s.issue x word prefixed 0 body) := by
  rw [State.issue_eq h hd, State.executes_eq h hn, hb, State.ended]
  generalize hu : (s.modCtx x.eng x.ctx fun y => { y with wait := some w }) = u
  have ha := s.afterIssue_aside x word (u.setCst x.eng x.ctx 2)
  have hctx : (u.setCst x.eng x.ctx 2).ctx x.eng x.ctx = { s.ctx x.eng x.ctx with wait := some w } := by
    rw [u.ctx_setCst, ← hu, s.ctx_modCtx_same]
  have hpc : (u.setCst x.eng x.ctx 2).rd x.eng.part .ctxPc (ctxInst x.eng x.ctx) = s.rd x.eng.part .ctxPc (ctxInst x.eng x.ctx) := by
    refine (u.rd_ctxPc_wr_ctxState x.eng x.ctx _).trans ?_
    rw [← hu]
    exact s.rdA_modCtx _ _ _ _ _
  refine ⟨ha.cst.trans (u.cst_setCst x.eng x.ctx (by decide)), by rw [ha.ctx, hctx], ha.pc.trans ?_⟩
  rw [State.pc, State.pc, State.fd, State.fd, hpc, hctx]

end

/-! ### Instructions that write one register -/

section
variable {x : CtxRef} {pc : Nat} {s t u : State}

theorem Issued.onlyContext (h : Issued x pc s t u) (ht : Inside x s t) : OnlyContext x s u := (ht.trans h.inside).onlyContext h.last h.cycle

theorem Issued.gReg (h : Issued x pc s t u) (r : Fin 32) : u.g x.eng x.ctx r = t.g x.eng x.ctx r := State.g_congr (by rw [h.ctx]) r

theorem Issued.tReg (h : Issued x pc s t u) (r : Fin 8) : u.t x.eng x.ctx r = t.t x.eng x.ctx r := State.t_congr (by rw [h.ctx]) r

theorem Issued.pReg (h : Issued x pc s t u) (r : Fin 8) : u.pr x.eng x.ctx r = t.pr x.eng x.ctx r := State.pr_congr (by rw [h.ctx]) r

theorem Issued.keepsOps (h : Issued x pc s t u) (hw : (t.ctx x.eng x.ctx).wait = (s.ctx x.eng x.ctx).wait)
    (ho : (t.ctx x.eng x.ctx).ops = (s.ctx x.eng x.ctx).ops) (hq : (t.ctx x.eng x.ctx).opSeq = (s.ctx x.eng x.ctx).opSeq) : KeepsOps x s u := by
  unfold KeepsOps
  rw [h.ctx]
  exact ⟨hw, ho, hq⟩

theorem Issued.keepsDmem (h : Issued x pc s t u) (hd : (t.eng x.eng).dmem = (s.eng x.eng).dmem) : KeepsDmem x s u := fun a => by
  rw [Engine.byte, Engine.byte, h.dmem, hd]

theorem Issued.writesG {d : Fin 32} {v : DWord} (h : Issued x pc s (s.setG x.eng x.ctx d v) u) : WritesGTo x d v pc s u := by
  have hrest {α : Type} (f : Ctx → α) (hf : ∀ y g, f { y with g := g } = f y := by intros; rfl) :
      f ((s.setG x.eng x.ctx d v).ctx x.eng x.ctx) = f (s.ctx x.eng x.ctx) := s.field_setG x.eng x.ctx d v f hf
  refine ⟨h.onlyContext (s.setG_inside x d v), h.retired, h.keepsOps (hrest Ctx.wait) (hrest Ctx.ops) (hrest Ctx.opSeq),
    ⟨fun r => (h.tReg r).trans (State.t_congr (hrest Ctx.t) r), ?_⟩, h.keepsDmem (s.dmem_setG _ _ d v), (h.gReg d).trans (s.g_setG_same _ _ d v),
    fun r hr => (h.gReg r).trans (s.g_setG_other _ _ v hr)⟩
  rw [h.ctx]
  exact hrest Ctx.p

theorem Issued.writesT {d : Fin 8} {v : HT} (h : Issued x (nextPc x s) s (s.setT x.eng x.ctx d v) u) : WritesT x d v s u := by
  have hctx := s.ctx_setT x.eng x.ctx d v
  refine ⟨h.onlyContext (s.setT_inside x d v), h.retired, h.keepsOps (by rw [hctx]) (by rw [hctx]) (by rw [hctx]),
    h.keepsDmem (s.dmem_modCtx _ _ _), fun r => (h.gReg r).trans (State.g_congr (by rw [hctx]) r), by rw [h.ctx, hctx],
    (h.tReg d).trans (s.t_setT_same _ _ d v), fun r hr => (h.tReg r).trans (s.t_setT_other _ _ v hr)⟩

theorem Issued.writesP {d : Fin 8} {v : Bool} (h : Issued x (nextPc x s) s (s.setP x.eng x.ctx d v) u) : WritesP x d v s u := by
  have hctx := s.ctx_setP x.eng x.ctx d v
  refine ⟨h.onlyContext (s.setP_inside x d v), h.retired, h.keepsOps (by rw [hctx]) (by rw [hctx]) (by rw [hctx]),
    h.keepsDmem (s.dmem_modCtx _ _ _), fun r => (h.gReg r).trans (State.g_congr (by rw [hctx]) r),
    fun r => (h.tReg r).trans (State.t_congr (by rw [hctx]) r), (h.pReg d).trans (s.pr_setP_same _ _ d v),
    fun r hr => (h.pReg r).trans (s.pr_setP_other _ _ v hr)⟩

end

end Sys2Proof.Machine
end

section
/-!
PROOFS. What a core's frame leaves on the keepers' ring (R160, R161).
-/
namespace Sys2Proof.Machine
set_option Elab.async false

/-- What of a ring frame its sender's turns leave alone: the hop, whose frame it is, and the frame. -/
def RingSent.sender (f : RingSent) : Nat × Bool × RingFrame := (f.hop, f.own, f.frame)

/-- The frames that the senders of the ring hold. -/
def State.senders (s : State) : List (Nat × Bool × RingFrame) := s.kc.ring.map RingSent.sender

theorem ringHolds_of_mem {t : State} {h : Nat} {own : Bool} {f : RingFrame} (hm : (h, own, f) ∈ t.senders) : RingHolds t h own f := by
  obtain ⟨r, hr, heq⟩ := List.mem_map.1 hm
  simp only [RingSent.sender, Prod.mk.injEq] at heq
  obtain ⟨rfl, rfl, rfl⟩ := heq
  exact List.any_eq_true.2 ⟨r, hr, by simp⟩

theorem map_modAt {α β : Type} {c : α → β} {g : α → α} (h : ∀ a, c (g a) = c a) : ∀ (i : Nat) (l : List α), (modAt i g l).map c = l.map c
  | 0, [] => rfl
  | i + 1, [] => rfl
  | 0, a :: l => by simp [modAt, h]
  | i + 1, a :: l => congrArg (c a :: ·) (map_modAt h i l)

theorem State.senders_ringStep (s : State) (h : Nat) : (s.ringStep h).senders = s.senders := by
  unfold State.ringStep
  extract_lets v waits
  split
  · rfl
  · split
    · rfl
    · exact map_modAt (c := RingSent.sender) (g := fun f => { f with wire := some (f.frame.bits v.seq) }) (fun _ => rfl) _ _

theorem State.senders_ringPut (s : State) (h : Nat) (own : Bool) (f : RingFrame) : (s.ringPut h own f).senders = s.senders ++ [(h, own, f)] := by
  unfold State.ringPut State.ringPump
  rw [State.senders_ringStep, State.senders_ringStep]
  exact List.map_append

/-- A frame of the core's on several branches is on each. -/
theorem State.senders_foldl_ringPut (f : RingFrame) {b : Nat} {l : List Nat} (hb : b ∈ l) (s : State) :
    (256 + b, true, f) ∈ (l.foldl (fun t b => t.ringPut (256 + b) true f) s).senders := by
  obtain ⟨before, later, rfl⟩ := List.append_of_mem hb
  rw [List.foldl_append, List.foldl_cons]
  refine List.foldlRecOn (motive := fun t : State => (256 + b, true, f) ∈ t.senders) later _ ?_ fun t ht a _ => ?_
  · rw [State.senders_ringPut]
    exact List.mem_append_right _ List.mem_cons_self
  · rw [State.senders_ringPut]
    exact List.mem_append_left _ ht

/-- Nothing but the keepers' and the core's ring data has changed. -/
def OnlyKc (s t : State) : Prop := { t with kc := s.kc } = s

theorem OnlyKc.trans {s t u : State} (h : OnlyKc s t) (k : OnlyKc t u) : OnlyKc s u := by
  unfold OnlyKc at *
  rw [← h, ← k]

/-- What is not the ring's reads alike. -/
theorem OnlyKc.field {s t : State} (h : OnlyKc s t) {α : Type} (f : State → α) (hf : ∀ (x : State) k, f { x with kc := k } = f x := by intros; rfl) :
    f t = f s := (hf t s.kc).symm.trans (congrArg f h)

theorem State.ringStep_onlyKc (s : State) (h : Nat) : OnlyKc s (s.ringStep h) := by
  unfold State.ringStep
  extract_lets v waits
  split
  · rfl
  · split <;> rfl

theorem State.ringPut_onlyKc (s : State) (h : Nat) (own : Bool) (f : RingFrame) : OnlyKc s (s.ringPut h own f) := by
  unfold State.ringPut State.ringPump
  refine OnlyKc.trans ?_ ((State.ringStep_onlyKc _ h).trans (State.ringStep_onlyKc _ h))
  rfl

theorem State.ringSend_onlyKc (s : State) (cmd addr bcn arg : Nat) : OnlyKc s (s.ringSend cmd addr bcn arg) := by
  unfold State.ringSend
  extract_lets f
  split
  · exact s.ringPut_onlyKc _ _ _
  · split
    · exact s.ringPut_onlyKc _ _ _
    · split
      · exact s.ringPut_onlyKc _ _ _
      · exact List.foldlRecOn (motive := OnlyKc s) _ _ rfl fun t ht b _ => ht.trans (t.ringPut_onlyKc _ _ _)

/-- A TARM goes out on the branch of the keeper it names, or on every branch in use (R161). -/
theorem State.ringSend_tarm_holds (s : State) {addr mask arg : Nat} (hm : mask < 2 ^ 32) (ha : arg < 2 ^ 64) {b : Fin 4} (hb : OnBranches s addr b) :
    (256 + b.val, true, ⟨5, addr, mask, arg⟩) ∈ (s.ringSend 5 addr mask arg).senders := by
  unfold State.ringSend
  simp only [Nat.mod_eq_of_lt hm, Nat.mod_eq_of_lt ha]
  rw [if_neg (by decide), if_neg (by decide)]
  unfold OnBranches at hb
  split
  · next hne =>
    rw [if_neg hne] at hb
    rw [State.senders_ringPut, hb]
    exact List.mem_append_right _ List.mem_cons_self
  · next heq =>
    rw [if_pos (not_not.1 heq)] at hb
    exact State.senders_foldl_ringPut _ (List.mem_filter.2 ⟨List.mem_range.2 b.isLt, hb⟩) s

end Sys2Proof.Machine
end

section
/-!
PROOFS. Time instructions (R79, R87, R159, R200, R242, R243), and O31.
-/
namespace Sys2Proof.Machine
set_option Elab.async false

/-! ### The effect of an instruction, and what its issue leaves of it -/

/-- A context that runs still does, with a STEP as before. -/
structure StillRuns (x : CtxRef) (s t : State) : Prop where
  cst : t.cst x.eng x.ctx = s.cst x.eng x.ctx
  stepping : (t.ctx x.eng x.ctx).stepping = (s.ctx x.eng x.ctx).stepping

theorem StillRuns.trans {x : CtxRef} {s t u : State} (h : StillRuns x s t) (k : StillRuns x t u) : StillRuns x s u :=
  ⟨k.cst.trans h.cst, k.stepping.trans h.stepping⟩

section
variable (x : CtxRef) (s : State)

theorem State.setG_runs (r : Fin 32) (v : DWord) : StillRuns x s (s.setG x.eng x.ctx r v) :=
  ⟨congrArg (fld · 2 0) (s.rdA_setG _ _ r v _ _), s.field_setG _ _ r v Ctx.stepping⟩

theorem State.setT_runs (r : Fin 8) (v : HT) : StillRuns x s (s.setT x.eng x.ctx r v) :=
  ⟨congrArg (fld · 2 0) (s.rdA_modCtx _ _ _ _ _), by rw [s.ctx_setT]⟩

theorem State.setP_runs (r : Fin 8) (v : Bool) : StillRuns x s (s.setP x.eng x.ctx r v) :=
  ⟨congrArg (fld · 2 0) (s.rdA_modCtx _ _ _ _ _), by rw [s.ctx_setP]⟩

theorem State.mod_runs (f : Part → Part) (hf : ∀ q, (f q).regs = q.regs := by intro _; rfl) : StillRuns x s (s.mod x.eng.part f) :=
  ⟨congrArg (fld · 2 0) (s.rdA_mod _ _ _ _ (hf _)), by rw [State.ctx_congr (State.eng_congr (s.mod_engines _ f) _)]⟩

theorem State.jnl_runs (w : Who) (ty payload : Nat) (hw : w.p = x.eng.part) : StillRuns x s (s.jnl w ty payload) :=
  ⟨congrArg (fld · 2 0) (s.rd_ctx_jnl x.eng x.ctx w ty payload (by decide) hw), by rw [State.ctx_congr (s.eng_jnl w ty payload _)]⟩

end

/-- An instruction that is issued leaves what is no register word of the parts as its effect does, -/
theorem SameOutside.part {s t : State} (h : SameOutside s t) (q : PartId) {α : Type} (f : Part → α)
    (hf : ∀ (x : Part) r, f { x with regs := r } = f x := by intros; rfl) : f (t.part q) = f (s.part q) := by
  cases q with
  | tsu => exact (hf t.tsu s.tsu.regs).symm.trans (congrArg (fun y : State => f y.tsu) h)
  | dist => exact (hf t.dist s.dist.regs).symm.trans (congrArg (fun y : State => f y.dist) h)

theorem SameOutside.dtcO {s t : State} (h : SameOutside s t) (p : PartId) (i : Nat) : t.dtcO p i = s.dtcO p i :=
  congrArg (fun m => mget (fun _ => ({} : DtcOut)) m i) (h.part p Part.dtc)

theorem SameOutside.tdcU {s t : State} (h : SameOutside s t) (p : PartId) (i : Nat) : t.tdcU p i = s.tdcU p i :=
  congrArg (fun m => mget (fun _ => ({} : TdcUnit)) m i) (h.part p Part.tdc)

/-- the ring among it. -/
theorem SameOutside.kc {s t : State} (h : SameOutside s t) : t.kc = s.kc := by
  unfold SameOutside at h
  exact (congrArg State.kc h :)

/-- The outcome word of an instruction is in its register when the instruction has ended. -/
theorem Issued.reports {x : CtxRef} {s t u : State} {a : Fin 32} {w : DWord} (h : Issued x (nextPc x s) s (t.setG x.eng x.ctx a w) u) :
    Reports x a w s u := ⟨h.retired, (h.gReg a).trans (t.g_setG_same _ _ a w)⟩

/-- An instruction of the time opcodes does not divide (R197, R242). -/
theorem divides_wFT {op : Nat} (td ta a imm : Nat) (h1 : 0x20 ≤ op) (h2 : op < 64) : divides (wFT op td ta a imm) = false := by
  have hop : (wFT op td ta a imm).toNat / 2 ^ 26 = op := by
    have h3 := Nat.mod_lt td (show 0 < 8 by decide)
    have h4 := Nat.mod_lt ta (show 0 < 8 by decide)
    have h5 := Nat.mod_lt a (show 0 < 32 by decide)
    have h6 := Nat.mod_lt imm (show 0 < 2 ^ 15 by decide)
    rw [wFT, BitVec.toNat_ofNat]
    omega
  unfold divides issueInterval
  simp only [hop]
  split <;> first | omega | rfl

section
variable {s t : State} {x : CtxRef} {n op td ta a imm : Nat} {prefixed : Bool} {body : Nat → Ends}

/-- A time instruction that completes. -/
theorem completesFT_done {c : Instr} {P : State → Prop} (hx : exec c s = .next (s.issue x (wFT op td ta a imm) prefixed 0 body))
    (h : CanIssue s x n) (hb : body (s.pc x.eng x.ctx) = .done t) (hr : StillRuns x s t) (hP : ∀ u, Issued x (nextPc x s) s t u → P u)
    (hn : n ≤ if prefixed then 2 else 0 := by decide) (h1 : 0x20 ≤ op := by decide) (h2 : op < 64 := by decide) : Completes c s P :=
  ⟨_, hx, hP _ (State.issue_done h hn (fun hd => by rw [divides_wFT td ta a imm h1 h2] at hd; cases hd) hb hr.cst hr.stepping)⟩

/-- One that waits. -/
theorem completesFT_wait {c : Instr} {w : Waiting} (hx : exec c s = .next (s.issue x (wFT op td ta a imm) prefixed 0 body))
    (h : CanIssue s x n) (hb : body (s.pc x.eng x.ctx) = .wait w s)
    (hn : n ≤ if prefixed then 2 else 0 := by decide) (h1 : 0x20 ≤ op := by decide) (h2 : op < 64 := by decide) :
    Completes c s fun t => Waits x w s t :=
  ⟨_, hx, State.issue_wait h hn (fun hd => by rw [divides_wFT td ta a imm h1 h2] at hd; cases hd) hb⟩

end

/-! ### Waiting for a tick -/

/-- WAITT for an instant that has passed: LATE with the lateness, and its record. -/
theorem execWaitt_late {s : State} {x : CtxRef} {ta : Fin 8} {a : Fin 32} {h : HT} (hi : CanIssue s x 0) (ht : s.t x.eng x.ctx ta = h)
    (hsign : noSign h (s.ht x.eng.part) = false) (hpast : after (ceilTick h) (s.ht x.eng.part) = false) :
    Completes (.waitt x ta a) s fun t => Reports x a (outWord .late (satNat 32 (s.ht x.eng.part - h).toNat)) s t := by
  let late := satNat 32 (s.ht x.eng.part - h).toNat
  let t := s.setG x.eng x.ctx a (outWord .late late)
  let w := senWho x.eng x.ctx
  have hjnl : (t.outcome w .late 0x24 (s.pc x.eng x.ctx) late).ctx x.eng x.ctx = t.ctx x.eng x.ctx := State.ctx_congr (t.eng_jnl w _ _ _) _
  refine completesFT_done rfl hi (t := t.outcome w .late 0x24 (s.pc x.eng x.ctx) late) ?_ ((s.setG_runs x a _).trans (t.jnl_runs x w _ _ rfl))
    fun u hu => ⟨hu.retired, (hu.gReg a).trans ((State.g_congr (by rw [hjnl]) a).trans (s.g_setG_same _ _ a _))⟩
  simp [ht, hsign, hpast, State.report, t, late, w]

/-- A context that resumes has its outcome, the next PC and no wait, and runs unless it was stepped (R200, R207). -/
theorem State.resume_resumes (s : State) (e : EngSel) (c : Fin 16) (a : Fin 32) (w : DWord) :
    (s.resume e c a w).g e c a = gAfter a w ∧ (s.resume e c a w).pc e c = pcAt (s.pc e c + 1) ∧ ((s.resume e c a w).ctx e c).wait = none ∧
      (s.resume e c a w).cst e c = if (s.ctx e c).stepping then 0 else 1 := by
  let t := s.modCtx e c fun y => { y with wait := none }
  let u := (t.setG e c a w).setCst e c 1
  have heq : s.resume e c a w = u.retire e c (s.pc e c + 1) := by
    unfold State.resume
    dsimp only
    simp [t, u]
  have hctx : u.ctx e c = ({ s.ctx e c with wait := none } : Ctx).withG a w := by
    rw [State.ctx_setCst, State.ctx_setG, s.ctx_modCtx_same]
  have hrest {α : Type} (f : Ctx → α) (hf : ∀ y g, f { y with g := g } = f y := by intros; rfl) : f (u.ctx e c) = f { s.ctx e c with wait := none } := by
    rw [hctx, Ctx.field_withG _ a w f hf]
  rw [heq, (u.rd_retire e c _).2, u.pc_retire, u.ctx_retire, State.cst_setCst _ e c (by decide)]
  refine ⟨?_, rfl, hrest Ctx.wait, by rw [hrest Ctx.stepping]⟩
  rw [State.g_congr (t := u.retire e c (s.pc e c + 1)) (s := t.setG e c a w) (by rw [u.ctx_retire, State.ctx_setCst]), t.g_setG_same]

/-- The tick a context waits for. -/
theorem execWaittTarget_resumes {s : State} {e : EngSel} {c : Fin 16} {a : Fin 32} {h : HT} (hc : s.cst e c = 2)
    (hw : (s.ctx e c).wait = some (.tick h a)) :
    Completes (.waittTarget e c) s fun t =>
      t.g e c a = gAfter a (outWord .ok 0) ∧ t.pc e c = pcAt (s.pc e c + 1) ∧ (t.ctx e c).wait = none ∧
        t.cst e c = if (s.ctx e c).stepping then 0 else 1 := by
  let t := s.reach e.part (s.tickAt e.part h)
  have hctx : t.ctx e c = s.ctx e c := State.ctx_congr (s.eng_reach _ _ e) c
  have hpc : t.pc e c = s.pc e c := by
    rw [State.pc, State.pc, hctx, State.fd, State.fd, s.rd_ctx_reach e c _ (by decide)]
  refine ⟨t.resume e c a (outWord .ok 0), ?_, by simpa only [hctx, hpc] using t.resume_resumes e c a (outWord .ok 0)⟩
  show execWaittTarget e c s = _
  simp [execWaittTarget, hc, hw, t]

/-! ### Triggers -/

theorem State.dtcO_setDtc_same (s : State) (p : PartId) (i : Nat) (o : DtcOut) : (s.setDtc p i o).dtcO p i = o := by
  rw [State.dtcO, State.setDtc, s.part_mod_same]
  exact mget_mset_same _ _ _ _

/-- Arming an enabled, idle fine output that is not refused (R86). -/
theorem State.armFine_idle {s : State} {p : PartId} {i : Nat} {h : HT} (jctx : Nat) (hf : p = .tsu → s.fenced = false)
    (hsign : noSign h (s.ht p) = false) (ha : (s.dtcO p i).armed = []) (hen : s.bt p .dtcCfg 0 i = true) (hcal : s.bt p .dtcStatus 3 i = false)
    (hclk : s.clockRuns p = true) :
    s.armFine p i h jctx = (.ok, s.setDtc p i { s.dtcO p i with armed := [⟨h, s.ht p, jctx⟩] }) := by
  have hfen : (decide (p = .tsu) && s.fenced) = false := by
    cases p
    · simp [hf rfl]
    · rfl
  simp [State.armFine, firstFail, hfen, hsign, ha, hen, hcal, hclk, insertTrig]

/-- TRIG to a fine output. -/
theorem execTrig_fine {s : State} {x : CtxRef} {ta : Fin 8} {a : Fin 32} {imm : BitVec 15} {n : Fin 8} {h : HT} {i : Nat} (hi : CanIssue s x 2)
    (ht : s.t x.eng x.ctx ta + BitVec.ofInt 64 (256 * s.immS x.eng x.ctx 15 imm.toNat) = h) (hg : s.g x.eng x.ctx a = BitVec.ofNat 64 n)
    (hn : dtcInst x.eng n = i) (hd : hasDtc x.eng = true) (hf : x.eng.part = .tsu → s.fenced = false) (hsign : noSign h (s.ht x.eng.part) = false)
    (ha : (s.dtcO x.eng.part i).armed = []) (hen : s.bt x.eng.part .dtcCfg 0 i = true) (hcal : s.bt x.eng.part .dtcStatus 3 i = false)
    (hclk : s.clockRuns x.eng.part = true) :
    Completes (.trig x ta a imm) s fun t =>
      Reports x a ((s.armLate x.eng (.fine n) h).elim (outWord .ok 0) fun l => outWord .late (satNat 32 l)) s t ∧
        (t.dtcO x.eng.part i).armed = [⟨h, s.ht x.eng.part, x.ctx.val⟩] := by
  subst hn
  have hnn : (BitVec.ofNat 64 n.val).toNat = n.val := by rw [BitVec.toNat_ofNat, Nat.mod_eq_of_lt (by omega)]
  have hdest : trigDest x.eng (s.g x.eng x.ctx a) = some (.fine n) := by
    rw [hg, trigDest, hnn]
    simp [hd]
  let t := s.setDtc x.eng.part (dtcInst x.eng n) { s.dtcO x.eng.part (dtcInst x.eng n) with armed := [⟨h, s.ht x.eng.part, x.ctx.val⟩] }
  have harm : s.armDest x.eng x.ctx (.fine n) h = (.ok, 0, t) := by
    have : s.armFine x.eng.part (8 * x.eng.tileNo + n) h x.ctx = (.ok, t) := State.armFine_idle x.ctx hf hsign ha hen hcal hclk
    simp [State.armDest, this]
  generalize hw : ((s.armLate x.eng (.fine n) h).elim (outWord .ok 0) fun l => outWord .late (satNat 32 l) : DWord) = w
  refine completesFT_done rfl hi (t := t.setG x.eng x.ctx a w) ?_ ((s.mod_runs x _).trans (t.setG_runs x a w)) fun u hu => ⟨hu.reports, ?_⟩
  · simp only [ht, hdest, harm, State.reportQuiet]
    rw [← hw]
    cases s.armLate x.eng (.fine n) h <;> simp [satNat]
  · rw [((t.setG_inside x a w).trans hu.inside).outside.dtcO, s.dtcO_setDtc_same]

/-- A TARM that nothing refuses is sent (R159). -/
theorem State.sendTarm_sent {s : State} {addr : Nat} {h : HT} (mask : Nat) (hf : s.fenced = false) (hsign : noSign h (s.ht .tsu) = false)
    (ha : addr = allKeepers ∨ addr < s.fd .tsu .kprNkeep 8 0) (hen : s.bt .tsu .kprCtrl 0 = true) :
    s.sendTarm addr mask h true = (.ok, s.ringSend 5 addr mask h.toNat) := by
  have hrange : (noSign h (s.ht .tsu) || (decide (addr ≠ 0x100) && decide (s.fd .tsu .kprNkeep 8 0 ≤ addr))) = false := by
    obtain rfl | ha := ha
    · simp [hsign, allKeepers]
    · simp [hsign, ha]
  unfold State.sendTarm
  simp only [hf, hrange, hen]
  rfl

/-- A keeper target names four outputs at most, and only a TSU has keepers (R243). -/
theorem trigDest_keeper {e : EngSel} {ga : DWord} {addr mask : Nat} (h : trigDest e ga = some (.keeper addr mask)) : e = .tsu ∧ mask < 2 ^ 32 := by
  unfold trigDest at h
  extract_lets v a m at h
  split at h
  · split at h <;> simp at h
  · split at h
    · next hk =>
      split at h
      · cases h
      · simp only [Option.some.injEq, TrigDest.keeper.injEq] at h
        obtain ⟨-, rfl⟩ := h
        refine ⟨by simp_all, (Nat.mod_lt _ (by decide)).trans_le (by decide : 2 ^ 4 ≤ 2 ^ 32)⟩
    · cases h

/-- TRIG to a keeper's outputs. -/
theorem execTrig_keeper {s : State} {x : CtxRef} {ta : Fin 8} {a : Fin 32} {imm : BitVec 15} {addr mask : Nat} {h : HT} (hi : CanIssue s x 2)
    (ht : s.t x.eng x.ctx ta + BitVec.ofInt 64 (256 * s.immS x.eng x.ctx 15 imm.toNat) = h)
    (hd : trigDest x.eng (s.g x.eng x.ctx a) = some (.keeper addr mask)) (hf : s.fenced = false) (hsign : noSign h (s.ht .tsu) = false)
    (ha : addr = allKeepers ∨ addr < s.fd .tsu .kprNkeep 8 0) (hen : s.bt .tsu .kprCtrl 0 = true) :
    Completes (.trig x ta a imm) s fun t =>
      Reports x a (if after h (s.ht .tsu) then outWord .ok 0 else outWord .late (satNat 32 (s.ht .tsu - h).toNat)) s t ∧
        ∀ b : Fin 4, OnBranches s addr b → RingHolds t (256 + b.val) true ⟨5, addr, mask, h.toNat⟩ := by
  obtain ⟨hx, hm⟩ := trigDest_keeper hd
  let t := s.ringSend 5 addr mask h.toNat
  have ho : OnlyKc s t := s.ringSend_onlyKc _ _ _ _
  have hruns : StillRuns x s t := by
    refine ⟨congrArg (fld · 2 0) (ho.field fun y => y.rdA _ _), ?_⟩
    rw [ho.field fun y => y.ctx x.eng x.ctx]
  have harm : s.armDest x.eng x.ctx (.keeper addr mask) h = if after h (s.ht .tsu) then (.ok, 0, t) else (.late, (s.ht .tsu - h).toNat, t) := by
    simp only [State.armDest, State.sendTarm_sent mask hf hsign ha hen, congrArg EngSel.part hx]
    rfl
  generalize hw : (if after h (s.ht .tsu) then outWord .ok 0 else outWord .late (satNat 32 (s.ht .tsu - h).toNat) : DWord) = w
  refine completesFT_done rfl hi (t := t.setG x.eng x.ctx a w) ?_ (hruns.trans (t.setG_runs x a w)) fun u hu => ⟨hu.reports, fun b hb => ?_⟩
  · simp only [ht, hd, harm, State.armLate, State.reportQuiet, Fin.ofNat_eq_cast, Fin.cast_val_eq_self]
    rw [← hw]
    by_cases hlate : after h (s.ht .tsu) = true
    · simp only [if_pos hlate]; rfl
    · simp only [if_neg hlate]
  · have hk := ((t.setG_inside x a w).trans hu.inside).outside.kc
    refine ringHolds_of_mem ?_
    rw [State.senders, hk]
    exact s.ringSend_tarm_holds hm h.isLt hb

/-! ### CAPT -/

theorem State.tdcU_setTdc_same (s : State) (p : PartId) (i : Nat) (u : TdcUnit) : (s.setTdc p i u).tdcU p i = u := by
  rw [State.tdcU, State.setTdc, s.part_mod_same]
  exact mget_mset_same _ _ _ _

/-- CAPT of a general channel with a result: the oldest one leaves the FIFO for the t register, its status for the g register (R79, R243). -/
theorem execCapt_takes {s : State} {x : CtxRef} {td : Fin 8} {a : Fin 32} {ch : BitVec 5} {r : TdcResult} {rs : List TdcResult} {i : Nat}
    (hi : CanIssue s x 0) (hch : ch.toNat < 9) (hn : 2 * x.eng.tileNo = i)
    (hf : mget (fun _ => []) (s.tdcU x.eng.part i).fifos ch.toNat = r :: rs) :
    Completes (.capt x td a ch) s fun t =>
      Reports x a (outWord .ok r.status.toNat) s t ∧ t.t x.eng x.ctx td = r.value ∧
        mget (fun _ => []) (t.tdcU x.eng.part i).fifos ch.toNat = rs := by
  subst hn
  let s1 := s.setTdc x.eng.part (2 * x.eng.tileNo)
    { s.tdcU x.eng.part (2 * x.eng.tileNo) with fifos := mset (fun _ => []) (s.tdcU x.eng.part (2 * x.eng.tileNo)).fifos ch.toNat rs }
  let t := s1.setT x.eng x.ctx td r.value
  have htake : s.tdcTake x.eng.part (2 * x.eng.tileNo) ch.toNat = (some r, s1) := by
    unfold State.tdcTake
    simp only [hf, s1]
  have hmod : ch.toNat % 16 = ch.toNat := Nat.mod_eq_of_lt (by omega)
  have hcode : firstFail false false (decide (9 ≤ ch.toNat)) false (decide (16 ≤ ch.toNat)) false = .ok := by
    rw [decide_eq_false (by omega), decide_eq_false (by omega)]
    rfl
  generalize hw : outWord .ok r.status.toNat = w
  refine completesFT_done rfl hi (t := t.setG x.eng x.ctx a w) ?_ (((s.mod_runs x _).trans (s1.setT_runs x td _)).trans (t.setG_runs x a w))
    fun u hu => ⟨hu.reports, ?_, ?_⟩
  · simp [hmod, hcode, htake, State.report, hw, t]
  · rw [hu.tReg, State.t_congr (s := t) (t.field_setG x.eng x.ctx a w Ctx.t)]
    exact s1.t_setT_same x.eng x.ctx td r.value
  · rw [(((s1.setT_inside x td _).trans (t.setG_inside x a w)).trans hu.inside).outside.tdcU, s.tdcU_setTdc_same]
    exact mget_mset_same _ _ _ _

/-! ### O31 -/

/-- Settles O31. -/
theorem timeInstructions : Obligations.TimeInstructions := by
  unfold Obligations.TimeInstructions
  refine ⟨fun x td s hi => completesFT_done rfl hi rfl (s.setT_runs x td _) fun u hu => hu.writesT,
    fun x td ta a imm s hi => completesFT_done rfl hi rfl (s.setT_runs x td _) fun u hu => hu.writesT,
    fun x td ta a s hi => completesFT_done rfl hi rfl (s.setG_runs x a _) fun u hu => hu.writesG,
    fun x p td ta r s hi => completesFT_done rfl hi rfl (s.setP_runs x p _) fun u hu => hu.writesP,
    fun x ta a h s hi ht hsign hahead => completesFT_wait rfl hi ?_,
    fun x ta a h s hi ht hsign hpast => execWaitt_late hi ht hsign hpast,
    fun e c a h s hc hw => execWaittTarget_resumes hc hw,
    fun x ta a imm n h i s hi ht hg hn hd hx hf hsign ha hen hcal hclk => ?_,
    fun x ta a imm addr mask h s hi ht hd hf hsign ha hen => execTrig_keeper hi ht hd hf hsign ha hen,
    fun x td a ch r rs i s hi hch hn hf => execCapt_takes hi hch hn hf⟩
  · simp [ht, hsign, hahead]
  · obtain ⟨u, hu, hreports, harmed⟩ := execTrig_fine hi ht hg hn hd (fun _ => hf) hsign ha hen hcal hclk
    refine ⟨u, hu, ?_, harmed⟩
    cases hlate : s.armLate x.eng (.fine n) h with
    | none => rwa [hlate] at hreports
    | some l => rwa [hlate] at hreports

end Sys2Proof.Machine
end

section
/-!
PROOFS. TDC units: their registers and data under the updates of the family, and the edge of the time clock on which an event falls
(R74, R76, R78).
-/
namespace Sys2Proof.Machine
set_option Elab.async false

/-! ### Registers -/

/-- The registers that decide what a unit does, and the status it shows. -/
abbrev tdcRegs : List RegName := [.tdcCtrl, .tdcCalst, .tdcStat]

theorem tdcRegs_addrOf (e : EngSel) (un : Fin 2) (c : Cls) : ∀ n ∈ tdcRegs, addrOf e.part n (tdcInst e un) < 0x4000000 ∧
    addrOf e.part n (tdcInst e un) ∉ passWords e.part ∧ addrOf e.part n (tdcInst e un) ∉ bookWords e.part c := by
  cases e with
  | tsu => revert un; cases c <;> decide
  | tile t => revert un t; cases c <;> decide

theorem tdcRegs_inj (e : EngSel) (un : Fin 2) : ∀ n ∈ tdcRegs, ∀ m ∈ tdcRegs, n ≠ m →
    addrOf e.part n (tdcInst e un) ≠ addrOf e.part m (tdcInst e un) := by
  cases e with
  | tsu => revert un; decide
  | tile t => revert un t; decide

theorem tdcChCfg_addrOf (e : EngSel) (un : Fin 2) (c : Fin 9) : addrOf e.part .tdcChCfg (tdcInst e un) c ∉ passWords e.part ∧
    addrOf e.part .tdcChCfg (tdcInst e un) c ≠ addrOf e.part .tdcStat (tdcInst e un) := by
  cases e with
  | tsu => revert un c; decide
  | tile t => revert un t c; decide

theorem oscCtrl_addrOf (e : EngSel) (un : Fin 2) : OffPass e.part .dist (addrOf .dist .oscCtrl) ∧
    (PartId.dist ≠ e.part ∨ addrOf .dist .oscCtrl ≠ addrOf e.part .tdcStat (tdcInst e un)) := by
  cases e with
  | tsu => exact ⟨.inl (by decide), .inl (by decide)⟩
  | tile t => exact ⟨.inr (show _ ∉ passWords .dist by decide), .inr (by revert un t; decide)⟩

section
variable (s : State) (e : EngSel) (un : Fin 2)

theorem State.rd_wr_tdc_same {n : RegName} (v : Word) (hn : n ∈ tdcRegs := by decide) :
    (s.wr e.part n v (tdcInst e un)).rd e.part n (tdcInst e un) = v := s.rd_wr_same e.part n v _ 0 (tdcRegs_addrOf e un .host n hn).1

theorem State.rd_wr_tdc_other {n m : RegName} (v : Word) (hn : n ∈ tdcRegs := by decide) (hm : m ∈ tdcRegs := by decide)
    (hne : m ≠ n := by decide) : (s.wr e.part n v (tdcInst e un)).rd e.part m (tdcInst e un) = s.rd e.part m (tdcInst e un) :=
  s.rdA_wr_other n v _ 0 (.inr (tdcRegs_inj e un m hm n hn hne))

/-- A bit of one of them, set. -/
theorem State.bt_setF_tdc_same {n : RegName} (b v : Nat) (hn : n ∈ tdcRegs := by decide) (hb : b < 32 := by decide) :
    (s.setF e.part n b b v (tdcInst e un)).bt e.part n b (tdcInst e un) = v.testBit 0 := by
  rw [State.bt, State.setF, s.rd_wr_tdc_same e un _ hn, getLsbD_setFld _ _ _ _ _ (by omega) hb, if_pos ⟨le_rfl, le_rfl⟩, Nat.sub_self]

theorem State.bt_setF_tdc_bit {n : RegName} {b k : Nat} (v : Nat) (hn : n ∈ tdcRegs := by decide) (hb : b < 32 := by decide)
    (hk : k ≠ b := by decide) :
    (s.setF e.part n b b v (tdcInst e un)).bt e.part n k (tdcInst e un) = s.bt e.part n k (tdcInst e un) := by
  rw [State.bt, State.setF, s.rd_wr_tdc_same e un _ hn, getLsbD_setFld _ _ _ _ _ (by omega) hb, if_neg (by omega)]
  rfl

end

/-! ### A unit's data -/

/-- A unit turns on its part's units alone. -/
theorem State.tdcU_congr {s t : State} {p : PartId} (h : (t.part p).tdc = (s.part p).tdc) (i : Nat) : t.tdcU p i = s.tdcU p i := by
  rw [State.tdcU, State.tdcU, h]

section
variable (s : State) (p : PartId) (i : Nat)

theorem State.tdcU_wr (n : RegName) (v : Word) (j k : Nat) : (s.wr p n v j k).tdcU p i = s.tdcU p i :=
  State.tdcU_congr (Part.field_of_core (s.core_wrA p p _ v) Part.tdc) i

theorem State.part_setTdc (u : TdcUnit) : (s.setTdc p i u).part p = { s.part p with tdc := mset (fun _ => {}) (s.part p).tdc i u } :=
  s.part_mod_same p _

theorem State.tdcU_setTdc_other {j : Nat} (u : TdcUnit) (h : j ≠ i) : (s.setTdc p i u).tdcU p j = s.tdcU p j := by
  rw [State.tdcU, s.part_setTdc]
  exact mget_mset_other _ _ _ h

theorem State.bt_setTdc (u : TdcUnit) (n : RegName) (b j : Nat) : (s.setTdc p i u).bt p n b j = s.bt p n b j :=
  congrArg (BitVec.getLsbD · b) (s.rdA_setTdc p p i u _)

theorem State.ht_setTdc (u : TdcUnit) : (s.setTdc p i u).ht p = s.ht p := by rw [State.ht, s.part_setTdc, State.ht]

end

/-! ### The edge on which an event falls -/

/-- What decides whether a channel listens, and how its unit converts, reads alike. -/
structure HearsAlike (p : PartId) (i c : Nat) (s t : State) : Prop where
  ctrl : t.rd p .tdcCtrl i = s.rd p .tdcCtrl i
  calst : t.rd p .tdcCalst i = s.rd p .tdcCalst i
  cfg : t.rd p .tdcChCfg i c = s.rd p .tdcChCfg i c
  refSel : t.refSel = s.refSel
  dtc : (t.part p).dtc = (s.part p).dtc

theorem HearsAlike.trans {p : PartId} {i c : Nat} {s t u : State} (h : HearsAlike p i c s t) (k : HearsAlike p i c t u) :
    HearsAlike p i c s u :=
  ⟨k.ctrl.trans h.ctrl, k.calst.trans h.calst, k.cfg.trans h.cfg, k.refSel.trans h.refSel, k.dtc.trans h.dtc⟩

theorem HearsAlike.taken {p : PartId} {i c : Nat} {s t : State} (h : HearsAlike p i c s t) : t.tdcTaken p i c = s.tdcTaken p i c := by
  rw [State.tdcTaken, State.tdcTaken, h.refSel]

theorem HearsAlike.looped {p : PartId} {i c : Nat} {s t : State} (h : HearsAlike p i c s t) : t.tdcLooped p i c = s.tdcLooped p i c := by
  rw [State.tdcLooped, State.tdcLooped, h.dtc]

theorem State.setTdc_hears (s : State) (p : PartId) (i c j : Nat) (u : TdcUnit) : HearsAlike p i c s (s.setTdc p j u) :=
  ⟨s.rdA_setTdc p p j u _, s.rdA_setTdc p p j u _, s.rdA_setTdc p p j u _, congrArg (fld · 2 0) (s.rdA_setTdc p .dist j u _),
    by rw [s.part_setTdc]⟩

section
variable (s : State) (e : EngSel) (un : Fin 2) (c : Fin 9)

theorem State.passed_hears (tb : TimeBase) : HearsAlike e.part (tdcInst e un) c s (s.passed e.part tb) := by
  have h (n : RegName) (hn : n ∈ tdcRegs) := s.rdA_passed tb (.inr (tdcRegs_addrOf e un .host n hn).2.1 : OffPass e.part e.part _)
  exact ⟨h .tdcCtrl (by decide), h .tdcCalst (by decide), s.rdA_passed tb (.inr (tdcChCfg_addrOf e un c).1),
    congrArg (fld · 2 0) (s.rdA_passed tb (oscCtrl_addrOf e un).1), Part.field_of_untimed (s.untimed_passed e.part e.part tb) Part.dtc⟩

theorem State.setB_tdcStat_hears (b : Nat) : HearsAlike e.part (tdcInst e un) c s (s.setB e.part .tdcStat b (tdcInst e un)) :=
  ⟨s.rd_wr_tdc_other e un _, s.rd_wr_tdc_other e un _, s.rdA_setF_other .tdcStat b b 1 _ 0 (.inr (tdcChCfg_addrOf e un c).2),
    congrArg (fld · 2 0) (s.rdA_setF_other .tdcStat b b 1 _ 0 (oscCtrl_addrOf e un).2),
    Part.field_of_core (s.core_setF e.part e.part _ _ _ _ _ _) Part.dtc⟩

/-- A wrap of the coarse counter shows in the unit's wrap bit and in TDC_STAT. -/
theorem State.tdcWrapped_hears : HearsAlike e.part (tdcInst e un) c s (s.tdcWrapped e.part (tdcInst e un)) := by
  unfold State.tdcWrapped
  extract_lets u
  split
  · split
    · exact ⟨rfl, rfl, rfl, rfl, rfl⟩
    · exact (s.setTdc_hears _ _ _ _ _).trans (State.setB_tdcStat_hears _ e un c 2)
  · exact ⟨rfl, rfl, rfl, rfl, rfl⟩

/-- The state on the edge of an event `k` edges on, before the event. -/
def State.atEdge (p : PartId) (i k : Nat) : State := (s.passed p ((s.part p).tb.edges k)).tdcWrapped p i

theorem State.atEdge_hears (k : Nat) : HearsAlike e.part (tdcInst e un) c s (s.atEdge e.part (tdcInst e un) k) :=
  (s.passed_hears e un c _).trans (State.tdcWrapped_hears _ e un c)

end

section
variable (s : State) (p : PartId) (i : Nat)

theorem State.tdcU_passed (tb : TimeBase) : (s.passed p tb).tdcU p i = s.tdcU p i :=
  State.tdcU_congr (Part.field_of_untimed (s.untimed_passed p p tb) Part.tdc) i

theorem State.tdcU_tdcWrapped : ∃ w, (s.tdcWrapped p i).tdcU p i = { s.tdcU p i with wrapped := w } := by
  unfold State.tdcWrapped
  extract_lets u
  split
  · split
    · exact ⟨u.wrapped, rfl⟩
    · exact ⟨true, (State.tdcU_wr _ p i _ _ _ _).trans (s.tdcU_setTdc_same p i _)⟩
  · exact ⟨u.wrapped, rfl⟩

theorem State.tb_tdcWrapped : ((s.tdcWrapped p i).part p).tb = (s.part p).tb := by
  unfold State.tdcWrapped
  extract_lets u
  split
  · split
    · rfl
    · exact (State.tb_wr _ p p _ _ _ _).trans (by rw [s.part_setTdc])
  · rfl

/-- On the edge of an event the unit is as it was, but for its wrap bit. -/
theorem State.tdcU_atEdge (k : Nat) : ∃ w, (s.atEdge p i k).tdcU p i = { s.tdcU p i with wrapped := w } := by
  obtain ⟨w, h⟩ := (s.passed p ((s.part p).tb.edges k)).tdcU_tdcWrapped p i
  exact ⟨w, h.trans (by rw [s.tdcU_passed])⟩

theorem State.tb_atEdge (k : Nat) : ((s.atEdge p i k).part p).tb = (s.part p).tb.edges k :=
  (State.tb_tdcWrapped _ p i).trans (s.tb_passed p _)

end

end Sys2Proof.Machine
end

section
/-!
PROOFS. TDC events and coarse wraps (R74–R80).
-/
namespace Sys2Proof.Machine
set_option Elab.async false

/-! ### An accepted edge (R74, R75, R77, R80) -/

theorem HearsAlike.bt_ctrl {p : PartId} {i c : Nat} {s t : State} (h : HearsAlike p i c s t) (b : Nat) :
    t.bt p .tdcCtrl b i = s.bt p .tdcCtrl b i := congrArg (BitVec.getLsbD · b) h.ctrl

theorem HearsAlike.bt_calst {p : PartId} {i c : Nat} {s t : State} (h : HearsAlike p i c s t) (b : Nat) :
    t.bt p .tdcCalst b i = s.bt p .tdcCalst b i := congrArg (BitVec.getLsbD · b) h.calst

/-- The instant of an edge on the present time-clock edge, in hu of the time clock. -/
def State.tdcInstant (s : State) (p : PartId) (i c raw : Nat) : Int := 256 * (s.part p).tb.edgeNo - (s.tdcU p i).frac c raw

/-- The result of an edge. -/
def State.tdcResult (s : State) (p : PartId) (i raw : Nat) (falling : Bool) (value : DWord) (ovf : Bool) (seq : Nat) : TdcResult :=
  { value := value, ovf := ovf, uncal := s.bt p .tdcCalst 30 i, stale := s.bt p .tdcCalst 29 i, falling := falling, seq := seq, raw := raw }

/-- An edge at a unit that converts: enabled, in no calibration, 8 ns or more after the channel's last conversion. -/
structure Converts (s : State) (p : PartId) (i c raw : Nat) : Prop where
  calst : s.bt p .tdcCalst 31 i = false
  ctrl : s.bt p .tdcCtrl 0 i = true
  apart : ((mget (fun _ => none) (s.tdcU p i).lastConv c).any fun x : Int => decide (s.tdcInstant p i c raw < x + 2048)) = false

/-- A channel of a general unit that neither the reference loop nor a DTC calibration has taken. -/
structure General (s : State) (p : PartId) (i c : Nat) : Prop where
  unit : i % 2 = 0
  taken : s.tdcTaken p i c = false
  looped : s.tdcLooped p i c = false

/-- A result of such a channel goes to its FIFO while it has room. -/
theorem State.tdcU_tdcDeliver {s : State} {p : PartId} {i c : Nat} (hg : General s p i c)
    (hroom : (mget (fun _ => []) (s.tdcU p i).fifos c).length < 16) (r : TdcResult) :
    (s.tdcDeliver p i c r).tdcU p i =
      { s.tdcU p i with
        chSeq := mset (fun _ => 0) (s.tdcU p i).chSeq c ((mget (fun _ => 0) (s.tdcU p i).chSeq c + 1) % 65536)
        fifos := mset (fun _ => []) (s.tdcU p i).fifos c (mget (fun _ => []) (s.tdcU p i).fifos c ++ [r]) } := by
  unfold State.tdcDeliver
  extract_lets u u1
  rw [if_neg (by simp [hg.unit, hg.taken, hg.looped]), State.tdcQueue, s.tdcU_setTdc_same p i u1,
    if_neg (by rw [not_le]; exact hroom), State.tdcU_setTdc_same]

/-- The state with the instants of the channel's latest accepted and converted edge noted. -/
def State.tdcNoted (s : State) (p : PartId) (i c raw : Nat) : State :=
  let t := s.setTdc p i { s.tdcU p i with lastAcc := mset (fun _ => none) (s.tdcU p i).lastAcc c (some (s.tdcInstant p i c raw)) }
  t.setTdc p i { t.tdcU p i with lastConv := mset (fun _ => none) (t.tdcU p i).lastConv c (some (s.tdcInstant p i c raw)) }

theorem State.tdcNoted_hears (s : State) (p : PartId) (i c raw : Nat) : HearsAlike p i c s (s.tdcNoted p i c raw) :=
  (s.setTdc_hears p i c i _).trans (State.setTdc_hears _ p i c i _)

theorem State.tdcU_tdcNoted (s : State) (p : PartId) (i c raw : Nat) : (s.tdcNoted p i c raw).tdcU p i =
    { s.tdcU p i with
      lastAcc := mset (fun _ => none) (s.tdcU p i).lastAcc c (some (s.tdcInstant p i c raw))
      lastConv := mset (fun _ => none) (s.tdcU p i).lastConv c (some (s.tdcInstant p i c raw)) } := by
  rw [State.tdcNoted, State.tdcU_setTdc_same, State.tdcU_setTdc_same]

section
variable {s : State} {p : PartId} {i c raw : Nat} (falling : Bool)

/-- An edge that converts in TIMESTAMP mode: HT less the bin-centre fraction is delivered with the channel's sequence. -/
theorem State.tdcAccept_timestamp (h : Converts s p i c raw) (hmode : s.bt p .tdcCtrl 1 i = false) :
    s.tdcAccept p i c raw falling = (s.tdcNoted p i c raw).tdcDeliver p i c
      (s.tdcResult p i raw falling (s.ht p - BitVec.ofNat 64 ((s.tdcU p i).frac c raw)) false (mget (fun _ => 0) (s.tdcU p i).chSeq c)) := by
  obtain ⟨hcal, hen, hapart⟩ := h
  unfold State.tdcInstant at hapart
  unfold State.tdcAccept
  simp [State.bt_setTdc, State.tdcU_setTdc_same, State.ht_setTdc, hcal, hen, hapart, hmode, State.tdcNoted, State.tdcResult, State.tdcInstant]

/-- In INTERVAL mode an edge of channel 8 is the start, -/
theorem State.tdcU_tdcAccept_start (h : Converts s p i 8 raw) (hmode : s.bt p .tdcCtrl 1 i = true) :
    (s.tdcAccept p i 8 raw falling).tdcU p i =
      { (s.tdcNoted p i 8 raw).tdcU p i with
        startSeq := ((s.tdcU p i).startSeq + 1) % 65536, prevStart := (s.tdcU p i).start, wrapped := false
        start := some ⟨(s.part p).tb.edgeNo, (s.tdcU p i).frac 8 raw, ((s.tdcU p i).startSeq + 1) % 65536⟩ } := by
  obtain ⟨hcal, hen, hapart⟩ := h
  unfold State.tdcInstant at hapart
  unfold State.tdcAccept
  simp only [State.bt_setTdc, State.tdcU_setTdc_same, hcal, hen, hapart, hmode, State.tdcU_tdcNoted]
  exact State.tdcU_setTdc_same _ p i _

/-- and an edge of another channel delivers its interval since its start. -/
theorem State.tdcAccept_interval {a : TdcStart} (h : Converts s p i c raw) (hc : c ≠ 8) (hmode : s.bt p .tdcCtrl 1 i = true)
    (ha : (s.tdcU p i).startFor (s.part p).tb.edgeNo ((s.tdcU p i).frac c raw) = some a) :
    s.tdcAccept p i c raw falling = (s.tdcNoted p i c raw).tdcDeliver p i c
      (s.tdcResult p i raw falling
        (BitVec.ofNat 64 (wrapInt 32 ((256 * (((s.part p).tb.edgeNo - a.edge) % 2 ^ 24) : Nat) + a.frac - ((s.tdcU p i).frac c raw : Nat))))
        (decide (2 ^ 24 ≤ (s.part p).tb.edgeNo - a.edge)) a.seq) := by
  obtain ⟨hcal, hen, hapart⟩ := h
  unfold State.tdcInstant at hapart
  have hstart : TdcUnit.startFor { s.tdcU p i with
      lastAcc := mset (fun _ => none) (s.tdcU p i).lastAcc c (some (256 * (s.part p).tb.edgeNo - (s.tdcU p i).frac c raw)) }
      (s.part p).tb.edgeNo ((s.tdcU p i).frac c raw) = some a := ha
  unfold State.tdcAccept
  simp [State.bt_setTdc, State.tdcU_setTdc_same, hcal, hen, hapart, hmode, hc, hstart, State.tdcNoted, State.tdcResult, State.tdcInstant]

end

/-- Whatever becomes of an edge, the prescaler stands. -/
theorem State.presc_tdcAccept (s : State) (p : PartId) (i c raw : Nat) (falling : Bool) :
    ((s.tdcAccept p i c raw falling).tdcU p i).presc = (s.tdcU p i).presc := by
  have hset (t : State) (u : TdcUnit) : ((t.setTdc p i u).tdcU p i).presc = u.presc := congrArg TdcUnit.presc (t.tdcU_setTdc_same p i u)
  have hwr (t : State) (n : RegName) (v : Word) (j k : Nat) : ((t.wr p n v j k).tdcU p i).presc = (t.tdcU p i).presc :=
    congrArg TdcUnit.presc (t.tdcU_wr p i n v j k)
  have hdeliver (t : State) (r : TdcResult) : ((t.tdcDeliver p i c r).tdcU p i).presc = (t.tdcU p i).presc := by
    unfold State.tdcDeliver State.tdcQueue
    extract_lets u u1 v f
    split
    · exact hset _ _
    · split
      · exact (hwr _ _ _ _ _).trans (hset _ _)
      · exact (hset _ _).trans (hset _ _)
  unfold State.tdcAccept
  extract_lets u0 f edge at_ t u u1 r q
  have ht : (t.tdcU p i).presc = u0.presc := hset _ _
  split
  · exact ((hwr _ _ _ _ _).trans (hwr _ _ _ _ _)).trans ht
  · split
    · exact (hdeliver _ _).trans ((hset _ _).trans ht)
    · split
      · exact (hset _ _).trans ht
      · split
        · exact ((hwr _ _ _ _ _).trans (hwr _ _ _ _ _)).trans ht
        · exact (hdeliver _ _).trans ((hset _ _).trans ht)

end Sys2Proof.Machine
end

section
/-!
PROOFS. The edges that a TDC channel listens to (R77, R78), and what they convert to (R74, R75, R79, R80).
-/
namespace Sys2Proof.Machine
set_option Elab.async false

/-- An edge of source `src` at a channel that listens to it, on a part whose time clock runs: neither the reference loop nor a DTC calibration has
taken the channel, and EDGE picks the polarity. -/
structure Listens (s : State) (p : PartId) (i c : Nat) (src : Byte) (falling : Bool) : Prop where
  clock : s.clockRuns p = true
  taken : s.tdcTaken p i c = false
  looped : s.tdcLooped p i c = false
  source : s.fd p .tdcChCfg 31 24 i c = src.toNat
  source_ne : src ≠ 0
  edge : s.bt p .tdcChCfg (if falling then 23 else 22) i c = true

/-- A channel that nothing has taken listens to what its configuration says. -/
theorem State.tdcInput_free {s : State} {p : PartId} {i c : Nat} (ht : s.tdcTaken p i c = false) (hl : s.tdcLooped p i c = false) :
    s.tdcInput p i c = (s.fd p .tdcChCfg 31 24 i c, s.fd p .tdcChCfg 23 22 i c, s.fd p .tdcChCfg 21 20 i c, s.fd p .tdcChCfg 19 16 i c) := by
  simp only [State.tdcInput, ht, hl, Bool.false_eq_true, if_false]
  rfl

theorem HearsAlike.fd_cfg {p : PartId} {i c : Nat} {s t : State} (h : HearsAlike p i c s t) (hi lo : Nat) :
    t.fd p .tdcChCfg hi lo i c = s.fd p .tdcChCfg hi lo i c := congrArg (fld · hi lo) h.cfg

/-- EDGE bit 1 picks falling edges, bit 0 rising ones. -/
theorem State.edge_testBit (s : State) (p : PartId) (i c : Nat) (falling : Bool) :
    (if falling then (s.fd p .tdcChCfg 23 22 i c).testBit 1 else (s.fd p .tdcChCfg 23 22 i c).testBit 0) =
      s.bt p .tdcChCfg (if falling then 23 else 22) i c := by
  rw [State.fd, fld, testBit_bits, testBit_bits]
  cases falling <;> rfl

/-- The state on the edge of an event, with its hit counted if the unit calibrates on it. -/
def State.eventAt (s : State) (p : PartId) (i c : Nat) (src : Byte) (raw k : Nat) : State :=
  let t := s.atEdge p i k
  if src = 0x03 && t.bt p .tdcCalst 31 i then t.tdcHit p i c raw else t

theorem State.eventAt_hears (s : State) (e : EngSel) (un : Fin 2) (c : Fin 9) (src : Byte) (raw k : Nat) :
    HearsAlike e.part (tdcInst e un) c s (s.eventAt e.part (tdcInst e un) c src raw k) := by
  unfold State.eventAt State.tdcHit
  extract_lets t u h
  split
  · exact (s.atEdge_hears e un c k).trans (t.setTdc_hears _ _ _ _ _)
  · exact s.atEdge_hears e un c k

theorem State.presc_eventAt (s : State) (p : PartId) (i c : Nat) (src : Byte) (raw k : Nat) :
    ((s.eventAt p i c src raw k).tdcU p i).presc = (s.tdcU p i).presc := by
  obtain ⟨w, hw⟩ := s.tdcU_atEdge p i k
  unfold State.eventAt State.tdcHit
  extract_lets t u h
  have ht : (t.tdcU p i).presc = (s.tdcU p i).presc := (congrArg TdcUnit.presc hw :)
  split
  · exact (congrArg TdcUnit.presc (t.tdcU_setTdc_same p i _)).trans ht
  · exact ht

/-- A unit that does not calibrate counts no hit. -/
theorem State.eventAt_idle (s : State) (e : EngSel) (un : Fin 2) (c : Fin 9) (src : Byte) (raw k : Nat)
    (h : s.bt e.part .tdcCalst 31 (tdcInst e un) = false) :
    s.eventAt e.part (tdcInst e un) c src raw k = s.atEdge e.part (tdcInst e un) k := by
  rw [State.eventAt, (s.atEdge_hears e un c k).bt_calst, h, Bool.and_false]
  exact if_neg Bool.false_ne_true

section
variable {e : EngSel} {un : Fin 2} {ch : Fin 9} {src : Byte} {falling : Bool} {s : State}

/-- The prescaler counts the edge and accepts one of 2^PRESC. -/
def State.prescaled (t : State) (p : PartId) (i c raw : Nat) (falling : Bool) (presc : Nat) : State :=
  let u := t.tdcU p i
  let n := mget (fun _ => 0) u.presc c
  let t1 := t.setTdc p i { u with presc := mset (fun _ => 0) u.presc c (n + 1) }
  if prescAccepts n presc then t1.tdcAccept p i c raw falling else t1

/-- What becomes of an edge that the channel listens to and selects, by COND: 1 prescales, and but for 2 (hysteresis and hold-off) any other code
accepts the edge. -/
theorem tdcEvent_listens (h : Listens s e.part (tdcInst e un) ch src falling) (raw : Fin 256) (k level : Nat) :
    (s.fd e.part .tdcChCfg 21 20 (tdcInst e un) ch = 1 → tdcEvent e un ch src raw falling k level s =
      (s.eventAt e.part (tdcInst e un) ch src raw k).prescaled e.part (tdcInst e un) ch raw falling (s.fd e.part .tdcChCfg 19 16 (tdcInst e un) ch)) ∧
    (s.fd e.part .tdcChCfg 21 20 (tdcInst e un) ch ≠ 1 → s.fd e.part .tdcChCfg 21 20 (tdcInst e un) ch ≠ 2 →
      tdcEvent e un ch src raw falling k level s = (s.eventAt e.part (tdcInst e un) ch src raw k).tdcAccept e.part (tdcInst e un) ch raw falling) := by
  have hh := s.eventAt_hears e un ch src raw k
  have hin := State.tdcInput_free (hh.taken.trans h.taken) (hh.looped.trans h.looped)
  rw [hh.fd_cfg, hh.fd_cfg, hh.fd_cfg, hh.fd_cfg, h.source] at hin
  have hedge := (s.edge_testBit e.part (tdcInst e un) ch falling).trans h.edge
  unfold tdcEvent
  extract_lets p i c s1 t u n s2 instant off
  rw [if_neg (by simp [p, h.clock]), show t.tdcInput p i c = _ from hin]
  dsimp only
  rw [if_neg (by rw [hedge, decide_eq_false h.source_ne]; exact Bool.false_ne_true), if_neg (not_not_intro rfl)]
  refine ⟨fun h1 => ?_, fun h1 h2 => ?_⟩
  · rw [h1]
    rfl
  · split
    · exact absurd ‹_› h1
    · exact absurd ‹_› h2
    · rfl

end

/-! ### The results -/

/-- The instant of an edge `k` edges on, in hu of the time clock. -/
def State.instantAt (s : State) (p : PartId) (i c raw k : Nat) : Int := 256 * ((s.part p).tb.edgeNo + k : Nat) - ((s.tdcU p i).frac c raw : Nat)

theorem State.frac_atEdge (s : State) (p : PartId) (i c raw k : Nat) : ((s.atEdge p i k).tdcU p i).frac c raw = (s.tdcU p i).frac c raw := by
  obtain ⟨w, hw⟩ := s.tdcU_atEdge p i k
  rw [hw]
  rfl

theorem State.edgeNo_atEdge (s : State) (p : PartId) (i k : Nat) : ((s.atEdge p i k).part p).tb.edgeNo = (s.part p).tb.edgeNo + k := by
  rw [s.tb_atEdge]
  rfl

theorem State.tdcInstant_atEdge (s : State) (p : PartId) (i c raw k : Nat) :
    (s.atEdge p i k).tdcInstant p i c raw = s.instantAt p i c raw k := by
  rw [State.tdcInstant, s.edgeNo_atEdge, s.frac_atEdge, State.instantAt]

section
variable {e : EngSel} {un : Fin 2} {ch : Fin 9} {s : State}

/-- On the edge of an event a unit converts what it would convert before. -/
theorem Converts.atEdge {raw k : Nat} (hcal : s.bt e.part .tdcCalst 31 (tdcInst e un) = false) (hen : s.bt e.part .tdcCtrl 0 (tdcInst e un) = true)
    (hapart : ((mget (fun _ => none) (s.tdcU e.part (tdcInst e un)).lastConv ch.val).any fun x : Int =>
      decide (s.instantAt e.part (tdcInst e un) ch raw k < x + 2048)) = false) :
    Converts (s.atEdge e.part (tdcInst e un) k) e.part (tdcInst e un) ch raw := by
  have hh := s.atEdge_hears e un ch k
  refine ⟨(hh.bt_calst 31).trans hcal, (hh.bt_ctrl 0).trans hen, ?_⟩
  obtain ⟨w, hw⟩ := s.tdcU_atEdge e.part (tdcInst e un) k
  rw [s.tdcInstant_atEdge, hw]
  exact hapart

theorem General.hears {p : PartId} {i c : Nat} {t : State} (h : General s p i c) (hh : HearsAlike p i c s t) : General t p i c :=
  ⟨h.unit, hh.taken.trans h.taken, hh.looped.trans h.looped⟩

/-- A channel's results and its result sequence once a result is delivered. -/
theorem tdcDeliver_noted {t : State} {p : PartId} {i c raw : Nat} (hg : General t p i c)
    (hroom : (mget (fun _ => []) (t.tdcU p i).fifos c).length < 16) (r : TdcResult) :
    mget (fun _ => []) (((t.tdcNoted p i c raw).tdcDeliver p i c r).tdcU p i).fifos c = mget (fun _ => []) (t.tdcU p i).fifos c ++ [r] ∧
      mget (fun _ => 0) (((t.tdcNoted p i c raw).tdcDeliver p i c r).tdcU p i).chSeq c = (mget (fun _ => 0) (t.tdcU p i).chSeq c + 1) % 65536 := by
  have hu := t.tdcU_tdcNoted p i c raw
  have hroom' : (mget (fun _ => []) ((t.tdcNoted p i c raw).tdcU p i).fifos c).length < 16 := by rwa [hu]
  rw [State.tdcU_tdcDeliver (hg.hears (t.tdcNoted_hears p i c raw)) hroom', hu]
  exact ⟨mget_mset_same _ _ _ _, mget_mset_same _ _ _ _⟩

end
end Sys2Proof.Machine
end

section
/-!
PROOFS. What TDC_EVENT and COARSE_WRAP do (R74–R80).
-/
namespace Sys2Proof.Machine
set_option Elab.async false

theorem tdcInst_general {un : Fin 2} (e : EngSel) (h : un = 0) : tdcInst e un % 2 = 0 := by
  subst h
  exact Nat.mul_add_mod_self_left 2 e.tileNo 0

/-- An edge that no qualifier drops, at a unit that converts. -/
structure Accepted (s : State) (e : EngSel) (un : Fin 2) (ch : Fin 9) (src : Byte) (raw : Fin 256) (falling : Bool) (k : Nat) : Prop where
  listens : Listens s e.part (tdcInst e un) ch src falling
  calst : s.bt e.part .tdcCalst 31 (tdcInst e un) = false
  ctrl : s.bt e.part .tdcCtrl 0 (tdcInst e un) = true
  plain : s.fd e.part .tdcChCfg 21 20 (tdcInst e un) ch ≠ 1
  unheld : s.fd e.part .tdcChCfg 21 20 (tdcInst e un) ch ≠ 2
  apart : ((mget (fun _ => none) (s.tdcU e.part (tdcInst e un)).lastConv ch.val).any fun x : Int =>
    decide (s.instantAt e.part (tdcInst e un) ch raw k < x + 2048)) = false

section
variable {e : EngSel} {un : Fin 2} {ch : Fin 9} {src : Byte} {raw : Fin 256} {falling : Bool} {k : Nat} {s : State}

theorem Accepted.converts (h : Accepted s e un ch src raw falling k) :
    Converts (s.atEdge e.part (tdcInst e un) k) e.part (tdcInst e un) ch raw :=
  Converts.atEdge h.calst h.ctrl h.apart

theorem Accepted.general (h : Accepted s e un ch src raw falling k) (hun : un = 0) :
    General (s.atEdge e.part (tdcInst e un) k) e.part (tdcInst e un) ch :=
  (⟨tdcInst_general e hun, h.listens.taken, h.listens.looped⟩ : General s e.part (tdcInst e un) ch).hears (s.atEdge_hears e un ch k)

theorem Accepted.event (h : Accepted s e un ch src raw falling k) (level : Nat) :
    tdcEvent e un ch src raw falling k level s = (s.atEdge e.part (tdcInst e un) k).tdcAccept e.part (tdcInst e un) ch raw falling := by
  rw [(tdcEvent_listens h.listens raw k level).2 h.plain h.unheld, s.eventAt_idle e un ch src raw k h.calst]

theorem Accepted.bt_ctrl_atEdge (b : Nat) : (s.atEdge e.part (tdcInst e un) k).bt e.part .tdcCtrl b (tdcInst e un) =
    s.bt e.part .tdcCtrl b (tdcInst e un) := (s.atEdge_hears e un 0 k).bt_ctrl b

/-- A result carries the calibration state that holds before its edge. -/
theorem State.tdcResult_atEdge (s : State) (e : EngSel) (un : Fin 2) (raw k : Nat) (falling : Bool) (value : DWord) (ovf : Bool) (seq : Nat) :
    (s.atEdge e.part (tdcInst e un) k).tdcResult e.part (tdcInst e un) raw falling value ovf seq =
      s.tdcResult e.part (tdcInst e un) raw falling value ovf seq := by
  rw [State.tdcResult, State.tdcResult, (s.atEdge_hears e un 0 k).bt_calst, (s.atEdge_hears e un 0 k).bt_calst]

/-- TIMESTAMP mode: HT of the edge less the fraction. -/
theorem Accepted.timestamp (h : Accepted s e un ch src raw falling k) (level : Nat) (hun : un = 0)
    (hmode : s.bt e.part .tdcCtrl 1 (tdcInst e un) = false) (hroom : (mget (fun _ => []) (s.tdcU e.part (tdcInst e un)).fifos ch.val).length < 16) :
    let t := tdcEvent e un ch src raw falling k level s
    mget (fun _ => []) (t.tdcU e.part (tdcInst e un)).fifos ch.val = mget (fun _ => []) (s.tdcU e.part (tdcInst e un)).fifos ch.val ++
        [s.tdcResult e.part (tdcInst e un) raw falling
          (((s.part e.part).tb.edges k).ht - BitVec.ofNat 64 ((s.tdcU e.part (tdcInst e un)).frac ch raw)) false
          (mget (fun _ => 0) (s.tdcU e.part (tdcInst e un)).chSeq ch.val)] ∧
      mget (fun _ => 0) (t.tdcU e.part (tdcInst e un)).chSeq ch.val = (mget (fun _ => 0) (s.tdcU e.part (tdcInst e un)).chSeq ch.val + 1) % 65536 := by
  intro t
  obtain ⟨w, hw⟩ := s.tdcU_atEdge e.part (tdcInst e un) k
  have ht : t = _ := (h.event level).trans (State.tdcAccept_timestamp falling h.converts ((Accepted.bt_ctrl_atEdge 1).trans hmode))
  rw [s.tdcResult_atEdge, State.ht, s.tb_atEdge, s.frac_atEdge, hw] at ht
  have hd := tdcDeliver_noted (raw := raw) (h.general hun) (by rwa [hw]) (s.tdcResult e.part (tdcInst e un) raw falling
    (((s.part e.part).tb.edges k).ht - BitVec.ofNat 64 ((s.tdcU e.part (tdcInst e un)).frac ch raw)) false
    (mget (fun _ => 0) (s.tdcU e.part (tdcInst e un)).chSeq ch.val))
  rw [hw] at hd
  rw [ht]
  exact hd

/-- An edge of the start channel in INTERVAL mode. -/
theorem Accepted.start (h : Accepted s e un ch src raw falling k) (level : Nat) (hch : ch = 8)
    (hmode : s.bt e.part .tdcCtrl 1 (tdcInst e un) = true) :
    let u := (tdcEvent e un ch src raw falling k level s).tdcU e.part (tdcInst e un)
    u.start = some ⟨(s.part e.part).tb.edgeNo + k, (s.tdcU e.part (tdcInst e un)).frac ch raw,
        ((s.tdcU e.part (tdcInst e un)).startSeq + 1) % 65536⟩ ∧
      u.prevStart = (s.tdcU e.part (tdcInst e un)).start ∧ u.wrapped = false := by
  intro u
  obtain ⟨w, hw⟩ := s.tdcU_atEdge e.part (tdcInst e un) k
  have hconv := h.converts
  have hu : u = _ := congrArg (State.tdcU · e.part (tdcInst e un)) (h.event level)
  subst hch
  have hst := hu.trans (State.tdcU_tdcAccept_start falling hconv ((Accepted.bt_ctrl_atEdge 1).trans hmode))
  rw [s.edgeNo_atEdge, hw] at hst
  rw [hst]
  exact ⟨rfl, rfl, rfl⟩

/-- The interval of a stop. -/
theorem Accepted.interval (h : Accepted s e un ch src raw falling k) (level : Nat) (hun : un = 0) (hch : ch ≠ 8)
    (hmode : s.bt e.part .tdcCtrl 1 (tdcInst e un) = true) {a : TdcStart}
    (hroom : (mget (fun _ => []) (s.tdcU e.part (tdcInst e un)).fifos ch.val).length < 16)
    (ha : (s.tdcU e.part (tdcInst e un)).startFor ((s.part e.part).tb.edgeNo + k) ((s.tdcU e.part (tdcInst e un)).frac ch raw) = some a) :
    mget (fun _ => []) ((tdcEvent e un ch src raw falling k level s).tdcU e.part (tdcInst e un)).fifos ch.val =
      mget (fun _ => []) (s.tdcU e.part (tdcInst e un)).fifos ch.val ++
        [s.tdcResult e.part (tdcInst e un) raw falling
          (BitVec.ofNat 64 (wrapInt 32 ((256 * (((s.part e.part).tb.edgeNo + k - a.edge) % 2 ^ 24) : Nat) + a.frac -
            ((s.tdcU e.part (tdcInst e un)).frac ch raw : Nat))))
          (decide (2 ^ 24 ≤ (s.part e.part).tb.edgeNo + k - a.edge)) a.seq] := by
  obtain ⟨w, hw⟩ := s.tdcU_atEdge e.part (tdcInst e un) k
  have ha' : ((s.atEdge e.part (tdcInst e un) k).tdcU e.part (tdcInst e un)).startFor
      ((s.atEdge e.part (tdcInst e un) k).part e.part).tb.edgeNo
      (((s.atEdge e.part (tdcInst e un) k).tdcU e.part (tdcInst e un)).frac ch raw) = some a := by
    rw [s.edgeNo_atEdge, s.frac_atEdge, hw]
    exact ha
  have ht := (h.event level).trans (State.tdcAccept_interval falling h.converts (fun hc => hch (Fin.ext hc))
    ((Accepted.bt_ctrl_atEdge 1).trans hmode) ha')
  have hroom' : (mget (fun _ => []) ((s.atEdge e.part (tdcInst e un) k).tdcU e.part (tdcInst e un)).fifos ch.val).length < 16 := by rwa [hw]
  rw [ht, (tdcDeliver_noted (h.general hun) hroom' _).1, s.tdcResult_atEdge, s.edgeNo_atEdge, s.frac_atEdge, hw]

/-- A part whose time clock is stopped converts nothing. -/
theorem tdcEvent_stopped (h : s.clockRuns e.part = false) (level : Nat) : tdcEvent e un ch src raw falling k level s = s :=
  if_pos (by rw [h]; rfl)

/-- The prescaler counts every edge it selects, accepted or not. -/
theorem tdcEvent_presc (h : Listens s e.part (tdcInst e un) ch src falling) (level : Nat)
    (hcond : s.fd e.part .tdcChCfg 21 20 (tdcInst e un) ch = 1) :
    mget (fun _ => 0) ((tdcEvent e un ch src raw falling k level s).tdcU e.part (tdcInst e un)).presc ch.val =
      mget (fun _ => 0) (s.tdcU e.part (tdcInst e un)).presc ch.val + 1 := by
  rw [(tdcEvent_listens h raw k level).1 hcond, ← s.presc_eventAt e.part (tdcInst e un) ch src raw k]
  unfold State.prescaled
  extract_lets u n t
  have ht : mget (fun _ => 0) (t.tdcU e.part (tdcInst e un)).presc ch.val = n + 1 := by simp only [t, State.tdcU_setTdc_same, mget_mset_same]
  split
  · rw [State.presc_tdcAccept]
    exact ht
  · exact ht

end

/-! ### Coarse wraps (R76) -/

theorem State.cwrap_setB (s : State) (e : EngSel) (un : Fin 2) :
    (s.setB e.part .tdcStat 2 (tdcInst e un)).bt e.part .tdcStat 2 (tdcInst e un) = true := s.bt_setF_tdc_same e un 2 1

section
variable {s : State} {e : EngSel} {un : Fin 2} {a : TdcStart} (hmode : s.bt e.part .tdcCtrl 1 (tdcInst e un) = true)
  (hclock : s.clockRuns e.part = true) (hstart : (s.tdcU e.part (tdcInst e un)).start = some a) (hedge : a.edge ≤ (s.part e.part).tb.edgeNo)
include hmode hclock hstart hedge

/-- The first wrap after a start, 2^24 periods after it. -/
theorem coarseWrap_first (hw : (s.tdcU e.part (tdcInst e un)).wrapped = false) :
    (coarseWrap e un s).bt e.part .tdcStat 2 (tdcInst e un) = true ∧ ((coarseWrap e un s).tdcU e.part (tdcInst e un)).wrapped = true ∧
      a.edge + 2 ^ 24 ≤ ((coarseWrap e un s).part e.part).tb.edgeNo := by
  let k := 2 ^ 24 - ((s.part e.part).tb.edgeNo - a.edge)
  let q := s.passed e.part ((s.part e.part).tb.edges k)
  have hk : coarseWrap e un s = s.atEdge e.part (tdcInst e un) k := by
    unfold coarseWrap
    simp only [hmode, hclock, hstart, hw, Bool.not_true, Bool.or_self, Bool.false_eq_true, if_false]
    rfl
  have hlate : a.edge + 2 ^ 24 ≤ (s.part e.part).tb.edgeNo + k := by omega
  have hqe : (q.part e.part).tb.edgeNo = (s.part e.part).tb.edgeNo + k := by
    rw [s.tb_passed]
    rfl
  have hqu : q.tdcU e.part (tdcInst e un) = s.tdcU e.part (tdcInst e un) := s.tdcU_passed _ _ _
  have hqc : q.bt e.part .tdcCtrl 1 (tdcInst e un) = true := ((s.passed_hears e un 0 _).bt_ctrl 1).trans hmode
  have hwrap : s.atEdge e.part (tdcInst e un) k =
      (q.setTdc e.part (tdcInst e un) { s.tdcU e.part (tdcInst e un) with wrapped := true }).setB e.part .tdcStat 2 (tdcInst e un) := by
    change q.tdcWrapped e.part (tdcInst e un) = _
    unfold State.tdcWrapped
    simp only [hqu, hstart]
    refine if_neg ?_
    rw [hw, hqc, hqe, decide_eq_false (by omega)]
    decide
  rw [hk]
  refine ⟨?_, ?_, (s.edgeNo_atEdge _ _ k).symm ▸ hlate⟩
  · rw [hwrap]
    exact State.cwrap_setB _ e un
  · rw [hwrap, State.setB, State.setF, State.tdcU_wr, State.tdcU_setTdc_same]

/-- A later wrap falls on a whole number of turns of the counter and shows nowhere. -/
theorem coarseWrap_later (hw : (s.tdcU e.part (tdcInst e un)).wrapped = true) :
    (((coarseWrap e un s).part e.part).tb.edgeNo - a.edge) % 2 ^ 24 = 0 ∧
      (coarseWrap e un s).rd e.part .tdcStat (tdcInst e un) = s.rd e.part .tdcStat (tdcInst e un) := by
  let k := 2 ^ 24 - ((s.part e.part).tb.edgeNo - a.edge) % 2 ^ 24
  let q := s.passed e.part ((s.part e.part).tb.edges k)
  have hk : coarseWrap e un s = s.atEdge e.part (tdcInst e un) k := by
    unfold coarseWrap
    simp only [hmode, hclock, hstart, hw, Bool.not_true, Bool.or_self, Bool.false_eq_true, if_false, if_true]
    rfl
  have hwrap : s.atEdge e.part (tdcInst e un) k = q := by
    rw [State.atEdge, State.tdcWrapped, s.tdcU_passed]
    simp only [hstart, hw, Bool.true_or, if_true]
    rfl
  rw [hk]
  refine ⟨?_, ?_⟩
  · rw [s.edgeNo_atEdge]
    omega
  · rw [hwrap]
    exact s.rdA_passed _ (.inr (tdcRegs_addrOf e un .host .tdcStat (by decide)).2.1 : OffPass e.part e.part _)

end
end Sys2Proof.Machine
end

section
/-!
PROOFS. Code-density calibration: its start by CAL.GO and of itself (R81, R84, R92).
-/
namespace Sys2Proof.Machine
set_option Elab.async false

/-! ### A calibration begins -/

section
variable (s : State) (e : EngSel) (un : Fin 2)

theorem State.tdcBegin_calst : (s.tdcBegin e.part (tdcInst e un)).bt e.part .tdcCalst 31 (tdcInst e un) = true :=
  State.bt_setF_tdc_same _ e un 31 1

theorem State.tdcU_setF (p : PartId) (n : RegName) (hi lo v i j k : Nat) : (s.setF p n hi lo v j k).tdcU p i = s.tdcU p i :=
  s.tdcU_wr p i n _ j k

theorem State.tdcU_tdcBegin (p : PartId) (i : Nat) :
    (s.tdcBegin p i).tdcU p i = { s.tdcU p i with hits := [], bandMoved := false, autoWait := false } := by
  rw [State.tdcBegin, State.tdcU_setF, State.tdcU_setTdc_same]

end

/-- A unit of a part that can calibrate, idle and not held, starts at once. -/
structure Idle (s : State) (p : PartId) (i : Nat) : Prop where
  intact : (decide (p = .tsu) && s.macroBad) = false
  calst : s.bt p .tdcCalst 31 i = false
  held : (s.tdcU p i).held = false

theorem Idle.start {s : State} {p : PartId} {i : Nat} (h : Idle s p i) : s.tdcStart p i = (.ok, s.tdcBegin p i) := by
  unfold State.tdcStart
  rw [if_neg (by rw [h.intact]; decide), if_neg (by rw [h.calst, h.held]; decide)]

theorem Idle.auto {s : State} {p : PartId} {i : Nat} (h : Idle s p i) : s.tdcAuto p i = s.tdcBegin p i := by
  unfold State.tdcAuto
  extract_lets u
  rw [if_neg (by rw [h.intact]; decide), if_neg (by rw [h.held, h.calst]; decide)]

/-- GO at a unit that calibrates starts nothing. -/
theorem State.tdcStart_busy {s : State} {p : PartId} {i : Nat} (h : s.bt p .tdcCalst 31 i = true) : (s.tdcStart p i).2 = s := by
  unfold State.tdcStart
  split
  · rfl
  · rw [if_pos (by rw [h]; rfl)]

/-! ### CAL.GO -/

theorem locate_tdcCal (e : EngSel) (un : Fin 2) :
    locate e.part (addrOf e.part .tdcCal (tdcInst e un)) = .reg ⟨.tdcCal, tdcInst e un, 0, false⟩ := by
  cases e with
  | tsu => revert un; decide
  | tile t => revert un t; decide

theorem tdcRegs_not_book (e : EngSel) (un : Fin 2) (c : Cls) {n : RegName} (hn : n ∈ tdcRegs) :
    addrOf e.part n (tdcInst e un) ∉ bookWords e.part c := (tdcRegs_addrOf e un c n hn).2.2

theorem Books.tdcU {p : PartId} {c : Cls} {s t : State} (h : Books p c s t) (i : Nat) : t.tdcU p i = s.tdcU p i :=
  State.tdcU_congr (h.field p Part.tdc) i

/-- The write of CAL.GO: the start of the unit, in the bookkeeping of the access. -/
theorem State.writeAt_tdcCal {s : State} {e : EngSel} {un : Fin 2} {src : Src} (hp : s.permits e.part src (some 4) true = true) :
    ∃ u, Books e.part src.cls (s.opened e.part src) u ∧
      Books e.part src.cls (u.tdcStart e.part (tdcInst e un)).2 (s.writeAt e.part src .tdcCal (tdcInst e un) 0 1) := by
  obtain ⟨u, hu, -, ht⟩ := State.regWrite_reg 1 (locate_tdcCal e un) (addrOf_aligned e.part _ _ _) hp rfl
  refine ⟨u, hu, ?_⟩
  have heff (had : Bool) : (u.writeReg e.part src ⟨.tdcCal, tdcInst e un, 0, false⟩ 1 had).s = (u.tdcStart e.part (tdcInst e un)).2 := by
    cases e <;> rfl
  rwa [heff] at ht

section
variable {s u : State} {e : EngSel} {un : Fin 2} {src : Src} (hu : Books e.part src.cls (s.opened e.part src) u)
include hu

theorem Books.tdc_rd_opened {n : RegName} (hn : n ∈ tdcRegs := by decide) : u.rd e.part n (tdcInst e un) = s.rd e.part n (tdcInst e un) :=
  (hu.rdA (tdcRegs_not_book e un _ hn) e.part).trans (s.rdA_opened e.part e.part src _)

theorem Books.tdcU_opened (i : Nat) : u.tdcU e.part i = s.tdcU e.part i :=
  (hu.tdcU i).trans (State.tdcU_congr (by rw [s.part_opened]) i)

theorem Books.macroBad_opened : u.macroBad = s.macroBad :=
  ((s.opened_onlyParts e.part src).trans hu.outside).field State.macroBad

end

/-- CAL.GO of an idle unit. -/
theorem writeAt_tdcCal_begins {s : State} {e : EngSel} {un : Fin 2} {src : Src} (hp : s.permits e.part src (some 4) true = true)
    (hidle : Idle s e.part (tdcInst e un)) :
    (s.writeAt e.part src .tdcCal (tdcInst e un) 0 1).bt e.part .tdcCalst 31 (tdcInst e un) = true ∧
      ((s.writeAt e.part src .tdcCal (tdcInst e un) 0 1).tdcU e.part (tdcInst e un)).hits = [] := by
  obtain ⟨u, hu, ht⟩ := State.writeAt_tdcCal (un := un) hp
  have hidle' : Idle u e.part (tdcInst e un) := by
    refine ⟨?_, (congrArg (BitVec.getLsbD · 31) hu.tdc_rd_opened).trans hidle.calst, ?_⟩
    · rw [hu.macroBad_opened, hidle.intact]
    · rw [hu.tdcU_opened, hidle.held]
  rw [hidle'.start] at ht
  refine ⟨(congrArg (BitVec.getLsbD · 31) (ht.rdA (tdcRegs_not_book e un _ (by decide)) e.part)).trans (u.tdcBegin_calst e un), ?_⟩
  rw [ht.tdcU, u.tdcU_tdcBegin]

/-- CAL.GO of a unit that calibrates leaves it as it was. -/
theorem writeAt_tdcCal_busy {s : State} {e : EngSel} {un : Fin 2} {src : Src} (hp : s.permits e.part src (some 4) true = true)
    (hbusy : s.bt e.part .tdcCalst 31 (tdcInst e un) = true) :
    (s.writeAt e.part src .tdcCal (tdcInst e un) 0 1).tdcU e.part (tdcInst e un) = s.tdcU e.part (tdcInst e un) ∧
      (s.writeAt e.part src .tdcCal (tdcInst e un) 0 1).bt e.part .tdcCalst 31 (tdcInst e un) = true := by
  obtain ⟨u, hu, ht⟩ := State.writeAt_tdcCal (un := un) hp
  have hbit : u.bt e.part .tdcCalst 31 (tdcInst e un) = true := (congrArg (BitVec.getLsbD · 31) hu.tdc_rd_opened).trans hbusy
  rw [State.tdcStart_busy hbit] at ht
  exact ⟨(ht.tdcU _).trans (hu.tdcU_opened _),
    (congrArg (BitVec.getLsbD · 31) (ht.rdA (tdcRegs_not_book e un _ (by decide)) e.part)).trans hbit⟩

end Sys2Proof.Machine
end

section
/-!
PROOFS. The end of a code-density calibration: the tables replaced together or kept (R81–R84).
-/
namespace Sys2Proof.Machine
set_option Elab.async false

/-! ### What touches no unit -/

/-- A unit's registers and the data of the part's units are as they were, and nothing outside the parts has changed. -/
structure TdcKept (p : PartId) (i : Nat) (s t : State) : Prop where
  outside : OnlyParts s t
  regs : ∀ n ∈ tdcRegs, t.rd p n i = s.rd p n i
  tdc : (t.part p).tdc = (s.part p).tdc

section
variable {p : PartId} {i : Nat} {s t u : State}

theorem TdcKept.refl (p : PartId) (i : Nat) (s : State) : TdcKept p i s s := ⟨.refl s, fun _ _ => rfl, rfl⟩

theorem TdcKept.trans (h : TdcKept p i s t) (k : TdcKept p i t u) : TdcKept p i s u :=
  ⟨h.outside.trans k.outside, fun n hn => (k.regs n hn).trans (h.regs n hn), k.tdc.trans h.tdc⟩

theorem TdcKept.tdcU (h : TdcKept p i s t) (j : Nat) : t.tdcU p j = s.tdcU p j := State.tdcU_congr h.tdc j

theorem TdcKept.bt (h : TdcKept p i s t) (n : RegName) (b : Nat) (hn : n ∈ tdcRegs := by decide) : t.bt p n b i = s.bt p n b i :=
  congrArg (BitVec.getLsbD · b) (h.regs n hn)

theorem TdcKept.foldl {α : Type} {f : State → α → State} (h : ∀ s a, TdcKept p i s (f s a)) (l : List α) (s : State) :
    TdcKept p i s (l.foldl f s) := by
  induction l generalizing s with
  | nil => exact .refl p i s
  | cons a l ih => exact (h s a).trans (ih (f s a))

theorem State.mod_tdcKept (s : State) (i : Nat) (f : Part → Part) (hr : ∀ q, (f q).regs = q.regs := by intro _; rfl)
    (ht : ∀ q, (f q).tdc = q.tdc := by intro _; rfl) : TdcKept p i s (s.mod p f) :=
  ⟨s.mod_onlyParts p f, fun _ _ => s.rdA_mod p p f _ (hr _), by rw [s.part_mod_same, ht]⟩

end

section
variable (e : EngSel) (un : Fin 2)

theorem Books.tdcKept {c : Cls} {s t : State} (h : Books e.part c s t) : TdcKept e.part (tdcInst e un) s t :=
  ⟨h.outside, fun _ hn => h.rdA (tdcRegs_not_book e un c hn) e.part, h.field e.part Part.tdc⟩

theorem lifStat_ne_tdcRegs : ∀ n ∈ tdcRegs, addrOf e.part n (tdcInst e un) ≠ addrOf e.part .lifStat := by
  cases e with
  | tsu => revert un; decide
  | tile t => revert un t; decide

theorem State.setB_lifStat_tdcKept (s : State) (b : Nat) : TdcKept e.part (tdcInst e un) s (s.setB e.part .lifStat b) :=
  ⟨s.setB_onlyParts _ _ b 0, fun n hn => s.rdA_setF_other .lifStat b b 1 0 0 (.inr (lifStat_ne_tdcRegs e un n hn)),
    Part.field_of_core (s.core_setF e.part e.part _ _ _ _ _ _) Part.tdc⟩

theorem State.jnl_tdcKept (s : State) (tile blk ty payload : Nat) :
    TdcKept e.part (tdcInst e un) s (s.jnl { p := e.part, tile := tile, blk := blk } ty payload) :=
  (s.jnlAt_books { p := e.part, tile := tile, blk := blk } .host _ ty payload).tdcKept e un

/-- A spare brought into a line is a count and a record. -/
theorem State.lineSpares_tdcKept (s : State) (unit : Nat) (old new : List Nat) :
    TdcKept e.part (tdcInst e un) s (s.lineSpares e.part e.tileNo unit old new) := by
  unfold State.lineSpares
  split
  · exact .refl _ _ s
  · exact ((s.mod_tdcKept _ _).trans (State.setB_lifStat_tdcKept e un _ 4)).trans (State.jnl_tdcKept e un _ _ _ _ _)

/-- Latency calibrations that fall due are noted in the ports. -/
theorem State.calDue_tdcKept (s : State) (unit : Nat) : TdcKept e.part (tdcInst e un) s (s.calDue e.part unit) := by
  refine TdcKept.foldl (fun t n => ?_) _ s
  split
  · unfold State.modPrt State.setPrt
    exact t.mod_tdcKept _ _
  · exact .refl _ _ t

end

/-! ### The collected hits and the tables made of them -/

theorem mget_foldl_mset {α : Type} [DecidableEq α] (d : Nat → α) (f : Nat → α) (k : Nat) (l : List Nat) (m : List (Nat × α)) :
    mget d (l.foldl (fun m c => mset d m c (f c)) m) k = if k ∈ l then f k else mget d m k := by
  induction l generalizing m with
  | nil => rfl
  | cons c l ih =>
    rw [List.foldl_cons, ih, mget_mset]
    by_cases hl : k ∈ l
    · rw [if_pos hl, if_pos (List.mem_cons_of_mem c hl)]
    · rw [if_neg hl]
      by_cases hc : k = c
      · subst hc
        rw [if_pos rfl, if_pos List.mem_cons_self]
      · rw [if_neg hc, if_neg (by simp [hc, hl])]

/-- The hits of a channel with those that ended the calibration. -/
def TdcUnit.allHits (u : TdcUnit) (hits : List (List Nat)) (c : Nat) : List Nat := addHits (mget (fun _ => []) u.hits c) (hits.getD c [])

/-- The unit with all hits counted. -/
def TdcUnit.counted (u : TdcUnit) (hits : List (List Nat)) : TdcUnit :=
  { u with hits := (List.range 9).foldl (fun m c => mset (fun _ => []) m c (u.allHits hits c)) u.hits }

/-- The unit with the tables of the nine channels replaced. -/
def TdcUnit.replaced (u : TdcUnit) (n : Nat) (hits taps : List (List Nat)) : TdcUnit :=
  { u.counted hits with
    edges := (List.range 9).foldl (fun m c => mset (fun _ => nominalEdges) m c (calEdges n (u.allHits hits c))) u.edges
    taps := (List.range 9).foldl (fun m c => mset (fun _ => []) m c (taps.getD c [])) u.taps }

theorem TdcUnit.edgesOf_replaced (u : TdcUnit) (n : Nat) (hits taps : List (List Nat)) (c : Fin 9) :
    (u.replaced n hits taps).edgesOf c = calEdges n (u.allHits hits c) :=
  (mget_foldl_mset _ (fun k => calEdges n (u.allHits hits k)) c _ _).trans (if_pos (List.mem_range.mpr c.isLt))

theorem TdcUnit.taps_replaced (u : TdcUnit) (n : Nat) (hits taps : List (List Nat)) (c : Fin 9) :
    mget (fun _ => []) (u.replaced n hits taps).taps c.val = taps.getD c.val [] :=
  (mget_foldl_mset _ (fun k => taps.getD k []) c _ _).trans (if_pos (List.mem_range.mpr c.isLt))

/-! ### The calibration status word (R82, R83) -/

theorem foldl_max_le {b : Nat} (l : List Nat) (h : ∀ x ∈ l, x ≤ b) : l.foldl max 0 ≤ b := by
  rw [List.foldl_eq_foldr]
  exact List.max_le_of_forall_le l b h

theorem calSigma_le (n : Nat) (hits : List Nat) : calSigma n hits ≤ 255 := Nat.min_le_right _ _

/-- CALST after a calibration that holds: UNCAL and BUSY clear, STALE as the band moved. -/
theorem calst_bits (moved : Bool) {sp bins sigma : Nat} (h : sigma ≤ 255) :
    let w := BitVec.ofNat 32 (2 ^ 29 * b2n moved + 2 ^ 24 * (sp % 32) + 2 ^ 8 * (bins % 512) + sigma)
    w.getLsbD 31 = false ∧ w.getLsbD 30 = false ∧ w.getLsbD 29 = moved := by
  intro w
  have hr : 2 ^ 24 * (sp % 32) + 2 ^ 8 * (bins % 512) + sigma < 2 ^ 29 := by omega
  have hw (k : Nat) (hk : k < 32) (hlo : 29 ≤ k) : w.getLsbD k = (b2n moved).testBit (k - 29) := by
    rw [BitVec.getLsbD_ofNat, decide_eq_true hk, Bool.true_and, Nat.add_assoc, Nat.add_assoc, ← Nat.add_assoc (2 ^ 24 * _),
      Nat.testBit_two_pow_mul_add _ hr, if_neg (by omega)]
  refine ⟨(hw 31 (by decide) (by decide)).trans ?_, (hw 30 (by decide) (by decide)).trans ?_, (hw 29 (by decide) (by decide)).trans ?_⟩ <;>
    cases moved <;> rfl

end Sys2Proof.Machine
end

section
/-!
PROOFS. TDC_CAL_DONE and TEMP_BAND_CHANGE (R81–R84), and interval measurement as a whole (O11).
-/
namespace Sys2Proof.Machine
set_option Elab.async false

/-! ### The end of a calibration -/

section
variable (s : State) (e : EngSel) (un : Fin 2) (hits taps : List (List Nat))

/-- N of the running calibration. -/
def State.calN : Nat := 2 ^ s.fd e.part .tdcCtrl 20 16 (tdcInst e un)

/-- One of the nine channels fails. -/
def State.calBad : Bool := (List.range 9).any fun c =>
  calFails (s.calN e un) ((s.tdcU e.part (tdcInst e un)).allHits hits c) (taps.getD c []).length

/-- All hits counted and BUSY cleared. -/
def State.calCounted : State :=
  (s.setTdc e.part (tdcInst e un) ((s.tdcU e.part (tdcInst e un)).counted hits)).setF e.part .tdcCalst 31 31 0 (tdcInst e un)

/-- The tables replaced, with CALST `cal`. -/
def State.calReplaced (cal : Word) : State :=
  (((s.calCounted e un hits).setTdc e.part (tdcInst e un) ((s.tdcU e.part (tdcInst e un)).replaced (s.calN e un) hits taps)).wr
    e.part .tdcCalst cal (tdcInst e un)).setB e.part .tdcStat 4 (tdcInst e un)

/-- What a calibration that ends leaves, but for records: the tables kept and CAL_ERR, or the tables replaced and CAL_DONE. -/
inductive CalEnds : State → Prop
  | fails {t : State} (hbad : s.calBad e un hits taps = true)
      (kept : TdcKept e.part (tdcInst e un) ((s.calCounted e un hits).setB e.part .tdcStat 3 (tdcInst e un)) t) : CalEnds t
  | holds {t : State} {cal : Word} (hgood : s.calBad e un hits taps = false)
      (busy : cal.getLsbD 31 = false) (uncal : cal.getLsbD 30 = false) (stale : cal.getLsbD 29 = (s.tdcU e.part (tdcInst e un)).bandMoved)
      (kept : TdcKept e.part (tdcInst e un) (s.calReplaced e un hits taps cal) t) : CalEnds t

/-- A running calibration ends, and an automatic start that waited begins. -/
theorem tdcCalDone_ends (hbusy : s.bt e.part .tdcCalst 31 (tdcInst e un) = true) : ∃ t, CalEnds s e un hits taps t ∧
    tdcCalDone e un hits taps s = if (s.tdcU e.part (tdcInst e un)).autoWait then
      (t.setTdc e.part (tdcInst e un) { t.tdcU e.part (tdcInst e un) with autoWait := false }).tdcAuto e.part (tdcInst e un) else t := by
  unfold tdcCalDone
  extract_lets p i n chans u h t u1 w s1 u2 sigma bins sp cal s2 s3 s4
  rw [if_neg (by rw [hbusy]; decide)]
  refine ⟨s4, ?_, rfl⟩
  obtain ⟨hbit31, hbit30, hbit29⟩ := calst_bits u.bandMoved (sp := sp) (bins := bins) (sigma := sigma)
    (foldl_max_le _ fun x hx => by obtain ⟨c, -, rfl⟩ := List.mem_map.mp hx; exact calSigma_le _ _)
  cases hbad : s.calBad e un hits taps with
  | true =>
    rw [show s4 = _ from if_pos hbad]
    exact .fails hbad (State.jnl_tdcKept e un _ _ _ _ _)
  | false =>
    rw [show s4 = _ from if_neg (Bool.eq_false_iff.mp hbad)]
    exact .holds hbad hbit31 hbit30 hbit29
      ((State.jnl_tdcKept e un s2 _ _ _ _).trans (TdcKept.foldl (fun q c => State.lineSpares_tdcKept e un q c _ _) _ s3))

theorem State.tdcU_calCounted :
    (s.calCounted e un hits).tdcU e.part (tdcInst e un) = (s.tdcU e.part (tdcInst e un)).counted hits := by
  rw [State.calCounted, State.tdcU_setF, State.tdcU_setTdc_same]

theorem State.calCounted_onlyParts : OnlyParts s (s.calCounted e un hits) :=
  (s.mod_onlyParts e.part _).trans (State.setF_onlyParts _ _ _ _ _ _ _ _)

/-- A status bit of the unit, set, leaves CALST and the unit. -/
theorem State.bt_calst_setB_tdcStat (b k : Nat) :
    (s.setB e.part .tdcStat b (tdcInst e un)).bt e.part .tdcCalst k (tdcInst e un) = s.bt e.part .tdcCalst k (tdcInst e un) :=
  congrArg (BitVec.getLsbD · k) (s.rd_wr_tdc_other e un _)

theorem State.tdcU_setB (p : PartId) (n : RegName) (b i j : Nat) : (s.setB p n b j).tdcU p i = s.tdcU p i := s.tdcU_setF p n b b 1 i j 0

theorem State.tdcU_calReplaced (cal : Word) : (s.calReplaced e un hits taps cal).tdcU e.part (tdcInst e un) =
    (s.tdcU e.part (tdcInst e un)).replaced (s.calN e un) hits taps := by
  rw [State.calReplaced, State.tdcU_setB, State.tdcU_wr, State.tdcU_setTdc_same]

theorem State.bt_calst_calReplaced (cal : Word) (k : Nat) :
    (s.calReplaced e un hits taps cal).bt e.part .tdcCalst k (tdcInst e un) = cal.getLsbD k := by
  rw [State.calReplaced, State.bt_calst_setB_tdcStat, State.bt, State.rd_wr_tdc_same]

theorem State.calReplaced_onlyParts (cal : Word) : OnlyParts s (s.calReplaced e un hits taps cal) :=
  ((((s.calCounted_onlyParts e un hits).trans (State.mod_onlyParts _ e.part _)).trans (State.wr_onlyParts _ _ _ _ _ _)).trans
    (State.setB_onlyParts _ _ _ _ _))

end

section
variable {s t : State} {e : EngSel} {un : Fin 2} {hits taps : List (List Nat)}

/-- Whether it held or not, the unit no longer calibrates, and what holds it or waits is as before. -/
theorem CalEnds.common (h : CalEnds s e un hits taps t) : t.bt e.part .tdcCalst 31 (tdcInst e un) = false ∧
    (t.tdcU e.part (tdcInst e un)).held = (s.tdcU e.part (tdcInst e un)).held ∧ t.macroBad = s.macroBad := by
  cases h with
  | fails hbad kept =>
    refine ⟨(kept.bt .tdcCalst 31).trans ((State.bt_calst_setB_tdcStat _ e un 3 31).trans (State.bt_setF_tdc_same _ e un 31 0)), ?_,
      (((s.calCounted_onlyParts e un hits).trans (State.setB_onlyParts _ _ _ _ _)).trans kept.outside).field State.macroBad⟩
    rw [kept.tdcU, State.tdcU_setB, s.tdcU_calCounted]
    rfl
  | holds hgood busy uncal stale kept =>
    refine ⟨(kept.bt .tdcCalst 31).trans ((s.bt_calst_calReplaced e un hits taps _ 31).trans busy), ?_,
      ((s.calReplaced_onlyParts e un hits taps _).trans kept.outside).field State.macroBad⟩
    rw [kept.tdcU, s.tdcU_calReplaced]
    rfl

/-- A calibration that fails keeps the tables. -/
theorem CalEnds.keeps (h : CalEnds s e un hits taps t) (hbad : s.calBad e un hits taps = true) :
    t.bt e.part .tdcStat 3 (tdcInst e un) = true ∧ (t.tdcU e.part (tdcInst e un)).edges = (s.tdcU e.part (tdcInst e un)).edges ∧
      (t.tdcU e.part (tdcInst e un)).taps = (s.tdcU e.part (tdcInst e un)).taps := by
  cases h with
  | holds hgood => exact absurd hbad (Bool.eq_false_iff.mp hgood)
  | fails _ kept =>
    refine ⟨(kept.bt .tdcStat 3).trans (State.bt_setF_tdc_same _ e un 3 1), ?_⟩
    rw [kept.tdcU, State.tdcU_setB, s.tdcU_calCounted]
    exact ⟨rfl, rfl⟩

/-- One that holds replaces them. -/
theorem CalEnds.replaces (h : CalEnds s e un hits taps t) (hgood : s.calBad e un hits taps = false) (c : Fin 9) :
    t.bt e.part .tdcCalst 30 (tdcInst e un) = false ∧ t.bt e.part .tdcStat 4 (tdcInst e un) = true ∧
      t.bt e.part .tdcCalst 29 (tdcInst e un) = (s.tdcU e.part (tdcInst e un)).bandMoved ∧
      (t.tdcU e.part (tdcInst e un)).edgesOf c = calEdges (s.calN e un) ((s.tdcU e.part (tdcInst e un)).allHits hits c) ∧
      mget (fun _ => []) (t.tdcU e.part (tdcInst e un)).taps c.val = taps.getD c.val [] := by
  cases h with
  | fails hbad => exact absurd hbad (Bool.eq_false_iff.mp hgood)
  | @holds cal _ busy uncal stale kept =>
    have hcal (k : Nat) : t.bt e.part .tdcCalst k (tdcInst e un) = cal.getLsbD k :=
      (kept.bt .tdcCalst k).trans (s.bt_calst_calReplaced e un hits taps cal k)
    refine ⟨(hcal 30).trans uncal, (kept.bt .tdcStat 4).trans (State.bt_setF_tdc_same _ e un 4 1), (hcal 29).trans stale, ?_⟩
    rw [kept.tdcU, s.tdcU_calReplaced]
    exact ⟨TdcUnit.edgesOf_replaced _ _ hits taps c, TdcUnit.taps_replaced _ _ hits taps c⟩

/-- The command: the end of the calibration, and latency calibrations that fall due after the link unit's. -/
theorem execTdcCalDone_kept (s : State) (e : EngSel) (un : Fin 2) (hits taps : List (List Nat)) {P : State → Prop}
    (hP : ∀ t, TdcKept e.part (tdcInst e un) (tdcCalDone e un hits taps s) t → P t) : Completes (.tdcCalDone e un hits taps) s P := by
  refine ⟨_, rfl, ?_⟩
  dsimp only
  split
  · exact hP _ (State.calDue_tdcKept e un _ _)
  · exact hP _ (.refl _ _ _)

/-- A calibration that nothing waits for. -/
theorem execTdcCalDone_ends (hbusy : s.bt e.part .tdcCalst 31 (tdcInst e un) = true) (hwait : (s.tdcU e.part (tdcInst e un)).autoWait = false)
    {P : State → Prop} (hP : ∀ t, CalEnds s e un hits taps t → P t) : Completes (.tdcCalDone e un hits taps) s P := by
  obtain ⟨t, ht, hdone⟩ := tdcCalDone_ends s e un hits taps hbusy
  rw [hwait] at hdone
  refine execTdcCalDone_kept s e un hits taps fun u hu => hP u ?_
  rw [hdone] at hu
  cases ht with
  | fails hbad kept => exact .fails hbad (kept.trans hu)
  | holds hgood busy uncal stale kept => exact .holds hgood busy uncal stale (kept.trans hu)

/-- An automatic calibration that waited begins. -/
theorem execTdcCalDone_auto (hbusy : s.bt e.part .tdcCalst 31 (tdcInst e un) = true) (hwait : (s.tdcU e.part (tdcInst e un)).autoWait = true)
    (hheld : (s.tdcU e.part (tdcInst e un)).held = false) (hmacro : s.macroBad = false) :
    Completes (.tdcCalDone e un hits taps) s fun t => t.bt e.part .tdcCalst 31 (tdcInst e un) = true ∧
      (t.tdcU e.part (tdcInst e un)).autoWait = false ∧ (t.tdcU e.part (tdcInst e un)).hits = [] := by
  obtain ⟨t, ht, hdone⟩ := tdcCalDone_ends s e un hits taps hbusy
  obtain ⟨hcal, hh, hm⟩ := ht.common
  let t1 := t.setTdc e.part (tdcInst e un) { t.tdcU e.part (tdcInst e un) with autoWait := false }
  have hidle : Idle t1 e.part (tdcInst e un) := by
    refine ⟨?_, (t.bt_setTdc _ _ _ _ _ _).trans hcal, ?_⟩
    · rw [show t1.macroBad = t.macroBad from (t.mod_onlyParts e.part _).field State.macroBad, hm, hmacro, Bool.and_false]
    · rw [t.tdcU_setTdc_same]
      exact hh.trans hheld
  refine execTdcCalDone_kept s e un hits taps fun u hu => ?_
  rw [hdone, if_pos hwait, hidle.auto] at hu
  rw [hu.bt .tdcCalst 31, hu.tdcU, t1.tdcU_tdcBegin]
  exact ⟨t1.tdcBegin_calst e un, rfl, rfl⟩

end

/-! ### Band changes (R84, R373) -/

/-- The change of band at one unit: its tables turn stale, and with AUTO_TEMP it calibrates. -/
def State.bandMove (s : State) (p : PartId) (i : Nat) : State :=
  let t := (s.setF p .tdcCalst 29 29 1 i).setTdc p i { s.tdcU p i with bandMoved := true }
  if t.bt p .tdcCtrl 23 i then t.tdcAuto p i else t

theorem State.tdcBandChange_eq (s : State) (p : PartId) (tile : Nat) :
    s.tdcBandChange p tile = (s.bandMove p (2 * tile)).bandMove p (2 * tile + 1) := rfl

/-- Neither the start of a calibration nor the wait for one touches a register but the unit's CALST, -/
theorem State.rdA_tdcAuto (s : State) (p q : PartId) (i : Nat) {a : Nat} (h : q ≠ p ∨ a ≠ addrOf p .tdcCalst i) :
    (s.tdcAuto p i).rdA q a = s.rdA q a := by
  unfold State.tdcAuto State.tdcBegin
  extract_lets u
  split
  · rfl
  · split
    · exact s.rdA_setTdc p q i _ a
    · exact (State.rdA_setF_other _ .tdcCalst 31 31 1 i 0 h).trans (s.rdA_setTdc p q i _ a)

theorem State.rdA_bandMove (s : State) (p q : PartId) (i : Nat) {a : Nat} (h : q ≠ p ∨ a ≠ addrOf p .tdcCalst i) :
    (s.bandMove p i).rdA q a = s.rdA q a := by
  unfold State.bandMove
  extract_lets u t
  have ht : t.rdA q a = s.rdA q a := (State.rdA_setTdc _ p q i _ a).trans (s.rdA_setF_other .tdcCalst 29 29 1 i 0 h)
  split
  · exact (t.rdA_tdcAuto p q i h).trans ht
  · exact ht

/-- nor another unit, -/
theorem State.tdcU_bandMove_other (s : State) (p : PartId) {i j : Nat} (h : j ≠ i) : (s.bandMove p i).tdcU p j = s.tdcU p j := by
  unfold State.bandMove State.tdcAuto State.tdcBegin
  extract_lets u t v
  have ht : t.tdcU p j = s.tdcU p j := (State.tdcU_setTdc_other _ p i _ h).trans (s.tdcU_setF p _ _ _ _ j _ _)
  split
  · split
    · exact ht
    · split
      · exact (t.tdcU_setTdc_other p i _ h).trans ht
      · exact (State.tdcU_setF _ p _ _ _ _ j _ _).trans ((t.tdcU_setTdc_other p i _ h).trans ht)
  · exact ht

section
variable (s : State) (e : EngSel) (un : Fin 2)

/-- The tables are stale, calibrating or not. -/
theorem State.bandMove_stale : (s.bandMove e.part (tdcInst e un)).bt e.part .tdcCalst 29 (tdcInst e un) = true := by
  unfold State.bandMove State.tdcAuto State.tdcBegin
  extract_lets u t v
  have ht : t.bt e.part .tdcCalst 29 (tdcInst e un) = true := (State.bt_setTdc _ _ _ _ _ _ _).trans (s.bt_setF_tdc_same e un 29 1)
  split
  · split
    · exact ht
    · split
      · exact (t.bt_setTdc _ _ _ _ _ _).trans ht
      · exact (State.bt_setF_tdc_bit _ e un 1).trans ((t.bt_setTdc _ _ _ _ _ _).trans ht)
  · exact ht

/-- A calibration that begins at once is of the new band; any other is not. -/
theorem State.bandMove_moved : ((s.bandMove e.part (tdcInst e un)).tdcU e.part (tdcInst e un)).bandMoved =
    !(s.bt e.part .tdcCtrl 23 (tdcInst e un) && !s.bt e.part .tdcCalst 31 (tdcInst e un) && !(decide (e.part = .tsu) && s.macroBad) &&
      !(s.tdcU e.part (tdcInst e un)).held) := by
  let t := (s.setF e.part .tdcCalst 29 29 1 (tdcInst e un)).setTdc e.part (tdcInst e un) { s.tdcU e.part (tdcInst e un) with bandMoved := true }
  have hu : t.tdcU e.part (tdcInst e un) = { s.tdcU e.part (tdcInst e un) with bandMoved := true } := State.tdcU_setTdc_same _ _ _ _
  have hctrl : t.bt e.part .tdcCtrl 23 (tdcInst e un) = s.bt e.part .tdcCtrl 23 (tdcInst e un) :=
    (State.bt_setTdc _ _ _ _ _ _ _).trans (congrArg (BitVec.getLsbD · 23) (s.rd_wr_tdc_other e un _))
  have hcal : t.bt e.part .tdcCalst 31 (tdcInst e un) = s.bt e.part .tdcCalst 31 (tdcInst e un) :=
    (State.bt_setTdc _ _ _ _ _ _ _).trans (s.bt_setF_tdc_bit e un 1)
  have hmacro : t.macroBad = s.macroBad :=
    ((s.setF_onlyParts _ _ _ _ _ _ _).trans (State.mod_onlyParts _ e.part _)).field State.macroBad
  change ((if t.bt e.part .tdcCtrl 23 (tdcInst e un) then t.tdcAuto e.part (tdcInst e un) else t).tdcU e.part (tdcInst e un)).bandMoved = _
  rw [← hctrl, ← hcal, ← hmacro, show (s.tdcU e.part (tdcInst e un)).held = (t.tdcU e.part (tdcInst e un)).held by rw [hu]]
  cases h23 : t.bt e.part .tdcCtrl 23 (tdcInst e un) with
  | false => exact congrArg TdcUnit.bandMoved hu
  | true =>
    rw [if_pos rfl]
    unfold State.tdcAuto
    extract_lets u
    have hmoved : u.bandMoved = true := congrArg TdcUnit.bandMoved hu
    split
    · next hm =>
      rw [hm]
      simpa using hmoved
    · next hm =>
      rw [Bool.eq_false_iff.mpr hm]
      split
      · next hw =>
        rw [State.tdcU_setTdc_same]
        simp only [Bool.or_eq_true] at hw
        rcases hw with hheld | hbusy
        · simpa [u, hheld] using hmoved
        · simpa [hbusy] using hmoved
      · next hw =>
        obtain ⟨hheld, hidle⟩ := Bool.or_eq_false_iff.mp (Bool.eq_false_iff.mpr hw)
        rw [State.tdcU_tdcBegin, hidle, show (t.tdcU e.part (tdcInst e un)).held = false from hheld]
        rfl

end

/-- Latency calibrations that fall due, and a thermal cycle counted, change no register. -/
theorem State.rdA_calDue (s : State) (p q : PartId) (unit a : Nat) : (s.calDue p unit).rdA q a = s.rdA q a := by
  refine foldl_keeps (fun t => t.rdA q a) (fun t n => ?_) _ s
  split
  · exact t.rdA_mod p q _ a rfl
  · rfl

theorem State.rdA_thermalBand (s : State) (p q : PartId) (band a : Nat) : (s.thermalBand p band).rdA q a = s.rdA q a := by
  unfold State.thermalBand State.lifCount State.modLif
  extract_lets l
  split
  · exact s.rdA_mod p q _ a rfl
  · split
    · exact (State.rdA_mod _ p q _ a rfl).trans (s.rdA_mod p q _ a rfl)
    · rfl

theorem State.thermalBand_tdcKept (s : State) (p : PartId) (i band : Nat) : TdcKept p i s (s.thermalBand p band) := by
  unfold State.thermalBand State.lifCount State.modLif
  extract_lets l
  split
  · exact s.mod_tdcKept i _
  · split
    · exact (s.mod_tdcKept i _).trans (State.mod_tdcKept _ i _)
    · exact .refl p i s

theorem tempBandChange_bin (s : State) (band : Fin 8) (load : Fin 4) :
    (tempBandChange band load s).presentBin = 4 * band.val + load.val := by
  have hset : (s.setF .tsu .hltStatus 4 0 (4 * band.val + load.val)).presentBin = 4 * band.val + load.val := by
    have hlt : addrOf .tsu .hltStatus < 0x4000000 := by decide
    rw [State.presentBin, State.fd, State.setF, State.rd_wr_same _ _ _ _ _ _ hlt, fld_setFld_same _ _ _ _ (by decide) (by decide)]
    omega
  have hmove (t : State) (i : Fin 2) : (t.bandMove .tsu i).rdA .tsu (addrOf .tsu .hltStatus) = t.rdA .tsu (addrOf .tsu .hltStatus) :=
    t.rdA_bandMove .tsu .tsu i (.inr (by revert i; decide))
  unfold tempBandChange
  extract_lets old s1
  split
  · exact hset
  · refine (congrArg (fld · 4 0) ?_).trans hset
    rw [State.rd, State.rdA_thermalBand, State.bandChanged, State.rdA_calDue, State.tdcBandChange_eq]
    exact (hmove _ 1).trans (hmove s1 0)

/-- The TSU's units after a change of band: both stale, and unit 0's calibration is of the new band if it begins at once. -/
theorem State.bandMoves_tsu (s : State) :
    let t := (s.bandMove .tsu 0).bandMove .tsu 1
    t.bt .tsu .tdcCalst 29 = true ∧ t.bt .tsu .tdcCalst 29 1 = true ∧
      (t.tdcU .tsu 0).bandMoved = !(s.bt .tsu .tdcCtrl 23 && !s.bt .tsu .tdcCalst 31 && !s.macroBad && !(s.tdcU .tsu 0).held) := by
  have hne : PartId.tsu ≠ .tsu ∨ addrOf .tsu .tdcCalst ≠ addrOf .tsu .tdcCalst 1 := .inr (by decide)
  have hmoved := s.bandMove_moved .tsu 0
  refine ⟨?_, State.bandMove_stale _ .tsu 1, ?_⟩
  · exact (congrArg (BitVec.getLsbD · 29) (State.rdA_bandMove _ .tsu .tsu 1 hne)).trans (s.bandMove_stale .tsu 0)
  · rw [State.tdcU_bandMove_other _ .tsu (by decide : (0 : Nat) ≠ 1)]
    exact hmoved

/-- The rest of a change of the TSU's band keeps its units. -/
theorem State.bandRest_tdcKept (s : State) (un : Fin 2) (band : Nat) :
    TdcKept .tsu (tdcInst .tsu un) s ((s.calDue .tsu 1).thermalBand .tsu band) :=
  (State.calDue_tdcKept .tsu un s 1).trans (State.thermalBand_tdcKept _ .tsu _ band)

theorem tempBandChange_other {s : State} {band : Fin 8} (load : Fin 4) (hne : s.presentBin / 4 ≠ band.val) :
    tempBandChange band load s = ((((s.setF .tsu .hltStatus 4 0 (4 * band.val + load.val)).bandMove .tsu 0).bandMove .tsu 1).calDue
      .tsu 1).thermalBand .tsu band := by
  unfold tempBandChange
  rw [if_neg hne, State.bandChanged, if_neg (by decide), State.tdcBandChange_eq]

/-- What the change writes first leaves the units' registers. -/
theorem State.bt_setF_hltStatus (s : State) (v b : Nat) {n : RegName} (hn : addrOf .tsu n ≠ addrOf .tsu .hltStatus) :
    (s.setF .tsu .hltStatus 4 0 v).bt .tsu n b = s.bt .tsu n b :=
  congrArg (BitVec.getLsbD · b) (s.rdA_setF_other .hltStatus 4 0 v 0 0 (.inr hn))

/-- Another band moves both units. -/
theorem tempBandChange_moves (s : State) (band : Fin 8) (load : Fin 4) (hne : s.presentBin / 4 ≠ band.val) :
    (tempBandChange band load s).bt .tsu .tdcCalst 29 = true ∧ (tempBandChange band load s).bt .tsu .tdcCalst 29 1 = true ∧
      ((tempBandChange band load s).tdcU .tsu 0).bandMoved =
        !(s.bt .tsu .tdcCtrl 23 && !s.bt .tsu .tdcCalst 31 && !s.macroBad && !(s.tdcU .tsu 0).held) := by
  have hm : (s.setF .tsu .hltStatus 4 0 (4 * band.val + load.val)).macroBad = s.macroBad :=
    (s.setF_onlyParts _ _ _ _ _ _ _).field State.macroBad
  have hu : (s.setF .tsu .hltStatus 4 0 (4 * band.val + load.val)).tdcU .tsu 0 = s.tdcU .tsu 0 := s.tdcU_setF .tsu _ _ _ _ 0 _ _
  rw [tempBandChange_other load hne, ← hm, ← hu, ← s.bt_setF_hltStatus (4 * band.val + load.val) 23 (n := .tdcCtrl) (by decide),
    ← s.bt_setF_hltStatus (4 * band.val + load.val) 31 (n := .tdcCalst) (by decide)]
  generalize s.setF .tsu .hltStatus 4 0 (4 * band.val + load.val) = s1
  obtain ⟨h0, h1, hmoved⟩ := s1.bandMoves_tsu
  refine ⟨((State.bandRest_tdcKept _ 0 band).bt .tdcCalst 29).trans h0, ((State.bandRest_tdcKept _ 1 band).bt .tdcCalst 29).trans h1, ?_⟩
  rw [(State.bandRest_tdcKept _ 0 band).tdcU]
  exact hmoved

/-! ### O11 -/

/-- Settles O11. -/
theorem tdcConvertsAndCalibrates : Obligations.TdcConvertsAndCalibrates := by
  unfold Obligations.TdcConvertsAndCalibrates
  refine ⟨?_, ?_, ?_, ?_, ?_, ?_, ?_, ?_, ?_, ?_, ?_, ?_, ?_⟩
  · rintro e un ch src raw falling k level _ _ s rfl hclk ht hl hsrc hsome hedge hcal hen h1 h2 hun hmode hapart rfl hroom
    exact ⟨_, rfl, Accepted.timestamp ⟨⟨hclk, ht, hl, hsrc, hsome, hedge⟩, hcal, hen, h1, h2, hapart⟩ level hun hmode hroom⟩
  · rintro e un ch src raw falling k level _ s rfl hclk ht hl hsrc hsome hedge hcal hen h1 h2 hch hmode hapart
    exact ⟨_, rfl, Accepted.start ⟨⟨hclk, ht, hl, hsrc, hsome, hedge⟩, hcal, hen, h1, h2, hapart⟩ level hch hmode⟩
  · rintro e un ch src raw falling k level _ _ a s rfl hclk ht hl hsrc hsome hedge hcal hen h1 h2 hun hch hmode hapart rfl hroom ha
    exact ⟨_, rfl, Accepted.interval ⟨⟨hclk, ht, hl, hsrc, hsome, hedge⟩, hcal, hen, h1, h2, hapart⟩ level hun hch hmode hroom ha⟩
  · rintro e un ch src raw falling k level _ s rfl hclk ht hl hsrc hsome hedge hcond
    exact ⟨_, rfl, tdcEvent_presc ⟨hclk, ht, hl, hsrc, hsome, hedge⟩ level hcond⟩
  · exact fun un ch src raw falling k level s hclk => ⟨_, rfl, tdcEvent_stopped (e := .tsu) hclk level⟩
  · exact fun e un a s hmode hclk hstart hedge hw => ⟨_, rfl, coarseWrap_first hmode hclk hstart hedge hw⟩
  · exact fun e un a s hmode hclk hstart hedge hw => ⟨_, rfl, coarseWrap_later hmode hclk hstart hedge hw⟩
  · exact fun e un src s hp _ hm hcal hheld => ⟨_, rfl, writeAt_tdcCal_begins hp ⟨by rw [hm, Bool.and_false], hcal, hheld⟩⟩
  · exact fun e un src s hp hbusy => ⟨_, rfl, writeAt_tdcCal_busy hp hbusy⟩
  · exact fun e un hits taps s hbusy hbad hwait => execTdcCalDone_ends hbusy hwait fun t ht => ⟨ht.common.1, ht.keeps hbad⟩
  · exact fun e un hits taps c s hbusy hgood hwait => execTdcCalDone_ends hbusy hwait fun t ht => ⟨ht.common.1, ht.replaces hgood c⟩
  · exact fun e un hits taps s hbusy hwait hheld _ hm => execTdcCalDone_auto hbusy hwait hheld hm
  · exact fun band load s => ⟨_, rfl, tempBandChange_bin s band load, tempBandChange_moves s band load⟩

end Sys2Proof.Machine
end

section
/-!
PROOFS. The register words of the step-link ports (R386, R405, R408): where they lie, what they read as when one of them is written, and the
operations that write none of them.
-/
namespace Sys2Proof.Machine
set_option Elab.async false

/-! ### Where the words lie -/

/-- The addresses of the step-link blocks: the TSU's, and one in each tile's region (R381, R405). -/
def PrtWord (a : Nat) : Prop :=
  (0x30000 ≤ a ∧ a < 0x40000) ∨ (0x1000000 ≤ a ∧ a < 0x1800000 ∧ 0x30000 ≤ a % 0x100000 ∧ a % 0x100000 < 0x40000)

theorem portTile_lt {n : Nat} (h : n < 274) : portTile n < 8 ∧ portLocal n < 35 := by
  unfold portTile portLocal
  split
  · omega
  · split
    · omega
    · split <;> omega

theorem grpBase_not_prtWord {p : PartId} {g : Grp} {i b k : Nat} (h : grpBase p g i = some b) (hg : g ≠ .prt) (hk : k < 0x1000) :
    ¬PrtWord (b + k) := by
  have hports : nPort = 4 := rfl
  have hwicks : nWick = 256 := rfl
  have htile := portTile_lt (n := i)
  unfold PrtWord
  cases p <;> cases g <;>
    simp only [grpBase, tileBase, Option.ite_none_right_eq_some, Option.some.injEq, reduceCtorEq, ne_eq,
      not_true_eq_false] at h hg <;> omega

/-- A register of another block is no word of a step link. -/
theorem addrOf_not_prtWord (p : PartId) {n : RegName} (i : Nat) {j : Nat} (hg : (row n).grp ≠ .prt)
    (hj : (row n).off + (row n).stride * j < 0x1000) : ¬PrtWord (addrOf p n i j) := by
  unfold addrOf
  split
  · next b hb => rw [Nat.add_assoc]; exact grpBase_not_prtWord hb hg hj
  · unfold PrtWord; omega

/-- The first byte of a port's registers. -/
def prtBase : Port → Nat
  | .sl n => 0x30000 + 0x400 * n
  | .dp n => tileBase (n / 32) + 0x30000 + 0x200 * (n % 32)
  | .up n => tileBase (n / 2) + 0x30000 + 0x200 * (32 + n % 2)
  | .pp n => tileBase (7 * n) + 0x30000 + 0x200 * 34

theorem grpBase_prt (port : Port) : grpBase port.part .prt port.num = some (prtBase port) := by
  cases port with
  | sl n => exact if_pos n.isLt
  | dp n =>
    have hn := n.isLt
    simp only [Port.part, Port.num, prtBase, grpBase, portTile, portLocal, hn, if_true]
    rw [if_pos (by omega)]
  | up n =>
    have hn := n.isLt
    simp only [Port.part, Port.num, prtBase, grpBase, portTile, portLocal]
    simp [show ¬(256 + n.val < 256) by omega, show 256 + n.val < 272 by omega, show 256 + n.val < 274 by omega]
  | pp n => revert n; decide

theorem addrOf_prt (port : Port) {n : RegName} (j : Nat) (hg : (row n).grp = .prt) :
    addrOf port.part n port.num j = prtBase port + (row n).off + (row n).stride * j := by
  rw [addrOf, hg, grpBase_prt]

theorem prtBase_lt (port : Port) : prtBase port < 0x1800000 ∧ ∀ k < 0x200, PrtWord (prtBase port + k) := by
  cases port with
  | sl n => have := n.isLt; simp only [prtBase, PrtWord]; exact ⟨by omega, fun k hk => by omega⟩
  | dp n => have := n.isLt; simp only [prtBase, PrtWord, tileBase]; exact ⟨by omega, fun k hk => by omega⟩
  | up n => have := n.isLt; simp only [prtBase, PrtWord, tileBase]; exact ⟨by omega, fun k hk => by omega⟩
  | pp n => have := n.isLt; simp only [prtBase, PrtWord, tileBase]; exact ⟨by omega, fun k hk => by omega⟩

/-- A register of a port. -/
abbrev IsPrt (n : RegName) (j : Nat) : Prop := (row n).grp = .prt ∧ (row n).off + (row n).stride * j < 0x200

theorem addrOf_prtWord (port : Port) {n : RegName} {j : Nat} (h : IsPrt n j) : PrtWord (addrOf port.part n port.num j) := by
  rw [addrOf_prt port j h.1, Nat.add_assoc]; exact (prtBase_lt port).2 _ h.2

theorem addrOf_prt_lt (port : Port) {n : RegName} {j : Nat} (h : IsPrt n j) : addrOf port.part n port.num j < 0x4000000 := by
  have := h.2
  have := (prtBase_lt port).1
  rw [addrOf_prt port j h.1]; omega

theorem addrOf_prt_ne (port : Port) {n m : RegName} {j k : Nat} (hn : IsPrt n j) (hm : IsPrt m k)
    (h : (row n).off + (row n).stride * j ≠ (row m).off + (row m).stride * k) :
    addrOf port.part n port.num j ≠ addrOf port.part m port.num k := by
  rw [addrOf_prt port j hn.1, addrOf_prt port k hm.1]; omega

/-! ### Reading a word of a port -/

section
variable (s : State) (port : Port) {n m : RegName} {i j : Nat}

theorem State.rd_wr_prt_same (v : Word) (hn : IsPrt n j := by decide) :
    (s.wr port.part n v port.num j).rd port.part n port.num j = v :=
  s.rd_wr_same port.part n v port.num j (addrOf_prt_lt port hn)

theorem State.rd_wr_prt_other (v : Word) (hn : IsPrt n i := by decide) (hm : IsPrt m j := by decide)
    (h : (row m).off + (row m).stride * j ≠ (row n).off + (row n).stride * i := by decide) :
    (s.wr port.part n v port.num i).rd port.part m port.num j = s.rd port.part m port.num j :=
  s.rdA_wr_other n v port.num i (.inr (addrOf_prt_ne port hm hn h))

/-- A field of a port's register after it has been set, -/
theorem State.fd_setF_prt (hi lo v : Nat) (hn : IsPrt n 0 := by decide) (hle : lo ≤ hi + 1 := by decide) (h32 : hi < 32 := by decide) :
    (s.setF port.part n hi lo v port.num).fd port.part n hi lo port.num = v % 2 ^ (hi + 1 - lo) := by
  rw [State.fd, State.setF, s.rd_wr_prt_same port _ hn, fld_setFld_same _ _ _ _ hle h32]

/-- and a bit of it, which is the value's or as it was. -/
theorem State.bt_setF_prt (hi lo v b : Nat) (hn : IsPrt n 0 := by decide) (hle : lo ≤ hi + 1 := by decide) (h32 : hi < 32 := by decide) :
    (s.setF port.part n hi lo v port.num).bt port.part n b port.num = if lo ≤ b ∧ b ≤ hi then v.testBit (b - lo) else s.bt port.part n b port.num := by
  rw [State.bt, State.setF, s.rd_wr_prt_same port _ hn, getLsbD_setFld _ _ _ _ _ hle h32, State.bt]

theorem State.bt_setB_prt (b : Nat) (hn : IsPrt n 0 := by decide) (h32 : b < 32 := by decide) :
    (s.setB port.part n b port.num).bt port.part n b port.num = true := by
  rw [State.setB, s.bt_setF_prt port b b 1 b hn (by omega) h32, if_pos ⟨le_rfl, le_rfl⟩, Nat.sub_self]; rfl

theorem State.rd_setF_prt_other (hi lo v : Nat) (hn : IsPrt n 0 := by decide) (hm : IsPrt m j := by decide)
    (h : (row m).off + (row m).stride * j ≠ (row n).off + (row n).stride * 0 := by decide) :
    (s.setF port.part n hi lo v port.num).rd port.part m port.num j = s.rd port.part m port.num j :=
  s.rd_wr_prt_other port _ hn hm h

/-- A counter of a port after it has counted `k` more. -/
theorem State.fd_bump_prt (k : Nat) (hn : IsPrt n 0 := by decide) :
    (s.bump port.part n 31 0 k port.num).fd port.part n 31 0 port.num = min (2 ^ 32 - 1) (s.fd port.part n 31 0 port.num + k) := by
  rw [State.bump, s.fd_setF_prt port 31 0 _ hn, satNat, Nat.min_comm, Nat.mod_eq_of_lt (by omega)]

end

end Sys2Proof.Machine
end

section
/-!
PROOFS. The operations that leave the step links alone: their register words, and their ports' data.
-/
namespace Sys2Proof.Machine
set_option Elab.async false

/-! ### No word of a step link changes -/

/-- No register word of a step link has changed. -/
def PrtKept (s t : State) : Prop := ∀ q a, PrtWord a → t.rdA q a = s.rdA q a

theorem PrtKept.refl (s : State) : PrtKept s s := fun _ _ _ => rfl

theorem PrtKept.trans {s t u : State} (h : PrtKept s t) (k : PrtKept t u) : PrtKept s u := fun q a ha => (k q a ha).trans (h q a ha)

theorem PrtKept.ite {s t u : State} {c : Prop} [Decidable c] (h : PrtKept s t) (k : PrtKept s u) : PrtKept s (if c then t else u) := by
  split
  · exact h
  · exact k

theorem PrtKept.foldl {α : Type} {f : State → α → State} (hf : ∀ s a, PrtKept s (f s a)) (l : List α) (s : State) : PrtKept s (l.foldl f s) :=
  List.foldlRecOn (motive := PrtKept s) l f (.refl s) fun t h a _ => h.trans (hf t a)

theorem PrtKept.rd {s t : State} (h : PrtKept s t) (port : Port) {n : RegName} {j : Nat} (hn : IsPrt n j := by decide) :
    t.rd port.part n port.num j = s.rd port.part n port.num j := h _ _ (addrOf_prtWord port hn)

theorem PrtKept.bt {s t : State} (h : PrtKept s t) (port : Port) {n : RegName} (b : Nat) (hn : IsPrt n 0 := by decide) :
    t.bt port.part n b port.num = s.bt port.part n b port.num := congrArg (BitVec.getLsbD · b) (h.rd port hn)

theorem PrtKept.fd {s t : State} (h : PrtKept s t) (port : Port) {n : RegName} {j : Nat} (hi lo : Nat) (hn : IsPrt n j := by decide) :
    t.fd port.part n hi lo port.num j = s.fd port.part n hi lo port.num j := congrArg (fld · hi lo) (h.rd port hn)

theorem PrtKept.portState {s t : State} (h : PrtKept s t) (port : Port) : t.portState port.part port.num = s.portState port.part port.num :=
  h.fd port 2 0

theorem State.wr_prtKept (s : State) (p : PartId) (n : RegName) (v : Word) (i j : Nat) (hg : (row n).grp ≠ .prt := by decide)
    (hj : (row n).off + (row n).stride * j < 0x1000 := by decide) : PrtKept s (s.wr p n v i j) :=
  fun _ _ ha => s.rdA_wr_other n v i j (.inr fun h => addrOf_not_prtWord p i hg hj (h ▸ ha))

theorem State.setF_prtKept (s : State) (p : PartId) (n : RegName) (hi lo v i j : Nat) (hg : (row n).grp ≠ .prt := by decide)
    (hj : (row n).off + (row n).stride * j < 0x1000 := by decide) : PrtKept s (s.setF p n hi lo v i j) := s.wr_prtKept p n _ i j hg hj

theorem State.setB_prtKept (s : State) (p : PartId) (n : RegName) (b i : Nat) (hg : (row n).grp ≠ .prt := by decide)
    (hj : (row n).off + (row n).stride * 0 < 0x1000 := by decide) : PrtKept s (s.setB p n b i) := s.setF_prtKept p n b b 1 i 0 hg hj

/-- A part changed without its registers. -/
theorem State.mod_prtKept (s : State) (p : PartId) (f : Part → Part) (hr : ∀ x, (f x).regs = x.regs := by intro _; rfl) :
    PrtKept s (s.mod p f) := fun q a _ => s.rdA_mod p q f a (hr _)

theorem State.part_of_same {s t : State} (ht : t.tsu = s.tsu) (hd : t.dist = s.dist) (q : PartId) : t.part q = s.part q := by
  cases q
  · exact ht
  · exact hd

/-- A change outside the parts. -/
theorem State.outside_prtKept {s t : State} (ht : t.tsu = s.tsu := by rfl) (hd : t.dist = s.dist := by rfl) : PrtKept s t :=
  fun q a _ => by rw [State.rdA, State.rdA, State.part_of_same ht hd]

theorem State.jnlAt_prtKept (s : State) (w : Who) (h : HT) (ty payload : Nat) : PrtKept s (s.jnlAt w h ty payload) := fun q a ha =>
  (s.jnlAt_regs w h ty payload q a).resolve_left fun ⟨_, hw⟩ => by
    obtain rfl | rfl := hw
    · exact addrOf_not_prtWord w.p 0 (by decide) (by decide) ha
    · exact addrOf_not_prtWord w.p 0 (by decide) (by decide) ha

theorem State.jnl_prtKept (s : State) (w : Who) (ty payload : Nat) : PrtKept s (s.jnl w ty payload) := s.jnlAt_prtKept w _ ty payload

theorem Books.prtKept {p : PartId} {c : Cls} {s t : State} (h : Books p c s t) : PrtKept s t := fun q a ha => by
  refine h.rdA (fun hm => ?_) q
  have herr : (row .sysLasterr).off + (row .sysLasterr).stride * c.num < 0x1000 := by cases c <;> decide
  simp only [bookWords, List.mem_cons, List.not_mem_nil, or_false] at hm
  obtain rfl | rfl | rfl := hm
  · exact addrOf_not_prtWord p 0 (by decide) herr ha
  · exact addrOf_not_prtWord p 0 (by decide) (by decide) ha
  · exact addrOf_not_prtWord p 0 (by decide) (by decide) ha

theorem PrtWord.offPass {a : Nat} (ha : PrtWord a) (p q : PartId) : OffPass p q a := by
  refine .inr fun hm => ?_
  cases p with
  | tsu =>
    obtain rfl | hm := List.mem_cons.1 hm
    · exact addrOf_not_prtWord .tsu 0 (by decide) (by decide) ha
    · obtain ⟨c, -, rfl⟩ := List.mem_map.1 hm
      exact addrOf_not_prtWord .tsu c (by decide) (by decide) ha
  | dist =>
    obtain rfl | hm := List.mem_cons.1 hm
    · exact addrOf_not_prtWord .dist 0 (by decide) (by decide) ha
    · obtain ⟨n, hn, rfl⟩ := List.mem_map.1 hm
      have hrow : ∀ m ∈ [RegName.tbsCalHtLo, .tbsCalHtHi, .tbsCalSLo, .tbsCalSHi, .tbsCalNs, .tbsCalRate, .tbsUtcOff],
          (row m).grp ≠ .prt ∧ (row m).off + (row m).stride * 0 < 0x1000 := by decide
      exact addrOf_not_prtWord .dist 0 (hrow n hn).1 (hrow n hn).2 ha

theorem State.reach_prtKept (s : State) (p : PartId) (target : HT) : PrtKept s (s.reach p target) :=
  fun q _ ha => s.rdA_reach target (ha.offPass p q)

/-! #### References and the servo (R138–R143) -/

theorem State.stepBy_prtKept (s : State) (p : PartId) (c : Int) : PrtKept s (s.stepBy p c) :=
  (s.reach_prtKept p _).trans ((State.mod_prtKept _ p _).trans (State.jnl_prtKept _ _ _ _))

theorem State.refChange_prtKept (s : State) (p : PartId) (port : Nat) (c : Int) : PrtKept s (s.refChange p port c) :=
  .ite ((s.mod_prtKept p _).trans (.ite (.refl _) (State.stepBy_prtKept _ p c)))
    ((s.mod_prtKept p _).trans (.ite ((State.setB_prtKept _ p .srvStat 2 0).trans (State.jnl_prtKept _ _ _ _)) (.refl _)))

theorem State.moveRef_prtKept (s : State) (p : PartId) (d : Nat) : PrtKept s (s.moveRef p d) := by
  have h1 (f : Servo → Servo) : PrtKept s (s.modSrv p f) := s.mod_prtKept p _
  unfold State.moveRef
  dsimp only
  refine .ite (.refl s) ?_
  split
  · exact h1 _
  · exact .ite (h1 _) (((h1 _).trans (.ite (.refl _) ((State.setB_prtKept _ p .srvStat 0 0).trans (State.jnl_prtKept _ _ _ _)))).trans
      (State.refChange_prtKept _ p _ _))

theorem State.setQual_prtKept (s : State) (p : PartId) (code : Nat) : PrtKept s (s.setQual p code) :=
  .ite (.refl s) ((((s.setF_prtKept p .tbsQual 2 0 code 0 0).trans (State.setB_prtKept _ p .tbsStat 1 0)).trans
    (.ite (State.setB_prtKept _ p .tbsStat 2 0) (State.wr_prtKept _ p .tbsHoldErr 0 0 0))).trans (State.jnl_prtKept _ _ _ _))

theorem State.enterHoldover_prtKept (s : State) (p : PartId) : PrtKept s (s.enterHoldover p) :=
  ((((s.mod_prtKept p fun q => { q with tb := { q.tb with locked := false, holding := true, holdRate := q.tb.applied, holdAt := q.tb.ht } }).trans
    (.ite State.outside_prtKept (.refl _))).trans (State.setF_prtKept _ p .tbsQual 31 16 0 0 0)).trans
    (State.wr_prtKept _ p .tbsHoldErr 0 0 0)).trans (State.setQual_prtKept _ p 2)

theorem State.refreshQual_prtKept (s : State) (p : PartId) : PrtKept s (s.refreshQual p) := by
  unfold State.refreshQual
  extract_lets tb sv lockedNow s1 carried s2
  refine .ite ?_ (.ite (.refl s) (.ite ?_ (.ite (.refl s) ?_)))
  · exact (s.mod_prtKept p _).trans (.ite (State.enterHoldover_prtKept _ p) (State.setQual_prtKept _ p 0))
  · exact ((s.mod_prtKept p _).trans (State.setF_prtKept _ p .tbsQual 31 16 0 0 0)).trans (State.setQual_prtKept _ p _)
  · cases p with
    | tsu => exact s.setQual_prtKept .tsu 0
    | dist => exact .ite (s.setQual_prtKept .dist _) (.refl s)

theorem State.selectRef_prtKept (s : State) (p : PartId) : PrtKept s (s.selectRef p) :=
  ((s.moveRef_prtKept p _).trans (State.mod_prtKept _ p _)).trans (State.refreshQual_prtKept _ p)

theorem State.srvPortDown_prtKept (s : State) (p : PartId) (n : Nat) : PrtKept s (s.srvPortDown p n) :=
  (((s.setF_prtKept p .srvPState 2 0 0 n 0).trans (State.mod_prtKept _ p _)).trans
    (.ite ((State.setB_prtKept _ p .srvStat 1 0).trans (State.jnl_prtKept _ _ _ _)) (.refl _))).trans (State.selectRef_prtKept _ p)

/-! #### Fine triggers -/

theorem State.dropAllFine_prtKept (s : State) (p : PartId) (c : Code) : PrtKept s (s.dropAllFine p c) :=
  PrtKept.foldl (fun t i => .ite (.refl t) (((t.mod_prtKept p _).trans (State.setB_prtKept _ p .dtcStat 2 i)).trans
    (PrtKept.foldl (fun u _ => u.jnl_prtKept _ _ _) _ _))) _ s

/-! ### Nor any port's data -/

/-- Neither a register word nor the data of a step-link port has changed. -/
structure LinksKept (s t : State) : Prop where
  words : PrtKept s t
  ports : ∀ q, (t.part q).ports = (s.part q).ports

theorem LinksKept.refl (s : State) : LinksKept s s := ⟨.refl s, fun _ => rfl⟩

theorem LinksKept.trans {s t u : State} (h : LinksKept s t) (k : LinksKept t u) : LinksKept s u :=
  ⟨h.words.trans k.words, fun q => (k.ports q).trans (h.ports q)⟩

theorem LinksKept.ite {s t u : State} {c : Prop} [Decidable c] (h : LinksKept s t) (k : LinksKept s u) : LinksKept s (if c then t else u) := by
  split
  · exact h
  · exact k

theorem LinksKept.prt {s t : State} (h : LinksKept s t) (p : PartId) (n : Nat) : t.prt p n = s.prt p n := by
  rw [State.prt, State.prt, h.ports]

/-- A part's field after a change of a part that leaves it. -/
theorem State.field_mod {α : Type} (s : State) (p q : PartId) (f : Part → Part) (g : Part → α) (h : g (f (s.part p)) = g (s.part p)) :
    g ((s.mod p f).part q) = g (s.part q) := by
  by_cases hq : q = p
  · subst hq; rw [s.part_mod_same, h]
  · rw [s.part_mod_other f hq]

theorem State.mod_links (s : State) (p : PartId) (f : Part → Part) (hr : ∀ x, (f x).regs = x.regs := by intro _; rfl)
    (hp : ∀ x, (f x).ports = x.ports := by intro _; rfl) : LinksKept s (s.mod p f) :=
  ⟨s.mod_prtKept p f hr, fun q => s.field_mod p q f Part.ports (hp _)⟩

/-- A part reads alike but for its registers, its journal and its responses, and no word of a step link has changed. -/
structure Noted (s t : State) : Prop where
  words : PrtKept s t
  core : ∀ q, (t.part q).core = (s.part q).core

theorem Noted.refl (s : State) : Noted s s := ⟨.refl s, fun _ => rfl⟩

theorem Noted.trans {s t u : State} (h : Noted s t) (k : Noted t u) : Noted s u :=
  ⟨h.words.trans k.words, fun q => (k.core q).trans (h.core q)⟩

theorem Noted.ite {s t u : State} {c : Prop} [Decidable c] (h : Noted s t) (k : Noted s u) : Noted s (if c then t else u) := by
  split
  · exact h
  · exact k

theorem Noted.foldl {α : Type} {f : State → α → State} (hf : ∀ s a, Noted s (f s a)) (l : List α) (s : State) : Noted s (l.foldl f s) :=
  List.foldlRecOn (motive := Noted s) l f (.refl s) fun t h a _ => h.trans (hf t a)

theorem Noted.field {s t : State} (h : Noted s t) (q : PartId) {α : Type} (f : Part → α) (hf : ∀ r : Part, f r.core = f r := by intro _; rfl) :
    f (t.part q) = f (s.part q) := Part.field_of_core (h.core q) f hf

theorem Noted.links {s t : State} (h : Noted s t) : LinksKept s t := ⟨h.words, fun q => h.field q Part.ports⟩

theorem State.setF_noted (s : State) (p : PartId) (n : RegName) (hi lo v i j : Nat) (hg : (row n).grp ≠ .prt := by decide)
    (hj : (row n).off + (row n).stride * j < 0x1000 := by decide) : Noted s (s.setF p n hi lo v i j) :=
  ⟨s.setF_prtKept p n hi lo v i j hg hj, fun q => s.core_setF p q n hi lo v i j⟩

theorem State.jnl_noted (s : State) (w : Who) (ty payload : Nat) : Noted s (s.jnl w ty payload) :=
  ⟨s.jnl_prtKept w ty payload, fun q => s.core_jnlAt w _ ty payload q⟩

theorem State.outside_noted {s t : State} (ht : t.tsu = s.tsu := by rfl) (hd : t.dist = s.dist := by rfl) : Noted s t :=
  ⟨State.outside_prtKept ht hd, fun q => congrArg Part.core (State.part_of_same ht hd q)⟩

theorem Books.noted {p : PartId} {c : Cls} {s t : State} (h : Books p c s t) : Noted s t := ⟨h.prtKept, h.core⟩

theorem State.portEvent_noted (s : State) (p : PartId) (n b : Nat) : Noted s (s.portEvent p n b) := s.jnl_noted _ _ _

theorem State.swapRec_noted (s : State) (p : PartId) (n dir ln trig : Nat) (c : Code) : Noted s (s.swapRec p n dir ln trig c) :=
  Noted.trans (.ite (s.setF_noted p .lifStat 4 4 1 0 0) (.refl s)) (State.jnl_noted _ _ _ _)

theorem State.tdcAuto_links (s : State) (p : PartId) (i : Nat) : LinksKept s (s.tdcAuto p i) :=
  .ite (.refl s) (.ite (s.mod_links p _) ((s.mod_links p _).trans (State.setF_noted _ p .tdcCalst 31 31 1 i 0).links))

theorem State.holdUnit_links (s : State) (p : PartId) (i : Nat) : LinksKept s (s.holdUnit p i) :=
  .ite (((s.mod_links p _).trans (State.mod_links _ p _)).trans (State.tdcAuto_links _ p i)) (s.mod_links p _)

theorem State.linkSelect_links (s : State) (p : PartId) (n : Nat) : LinksKept s (s.linkSelect p n) :=
  (((s.setF_noted p .tdcChCfg _ _ _ _ 0).trans (State.setF_noted _ p .tdcChCfg _ _ _ _ 1)).trans
    (State.setF_noted _ p .tdcCtrl _ _ _ _ 0)).links.trans (State.holdUnit_links _ p _)

theorem State.linkEnable_prtKept (s : State) (p : PartId) (n : Nat) : PrtKept s (s.linkEnable p n) :=
  .ite (.refl s) ((s.wr_prtKept p .tdcCtrl _ _ 0).trans (.ite (State.mod_prtKept _ p _)
    (.ite (.ite ((State.mod_prtKept _ p _).trans (State.tdcAuto_links _ p _).words) (State.mod_prtKept _ p _)) (.refl _))))

theorem State.srvPortUp_links (s : State) (p : PartId) (n : Nat) : LinksKept s (s.srvPortUp p n) :=
  (s.mod_links p _).trans (State.setF_noted _ p .srvPState _ _ _ _ 0).links

theorem State.surveyMapIn_links (s : State) (p : PartId) (n : Nat) (rx tx : List Nat) : LinksKept s (s.surveyMapIn p n rx tx) := by
  unfold State.surveyMapIn State.setPsrv
  exact s.mod_links p _

theorem State.retireLane_links (s : State) (p : PartId) (n l : Nat) : LinksKept s (s.retireLane p n l) := by
  unfold State.retireLane State.lifCount
  exact (s.mod_links p _).trans (State.mod_links _ p _)

theorem State.sendFlit_links (s : State) (p : PartId) (port : Nat) (sub : Option Nat) (fields : List Nat) :
    LinksKept s (s.sendFlit p port sub fields) := s.mod_links p _

end Sys2Proof.Machine
end

section
/-!
PROOFS. A port's words while it leaves one state and enters another (R109, R116).
-/
namespace Sys2Proof.Machine
set_option Elab.async false

/-- What a change of state keeps of a port's words: those but PRT_STATE, PRT_STAT and PRT_CNT_LOST, by their offsets; of PRT_STAT the bits from 2 on, and of
PRT_STATE the calibrated bit and those below `m`. -/
structure Moves (port : Port) (m : Nat) (s t : State) : Prop where
  other : ∀ n j, IsPrt n j → (row n).off + (row n).stride * j ∉ [0x08, 0x14, 0x2C] → t.rd port.part n port.num j = s.rd port.part n port.num j
  stat : ∀ b, 2 ≤ b → t.bt port.part .prtStat b port.num = s.bt port.part .prtStat b port.num
  state : ∀ b, b < m ∨ b = 15 → t.bt port.part .prtState b port.num = s.bt port.part .prtState b port.num

section
variable {port : Port} {m : Nat} {s t u : State}

theorem PrtKept.moves (h : PrtKept s t) : Moves port m s t := ⟨fun _ _ hn _ => h.rd port hn, fun b _ => h.bt port b, fun b _ => h.bt port b⟩

theorem Moves.refl (s : State) : Moves port m s s := (PrtKept.refl s).moves

theorem Moves.trans (h : Moves port m s t) (k : Moves port m t u) : Moves port m s u :=
  ⟨fun n j hn hk => (k.other n j hn hk).trans (h.other n j hn hk), fun b hb => (k.stat b hb).trans (h.stat b hb),
    fun b hb => (k.state b hb).trans (h.state b hb)⟩

theorem Moves.ite {c : Prop} [Decidable c] (h : Moves port m s t) (k : Moves port m s u) : Moves port m s (if c then t else u) := by
  split
  · exact h
  · exact k

theorem Moves.mono {l : Nat} (h : Moves port m s t) (hl : l ≤ m) : Moves port l s t :=
  ⟨h.other, h.stat, fun b hb => h.state b (hb.imp_left fun k => k.trans_le hl)⟩

theorem Moves.portState (h : Moves port 3 s t) : t.portState port.part port.num = s.portState port.part port.num :=
  fld_congr fun b _ hb => h.state b (.inl (by omega))

end

section
variable (s : State) (port : Port) {m : Nat}

theorem State.setF_moves {n : RegName} (hi lo v : Nat) (hn : IsPrt n 0) (hmem : (row n).off + (row n).stride * 0 ∈ [0x08, 0x14, 0x2C])
    (hstat : ∀ b, 2 ≤ b → (s.setF port.part n hi lo v port.num).bt port.part .prtStat b port.num = s.bt port.part .prtStat b port.num)
    (hstate : ∀ b, b < m ∨ b = 15 → (s.setF port.part n hi lo v port.num).bt port.part .prtState b port.num = s.bt port.part .prtState b port.num) :
    Moves port m s (s.setF port.part n hi lo v port.num) :=
  ⟨fun _ _ hk hoff => s.rdA_setF_other n hi lo v _ 0 (.inr (addrOf_prt_ne port hk hn fun h => hoff (h ▸ hmem))), hstat, hstate⟩

/-- A field of PRT_STATE above the bits kept, below the calibrated bit or above it. -/
theorem State.setF_prtState_moves (hi lo v : Nat) (hm : m ≤ lo := by decide) (h15 : hi < 15 ∨ 15 < lo := by decide)
    (hle : lo ≤ hi + 1 := by decide) (h32 : hi < 32 := by decide) :
    Moves port m s (s.setF port.part .prtState hi lo v port.num) :=
  s.setF_moves port hi lo v (by decide) (by decide) (fun b _ => congrArg (BitVec.getLsbD · b) (s.rd_setF_prt_other port hi lo v)) fun b hb => by
    rw [s.bt_setF_prt port hi lo v b (by decide) hle h32, if_neg (by omega)]

theorem State.setB_prtStat_moves (b : Nat) (hb : b < 2 := by decide) : Moves port m s (s.setB port.part .prtStat b port.num) :=
  s.setF_moves port b b 1 (by decide) (by decide) (fun k hk => by rw [s.bt_setF_prt port b b 1 k (by decide) (by omega) (by omega), if_neg (by omega)])
    fun k _ => congrArg (BitVec.getLsbD · k) (s.rd_setF_prt_other port b b 1)

theorem State.bump_prtCntLost_moves (k : Nat) : Moves port m s (s.bump port.part .prtCntLost 31 0 k port.num) :=
  s.setF_moves port 31 0 _ (by decide) (by decide) (fun b _ => congrArg (BitVec.getLsbD · b) (s.rd_setF_prt_other port 31 0 _))
    fun b _ => congrArg (BitVec.getLsbD · b) (s.rd_setF_prt_other port 31 0 _)

theorem State.modPrt_prtKept (p : PartId) (n : Nat) (f : PortSt → PortSt) : PrtKept s (s.modPrt p n f) := by
  unfold State.modPrt State.setPrt
  exact s.mod_prtKept p _

theorem State.linkEnds_prtKept (p : PartId) (n : Nat) : PrtKept s (s.linkEnds p n) := by
  unfold State.linkEnds
  exact (s.mod_prtKept p _).trans (State.modPrt_prtKept _ p n _)

theorem State.pathGone_prtKept (p : PartId) (n : Nat) : PrtKept s (s.pathGone p n) :=
  .ite (.refl s) (PrtKept.foldl (fun t r => t.mod_prtKept .dist _) _ s)

theorem State.spillsLost_prtKept (p : PartId) (n : Nat) : PrtKept s (s.spillsLost p n) := .ite (.refl s) State.outside_prtKept

/-- A port leaves UP: it shows no other state yet (R109, R120, R123). -/
theorem State.leaveUp_moves : Moves port 3 s (s.leaveUp port.part port.num) := by
  unfold State.leaveUp
  extract_lets v lost s1 s2 s3 s5 s4
  have h1 : Moves port 3 s s1 := ((s.setB_prtStat_moves port 1).trans (State.bump_prtCntLost_moves _ port lost)).trans
    (State.linkEnds_prtKept _ _ _).moves
  have h3 : Moves port 3 s s3 := h1.trans ((s1.mod_prtKept _ _).trans (s2.modPrt_prtKept _ _ _)).moves
  have h4 : Moves port 3 s s4 := by
    unfold s4
    split
    · have h5 : Moves port 3 s s5 := (h3.trans (s3.setF_prtState_moves port 12 12 0)).trans (State.portEvent_noted _ _ _ 7).words.moves
      exact .ite h5 (h5.trans (State.swapRec_noted _ _ _ _ _ _ _).words.moves)
    · exact h3
  exact h4.trans (((s4.srvPortDown_prtKept _ _).trans (State.pathGone_prtKept _ _ _)).trans (State.spillsLost_prtKept _ _ _)).moves

/-- What follows a port's new state in PRT_STATE (R116). -/
theorem State.portTo_entered {st : Nat} (hne : s.portState port.part port.num ≠ st) :
    Moves port 3 (s.setF port.part .prtState 2 0 st port.num) (s.portTo port.part port.num st) := by
  unfold State.portTo
  extract_lets was ran s1 s2 s3 s4 s5 s6
  rw [if_neg hne]
  have h2 : Moves port 3 s1 s2 := .ite (s1.leaveUp_moves port) (.ite (s1.linkEnds_prtKept _ _).moves (.refl _))
  have h3 : Moves port 3 s1 s3 := h2.trans (.ite ((s2.setF_prtState_moves port 23 20 0).trans (State.setF_prtState_moves _ port 14 13 0)) (.refl _))
  have h4 : Moves port 3 s1 s4 := h3.trans (.ite (s3.holdUnit_links _ _).words.moves (.ite (s3.linkEnable_prtKept _ _).moves (.refl _)))
  have h5 : Moves port 3 s1 s5 := h4.trans
    (.ite ((s4.setF_prtState_moves port 31 28 0).trans (State.modPrt_prtKept _ _ _ _).moves) (.refl _))
  have h6 : Moves port 3 s1 s6 := h5.trans (.ite (s5.mod_prtKept .tsu _).moves (.refl _))
  exact .ite (h6.trans (s6.dropAllFine_prtKept _ _).moves) h6

theorem State.portTo_moves (st : Nat) : Moves port 0 s (s.portTo port.part port.num st) := by
  by_cases h : s.portState port.part port.num = st
  · rw [State.portTo, if_pos h]; exact .refl s
  · exact (s.setF_prtState_moves port 2 0 st).trans ((s.portTo_entered port h).mono (Nat.zero_le 3))

/-- A port moved to a state shows it. -/
theorem State.portState_portTo {st : Nat} (hst : st < 8) : (s.portTo port.part port.num st).portState port.part port.num = st := by
  by_cases h : s.portState port.part port.num = st
  · rw [State.portTo, if_pos h]; exact h
  · exact (s.portTo_entered port h).portState.trans ((s.fd_setF_prt port 2 0 st).trans (Nat.mod_eq_of_lt hst))

theorem State.toDetect_after (full : Bool) : Moves port 3 (s.portTo port.part port.num 1) (s.toDetect port.part port.num full) := by
  have h2 := (((s.portTo port.part port.num 1).setF_prtState_moves port (m := 3) 23 20 0).trans (State.setF_prtState_moves _ port 14 14 0)).trans
    (State.setF_prtState_moves _ port 13 13 0)
  exact .ite (h2.trans (State.modPrt_prtKept _ _ _ _).moves) h2

/-- A port sent to DETECT is in DETECT, and its status shows all that it did from bit 2 on. -/
theorem State.toDetect_detects (full : Bool) : (s.toDetect port.part port.num full).portState port.part port.num = 1 ∧
    ∀ b, 2 ≤ b → (s.toDetect port.part port.num full).bt port.part .prtStat b port.num = s.bt port.part .prtStat b port.num :=
  ⟨(s.toDetect_after port full).portState.trans (s.portState_portTo port (by decide)),
    fun b hb => ((s.toDetect_after port full).stat b hb).trans ((s.portTo_moves port 1).stat b hb)⟩

end

end Sys2Proof.Machine
end

section
/-!
PROOFS. O15. The step of hall time with which a port may leave UP moves the start of every port's blocks (R99; log entry 129), entry by entry of
the map of ports. A map that lists a port twice then reads as its last entry and no longer as its first; O15 supposes no canonical form of
that map, and its clause on LANE_LOSS fails there.
-/
namespace Sys2Proof.Machine
set_option Elab.async false

/-- A TSU that follows domain A over SL0, which is UP with its spare trained; SL1 is LOCKED too, one hall-time unit off. The map of ports lists SL0
twice. -/
def listedTwice : State :=
  { State.reset with tsu :=
    { regs := [(addrOf .tsu .srvPState 1, 3), (addrOf .tsu .prtState, 6)]
      srv := { tport := some 0, followed := 1 }
      psrv := [(1, { theta := -256 })]
      ports := [(0, { fails := 1 }), (0, { fails := 2 })] } }

/-- Refutes O15: lane 0 of SL0 is lost, SL1 becomes the time port and hall time steps by its offset, and of SL0's data, which now read as the second
entry, no lane is retired. -/
theorem not_portsTrainAndNegotiate : ¬ Obligations.PortsTrainAndNegotiate := by
  unfold Obligations.PortsTrainAndNegotiate
  intro h
  obtain ⟨-, -, -, -, -, -, -, -, -, -, -, -, hloss, -⟩ := h
  obtain ⟨t, ht, hspare⟩ := hloss (.sl 0) 0 listedTwice (by decide +kernel) (by decide +kernel)
  obtain rfl : laneLoss (.sl 0) 0 listedTwice = t := Host.Outcome.next.inj ht
  rw [if_neg (by decide +kernel)] at hspare
  exact absurd hspare.2 (by decide +kernel)

end Sys2Proof.Machine
end

section
/-!
PROOFS. A transmitter's work on one port (R104–R109, R114, R122): what it keeps of the port's data, what of the frames sent, and that a port on which
nothing waits sends nothing.
-/
namespace Sys2Proof.Machine
set_option Elab.async false

/-! ### Reading a port's data -/

section
variable (s : State) (p : PartId) (n : Nat)

@[simp] theorem State.prt_setPrt (v : PortSt) : (s.setPrt p n v).prt p n = v := by
  rw [State.prt, State.setPrt, s.part_mod_same]; exact mget_mset_same _ _ _ _

@[simp] theorem State.prt_modPrt (f : PortSt → PortSt) : (s.modPrt p n f).prt p n = f (s.prt p n) := s.prt_setPrt p n _

theorem State.prt_congr {s t : State} (h : (t.part p).ports = (s.part p).ports) : t.prt p n = s.prt p n := by rw [State.prt, State.prt, h]

/-- What of a part is not its ports' data reads alike. -/
theorem State.field_setPrt (v : PortSt) (q : PartId) {α : Type} (g : Part → α) (hg : ∀ (x : Part) m, g { x with ports := m } = g x := by intros; rfl) :
    g ((s.setPrt p n v).part q) = g (s.part q) := s.field_mod p q _ g (hg _ _)

theorem State.field_modPrt (f : PortSt → PortSt) (q : PartId) {α : Type} (g : Part → α)
    (hg : ∀ (x : Part) m, g { x with ports := m } = g x := by intros; rfl) :
    g ((s.modPrt p n f).part q) = g (s.part q) := s.field_setPrt p n _ q g hg

theorem State.prt_noteDreq (f : Sent) : (s.noteDreq p n f).prt p n = s.prt p n := by
  unfold State.noteDreq State.setPsrv
  split
  · exact State.prt_congr p n (s.field_mod p p _ Part.ports rfl)
  · rfl

theorem State.sent_noteDreq (f : Sent) (q : PartId) : ((s.noteDreq p n f).part q).sent = (s.part q).sent := by
  unfold State.noteDreq State.setPsrv
  split
  · exact s.field_mod p q _ Part.sent rfl
  · rfl

end

/-! ### One walk through a transmitter's turns -/

/-- A relation that every turn of a transmitter keeps, its work up to a place keeps. -/
theorem wireN_walk {R : State → State → Prop} {p : PartId} {n : Nat} (hrefl : ∀ s, R s s) (htrans : ∀ {s t u}, R s t → R t u → R s u)
    (hcal : ∀ s, R s (s.calQueue p n))
    (hmove : ∀ (s : State) (x e m : Nat) (h : HT), R s (s.setPrt p n { s.prt p n with place := x, express := e, normal := m, lastIdle := h }))
    (hstart : ∀ (s : State) (e : Bool) (i : Nat), s.nextStart p n e = some i → R s (s.startFrame p n i))
    (hfill : ∀ s, R s (s.bulkRefill p n)) (lim fuel : Nat) (s : State) : R s (wireN fuel p n lim s) := by
  induction fuel generalizing s with
  | zero => exact hrefl s
  | succ fuel ih =>
    have hite {c : Prop} [Decidable c] {t u : State} (h : R s t) (k : R s u) : R s (if c then t else u) := by split <;> assumption
    unfold wireN
    extract_lets s1 v k1 cal stop k2
    have h1 : R s s1 := hcal s
    have hgo (x e m : Nat) (h : HT) : R s (wireN fuel p n lim (s1.setPrt p n { v with place := x, express := e, normal := m, lastIdle := h })) :=
      htrans (htrans h1 (hmove s1 x e m h)) (ih _)
    refine hite h1 (hite (hgo _ _ _ _) ?_)
    split
    · next i hi => exact htrans (htrans h1 (hstart s1 true i hi)) (ih _)
    · refine hite (hgo _ _ _ _) ?_
      split
      · next i hi => exact htrans (htrans (htrans h1 (hstart s1 false i hi)) (hfill _)) (ih _)
      · exact hgo _ _ _ _

theorem State.pump_walk {R : State → State → Prop} {p : PartId} {n : Nat} (hrefl : ∀ s, R s s) (htrans : ∀ {s t u}, R s t → R t u → R s u)
    (hcal : ∀ s, R s (s.calQueue p n))
    (hmove : ∀ (s : State) (x e m : Nat) (h : HT), R s (s.setPrt p n { s.prt p n with place := x, express := e, normal := m, lastIdle := h }))
    (hstart : ∀ (s : State) (e : Bool) (i : Nat), s.nextStart p n e = some i → R s (s.startFrame p n i))
    (hfill : ∀ s, R s (s.bulkRefill p n)) (s : State) : R s (s.pump p n) := by
  unfold State.pump
  split
  · exact htrans (hfill s) (wireN_walk hrefl htrans hcal hmove hstart hfill _ _ _)
  · exact hrefl s

/-! ### What the work keeps of the port's data -/

/-- What the host has offered of a transfer (R122). -/
def BulkXfer.offer (b : BulkXfer) : Nat × Nat × Nat × Nat × Nat := (b.tag, b.slot, b.ty, b.addr, b.bytes)

/-- A port's data without what its transmitter moves. -/
def PortSt.settled (v : PortSt) : PortSt :=
  { v with txExp := 0, txNorm := 0, advExp := 0, advNorm := 0, credit := 0, lastIdle := 0, place := 0, express := 0, normal := 0, markTx := 0
           calRun := none, bulk := [] }

/-- What no transmitter moves of its port's data is as it was, and the transfers on offer are the same. -/
def PrtSettled (p : PartId) (n : Nat) (s t : State) : Prop :=
  (t.prt p n).settled = (s.prt p n).settled ∧ (t.prt p n).bulk.map BulkXfer.offer = (s.prt p n).bulk.map BulkXfer.offer

section
variable {p : PartId} {n : Nat} {s t u : State}

theorem PrtSettled.trans (h : PrtSettled p n s t) (k : PrtSettled p n t u) : PrtSettled p n s u := ⟨k.1.trans h.1, k.2.trans h.2⟩

/-- A field of the port's data that no transmitter moves. -/
theorem PrtSettled.field (h : PrtSettled p n s t) {α : Type} (f : PortSt → α) (hf : ∀ v, f v.settled = f v := by intro _; rfl) :
    f (t.prt p n) = f (s.prt p n) := by rw [← hf, h.1, hf]

end

theorem State.startFrame_settled (s : State) (p : PartId) (n i : Nat) : PrtSettled p n s (s.startFrame p n i) := by
  unfold State.startFrame
  split
  · exact ⟨rfl, rfl⟩
  · extract_lets v e now fresh v0 vm v1 g
    rw [PrtSettled, State.prt_noteDreq, State.prt_setPrt]
    have h0 : v0.settled = v.settled ∧ v0.bulk = v.bulk := by unfold v0; split <;> exact ⟨rfl, rfl⟩
    have hm : vm.settled = v.settled ∧ vm.bulk = v.bulk := by unfold vm; split <;> exact h0
    have h1 : v1.settled = v.settled ∧ v1.bulk = v.bulk := by
      unfold v1
      split
      · exact hm
      · split <;> exact hm
    exact ⟨h1.1, congrArg _ h1.2⟩

theorem State.calQueue_settled (s : State) (p : PartId) (n : Nat) : PrtSettled p n s (s.calQueue p n) := by
  unfold State.calQueue
  extract_lets v
  split
  · split
    · exact ⟨rfl, rfl⟩
    · rw [PrtSettled, State.prt_setPrt]; exact ⟨rfl, rfl⟩
  · exact ⟨rfl, rfl⟩

theorem State.bulkFill_settled (s : State) (n : Nat) : PrtSettled .tsu n s (s.bulkFill n) := by
  unfold State.bulkFill
  extract_lets v
  split
  · exact ⟨rfl, rfl⟩
  · split
    · exact ⟨rfl, rfl⟩
    · next b hb =>
      extract_lets d f b1
      split
      · exact ⟨rfl, rfl⟩
      · rw [PrtSettled, State.prt_setPrt]
        exact ⟨rfl, map_modAt_of_eq (c := BulkXfer.offer) (x := b) (y := b1) rfl hb⟩

theorem State.bulkRefill_settled (s : State) (p : PartId) (n : Nat) : PrtSettled p n s (s.bulkRefill p n) := by
  unfold State.bulkRefill
  split
  · next h => subst h; exact (s.bulkFill_settled n).trans (State.bulkFill_settled _ n)
  · exact ⟨rfl, rfl⟩

theorem State.pump_settled (s : State) (p : PartId) (n : Nat) : PrtSettled p n s (s.pump p n) :=
  State.pump_walk (R := PrtSettled p n) (fun _ => ⟨rfl, rfl⟩) (fun h k => h.trans k) (fun s => s.calQueue_settled p n)
    (fun s x e m h => by rw [PrtSettled, State.prt_setPrt]; exact ⟨rfl, rfl⟩) (fun s _ i _ => s.startFrame_settled p n i)
    (fun s => s.bulkRefill_settled p n) s

/-- What of a part is neither its queue of frames nor its ports' data the work leaves alone. -/
theorem State.field_pump (s : State) (p : PartId) (n : Nat) (q : PartId) {α : Type} (f : Part → α) (hf : ∀ x : Part, f x.atRest = f x := by intro _; rfl) :
    f ((s.pump p n).part q) = f (s.part q) := by rw [← hf, (s.pump_transmits p n).rest q, hf]

theorem State.pump_prtKept (s : State) (p : PartId) (n : Nat) : PrtKept s (s.pump p n) := fun q a _ => by
  rw [State.rdA, State.rdA, s.field_pump p n q Part.regs]

/-! ### What the work keeps of the frames sent -/

/-- The frame whose turn it is waits on the port. -/
theorem State.turn_waits {s : State} {p : PartId} {n i : Nat} {e : Bool} {f : Sent} (h : s.turn p n e = some (i, f)) :
    (s.part p).sent[i]? = some f ∧ f.waits n e (s.prt p n).holdTsi = true := by
  unfold State.turn at h
  extract_lets v here ws at h
  have hmem : (f, i) ∈ ws := by
    revert h
    refine List.foldlRecOn (motive := fun b => b = some (i, f) → (f, i) ∈ ws) ws _ (fun h => nomatch h) fun b hb a ha h => ?_
    split at h
    · cases h; exact ha
    · split at h
      · cases h; exact ha
      · exact hb h
  obtain ⟨hz, hw⟩ := List.mem_filter.1 hmem
  exact ⟨List.mem_zipIdx_iff_getElem?.1 hz, (Bool.and_eq_true_iff.1 hw).1⟩

theorem State.nextStart_waits {s : State} {p : PartId} {n i : Nat} {e : Bool} (h : s.nextStart p n e = some i) :
    ∃ f, (s.part p).sent[i]? = some f ∧ f.waits n e (s.prt p n).holdTsi = true := by
  unfold State.nextStart at h
  split at h
  · cases h
  · next j f hturn =>
    obtain ⟨-, h⟩ := Option.ite_none_right_eq_some.1 h
    cases h
    exact ⟨f, State.turn_waits hturn⟩

/-- A frame that waits is on the port, and not yet started or to be resent. -/
theorem Sent.waits_iff {f : Sent} {n : Nat} {e hold : Bool} (h : f.waits n e hold = true) :
    f.onPort n = true ∧ (!f.started || f.again) = true := by
  simp only [Sent.waits, Bool.and_eq_true] at h
  exact ⟨h.1.1.1, h.1.1.2⟩

end Sys2Proof.Machine
end

section
/-!
PROOFS. What a transmitter's work keeps of the frames already sent (R104, R107, R108), and that it sends nothing where nothing waits (R105).
-/
namespace Sys2Proof.Machine
set_option Elab.async false

/-! ### The frames sent before -/

theorem getElem?_modAt {α : Type} (f : α → α) : ∀ (i j : Nat) (l : List α), (modAt i f l)[j]? = if i = j then l[j]?.map f else l[j]?
  | i, j, [] => by simp [modAt]
  | 0, 0, a :: l => rfl
  | 0, j + 1, a :: l => rfl
  | i + 1, 0, a :: l => rfl
  | i + 1, j + 1, a :: l => by simpa [modAt] using getElem?_modAt f i j l

/-- `g` is the frame `f` after a transmitter's work on port `n`: its content stands but for time-stamps, and if it has started, or is another port's, so do its SEQ
and its count of sends. -/
structure Sent.Later (n : Nat) (f g : Sent) : Prop where
  content : (g.dest, g.xfer, g.frame.cls, g.frame.ty, g.frame.data) = (f.dest, f.xfer, f.frame.cls, f.frame.ty, f.frame.data)
  fields : 2 < f.frame.cls → g.frame.fields = f.frame.fields
  begun : f.started = true ∨ f.onPort n = false → (g.started, g.seq, g.sends, g.retx) = (f.started, f.seq, f.sends, f.retx)

theorem Sent.Later.refl (n : Nat) (f : Sent) : f.Later n f := ⟨rfl, fun _ => rfl, fun _ => rfl⟩

theorem Sent.Later.trans {n : Nat} {f g h : Sent} (a : f.Later n g) (b : g.Later n h) : f.Later n h := by
  obtain ⟨hdest, hxfer, hcls, hty, hdata⟩ := by simpa only [Prod.mk.injEq] using a.content
  refine ⟨b.content.trans a.content, fun hc => (b.fields (hcls ▸ hc)).trans (a.fields hc), fun hf => ?_⟩
  have hg := a.begun hf
  obtain ⟨hstart, -⟩ := by simpa only [Prod.mk.injEq] using hg
  refine (b.begun ?_).trans hg
  rwa [hstart, Sent.onPort, hdest]

/-- The frames sent before stand where they stood. -/
def SentLater (p : PartId) (n : Nat) (s t : State) : Prop :=
  ∀ (i : Nat) (f : Sent), (s.part p).sent[i]? = some f → ∃ g, (t.part p).sent[i]? = some g ∧ f.Later n g

section
variable {p : PartId} {n : Nat} {s t u : State}

theorem SentLater.of_eq (h : (t.part p).sent = (s.part p).sent) : SentLater p n s t := fun _ f hf => ⟨f, h ▸ hf, .refl n f⟩

theorem SentLater.trans (h : SentLater p n s t) (k : SentLater p n t u) : SentLater p n s u := fun i f hf => by
  obtain ⟨g, hg, hfg⟩ := h i f hf
  obtain ⟨x, hx, hgx⟩ := k i g hg
  exact ⟨x, hx, hfg.trans hgx⟩

theorem SentLater.of_append {l : List Sent} (h : (t.part p).sent = (s.part p).sent ++ l) : SentLater p n s t := fun i f hf =>
  ⟨f, by rw [h]; exact (List.getElem?_append_left (List.getElem?_eq_some_iff.1 hf).1).trans hf, .refl n f⟩

end

/-- A frame that begins is the frame that waited. -/
theorem State.stamped_later (s : State) (p : PartId) (n seq : Nat) {f : Sent} {e hold : Bool} (h : f.waits n e hold = true) :
    f.Later n (s.stamped p n { f with
      started := true, again := false, sends := if f.again then f.sends else 1, seq := if f.again then f.seq else seq }) := by
  obtain ⟨hport, hwait⟩ := Sent.waits_iff h
  have hagain : f.started = true ∨ f.onPort n = false → f.started = true ∧ f.again = true := by
    rw [hport]; rintro (hs | hs)
    · rw [hs] at hwait; exact ⟨hs, hwait⟩
    · cases hs
  unfold State.stamped
  dsimp only
  split
  · next hcls =>
    exact ⟨by split <;> rfl, fun hc => absurd hcls (Nat.not_le.2 hc), fun hf => by obtain ⟨hs, ha⟩ := hagain hf; simp [hs, ha]⟩
  · exact ⟨rfl, fun _ => rfl, fun hf => by obtain ⟨hs, ha⟩ := hagain hf; simp [hs, ha]⟩

theorem State.startFrame_later {s : State} {p : PartId} {n i : Nat} {e : Bool} (h : s.nextStart p n e = some i) :
    SentLater p n s (s.startFrame p n i) := by
  obtain ⟨f, hf, hw⟩ := State.nextStart_waits h
  unfold State.startFrame
  split
  · exact .of_eq rfl
  next y hy =>
  obtain rfl : f = y := Option.some.inj (hf.symm.trans hy)
  extract_lets v e now fresh v0 vm v1 g
  intro j x hx
  have hsent : ((((s.mod p fun q => { q with sent := modAt i (fun _ => g) q.sent }).setPrt p n v1).noteDreq p n g).part p).sent =
      modAt i (fun _ => g) (s.part p).sent := by
    rw [State.sent_noteDreq, State.field_setPrt _ p n v1 p Part.sent, s.part_mod_same]
  rw [hsent, getElem?_modAt, hx]
  split
  · next hij =>
    subst hij
    obtain rfl : f = x := Option.some.inj (hf.symm.trans hx)
    exact ⟨g, rfl, s.stamped_later p n _ hw⟩
  · exact ⟨x, rfl, .refl n x⟩

theorem State.sent_bulkFill (s : State) (n : Nat) : ∃ l, ((s.bulkFill n).part .tsu).sent = (s.part .tsu).sent ++ l := by
  unfold State.bulkFill
  extract_lets v
  split
  · exact ⟨[], (List.append_nil _).symm⟩
  · split
    · exact ⟨[], (List.append_nil _).symm⟩
    · extract_lets d f b1
      split
      · exact ⟨[], (List.append_nil _).symm⟩
      · exact ⟨_, by rw [State.field_setPrt _ .tsu n _ .tsu Part.sent, s.part_mod_same]⟩

theorem State.bulkFill_later (s : State) (n m : Nat) : SentLater .tsu m s (s.bulkFill n) := by
  obtain ⟨l, hl⟩ := s.sent_bulkFill n
  exact .of_append hl

theorem State.bulkRefill_later (s : State) (p : PartId) (n : Nat) : SentLater p n s (s.bulkRefill p n) := by
  unfold State.bulkRefill
  split
  · next h => subst h; exact (s.bulkFill_later n n).trans (State.bulkFill_later _ n n)
  · exact .of_eq rfl

theorem State.calQueue_later (s : State) (p : PartId) (n : Nat) : SentLater p n s (s.calQueue p n) := by
  unfold State.calQueue
  extract_lets v
  split
  · split
    · exact .of_eq rfl
    · exact .of_append (by rw [State.field_setPrt _ p n _ p Part.sent]; unfold State.send; rw [s.part_mod_same])
  · exact .of_eq rfl

theorem State.wireN_later (fuel : Nat) (p : PartId) (n lim : Nat) (s : State) : SentLater p n s (wireN fuel p n lim s) :=
  wireN_walk (R := SentLater p n) (fun _ => .of_eq rfl) (fun h k => h.trans k) (fun s => s.calQueue_later p n)
    (fun s _ _ _ _ => .of_eq (s.field_setPrt p n _ p Part.sent)) (fun _ _ _ h => State.startFrame_later h) (fun s => s.bulkRefill_later p n) lim fuel s

theorem State.pump_later (s : State) (p : PartId) (n : Nat) : SentLater p n s (s.pump p n) :=
  State.pump_walk (R := SentLater p n) (fun _ => .of_eq rfl) (fun h k => h.trans k) (fun s => s.calQueue_later p n)
    (fun s _ _ _ _ => .of_eq (s.field_setPrt p n _ p Part.sent)) (fun _ _ _ h => State.startFrame_later h) (fun s => s.bulkRefill_later p n) s

/-! ### A port on which nothing waits -/

/-- No frame waits on the port, no latency calibration sends CAL frames, and no transfer has bytes left to take. -/
structure Idles (p : PartId) (n : Nat) (s : State) : Prop where
  sent : ((s.part p).sent.any fun f => f.onPort n && (!f.started || f.again)) = false
  cal : (s.prt p n).calRun = none
  bulk : ((s.prt p n).bulk.all fun b => b.rest.isEmpty) = true

/-- A port's data without the transmitter's place and what is on the wire. -/
def PortSt.parked (v : PortSt) : PortSt := { v with place := 0, express := 0, normal := 0, lastIdle := 0 }

/-- Only the place of a port's transmitter has moved. -/
structure Parked (p : PartId) (n : Nat) (s t : State) : Prop where
  sent : (t.part p).sent = (s.part p).sent
  prt : (t.prt p n).parked = (s.prt p n).parked

section
variable {p : PartId} {n : Nat} {s t u : State}

theorem Parked.refl (s : State) : Parked p n s s := ⟨rfl, rfl⟩

theorem Parked.field (h : Parked p n s t) {α : Type} (f : PortSt → α) (hf : ∀ v, f v.parked = f v := by intro _; rfl) :
    f (t.prt p n) = f (s.prt p n) := by rw [← hf, h.prt, hf]

theorem Idles.parked (hs : Idles p n s) (h : Parked p n s t) : Idles p n t :=
  ⟨h.sent ▸ hs.sent, (h.field PortSt.calRun).trans hs.cal, by rw [h.field PortSt.bulk]; exact hs.bulk⟩

theorem Idles.nextStart (h : Idles p n s) (e : Bool) : s.nextStart p n e = none := by
  rw [Option.eq_none_iff_forall_ne_some]
  intro i hi
  obtain ⟨f, hf, hw⟩ := State.nextStart_waits hi
  obtain ⟨hport, hwait⟩ := Sent.waits_iff hw
  exact absurd h.sent (by rw [Bool.not_eq_false, List.any_eq_true]; exact ⟨f, List.mem_of_getElem? hf, by rw [hport, hwait]; rfl⟩)

theorem Idles.calQueue (h : Idles p n s) : s.calQueue p n = s := by
  unfold State.calQueue
  dsimp only
  rw [h.cal]

theorem Idles.bulkFill (h : Idles .tsu n s) : s.bulkFill n = s := by
  have hnone : (s.prt .tsu n).bulk.findIdx? (fun b => !b.rest.isEmpty) = none :=
    List.findIdx?_eq_none_iff.2 fun b hb => by rw [List.all_eq_true.1 h.bulk b hb]; rfl
  unfold State.bulkFill
  dsimp only
  rw [hnone]

theorem Idles.bulkRefill (h : Idles p n s) : s.bulkRefill p n = s := by
  unfold State.bulkRefill
  split
  · next hp => subst hp; rw [h.bulkFill, h.bulkFill]
  · rfl

/-- Where nothing waits the work only moves on. -/
theorem Idles.pump (h : Idles p n s) : Parked p n s (s.pump p n) := by
  refine State.pump_walk (R := fun s t => Idles p n s → Parked p n s t) (fun _ _ => .refl _) ?_ ?_ ?_ ?_ ?_ s h
  · exact fun h k hs => ⟨(k (hs.parked (h hs))).sent.trans (h hs).sent, (k (hs.parked (h hs))).prt.trans (h hs).prt⟩
  · intro s hs; rw [hs.calQueue]; exact .refl s
  · exact fun s x e m h _ => ⟨s.field_setPrt p n _ p Part.sent, by rw [State.prt_setPrt]; rfl⟩
  · intro s e i hi hs; rw [hs.nextStart] at hi; cases hi
  · intro s hs; rw [hs.bulkRefill]; exact .refl s

end

end Sys2Proof.Machine
end

section
/-!
PROOFS. A port enters UP, and its latency calibration begins and ends (R114, R116).
-/
namespace Sys2Proof.Machine
set_option Elab.async false

/-! ### Entering UP -/

section
variable (s : State) (port : Port)

theorem State.setF_prt (p : PartId) (r : RegName) (hi lo v i j n : Nat) : (s.setF p r hi lo v i j).prt p n = s.prt p n :=
  State.prt_congr p n (Part.field_of_core (s.core_setF p p r hi lo v i j) Part.ports)

theorem State.portUp_entered :
    PrtKept (((s.portTo port.part port.num 6).setB port.part .prtStat 0 port.num)) (s.portUp port.part port.num) := by
  unfold State.portUp
  exact (((State.modPrt_prtKept _ _ _ _).trans (State.holdUnit_links _ _ _).words).trans (State.srvPortUp_links _ _ _).words).trans
    (State.pump_prtKept _ _ _)

theorem State.portUp_moves : Moves port 0 s (s.portUp port.part port.num) :=
  ((s.portTo_moves port 6).trans (State.setB_prtStat_moves _ port 0)).trans (s.portUp_entered port).moves

theorem State.portState_portUp : (s.portUp port.part port.num).portState port.part port.num = 6 :=
  ((s.portUp_entered port).portState port).trans
    ((congrArg (fld · 2 0) (State.rd_setF_prt_other _ port 0 0 1)).trans (s.portState_portTo port (by decide)))

/-- A port that entered UP awaits no calibration. -/
theorem State.prt_portUp : ((s.portUp port.part port.num).prt port.part port.num).calibrating = false ∧
    ((s.portUp port.part port.num).prt port.part port.num).calWait = false := by
  unfold State.portUp
  extract_lets s1 s2
  have h := State.pump_settled ((s2.holdUnit port.part (linkUnit port.part port.num)).srvPortUp port.part port.num) port.part port.num
  have hs2 : ((s2.holdUnit port.part (linkUnit port.part port.num)).srvPortUp port.part port.num).prt port.part port.num =
      s2.prt port.part port.num := ((State.holdUnit_links _ _ _).trans (State.srvPortUp_links _ _ _)).prt _ _
  rw [h.field PortSt.calibrating, h.field PortSt.calWait, hs2, State.prt_modPrt]
  exact ⟨rfl, rfl⟩

end

/-! ### A calibration begins -/

/-- What a map reads, if not its default, is in it. -/
theorem mem_of_mget {α : Type} {d : Nat → α} {k : Nat} : ∀ {m : List (Nat × α)}, mget d m k ≠ d k → (k, mget d m k) ∈ m
  | [], h => absurd rfl h
  | (k', v) :: m, h => by
    rw [mget] at h ⊢
    split at h
    · next hk => subst hk; rw [if_pos rfl]; exact List.mem_cons_self
    · next hk => rw [if_neg hk]; exact List.mem_cons_of_mem _ (mem_of_mget h)

theorem State.linkBusy_of_calibrating {s : State} {p : PartId} {n : Nat} (h : (s.prt p n).calibrating = true) :
    s.linkBusy p (linkUnit p n) = true := by
  have hmem : (n, s.prt p n) ∈ (s.part p).ports := mem_of_mget fun hd : s.prt p n = {} => by rw [hd] at h; cases h
  rw [State.linkBusy, Bool.or_eq_true]
  exact .inl (List.any_eq_true.2 ⟨_, hmem, by rw [h, beq_self_eq_true]; rfl⟩)

/-- A port that calibrates holds its link unit. -/
theorem State.held_linkSelect {s : State} {p : PartId} {n : Nat} (h : (s.prt p n).calibrating = true) :
    ((s.linkSelect p n).tdcU p (linkUnit p n)).held = true := by
  unfold State.linkSelect
  extract_lets i
  have hbusy : (((s.setF p .tdcChCfg 31 24 (markerSrc p n false) i 0).setF p .tdcChCfg 31 24 (markerSrc p n true) i 1).setF p .tdcCtrl 1 1 0 i).linkBusy p i =
      true := State.linkBusy_of_calibrating (by rw [State.setF_prt, State.setF_prt, State.setF_prt]; exact h)
  unfold State.holdUnit
  extract_lets u busy s1
  rw [show busy = true from hbusy, Bool.not_true, Bool.and_false, if_neg Bool.false_ne_true, State.tdcU_setTdc_same]
  exact hbusy

/-- A due calibration with a calibrated link unit begins (R114). -/
theorem latencyCalibration_begins {port : Port} {s : State} (hst : s.portState port.part port.num = 5 ∨ s.portState port.part port.num = 6)
    (hwait : (s.prt port.part port.num).calWait = true) (hcal : (s.prt port.part port.num).calibrating = false)
    (hswap : (s.prt port.part port.num).swap = none) (hunit : s.bt port.part .tdcCalst 30 (linkUnit port.part port.num) = false) :
    latencyCalibration port s = ((s.modPrt port.part port.num fun w => { w with calWait := false, calibrating := true, calRun := some {} }).linkSelect
      port.part port.num).pump port.part port.num := by
  have hrun : (!(decide (s.portState port.part port.num = 5) || decide (s.portState port.part port.num = 6))) = false := by
    rw [Bool.not_eq_false', Bool.or_eq_true, decide_eq_true_eq, decide_eq_true_eq]; exact hst
  unfold latencyCalibration
  dsimp only
  rw [hrun, hwait, hcal, hswap, hunit]
  rfl

/-- With an uncalibrated one a port in CALIBRATE enters UP at once (R114). -/
theorem latencyCalibration_uncalibrated {port : Port} {s : State} (hst : s.portState port.part port.num = 5)
    (hwait : (s.prt port.part port.num).calWait = true) (hcal : (s.prt port.part port.num).calibrating = false)
    (hswap : (s.prt port.part port.num).swap = none) (hunit : s.bt port.part .tdcCalst 30 (linkUnit port.part port.num) = true) :
    latencyCalibration port s = ((s.modPrt port.part port.num fun w => { w with calWait := false }).setF port.part .prtState 15 15 0
      port.num).portUp port.part port.num := by
  unfold latencyCalibration
  dsimp only
  rw [hst, hwait, hcal, hswap, hunit]
  rfl

/-! ### A calibration ends -/

/-- One latency of a port replaced, if one was measured (R114). -/
def State.putLat (s : State) (port : Port) (name : RegName) (l : Nat) : Option Int → State
  | some x => s.wr port.part name (BitVec.ofNat 32 (latMean x)) port.num l
  | none => s

/-- The latencies of the lanes replaced. -/
def State.putLats (s : State) (port : Port) (tx rx : List (Option Int)) (lanes : List Nat) : State :=
  lanes.foldl (fun t l => (t.putLat port .prtTxlat l (tx.getD l none)).putLat port .prtRxlat l (rx.getD l none)) s

theorem isPrt_txlat (l : Fin 5) : IsPrt .prtTxlat l := by revert l; decide

theorem isPrt_rxlat (l : Fin 5) : IsPrt .prtRxlat l := by revert l; decide

/-- A transmit latency, once written, reads as the value for its lane while all are replaced. -/
theorem State.rd_putLats (s : State) (port : Port) (tx rx : List (Option Int)) {l : Fin 5} {x : Int} (hx : tx.getD l none = some x) (lanes : List Nat)
    (hlt : ∀ k ∈ lanes, k < 5) (h : l.val ∈ lanes ∨ s.rd port.part .prtTxlat port.num l = BitVec.ofNat 32 (latMean x)) :
    (s.putLats port tx rx lanes).rd port.part .prtTxlat port.num l = BitVec.ofNat 32 (latMean x) := by
  induction lanes generalizing s with
  | nil => exact h.resolve_left List.not_mem_nil
  | cons k ks ih =>
    have hk : k < 5 := hlt k List.mem_cons_self
    have hoff : (row .prtTxlat).off + (row .prtTxlat).stride * l ≠ (row .prtRxlat).off + (row .prtRxlat).stride * k := by
      have := l.isLt
      show 0x60 + 4 * l.val ≠ 0x80 + 4 * k
      omega
    have hrx (t : State) (o : Option Int) : (t.putLat port .prtRxlat k o).rd port.part .prtTxlat port.num l = t.rd port.part .prtTxlat port.num l := by
      cases o with
      | none => rfl
      | some y => exact t.rd_wr_prt_other port _ (isPrt_rxlat ⟨k, hk⟩) (isPrt_txlat l) hoff
    refine ih _ (fun j hj => hlt j (List.mem_cons_of_mem k hj)) ?_
    by_cases hkl : l.val = k
    · subst hkl
      rw [hrx, hx]
      exact .inr (s.rd_wr_prt_same port _ (isPrt_txlat l))
    · refine h.imp (fun hm => (List.mem_cons.1 hm).resolve_left hkl) fun hs => ?_
      rw [hrx]
      cases tx.getD k none with
      | none => exact hs
      | some y =>
        refine (s.rd_wr_prt_other port _ (isPrt_txlat ⟨k, hk⟩) (isPrt_txlat l) ?_).trans hs
        show 0x60 + 4 * l.val ≠ 0x60 + 4 * k
        omega

/-- What LATENCY_CALIBRATION_DONE does once the CAL frames have gone (R114). -/
def State.calEnds (s : State) (port : Port) (tx rx : List (Option Int)) : State :=
  ((((((s.putLats port tx rx (List.range 5)).setF port.part .prtState 15 15 1 port.num).setB port.part .prtStat 5 port.num).modPrt port.part port.num
    fun w => { w with calibrating := false, calRun := none }).holdUnit port.part (linkUnit port.part port.num)).jnl (prtWho port.part port.num 3) 0x0301
    (pay [(0, 1, 2), (1, 1, port.num), (2, 1, 0)]))

theorem latencyDone_ends {port : Port} {s : State} (tx rx : List (Option Int)) (hcal : (s.prt port.part port.num).calibrating = true) :
    ∃ t : State, PrtKept s t ∧ latencyDone port tx rx s =
      if t.portState port.part port.num = 5 then (t.calEnds port tx rx).portUp port.part port.num else t.calEnds port tx rx := by
  unfold latencyDone
  dsimp only
  rw [hcal, Bool.not_true, if_neg Bool.false_ne_true]
  exact ⟨_, (s.reach_prtKept _ _).trans (State.pump_prtKept _ _ _), rfl⟩

section
variable (s : State) (port : Port) (tx rx : List (Option Int))

theorem State.calEnds_after : PrtKept (((s.putLats port tx rx (List.range 5)).setF port.part .prtState 15 15 1 port.num).setB port.part .prtStat 5 port.num)
    (s.calEnds port tx rx) :=
  ((State.modPrt_prtKept _ _ _ _).trans (State.holdUnit_links _ _ _).words).trans (State.jnl_prtKept _ _ _ _)

theorem State.bt_calEnds : (s.calEnds port tx rx).bt port.part .prtState 15 port.num = true := by
  rw [(s.calEnds_after port tx rx).bt port 15, State.bt, State.setB, State.rd_setF_prt_other _ port 5 5 1]
  exact (State.bt_setF_prt _ port 15 15 1 15).trans (if_pos ⟨le_rfl, le_rfl⟩)

theorem State.rd_calEnds {l : Fin 5} {x : Int} (hx : tx.getD l none = some x) :
    (s.calEnds port tx rx).rd port.part .prtTxlat port.num l = BitVec.ofNat 32 (latMean x) := by
  have hl : IsPrt .prtTxlat l := isPrt_txlat l
  have hoff (k : Nat) (hk : k < 0x60) : (row .prtTxlat).off + (row .prtTxlat).stride * l ≠ k := by
    show 0x60 + 4 * l.val ≠ k
    omega
  rw [(s.calEnds_after port tx rx).rd port hl, State.setB, State.rd_setF_prt_other _ port 5 5 1 (by decide) hl (hoff _ (by decide)),
    State.rd_setF_prt_other _ port 15 15 1 (by decide) hl (hoff _ (by decide))]
  exact s.rd_putLats port tx rx hx _ (fun k hk => List.mem_range.1 hk) (.inl (List.mem_range.2 l.isLt))

theorem State.prt_calEnds : ((s.calEnds port tx rx).prt port.part port.num).calibrating = false := by
  unfold State.calEnds
  rw [(State.jnl_noted _ _ _ _).links.prt, (State.holdUnit_links _ _ _).prt, State.prt_modPrt]

end

end Sys2Proof.Machine
end

section
/-!
PROOFS. Lane swaps (R119–R121): the request, by register or from the far end, and the swap's end.
-/
namespace Sys2Proof.Machine
set_option Elab.async false

/-! ### A port is heard -/

/-- What of a part its ports' data and its books say nothing of. -/
def Part.linkless (q : Part) : Part := { q.core with ports := [] }

/-- `t` is `s` after port `n` has heard its far end (R305) or marked what it heard (R91), which changes no word of a link and nothing else of the port's
data. -/
structure Hears (p : PartId) (n : Nat) (s t : State) : Prop where
  words : PrtKept s t
  rest : ∀ q, (t.part q).linkless = (s.part q).linkless
  prt : ∃ h m, t.prt p n = { s.prt p n with heard := h, markRx := m }

section
variable {p : PartId} {n : Nat} {s t u : State}

theorem Hears.refl (s : State) : Hears p n s s := ⟨.refl s, fun _ => rfl, _, _, rfl⟩

theorem Hears.trans (h : Hears p n s t) (k : Hears p n t u) : Hears p n s u := by
  obtain ⟨x, m, hx⟩ := h.prt
  obtain ⟨y, l, hy⟩ := k.prt
  exact ⟨h.words.trans k.words, fun q => (k.rest q).trans (h.rest q), y, l, by rw [hy, hx]⟩

theorem Hears.noted (h : Hears p n s t) (k : Noted t u) : Hears p n s u := by
  obtain ⟨x, m, hx⟩ := h.prt
  exact ⟨h.words.trans k.words, fun q => (congrArg (fun r : Part => { r with ports := [] }) (k.core q)).trans (h.rest q), x, m, (k.links.prt p n).trans hx⟩

theorem Hears.field (h : Hears p n s t) (q : PartId) {α : Type} (f : Part → α) (hf : ∀ r : Part, f r.linkless = f r := by intro _; rfl) :
    f (t.part q) = f (s.part q) := by rw [← hf, h.rest, hf]

theorem Hears.prtField (h : Hears p n s t) {α : Type} (f : PortSt → α) (hf : ∀ v x m, f { v with heard := x, markRx := m } = f v := by intros; rfl) :
    f (t.prt p n) = f (s.prt p n) := by
  obtain ⟨x, m, hx⟩ := h.prt
  rw [hx, hf]

theorem Hears.ht (h : Hears p n s t) : t.ht p = s.ht p := h.field p fun r => r.tb.ht

end

theorem State.nodeTo_noted (s : State) (pos st cause : Nat) : Noted s (s.nodeTo pos st cause) :=
  .ite (.refl s) (Noted.trans State.outside_noted (State.jnl_noted _ _ _ _))

theorem State.jobEvent_noted (s : State) (k kind rank node : Nat) : Noted s (s.jobEvent k kind rank node) := by
  unfold State.jobEvent
  exact .ite State.outside_noted State.outside_noted

theorem State.nodeRevive_noted (s : State) (pos : Nat) : Noted s (s.nodeRevive pos) :=
  .ite ((s.nodeTo_noted pos 0 0).trans (Noted.foldl (fun t (x : Nat × Nat) => t.jobEvent_noted x.1 2 x.2 _) _ _)) (.refl s)

theorem State.hear_hears (s : State) (p : PartId) (n : Nat) : Hears p n s (s.hear p n) := by
  unfold State.hear
  split
  · exact .refl s
  · extract_lets s1
    have h1 : Hears p n s s1 := ⟨s.modPrt_prtKept p n _, fun q => s.field_modPrt p n _ q Part.linkless, s.ht p, (s.prt p n).markRx,
      s.prt_modPrt p n _⟩
    split
    · exact h1
    · exact h1.noted (Noted.trans State.outside_noted (State.nodeRevive_noted _ _))

theorem State.heard_hears (s : State) (port : Port) (crcOk : Bool) : Hears port.part port.num s (s.heard port crcOk) := by
  unfold State.heard
  split
  · exact s.hear_hears _ _
  · exact .refl s

/-! ### Lane maps -/

theorem testBit_mapLane (m k i : Nat) : (mapLane m k).testBit i = (decide (i < 3) && m.testBit (3 * k + i)) := by
  rw [mapLane, testBit_bits, show 3 * k + 2 + 1 - 3 * k = 3 by omega]

theorem mapLane_lt (m k : Nat) : mapLane m k < 8 := by
  have h : mapLane m k < 2 ^ (3 * k + 2 + 1 - 3 * k) := Nat.mod_lt _ (Nat.two_pow_pos _)
  rwa [show 3 * k + 2 + 1 - 3 * k = 3 by omega] at h

/-- The map in which logical lane `l` has taken the spare, and none is left. -/
def spareMap (m l : Nat) : Nat := setBits (setBits m (3 * l + 2) (3 * l) (mapLane m 4)) 14 12 7

theorem mapLane_spareMap {m l : Nat} (hl : l < 4) : mapLane (spareMap m l % 2 ^ 15) l = mapLane m 4 := by
  refine Nat.eq_of_testBit_eq fun i => ?_
  rw [testBit_mapLane, testBit_mapLane, Nat.testBit_mod_two_pow, spareMap, testBit_setBits _ _ _ _ _ (by decide),
    testBit_setBits _ _ _ _ _ (by omega), testBit_mapLane, Nat.add_sub_cancel_left]
  by_cases hi : i < 3
  · rw [if_neg (by omega), if_pos (by omega)]
    simp [hi, show 3 * l + i < 15 by omega]
  · simp [hi]

theorem mapLane_spareMap_spare (m l : Nat) : mapLane (spareMap m l % 2 ^ 15) 4 = 7 := by
  refine Nat.eq_of_testBit_eq fun i => ?_
  rw [testBit_mapLane, Nat.testBit_mod_two_pow, spareMap, testBit_setBits _ _ _ _ _ (by decide)]
  by_cases hi : i < 3
  · rw [if_pos (by omega), show 3 * 4 + i - 12 = i by omega]
    simp [hi, show 3 * 4 + i < 15 by omega]
  · have h7 : Nat.testBit 7 i = false := Nat.testBit_lt_two_pow (lt_of_lt_of_le (by decide) (Nat.pow_le_pow_right (by decide) (Nat.le_of_not_lt hi)))
    rw [h7]
    simp [hi]

/-! ### What a swap is judged by -/

section
variable {port : Port} {s t : State}

theorem PrtKept.strongFec (h : PrtKept s t) (port : Port) : t.strongFec port.part port.num = s.strongFec port.part port.num := h.bt port 16

theorem PrtKept.dirMap (h : PrtKept s t) (port : Port) (dir : Nat) : t.dirMap port.part port.num dir = s.dirMap port.part port.num dir := by
  rw [State.dirMap, State.dirMap, h.fd port 14 0, h.fd port 30 16]

theorem PrtKept.spareReady (h : PrtKept s t) (port : Port) (dir : Nat) :
    t.spareReady port.part port.num dir = s.spareReady port.part port.num dir := by
  rw [State.spareReady, State.spareReady, h.dirMap, h.bt port]

theorem isPrt_lat {l : Nat} (h : l < 8) : IsPrt .prtTxlat l ∧ IsPrt .prtRxlat l := by interval_cases l <;> decide

theorem PrtKept.laneLat (h : PrtKept s t) (port : Port) (dir ln : Nat) :
    t.laneLat port.part port.num dir ln = s.laneLat port.part port.num dir ln := by
  obtain ⟨htx, hrx⟩ := isPrt_lat (mapLane_lt (s.dirMap port.part port.num dir) ln)
  rw [State.laneLat, State.laneLat, h.dirMap, h.fd port 15 0 htx, h.fd port 15 0 hrx]

theorem Hears.placeNow (h : Hears port.part port.num s t) : t.placeNow port.part port.num = s.placeNow port.part port.num := by
  unfold State.placeNow
  extract_lets v w
  rw [show v.negAt = w.negAt from h.prtField PortSt.negAt, show v.negFrac = w.negFrac from h.prtField PortSt.negFrac, h.ht, h.words.strongFec]

theorem Hears.blockHt (h : Hears port.part port.num s t) (b : Nat) (lat : Int) :
    t.blockHt port.part port.num b lat = s.blockHt port.part port.num b lat := by
  unfold State.blockHt
  extract_lets v w
  rw [show v.negAt = w.negAt from h.prtField PortSt.negAt, show v.negFrac = w.negFrac from h.prtField PortSt.negFrac, h.words.strongFec]

theorem Hears.swapLate (h : Hears port.part port.num s t) (w : Swap) (b : Nat) :
    t.swapLate port.part port.num w b = s.swapLate port.part port.num w b := by
  rw [State.swapLate, State.swapLate, h.words.strongFec]

/-- An UP port with a trained and free spare takes a swap at a target at least 2 us off, while no swap and no calibration runs (R120). -/
theorem State.swapCode_ok {dir : Nat} {at_ : HT} (hup : s.portState port.part port.num = 6) (hswap : (s.prt port.part port.num).swap = none)
    (hcal : (s.prt port.part port.num).calibrating = false) (hready : s.spareReady port.part port.num dir = true)
    (hat : 512000 ≤ htDiff at_ (s.ht port.part)) : s.swapCode port.part port.num dir at_ = .ok := by
  have hsign : noSign at_ (s.ht port.part) = false := by
    rw [noSign, beq_eq_false_iff_ne]
    intro h
    rw [htDiff, h] at hat
    exact absurd hat (by decide)
  unfold State.swapCode
  dsimp only
  rw [hup, hswap, hcal, hready, hsign, decide_eq_false (Int.not_lt.2 hat)]
  rfl

/-- While a swap is in progress no other is taken. -/
theorem State.swapCode_ne_ok {dir : Nat} {at_ : HT} {w : Swap} (hswap : (s.prt port.part port.num).swap = some w) :
    s.swapCode port.part port.num dir at_ ≠ .ok := by
  unfold State.swapCode
  extract_lets v now notUp
  rw [show v.swap = some w from hswap]
  unfold firstFail
  rw [if_neg Bool.false_ne_true, if_neg Bool.false_ne_true]
  split
  · decide
  · rw [if_neg Bool.false_ne_true]
    by_cases hup : notUp
    · simp [hup]
    · split <;> simp [hup]

end

end Sys2Proof.Machine
end

section
/-!
PROOFS. A lane swap begins, by register or by the far end's request, and ends (R120).
-/
namespace Sys2Proof.Machine
set_option Elab.async false

/-! ### A swap begins -/

section
variable (s : State) (port : Port) (w : Swap)

theorem State.prt_beginSwap : (s.beginSwap port.part port.num w).prt port.part port.num =
    { s.prt port.part port.num with swap := some w, holdTsi := (s.prt port.part port.num).holdTsi || decide (w.dir = 0) } := by
  rw [State.beginSwap, State.setF_prt, State.prt_modPrt]

theorem State.bt_beginSwap : (s.beginSwap port.part port.num w).bt port.part .prtState 12 port.num = true := by
  rw [State.beginSwap, State.bt_setF_prt _ port 12 12 1 12, if_pos ⟨le_rfl, le_rfl⟩]; rfl

end

/-- A word pair as the number of its bits. -/
theorem ofNat_pair (hi lo : Word) : BitVec.ofNat 64 (lo.toNat + 2 ^ 32 * hi.toNat) = (hi ++ lo : HT) := by
  refine BitVec.eq_of_toNat_eq ?_
  have hhi := hi.isLt
  have hlo := lo.isLt
  rw [BitVec.toNat_append, ← Nat.shiftLeft_add_eq_or_of_lt hlo, Nat.shiftLeft_eq, BitVec.toNat_ofNat, Nat.mod_eq_of_lt (by omega)]
  omega

/-- A request that is taken begins the swap and tells the far end (R120). -/
theorem State.requestSwap_taken {s : State} {port : Port} {dir ln trig : Nat} {t : HT}
    (ht : (if (s.rd port.part .prtSwapAtHi port.num ++ s.rd port.part .prtSwapAtLo port.num : HT) = 0 then
      s.ht port.part + BitVec.ofNat 64 (256000 * s.fd port.part .prtCfg 31 24 port.num)
      else s.rd port.part .prtSwapAtHi port.num ++ s.rd port.part .prtSwapAtLo port.num) = t)
    (hok : s.swapCode port.part port.num dir t = .ok) :
    ∃ b h, s.requestSwap port.part port.num dir ln trig =
      (.ok, (s.beginSwap port.part port.num ⟨dir, ln, b, h, false, trig⟩).sendFlit port.part port.num (some 3) [dir, ln, b % 2 ^ 32]) := by
  unfold State.requestSwap
  dsimp only
  rw [ofNat_pair, ht, hok]
  exact ⟨_, _, rfl⟩

/-- A request that is not taken changes no port's data. -/
theorem State.requestSwap_refused {s : State} {p : PartId} {n dir ln trig : Nat} (hbusy : ∀ t, s.swapCode p n dir t ≠ .ok) :
    (s.requestSwap p n dir ln trig).1 ≠ .ok ∧ Noted s (s.requestSwap p n dir ln trig).2 := by
  unfold State.requestSwap
  extract_lets at_ t c s1 s2
  rw [if_pos (hbusy t)]
  exact ⟨hbusy t, .ite ((s.swapRec_noted _ _ _ _ _ _).trans (State.portEvent_noted _ _ _ _)) (s.swapRec_noted _ _ _ _ _ _)⟩

/-! ### The write of PRT_Pp_SWAP -/

theorem locate_prtSwap (port : Port) : locate port.part (addrOf port.part .prtSwap port.num) = .reg ⟨.prtSwap, port.num, 0, false⟩ := by
  cases port with
  | sl n => revert n; decide +kernel
  | dp n => revert n; decide +kernel
  | up n => revert n; decide +kernel
  | pp n => revert n; decide +kernel

/-- `t` is `s` but for the word PRT_Pp_SWAP. -/
def SwapStored (port : Port) (s t : State) : Prop := t = s ∨ ∃ v, t = s.wr port.part .prtSwap v port.num

section
variable {port : Port} {s t : State}

theorem SwapStored.core (h : SwapStored port s t) (q : PartId) : (t.part q).core = (s.part q).core := by
  obtain rfl | ⟨v, rfl⟩ := h
  · rfl
  · exact s.core_wrA _ _ _ _

theorem SwapStored.bt (h : SwapStored port s t) (b : Nat) : t.bt port.part .prtState b port.num = s.bt port.part .prtState b port.num := by
  obtain rfl | ⟨v, rfl⟩ := h
  · rfl
  · exact congrArg (BitVec.getLsbD · b) (s.rd_wr_prt_other port v)

end

/-- The write asks for the swap, in the bookkeeping of the access. -/
theorem State.writeAt_prtSwap {s : State} {port : Port} {src : Src} {v : Word} (hp : s.permits port.part src (some 3) true = true)
    (hun : (s.part port.part).unlocked.contains src.cls = true) :
    ∃ u t, Books port.part src.cls (s.opened port.part src) u ∧
      SwapStored port (u.requestSwap port.part port.num (fld v 2 2) (fld v 1 0) 0).2 t ∧
      Books port.part src.cls t (s.writeAt port.part src .prtSwap port.num 0 v) := by
  obtain ⟨u, hu, -, ht⟩ := State.regWrite_reg v (locate_prtSwap port) (addrOf_aligned port.part _ _ _) hp rfl
  refine ⟨u, _, hu, ?_, ht⟩
  rw [hun]
  have hgk : u.writeReg port.part src ⟨.prtSwap, port.num, 0, false⟩ v true = u.gkWrite port.part src ⟨.prtSwap, port.num, 0, false⟩ v := rfl
  have hsw : u.gkWrite port.part src ⟨.prtSwap, port.num, 0, false⟩ v =
      if (u.requestSwap port.part port.num (fld v 2 2) (fld v 1 0) 0).1 ≠ .ok then
        { s := (u.requestSwap port.part port.num (fld v 2 2) (fld v 1 0) 0).2, code := (u.requestSwap port.part port.num (fld v 2 2) (fld v 1 0) 0).1, quiet := true }
      else (u.requestSwap port.part port.num (fld v 2 2) (fld v 1 0) 0).2.store port.part ⟨.prtSwap, port.num, 0, false⟩ v := rfl
  rw [hgk, hsw]
  split
  · exact .inl rfl
  · exact .inr ⟨_, rfl⟩

section
variable {s u : State} {port : Port} {c : Cls}

/-- The books of an access to a part leave its links alone. -/
theorem Books.link (src : Src) (hu : Books port.part c (s.opened port.part src) u) :
    PrtKept s u ∧ u.prt port.part port.num = s.prt port.part port.num ∧ u.ht port.part = s.ht port.part := by
  refine ⟨PrtKept.trans (s.mod_prtKept _ _) hu.prtKept, ?_, ?_⟩
  · exact (hu.noted.links.prt _ _).trans (State.prt_congr _ _ (by rw [s.part_opened]))
  · exact (hu.field port.part fun q => q.tb.ht).trans (by rw [s.part_opened]; rfl)

end

/-! ### A swap ends -/

/-- What a swap's end leaves (R120). -/
structure SwapEnded (port : Port) (w : Swap) (late : Nat) (s t : State) : Prop where
  map : mapLane (t.dirMap port.part port.num w.dir) w.lane = mapLane (s.dirMap port.part port.num w.dir) 4
  spare : mapLane (t.dirMap port.part port.num w.dir) 4 = 7
  swap : (t.prt port.part port.num).swap = none
  hold : (t.prt port.part port.num).holdTsi = false
  state : t.bt port.part .prtState 12 port.num = false
  stat : t.bt port.part .prtStat 7 port.num = true
  late : 0 < late → t.bt port.part .prtStat 6 port.num = true ∧ t.rd port.part .prtSwlate port.num = BitVec.ofNat 32 (min (2 ^ 32 - 1) late)

theorem SwapEnded.of_kept {port : Port} {w : Swap} {late : Nat} {s u t : State} (h : SwapEnded port w late u t) (hk : PrtKept s u) :
    SwapEnded port w late s t := { h with map := h.map.trans (by rw [hk.dirMap]) }

/-- No word of the port has changed but those at the offsets of a list. -/
def Untouched (port : Port) (offs : List Nat) (s t : State) : Prop :=
  ∀ n j, IsPrt n j → (row n).off + (row n).stride * j ∉ offs → t.rd port.part n port.num j = s.rd port.part n port.num j

section
variable {port : Port} {offs : List Nat} {s t u : State}

theorem PrtKept.untouched (h : PrtKept s t) : Untouched port offs s t := fun _ _ hn _ => h.rd port hn

theorem Untouched.trans (h : Untouched port offs s t) (k : Untouched port offs t u) : Untouched port offs s u :=
  fun n j hn hoff => (k n j hn hoff).trans (h n j hn hoff)

theorem State.wr_untouched (s : State) (port : Port) (n : RegName) (v : Word) (hn : IsPrt n 0 := by decide)
    (hmem : (row n).off + (row n).stride * 0 ∈ offs := by decide) : Untouched port offs s (s.wr port.part n v port.num) :=
  fun _ _ hm hoff => s.rd_wr_prt_other port v hn hm fun h => hoff (h ▸ hmem)

theorem State.setF_untouched (s : State) (port : Port) (n : RegName) (hi lo v : Nat) (hn : IsPrt n 0 := by decide)
    (hmem : (row n).off + (row n).stride * 0 ∈ offs := by decide) : Untouched port offs s (s.setF port.part n hi lo v port.num) :=
  s.wr_untouched port n _ hn hmem

theorem Untouched.bt (h : Untouched port offs s t) {n : RegName} (b : Nat) (hn : IsPrt n 0 := by decide)
    (hoff : (row n).off + (row n).stride * 0 ∉ offs := by decide) : t.bt port.part n b port.num = s.bt port.part n b port.num :=
  congrArg (BitVec.getLsbD · b) (h n 0 hn hoff)

theorem Untouched.dirMap (h : Untouched port offs s t) (dir : Nat) (hoff : 0xc ∉ offs := by decide) :
    t.dirMap port.part port.num dir = s.dirMap port.part port.num dir := by
  have hmap : t.rd port.part .prtLmap port.num = s.rd port.part .prtLmap port.num := h .prtLmap 0 (by decide) hoff
  rw [State.dirMap, State.dirMap, State.fd, State.fd, State.fd, State.fd, hmap]

end

/-- A swap that ends late shows it (R120). -/
def State.swapLateNoted (s : State) (port : Port) (late : Nat) : State :=
  if late = 0 then s else (s.setB port.part .prtStat 6 port.num).wr port.part .prtSwlate (BitVec.ofNat 32 (satNat 32 late)) port.num

section
variable (s : State) (port : Port) (late : Nat)

theorem State.swapLateNoted_untouched : Untouched port [0x14, 0xac] s (s.swapLateNoted port late) := by
  unfold State.swapLateNoted
  split
  · exact (PrtKept.refl s).untouched
  · exact (s.setF_untouched port .prtStat 6 6 1).trans (State.wr_untouched _ port .prtSwlate _)

theorem State.stat_swapLateNoted {b : Nat} (hb : s.bt port.part .prtStat b port.num = true) :
    (s.swapLateNoted port late).bt port.part .prtStat b port.num = true := by
  unfold State.swapLateNoted
  split
  · exact hb
  · rw [State.bt, State.rd_wr_prt_other _ port]
    refine (s.bt_setF_prt port 6 6 1 b).trans ?_
    split
    · next h => rw [le_antisymm h.2 h.1]; rfl
    · exact hb

theorem State.swapLateNoted_late (h : 0 < late) : (s.swapLateNoted port late).bt port.part .prtStat 6 port.num = true ∧
    (s.swapLateNoted port late).rd port.part .prtSwlate port.num = BitVec.ofNat 32 (min (2 ^ 32 - 1) late) := by
  unfold State.swapLateNoted
  rw [if_neg (by omega)]
  refine ⟨?_, ?_⟩
  · rw [State.bt, State.rd_wr_prt_other _ port]; exact s.bt_setB_prt port 6
  · rw [State.rd_wr_prt_same _ port, satNat, Nat.min_comm]

end

/-- The lane map of a direction set. -/
def State.setMap (s : State) (port : Port) (dir m : Nat) : State :=
  if dir = 0 then s.setF port.part .prtLmap 14 0 m port.num else s.setF port.part .prtLmap 30 16 m port.num

theorem State.dirMap_setMap (s : State) (port : Port) (dir m : Nat) :
    (s.setMap port dir m).dirMap port.part port.num dir = m % 2 ^ 15 := by
  unfold State.setMap State.dirMap
  split
  · exact s.fd_setF_prt port 14 0 m
  · exact s.fd_setF_prt port 30 16 m

theorem State.swapEnds_ended (s : State) (port : Port) {w : Swap} (late : Nat) (hl : w.lane < 4) :
    SwapEnded port w late s (s.swapEnds port.part port.num w late) := by
  unfold State.swapEnds
  extract_lets m old s0 m1 s1 s2 s3 s4 s5
  have h1 : PrtKept (s0.setMap port w.dir m1) s1 := by
    unfold s1 State.setMap
    split
    · exact (State.surveyMapIn_links _ _ _ _ _).words
    · exact (State.surveyMapIn_links _ _ _ _ _).words
  have h12 : Untouched port [0x8, 0x14] s1 s2 := (s1.setF_untouched port .prtStat 7 7 1).trans (State.setF_untouched _ port .prtState 12 12 0)
  have h23 : Untouched port [0x14, 0xac] s2 s3 := s2.swapLateNoted_untouched port late
  have h35 : Untouched port [0x8] s3 s5 := (s3.modPrt_prtKept _ _ _).untouched.trans (s4.setF_untouched port .prtState _ _ 0)
  have hlife : LinksKept s5 ((s5.retireLane port.part port.num old).lifCount port.part 64 1) := (s5.retireLane_links _ _ _).trans (State.mod_links _ _ _)
  have h5t : PrtKept s5 (((s5.retireLane port.part port.num old).lifCount port.part 64 1).pump port.part port.num) :=
    hlife.words.trans (State.pump_prtKept _ _ _)
  have hmap : (((s5.retireLane port.part port.num old).lifCount port.part 64 1).pump port.part port.num).dirMap port.part port.num w.dir =
      spareMap m w.lane % 2 ^ 15 := by
    rw [h5t.dirMap, h35.dirMap, h23.dirMap, h12.dirMap, h1.dirMap, State.dirMap_setMap]
    rfl
  have hprt : ((s5.retireLane port.part port.num old).lifCount port.part 64 1).prt port.part port.num = s4.prt port.part port.num := by
    rw [hlife.prt, State.setF_prt]
  have hswap : (s4.prt port.part port.num).swap = none ∧ (s4.prt port.part port.num).holdTsi = false := by rw [State.prt_modPrt]; exact ⟨rfl, rfl⟩
  have hsettled := State.pump_settled ((s5.retireLane port.part port.num old).lifCount port.part 64 1) port.part port.num
  have hstate : s3.bt port.part .prtState 12 port.num = false := by
    rw [h23.bt 12]
    exact (State.bt_setF_prt _ port 12 12 0 12).trans (if_pos ⟨le_rfl, le_rfl⟩)
  have hstat : s2.bt port.part .prtStat 7 port.num = true :=
    (congrArg (BitVec.getLsbD · 7) (State.rd_setF_prt_other _ port 12 12 0)).trans (s1.bt_setB_prt port 7)
  refine ⟨?_, ?_, ?_, ?_, ?_, ?_, fun hlate => ?_⟩
  · rw [hmap, mapLane_spareMap hl]
  · rw [hmap, mapLane_spareMap_spare]
  · rw [hsettled.field PortSt.swap, hprt, hswap.1]
  · rw [hsettled.field PortSt.holdTsi, hprt, hswap.2]
  · rw [h5t.bt port 12, State.bt_setF_prt s4 port _ _ 0 12 (by decide) (by omega) (by split <;> decide), if_neg (by split <;> omega)]
    exact ((s3.modPrt_prtKept _ _ _).bt port 12).trans hstate
  · rw [h5t.bt port 7, h35.bt 7]
    exact s2.stat_swapLateNoted port late hstat
  · obtain ⟨hbit, hval⟩ := s2.swapLateNoted_late port late hlate
    rw [h5t.bt port 6, h35.bt 6, h5t.rd port, h35 .prtSwlate 0 (by decide) (by decide)]
    exact ⟨hbit, hval⟩

end Sys2Proof.Machine
end

section
/-!
PROOFS. Bulk transfers (R122, R123).
-/
namespace Sys2Proof.Machine
set_option Elab.async false

/-- What a transfer needs to be taken (R122, R123, R339). -/
structure BulkTaken (n : Fin 4) (slot : Fin 16) (ty : Byte) (data : List Byte) (s : State) : Prop where
  up : s.portState .tsu n = 6
  open_ : s.fenced = false
  slot : 1 ≤ s.slotSt slot ∧ s.slotSt slot ≤ 5
  ty : 1 ≤ ty.toNat ∧ ty.toNat ≤ 3
  data : 1 ≤ data.length ∧ data.length ≤ 2 ^ 32

/-- A transfer the host offers, none of it taken yet. -/
def BulkXfer.offered (tag slot ty addr : Nat) (job : Nat × Nat × Nat) (data : List Byte) : BulkXfer :=
  { tag := tag, slot := slot, ty := ty, addr := addr, bytes := data.length, left := 0, job := job, rest := data }

section
variable {n : Fin 4} {slot : Fin 16} {ty : Byte} {data : List Byte} {s : State}

theorem BulkTaken.queued (h : BulkTaken n slot ty data s) (tag : BitVec 16) (addr : BitVec 96) :
    ∃ job, bulkTransfer n slot ty tag addr data s = (s.modPrt .tsu n fun v => { v with
      bulk := v.bulk ++ [.offered tag.toNat slot ty.toNat addr.toNat job data] }).pump .tsu n := by
  obtain ⟨hlo, hhi⟩ := h.slot
  obtain ⟨htlo, hthi⟩ := h.ty
  obtain ⟨hdlo, hdhi⟩ := h.data
  have hrange : (data.isEmpty || decide (2 ^ 32 < data.length) || decide (ty = 0) || decide (3 < ty.toNat)) = false := by
    have hty : ty ≠ 0 := fun h0 => by rw [h0] at htlo; exact absurd htlo (by decide)
    have hdata : data ≠ [] := fun h0 => by rw [h0] at hdlo; exact absurd hdlo (by decide)
    simp only [Bool.or_eq_false_iff, decide_eq_false_iff_not, List.isEmpty_eq_false_iff]
    exact ⟨⟨⟨hdata, by omega⟩, hty⟩, by omega⟩
  have hslot : (decide (s.slotSt slot = 0) || decide (s.slotSt slot = 6)) = false := by
    rw [Bool.or_eq_false_iff, decide_eq_false_iff_not, decide_eq_false_iff_not]
    omega
  unfold bulkTransfer
  dsimp only
  rw [h.up, h.open_, hrange, hslot]
  exact ⟨_, rfl⟩

/-- A FENCED TSU takes none. -/
theorem bulkTransfer_fenced (hup : s.portState .tsu n = 6) (hf : s.fenced = true) (tag : BitVec 16) (addr : BitVec 96) :
    bulkTransfer n slot ty tag addr data s = s.bulkReport n tag.toNat .fenced := by
  unfold bulkTransfer
  dsimp only
  rw [hup, hf]
  rfl

end

/-- The first bytes of the only transfer go into a frame (R122, R123). -/
theorem State.bulkFill_first {s : State} {n : Nat} {b : BulkXfer} (hb : (s.prt .tsu n).bulk = [b]) (hrest : b.rest ≠ []) (hready : s.bulkReady n = true) :
    ∃ f : Frame, (f.cls, f.ty, f.data, f.fields) = (6, b.ty, b.rest.take 4096, [b.addr, b.off]) ∧
      ((s.bulkFill n).part .tsu).sent = (s.part .tsu).sent ++ [{ dest := .port n, xfer := some b.tag, frame := f }] := by
  have hidx : [b].findIdx? (fun b => !b.rest.isEmpty) = some 0 := by
    rw [List.findIdx?_cons, List.isEmpty_eq_false_iff.2 hrest]; rfl
  unfold State.bulkFill
  dsimp only
  rw [hb, hidx]
  dsimp only [List.getElem?_cons_zero]
  rw [hready, Bool.not_true, if_neg Bool.false_ne_true, State.field_setPrt _ .tsu n _ .tsu Part.sent, s.part_mod_same]
  exact ⟨_, rfl, rfl⟩

/-- A frame queued on a running port is still in the queue after the transmitter's work. -/
theorem State.pump_bulk {s : State} {n : Nat} {b : BulkXfer} (hrun : s.linkRuns .tsu n = true) (hb : (s.prt .tsu n).bulk = [b]) (hrest : b.rest ≠ [])
    (hready : s.bulkReady n = true) :
    ∃ g ∈ ((s.pump .tsu n).part .tsu).sent, g.dest = .port n ∧ g.xfer = some b.tag ∧ g.frame.cls = 6 ∧ g.frame.ty = b.ty ∧
      g.frame.data = b.rest.take 4096 ∧ g.frame.fields = [b.addr, b.off] := by
  obtain ⟨f, hf, hsent⟩ := State.bulkFill_first hb hrest hready
  obtain ⟨hcls, hty, hdata, hfields⟩ := by simpa only [Prod.mk.injEq] using hf
  have hlater : SentLater .tsu n (s.bulkFill n) (s.pump .tsu n) := by
    rw [State.pump, if_pos hrun]
    exact (State.bulkFill_later _ n n).trans (State.wireN_later _ .tsu n _ _)
  obtain ⟨g, hg, hfg⟩ := hlater (s.part .tsu).sent.length _ (by rw [hsent, List.getElem?_concat_length])
  obtain ⟨hdest, hxfer, hgcls, hgty, hgdata⟩ := by simpa only [Prod.mk.injEq] using hfg.content
  refine ⟨g, List.mem_of_getElem? hg, hdest, hxfer, hgcls.trans hcls, hgty.trans hty, hgdata.trans hdata, (hfg.fields ?_).trans hfields⟩
  rw [hcls]; decide

end Sys2Proof.Machine
end

section
/-!
PROOFS. O17, clause by clause: what each of its commands does.
-/
namespace Sys2Proof.Machine
set_option Elab.async false

/-! ### Latency calibration (R114) -/

section
variable {port : Port} {s : State}

theorem latencyCalibration_holds (hst : s.portState port.part port.num = 5 ∨ s.portState port.part port.num = 6)
    (hwait : (s.prt port.part port.num).calWait = true) (hcal : (s.prt port.part port.num).calibrating = false)
    (hswap : (s.prt port.part port.num).swap = none) (hunit : s.bt port.part .tdcCalst 30 (linkUnit port.part port.num) = false) :
    ((latencyCalibration port s).prt port.part port.num).calibrating = true ∧ ((latencyCalibration port s).prt port.part port.num).calWait = false ∧
      ((latencyCalibration port s).tdcU port.part (linkUnit port.part port.num)).held = true := by
  rw [latencyCalibration_begins hst hwait hcal hswap hunit]
  have hsettled := State.pump_settled ((s.modPrt port.part port.num fun w => { w with calWait := false, calibrating := true, calRun := some {} }).linkSelect
    port.part port.num) port.part port.num
  rw [hsettled.field PortSt.calibrating, hsettled.field PortSt.calWait, (State.linkSelect_links _ _ _).prt, State.prt_modPrt,
    State.tdcU_congr (State.field_pump _ port.part port.num port.part Part.tdc)]
  exact ⟨rfl, rfl, State.held_linkSelect (by rw [State.prt_modPrt])⟩

theorem latencyCalibration_up (hst : s.portState port.part port.num = 5) (hwait : (s.prt port.part port.num).calWait = true)
    (hcal : (s.prt port.part port.num).calibrating = false) (hswap : (s.prt port.part port.num).swap = none)
    (hunit : s.bt port.part .tdcCalst 30 (linkUnit port.part port.num) = true) :
    (latencyCalibration port s).portState port.part port.num = 6 ∧ (latencyCalibration port s).bt port.part .prtState 15 port.num = false ∧
      ((latencyCalibration port s).prt port.part port.num).calWait = false := by
  rw [latencyCalibration_uncalibrated hst hwait hcal hswap hunit]
  refine ⟨State.portState_portUp _ port, ?_, (State.prt_portUp _ port).2⟩
  rw [(State.portUp_moves _ port).state 15 (.inr rfl), State.bt_setF_prt _ port 15 15 0 15, if_pos ⟨le_rfl, le_rfl⟩]
  rfl

theorem latencyDone_latencies {tx rx : List (Option Int)} {l : Fin 5} {x : Int} (hcal : (s.prt port.part port.num).calibrating = true)
    (hx : tx.getD l none = some x) :
    (latencyDone port tx rx s).bt port.part .prtState 15 port.num = true ∧
      (latencyDone port tx rx s).rd port.part .prtTxlat port.num l = BitVec.ofNat 32 (latMean x) ∧
      ((latencyDone port tx rx s).prt port.part port.num).calibrating = false ∧
      (s.portState port.part port.num = 5 → (latencyDone port tx rx s).portState port.part port.num = 6) := by
  obtain ⟨t, ht, hend⟩ := latencyDone_ends tx rx hcal
  rw [hend, ht.portState]
  split
  · have hup := (t.calEnds port tx rx).portUp_moves port
    refine ⟨(hup.state 15 (.inr rfl)).trans (t.bt_calEnds port tx rx), ?_, ((t.calEnds port tx rx).prt_portUp port).1, fun _ => State.portState_portUp _ port⟩
    refine (hup.other .prtTxlat l (isPrt_txlat l) ?_).trans (t.rd_calEnds port tx rx hx)
    clear hx; revert l; decide
  · next hne => exact ⟨t.bt_calEnds port tx rx, t.rd_calEnds port tx rx hx, t.prt_calEnds port tx rx, fun h => absurd h hne⟩

end

/-! ### The spare lane (R119, R120) -/

section
variable {port : Port} {s : State}

theorem prtSwap_taken {src : Src} {v : Word} {at_ : HT} (hp : s.permits port.part src (some 3) true = true)
    (hun : (s.part port.part).unlocked.contains src.cls = true) (hup : s.portState port.part port.num = 6)
    (hswap : (s.prt port.part port.num).swap = none) (hcal : (s.prt port.part port.num).calibrating = false)
    (hready : s.spareReady port.part port.num (fld v 2 2) = true)
    (ht : (if (s.rd port.part .prtSwapAtHi port.num ++ s.rd port.part .prtSwapAtLo port.num : HT) = 0 then
      s.ht port.part + BitVec.ofNat 64 (256000 * s.fd port.part .prtCfg 31 24 port.num)
      else s.rd port.part .prtSwapAtHi port.num ++ s.rd port.part .prtSwapAtLo port.num) = at_)
    (hat : 512000 ≤ htDiff at_ (s.ht port.part)) :
    ((s.writeAt port.part src .prtSwap port.num 0 v).prt port.part port.num).swap.map (fun (w : Swap) => (w.dir, w.lane, w.remote, w.trig)) =
        some (fld v 2 2, fld v 1 0, false, 0) ∧
      (s.writeAt port.part src .prtSwap port.num 0 v).bt port.part .prtState 12 port.num = true ∧
      (fld v 2 2 = 0 → ((s.writeAt port.part src .prtSwap port.num 0 v).prt port.part port.num).holdTsi = true) ∧
      (((s.writeAt port.part src .prtSwap port.num 0 v).part port.part).flits.any fun (f : FlitOut) => f.port == port.num && f.sub == some 3) = true := by
  obtain ⟨u, t, hu, hst, ht'⟩ := State.writeAt_prtSwap hp hun
  obtain ⟨hwords, hprt, hht⟩ := hu.link src
  rw [← hwords.rd port, ← hwords.rd port (n := .prtSwapAtLo), ← hwords.fd port 31 24, ← hht] at ht
  have hok : u.swapCode port.part port.num (fld v 2 2) at_ = .ok :=
    State.swapCode_ok ((hwords.portState port).trans hup) (by rw [hprt, hswap]) (by rw [hprt, hcal]) (by rw [hwords.spareReady, hready])
      (by rw [hht]; exact hat)
  obtain ⟨b, h, htaken⟩ := State.requestSwap_taken (ln := fld v 1 0) (trig := 0) ht hok
  rw [htaken] at hst
  have hcore := (ht'.core port.part).trans (hst.core port.part)
  have hdata : (s.writeAt port.part src .prtSwap port.num 0 v).prt port.part port.num =
      (u.beginSwap port.part port.num ⟨fld v 2 2, fld v 1 0, b, h, false, 0⟩).prt port.part port.num :=
    (State.prt_congr _ _ (Part.field_of_core hcore Part.ports)).trans ((State.sendFlit_links _ _ _ _ _).prt _ _)
  rw [hdata, State.prt_beginSwap, Part.field_of_core hcore Part.flits]
  refine ⟨rfl, ?_, fun h0 => ?_, ?_⟩
  · rw [ht'.prtKept.bt port 12, hst.bt 12, (State.sendFlit_links _ _ _ _ _).words.bt port 12]
    exact State.bt_beginSwap u port _
  · rw [h0]; exact Bool.or_true _
  · unfold State.sendFlit
    rw [State.part_mod_same, List.any_append, Bool.or_eq_true]
    exact .inr (by simp)

theorem prtSwap_busy {src : Src} {v : Word} {w : Swap} (hp : s.permits port.part src (some 3) true = true)
    (hun : (s.part port.part).unlocked.contains src.cls = true) (hswap : (s.prt port.part port.num).swap = some w) :
    ((s.writeAt port.part src .prtSwap port.num 0 v).prt port.part port.num).swap = some w := by
  obtain ⟨u, t, hu, hst, ht⟩ := State.writeAt_prtSwap hp hun
  obtain ⟨-, hprt, -⟩ := hu.link src
  rw [← hprt] at hswap
  obtain ⟨-, hkept⟩ := State.requestSwap_refused (ln := fld v 1 0) (trig := 0) fun t => State.swapCode_ne_ok (dir := fld v 2 2) (at_ := t) hswap
  have hcore := ((ht.core port.part).trans (hst.core port.part)).trans (hkept.core port.part)
  rw [State.prt_congr _ _ (Part.field_of_core hcore Part.ports), hswap]

theorem recvSwapReq_taken {farDir : Fin 2} {ln : Fin 4} {block : Word} {b : Nat} {at_ : HT} (hup : s.portState port.part port.num = 6)
    (hswap : (s.prt port.part port.num).swap = none) (hcal : (s.prt port.part port.num).calibrating = false)
    (hready : s.spareReady port.part port.num (1 - farDir.val) = true)
    (hb : nearBlock (s.placeNow port.part port.num / placesPerBlock (s.strongFec port.part port.num)) block = b)
    (hat : s.blockHt port.part port.num b (s.laneLat port.part port.num (1 - farDir.val) ln) = at_) (hlead : 512000 ≤ htDiff at_ (s.ht port.part)) :
    recvSwapReq port farDir ln block true s = s.beginSwap port.part port.num ⟨1 - farDir.val, ln, b, at_, true, 0⟩ := by
  unfold recvSwapReq
  dsimp only
  rw [Bool.not_true, if_neg Bool.false_ne_true, if_neg (not_not_intro hup), hb, hat, if_neg (not_not_intro (State.swapCode_ok hup hswap hcal hready hlead))]

theorem swapReq_taken {farDir : Fin 2} {ln : Fin 4} {block : Word} {b : Nat} {at_ : HT} (hup : s.portState port.part port.num = 6)
    (hswap : (s.prt port.part port.num).swap = none) (hcal : (s.prt port.part port.num).calibrating = false)
    (hready : s.spareReady port.part port.num (1 - farDir.val) = true)
    (hb : nearBlock (s.placeNow port.part port.num / placesPerBlock (s.strongFec port.part port.num)) block = b)
    (hat : s.blockHt port.part port.num b (s.laneLat port.part port.num (1 - farDir.val) ln) = at_) (hlead : 512000 ≤ htDiff at_ (s.ht port.part)) :
    ((recvSwapReq port farDir ln block true (s.heard port true)).prt port.part port.num).swap.map
        (fun (w : Swap) => (w.dir, w.lane, w.block, w.at_, w.remote)) = some (1 - farDir.val, ln.val, b, at_, true) ∧
      (recvSwapReq port farDir ln block true (s.heard port true)).bt port.part .prtState 12 port.num = true := by
  have h := s.heard_hears port true
  rw [← h.placeNow, ← h.words.strongFec] at hb
  rw [← h.words.laneLat, ← h.blockHt] at hat
  rw [← h.ht] at hlead
  rw [recvSwapReq_taken ((h.words.portState port).trans hup) ((h.prtField PortSt.swap).trans hswap) ((h.prtField PortSt.calibrating).trans hcal)
    ((h.words.spareReady port _).trans hready) hb hat hlead, State.prt_beginSwap]
  exact ⟨rfl, State.bt_beginSwap _ port _⟩

theorem swapSwitch_ends {w : Swap} (ready : Word) (hup : s.portState port.part port.num = 6) (hswap : (s.prt port.part port.num).swap = some w)
    (hdir : w.dir = 1) (hl : w.lane < 4) :
    SwapEnded port w (s.swapLate port.part port.num w (max w.block (nearBlock w.block ready))) s (swapSwitch port ready s) := by
  unfold swapSwitch
  dsimp only
  rw [hswap]
  dsimp only
  rw [hdir, hup, if_neg (by decide)]
  have hkept := (s.reach_prtKept port.part (w.at_ + BitVec.ofNat 64 (s.swapLate port.part port.num w (max w.block (nearBlock w.block ready))))).trans
    (State.sendFlit_links _ port.part port.num (some 4) [max w.block (nearBlock w.block ready) % 2 ^ 32]).words
  exact (State.swapEnds_ended _ port _ hl).of_kept hkept

theorem recvSwapAck_ends {w : Swap} (block : Word) (hup : s.portState port.part port.num = 6) (hswap : (s.prt port.part port.num).swap = some w)
    (hdir : w.dir = 0) (hl : w.lane < 4) :
    SwapEnded port w (s.swapLate port.part port.num w (nearBlock w.block block)) s (recvSwapAck port block true (s.heard port true)) := by
  have hh := s.heard_hears port true
  have hends : recvSwapAck port block true (s.heard port true) =
      (s.heard port true).swapEnds port.part port.num w (s.swapLate port.part port.num w (nearBlock w.block block)) := by
    unfold recvSwapAck
    dsimp only
    rw [hh.prtField PortSt.swap, hswap]
    dsimp only
    rw [hdir, hh.words.portState, hup, hh.swapLate]
    rfl
  rw [hends]
  exact (State.swapEnds_ended _ port _ hl).of_kept hh.words

end

/-! ### Bulk transfers (R122, R123) -/

section
variable {n : Fin 4} {slot : Fin 16} {ty : Byte} {data : List Byte} {s : State}

theorem BulkTaken.offers (h : BulkTaken n slot ty data s) (tag : BitVec 16) (addr : BitVec 96) :
    ((bulkTransfer n slot ty tag addr data s).prt .tsu n).bulk.map (fun (b : BulkXfer) => (b.tag, b.slot, b.ty, b.addr, b.bytes)) =
      (s.prt .tsu n).bulk.map (fun (b : BulkXfer) => (b.tag, b.slot, b.ty, b.addr, b.bytes)) ++
        [(tag.toNat, slot.val, ty.toNat, addr.toNat, data.length)] := by
  obtain ⟨job, hq⟩ := h.queued tag addr
  rw [hq]
  refine (State.pump_settled _ .tsu n).2.trans ?_
  rw [State.prt_modPrt, List.map_append]
  rfl

theorem BulkTaken.frame (h : BulkTaken n slot ty data s) (tag : BitVec 16) (addr : BitVec 96) (hnone : (s.prt .tsu n).bulk = [])
    (hsent : (s.tsu.sent.any fun (f : Sent) => f.onPort n && f.xfer.isSome) = false) :
    ((bulkTransfer n slot ty tag addr data s).tsu.sent.any fun (f : Sent) => f.onPort n && f.xfer == some tag.toNat && f.frame.cls == 6 &&
      f.frame.ty == ty.toNat && f.frame.data == data.take 4096 && f.frame.fields == [addr.toNat, 0]) = true := by
  obtain ⟨job, hq⟩ := h.queued tag addr
  rw [hq]
  set u := s.modPrt .tsu n fun v => { v with bulk := v.bulk ++ [.offered tag.toNat slot ty.toNat addr.toNat job data] } with hu
  have hst : u.portState .tsu n = 6 := ((s.modPrt_prtKept .tsu n _).portState (.sl n)).trans h.up
  have hbulk : (u.prt .tsu n).bulk = [.offered tag.toNat slot ty.toNat addr.toNat job data] := by
    rw [hu, State.prt_modPrt]; exact congrArg (· ++ _) hnone
  have hsent' : u.tsu.sent = s.tsu.sent := s.field_modPrt .tsu n _ .tsu Part.sent
  have hready : u.bulkReady n = true := by
    have hnil : (u.tsu.sent.filter fun f => f.onPort n && !f.started && f.xfer.isSome) = [] := by
      rw [hsent', List.filter_eq_nil_iff]
      intro f hf
      have := List.any_eq_false.1 hsent f hf
      grind
    rw [State.bulkReady, hst, hnil]
    rfl
  have hne : data ≠ [] := fun h0 => by have := h.data.1; rw [h0] at this; exact absurd this (by decide)
  obtain ⟨g, hg, hdest, hxfer, hcls, hty, hdata, hfields⟩ := State.pump_bulk (by rw [State.linkRuns, hst]; rfl) hbulk hne hready
  refine List.any_eq_true.2 ⟨g, hg, ?_⟩
  rw [Sent.onPort, hdest, hxfer, hcls, hty, hdata, hfields]
  simp [BulkXfer.offered]

theorem bulkDone_reports {b : BulkXfer} {tag : BitVec 16}
    (h : ((s.prt .tsu n).bulk.find? fun (y : BulkXfer) => y.tag == tag.toNat && y.left == 0 && y.rest.isEmpty) = some b) :
    (bulkDone n tag.toNat s).tsu.bulkSts = s.tsu.bulkSts ++ [(n.val, tag.toNat, Code.ok)] ∧
      ((bulkDone n tag.toNat s).prt .tsu n).bulk = (s.prt .tsu n).bulk.erase b := by
  unfold bulkDone
  dsimp only
  rw [h]
  refine ⟨?_, ?_⟩
  · exact congrArg (· ++ [(n.val, tag.toNat, Code.ok)]) (s.field_setPrt .tsu n _ .tsu Part.bulkSts)
  · have hprt : (((s.setPrt .tsu n { s.prt .tsu n with bulk := (s.prt .tsu n).bulk.erase b }).bulkReport n tag.toNat .ok).prt .tsu n) =
        (s.setPrt .tsu n { s.prt .tsu n with bulk := (s.prt .tsu n).bulk.erase b }).prt .tsu n := rfl
    exact (congrArg PortSt.bulk hprt).trans (congrArg PortSt.bulk (s.prt_setPrt .tsu n _))

end

/-- Settles O17, clause by clause. -/
theorem latenciesLaneSwapsAndBulk : Obligations.LatenciesLaneSwapsAndBulk := by
  unfold Obligations.LatenciesLaneSwapsAndBulk
  refine ⟨?_, ?_, ?_, ?_, ?_, ?_, ?_, ?_, ?_, ?_, ?_, ?_⟩
  · exact fun port s hst hwait hcal hswap hunit => ⟨_, rfl, latencyCalibration_holds hst hwait hcal hswap hunit⟩
  · exact fun port s hst hwait hcal hswap hunit => ⟨_, rfl, latencyCalibration_up hst hwait hcal hswap hunit⟩
  · exact fun port tx rx l x s hcal hx => ⟨_, rfl, latencyDone_latencies hcal hx⟩
  · exact fun port src v at_ s hp hun hup hswap hcal hready ht hat => ⟨_, rfl, prtSwap_taken hp hun hup hswap hcal hready ht hat⟩
  · exact fun port src v w s hp hun hswap => ⟨_, rfl, prtSwap_busy hp hun hswap⟩
  · exact fun port farDir ln block b at_ s hup hswap hcal hready hb hat hlead => ⟨_, rfl, swapReq_taken hup hswap hcal hready hb hat hlead⟩
  · rintro port ready w m s hup hswap hdir hl rfl
    obtain ⟨hmap, hspare, hended, hhold, hstate, hstat, hlate⟩ := swapSwitch_ends ready hup hswap hdir hl
    rw [hdir] at hmap hspare
    exact ⟨_, rfl, hmap, hspare, hended, hhold, hstate, hstat, hlate⟩
  · rintro port block w m s hup hswap hdir hl rfl
    obtain ⟨hmap, hspare, hended, hhold, hstate, hstat, hlate⟩ := recvSwapAck_ends block hup hswap hdir hl
    rw [hdir] at hmap hspare
    exact ⟨_, rfl, hmap, hspare, hended, hhold, hstate, hstat, hlate⟩
  · exact fun n slot ty tag addr data s hup hopen hs1 hs2 ht1 ht2 hd1 hd2 =>
      ⟨_, rfl, BulkTaken.offers ⟨hup, hopen, ⟨hs1, hs2⟩, ⟨ht1, ht2⟩, ⟨hd1, hd2⟩⟩ tag addr⟩
  · exact fun n slot ty tag addr data s hup hopen hs1 hs2 ht1 ht2 hd1 hd2 hnone hsent =>
      ⟨_, rfl, BulkTaken.frame ⟨hup, hopen, ⟨hs1, hs2⟩, ⟨ht1, ht2⟩, ⟨hd1, hd2⟩⟩ tag addr hnone hsent⟩
  · intro n slot ty tag addr data s hup hf
    refine ⟨_, rfl, ?_⟩
    rw [bulkTransfer_fenced hup hf]
    exact ⟨rfl, rfl⟩
  · exact fun n b tag s h => ⟨_, rfl, bulkDone_reports h⟩

end Sys2Proof.Machine
end

section
/-!
PROOFS. Acknowledgement and replay (R106, R108, R109).
-/
namespace Sys2Proof.Machine
set_option Elab.async false

/-! ### Flits of a link that runs -/

theorem PrtKept.linkRuns {s t : State} (h : PrtKept s t) (port : Port) : t.linkRuns port.part port.num = s.linkRuns port.part port.num := by
  rw [State.linkRuns, State.linkRuns, h.portState]

theorem Hears.idles {port : Port} {s t : State} (h : Hears port.part port.num s t) (hs : Idles port.part port.num s) : Idles port.part port.num t :=
  ⟨by rw [h.field port.part Part.sent]; exact hs.sent, (h.prtField PortSt.calRun).trans hs.cal, by rw [h.prtField PortSt.bulk]; exact hs.bulk⟩

/-- A discarded flit or frame is counted (R100, R102). -/
theorem State.fd_protoDrop (s : State) (port : Port) : (s.protoDrop port.part port.num).fd port.part .prtCntProto 31 0 port.num =
    min (2 ^ 32 - 1) (s.fd port.part .prtCntProto 31 0 port.num + 1) := by
  rw [State.protoDrop, State.fd, State.setB, State.rd_setF_prt_other _ port 4 4 1]
  exact s.fd_bump_prt port 1

theorem State.portState_protoDrop (s : State) (port : Port) :
    (s.protoDrop port.part port.num).portState port.part port.num = s.portState port.part port.num := by
  rw [State.protoDrop, State.portState, State.fd, State.setB, State.rd_setF_prt_other _ port 4 4 1, State.bump, State.rd_setF_prt_other _ port 31 0]
  rfl

/-! ### Acknowledgement (R108) -/

section
variable (s : State) (p : PartId) (n ack : Nat) (e : Bool)

theorem State.ackSpace_prtKept : PrtKept s (s.ackSpace p n ack e) :=
  .ite (.refl s) ((s.mod_prtKept p _).trans (State.modPrt_prtKept _ p n _))

/-- The frames that an acknowledgement covers go, and no other. -/
theorem State.sent_ackSpace : ((s.ackSpace p n ack e).part p).sent = (s.part p).sent.filter fun f => !(f.inReplay n e && seqLe f.seq ack) := by
  unfold State.ackSpace
  extract_lets freed now s1
  split
  · next h =>
    refine (List.filter_eq_self.2 fun f hf => ?_).symm
    rw [Bool.not_eq_true', ← Bool.not_eq_true]
    exact List.filter_eq_nil_iff.1 (List.isEmpty_iff.1 h) f hf
  · rw [State.field_modPrt _ p n _ p Part.sent, s.part_mod_same]

theorem State.idles_ackSpace {s : State} (h : Idles p n s) : Idles p n (s.ackSpace p n ack e) := by
  have hprt : ((s.ackSpace p n ack e).prt p n).calRun = (s.prt p n).calRun ∧
      (((s.ackSpace p n ack e).prt p n).bulk.all fun b => b.rest.isEmpty) = (s.prt p n).bulk.all fun b => b.rest.isEmpty := by
    unfold State.ackSpace
    extract_lets freed now s1
    have h1 : s1.prt p n = s.prt p n := State.prt_congr p n (s.field_mod p p _ Part.ports rfl)
    split
    · exact ⟨rfl, rfl⟩
    · rw [State.prt_modPrt, h1]
      cases e <;> exact ⟨rfl, by rw [List.all_map]; rfl⟩
  refine ⟨?_, hprt.1.trans h.cal, hprt.2.trans h.bulk⟩
  rw [State.sent_ackSpace]
  exact List.any_eq_false.2 fun f hf => List.any_eq_false.1 h.sent f (List.mem_filter.1 hf).1

theorem State.acks_prtKept (ackE ackN credit : Nat) : PrtKept s (s.acks p n ackE ackN credit) := by
  unfold State.acks
  exact ((((s.pump_prtKept p n).trans (State.ackSpace_prtKept _ p n _ _)).trans (State.ackSpace_prtKept _ p n _ _)).trans
    (State.modPrt_prtKept _ p n _)).trans (State.pump_prtKept _ p n)

end

theorem State.bufUse_congr {s t : State} {p : PartId} (n : Nat) (e : Bool) (h : (t.part p).sent = (s.part p).sent) :
    t.bufUse p n e = s.bufUse p n e := by rw [State.bufUse, State.bufUse, h]

/-- With nothing waiting, an acknowledgement frees what it covers, and the credit is what it grants less what is on its way (R106, R108). -/
theorem Idles.acks {s : State} {p : PartId} {n : Nat} (h : Idles p n s) (ackE ackN credit : Nat) :
    ((s.acks p n ackE ackN credit).part p).sent = (s.part p).sent.filter (fun (f : Sent) =>
        !((f.inReplay n true && seqLe f.seq ackE) || (f.inReplay n false && seqLe f.seq ackN))) ∧
      ((s.acks p n ackE ackN credit).prt p n).credit = credit - (s.acks p n ackE ackN credit).bufUse p n false := by
  unfold State.acks
  extract_lets s1
  have h1 : Idles p n s1 := State.idles_ackSpace p n ackN false (State.idles_ackSpace p n ackE true (h.parked h.pump))
  have hsent1 : (s1.part p).sent = (s.part p).sent.filter (fun (f : Sent) =>
      !((f.inReplay n true && seqLe f.seq ackE) || (f.inReplay n false && seqLe f.seq ackN))) := by
    rw [State.sent_ackSpace, State.sent_ackSpace, h.pump.sent, List.filter_filter]
    exact List.filter_congr fun f _ => by rw [Bool.not_or, Bool.and_comm]
  have hsent : ((s1.modPrt p n fun v => { v with credit := credit - s1.bufUse p n false }).part p).sent = (s1.part p).sent :=
    State.field_modPrt _ p n _ p Part.sent
  have h2 : Idles p n (s1.modPrt p n fun v => { v with credit := credit - s1.bufUse p n false }) :=
    ⟨by rw [hsent]; exact h1.sent, by rw [State.prt_modPrt]; exact h1.cal, by rw [State.prt_modPrt]; exact h1.bulk⟩
  refine ⟨(h2.pump.sent.trans hsent).trans hsent1, ?_⟩
  rw [h2.pump.field PortSt.credit, State.prt_modPrt, State.bufUse_congr n false (h2.pump.sent.trans hsent)]

/-! ### Replay (R108, R109) -/

/-- What of a frame sent a replay is judged by. -/
def Sent.record (f : Sent) : (Dest × Nat × Nat × Nat) × Nat × Bool := ((f.dest, f.frame.cls, f.frame.ty, f.seq), f.sends, f.retx)

theorem Sent.Later.record {n : Nat} {f g : Sent} (h : f.Later n g) (hf : f.started = true ∨ f.onPort n = false) : g.record = f.record := by
  obtain ⟨hdest, -, hcls, hty, -⟩ := by simpa only [Prod.mk.injEq] using h.content
  obtain ⟨-, hseq, hsends, hretx⟩ := by simpa only [Prod.mk.injEq] using h.begun hf
  rw [Sent.record, Sent.record, hdest, hcls, hty, hseq, hsends, hretx]

/-- The records of the frames that had begun stay. -/
theorem SentLater.records {p : PartId} {n k : Nat} {s t : State} (h : SentLater p n s t) (hk : k ≤ (s.part p).sent.length)
    (hf : ∀ f ∈ (s.part p).sent.take k, f.started = true ∨ f.onPort n = false) :
    ((t.part p).sent.take k).map Sent.record = ((s.part p).sent.take k).map Sent.record := by
  refine List.ext_getElem? fun i => ?_
  rw [List.getElem?_map, List.getElem?_map, List.getElem?_take, List.getElem?_take]
  split
  · next hi =>
    have hget := List.getElem?_eq_getElem (hi.trans_le hk)
    obtain ⟨g, hg, hlater⟩ := h i _ hget
    have hmem : (s.part p).sent[i] ∈ (s.part p).sent.take k := List.mem_of_getElem? ((List.getElem?_take_of_lt hi).trans hget)
    rw [hg, hget, Option.map_some, Option.map_some, hlater.record (hf _ hmem)]
  · rfl

/-- A frame that a replay names waits to be sent once more. -/
def Sent.marked (hit : Sent → Bool) (f : Sent) : Sent := if hit f then { f with sends := f.sends + 1, retx := true, again := true } else f

/-- The frames a replay of a space from a sequence number names. -/
def Sent.named (n : Nat) (e : Bool) (from_ : Nat) (f : Sent) : Bool := f.inReplay n e && seqLe from_ f.seq

theorem Sent.named_marked (n : Nat) (e : Bool) (from_ : Nat) (f : Sent) : Sent.named n e from_ (f.marked (Sent.named n e from_)) = f.named n e from_ := by
  unfold Sent.marked
  split <;> rfl

section
variable (s : State) (p : PartId) (n : Nat) (e : Bool) (from_ : Nat)

/-- The state in which the frames named are marked, and the replay is counted. -/
def State.replayMarked : State :=
  (s.mod p fun q => { q with sent := q.sent.map (Sent.marked (Sent.named n e from_)) }).bump p .prtCntRetry 31 0 1 n

theorem State.sent_replayMarked : ((s.replayMarked p n e from_).part p).sent = (s.part p).sent.map (Sent.marked (Sent.named n e from_)) := by
  unfold State.replayMarked State.bump
  rw [Part.field_of_core (State.core_setF _ p p _ _ _ _ _ _) Part.sent, s.part_mod_same]

theorem State.any_replayMarked : ((s.replayMarked p n e from_).part p).sent.any (fun f => f.named n e from_ && decide (8 ≤ f.sends)) =
    (s.part p).sent.any fun f => f.named n e from_ && decide (7 ≤ f.sends) := by
  rw [State.sent_replayMarked, List.any_map]
  refine congrArg (List.any _) (funext fun f => ?_)
  rw [Function.comp_apply, Sent.named_marked]
  cases h : f.named n e from_ with
  | false => rfl
  | true => rw [Sent.marked, if_pos h]; exact congrArg (true && ·) (decide_eq_decide.2 (by show 8 ≤ f.sends + 1 ↔ _; omega))

theorem State.replay_eq : s.replay p n e from_ =
    if (s.part p).sent.any (fun f => f.named n e from_ && decide (7 ≤ f.sends)) = true then
      if (((s.replayMarked p n e from_).setB p .prtStat 3 n).portEvent p n 3).portState p n = 6 then
        (((s.replayMarked p n e from_).setB p .prtStat 3 n).portEvent p n 3).toDetect p n true
      else ((s.replayMarked p n e from_).setB p .prtStat 3 n).portEvent p n 3
    else (s.replayMarked p n e from_).pump p n := by
  rw [← State.any_replayMarked]
  rfl

end

/-- The frames that a replay within the limit names are sent once more, and of the others begun nothing is (R108). -/
theorem State.replay_records {s : State} {p : PartId} {n k : Nat} {e : Bool} {from_ : Nat} (hk : k ≤ (s.part p).sent.length)
    (hf : ∀ f ∈ (s.part p).sent.take k, f.started = true ∨ f.onPort n = false)
    (hlim : ((s.part p).sent.any fun f => f.named n e from_ && decide (7 ≤ f.sends)) = false) :
    (((s.replay p n e from_).part p).sent.take k).map Sent.record = ((s.part p).sent.take k).map fun f =>
      if f.named n e from_ then ((f.dest, f.frame.cls, f.frame.ty, f.seq), f.sends + 1, true) else f.record := by
  rw [s.replay_eq, hlim, if_neg Bool.false_ne_true]
  have hsent := s.sent_replayMarked p n e from_
  rw [((s.replayMarked p n e from_).pump_later p n).records (by rw [hsent, List.length_map]; exact hk), hsent, ← List.map_take, List.map_map]
  · refine List.map_congr_left fun f _ => ?_
    rw [Function.comp_apply, Sent.marked]
    split <;> rfl
  · rw [hsent, ← List.map_take]
    intro f hm
    obtain ⟨x, hx, rfl⟩ := List.mem_map.1 hm
    have := hf x hx
    unfold Sent.marked
    split <;> exact this

/-- Nothing waits: what is on the port has begun. -/
theorem Idles.begun {s : State} {p : PartId} {n : Nat} (h : Idles p n s) : ∀ f ∈ (s.part p).sent, f.started = true ∨ f.onPort n = false := by
  intro f hf
  have := List.any_eq_false.1 h.sent f hf
  cases hp : f.onPort n
  · exact .inr rfl
  · cases hs : f.started
    · rw [hp, hs] at this; exact absurd rfl this
    · exact .inl rfl

end Sys2Proof.Machine
end

section
/-!
PROOFS. Receiving a frame (R101–R103, R107, R108), flits in time (R105, R108), and the frames that hall time's advance queues.
-/
namespace Sys2Proof.Machine
set_option Elab.async false

/-! ### Frames queued as hall time advances -/

/-- Of the frames sent, some that have not started are new. -/
def Queues (p : PartId) (s t : State) : Prop := ∃ l, (t.part p).sent = (s.part p).sent ++ l ∧ ∀ f ∈ l, f.started = false

section
variable {p : PartId} {s t u : State}

theorem Queues.of_eq (h : (t.part p).sent = (s.part p).sent) : Queues p s t := ⟨[], by rw [h, List.append_nil], fun _ hf => nomatch hf⟩

theorem Queues.trans (h : Queues p s t) (k : Queues p t u) : Queues p s u := by
  obtain ⟨l, hl, hnew⟩ := h
  obtain ⟨m, hm, hnew'⟩ := k
  refine ⟨l ++ m, by rw [hm, hl, List.append_assoc], fun f hf => ?_⟩
  obtain hf | hf := List.mem_append.1 hf
  · exact hnew f hf
  · exact hnew' f hf

end

theorem State.send_queues (s : State) (p q : PartId) (d : Dest) (f : Frame) (lane : Option Nat) : Queues p s (s.send q d f lane) := by
  by_cases h : p = q
  · subst h
    exact ⟨_, by unfold State.send; rw [s.part_mod_same], fun x hx => by obtain rfl := List.mem_singleton.1 hx; rfl⟩
  · exact .of_eq (by unfold State.send; rw [s.part_mod_other _ h])

theorem State.serveDown_queues (s : State) (p q : PartId) (f : Frame) : Queues p s (s.serveDown q f) :=
  List.foldlRecOn (motive := Queues p s) _ _ (.of_eq rfl) fun t h n _ => h.trans (t.send_queues p q (.port n) f none)

theorem State.sent_wr (s : State) (p q : PartId) (n : RegName) (v : Word) (i j : Nat) : ((s.wr p n v i j).part q).sent = (s.part q).sent :=
  Part.field_of_core (s.core_wrA p q _ v) Part.sent

theorem State.sent_endReplays (s : State) (q : PartId) : (s.endReplays.part q).sent = (s.part q).sent := by
  unfold State.endReplays
  split
  · rfl
  · refine foldl_keeps (fun u : State => (u.part q).sent) (fun t _ => ?_) _ s
    have hslots (l : List (Nat × Slot)) : ({ t with slots := l } : State).part q = t.part q := by cases q <;> rfl
    dsimp only
    split
    · rfl
    · split <;> exact (State.sent_wr _ _ q _ _ _ _).trans (congrArg Part.sent (hslots _))

theorem State.endCalTerm_queues (s : State) (q : PartId) : Queues q s s.endCalTerm := by
  have hrebase (h : HT) (rate : Int) : ((s.rebase .dist h rate).part q).sent = (s.part q).sent :=
    foldl_keeps (fun u : State => (u.part q).sent) (fun u _ => u.sent_wr .dist q _ _ 0 0) _ s
  unfold State.endCalTerm
  split
  · split
    · exact (Queues.of_eq ((congrArg Part.sent (State.part_osc _ _ q)).trans (hrebase _ _))).trans (State.serveDown_queues _ q .dist _)
    · exact .of_eq rfl
  · exact .of_eq rfl

theorem State.reach_queues (s : State) (p : PartId) (target : HT) : Queues p s (s.reach p target) := by
  unfold State.reach
  split
  · exact .of_eq rfl
  · unfold State.passed
    extract_lets done s1 s2
    have h2 : Queues p s s2 := by
      refine .of_eq ?_
      unfold s2
      split
      · exact (s1.sent_wr p p _ _ _ _).trans (s.field_mod p p _ Part.sent rfl)
      · exact s.field_mod p p _ Part.sent rfl
    cases p with
    | tsu => exact h2.trans (.of_eq (s2.sent_endReplays .tsu))
    | dist => exact h2.trans (s2.endCalTerm_queues .dist)

/-! ### Flits in time -/

/-- What a flit sent leaves of its part but the flits. -/
theorem State.field_sendFlit (s : State) (p : PartId) (n : Nat) (sub : Option Nat) (fields : List Nat) (q : PartId) {α : Type} (g : Part → α)
    (hg : ∀ (x : Part) l, g { x with flits := l } = g x := by intros; rfl) : g ((s.sendFlit p n sub fields).part q) = g (s.part q) :=
  s.field_mod p q _ g (hg _ _)

theorem State.flits_sendFlit (s : State) (p : PartId) (n : Nat) (sub : Option Nat) (fields : List Nat) :
    ((s.sendFlit p n sub fields).part p).flits = (s.part p).flits ++ [⟨n, sub, fields⟩] := by
  unfold State.sendFlit; rw [s.part_mod_same]

theorem State.part_draw (s : State) (q : PartId) : s.draw.2.part q = s.part q := State.part_of_same rfl rfl q

/-- A NAK asks for the frame expected (R108). -/
theorem State.flits_sendNak (s : State) (p : PartId) (n : Nat) (e : Bool) : ((s.sendNak p n e).part p).flits =
    (s.part p).flits ++ [⟨n, some 2, [b2n e, if e then (s.prt p n).rxExp else (s.prt p n).rxNorm]⟩] := s.flits_sendFlit p n _ _

theorem State.idleFlit_shows (s : State) (p : PartId) (n : Nat) :
    (s.idleFlit p n).prt p n = s.prt p n ∧ (s.idleFlit p n).ht p = s.ht p ∧
      (((s.idleFlit p n).part p).flits.any fun (f : FlitOut) => f.port == n && f.sub == none) = true := by
  unfold State.idleFlit State.ackFields
  dsimp only
  refine ⟨?_, ?_, ?_⟩
  · exact ((State.sendFlit_links _ _ _ _ _).prt p n).trans (State.prt_congr p n (by rw [State.part_draw]))
  · exact (State.field_sendFlit _ p n _ _ p fun r => r.tb.ht).trans (by rw [State.part_draw]; rfl)
  · rw [State.flits_sendFlit, List.any_append, Bool.or_eq_true]
    exact .inr (by simp)

theorem heartbeatDue_sends {port : Port} {s : State} (h : s.linkRuns port.part port.num = true) :
    ((heartbeatDue port s).prt port.part port.num).lastIdle = (heartbeatDue port s).ht port.part ∧
      (((heartbeatDue port s).part port.part).flits.any fun (f : FlitOut) => f.port == port.num && f.sub == none) = true := by
  unfold heartbeatDue
  extract_lets p n s0 s1 v d s2
  rw [if_neg (by rw [show s.linkRuns p n = true from h]; decide)]
  obtain ⟨hprt, hht, hflit⟩ := State.idleFlit_shows (s2.modPrt p n fun w => { w with place := d + 1, express := 0, lastIdle := s2.ht p, ackDue := false }) p n
  refine ⟨?_, hflit⟩
  rw [hprt, hht, State.prt_modPrt]
  exact (s2.field_modPrt p n _ p fun r => r.tb.ht).symm

theorem ackDueFlit_sends {port : Port} {s : State} (h : s.linkRuns port.part port.num = true) (hdue : (s.prt port.part port.num).ackDue = true) :
    ((ackDueFlit port s).prt port.part port.num).ackDue = false ∧ (((ackDueFlit port s).part port.part).flits.any fun (f : FlitOut) =>
      f.port == port.num && f.sub == some 1 && f.fields.take 2 ==
        [((s.prt port.part port.num).rxExp + 65535) % 65536, ((s.prt port.part port.num).rxNorm + 65535) % 65536]) = true := by
  unfold ackDueFlit State.ackFields
  dsimp only
  rw [if_neg (by rw [h, hdue]; decide)]
  refine ⟨by rw [State.prt_modPrt], ?_⟩
  rw [State.field_modPrt _ _ _ _ _ Part.flits, State.flits_sendFlit, List.any_append, Bool.or_eq_true]
  exact .inr (by simp)

theorem nakRepeat_sends {port : Port} {e : Bool} {s : State} (h : s.linkRuns port.part port.num = true)
    (hnak : (if e then (s.prt port.part port.num).nakExp else (s.prt port.part port.num).nakNorm) = true) :
    ((nakRepeat port e s).part port.part).flits = (s.part port.part).flits ++
      [⟨port.num, some 2, [b2n e, if e then (s.prt port.part port.num).rxExp else (s.prt port.part port.num).rxNorm]⟩] := by
  unfold nakRepeat
  dsimp only
  rw [h, hnak, Bool.and_self, if_pos rfl]
  exact s.flits_sendNak _ _ e

/-! ### Receiving a frame -/

/-- A frame that is not taken is answered by a NAK, if none is outstanding (R108). -/
theorem State.rejectFrame_sends {s : State} {p : PartId} {n : Nat} {e : Bool} (hnak : (if e then (s.prt p n).nakExp else (s.prt p n).nakNorm) = false) :
    ((s.rejectFrame p n e).part p).flits = (s.part p).flits ++ [⟨n, some 2, [b2n e, if e then (s.prt p n).rxExp else (s.prt p n).rxNorm]⟩] ∧
      ((s.rejectFrame p n e).part p).delivered = (s.part p).delivered ∧ PrtKept s (s.rejectFrame p n e) := by
  unfold State.rejectFrame
  extract_lets v
  rw [if_neg (by rw [show (if e = true then v.nakExp else v.nakNorm) = false from hnak]; decide)]
  refine ⟨?_, ?_, (s.modPrt_prtKept p n _).trans (State.sendFlit_links _ _ _ _ _).words⟩
  · rw [State.flits_sendNak, s.field_modPrt p n _ p Part.flits, State.prt_modPrt]
    cases e <;> rfl
  · exact (State.field_sendFlit _ p n _ _ p Part.delivered).trans (s.field_modPrt p n _ p Part.delivered)

theorem State.rxMark_hears (s : State) (p : PartId) (n : Nat) (hdr : List Byte) : Hears p n s (s.rxMark p n hdr) := by
  unfold State.rxMark
  extract_lets cls
  split
  · exact ⟨s.modPrt_prtKept p n _, fun q => s.field_modPrt p n _ q Part.linkless, (s.prt p n).heard, (s.prt p n).markRx + 1, s.prt_modPrt p n _⟩
  · exact .refl s

/-- The servo's lane survey touches neither the ports' data nor the frames delivered (R134). -/
theorem State.field_surveyCal (s : State) (p : PartId) (n lane : Nat) (txts rxts : HT) {α : Type} (g : Part → α)
    (hg : ∀ r : Part, g { r.core with psrv := [] } = g r := by intro _; rfl) : g ((s.surveyCal p n lane txts rxts).part p) = g (s.part p) := by
  have hcore : ({ ((s.surveyCal p n lane txts rxts).part p).core with psrv := [] } : Part) = { (s.part p).core with psrv := [] } := by
    unfold State.surveyCal State.publishSurvey State.setPsrv
    extract_lets v w s1
    refine (congrArg (fun r : Part => { r with psrv := [] }) (State.core_setF _ p p _ _ _ _ _ _)).trans ?_
    refine Eq.trans ?_ (s.field_mod p p (fun r => { r with psrv := mset (fun _ => {}) r.psrv n { v with dn := v.dn.add lane (htDiff rxts txts * 256) } })
      (fun r => ({ r.core with psrv := [] } : Part)) rfl)
    exact congrArg (fun r : Part => { r with psrv := [] })
      (foldl_keeps (fun u : State => (u.part p).core) (fun u l => (State.core_wrA _ p p _ _).trans (u.core_wrA p p _ _)) _ _)
  rw [← hg, hcore, hg]

/-- A frame of the right length whose CRC is good, with its header read (R101, R103). -/
structure Sound (hdr body : List Byte) (f : Frame) (q : Nat) : Prop where
  len : body.length + 28 = 62 * ((hdr.getD 5 0).toNat + 1)
  parsed : parseFrame hdr body = (f, q)

/-- The data of a port that has taken a frame (R108). -/
def PortSt.took (v : PortSt) (e : Bool) (q : Nat) : PortSt :=
  if e then { v with rxExp := (q + 1) % 65536, nakExp := false, ackDue := true }
  else { v with rxNorm := (q + 1) % 65536, nakNorm := false, ackDue := true }

section
variable {s : State} {p : PartId} {n : Nat} {exp : Bool} {hdr body : List Byte} {f : Frame} {q : Nat} {tdec : Int} {d : Nat} {drop : Frame → Bool}

theorem State.frameIn_badCrc {crc : Word} (hrun : s.linkRuns p n = true) (hcrc : crc32 (hdr ++ body) ≠ crc) :
    s.frameIn p n exp hdr body crc tdec d drop = ((s.rxMark p n hdr).bump p .prtCntCrc 31 0 1 n).rejectFrame p n exp := by
  unfold State.frameIn
  dsimp only
  rw [if_neg (by rw [hrun]; decide), if_pos (by rw [Bool.or_eq_true, decide_eq_true_eq]; exact .inl hcrc)]

theorem Sound.good (h : Sound hdr body f q) :
    (decide (crc32 (hdr ++ body) ≠ crc32 (hdr ++ body)) || decide (body.length + 28 ≠ 62 * ((hdr.getD 5 0).toNat + 1))) = false := by
  rw [Bool.or_eq_false_iff, decide_eq_false_iff_not, decide_eq_false_iff_not]
  exact ⟨fun hne => hne rfl, fun hne => hne h.len⟩

theorem Sound.outOfSequence (h : Sound hdr body f q) (hrun : s.linkRuns p n = true)
    (hseq : (if isExpress f.cls then ((s.rxMark p n hdr).prt p n).rxExp else ((s.rxMark p n hdr).prt p n).rxNorm) ≠ q) :
    s.frameIn p n exp hdr body (crc32 (hdr ++ body)) tdec d drop = (s.rxMark p n hdr).rejectFrame p n (isExpress f.cls) := by
  unfold State.frameIn
  dsimp only
  rw [if_neg (by rw [hrun]; decide), h.good, if_neg Bool.false_ne_true, h.parsed]
  dsimp only
  rw [if_pos (Ne.symm hseq)]

/-- A CAL frame ends at the link layer (R114). -/
theorem Sound.cal (h : Sound hdr body f q) (hrun : s.linkRuns p n = true) (hgood : protoBad p f = false)
    (hseq : ((s.rxMark p n hdr).prt p n).rxExp = q) (hcls : f.cls = 1) (hty : f.ty = 0xFF) :
    (s.frameIn p n exp hdr body (crc32 (hdr ++ body)) tdec d drop).prt p n = ((s.rxMark p n hdr).prt p n).took true q ∧
      ((s.frameIn p n exp hdr body (crc32 (hdr ++ body)) tdec d drop).part p).delivered = ((s.rxMark p n hdr).part p).delivered := by
  unfold State.frameIn
  dsimp only
  rw [if_neg (by rw [hrun]; decide), h.good, if_neg Bool.false_ne_true, h.parsed]
  dsimp only
  have hexp : isExpress f.cls = true := by rw [hcls]; rfl
  have hbulk : (decide (f.cls = 6) && decide (p = .dist) && decide (256 ≤ n)) = false := by rw [hcls]; rfl
  have hcal : (decide (f.cls = 1) && decide (f.ty = 0xFF)) = true := by rw [hcls, hty]; rfl
  rw [hexp, if_pos rfl, if_neg (not_not_intro hseq.symm), hgood, if_neg Bool.false_ne_true, hbulk, if_neg Bool.false_ne_true, hcal, if_pos rfl,
    if_pos rfl]
  split
  · rw [State.prt_congr p n (State.field_surveyCal _ p n _ _ _ Part.ports), State.field_surveyCal _ p n _ _ _ Part.delivered, State.prt_setPrt,
      State.field_setPrt _ p n _ p Part.delivered]
    exact ⟨rfl, rfl⟩
  · rw [State.prt_setPrt, State.field_setPrt _ p n _ p Part.delivered]
    exact ⟨rfl, rfl⟩

/-- A STEP frame that a distributor does not drop is delivered with its time-stamp (R102, R111). -/
theorem Sound.step (h : Sound hdr body f q) (hrun : s.linkRuns p n = true) (hgood : protoBad p f = false)
    (hseq : ((s.rxMark p n hdr).prt p n).rxExp = q) (hcls : f.cls = 2) (hdrop : drop f = false) :
    ((s.frameIn p n exp hdr body (crc32 (hdr ++ body)) tdec d drop).part p).delivered = ((s.rxMark p n hdr).part p).delivered ++
        [⟨n, f, (s.rxMark p n hdr).rxStamp p n tdec d, !(s.rxMark p n hdr).bt p .prtState 15 n⟩] ∧
      (s.frameIn p n exp hdr body (crc32 (hdr ++ body)) tdec d drop).prt p n = ((s.rxMark p n hdr).prt p n).took true q := by
  unfold State.frameIn
  dsimp only
  rw [if_neg (by rw [hrun]; decide), h.good, if_neg Bool.false_ne_true, h.parsed]
  dsimp only
  have hexp : isExpress f.cls = true := by rw [hcls]; rfl
  have hbulk : (decide (f.cls = 6) && decide (p = .dist) && decide (256 ≤ n)) = false := by rw [hcls]; rfl
  have hcal : (decide (f.cls = 1) && decide (f.ty = 0xFF)) = false := by rw [hcls]; rfl
  rw [hexp, if_pos rfl, if_neg (not_not_intro hseq.symm), hgood, if_neg Bool.false_ne_true, hbulk, if_neg Bool.false_ne_true, hcal,
    if_neg Bool.false_ne_true, hdrop, if_neg Bool.false_ne_true, if_pos hcls.le, if_pos rfl]
  refine ⟨?_, ?_⟩
  · rw [State.part_mod_same, State.field_setPrt _ p n _ p Part.delivered]
  · exact (State.prt_congr p n (State.field_mod _ p p _ Part.ports rfl)).trans (State.prt_setPrt _ p n _)

end

end Sys2Proof.Machine
end

section
/-!
PROOFS. O16, clause by clause: what each of its commands does.
-/
namespace Sys2Proof.Machine
set_option Elab.async false

/-! ### Idle flits and acknowledgements (R100, R106, R108) -/

theorem State.heartbeat_noted (s : State) (n : Nat) (hb : HT) : Noted s (s.heartbeat n hb) := by
  unfold State.heartbeat
  split
  · exact .refl s
  · extract_lets v d due s1
    have h1 : Noted s s1 := State.outside_noted
    exact .ite (.refl s) (.ite (h1.trans (State.jnl_noted _ _ _ _)) h1)

/-- A port that hears its far end runs its link as before (R305). -/
theorem State.linkRuns_heard (s : State) (port : Port) (good : Bool) :
    (s.heard port good).linkRuns port.part port.num = s.linkRuns port.part port.num := (s.heard_hears port good).words.linkRuns port

section
variable {port : Port} {s : State}

theorem recvIdle_spare {hb : HT} {ackE ackN credit : Nat} {spare : Bool} (hrun : s.linkRuns port.part port.num = true) :
    (recvIdle port ackE ackN credit spare true (s.heard port true)).bt port.part .prtState 13 port.num = spare ∧
      ((recvIdle port ackE ackN credit spare true (s.heard port true)).heartbeat port.num hb).bt port.part .prtState 13 port.num = spare := by
  have hspare : (recvIdle port ackE ackN credit spare true (s.heard port true)).bt port.part .prtState 13 port.num = spare := by
    unfold recvIdle
    dsimp only
    rw [Bool.not_true, if_neg Bool.false_ne_true, s.linkRuns_heard, hrun, Bool.not_true, if_neg Bool.false_ne_true,
      (State.acks_prtKept _ _ _ _ _ _).bt port 13, State.bt_setF_prt _ port 13 13 _ 13, if_pos ⟨le_rfl, le_rfl⟩]
    cases spare <;> rfl
  exact ⟨hspare, ((State.heartbeat_noted _ _ _).words.bt port 13).trans hspare⟩

theorem recvAck_frees {ackE ackN credit : Nat} (hrun : s.linkRuns port.part port.num = true) (hidle : Idles port.part port.num s) :
    ((recvAck port ackE ackN credit true (s.heard port true)).part port.part).sent =
        (s.part port.part).sent.filter (fun (f : Sent) =>
          !((f.inReplay port.num true && seqLe f.seq ackE) || (f.inReplay port.num false && seqLe f.seq ackN))) ∧
      ((recvAck port ackE ackN credit true (s.heard port true)).prt port.part port.num).credit =
        credit - (recvAck port ackE ackN credit true (s.heard port true)).bufUse port.part port.num false := by
  have hh := s.heard_hears port true
  have hacks : recvAck port ackE ackN credit true (s.heard port true) = (s.heard port true).acks port.part port.num ackE ackN credit := by
    unfold recvAck
    dsimp only
    rw [s.linkRuns_heard, hrun]
    rfl
  rw [hacks, ← hh.field port.part Part.sent]
  exact (hh.idles hidle).acks ackE ackN credit

/-! ### Replay (R108, R109) -/

/-- The state that a NAK replays from, when nothing waits. -/
def State.abandoned (s : State) (port : Port) (e : Bool) : State :=
  ((s.heard port true).pump port.part port.num).modPrt port.part port.num fun v => if e then { v with express := 0 } else { v with normal := 0 }

theorem recvNak_replays {e : Bool} (seq : BitVec 16) (hrun : s.linkRuns port.part port.num = true) :
    recvNak port e seq.toNat true (s.heard port true) = (s.abandoned port e).replay port.part port.num e seq.toNat := by
  unfold recvNak
  dsimp only
  rw [s.linkRuns_heard, hrun, Nat.mod_eq_of_lt seq.isLt]
  rfl

theorem Idles.abandoned {e : Bool} (h : Idles port.part port.num s) : ((s.abandoned port e).part port.part).sent = (s.part port.part).sent := by
  have hh := s.heard_hears port true
  unfold State.abandoned
  rw [State.field_modPrt _ _ _ _ port.part Part.sent, (hh.idles h).pump.sent, hh.field port.part Part.sent]

theorem State.abandoned_prtKept (s : State) (port : Port) (e : Bool) : PrtKept s (s.abandoned port e) :=
  ((s.heard_hears port true).words.trans (State.pump_prtKept _ _ _)).trans (State.modPrt_prtKept _ _ _ _)

theorem recvNak_records {e : Bool} {seq : BitVec 16} (hrun : s.linkRuns port.part port.num = true) (hidle : Idles port.part port.num s)
    (hlim : ((s.part port.part).sent.any fun (f : Sent) => f.named port.num e seq.toNat && decide (7 ≤ f.sends)) = false) :
    (((recvNak port e seq.toNat true (s.heard port true)).part port.part).sent.take (s.part port.part).sent.length).map Sent.record =
      (s.part port.part).sent.map fun (f : Sent) =>
        if f.named port.num e seq.toNat then ((f.dest, f.frame.cls, f.frame.ty, f.seq), f.sends + 1, true) else f.record := by
  rw [recvNak_replays seq hrun]
  have hsent := hidle.abandoned (e := e)
  have h := State.replay_records (s := s.abandoned port e) (p := port.part) (n := port.num) (k := (s.part port.part).sent.length) (e := e)
    (from_ := seq.toNat) (by rw [hsent]) (by rw [hsent, List.take_length]; exact hidle.begun) (by rw [hsent]; exact hlim)
  rwa [hsent, List.take_length] at h

/-- A frame that would be sent for the 8th time retrains the port (R108). -/
theorem State.replay_limit {e : Bool} {from_ : Nat} (hup : s.portState port.part port.num = 6)
    (hlim : ((s.part port.part).sent.any fun (f : Sent) => f.named port.num e from_ && decide (7 ≤ f.sends)) = true) :
    (s.replay port.part port.num e from_).portState port.part port.num = 1 ∧
      (s.replay port.part port.num e from_).bt port.part .prtStat 3 port.num = true := by
  have hevent := ((s.replayMarked port.part port.num e from_).setB port.part .prtStat 3 port.num).portEvent_noted port.part port.num 3
  have hstate : (((s.replayMarked port.part port.num e from_).setB port.part .prtStat 3 port.num).portEvent port.part port.num 3).portState port.part
      port.num = 6 := by
    rw [hevent.words.portState, State.portState, State.fd, State.setB, State.rd_setF_prt_other _ port 3 3 1, State.replayMarked, State.bump,
      State.rd_setF_prt_other _ port 31 0]
    exact ((s.mod_prtKept _ _).portState port).trans hup
  rw [s.replay_eq, if_pos hlim, if_pos hstate]
  obtain ⟨hdetect, hstat⟩ := State.toDetect_detects (((s.replayMarked port.part port.num e from_).setB port.part .prtStat 3 port.num).portEvent port.part
    port.num 3) port true
  exact ⟨hdetect, (hstat 3 (by decide)).trans ((hevent.words.bt port 3).trans (State.bt_setB_prt _ port 3))⟩

theorem recvNak_limit {e : Bool} {seq : BitVec 16} (hup : s.portState port.part port.num = 6) (hidle : Idles port.part port.num s)
    (hlim : ((s.part port.part).sent.any fun (f : Sent) => f.named port.num e seq.toNat && decide (7 ≤ f.sends)) = true) :
    (recvNak port e seq.toNat true (s.heard port true)).portState port.part port.num = 1 ∧
      (recvNak port e seq.toNat true (s.heard port true)).bt port.part .prtStat 3 port.num = true := by
  rw [recvNak_replays seq (by rw [State.linkRuns, hup]; rfl)]
  exact State.replay_limit (((s.abandoned_prtKept port e).portState port).trans hup) (by rw [hidle.abandoned]; exact hlim)

theorem replayTimeout_records {e : Bool} {g : Sent} (hrun : s.linkRuns port.part port.num = true) (hidle : Idles port.part port.num s)
    (hold : ((s.part port.part).sent.find? fun (f : Sent) => f.inReplay port.num e) = some g)
    (hlim : ((s.part port.part).sent.any fun (f : Sent) => f.named port.num e g.seq && decide (7 ≤ f.sends)) = false) :
    (((replayTimeout port e s).part port.part).sent.take (s.part port.part).sent.length).map Sent.record =
      (s.part port.part).sent.map fun (f : Sent) =>
        if f.named port.num e g.seq then ((f.dest, f.frame.cls, f.frame.ty, f.seq), f.sends + 1, true) else f.record := by
  unfold replayTimeout
  extract_lets p n s1
  have hsent1 : (s1.part p).sent = (s.part p).sent := hidle.pump.sent
  rw [if_neg (by rw [show s.linkRuns p n = true from hrun]; decide), hsent1]
  rw [show ((s.part p).sent.find? fun (f : Sent) => f.inReplay n e) = some g from hold]
  dsimp only
  set s2 := s1.reach p ((if e = true then (s1.prt p n).advExp else (s1.prt p n).advNorm) + if s1.strongFec p n = true then 4096000 else 1024000)
  set s3 := s2.modPrt p n fun w => if e = true then { w with advExp := s2.ht p } else { w with advNorm := s2.ht p }
  obtain ⟨l, hl, hnew⟩ := s1.reach_queues p ((if e = true then (s1.prt p n).advExp else (s1.prt p n).advNorm) +
    if s1.strongFec p n = true then 4096000 else 1024000)
  have hsent : (s3.part p).sent = (s.part p).sent ++ l := (s2.field_modPrt p n _ p Part.sent).trans (by rw [hl, hsent1])
  have htake : (s3.part p).sent.take (s.part p).sent.length = (s.part p).sent := by rw [hsent, List.take_left']; rfl
  have hnone : (l.any fun (f : Sent) => f.named n e g.seq && decide (7 ≤ f.sends)) = false := List.any_eq_false.2 fun f hf => by
    rw [Sent.named, Sent.inReplay, hnew f hf, Bool.and_false, Bool.false_and, Bool.false_and, Bool.false_and]
    exact Bool.false_ne_true
  have h := State.replay_records (s := s3) (p := p) (n := n) (k := (s.part p).sent.length) (e := e) (from_ := g.seq)
    (by rw [hsent, List.length_append]; omega) (by rw [htake]; exact hidle.begun) (by rw [hsent, List.any_append, hnone, Bool.or_false]; exact hlim)
  rwa [htake] at h

/-! ### Retraining and discarded flits (R100, R116) -/

theorem recvRetrain_detects (hup : s.portState port.part port.num = 6) :
    (recvRetrain port 6 true (s.heard port true)).portState port.part port.num = 1 := by
  have hretrain : recvRetrain port 6 true (s.heard port true) = (s.heard port true).toDetect port.part port.num true := by
    unfold recvRetrain
    dsimp only
    rw [(s.heard_hears port true).words.portState, hup]
    rfl
  rw [hretrain]
  exact (State.toDetect_detects _ port true).1

theorem recvRetrain_drops {sub : Byte} {good : Bool} (h : good = false ∨ sub = 0 ∨ 6 < sub.toNat) :
    (recvRetrain port sub good (s.heard port good)).fd port.part .prtCntProto 31 0 port.num =
        min (2 ^ 32 - 1) (s.fd port.part .prtCntProto 31 0 port.num + 1) ∧
      (recvRetrain port sub good (s.heard port good)).portState port.part port.num = s.portState port.part port.num := by
  have hh := (s.heard_hears port good).words
  have hdrop : (!good || decide (sub = 0) || decide (6 < sub.toNat)) = true := by
    obtain h | h | h := h
    · rw [h]; rfl
    · rw [h]; simp
    · rw [decide_eq_true h, Bool.or_true]
  unfold recvRetrain
  dsimp only
  rw [if_pos hdrop, State.fd_protoDrop, State.portState_protoDrop, hh.fd port 31 0, hh.portState]
  exact ⟨rfl, rfl⟩

/-! ### Frames (R101–R103, R107, R108) -/

theorem State.nodeContributed_noted (s : State) (n : Nat) : Noted s (s.nodeContributed n) :=
  .ite (.refl s) (Noted.trans State.outside_noted (State.nodeRevive_noted _ _))

/-- What the link layer receives of a frame. -/
def State.linkIn (s : State) (port : Port) (e : Bool) (hdr body : List Byte) (crc : Word) (tdec : Int) (place : Nat) : State :=
  (s.heard port (crc32 (hdr ++ body) == crc)).frameIn port.part port.num e hdr body crc tdec place
    fun f => decide (port.part = .dist) && s.fencedDrop port.num f.cls f.ty

/-- What a detector makes of a frame changes nothing of the links. -/
theorem frameArrives_noted (s : State) (port : Port) (e : Bool) (hdr body : List Byte) (crc : Word) (tdec : Int) (place : Nat) :
    Noted (s.linkIn port e hdr body crc tdec place) (frameArrives port e hdr body crc tdec place s) := by
  unfold frameArrives
  extract_lets p n s1 s2
  refine .ite ?_ (.refl s2)
  split
  · exact .ite (s2.nodeContributed_noted n) (.refl s2)
  · exact .refl s2

theorem PrtKept.rxStamp {t : State} (h : PrtKept s t) (port : Port) (tdec : Int) (d : Nat) :
    t.rxStamp port.part port.num tdec d = s.rxStamp port.part port.num tdec d := by
  have hlane : t.rxLane port.part port.num d = s.rxLane port.part port.num d := by
    rw [State.rxLane, State.rxLane, h.fd port 30 16, h.strongFec]
  have hlt : s.rxLane port.part port.num d < 8 := mapLane_lt _ _
  unfold State.rxStamp
  dsimp only
  rw [h.strongFec, hlane, h.fd port 15 0 (isPrt_lat hlt).2]

section
variable {e : Bool} {hdr body : List Byte} {crc : Word} {tdec : Int} {place : Nat} {f : Frame} {q : Nat}

/-- The port before a frame with a good CRC is judged. -/
theorem State.heardMarked (s : State) (port : Port) (good : Bool) (hdr : List Byte) :
    Hears port.part port.num s ((s.heard port good).rxMark port.part port.num hdr) :=
  (s.heard_hears port good).trans (State.rxMark_hears _ _ _ hdr)

theorem frameArrives_cal (h : Sound hdr body f q) (hrun : s.linkRuns port.part port.num = true) (hgood : protoBad port.part f = false)
    (hseq : (s.prt port.part port.num).rxExp = q) (hcls : f.cls = 1) (hty : f.ty = 0xFF) :
    ((frameArrives port e hdr body (crc32 (hdr ++ body)) tdec place s).prt port.part port.num).rxExp = (q + 1) % 65536 ∧
      ((frameArrives port e hdr body (crc32 (hdr ++ body)) tdec place s).prt port.part port.num).ackDue = true ∧
      ((frameArrives port e hdr body (crc32 (hdr ++ body)) tdec place s).part port.part).delivered = (s.part port.part).delivered := by
  have hn := frameArrives_noted s port e hdr body (crc32 (hdr ++ body)) tdec place
  have hm := s.heardMarked port (crc32 (hdr ++ body) == crc32 (hdr ++ body)) hdr
  obtain ⟨hprt, hdel⟩ := h.cal (exp := e) (tdec := tdec) (d := place) (drop := fun f => decide (port.part = .dist) && s.fencedDrop port.num f.cls f.ty)
    ((s.linkRuns_heard port _).trans hrun) hgood ((hm.prtField PortSt.rxExp).trans hseq) hcls hty
  rw [hn.links.prt, State.linkIn, hprt, hn.field port.part Part.delivered, State.linkIn, hdel, hm.field port.part Part.delivered]
  exact ⟨rfl, rfl, rfl⟩

theorem frameArrives_step (h : Sound hdr body f q) (hrun : s.linkRuns port.part port.num = true) (hgood : protoBad port.part f = false)
    (hseq : (s.prt port.part port.num).rxExp = q) (hcls : f.cls = 2) (hdrop : s.fencedDrop port.num f.cls f.ty = false) :
    ((frameArrives port e hdr body (crc32 (hdr ++ body)) tdec place s).part port.part).delivered = (s.part port.part).delivered ++
        [⟨port.num, f, s.rxStamp port.part port.num tdec place, !s.bt port.part .prtState 15 port.num⟩] ∧
      ((frameArrives port e hdr body (crc32 (hdr ++ body)) tdec place s).prt port.part port.num).rxExp = (q + 1) % 65536 := by
  have hn := frameArrives_noted s port e hdr body (crc32 (hdr ++ body)) tdec place
  have hm := s.heardMarked port (crc32 (hdr ++ body) == crc32 (hdr ++ body)) hdr
  obtain ⟨hdel, hprt⟩ := h.step (exp := e) (tdec := tdec) (d := place) (drop := fun f => decide (port.part = .dist) && s.fencedDrop port.num f.cls f.ty)
    ((s.linkRuns_heard port _).trans hrun) hgood ((hm.prtField PortSt.rxExp).trans hseq) hcls (by rw [hdrop, Bool.and_false])
  rw [hn.links.prt, State.linkIn, hprt, hn.field port.part Part.delivered, State.linkIn, hdel, hm.field port.part Part.delivered, hm.words.rxStamp,
    hm.words.bt port 15]
  exact ⟨rfl, rfl⟩

theorem frameArrives_badCrc (hrun : s.linkRuns port.part port.num = true) (hcrc : crc32 (hdr ++ body) ≠ crc)
    (hnak : (if e then (s.prt port.part port.num).nakExp else (s.prt port.part port.num).nakNorm) = false) :
    ((frameArrives port e hdr body crc tdec place s).part port.part).flits = (s.part port.part).flits ++
        [⟨port.num, some 2, [b2n e, if e then (s.prt port.part port.num).rxExp else (s.prt port.part port.num).rxNorm]⟩] ∧
      ((frameArrives port e hdr body crc tdec place s).part port.part).delivered = (s.part port.part).delivered ∧
      (frameArrives port e hdr body crc tdec place s).fd port.part .prtCntCrc 31 0 port.num =
        min (2 ^ 32 - 1) (s.fd port.part .prtCntCrc 31 0 port.num + 1) := by
  have hn := frameArrives_noted s port e hdr body crc tdec place
  have hm := s.heardMarked port (crc32 (hdr ++ body) == crc) hdr
  set u := (s.heard port (crc32 (hdr ++ body) == crc)).rxMark port.part port.num hdr
  have hin : s.linkIn port e hdr body crc tdec place = (u.bump port.part .prtCntCrc 31 0 1 port.num).rejectFrame port.part port.num e :=
    State.frameIn_badCrc ((s.linkRuns_heard port _).trans hrun) hcrc
  have hcore : ((u.bump port.part .prtCntCrc 31 0 1 port.num).part port.part).core = (u.part port.part).core := State.core_setF _ _ _ _ _ _ _ _ _
  have hprt : (u.bump port.part .prtCntCrc 31 0 1 port.num).prt port.part port.num = u.prt port.part port.num :=
    State.prt_congr _ _ (Part.field_of_core hcore Part.ports)
  obtain ⟨hflits, hdel, hwords⟩ := State.rejectFrame_sends (s := u.bump port.part .prtCntCrc 31 0 1 port.num) (p := port.part) (n := port.num) (e := e)
    (by rw [hprt, hm.prtField PortSt.nakExp, hm.prtField PortSt.nakNorm]; exact hnak)
  rw [hin] at hn
  refine ⟨?_, ?_, ?_⟩
  · rw [hn.field port.part Part.flits, hflits, Part.field_of_core hcore Part.flits, hm.field port.part Part.flits, hprt, hm.prtField PortSt.rxExp,
      hm.prtField PortSt.rxNorm]
  · rw [hn.field port.part Part.delivered, hdel, Part.field_of_core hcore Part.delivered, hm.field port.part Part.delivered]
  · rw [hn.words.fd port 31 0, hwords.fd port 31 0, u.fd_bump_prt port 1, hm.words.fd port 31 0]

theorem frameArrives_outOfSequence (h : Sound hdr body f q) (hrun : s.linkRuns port.part port.num = true) (hcls : isExpress f.cls = e)
    (hseq : (if e then (s.prt port.part port.num).rxExp else (s.prt port.part port.num).rxNorm) ≠ q)
    (hnak : (if e then (s.prt port.part port.num).nakExp else (s.prt port.part port.num).nakNorm) = false) :
    ((frameArrives port e hdr body (crc32 (hdr ++ body)) tdec place s).part port.part).flits = (s.part port.part).flits ++
        [⟨port.num, some 2, [b2n e, if e then (s.prt port.part port.num).rxExp else (s.prt port.part port.num).rxNorm]⟩] ∧
      ((frameArrives port e hdr body (crc32 (hdr ++ body)) tdec place s).part port.part).delivered = (s.part port.part).delivered := by
  have hn := frameArrives_noted s port e hdr body (crc32 (hdr ++ body)) tdec place
  have hm := s.heardMarked port (crc32 (hdr ++ body) == crc32 (hdr ++ body)) hdr
  set u := (s.heard port (crc32 (hdr ++ body) == crc32 (hdr ++ body))).rxMark port.part port.num hdr
  have hin : s.linkIn port e hdr body (crc32 (hdr ++ body)) tdec place = u.rejectFrame port.part port.num (isExpress f.cls) :=
    h.outOfSequence ((s.linkRuns_heard port _).trans hrun)
      (by rw [hcls, hm.prtField PortSt.rxExp, hm.prtField PortSt.rxNorm]; exact hseq)
  rw [hcls] at hin
  obtain ⟨hflits, hdel, -⟩ := State.rejectFrame_sends (s := u) (p := port.part) (n := port.num) (e := e)
    (by rw [hm.prtField PortSt.nakExp, hm.prtField PortSt.nakNorm]; exact hnak)
  rw [hin] at hn
  refine ⟨?_, ?_⟩
  · rw [hn.field port.part Part.flits, hflits, hm.field port.part Part.flits, hm.prtField PortSt.rxExp, hm.prtField PortSt.rxNorm]
  · rw [hn.field port.part Part.delivered, hdel, hm.field port.part Part.delivered]

end

end

/-- Settles O16, clause by clause. -/
theorem framesAcknowledgedAndReplayed : Obligations.FramesAcknowledgedAndReplayed := by
  unfold Obligations.FramesAcknowledgedAndReplayed
  refine ⟨?_, ?_, ?_, ?_, ?_, ?_, ?_, ?_, ?_, ?_, ?_, ?_, ?_, ?_, ?_⟩
  · intro port hb ackE ackN credit spare s hrun
    obtain ⟨hspare, hbeat⟩ := recvIdle_spare (hb := hb) (ackE := ackE.toNat) (ackN := ackN.toNat) (credit := credit.toNat) (spare := spare) hrun
    refine ⟨_, rfl, ?_⟩
    dsimp only
    split
    · exact hbeat
    · exact hspare
  · exact fun port hb ackE ackN credit spare s => ⟨_, rfl, s.fd_protoDrop port⟩
  · exact fun port ackE ackN credit s hrun hwait hcal hbulk => ⟨_, rfl, recvAck_frees hrun ⟨hwait, hcal, hbulk⟩⟩
  · exact fun port e seq s hrun hwait hcal hbulk hlim => ⟨_, rfl, recvNak_records hrun ⟨hwait, hcal, hbulk⟩ hlim⟩
  · exact fun port e seq s hup hwait hcal hbulk hlim => ⟨_, rfl, recvNak_limit hup ⟨hwait, hcal, hbulk⟩ hlim⟩
  · exact fun port s hup => ⟨_, rfl, recvRetrain_detects hup⟩
  · exact fun port sub crcOk s h => ⟨_, rfl, recvRetrain_drops h⟩
  · exact fun port e hdr body tdec place f q s hrun hlen hparse hgood hseq hcls hty =>
      ⟨_, rfl, frameArrives_cal ⟨hlen, hparse⟩ hrun hgood hseq hcls hty⟩
  · exact fun port e hdr body tdec place f q s hrun hlen hparse hgood hseq hcls _ hdrop =>
      ⟨_, rfl, frameArrives_step ⟨hlen, hparse⟩ hrun hgood hseq hcls hdrop⟩
  · exact fun port e hdr body crc tdec place s hrun hcrc hnak => ⟨_, rfl, frameArrives_badCrc hrun hcrc hnak⟩
  · exact fun port e hdr body tdec place f q s hrun hlen hparse hcls hseq hnak =>
      ⟨_, rfl, frameArrives_outOfSequence ⟨hlen, hparse⟩ hrun hcls hseq hnak⟩
  · exact fun port s hrun => ⟨_, rfl, heartbeatDue_sends hrun⟩
  · exact fun port s hrun hdue => ⟨_, rfl, ackDueFlit_sends hrun hdue⟩
  · exact fun port e s hrun hnak => ⟨_, rfl, nakRepeat_sends hrun hnak⟩
  · exact fun port e g s hrun hwait hcal hbulk hold hlim => ⟨_, rfl, replayTimeout_records hrun ⟨hwait, hcal, hbulk⟩ hold hlim⟩

end Sys2Proof.Machine
end

section
/-!
PROOFS. The registers of the keepers' block (R158, R159, R162, R165): where they lie, what they read as when one of them is written, and the
operations that write none of them.
-/
namespace Sys2Proof.Machine
set_option Elab.async false

/-! ### Where the words lie -/

/-- A register of the block, and one of its members. -/
abbrev IsKpr (n : RegName) (j : Nat) : Prop := (row n).grp = .kpr ∧ j < (row n).n

/-- A word of the block. -/
def KprWord (a : Nat) : Prop := 0x60000 ≤ a ∧ a < 0x60068

/-- The registers lie within the block, one after another. -/
theorem kprRows {n : RegName} (hg : (row n).grp = .kpr) : (row n).stride = 4 ∧ (row n).off + 4 * (row n).n ≤ 0x68 ∧
    ∀ m ∈ names_kpr, m ≠ n → (row n).off + 4 * (row n).n ≤ (row m).off ∨ (row m).off + 4 * (row m).n ≤ (row n).off := by
  revert hg; cases n <;> decide

theorem mem_names_kpr {n : RegName} (hg : (row n).grp = .kpr) : n ∈ names_kpr := by
  revert hg; cases n <;> decide

section
variable {n m : RegName} {i j : Nat}

theorem addrOf_kpr (hg : (row n).grp = .kpr) (j : Nat) : addrOf .tsu n 0 j = 0x60000 + (row n).off + 4 * j := by
  rw [addrOf, hg, (kprRows hg).1]; rfl

theorem addrOf_kprWord (h : IsKpr n j) : KprWord (addrOf .tsu n 0 j) := by
  obtain ⟨-, hoff, -⟩ := kprRows h.1
  have := h.2
  rw [addrOf_kpr h.1, KprWord]; omega

theorem addrOf_kpr_ne (hn : IsKpr n i) (hm : IsKpr m j) (h : m ≠ n) : addrOf .tsu m 0 j ≠ addrOf .tsu n 0 i := by
  obtain ⟨hgn, hi⟩ := hn
  obtain ⟨hgm, hj⟩ := hm
  obtain ⟨-, -, hapart⟩ := kprRows hgn
  have := hapart m (mem_names_kpr hgm) h
  rw [addrOf_kpr hgn, addrOf_kpr hgm]
  omega

/-! ### A register after one of the block is written -/

variable (s : State)

theorem State.rd_wr_kpr_same (v : Word) (hn : IsKpr n i := by decide) : (s.wr .tsu n v 0 i).rd .tsu n 0 i = v := by
  have := (addrOf_kprWord hn).2
  exact s.rd_wr_same .tsu n v 0 i (by omega)

/-- A field after it has been set, -/
theorem State.fd_setF_kpr (hi lo v : Nat) (hn : IsKpr n 0 := by decide) (hle : lo ≤ hi + 1 := by decide) (h32 : hi < 32 := by decide) :
    (s.setF .tsu n hi lo v).fd .tsu n hi lo = v % 2 ^ (hi + 1 - lo) := by
  rw [State.fd, State.setF, s.rd_wr_kpr_same _ hn, fld_setFld_same _ _ _ _ hle h32]

/-- and a bit, which an event sets and leaves set. -/
theorem State.bt_setB_kpr (b c : Nat) (hn : IsKpr n 0 := by decide) (h32 : b < 32 := by decide) :
    (s.setB .tsu n b).bt .tsu n c = (decide (c = b) || s.bt .tsu n c) := by
  rw [State.bt, State.setB, State.setF, s.rd_wr_kpr_same _ hn, getLsbD_setFld _ _ _ _ _ (by omega) h32]
  by_cases hc : c = b
  · subst hc; simp
  · rw [if_neg (by omega), decide_eq_false hc, Bool.false_or, State.bt]

end

/-! ### What leaves the registers alone -/

/-- No register of the block but those named has changed. -/
def KprRegs (ns : List RegName) (s t : State) : Prop := ∀ m j, m ∉ ns → IsKpr m j → t.rd .tsu m 0 j = s.rd .tsu m 0 j

section
variable {ns ms : List RegName} {s t u : State}

theorem KprRegs.refl (ns : List RegName) (s : State) : KprRegs ns s s := fun _ _ _ _ => rfl

theorem KprRegs.trans (h : KprRegs ns s t) (k : KprRegs ns t u) : KprRegs ns s u :=
  fun m j hm hk => (k m j hm hk).trans (h m j hm hk)

theorem KprRegs.mono (h : KprRegs ns s t) (hs : ns ⊆ ms := by simp) : KprRegs ms s t := fun m j hm hk => h m j (fun hn => hm (hs hn)) hk

theorem KprRegs.rd (h : KprRegs ns s t) (m : RegName) (j : Nat := 0) (hm : m ∉ ns := by decide) (hk : IsKpr m j := by decide) :
    t.rd .tsu m 0 j = s.rd .tsu m 0 j := h m j hm hk

theorem KprRegs.fd (h : KprRegs ns s t) (m : RegName) (hi lo : Nat) (j : Nat := 0) (hm : m ∉ ns := by decide) (hk : IsKpr m j := by decide) :
    t.fd .tsu m hi lo 0 j = s.fd .tsu m hi lo 0 j := congrArg (fld · hi lo) (h m j hm hk)

theorem KprRegs.bt (h : KprRegs ns s t) (m : RegName) (b : Nat) (hm : m ∉ ns := by decide) (hk : IsKpr m 0 := by decide) :
    t.bt .tsu m b = s.bt .tsu m b := congrArg (BitVec.getLsbD · b) (h m 0 hm hk)

/-- The sizes of the branches, and with them the keepers' indices. -/
theorem KprRegs.kprBase (h : KprRegs ns s t) {b : Nat} (hb : b ≤ 4) (hm : RegName.kprRing ∉ ns := by decide) : t.kprBase b = s.kprBase b := by
  unfold State.kprBase
  congr 1
  exact List.map_congr_left fun j hj => h.fd .kprRing 6 0 j hm ⟨rfl, (List.mem_range.1 hj).trans_le hb⟩

end

section
variable (s : State)

/-- A change outside the TSU's registers. -/
theorem kprRegs_of_regs {s t : State} (h : t.tsu.regs = s.tsu.regs := by rfl) : KprRegs [] s t := fun m j _ _ => by
  show mget _ t.tsu.regs _ = mget _ s.tsu.regs _
  rw [h]

theorem State.wr_kprRegs (n : RegName) (v : Word) (i : Nat := 0) (hn : IsKpr n i := by decide) : KprRegs [n] s (s.wr .tsu n v 0 i) :=
  fun _ _ hm hk => s.rdA_wr_other n v 0 i (.inr (addrOf_kpr_ne hn hk fun heq => hm (by simp [heq])))

theorem State.setF_kprRegs (n : RegName) (hi lo v : Nat) (hn : IsKpr n 0 := by decide) : KprRegs [n] s (s.setF .tsu n hi lo v) :=
  s.wr_kprRegs n _ 0 hn

theorem State.setB_kprRegs (n : RegName) (b : Nat) (hn : IsKpr n 0 := by decide) : KprRegs [n] s (s.setB .tsu n b) := s.setF_kprRegs n b b 1 hn

/-- The words that bookkeeping writes are not of the block. -/
theorem bookWords_not_kpr (c : Cls) : ∀ a ∈ bookWords .tsu c, ¬KprWord a := by
  unfold KprWord
  cases c <;> decide

theorem Books.kprRegs {c : Cls} {s t : State} (h : Books .tsu c s t) : KprRegs [] s t :=
  fun _ _ _ hk => h.rdA (fun hb => bookWords_not_kpr c _ hb (addrOf_kprWord hk)) .tsu

theorem Books.kc {p : PartId} {c : Cls} {s t : State} (h : Books p c s t) : t.kc = s.kc := h.outside.field State.kc

theorem State.jnl_kprRegs (w : Who) (ty payload : Nat) (hw : w.p = .tsu) : KprRegs [] s (s.jnl w ty payload) := by
  have := s.jnlAt_books w .host (s.ht w.p) ty payload
  rw [hw] at this
  exact Books.kprRegs (by rw [State.jnl, hw]; exact this)

theorem State.kc_jnl (w : Who) (ty payload : Nat) : (s.jnl w ty payload).kc = s.kc := (s.jnl_onlyParts w ty payload).field State.kc

theorem State.keeperRec_kprRegs (c i k : Nat) : KprRegs [] s (s.keeperRec c i k) := s.jnl_kprRegs _ _ _ rfl

theorem State.kc_keeperRec (c i k : Nat) : (s.keeperRec c i k).kc = s.kc := s.kc_jnl _ _ _

theorem State.trigRec_kprRegs (tile jctx kind out i : Nat) (c : Code) (g : HT) (late : Nat) :
    KprRegs [] s (s.trigRec .tsu tile jctx kind out i c g late) := s.jnl_kprRegs _ _ _ rfl

/-- Nor are those that time passing writes. -/
theorem State.reach_kprRegs (target : HT) : KprRegs [] s (s.reach .tsu target) := fun m j _ hk =>
  s.rdA_reach target (.inr fun hp => by
    have : ∀ a ∈ passWords .tsu, ¬KprWord a := by unfold KprWord; decide
    exact this _ hp (addrOf_kprWord hk))

end

end Sys2Proof.Machine
end

section
/-!
PROOFS. The keepers' ring (R160, R161): frames that join a sender's, what a receiver makes of a frame, and a resend.
-/
namespace Sys2Proof.Machine
set_option Elab.async false

/-! ### Frames that join a sender's -/

/-- The keepers' and the core's data without the ring's. -/
def KeeperCore.offRing (k : KeeperCore) : KeeperCore := { k with ring := [], hops := [] }

/-- Of the keepers' and the core's data only the ring's has changed, and nothing else. -/
structure OnlyRing (s t : State) : Prop where
  only : OnlyKc s t
  rest : t.kc.offRing = s.kc.offRing

/-- Frames have joined those of the ring's senders, and what has been sent awaits acknowledgement. -/
structure Sends (s t : State) : Prop extends OnlyRing s t where
  expect : ∀ h, (t.hop h).expect = (s.hop h).expect
  held : s.senders ⊆ t.senders

section
variable {s t u : State}

theorem OnlyRing.trans (h : OnlyRing s t) (k : OnlyRing t u) : OnlyRing s u := ⟨h.only.trans k.only, k.rest.trans h.rest⟩

/-- What is not the ring's reads alike. -/
theorem OnlyRing.field (h : OnlyRing s t) {α : Type} (f : KeeperCore → α) (hf : ∀ k : KeeperCore, f k.offRing = f k := by intro _; rfl) :
    f t.kc = f s.kc := by rw [← hf, h.rest, hf]

theorem OnlyRing.keeper (h : OnlyRing s t) (i : Nat) : t.keeper i = s.keeper i := h.field fun k => mget (fun _ => ({} : Keeper)) k.keepers i

theorem OnlyKc.kprRegs (h : OnlyKc s t) : KprRegs [] s t := fun m j _ _ => h.field fun y => y.rd .tsu m 0 j

theorem Sends.refl (s : State) : Sends s s := ⟨⟨rfl, rfl⟩, fun _ => rfl, List.Subset.refl _⟩

theorem Sends.trans (h : Sends s t) (k : Sends t u) : Sends s u :=
  ⟨h.toOnlyRing.trans k.toOnlyRing, fun i => (k.expect i).trans (h.expect i), List.Subset.trans h.held k.held⟩

end

section
variable (s : State)

theorem State.hop_setHop (h i : Nat) (v : RingHop) : (s.setHop h v).hop i = if i = h then v else s.hop i := mget_mset _ _ _ _ _

/-- A sender's turn. -/
theorem State.ringStep_sends (h : Nat) : Sends s (s.ringStep h) := by
  refine ⟨⟨s.ringStep_onlyKc h, ?_⟩, fun i => ?_, by rw [s.senders_ringStep]; exact List.Subset.refl _⟩
  · unfold State.ringStep
    extract_lets v waits
    split
    · rfl
    · split <;> rfl
  · unfold State.ringStep
    extract_lets v waits
    split
    · rfl
    · split
      · rfl
      · rw [State.hop_setHop]
        split
        · next hi => rw [hi]
        · rfl

theorem State.ringPump_sends (h : Nat) : Sends s (s.ringPump h) := (s.ringStep_sends h).trans (State.ringStep_sends _ h)

theorem State.ringPut_sends (h : Nat) (own : Bool) (f : RingFrame) : Sends s (s.ringPut h own f) := by
  have hp := State.ringPump_sends { s with kc := { s.kc with ring := s.kc.ring ++ [{ hop := h, frame := f, own := own }] } } h
  refine ⟨⟨s.ringPut_onlyKc h own f, hp.rest⟩, hp.expect, ?_⟩
  rw [s.senders_ringPut]
  exact List.subset_append_left _ _

theorem State.ringPut_holds (h : Nat) (own : Bool) (f : RingFrame) : (h, own, f) ∈ (s.ringPut h own f).senders := by
  rw [s.senders_ringPut]
  exact List.mem_append_right _ List.mem_cons_self

theorem State.ringSend_sends (cmd addr bcn arg : Nat) : Sends s (s.ringSend cmd addr bcn arg) := by
  unfold State.ringSend
  extract_lets f
  split
  · exact s.ringPut_sends _ _ _
  · split
    · exact s.ringPut_sends _ _ _
    · split
      · exact s.ringPut_sends _ _ _
      · exact List.foldlRecOn (motive := Sends s) _ _ (.refl s) fun t ht b _ => ht.trans (t.ringPut_sends _ _ _)

/-- A command of the core's goes out on the branch of the keeper it names, or on every branch in use (R161). -/
theorem State.ringSend_holds {cmd addr bcn arg : Nat} (hcmd : cmd < 9) (hne : cmd ≠ 1) (hbcn : bcn < 2 ^ 32) (harg : arg < 2 ^ 64) {b : Fin 4}
    (hb : OnBranches s addr b) : (256 + b.val, true, ⟨cmd, addr, bcn, arg⟩) ∈ (s.ringSend cmd addr bcn arg).senders := by
  unfold State.ringSend
  simp only [Nat.mod_eq_of_lt hbcn, Nat.mod_eq_of_lt harg]
  rw [if_neg (by omega), if_neg hne]
  unfold OnBranches at hb
  split
  · next haddr =>
    rw [if_neg haddr] at hb
    rw [hb]
    exact s.ringPut_holds _ _ _
  · next haddr =>
    rw [if_pos (not_not.1 haddr)] at hb
    exact State.senders_foldl_ringPut _ (List.mem_filter.2 ⟨List.mem_range.2 b.isLt, hb⟩) s

/-- An ENUM goes out on its branch (R161). -/
theorem State.ringSend_enum_holds (b : Fin 4) : (256 + b.val, true, ⟨1, allKeepers, 0, b.val⟩) ∈ (s.ringSend 1 allKeepers 0 b).senders := by
  have h := s.ringPut_holds (256 + b.val % 4) true ⟨1, allKeepers, 0 % 2 ^ 32, b.val % 2 ^ 64⟩
  rw [Nat.mod_eq_of_lt b.isLt, Nat.mod_eq_of_lt (by omega : b.val < 2 ^ 64)] at h
  unfold State.ringSend
  rw [if_neg (by decide), if_pos rfl, Nat.mod_eq_of_lt b.isLt, Nat.mod_eq_of_lt (by omega : b.val < 2 ^ 64)]
  exact h

end

/-! ### What a receiver makes of a good frame -/

/-- A good frame has been acknowledged: its receiver expects the next HSEQ, its sender may send again. -/
structure RingAcked (rx : Nat) (s t : State) : Prop extends OnlyRing s t where
  expect : (t.hop rx).expect = ((s.hop rx).expect + 1) % 8

/-- The acknowledgement of a good frame: the receiver expects the next HSEQ, and the sender, rid of the frame, sends what it now may. -/
def State.ringAck (s : State) (from_ rx q : Nat) : State :=
  let t := s.setHop rx { s.hop rx with expect := ((s.hop rx).expect + 1) % 8 }
  State.ringPump { t with kc := { t.kc with ring := t.kc.ring.eraseP fun x => x.hop == from_ && x.hseq == some q } } from_

/-- Which frames a sender holds is not what a receiver expects. -/
theorem RingAcked.drop {rx : Nat} {s t : State} (h : RingAcked rx s t) (l : List RingSent) (from_ : Nat) :
    RingAcked rx s (State.ringPump { t with kc := { t.kc with ring := l } } from_) := by
  have hpump := State.ringPump_sends { t with kc := { t.kc with ring := l } } from_
  have hring : OnlyRing t { t with kc := { t.kc with ring := l } } := ⟨rfl, rfl⟩
  exact ⟨h.toOnlyRing.trans (hring.trans hpump.toOnlyRing), (hpump.expect rx).trans h.expect⟩

theorem State.setHop_acked (s : State) (rx : Nat) :
    RingAcked rx s (s.setHop rx { s.hop rx with expect := ((s.hop rx).expect + 1) % 8 }) :=
  ⟨⟨rfl, rfl⟩, congrArg RingHop.expect ((s.hop_setHop rx rx _).trans (if_pos rfl))⟩

theorem State.ringAck_acked (s : State) (from_ rx q : Nat) : RingAcked rx s (s.ringAck from_ rx q) := (s.setHop_acked rx).drop _ from_

section
variable {s : State} {from_ rx : Nat} {h : RingHdr} {f : RingFrame}

/-- A good frame: its acknowledgement, then what the receiver does with the frame. -/
theorem State.ringIn_good (hg : RingGood s rx h f) (from_ : Nat) : ∃ u, RingAcked rx s u ∧ ∀ fwd act, s.ringIn from_ rx h f fwd act =
    if 256 ≤ rx then (if 9 ≤ f.cmd && f.cmd ≤ 0xC then act u else u)
    else if f.cmd = 0 || 0xC < f.cmd then u
    else if 9 ≤ f.cmd then u.ringPut rx false fwd
    else if f.addr = rx then (if f.addr = rx || f.addr = allKeepers then act u else u)
    else (if f.addr = rx || f.addr = allKeepers then act u else u).ringPut rx false fwd := by
  obtain ⟨hcrc, hseq⟩ := hg
  refine ⟨s.ringAck from_ rx h.hseq.toNat, s.ringAck_acked _ _ _, fun fwd act => ?_⟩
  unfold State.ringIn
  rw [if_neg (by rw [hcrc, hseq]; simp)]
  rfl

/-- The core acts on a report. -/
theorem State.ringIn_core (hg : RingGood s rx h f) (hrx : 256 ≤ rx) (hlo : 9 ≤ f.cmd) (hhi : f.cmd ≤ 0xC) :
    ∃ u, RingAcked rx s u ∧ ∀ fwd act, s.ringIn from_ rx h f fwd act = act u := by
  obtain ⟨u, hu, heq⟩ := State.ringIn_good hg from_
  exact ⟨u, hu, fun fwd act => by simp [heq, hrx, hlo, hhi]⟩

/-- A keeper passes a report on. -/
theorem State.ringIn_report (hg : RingGood s rx h f) (hrx : rx < 256) (hlo : 9 ≤ f.cmd) (hhi : f.cmd ≤ 0xC) :
    ∃ u, RingAcked rx s u ∧ ∀ fwd act, s.ringIn from_ rx h f fwd act = u.ringPut rx false fwd := by
  obtain ⟨u, hu, heq⟩ := State.ringIn_good hg from_
  exact ⟨u, hu, fun fwd act => by simp [heq, Nat.not_le.2 hrx, hlo, Nat.not_lt.2 hhi, show f.cmd ≠ 0 by omega]⟩

/-- A keeper acts on a broadcast and passes it on. -/
theorem State.ringIn_broadcast (hg : RingGood s rx h f) (hrx : rx < 256) (hlo : 1 ≤ f.cmd) (hhi : f.cmd < 9) (haddr : f.addr = allKeepers) :
    ∃ u, RingAcked rx s u ∧ ∀ fwd act, s.ringIn from_ rx h f fwd act = (act u).ringPut rx false fwd := by
  obtain ⟨u, hu, heq⟩ := State.ringIn_good hg from_
  have hne : allKeepers ≠ rx := by unfold allKeepers; omega
  exact ⟨u, hu, fun fwd act => by
    simp [heq, haddr, hne, Nat.not_le.2 hrx, Nat.not_le.2 hhi, show f.cmd ≠ 0 by omega, show ¬12 < f.cmd by omega]⟩

/-- A bad frame: its sender resends. -/
theorem State.ringIn_bad (hg : ¬RingGood s rx h f) (fwd : RingFrame) (act : State → State) : s.ringIn from_ rx h f fwd act = s.ringResend from_ := by
  unfold State.ringIn
  refine if_pos ?_
  by_contra hno
  simp only [Bool.or_eq_true, decide_eq_true_eq, not_or, not_not] at hno
  exact hg hno

end

/-! ### A resend -/

/-- What a resend leaves of the ring's receivers and the keepers, and that no status bit of the core clears. -/
structure RingRetried (hop : Nat) (s t : State) : Prop where
  resent : RingResent s t hop
  rest : { t.kc with ring := [], keepers := [] } = { s.kc with ring := [], keepers := [] }
  stat : ∀ i, (t.keeper i).stat = (s.keeper i).stat
  overruns : ∀ i, fld (t.keeper i).xcnt 31 16 = fld (s.keeper i).xcnt 31 16
  bits : ∀ b, s.bt .tsu .kprStat b = true → t.bt .tsu .kprStat b = true

section
variable {s t : State} {hop : Nat}

/-- What is neither the frames held nor the keepers' own reads alike. -/
theorem RingRetried.field (h : RingRetried hop s t) {α : Type} (f : KeeperCore → α)
    (hf : ∀ k : KeeperCore, f { k with ring := [], keepers := [] } = f k := by intro _; rfl) : f t.kc = f s.kc := by rw [← hf, h.rest, hf]

theorem State.keeper_setKeeper (s : State) (i j : Nat) (v : Keeper) : (s.setKeeper i v).keeper j = if j = i then v else s.keeper j :=
  mget_mset _ _ _ _ _

/-- The sixteenth resend in succession of a frame sets RING_FAIL and is journalled, which leaves the ring. -/
theorem RingRetried.failed (h : RingRetried hop s t) (c i k : Nat) : RingRetried hop s ((t.setB .tsu .kprStat 4).keeperRec c i k) := by
  have hkc : ((t.setB .tsu .kprStat 4).keeperRec c i k).kc = t.kc := (State.kc_keeperRec _ _ _ _).trans (by simp [State.setB])
  have hkeeper (j : Nat) : ((t.setB .tsu .kprStat 4).keeperRec c i k).keeper j = t.keeper j := by rw [State.keeper, State.keeper, hkc]
  refine ⟨by rw [RingResent, hkc, h.resent], by rw [hkc, h.rest], fun j => by rw [hkeeper, h.stat], fun j => by rw [hkeeper, h.overruns],
    fun b hb => ?_⟩
  rw [(State.keeperRec_kprRegs _ c i k).bt .kprStat b, t.bt_setB_kpr 4 b, h.bits b hb, Bool.or_true]

/-- A sender resends what awaits acknowledgement (R160). -/
theorem State.ringResend_retries (s : State) (hop : Nat) : RingRetried hop s (s.ringResend hop) ∧
    ((s.kc.ring.any fun f => f.hop == hop && f.wire.isSome && f.resends == 15) = true → (s.ringResend hop).bt .tsu .kprStat 4 = true) := by
  unfold State.ringResend
  extract_lets mine n kc s1 k s2
  have h1 : RingRetried hop s s1 := ⟨rfl, rfl, fun _ => rfl, fun _ => rfl, fun _ hb => hb⟩
  have h2 : RingRetried hop s s2 := by
    unfold s2
    split
    · refine ⟨rfl, rfl, fun i => ?_, fun i => ?_, fun _ hb => hb⟩ <;> rw [State.keeper_setKeeper] <;> split
      · next hi => rw [hi]; rfl
      · rfl
      · next hi => rw [hi, fld_setFld_other _ _ (by decide) (by decide) (.inr (by decide))]; rfl
      · rfl
    · exact h1
  split
  · refine ⟨h2.failed _ _ _, fun _ => ?_⟩
    rw [(State.keeperRec_kprRegs _ _ _ _).bt .kprStat 4, State.bt_setB_kpr _ 4 4]
    rfl
  · next hnone => exact ⟨h2, fun hany => absurd hany hnone⟩

end

end Sys2Proof.Machine
end

section
/-!
PROOFS. What reaches the core over the ring (R159, R161, R162, R165), and what a keeper passes on.
-/
namespace Sys2Proof.Machine
set_option Elab.async false

section
variable {s : State} {rx : Fin 260} {h : RingHdr}

theorem State.hop_congr {s t : State} (h : t.kc = s.kc) (i : Nat) : t.hop i = s.hop i := by rw [State.hop, State.hop, h]

/-- A good report at the core is acted on (R161). -/
theorem State.ringRecv_core {cmd bcn arg : Nat} (hg : ForCore s rx h cmd bcn arg) (hlo : 9 ≤ cmd := by decide) (hhi : cmd ≤ 0xC := by decide) :
    ∃ u, RingAcked rx s u ∧ ∀ act, s.ringRecv rx h cmd bcn arg act = act u := by
  obtain ⟨hrx, hgood⟩ := hg
  obtain ⟨u, hu, heq⟩ := State.ringIn_core (from_ := s.ringFrom rx) hgood hrx hlo hhi
  exact ⟨u, hu, heq _⟩

/-- A keeper passes on the good report of another (R161). -/
theorem State.ringRecv_report {cmd bcn arg : Nat} (hrx : rx.val < 256) (hg : RingGood s rx h ⟨cmd, h.addr.toNat, bcn, arg⟩)
    (hlo : 9 ≤ cmd := by decide) (hhi : cmd ≤ 0xC := by decide) :
    ∃ u, RingAcked rx s u ∧ ∀ act, s.ringRecv rx h cmd bcn arg act = u.ringPut rx false ⟨cmd, h.addr.toNat, bcn, arg⟩ := by
  obtain ⟨u, hu, heq⟩ := State.ringIn_report (from_ := s.ringFrom rx) hg hrx hlo hhi
  exact ⟨u, hu, heq _⟩

/-! ### FACK, FDONE, RDATA and TEVT -/

/-- A report is of the change under way. -/
theorem RingAcked.change {u : State} (hu : RingAcked rx s u) {k : Nat} {chgid : Byte} (hst : s.chgState = k)
    (hchg : s.fd .tsu .kprFstat 23 16 = chgid.toNat) : (decide (u.chgState = k) && u.fd .tsu .kprFstat 23 16 == chgid.toNat) = true := by
  have hust : u.chgState = k := (hu.only.kprRegs.fd .kprFstat 27 26).trans hst
  have huchg : u.fd .tsu .kprFstat 23 16 = chgid.toNat := (hu.only.kprRegs.fd .kprFstat 23 16).trans hchg
  simp [hust, huchg]

/-- A FACK of the change under way is counted. -/
theorem recvFack_counts {k : Word} {chgid : Byte} (hg : ForCore s rx h 10 k.toNat (2 ^ 32 * chgid.toNat)) (hst : s.chgState = 1)
    (hchg : s.fd .tsu .kprFstat 23 16 = chgid.toNat) :
    (recvFack rx h k chgid s).fd .tsu .kprFstat 8 0 = min 511 (s.fd .tsu .kprFstat 8 0 + 1) ∧
      RingTaken s (recvFack rx h k chgid s) rx h 10 k.toNat (2 ^ 32 * chgid.toNat) := by
  obtain ⟨u, hu, heq⟩ := State.ringRecv_core hg
  rw [recvFack, heq, if_pos (hu.change hst hchg)]
  refine ⟨?_, (congrArg RingHop.expect (State.hop_congr (u.setF_kc _ _ _ _ _ _ _) _)).trans hu.expect, fun hk => absurd hk.1 (Nat.not_lt.2 hg.1)⟩
  rw [State.bump, u.fd_setF_kpr 8 0, hu.only.kprRegs.fd .kprFstat 8 0, satNat]
  omega

/-- A keeper passes on the good FACK of another. -/
theorem recvFack_passes {k : Word} {chgid : Byte} (hrx : rx.val < 256)
    (hg : RingGood s rx h ⟨10, h.addr.toNat, k.toNat, 2 ^ 32 * chgid.toNat⟩) :
    RingHolds (recvFack rx h k chgid s) rx false ⟨10, h.addr.toNat, k.toNat, 2 ^ 32 * chgid.toNat⟩ ∧
      (recvFack rx h k chgid s).kc.keepers = s.kc.keepers ∧ (recvFack rx h k chgid s).tsu.regs = s.tsu.regs := by
  obtain ⟨u, hu, heq⟩ := State.ringRecv_report hrx hg
  have hpass := hu.toOnlyRing.trans (u.ringPut_sends rx false ⟨10, h.addr.toNat, k.toNat, 2 ^ 32 * chgid.toNat⟩).toOnlyRing
  rw [recvFack, heq]
  exact ⟨ringHolds_of_mem (u.ringPut_holds _ _ _), hpass.field KeeperCore.keepers, hpass.only.field fun x => x.tsu.regs⟩

/-- An FDONE of the change under way is counted, and its MISS remembered. -/
theorem recvFdone_counts {k : Word} {chgid : Byte} {miss : Bool} (hg : ForCore s rx h 11 k.toNat (2 ^ 32 * chgid.toNat + 2 ^ 40 * b2n miss))
    (hst : s.chgState = 2) (hchg : s.fd .tsu .kprFstat 23 16 = chgid.toNat) :
    (recvFdone rx h k chgid miss s).kc.dones = s.kc.dones + 1 ∧ (recvFdone rx h k chgid miss s).kc.miss = (s.kc.miss || miss) := by
  obtain ⟨u, hu, heq⟩ := State.ringRecv_core hg
  rw [recvFdone, heq, if_pos (hu.change hst hchg)]
  exact ⟨congrArg (· + 1) (hu.field KeeperCore.dones), congrArg (· || miss) (hu.field KeeperCore.miss)⟩

/-- A bad FDONE is answered with a resend of its sender. -/
theorem recvFdone_bad {k : Word} {chgid : Byte} {miss : Bool}
    (hg : ¬RingGood s rx h ⟨11, h.addr.toNat, k.toNat, 2 ^ 32 * chgid.toNat + 2 ^ 40 * b2n miss⟩) :
    RingResent s (recvFdone rx h k chgid miss s) (s.ringFrom rx) ∧ ((recvFdone rx h k chgid miss s).hop rx).expect = (s.hop rx).expect ∧
      (recvFdone rx h k chgid miss s).kc.dones = s.kc.dones ∧ (recvFdone rx h k chgid miss s).kc.miss = s.kc.miss := by
  rw [recvFdone, State.ringRecv, State.ringIn_bad hg]
  have hr := (s.ringResend_retries (s.ringFrom rx)).1
  exact ⟨hr.resent, hr.field fun k => (mget (fun _ => ({} : RingHop)) k.hops rx).expect, hr.field KeeperCore.dones, hr.field KeeperCore.miss⟩

/-- RDATA answers the fetch it is for. -/
theorem recvRdata_answers {w : Fin 64} {v : Word} (hg : ForCore s rx h 9 w.val v.toNat) (hf : s.kc.fetching = some (64 * h.addr.toNat + w.val)) :
    (recvRdata rx h w v s).kc.ready = true ∧ (recvRdata rx h w v s).kc.data = v ∧ (recvRdata rx h w v s).kc.fetching = none := by
  obtain ⟨u, hu, heq⟩ := State.ringRecv_core hg
  rw [recvRdata, heq, if_pos ((hu.field KeeperCore.fetching).trans hf)]
  exact ⟨rfl, rfl, rfl⟩

/-- A late firing or a refused target sets its status bit (R159). -/
theorem recvTevt_flags {out : Fin 4} {code : Fin 16} {at_ : HT} (hg : ForCore s rx h 12 (out.val + 16 * code.val) at_.toNat)
    (hok : Code.ofNum code ≠ .ok) :
    (recvTevt rx h 12 out code at_ s).bt .tsu .kprStat (if Code.ofNum code = .late then 1 else 8) = true := by
  have hflag (u : State) (b : Nat) (hb : b < 32) (c : Code) (g : HT) (late : Nat) :
      ((u.setB .tsu .kprStat b).trigRec .tsu 0 0x3F 1 out.val h.addr.toNat c g late).bt .tsu .kprStat b = true := by
    rw [(State.trigRec_kprRegs _ _ _ _ _ _ _ _ _).bt .kprStat b, u.bt_setB_kpr b b (by decide) hb, decide_eq_true rfl, Bool.true_or]
  obtain ⟨u, -, heq⟩ := State.ringRecv_core (cmd := (12 : Fin 16)) hg
  unfold recvTevt
  rw [if_neg (by decide), heq]
  dsimp only
  rw [if_neg hok]
  by_cases hlate : Code.ofNum code = .late
  · rw [if_pos hlate, if_pos hlate]; exact hflag u 1 (by decide) _ _ _
  · rw [if_neg hlate, if_neg hlate]; exact hflag u 8 (by decide) _ _ _

/-! ### ENUM -/

/-- A keeper takes its place from a good ENUM and passes it on with the count increased. -/
theorem enumFrame_keeper {b : Fin 4} {count : Fin 65} {i : Nat} (hi : s.kprBase b + count.val = i) (hlt : i < 256) (haddr : h.addr.toNat = allKeepers)
    (hg : RingGood s i h ⟨1, allKeepers, count, b⟩) :
    ((enumFrame b count h .keeper s).keeper i).branch = b.val ∧ ((enumFrame b count h .keeper s).keeper i).pos = count.val ∧
      ((enumFrame b count h .keeper s).keeper i).enumerated = true ∧
      RingHolds (enumFrame b count h .keeper s) i false ⟨1, allKeepers, count.val + 1, b.val⟩ := by
  let from_ := if count.val = 0 then 256 + b.val else s.kprBase b.val + count.val - 1
  obtain ⟨u, -, heq⟩ := State.ringIn_broadcast (from_ := from_) hg hlt (Nat.le_refl 1) (Nat.le_of_ble_eq_true rfl) rfl
  let t := u.setKeeper i { u.keeper i with branch := b.val, pos := count.val, enumerated := true }
  have henum : enumFrame b count h .keeper s = t.ringPut i false ⟨1, allKeepers, count.val + 1, b.val⟩ := by
    subst hi
    unfold enumFrame
    dsimp only
    rw [haddr]
    exact heq _ _
  have hkeeper : (enumFrame b count h .keeper s).keeper i = { u.keeper i with branch := b.val, pos := count.val, enumerated := true } := by
    rw [henum, (t.ringPut_sends i false _).toOnlyRing.keeper, u.keeper_setKeeper, if_pos rfl]
  rw [hkeeper, henum]
  exact ⟨rfl, rfl, rfl, ringHolds_of_mem (t.ringPut_holds _ _ _)⟩

/-- The count of the keepers enumerated so far (R165). -/
theorem State.enumCount_counts (s : State) (news : Bool) : (s.enumCount news).kc = s.kc ∧
    KprRegs [.kprNkeep, .kprStat] s (s.enumCount news) ∧ (s.enumCount news).fd .tsu .kprNkeep 8 0 = min 511 (s.kprBase 4) := by
  unfold State.enumCount
  extract_lets total s1 d
  have h1 : s1.fd .tsu .kprNkeep 8 0 = min 511 total := (s.fd_setF_kpr 8 0 _).trans (Nat.mod_eq_of_lt (by omega))
  have hr1 : KprRegs [.kprNkeep] s s1 := s.setF_kprRegs .kprNkeep 8 0 _
  have hkc1 : s1.kc = s.kc := s.setF_kc _ _ _ _ _ _ _
  split
  · have hd : KprRegs [.kprStat] s1 ((d.2.setB .tsu .kprStat 0).keeperRec (d.1.toNat % 256) 0 (s.rd .tsu .kprBcn).toNat) :=
      ((kprRegs_of_regs : KprRegs [] s1 d.2).mono).trans ((State.setB_kprRegs _ _ 0).trans (State.keeperRec_kprRegs _ _ _ _).mono)
    exact ⟨(State.kc_keeperRec _ _ _ _).trans ((State.setF_kc _ _ _ _ _ _ _ _).trans hkc1), hr1.mono.trans hd.mono, (hd.fd .kprNkeep 8 0).trans h1⟩
  · exact ⟨hkc1, hr1.mono, h1⟩

/-- KPR_RINGb and the count, once the one is filled and the other made. -/
theorem State.enumCount_ring (s : State) (b : Fin 4) (v : Word) (k : KeeperCore) (news : Bool) :
    (State.enumCount { s.wr .tsu .kprRing v 0 b with kc := k } news).rd .tsu .kprRing 0 b = v ∧
      (State.enumCount { s.wr .tsu .kprRing v 0 b with kc := k } news).fd .tsu .kprNkeep 8 0 =
        min 511 ((State.enumCount { s.wr .tsu .kprRing v 0 b with kc := k } news).kprBase 4) := by
  obtain ⟨-, hregs, hcount⟩ := State.enumCount_counts { s.wr .tsu .kprRing v 0 b with kc := k } news
  have hb : IsKpr .kprRing b.val := ⟨rfl, b.isLt⟩
  refine ⟨(hregs.rd .kprRing b (by decide) hb).trans (s.rd_wr_kpr_same v hb), ?_⟩
  rw [hcount, hregs.kprBase (Nat.le_refl 4)]

/-- Back at the core an ENUM fills KPR_RINGb, and the keepers are counted. -/
theorem enumFrame_core {b : Fin 4} {count : Fin 65} {rlat : Fin 65536} (hg : RingGood s (256 + b.val) h ⟨1, h.addr.toNat, count, b⟩) :
    (enumFrame b count h (.core rlat) s).rd .tsu .kprRing 0 b = BitVec.ofNat 32 (2 ^ 16 * rlat.val + count.val) ∧
      (enumFrame b count h (.core rlat) s).fd .tsu .kprNkeep 8 0 = min 511 ((enumFrame b count h (.core rlat) s).kprBase 4) := by
  obtain ⟨hcrc, hseq⟩ := hg
  unfold enumFrame
  dsimp only
  rw [if_neg (by rw [hcrc, hseq]; simp)]
  exact State.enumCount_ring _ b _ _ _

end

/-! ### Resends -/

/-- An overrun is flagged where it happens, and the hop's sender resends (R160). -/
theorem crossingOverrun_resends (s : State) (rx : Fin 260) :
    RingResent s (crossingOverrun rx s) (s.ringFrom rx) ∧ (if 256 ≤ rx.val then (crossingOverrun rx s).bt .tsu .kprStat 3 = true
      else ((crossingOverrun rx s).keeper rx).stat.getLsbD 0 = true ∧
        fld ((crossingOverrun rx s).keeper rx).xcnt 31 16 = min 65535 (fld (s.keeper rx).xcnt 31 16 + 1)) := by
  unfold crossingOverrun
  extract_lets k
  split
  · have hr := ((s.setB .tsu .kprStat 3).ringResend_retries (s.ringFrom rx)).1
    refine ⟨?_, hr.bits 3 ?_⟩
    · exact hr.resent.trans (by simp [State.setB])
    · rw [s.bt_setB_kpr 3 3]; rfl
  · set t := s.setKeeper rx ({ k with xcnt := setFld k.xcnt 31 16 (satNat 16 (fld k.xcnt 31 16 + 1)) }.flag 0)
    have hr := (t.ringResend_retries (s.ringFrom rx)).1
    have hkeeper : t.keeper rx = { k with xcnt := setFld k.xcnt 31 16 (satNat 16 (fld k.xcnt 31 16 + 1)) }.flag 0 :=
      (s.keeper_setKeeper _ _ _).trans (if_pos rfl)
    refine ⟨hr.resent, ?_, ?_⟩
    · rw [hr.stat, hkeeper, Keeper.flag, getLsbD_setFld _ _ _ _ _ (by decide) (by decide), if_pos ⟨le_rfl, le_rfl⟩]; rfl
    · rw [hr.overruns, hkeeper, Keeper.flag, fld_setFld_same _ _ _ _ (by decide) (by decide), satNat]
      show min _ _ % 2 ^ 16 = min 65535 (fld k.xcnt 31 16 + 1)
      omega

end Sys2Proof.Machine
end

section
/-!
PROOFS. Beacons (R150, R162), a write of a register of the keepers' block, and EN (R150, R157, R165).
-/
namespace Sys2Proof.Machine
set_option Elab.async false

/-! ### Beacons -/

/-- A change that ends leaves the core's data. -/
theorem State.chgEnds_keeps (s : State) (c : Code) (b : Nat) : (s.chgEnds c b).kc = s.kc ∧ KprRegs [.kprFstat, .kprStat] s (s.chgEnds c b) := by
  unfold State.chgEnds
  extract_lets s1
  have h1 : KprRegs [.kprFstat, .kprStat] s s1 :=
    (s.setF_kprRegs .kprFstat 31 28 _).mono.trans ((State.setF_kprRegs _ .kprFstat 27 26 0).mono.trans (State.setB_kprRegs _ .kprStat b).mono)
  exact ⟨(State.kc_keeperRec _ _ _ _).trans (by simp [s1, State.setB]), h1.trans (State.keeperRec_kprRegs _ _ _ _).mono⟩

/-- What the change machine leaves alone at a beacon: the beacons' registers and number, and the frames held. -/
structure BeaconKept (s t : State) : Prop where
  regs : KprRegs [.kprFstat, .kprStat, .kprInc] s t
  next : t.kc.nextBcn = s.kc.nextBcn
  held : s.senders ⊆ t.senders

theorem BeaconKept.trans {s t u : State} (h : BeaconKept s t) (k : BeaconKept t u) : BeaconKept s u :=
  ⟨h.regs.trans k.regs, k.next.trans h.next, List.Subset.trans h.held k.held⟩

theorem BeaconKept.of_kc {s t : State} (hr : KprRegs [.kprFstat, .kprStat, .kprInc] s t) (hkc : t.kc = s.kc) : BeaconKept s t :=
  ⟨hr, by rw [hkc], by rw [State.senders, State.senders, hkc]; exact List.Subset.refl _⟩

theorem Sends.beaconKept {s t : State} (h : Sends s t) : BeaconKept s t := ⟨h.only.kprRegs.mono, h.field KeeperCore.nextBcn, h.held⟩

theorem State.chgEnds_beaconKept (s : State) (c : Code) (b : Nat) : BeaconKept s (s.chgEnds c b) :=
  .of_kc (s.chgEnds_keeps c b).2.mono (s.chgEnds_keeps c b).1

theorem State.chgAtBeacon_kept (s : State) (n : Nat) : BeaconKept s (s.chgAtBeacon n) := by
  unfold State.chgAtBeacon
  extract_lets kc chg all s1
  have hset (v : Nat) : BeaconKept s (s.setF .tsu .kprFstat 27 26 v) := .of_kc (s.setF_kprRegs .kprFstat 27 26 v).mono (s.setF_kc _ _ _ _ _ _ _)
  have hinc (i : Bool) : BeaconKept s { s1 with kc := { s1.kc with initialised := i } } :=
    (BeaconKept.of_kc (s.wr_kprRegs .kprInc _).mono (s.wr_kc _ _ _ _ _)).trans ⟨(kprRegs_of_regs (s := s1)).mono, rfl, List.Subset.refl _⟩
  split
  · split
    · exact (hset 2).trans (State.ringSend_sends _ _ _ _ _).beaconKept
    · exact (s.ringSend_sends _ _ _ _).beaconKept.trans (State.chgEnds_beaconKept _ _ _)
  · split
    · split
      · exact (hinc _).trans (State.chgEnds_beaconKept _ _ _)
      · exact s.chgEnds_beaconKept _ _
    · exact .of_kc (.refl _ s) rfl

/-- The halves of a 64-bit value make it up. -/
theorem halves_append (h : HT) : ((h >>> 32).truncate 32 ++ h.truncate 32 : HT) = h := by
  refine BitVec.eq_of_getLsbD_eq fun i hi => ?_
  rw [BitVec.getLsbD_append, BitVec.truncate_eq_setWidth, BitVec.truncate_eq_setWidth, BitVec.getLsbD_setWidth, BitVec.getLsbD_setWidth,
    BitVec.getLsbD_ushiftRight]
  by_cases hlow : i < 32
  · simp [hlow]
  · simp [hlow, show i - 32 < 32 by omega, show 32 + (i - 32) = i by omega]

/-- A beacon is recorded and broadcast. -/
theorem beacon_broadcast {s : State} {bht : HT} {n : Nat} (hen : s.bt .tsu .kprCtrl 0 = true) (hn : s.kc.nextBcn = n) (hlt : n < 2 ^ 32) :
    ((beacon bht s).rd .tsu .kprBcn).toNat = n ∧ (beacon bht s).rd .tsu .kprBhtHi ++ (beacon bht s).rd .tsu .kprBhtLo = bht ∧
      (beacon bht s).kc.nextBcn = (n + 1) % 2 ^ 32 ∧
      ∀ b : Fin 4, OnBranches s allKeepers b → RingHolds (beacon bht s) (256 + b.val) true ⟨2, allKeepers, n, bht.toNat⟩ := by
  subst hn
  unfold beacon
  rw [if_neg (by simp [hen])]
  extract_lets n s1 s2 kc s3
  have hkept : BeaconKept s3 ((s3.ringSend 2 allKeepers n bht.toNat).chgAtBeacon n) :=
    (s3.ringSend_sends 2 allKeepers n bht.toNat).beaconKept.trans (State.chgAtBeacon_kept _ n)
  have h3 : KprRegs [] s2 s3 := kprRegs_of_regs
  have hcfg (b : Nat) : s3.bt .tsu .kprCfg b = s.bt .tsu .kprCfg b := by
    rw [h3.bt .kprCfg, (State.wr_kprRegs _ .kprBhtHi _).bt .kprCfg, (State.wr_kprRegs _ .kprBhtLo _).bt .kprCfg, (s1.wr_kprRegs .kprBcn _).bt .kprCfg,
      (s.reach_kprRegs bht).bt .kprCfg]
  have hbcn : s3.rd .tsu .kprBcn = BitVec.ofNat 32 n := by
    rw [h3.rd .kprBcn, (State.wr_kprRegs _ .kprBhtHi _).rd .kprBcn, (State.wr_kprRegs _ .kprBhtLo _).rd .kprBcn, s1.rd_wr_kpr_same]
  have hlo : s3.rd .tsu .kprBhtLo = bht.truncate 32 := by
    rw [h3.rd .kprBhtLo, (State.wr_kprRegs _ .kprBhtHi _).rd .kprBhtLo, State.rd_wr_kpr_same]
  have hhi : s3.rd .tsu .kprBhtHi = (bht >>> 32).truncate 32 := by rw [h3.rd .kprBhtHi, State.rd_wr_kpr_same]
  refine ⟨?_, ?_, hkept.next, fun b hb => ringHolds_of_mem ?_⟩
  · rw [hkept.regs.rd .kprBcn, hbcn, BitVec.toNat_ofNat, Nat.mod_eq_of_lt hlt]
  · rw [hkept.regs.rd .kprBhtHi, hkept.regs.rd .kprBhtLo, hhi, hlo, halves_append]
  · refine (State.chgAtBeacon_kept _ n).held (s3.ringSend_holds (by decide) (by decide) hlt bht.isLt ?_)
    exact (hcfg b).trans hb

/-! ### Writes of the block's registers -/

section
variable {s u : State} {src : Src}

/-- A write of a register of the block: `u` is what its effect meets, and the rest is bookkeeping. -/
theorem State.writeAt_kpr {n : RegName} (v : Word) (hp : s.permits .tsu src (some 6) true = true)
    (hl : locate .tsu (addrOf .tsu n) = .reg (.one n) := by decide) (hb : blkOf (row n).grp = 6 := by rfl) (hg : guardedOf n = none := by rfl) :
    ∃ u, Books .tsu src.cls (s.opened .tsu src) u ∧
      Books .tsu src.cls (u.writeReg .tsu src (.one n) v (s.tsu.unlocked.contains src.cls)).s (s.writeAt .tsu src n 0 0 v) := by
  obtain ⟨u, hu, -, ht⟩ := State.regWrite_reg v hl (addrOf_aligned .tsu n 0 0) (by rw [blockOfTarget, hb]; exact hp) hg
  exact ⟨u, hu, ht⟩

section
variable (hu : Books .tsu src.cls (s.opened .tsu src) u)
include hu

/-- What the effect of a write meets: the block's registers, -/
theorem Books.kprRegs_opened : KprRegs [] s u := KprRegs.trans (fun _ _ _ _ => s.rdA_opened .tsu .tsu src _) hu.kprRegs

/-- the core's data, -/
theorem Books.kc_opened : u.kc = s.kc := hu.kc.trans (s.mod_kc .tsu _)

/-- and the part, as they were. -/
theorem Books.tsu_opened {α : Type} (f : Part → α) (hf : ∀ r : Part, f r.core = f r := by intro _; rfl)
    (ho : ∀ r : Part, f { r with unlocked := r.unlocked.filter (· ≠ src.cls), guard := none } = f r := by intro _; rfl) : f u.tsu = f s.tsu :=
  (hu.field .tsu f hf).trans (ho s.tsu)

theorem Books.branches_opened {addr : Nat} {b : Fin 4} (hb : OnBranches s addr b) : OnBranches u addr b := by
  unfold OnBranches at hb ⊢
  rwa [hu.kprRegs_opened.bt .kprCfg, State.keeper, hu.kc_opened]

end

/-! ### EN -/

/-- A write of KPR_CTRL that nothing refuses. -/
theorem State.writeReg_kprCtrl (s : State) (src : Src) (en had : Bool) (h : (en && s.macroBad) = false) :
    (s.writeReg .tsu src (.one .kprCtrl) (BitVec.ofNat 32 (b2n en)) had).s = if en then s.kprEnable en else (s.kprEnable en).wr .tsu .kprNkeep 0 := by
  have hbit : (BitVec.ofNat 32 (b2n en)).getLsbD 0 = en := by cases en <;> rfl
  have hact : s.actWrite .tsu src (.one .kprCtrl) (BitVec.ofNat 32 (b2n en)) =
      some { s := if en then s.kprEnable en else (s.kprEnable en).wr .tsu .kprNkeep 0,
             cfg := some (s.rdA .tsu (Loc.addr (.one .kprCtrl) .tsu), BitVec.ofNat 32 (b2n en) &&& 1) } := by
    unfold State.actWrite
    dsimp only
    rw [hbit, if_neg (by rw [h]; decide)]
  have hwr : s.writeReg .tsu src (.one .kprCtrl) (BitVec.ofNat 32 (b2n en)) had =
      ((s.actWrite .tsu src (.one .kprCtrl) (BitVec.ofNat 32 (b2n en))).orElse fun _ => none).getD
        (s.store .tsu (.one .kprCtrl) (BitVec.ofNat 32 (b2n en))) := rfl
  rw [hwr, hact]
  rfl

/-- An ENUM for each branch of a list is held where it is to go out. -/
theorem State.foldl_enum (l : List Nat) (s : State) : Sends s (l.foldl (fun t b => t.ringSend 1 allKeepers 0 b) s) ∧
    ∀ b : Fin 4, b.val ∈ l → (256 + b.val, true, ⟨1, allKeepers, 0, b.val⟩) ∈ (l.foldl (fun t b => t.ringSend 1 allKeepers 0 b) s).senders := by
  have hsends (l : List Nat) (s : State) : Sends s (l.foldl (fun t b => t.ringSend 1 allKeepers 0 b) s) :=
    List.foldlRecOn (motive := Sends s) _ _ (.refl s) fun t ht b _ => ht.trans (t.ringSend_sends _ _ _ _)
  refine ⟨hsends l s, fun b hb => ?_⟩
  obtain ⟨before, later, rfl⟩ := List.append_of_mem hb
  rw [List.foldl_append, List.foldl_cons]
  exact (hsends later _).held (State.ringSend_enum_holds _ b)

/-- Enabling counts the keepers anew. -/
theorem State.kprEnable_on (s : State) (hoff : s.bt .tsu .kprCtrl 0 = false) :
    (s.kprEnable true).bt .tsu .kprCtrl 0 = true ∧ (s.kprEnable true).kc.nextBcn = 0 ∧
      (s.kprEnable true).kc.enumLeft = ((List.range nBranch).filter fun b => s.bt .tsu .kprCfg b) ∧
      ∀ b : Fin 4, s.bt .tsu .kprCfg b = true ∧ b.val < nBranch → (256 + b.val, true, ⟨1, allKeepers, 0, b.val⟩) ∈ (s.kprEnable true).senders := by
  unfold State.kprEnable
  extract_lets was s1 branches kc s2 s3
  rw [if_pos (by simp [was, hoff])]
  have hring : KprRegs [.kprRing] s2 s3 := List.foldlRecOn (motive := KprRegs [.kprRing] s2) _ _ (.refl _ s2) fun t ht b hb =>
    ht.trans (t.wr_kprRegs .kprRing 0 b ⟨rfl, List.mem_range.1 hb⟩)
  have hkc : s3.kc = s2.kc := foldl_keeps State.kc (fun t _ => t.wr_kc _ _ _ _ _) _ s2
  obtain ⟨hsends, hholds⟩ := State.foldl_enum branches s3
  obtain ⟨hcount, hregs, -⟩ := State.enumCount_counts (branches.foldl (fun t b => t.ringSend 1 allKeepers 0 b) s3) true
  have hctrl : s3.rd .tsu .kprCtrl = BitVec.ofNat 32 (b2n true) := (hring.rd .kprCtrl).trans (s.rd_wr_kpr_same _)
  refine ⟨?_, ?_, ?_, fun b hb => ?_⟩
  · rw [hregs.bt .kprCtrl 0, hsends.only.kprRegs.bt .kprCtrl 0, State.bt, hctrl]
    rfl
  · rw [hcount, hsends.field KeeperCore.nextBcn, hkc]
  · rw [hcount, hsends.field KeeperCore.enumLeft, hkc]
  · rw [State.senders, hcount]
    exact hholds b (List.mem_filter.2 ⟨List.mem_range.2 hb.2, hb.1⟩)

/-- Disabling stops every keeper. -/
theorem State.kprEnable_off (s : State) : (s.kprEnable false).bt .tsu .kprCtrl 0 = false ∧
    ((s.kprEnable false).kc.keepers.all fun (x : Nat × Keeper) => !x.2.running && x.2.armed.isEmpty && x.2.held.isNone) = true := by
  unfold State.kprEnable
  extract_lets was s1 branches kc s2 s3 off s4
  rw [if_neg (by simp), if_pos (by rfl)]
  have hoff (k : Keeper) : (!(off k).running && (off k).armed.isEmpty && (off k).held.isNone) = true := rfl
  have hctrl : s4.bt .tsu .kprCtrl 0 = false := by
    rw [(s1.setF_kprRegs .kprFstat 27 26 0).bt .kprCtrl 0, State.bt, s.rd_wr_kpr_same]
    rfl
  clear_value off s4
  refine ⟨((kprRegs_of_regs (s := s4)).bt .kprCtrl 0).trans hctrl, List.all_eq_true.2 fun x hx => ?_⟩
  obtain ⟨hmem, -⟩ := List.mem_filter.1 hx
  obtain ⟨y, -, rfl⟩ := List.mem_map.1 hmem
  exact hoff y.2

/-- A write of EN = 1 while EN is 0 (R165). -/
theorem writeAt_kprCtrl_enables (hp : s.permits .tsu src (some 6) true = true) (hmac : s.macroBad = false) (hoff : s.bt .tsu .kprCtrl 0 = false) :
    let t := s.writeAt .tsu src .kprCtrl 0 0 (BitVec.ofNat 32 (b2n true))
    t.bt .tsu .kprCtrl 0 = true ∧ t.kc.nextBcn = 0 ∧ t.kc.enumLeft = ((List.range nBranch).filter fun b => s.bt .tsu .kprCfg b) ∧
      ∀ b : Fin 4, s.bt .tsu .kprCfg b = true ∧ b.val < nBranch → RingHolds t (256 + b.val) true ⟨1, allKeepers, 0, b.val⟩ := by
  intro t
  obtain ⟨u, hu, ht⟩ := State.writeAt_kpr (n := .kprCtrl) (BitVec.ofNat 32 (b2n true)) hp
  have humac : u.macroBad = s.macroBad := ((s.opened_onlyParts .tsu src).trans hu.outside).field State.macroBad
  rw [u.writeReg_kprCtrl src true _ (by rw [humac, hmac]; rfl), if_pos rfl] at ht
  obtain ⟨hen, hnext, hleft, hholds⟩ := u.kprEnable_on ((hu.kprRegs_opened.bt .kprCtrl 0).trans hoff)
  refine ⟨(ht.kprRegs.bt .kprCtrl 0).trans hen, by rw [ht.kc, hnext], ?_, fun b hb => ringHolds_of_mem ?_⟩
  · rw [ht.kc, hleft]
    exact List.filter_congr fun b _ => hu.kprRegs_opened.bt .kprCfg b
  · rw [State.senders, ht.kc]
    exact hholds b ⟨(hu.kprRegs_opened.bt .kprCfg b).trans hb.1, hb.2⟩

/-- A write of EN = 0 (R157, R165). -/
theorem writeAt_kprCtrl_disables (hp : s.permits .tsu src (some 6) true = true) :
    let t := s.writeAt .tsu src .kprCtrl 0 0 (BitVec.ofNat 32 (b2n false))
    t.bt .tsu .kprCtrl 0 = false ∧ t.rd .tsu .kprNkeep = 0 ∧
      (t.kc.keepers.all fun (x : Nat × Keeper) => !x.2.running && x.2.armed.isEmpty && x.2.held.isNone) = true := by
  intro t
  obtain ⟨u, -, ht⟩ := State.writeAt_kpr (n := .kprCtrl) (BitVec.ofNat 32 (b2n false)) hp
  rw [u.writeReg_kprCtrl src false _ (Bool.false_and _), if_neg (by decide)] at ht
  obtain ⟨hoff, hstopped⟩ := u.kprEnable_off
  refine ⟨?_, (ht.kprRegs.rd .kprNkeep).trans (State.rd_wr_kpr_same _ _), ?_⟩
  · exact (ht.kprRegs.bt .kprCtrl 0).trans (((State.wr_kprRegs _ .kprNkeep 0).bt .kprCtrl 0).trans hoff)
  · rw [ht.kc, State.wr_kc]
    exact hstopped

end

end Sys2Proof.Machine
end

section
/-!
PROOFS. A change and triggers started by register (R159, R162, R167), and O18.
-/
namespace Sys2Proof.Machine
set_option Elab.async false

/-! ### A change -/

/-- KPR_FSTAT as a change starts: PREPARE, the last outcome, the next change, no FACK. -/
def startedFstat (outcome chg : Nat) : Word := BitVec.ofNat 32 (2 ^ 28 * outcome + 2 ^ 26 + 2 ^ 16 * chg)

theorem fld_startedFstat {outcome chg : Nat} (ho : outcome < 16) (hc : chg < 256) : fld (startedFstat outcome chg) 27 26 = 1 ∧
    fld (startedFstat outcome chg) 23 16 = chg ∧ fld (startedFstat outcome chg) 8 0 = 0 := by
  have hnat : (startedFstat outcome chg).toNat = 2 ^ 28 * outcome + 2 ^ 26 + 2 ^ 16 * chg := by
    rw [startedFstat, BitVec.toNat_ofNat, Nat.mod_eq_of_lt (by omega)]
  simp only [fld, bits, hnat, Nat.shiftRight_eq_div_pow]
  omega

/-- A GO that nothing refuses starts PREPARE and broadcasts FPREP (R162). -/
theorem State.kprGo_allowed (s : State) {v : Word} {init : Bool} (hgo : v.getLsbD 0 = true) (hinit : v.getLsbD 1 = init) (hst : s.chgState = 0)
    (hlo : 3 ≤ (s.rd .tsu .kprFat - s.rd .tsu .kprBcn).toNat) (hhi : (s.rd .tsu .kprFat - s.rd .tsu .kprBcn).toNat < 2 ^ 31)
    (hfmin : 0x00333333 ≤ (s.rd .tsu .kprFinc).toNat) (hfmax : (s.rd .tsu .kprFinc).toNat ≤ 0x02000000)
    (hready : (!init && !s.kc.initialised) = false) :
    (s.kprGo v).1 = .ok ∧
      (s.kprGo v).2.rd .tsu .kprFstat = startedFstat (s.fd .tsu .kprFstat 31 28) ((s.fd .tsu .kprFstat 23 16 + 1) % 256) ∧
      ∀ b : Fin 4, OnBranches s allKeepers b → (256 + b.val, true, ⟨7, allKeepers, (s.rd .tsu .kprFat).toNat,
        (s.rd .tsu .kprFinc).toNat + 2 ^ 32 * ((s.fd .tsu .kprFstat 23 16 + 1) % 256) + 2 ^ 40 * b2n init⟩) ∈ (s.kprGo v).2.senders := by
  subst hinit
  unfold State.kprGo
  extract_lets init k d inc c chg s1 kc s2
  have hc : c = .ok := by
    have hrange : (decide (d < 3) || decide (2 ^ 31 ≤ d) || decide (inc < 0x00333333) || decide (0x02000000 < inc)) = false := by
      simp only [d, k, inc, Bool.or_eq_false_iff, decide_eq_false_iff_not]
      omega
    simp only [c, hrange, init, hready, hst]
    rfl
  rw [if_neg (by simp [hgo]), if_neg (by simp [hst]), if_neg (by simp [hc])]
  have hkc : KprRegs [] s1 s2 := kprRegs_of_regs
  have hregs : KprRegs [.kprFstat] s s2 := (s.wr_kprRegs .kprFstat _).trans hkc.mono
  have hfstat : s2.rd .tsu .kprFstat = startedFstat (s.fd .tsu .kprFstat 31 28) chg := (hkc.rd .kprFstat).trans (s.rd_wr_kpr_same _)
  have hbranch (b : Fin 4) (hb : OnBranches s allKeepers b) : OnBranches s2 allKeepers b := (hregs.bt .kprCfg b).trans hb
  have hinit : b2n init ≤ 1 := by cases init <;> decide
  refine ⟨rfl, ((s2.ringSend_sends 7 _ _ _).only.kprRegs.rd .kprFstat).trans hfstat,
    fun b hb => s2.ringSend_holds (by decide) (by decide) k.isLt ?_ (hbranch b hb)⟩
  have hinc : inc ≤ 0x02000000 := hfmax
  have hchg : chg < 256 := Nat.mod_lt _ (by decide)
  omega

section
variable {s u : State} {src : Src}

/-- A write of KPR_FCMD that is not refused stores it too. -/
theorem State.writeReg_kprFcmd (s : State) (src : Src) (v : Word) (hok : (s.kprGo v).1 = .ok) :
    ∃ w, (s.writeReg .tsu src (.one .kprFcmd) v true).s = (s.kprGo v).2.wr .tsu .kprFcmd w := by
  have hwr : s.writeReg .tsu src (.one .kprFcmd) v true =
      if (s.kprGo v).1 ≠ .ok then .fail (s.kprGo v).1 (s.kprGo v).2 else (s.kprGo v).2.store .tsu (.one .kprFcmd) v := rfl
  rw [hwr, if_neg (not_not.2 hok)]
  exact ⟨_, rfl⟩

/-- An allowed GO by register. -/
theorem writeAt_kprFcmd_starts {init : Bool} (hp : s.permits .tsu src (some 6) true = true) (hun : s.tsu.unlocked.contains src.cls = true)
    (hst : s.chgState = 0) (hlo : 3 ≤ (s.rd .tsu .kprFat - s.rd .tsu .kprBcn).toNat)
    (hhi : (s.rd .tsu .kprFat - s.rd .tsu .kprBcn).toNat < 2 ^ 31) (hfmin : 0x00333333 ≤ (s.rd .tsu .kprFinc).toNat)
    (hfmax : (s.rd .tsu .kprFinc).toNat ≤ 0x02000000) (hready : (!init && !s.kc.initialised) = false) :
    let t := s.writeAt .tsu src .kprFcmd 0 0 (BitVec.ofNat 32 (1 + 2 * b2n init))
    t.chgState = 1 ∧ t.fd .tsu .kprFstat 23 16 = (s.fd .tsu .kprFstat 23 16 + 1) % 256 ∧ t.fd .tsu .kprFstat 8 0 = 0 ∧
      ∀ b : Fin 4, OnBranches s allKeepers b → RingHolds t (256 + b.val) true ⟨7, allKeepers, (s.rd .tsu .kprFat).toNat,
        (s.rd .tsu .kprFinc).toNat + 2 ^ 32 * t.fd .tsu .kprFstat 23 16 + 2 ^ 40 * b2n init⟩ := by
  intro t
  obtain ⟨u, hu, ht⟩ := State.writeAt_kpr (n := .kprFcmd) (BitVec.ofNat 32 (1 + 2 * b2n init)) hp
  have hregs := hu.kprRegs_opened
  have hfat := hregs.rd .kprFat
  have hbcn := hregs.rd .kprBcn
  have hfinc := hregs.rd .kprFinc
  have hfstat (hi lo : Nat) := hregs.fd .kprFstat hi lo
  obtain ⟨hok, hstat, hholds⟩ := u.kprGo_allowed (v := BitVec.ofNat 32 (1 + 2 * b2n init)) (init := init) (by cases init <;> rfl)
    (by cases init <;> rfl) ((hfstat 27 26).trans hst) (by rwa [hfat, hbcn]) (by rwa [hfat, hbcn]) (by rwa [hfinc]) (by rwa [hfinc])
    (by rwa [hu.kc_opened])
  obtain ⟨w, hw⟩ := u.writeReg_kprFcmd src _ hok
  rw [hfat, hfinc, hfstat 23 16] at hholds
  rw [hfstat 31 28, hfstat 23 16] at hstat
  rw [hun, hw] at ht
  have hword := (ht.kprRegs.rd .kprFstat).trans (((State.wr_kprRegs _ .kprFcmd w).rd .kprFstat).trans hstat)
  have hout : s.fd .tsu .kprFstat 31 28 < 16 := Nat.mod_lt _ (by decide)
  obtain ⟨hprep, hchg, hcount⟩ := fld_startedFstat hout (Nat.mod_lt (s.fd .tsu .kprFstat 23 16 + 1) (by decide : 0 < 256))
  have htchg : t.fd .tsu .kprFstat 23 16 = (s.fd .tsu .kprFstat 23 16 + 1) % 256 := (congrArg (fld · 23 16) hword).trans hchg
  refine ⟨(congrArg (fld · 27 26) hword).trans hprep, htchg, (congrArg (fld · 8 0) hword).trans hcount, fun b hb => ringHolds_of_mem ?_⟩
  rw [htchg, State.senders, ht.kc, State.wr_kc]
  exact hholds b (hu.branches_opened hb)

/-! ### Triggers -/

/-- A TARM by register that nothing refuses is sent, in or out of service (R159). -/
theorem State.sendTarm_register {s : State} {addr : Nat} {h : HT} (mask : Nat) (hf : s.fenced = false) (hsign : noSign h (s.ht .tsu) = false)
    (ha : addr = allKeepers ∨ addr < s.fd .tsu .kprNkeep 8 0) : s.sendTarm addr mask h false = (.ok, s.ringSend 5 addr mask h.toNat) := by
  have hrange : (noSign h (s.ht .tsu) || (decide (addr ≠ 0x100) && decide (s.fd .tsu .kprNkeep 8 0 ≤ addr))) = false := by
    obtain rfl | ha := ha
    · simp [hsign, allKeepers]
    · simp [hsign, ha]
  unfold State.sendTarm
  simp only [hf, hrange]
  rfl

/-- The effect of a KPR_TAT_HI write is the TARM, in what no reader of the ring sees. -/
theorem State.kc_writeReg_kprTatHi (s : State) (src : Src) (v lo : Word) (had : Bool)
    (hlo : s.staged .tsu src (addrOf .tsu .kprTatLo) (s.rd .tsu .kprTatLo) = lo) {t : State}
    (ht : s.sendTarm (s.fd .tsu .kprTsel 12 4) (s.fd .tsu .kprTsel 3 0) (v ++ lo) false = (.ok, t)) :
    (s.writeReg .tsu src (.one .kprTatHi) v had).s.kc = t.kc := by
  have hwr : (s.writeReg .tsu src (.one .kprTatHi) v had).s =
      (s.kprTatWrite src (.one .kprTatHi) (s.staged .tsu src (addrOf .tsu .kprTatLo) (s.rd .tsu .kprTatLo)) v).s.setStage .tsu src
        (addrOf .tsu .kprTatLo) none := rfl
  have htat : (s.kprTatWrite src (.one .kprTatHi) lo v).s = t.putPair .tsu (.one .kprTatHi) .kprTatLo lo v := by
    unfold State.kprTatWrite
    simp only [ht]
    rfl
  rw [hwr, hlo, htat]
  simp [State.setStage, State.putPair]

/-- A write of KPR_TAT_HI. -/
theorem writeAt_kprTatHi_sends {v lo : Word} {a m : Nat} (hp : s.permits .tsu src (some 6) true = true)
    (hlo : s.staged .tsu src (addrOf .tsu .kprTatLo) (s.rd .tsu .kprTatLo) = lo) (ha : s.fd .tsu .kprTsel 12 4 = a) (hm : s.fd .tsu .kprTsel 3 0 = m)
    (hf : s.fenced = false) (hsign : noSign (v ++ lo) (s.ht .tsu) = false) (hin : a = allKeepers ∨ a < s.fd .tsu .kprNkeep 8 0) {b : Fin 4}
    (hb : OnBranches s a b) : RingHolds (s.writeAt .tsu src .kprTatHi 0 0 v) (256 + b.val) true ⟨5, a, m, (v ++ lo).toNat⟩ := by
  obtain ⟨u, hu, ht⟩ := State.writeAt_kpr (n := .kprTatHi) v hp
  have hregs := hu.kprRegs_opened
  have hua : u.fd .tsu .kprTsel 12 4 = a := (hregs.fd .kprTsel 12 4).trans ha
  have hum : u.fd .tsu .kprTsel 3 0 = m := (hregs.fd .kprTsel 3 0).trans hm
  have hulo : u.staged .tsu src (addrOf .tsu .kprTatLo) (u.rd .tsu .kprTatLo) = lo := by
    rw [hregs.rd .kprTatLo, State.staged_congr (t := u) (s := s) (p := .tsu) (hu.tsu_opened Part.stage), hlo]
  have hufenced : u.fenced = false := by
    have hrd : u.rd .tsu .hltStatus = s.rd .tsu .hltStatus :=
      (hu.rdA (by cases src.cls <;> decide) .tsu).trans (s.rdA_opened .tsu .tsu src _)
    exact (congrArg (BitVec.getLsbD · 31) hrd).trans hf
  have huht : u.ht .tsu = s.ht .tsu := hu.tsu_opened fun q => q.tb.ht
  have hsent := State.sendTarm_register (s := u) (addr := a) (h := v ++ lo) m hufenced (by rwa [huht]) (by rwa [hregs.fd .kprNkeep 8 0])
  have hkc := u.kc_writeReg_kprTatHi src v lo (s.tsu.unlocked.contains src.cls) hulo (by rw [hua, hum]; exact hsent)
  have hmask : m < 2 ^ 32 := by
    have : s.fd .tsu .kprTsel 3 0 < 2 ^ 4 := Nat.mod_lt _ (by decide)
    omega
  refine ringHolds_of_mem ?_
  rw [State.senders, ht.kc, hkc]
  exact u.ringSend_holds (by decide) (by decide) hmask (v ++ lo : HT).isLt (hu.branches_opened hb)

/-- A write of KPR_TCAN.GO (R167). -/
theorem writeAt_kprTcan_sends {v : Word} {a : Nat} (hp : s.permits .tsu src (some 6) true = true) (hgo : v.getLsbD 0 = true)
    (ha : s.fd .tsu .kprTsel 12 4 = a) {b : Fin 4} (hb : OnBranches s a b) :
    RingHolds (s.writeAt .tsu src .kprTcan 0 0 v) (256 + b.val) true ⟨6, a, s.fd .tsu .kprTsel 3 0, 0⟩ := by
  obtain ⟨u, hu, ht⟩ := State.writeAt_kpr (n := .kprTcan) v hp
  have hregs := hu.kprRegs_opened
  have hwr : (u.writeReg .tsu src (.one .kprTcan) v (s.tsu.unlocked.contains src.cls)).s = u.kprTcanGo v := rfl
  have hgone : u.kprTcanGo v = u.ringSend 6 a (s.fd .tsu .kprTsel 3 0) 0 := by
    rw [State.kprTcanGo, if_pos hgo, hregs.fd .kprTsel 12 4, hregs.fd .kprTsel 3 0, ha]
  have hmask : s.fd .tsu .kprTsel 3 0 < 2 ^ 32 := (Nat.mod_lt _ (by decide)).trans (by decide : 2 ^ 4 < 2 ^ 32)
  refine ringHolds_of_mem ?_
  rw [State.senders, ht.kc, hwr, hgone]
  exact u.ringSend_holds (by decide) (by decide) hmask (by decide) (hu.branches_opened hb)

end

/-! ### O18 -/

/-- Settles O18, clause by clause. -/
theorem keeperCoreBeaconsAndChanges : Obligations.KeeperCoreBeaconsAndChanges := by
  unfold Obligations.KeeperCoreBeaconsAndChanges
  refine ⟨?_, ?_, ?_, ?_, ?_, ?_, ?_, ?_, ?_, ?_, ?_, ?_, ?_, ?_, ?_, ?_⟩
  · exact fun bht n s hen hn hlt => ⟨_, rfl, beacon_broadcast hen hn hlt⟩
  · exact fun src s hp hmac hoff => ⟨_, rfl, writeAt_kprCtrl_enables hp hmac hoff⟩
  · exact fun src s hp => ⟨_, rfl, writeAt_kprCtrl_disables hp⟩
  · exact fun b count h i s hi hlt haddr hg => ⟨_, rfl, enumFrame_keeper hi hlt haddr hg⟩
  · exact fun b count h rlat s hg => ⟨_, rfl, enumFrame_core hg⟩
  · exact fun src init s hp hun hst hlo hhi hfmin hfmax _ hready =>
      ⟨_, rfl, writeAt_kprFcmd_starts hp hun hst hlo hhi hfmin hfmax (by rw [hready, Bool.not_true, Bool.and_false])⟩
  · exact fun rx h k chgid s hg hst hchg => ⟨_, rfl, recvFack_counts hg hst hchg⟩
  · exact fun rx h k chgid s hrx hg => ⟨_, rfl, recvFack_passes hrx hg⟩
  · exact fun rx h k chgid miss s hg hst hchg => ⟨_, rfl, recvFdone_counts hg hst hchg⟩
  · exact fun rx h k chgid miss s hg => ⟨_, rfl, recvFdone_bad hg⟩
  · exact fun rx h w v s hg hf => ⟨_, rfl, recvRdata_answers hg hf⟩
  · exact fun rx h out code at_ s hg hok => ⟨_, rfl, recvTevt_flags hg hok⟩
  · exact fun src v lo a m s hp hlo ha hm hf hsign hin => ⟨_, rfl, fun b hb => writeAt_kprTatHi_sends hp hlo ha hm hf hsign hin hb⟩
  · exact fun src v a s hp hgo ha => ⟨_, rfl, fun b hb => writeAt_kprTcan_sends hp hgo ha hb⟩
  · exact fun hop s => ⟨_, rfl, (s.ringResend_retries hop).1.resent, (s.ringResend_retries hop).2⟩
  · exact fun rx s => ⟨_, rfl, crossingOverrun_resends s rx⟩

end Sys2Proof.Machine
end

section
/-!
PROOFS. The object window while a part wipes its memories (R47, R192). O20.
-/
namespace Sys2Proof.Machine
set_option Elab.async false

/-- A permitted access to an aligned word of an object window passes the checks that come before its target. -/
theorem State.accessCode_objWin {s : State} {p : PartId} {src : Src} {e : EngSel} {off a : Nat} {w : Bool} (ha : a % 4 = 0)
    (hp : s.permits p src (some 8) w = true) : s.accessCode p src (.objWin e off) a true w = .ok := by
  simp [State.accessCode, blockOfTarget, hp, badAccess, ha, firstFail]

/-- While the part wipes its memories, a permitted read of an object window answers BUSY (R47). -/
theorem State.regRead_objWin_wiping {s : State} {p : PartId} {src : Src} {e : EngSel} {off a : Nat} (hl : locate p a = .objWin e off)
    (ha : a % 4 = 0) (hp : s.permits p src (some 8) false = true) (hw : s.wiping p = true) :
    (s.regRead p src a true).1 = .busy := by
  have haa : a / 4 * 4 = a := by omega
  unfold State.regRead
  simp only [haa, hl, State.accessCode_objWin ha hp, ne_eq, not_true_eq_false, if_false, State.readTarget, hw, if_true]

/-- Refutes O20: the clause of a read of the object window supposes nothing of the wipe. In the state of a power-up the TSU wipes its
memories, and a read of object 0 by the host answers BUSY (R47). -/
theorem not_signalsChangeObjects : ¬ Obligations.SignalsChangeObjects := by
  unfold Obligations.SignalsChangeObjects
  rintro ⟨-, -, -, -, -, -, hread, -⟩
  have hp : State.reset.permits .tsu { cls := .host } (some 8) false = true := by decide
  have hw : State.reset.wiping .tsu = true := by decide
  have hl : locate .tsu (objAddr .tsu 0 0) = .objWin .tsu 0 := by decide
  obtain ⟨t, ht, ⟨hok, -⟩⟩ := hread .tsu { cls := .host } 0 State.reset (by decide) hp
  have hbusy := State.regRead_objWin_wiping hl (by decide) hp hw
  have hresp := State.resp_regRead State.reset .tsu (src := { cls := .host }) (objAddr .tsu 0 0) true (by decide)
  rw [hbusy] at hresp
  rw [← Host.Outcome.next.inj ht] at hok
  exact absurd (congrArg Prod.fst (hresp.symm.trans hok)) (by decide)

end Sys2Proof.Machine
end

section
/-!
PROOFS. Instructions that report an outcome word: what their issue leaves besides, for any word that does not divide (R197, R213, R234).
-/
namespace Sys2Proof.Machine
set_option Elab.async false

/-! ### Words that do not divide -/

/-- Only the words of opcode 0x10 divide (R197). -/
theorem divides_of_op {w : Word} {op : Nat} (hw : w.toNat / 2 ^ 26 = op) (h : op ≠ 0x10) : divides w = false := by
  unfold divides issueInterval
  simp only [hw]
  split
  · split <;> rfl
  · exact absurd rfl h
  all_goals rfl

theorem divides_wFO {op : Nat} (obj a sub : Nat) (h : op < 64 := by decide) (h10 : op ≠ 0x10 := by decide) :
    divides (wFO op obj a sub) = false := by
  refine divides_of_op (op := op) ?_ h10
  have hobj := Nat.mod_lt obj (show 0 < 2 ^ 13 by decide)
  have ha := Nat.mod_lt a (show 0 < 32 by decide)
  have hsub := Nat.mod_lt sub (show 0 < 2 ^ 8 by decide)
  rw [wFO, BitVec.toNat_ofNat]
  omega

theorem divides_wFI {op : Nat} (d a imm : Nat) (h : op < 64 := by decide) (h10 : op ≠ 0x10 := by decide) :
    divides (wFI op d a imm) = false := by
  refine divides_of_op (op := op) ?_ h10
  have hd := Nat.mod_lt d (show 0 < 32 by decide)
  have ha := Nat.mod_lt a (show 0 < 32 by decide)
  have himm := Nat.mod_lt imm (show 0 < 2 ^ 16 by decide)
  rw [wFI, BitVec.toNat_ofNat]
  omega

theorem divides_wF3 {op : Nat} (d a b fn : Nat) (h : op < 64 := by decide) (h10 : op ≠ 0x10 := by decide) :
    divides (wF3 op d a b fn) = false := by
  refine divides_of_op (op := op) ?_ h10
  have hd := Nat.mod_lt d (show 0 < 32 by decide)
  have ha := Nat.mod_lt a (show 0 < 32 by decide)
  have hb := Nat.mod_lt b (show 0 < 32 by decide)
  have hfn := Nat.mod_lt fn (show 0 < 2 ^ 11 by decide)
  rw [wF3, BitVec.toNat_ofNat]
  omega

/-! ### Completion with an outcome word -/

/-- A report of OK is the outcome word and no record (R234). -/
theorem State.report_ok (s : State) (e : EngSel) (c : Nat) (a : Fin 32) (data opcode pc : Nat) :
    s.report e c a .ok data opcode pc = s.setG e c a (outWord .ok data) := by
  simp [State.report]

theorem State.reportQuiet_eq (s : State) (e : EngSel) (c : Nat) (a : Fin 32) (code : Code) (data : Nat) :
    s.reportQuiet e c a code data = s.setG e c a (outWord code data) := by
  simp [State.reportQuiet]

section
variable {c : Instr} {s t : State} {x : CtxRef} {n : Nat} {word : Word} {prefixed : Bool} {body : Nat → Ends}

/-- An instruction whose effect is `t` and that then writes a g register: the issue changes nothing else of `t` outside the context. -/
theorem completes_reports {a : Fin 32} {w : DWord} {Q : State → Prop} (hx : exec c s = .next (s.issue x word prefixed 0 body))
    (hd : divides word = false) (hi : CanIssue s x n) (hb : body (s.pc x.eng x.ctx) = .done (t.setG x.eng x.ctx a w)) (hr : StillRuns x s t)
    (hQ : ∀ u, Inside x t u → Q u) (hn : n ≤ if prefixed then 2 else 0 := by decide) :
    Completes c s fun u => Reports x a w s u ∧ Q u := by
  have hruns := hr.trans (t.setG_runs x a w)
  have hu := State.issue_done hi hn (fun h => by rw [hd] at h; cases h) hb hruns.cst hruns.stepping
  exact ⟨_, hx, hu.reports, hQ _ ((t.setG_inside x a w).trans hu.inside)⟩

theorem completes_outcome {a : Fin 32} {w : DWord} (hx : exec c s = .next (s.issue x word prefixed 0 body)) (hd : divides word = false)
    (hi : CanIssue s x n) (hb : body (s.pc x.eng x.ctx) = .done (t.setG x.eng x.ctx a w)) (hr : StillRuns x s t)
    (hn : n ≤ if prefixed then 2 else 0 := by decide) : Completes c s fun u => Reports x a w s u := by
  obtain ⟨u, hu, hrep, -⟩ := completes_reports (Q := fun _ => True) hx hd hi hb hr (fun _ _ => trivial) hn
  exact ⟨u, hu, hrep⟩

/-- One that waits. -/
theorem completes_waits {w : Waiting} (hx : exec c s = .next (s.issue x word prefixed 0 body)) (hd : divides word = false)
    (hi : CanIssue s x n) (hb : body (s.pc x.eng x.ctx) = .wait w s) (hn : n ≤ if prefixed then 2 else 0 := by decide) :
    Completes c s fun u => Waits x w s u :=
  ⟨_, hx, State.issue_wait hi hn (fun h => by rw [hd] at h; cases h) hb⟩

/-- One that writes a g register and nothing else. -/
theorem completes_writesG {d : Fin 32} {v : DWord} (hx : exec c s = .next (s.issue x word prefixed 0 body)) (hd : divides word = false)
    (hi : CanIssue s x n) (hb : body (s.pc x.eng x.ctx) = .done (s.setG x.eng x.ctx d v)) (hn : n ≤ if prefixed then 2 else 0 := by decide) :
    Completes c s fun u => WritesG x d v s u := by
  have hruns := s.setG_runs x d v
  exact ⟨_, hx, (State.issue_done hi hn (fun h => by rw [hd] at h; cases h) hb hruns.cst hruns.stepping).writesG⟩

end

end Sys2Proof.Machine
end

section
/-!
PROOFS. Sync instructions: an object after a signal, a consumption and an OBJSET, and O32 (R171, R172, R178, R181, R244, R245).
-/
namespace Sys2Proof.Machine
set_option Elab.async false

/-! ### Objects -/

/-- The objects of the context's engine are none of what the context may change. -/
theorem Inside.obj {x : CtxRef} {s t : State} (h : Inside x s t) (i : Nat) : t.obj x.eng i = s.obj x.eng i := by
  have hobjs : (t.eng x.eng).objs = (s.eng x.eng).objs := (congrArg Engine.objs h.engine :)
  rw [State.obj, State.obj, hobjs]

/-- An object turns on its engine alone. -/
theorem State.obj_congr {s t : State} {e : EngSel} (h : t.eng e = s.eng e) (i : Nat) : t.obj e i = s.obj e i := by
  rw [State.obj, State.obj, h]

theorem State.obj_setObj_same (s : State) (e : EngSel) (i : Nat) (o : SyncObj) : (s.setObj e i o).obj e i = o := by
  rw [State.obj, State.setObj, State.modEng, s.eng_setEng_same]
  exact mget_mset_same _ _ _ _

theorem State.obj_addEval (s : State) (e : EngSel) (k i : Nat) :
    (s.modEng e fun v => { v with evals := v.evals ++ [k] }).obj e i = s.obj e i := by
  rw [State.obj, State.modEng, s.eng_setEng_same]
  rfl

/-- A change of an engine that keeps its contexts stops none of them. -/
theorem State.modEng_runs (x : CtxRef) (s : State) (f : Engine → Engine) (hf : ∀ v, (f v).ctxs = v.ctxs := by intro _; rfl) :
    StillRuns x s (s.modEng x.eng f) := by
  refine ⟨congrArg (fld · 2 0) (by cases x.eng.part <;> rfl), ?_⟩
  rw [State.ctx, State.modEng, s.eng_setEng_same, hf]
  rfl

theorem State.setObj_runs (x : CtxRef) (s : State) (i : Nat) (o : SyncObj) : StillRuns x s (s.setObj x.eng i o) := s.modEng_runs x _

/-! ### A signal that is accepted (R171, R172) -/

theorem ctxRegs_ne_sobStat (e : EngSel) (c : Fin 16) : ∀ n ∈ ctxRegs, addrOf e.part n (ctxInst e c) ≠ addrOf e.part .sobStat e.inst := by
  cases e with
  | tsu => revert c; decide
  | tile t => revert c t; decide

theorem State.eng_setB (s : State) (p : PartId) (n : RegName) (b i : Nat) (e : EngSel) : (s.setB p n b i).eng e = s.eng e :=
  State.eng_congr (s.setF_engines p n b b 1 i 0) e

/-- An event bit of SOB_STAT stops no context. -/
theorem State.setB_sobStat_runs (x : CtxRef) (s : State) (b : Nat) : StillRuns x s (s.setB x.eng.part .sobStat b x.eng.inst) :=
  ⟨congrArg (fld · 2 0) (s.rdA_setF_other _ _ _ _ _ _ (.inr (ctxRegs_ne_sobStat x.eng x.ctx _ (by decide)))),
    by rw [State.ctx_congr (s.eng_setB _ _ _ _ _)]⟩

/-- The event an accepted signal raises: its bit of SOB_STAT and its record change no object and stop no context. -/
theorem State.signalEvent_keeps (x : CtxRef) (s : State) (g : Signal) (b kind : Nat) (i : Nat) :
    ((s.setB x.eng.part .sobStat b x.eng.inst).objEvent x.eng g .ok kind).obj x.eng i = s.obj x.eng i ∧
      StillRuns x s ((s.setB x.eng.part .sobStat b x.eng.inst).objEvent x.eng g .ok kind) :=
  ⟨(State.obj_congr (State.eng_jnl _ _ _ _ _) i).trans (State.obj_congr (s.eng_setB _ _ _ _ _) i),
    (s.setB_sobStat_runs x b).trans (State.jnl_runs x _ _ _ _ rfl)⟩

/-- A signal that passes gives its object the word of R171 and the present as time-stamp. -/
theorem State.judge_ok {x : CtxRef} {s : State} {g : Signal} (h : s.signalCode x.eng g = .ok) :
    (s.judge x.eng g).1 = .ok ∧ StillRuns x s (s.judge x.eng g).2 ∧
      ((s.judge x.eng g).2.obj x.eng g.idx).word = (signalWord (s.obj x.eng g.idx).word (oValue g.word)).1 := by
  let o : SyncObj :=
    { s.obj x.eng g.idx with
      word := (signalWord (s.obj x.eng g.idx).word (oValue g.word)).1
      stamp := stampOf (s.ht x.eng.part) }
  let t := (s.setObj x.eng g.idx o).modEng x.eng fun v => { v with evals := v.evals ++ [g.idx] }
  have hobj : t.obj x.eng g.idx = o := (State.obj_addEval _ _ _ _).trans (s.obj_setObj_same _ _ _)
  have hruns : StillRuns x s t := (s.setObj_runs x g.idx o).trans (State.modEng_runs x _ _)
  unfold State.judge
  simp only [h, ne_eq, not_true_eq_false, if_false]
  split
  · exact ⟨rfl, hruns, congrArg SyncObj.word hobj⟩
  · obtain ⟨ho, hr⟩ := t.signalEvent_keeps x g 2 2 g.idx
    exact ⟨rfl, hruns.trans hr, congrArg SyncObj.word (ho.trans hobj)⟩
  · obtain ⟨ho, hr⟩ := t.signalEvent_keeps x g 1 (_ - 1) g.idx
    exact ⟨rfl, hruns.trans hr, congrArg SyncObj.word (ho.trans hobj)⟩

/-- With no signal waiting, a signal whose source learns its outcome is judged at once (R176). -/
theorem State.signalNow_idle {s : State} {e : EngSel} (g : Signal) (h : (s.eng e).signals = []) : s.signalNow e g = s.judge e g := by
  rw [State.signalNow, h]
  rfl

/-- A local SIG. -/
theorem execSig_here {s : State} {x : CtxRef} {obj : Fin 8192} {a : Fin 32} {q : Signal} (hi : CanIssue s x 0)
    (hv : (s.g x.eng x.ctx a).toNat < 2 ^ 48) (hs : (s.eng x.eng).signals = [])
    (hq : q = { src := 4, idx := obj.val, word := s.sigWord x.eng x.ctx (s.g x.eng x.ctx a).toNat, jctx := x.ctx.val })
    (hc : s.signalCode x.eng q = .ok) :
    Completes (.sig x obj a .here) s fun t =>
      Reports x a (outWord .ok 0) s t ∧ (t.obj x.eng obj).word = (signalWord (s.obj x.eng obj).word (oValue q.word)).1 := by
  obtain ⟨hok, hruns, hword⟩ := State.judge_ok hc
  have hidx : q.idx = obj.val := by rw [hq]
  have hlow : bits (s.g x.eng x.ctx a).toNat 63 48 = 0 := by
    rw [bits, Nat.shiftRight_eq_div_pow]
    omega
  have hcause : (if x.eng = .tsu && SigTo.here ≠ .here then 0x01 else 0) = 0 := by simp
  have hx : exec (.sig x obj a .here) s = .next (s.issue x (wFO 0x28 obj a (sigToNum .here)) false 0 _) :=
    congrArg (fun n => Host.Outcome.next (s.issue x (wFO 0x28 obj a (sigToNum .here)) false n _)) hcause
  refine completes_reports hx (divides_wFO _ _ _) hi (t := (s.judge x.eng q).2) ?_ hruns fun u hu => ?_
  · simp only [hlow, ne_eq, not_true_eq_false, if_false]
    rw [← hq, State.signalNow_idle q hs, State.reportQuiet_eq, hok]
  · rw [hu.obj, ← hidx, hword]

/-! ### Conditions: WAIT and POLL (R181, R245) -/

/-- A consumption changes the word as R181 says, and stops no context. -/
theorem State.consume_effect (x : CtxRef) (s : State) (i thr : Nat) (c : Bool) :
    StillRuns x s (s.consume x.eng i thr c) ∧
      ((s.consume x.eng i thr c).obj x.eng i).word = if c then condConsume (s.obj x.eng i).word thr else (s.obj x.eng i).word := by
  unfold State.consume
  cases c
  · exact ⟨⟨rfl, rfl⟩, rfl⟩
  · exact ⟨s.setObj_runs x i _, congrArg SyncObj.word (s.obj_setObj_same x.eng i _)⟩

section
variable {s : State} {x : CtxRef} {obj : Fin 8192} {a : Fin 32} {consume : Bool} {thr : Nat} (hi : CanIssue s x 0)
  (ht : bits (s.g x.eng x.ctx a).toNat 47 0 = thr) (hc : s.condCode x.eng x.ctx obj thr consume = .ok)
include hi ht hc

theorem execWait_met {timed : Bool} {td : Fin 8} (hm : condMet (s.obj x.eng obj).word thr (s.ht x.eng.part) = true) :
    Completes (.wait x obj a consume timed td) s fun t =>
      Reports x a (outWord .ok 0) s t ∧
        (t.obj x.eng obj).word = if consume then condConsume (s.obj x.eng obj).word thr else (s.obj x.eng obj).word := by
  obtain ⟨hruns, hword⟩ := s.consume_effect x obj thr consume
  refine completes_reports rfl (divides_wFO _ _ _) hi ?_ hruns fun u hu => (congrArg SyncObj.word (hu.obj obj)).trans hword
  simp only [ht, hc, hm, ne_eq, not_true_eq_false, if_false, if_true, State.report_ok]

theorem execWait_unmet {td : Fin 8} (hm : condMet (s.obj x.eng obj).word thr (s.ht x.eng.part) = false) :
    Completes (.wait x obj a consume false td) s fun t => Waits x (.obj obj thr consume none a) s t := by
  refine completes_waits rfl (divides_wFO _ _ _) hi ?_
  simp [ht, hc, hm]

theorem execPoll_reports :
    Completes (.poll x obj a consume) s fun t =>
      Reports x a (outWord .ok (b2n (condMet (s.obj x.eng obj).word thr (s.ht x.eng.part)))) s t := by
  cases hm : condMet (s.obj x.eng obj).word thr (s.ht x.eng.part) with
  | false => exact completes_outcome (t := s) rfl (divides_wFO _ _ _) hi (by simp [ht, hc, hm, State.report_ok, b2n]) ⟨rfl, rfl⟩
  | true =>
    exact completes_outcome (t := s.consume x.eng obj thr consume) rfl (divides_wFO _ _ _) hi (by simp [ht, hc, hm, State.report_ok, b2n])
      (s.consume_effect x obj thr consume).1

end

/-- The record of an outcome, by the context itself, leaves the context and its registers alone. -/
theorem State.outcome_keeps_ctx (s : State) (e : EngSel) (c : Fin 16) (code : Code) (op pc late : Nat) :
    (s.outcome (senWho e c) code op pc late).ctx e c = s.ctx e c ∧ (s.outcome (senWho e c) code op pc late).pc e c = s.pc e c ∧
      (s.outcome (senWho e c) code op pc late).cst e c = s.cst e c := by
  unfold State.outcome
  generalize pay _ = payload
  have hrd {n : RegName} (hn : n ∈ ctxRegs) := s.rd_ctx_jnl e c (senWho e c) 0x0101 payload hn rfl
  have hctx := State.ctx_congr (s.eng_jnl (senWho e c) 0x0101 payload e) c
  refine ⟨hctx, ?_, congrArg (fld · 2 0) (hrd (by decide))⟩
  rw [State.pc, State.pc, State.fd, State.fd, hctx, hrd (by decide)]

/-- The deadline of a wait: BUSY, with its record (R9, R245). -/
theorem execWaitDeadline_resumes {s : State} {e : EngSel} {c : Fin 16} {a : Fin 32} {i thr : Nat} {consume : Bool} {h : HT} (hc : s.cst e c = 2)
    (hw : (s.ctx e c).wait = some (.obj i thr consume (some h) a)) :
    Completes (.waitDeadline e c) s fun t =>
      t.g e c a = gAfter a (outWord .busy 0) ∧ t.pc e c = pcAt (s.pc e c + 1) ∧ (t.ctx e c).wait = none ∧
        t.cst e c = if (s.ctx e c).stepping then 0 else 1 := by
  let t := s.reach e.part (s.tickAt e.part h)
  let u := t.resume e c a (outWord .busy 0)
  have hctx : t.ctx e c = s.ctx e c := State.ctx_congr (s.eng_reach _ _ e) c
  have hpc : t.pc e c = s.pc e c := by
    rw [State.pc, State.pc, hctx, State.fd, State.fd, s.rd_ctx_reach e c _ (by decide)]
  obtain ⟨hg, hpc', hwait, hcst⟩ := t.resume_resumes e c a (outWord .busy 0)
  rw [hpc] at hpc'
  rw [hctx] at hcst
  obtain ⟨kctx, kpc, kcst⟩ := u.outcome_keeps_ctx e c .busy 0x29 (s.pc e c) 0
  refine ⟨u.outcome (senWho e c) .busy 0x29 (s.pc e c) 0, ?_, (State.g_congr (congrArg Ctx.g kctx) a).trans hg, kpc.trans hpc',
    (congrArg Ctx.wait kctx).trans hwait, kcst.trans hcst⟩
  show execWaitDeadline e c s = _
  simp [execWaitDeadline, hc, hw, t, u]

/-! ### OBJSET and OBJGET (R178, R245) -/

/-- An OBJSET of an object that holds zero, to a COUNT whose layout is right. -/
theorem State.objset_count {x : CtxRef} {s : State} {slot i : Nat} {img : DWord} (hw : (s.obj x.eng i).word = 0) (hm : oMode img = 1)
    (hb : badLayout img = false) (hd : s.ownerDraining x.eng slot = false) (hr : (s.eng x.eng).resetRange = none) :
    ∃ t, s.objset x.eng slot i img = (.ok, 0, t) ∧ StillRuns x s t ∧
      (t.obj x.eng i).word = setDw (setDw (setDw img 59 56 slot) 52 52 0) 51 51 0 ∧ (t.obj x.eng i).claim = (t.obj x.eng i).word := by
  let w := setDw (setDw (setDw img 59 56 slot) 52 52 0) 51 51 0
  let t := s.setObj x.eng i { s.obj x.eng i with word := w, claim := w }
  have hmode : oMode 0#64 = 0 := by decide
  have hdirty : oDirty 0#64 = false := by decide
  have hin : s.inReset x.eng i = false := by simp [State.inReset, hr]
  refine ⟨t.modEng x.eng fun v => { v with evals := v.evals ++ [i] }, ?_, (s.setObj_runs x i _).trans (t.modEng_runs x _), ?_⟩
  · simp [State.objset, hw, hm, hb, hd, hmode, hdirty, hin, t, w]
  · rw [t.obj_addEval, s.obj_setObj_same]
    exact ⟨rfl, rfl⟩

theorem execObjset_unused {s : State} {x : CtxRef} {obj : Fin 8192} {a : Fin 32} {img : DWord} (hi : CanIssue s x 0)
    (hg : s.g x.eng x.ctx a = img) (hw : (s.obj x.eng obj).word = 0) (hm : oMode img = 1) (hb : badLayout img = false)
    (hd : s.ownerDraining x.eng x.ctx = false) (hr : (s.eng x.eng).resetRange = none) :
    Completes (.objset x obj a) s fun t =>
      Reports x a (outWord .ok 0) s t ∧ (t.obj x.eng obj).word = setDw (setDw (setDw img 59 56 x.ctx) 52 52 0) 51 51 0 ∧
        (t.obj x.eng obj).claim = (t.obj x.eng obj).word := by
  obtain ⟨t, hset, hruns, hobj⟩ := State.objset_count hw hm hb hd hr
  refine completes_reports rfl (divides_wFO _ _ _) hi ?_ hruns fun u hu => by rw [hu.obj]; exact hobj
  simp only [hg, hset, State.report_ok]
  rfl

/-- Settles O32: each instruction's effect, and its issue, which leaves the engine's objects alone. -/
theorem syncInstructions : Obligations.SyncInstructions := by
  unfold Obligations.SyncInstructions
  refine ⟨?_, ?_, ?_, ?_, ?_, ?_, ?_⟩
  · exact fun x obj a q s => execSig_here
  · exact fun x obj a consume timed td thr s hi ht hc hm => execWait_met hi ht hc hm
  · exact fun x obj a consume td thr s hi ht hc hm => execWait_unmet hi ht hc hm
  · exact fun e c a i thr consume h s => execWaitDeadline_resumes
  · exact fun x obj a consume thr s => execPoll_reports
  · exact fun x obj a img s => execObjset_unused
  · exact fun x obj a stamp s hi => completes_writesG rfl (divides_wFO _ _ _) hi rfl

end Sys2Proof.Machine
end

section
/-!
PROOFS. Wicks, pre-light, register accesses and records by instructions, and O33 (R182, R183, R189, R228, R244, R250, R348).
-/
namespace Sys2Proof.Machine
set_option Elab.async false

/-! ### What an issue leaves alone -/

theorem SameOutside.wick {s t : State} (h : SameOutside s t) (n : Nat) : t.wick n = s.wick n := by
  unfold SameOutside at h
  exact (congrArg (fun y : State => y.wick n) h :)

theorem SameOutside.slot {s t : State} (h : SameOutside s t) (c : Nat) :
    mget (fun _ => ({} : Slot)) t.slots c = mget (fun _ => ({} : Slot)) s.slots c := by
  unfold SameOutside at h
  exact (congrArg (fun y : State => mget (fun _ => ({} : Slot)) y.slots c) h :)

/-- An instruction of the TSU alone is modelled there. -/
theorem exec_in_tsu {c : Instr} {s : State} {x : CtxRef} {word : Word} {body : Nat → Ends} (hx : x.eng = .tsu)
    (h : exec c s = .next (s.issue x word false (if x.eng = .tsu then 0 else 0x04) body)) :
    exec c s = .next (s.issue x word false 0 body) := by
  rw [h, if_pos hx]

/-! ### The registers of a wick -/

/-- CFG and THR. -/
abbrev wickRegs : List RegName := [.wkCfg, .wkThrLo, .wkThrHi]

/-- They lie above the registers of every context. -/
theorem ctxState_lt_wick (c : Fin 16) {n : RegName} (hn : n ∈ wickRegs) (i : Nat) :
    addrOf .tsu .ctxState (ctxInst .tsu c) < addrOf .tsu n i := by
  have hctx : addrOf .tsu .ctxState (ctxInst .tsu c) < 0x80000 := by revert c; decide
  refine Nat.lt_of_lt_of_le hctx ?_
  have hgrp : (row n).grp = .wick := by revert n; decide
  unfold addrOf
  rw [hgrp]
  show 0x80000 ≤ match (if i < nWick then some (0x81000 + 0x20 * i) else none : Option Nat) with
    | some b => b + (row n).off + (row n).stride * 0
    | none => 0x04000000
  split_ifs
  · simp only [Nat.mul_zero, Nat.add_zero]
    omega
  · exact (by decide : 0x80000 ≤ 0x04000000)

section
variable {x : CtxRef} {n : Nat} (hx : x.eng = .tsu)
include hx

/-- A write of one stops no context. -/
theorem State.wr_wick_runs (s : State) {m : RegName} (v : Word) (hm : m ∈ wickRegs := by decide) : StillRuns x s (s.wr .tsu m v n) := by
  refine ⟨congrArg (fld · 2 0) (s.rdA_wr_other m v n 0 (.inr ?_)), by rw [State.ctx_congr (s.eng_wr _ _ _ _ _ _)]⟩
  rw [hx]
  exact (ctxState_lt_wick x.ctx hm n).ne

theorem State.setF_wick_runs (s : State) {m : RegName} (hi lo v : Nat) (hm : m ∈ wickRegs := by decide) :
    StillRuns x s (s.setF .tsu m hi lo v n) := s.wr_wick_runs hx _ hm

end

theorem State.setWick_runs (x : CtxRef) (s : State) (n : Nat) (w : Wick) : StillRuns x s (s.setWick n w) :=
  ⟨congrArg (fld · 2 0) (by cases x.eng.part <;> rfl), rfl⟩

/-! ### Binding (R181–R183) -/

/-- A wick whose condition is not met stays as it is when it is evaluated. -/
theorem State.enterWick_unmet {s : State} {n : Nat} (h : condMet (s.obj .tsu (s.wick n).obj).word (s.wick n).thr (s.ht .tsu) = false) :
    s.enterWick n = s := by
  have heval : s.evalWick n = s := by simp [State.evalWick, h]
  rw [State.enterWick, heval, heval]

/-- Register writes leave objects and hall time as they are. -/
theorem State.condMet_wr (s : State) (p : PartId) (m : RegName) (v : Word) (n i thr : Nat) :
    condMet ((s.wr p m v n).obj .tsu i).word thr ((s.wr p m v n).ht .tsu) = condMet (s.obj .tsu i).word thr (s.ht .tsu) := by
  have hht : (s.wr p m v n).ht .tsu = s.ht .tsu := (s.wr_sameOutside p m v n 0).part .tsu fun q => q.tb.ht
  rw [State.obj_congr (s.eng_wr p m v n 0 _), hht]

/-- A bind that is permitted, to a condition that is not met: the wick is BOUND as it says. -/
theorem State.bindWick_unmet {x : CtxRef} {s : State} {n slot i thr : Nat} {consume instr : Bool} (oneshot : Bool) (region plgrp : Nat)
    (hx : x.eng = .tsu) (hc : s.bindCode n slot i thr consume false instr = .ok)
    (hm : condMet (s.obj .tsu i).word thr (s.ht .tsu) = false) :
    ∃ t, s.bindWick n slot i thr consume oneshot region plgrp instr = (.ok, t) ∧ StillRuns x s t ∧ (t.wick n).state = 1 ∧
      (t.wick n).slot = slot ∧ (t.wick n).obj = i ∧ (t.wick n).thr = thr ∧ (t.wick n).oneshot = oneshot ∧ (t.wick n).plgrp = plgrp ∧
      (t.wick n).consume = consume := by
  let w : Wick := { state := 1, slot := slot, obj := i, thr := thr, consume := consume, oneshot := oneshot, region := region, plgrp := plgrp,
                    ackHeld := (s.wick n).ackHeld, litAt := (s.wick n).litAt, last := (s.wick n).last }
  let cfg := 2 ^ 28 * slot + 2 ^ 24 * plgrp + 2 ^ 16 * region + 2 ^ 15 * b2n oneshot + 2 ^ 14 * b2n consume + 2 ^ 13 + i
  let s1 := s.wr .tsu .wkCfg (BitVec.ofNat 32 cfg) n
  let s2 := s1.wr .tsu .wkThrLo (BitVec.ofNat 32 thr) n
  let s3 := s2.setF .tsu .wkThrHi 15 0 (thr / 2 ^ 32) n
  have hmet : condMet (s3.obj .tsu i).word thr (s3.ht .tsu) = false :=
    (s2.condMet_wr _ _ _ _ _ _).trans ((s1.condMet_wr _ _ _ _ _ _).trans ((s.condMet_wr _ _ _ _ _ _).trans hm))
  have hwick : (s3.setWick n w).wick n = w := s3.wick_setWick_same n w
  have henter : (s3.setWick n w).enterWick n = s3.setWick n w := State.enterWick_unmet (by rw [hwick]; exact hmet)
  have hruns : StillRuns x s s3 := (s.wr_wick_runs hx _).trans ((s1.wr_wick_runs hx _).trans (s2.setF_wick_runs hx _ _ _))
  refine ⟨s3.setWick n w, ?_, hruns.trans (s3.setWick_runs x n w), ?_⟩
  · simp only [State.bindWick, hc, ne_eq, not_true_eq_false, if_false]
    exact congrArg (Prod.mk Code.ok) henter
  · rw [hwick]
    exact ⟨rfl, rfl, rfl, rfl, rfl, rfl, rfl⟩

/-- An unbind that is permitted. -/
theorem State.unbindWick_ok {x : CtxRef} {s : State} {n slot : Nat} {instr : Bool} (hx : x.eng = .tsu)
    (hc : s.bindCode n slot 0 0 false true instr = .ok) :
    ∃ t, s.unbindWick n slot instr = (.ok, t) ∧ StillRuns x s t ∧ (t.wick n).state = 0 := by
  let u := s.setWick n (s.wick n).unbound
  have hwick : (u.showUnbound n 0).wick n = (s.wick n).unbound := by
    rw [State.wick, State.showUnbound, if_pos rfl, State.setF_wicks]
    exact s.wick_setWick_same n _
  refine ⟨u.showUnbound n 0, by simp only [State.unbindWick, hc, ne_eq, not_true_eq_false, if_false, u],
    (s.setWick_runs x n _).trans (u.setF_wick_runs hx 13 13 0), by rw [hwick]; rfl⟩

section
variable {s : State} {x : CtxRef} {obj : Fin 8192} {a : Fin 32} {consume oneshot : Bool} {plgrp : Fin 16} {n thr : Nat} (hi : CanIssue s x 0)
  (hx : x.eng = .tsu)
include hi hx

theorem execBind_unmet (hn : bits (s.g x.eng x.ctx a).toNat 55 48 = n) (ht : bits (s.g x.eng x.ctx a).toNat 47 0 = thr)
    (hc : s.bindCode n x.ctx obj thr consume false true = .ok) (hm : condMet (s.obj .tsu obj).word thr (s.ht .tsu) = false) :
    Completes (.bind x obj a consume oneshot plgrp) s fun t =>
      Reports x a (outWord .ok 0) s t ∧ (t.wick n).state = 1 ∧ (t.wick n).slot = x.ctx.val ∧ (t.wick n).obj = obj.val ∧ (t.wick n).thr = thr ∧
        (t.wick n).oneshot = oneshot ∧ (t.wick n).plgrp = plgrp.val := by
  obtain ⟨t, hbind, hruns, hst, hslot, hobj, hthr, hone, hgrp, -⟩ :=
    State.bindWick_unmet oneshot (bits (s.g x.eng x.ctx a).toNat 63 56) plgrp hx hc hm
  refine completes_reports (exec_in_tsu hx rfl) (divides_wFO _ _ _) hi ?_ hruns fun u hu => ?_
  · simp only [hn, ht, hbind, State.report_ok]
  · rw [hu.outside.wick]
    exact ⟨hst, hslot, hobj, hthr, hone, hgrp⟩

theorem execBindUnbind_ok (hn : bits (s.g x.eng x.ctx a).toNat 55 48 = n) (hc : s.bindCode n x.ctx 0 0 false true true = .ok) :
    Completes (.bindUnbind x obj a consume oneshot plgrp) s fun t => Reports x a (outWord .ok 0) s t ∧ (t.wick n).state = 0 := by
  obtain ⟨t, hunbind, hruns, hst⟩ := State.unbindWick_ok hx hc
  refine completes_reports (exec_in_tsu hx rfl) (divides_wFO _ _ _) hi ?_ hruns fun u hu => by rw [hu.outside.wick, hst]
  simp only [hn, hunbind, State.report_ok]

end

/-! ### CGUARD (R348) -/

theorem bits_low_of_lt {v n : Nat} (hv : v < 2 ^ (n + 1)) : bits v n 0 = v := by
  rw [bits, Nat.shiftRight_zero, Nat.sub_zero, Nat.mod_eq_of_lt hv]

/-- CGUARD's checks pass, and it binds with the threshold one above the address. -/
theorem State.copyGuard_binds {s : State} {slot i w v : Nat} (hv : v < 2 ^ 48 - 1) (hs : s.slotSt slot = 2 ∨ s.slotSt slot = 3)
    (hg : s.bt .tsu .slotState 13 slot = true) (hm : oMode (s.obj .tsu i).word = 4) (hc : s.bindCode w slot i (v + 1) false false true = .ok) :
    s.copyGuard slot i w v = s.bindWick w slot i (v + 1) false true (s.fd .tsu .wkCfg 23 16 w) (s.fd .tsu .wkCfg 27 24 w) true := by
  have hlow : bits v 47 0 = v := bits_low_of_lt (by omega)
  have hhigh : bits v 63 48 = 0 := by
    rw [bits, Nat.shiftRight_eq_div_pow]
    omega
  have hne : ¬ v = 2 ^ 48 - 1 := by omega
  have hslot : (s.slotSt slot ≠ 2 && s.slotSt slot ≠ 3) = false := by
    rcases hs with h | h <;> simp [h]
  unfold State.copyGuard
  simp only [hlow, hhigh, hc, hm, hg, hslot, hne]
  rfl

/-- A MONOTONE object at or below an address does not meet a threshold above it (R181). -/
theorem condMet_monotone_below {w : DWord} {v : Nat} (now : HT) (hm : oMode w = 4) (hv : oValue w ≤ v) : condMet w (v + 1) now = false := by
  simp only [condMet, hm, decide_eq_false_iff_not]
  omega

theorem execCguard_binds {s : State} {x : CtxRef} {obj : Fin 8192} {a : Fin 32} {w : Fin 256} {v : Nat} (hi : CanIssue s x 0) (hx : x.eng = .tsu)
    (hg : (s.g x.eng x.ctx a).toNat = v) (hv : v < 2 ^ 48 - 1)
    (hs : s.slotSt x.ctx = 2 ∨ s.slotSt x.ctx = 3) (hcg : s.bt .tsu .slotState 13 x.ctx = true) (hm : oMode (s.obj .tsu obj).word = 4)
    (hc : s.bindCode w x.ctx obj (v + 1) false false true = .ok) (hle : oValue (s.obj .tsu obj).word ≤ v) :
    Completes (.cguard x obj a w) s fun t =>
      Reports x a (outWord .ok 0) s t ∧ (t.wick w).state = 1 ∧ (t.wick w).obj = obj.val ∧ (t.wick w).thr = v + 1 ∧ (t.wick w).oneshot = true ∧
        (t.wick w).consume = false := by
  obtain ⟨t, hbind, hruns, hst, -, hobj, hthr, hone, -, hcons⟩ :=
    State.bindWick_unmet true (s.fd .tsu .wkCfg 23 16 w) (s.fd .tsu .wkCfg 27 24 w) hx hc (condMet_monotone_below _ hm hle)
  have hguard := (State.copyGuard_binds hv hs hcg hm hc).trans hbind
  refine completes_reports (exec_in_tsu hx rfl) (divides_wFO _ _ _) hi ?_ hruns fun u hu => ?_
  · simp only [hg, hguard, State.report_ok]
  · rw [hu.outside.wick]
    exact ⟨hst, hobj, hthr, hone, hcons⟩

/-! ### PRELIT (R189) -/

/-- No stage of a slot begins before the first of its latest PRELIT is due. -/
theorem plDue_not_due {k slot g : Nat} {s : State} {pl : Prelit} {h : HT} {rest : List (HT × Nat)}
    (hpl : (mget (fun _ => ({} : Slot)) s.slots slot).prelits.getLast? = some pl) (hst : pl.stages = (h, g) :: rest)
    (hdue : atOrAfter (s.ht .tsu) h = false) : plDue k slot s = s := by
  cases k with
  | zero => rfl
  | succ k => simp only [plDue, hpl, hst, hdue, Bool.false_eq_true, if_false]

/-- A PRELIT that is permitted, whose first stage lies ahead, is held in its slot behind those that have no stage left. -/
theorem State.prelight_held {s : State} (x : CtxRef) {slot mask k : Nat} {h h0 : HT} {sl : Slot} {rest : List (HT × Nat)} (hf : s.fenced = false)
    (hsl : mget (fun _ => ({} : Slot)) s.slots slot = sl) (hs : s.slotSt slot = 0 ∨ s.bt .tsu .slotState 14 slot = true)
    (hidle : sl.prelits.all (fun pl => pl.stages.isEmpty) = true) (hmask : 0 < mask) (halign : h.toNat % 256 = 0)
    (hsign : noSign h (s.ht .tsu) = false)
    (hst : plStages h ((List.range 16).filter fun g => mask.testBit g) (s.fd .tsu .sobPlCfg 19 8) (s.fd .tsu .sobPlCfg 31 20) sl.pre
      (!sl.launched && decide (s.slotSt slot ≠ 0)) = (h0, k) :: rest)
    (hdue : atOrAfter (s.ht .tsu) h0 = false) :
    ∃ t, s.prelight slot h mask = (.ok, 0, t) ∧ StillRuns x s t ∧
      (mget (fun _ => ({} : Slot)) t.slots slot).prelits = sl.prelits ++ [{ id := sl.plCount, at_ := h, stages := (h0, k) :: rest }] := by
  let pl : Prelit := { id := sl.plCount, at_ := h, stages := (h0, k) :: rest }
  let t : State := { s with
    slots := mset (fun _ => {}) s.slots slot { sl with plCount := sl.plCount + 1, prelits := sl.prelits ++ [pl] } }
  have hheld : (mget (fun _ => ({} : Slot)) t.slots slot).prelits = sl.prelits ++ [pl] := congrArg Slot.prelits (mget_mset_same _ _ _ _)
  have hwaits : plDue 16 slot t = t := plDue_not_due (pl := pl) (by rw [hheld, List.getLast?_append]; rfl) rfl hdue
  have hwait : (sl.prelits.any fun pl => !pl.stages.isEmpty) = false := by
    rw [← Bool.not_eq_true', List.not_any_eq_all_not, ← hidle]
    simp
  have hstate : (decide (s.slotSt slot ≠ 0) && !s.bt .tsu .slotState 14 slot) = false := by
    rcases hs with h1 | h1 <;> simp [h1]
  have hrange : (decide (h.toNat % 256 ≠ 0) || noSign h (s.ht .tsu) || decide (mask = 0)) = false := by
    simp [halign, hsign, hmask.ne']
  have hcode : firstFail s.fenced false (h.toNat % 256 ≠ 0 || noSign h (s.ht .tsu) || mask = 0) false
      (decide (s.slotSt slot ≠ 0) && !s.bt .tsu .slotState 14 slot) (sl.prelits.any fun pl => !pl.stages.isEmpty) = .ok := by
    rw [hf, hrange, hstate, hwait]
    rfl
  refine ⟨t, ?_, ⟨congrArg (fld · 2 0) (by cases x.eng.part <;> rfl), rfl⟩, hheld⟩
  unfold State.prelight
  simp only [hsl, hcode, hst, hdue, ne_eq, not_true_eq_false, if_false, Bool.false_eq_true]
  exact congrArg (fun u => (Code.ok, 0, u)) hwaits

theorem execPrelit_held {s : State} {x : CtxRef} {ta : Fin 8} {a : Fin 32} {mask k : Nat} {h h0 : HT} {sl : Slot} {rest : List (HT × Nat)}
    (hi : CanIssue s x 0) (hx : x.eng = .tsu) (hf : s.fenced = false) (hsl : mget (fun _ => ({} : Slot)) s.slots x.ctx.val = sl)
    (hs : s.slotSt x.ctx = 0 ∨ s.bt .tsu .slotState 14 x.ctx = true) (hidle : sl.prelits.all (fun pl => pl.stages.isEmpty) = true)
    (hg : s.g x.eng x.ctx a = BitVec.ofNat 64 mask) (hmask : 0 < mask ∧ mask < 2 ^ 16) (ht : s.t x.eng x.ctx ta = h)
    (halign : h.toNat % 256 = 0) (hsign : noSign h (s.ht .tsu) = false)
    (hst : plStages h ((List.range 16).filter fun g => mask.testBit g) (s.fd .tsu .sobPlCfg 19 8) (s.fd .tsu .sobPlCfg 31 20) sl.pre
      (!sl.launched && decide (s.slotSt x.ctx ≠ 0)) = (h0, k) :: rest)
    (hdue : atOrAfter (s.ht .tsu) h0 = false) :
    Completes (.prelit x ta a) s fun t =>
      Reports x a (outWord .ok 0) s t ∧
        (mget (fun _ => ({} : Slot)) t.slots x.ctx.val).prelits = sl.prelits ++ [{ id := sl.plCount, at_ := h, stages := (h0, k) :: rest }] := by
  obtain ⟨hpos, hlt⟩ := hmask
  have hv : (s.g x.eng x.ctx a).toNat = mask := by
    rw [hg, BitVec.toNat_ofNat]
    omega
  obtain ⟨t, hheld, hruns, hprelits⟩ := State.prelight_held x hf hsl hs hidle hpos halign hsign hst hdue
  refine completes_reports (exec_in_tsu hx rfl) (divides_wFT 0 ta a 0 (by decide) (by decide)) hi ?_ hruns fun u hu => ?_
  · simp only [hv, hlt, ht, hheld, if_true, State.report_ok]
    rfl
  · rw [hu.outside.slot, hprelits]

/-! ### GETC and PUTC (R228) -/

theorem updMask_addrOf (e : EngSel) (c : Fin 16) : addrOf e.part .sysUpdMask ∉ [addrOf e.part .ctxPc (ctxInst e c),
    addrOf e.part .ctxState (ctxInst e c), addrOf e.part .senEccCnt e.inst, addrOf e.part .senStat e.inst] := by
  cases e with
  | tsu => revert c; decide
  | tile t => revert c t; decide

theorem Inside.rd_updMask {x : CtxRef} {s t : State} (h : Inside x s t) : t.rd x.eng.part .sysUpdMask = s.rd x.eng.part .sysUpdMask := by
  refine (h.regs x.eng.part _).resolve_left fun ⟨_, k⟩ => updMask_addrOf x.eng x.ctx ?_
  simp only [List.mem_cons, List.not_mem_nil, or_false]
  tauto

theorem ctxState_ne_engineBook (e : EngSel) (c : Fin 16) :
    addrOf e.part .ctxState (ctxInst e c) ≠ addrOf e.part .sysUpdMask ∧ addrOf e.part .ctxState (ctxInst e c) ∉ bookWords e.part .engine := by
  cases e with
  | tsu => revert c; decide
  | tile t => revert c t; decide

/-- The bookkeeping of an access by the context's own class stops no context. -/
theorem Books.runs {x : CtxRef} {s t : State} (h : Books x.eng.part .engine s t) : StillRuns x s t := by
  refine ⟨congrArg (fld · 2 0) (h.rdA (ctxState_ne_engineBook x.eng x.ctx).2 _), ?_⟩
  rw [State.ctx_congr (State.eng_congr (h.outside.field State.engines) _)]

section
variable {s : State} {x : CtxRef}

/-- A read of SYS_UPD_MASK by a context. -/
theorem State.regRead_updMask (hp : s.permits x.eng.part { cls := .engine } (some 0) false = true) :
    ∃ t, s.regRead x.eng.part (ctxSrc x) (addrOf x.eng.part .sysUpdMask) true = (.ok, s.rd x.eng.part .sysUpdMask, t) ∧ StillRuns x s t := by
  obtain ⟨hcode, hdata, hbooks⟩ :=
    State.regRead_reg (src := ctxSrc x) (locate_plain x.eng.part (n := .sysUpdMask) (by decide)) (addrOf_aligned _ _ _ _) hp
  have hread : s.readReg x.eng.part (ctxSrc x) (.one .sysUpdMask) = (.ok, s.rd x.eng.part .sysUpdMask, s) := by
    cases x.eng.part <;> rfl
  rw [hread] at hcode hdata hbooks
  exact ⟨(s.regRead x.eng.part (ctxSrc x) (addrOf x.eng.part .sysUpdMask) true).2.2, Prod.ext hcode (Prod.ext hdata rfl), Books.runs hbooks⟩

/-- A write of SYS_UPD_MASK by a context. -/
theorem State.regWrite_updMask (v : Word) (hp : s.permits x.eng.part { cls := .engine } (some 0) true = true) :
    ∃ t, s.regWrite x.eng.part (ctxSrc x) (addrOf x.eng.part .sysUpdMask) v true = (.ok, t) ∧ StillRuns x s t ∧
      t.rd x.eng.part .sysUpdMask = v := by
  obtain ⟨u, hbefore, hcode, hafter⟩ :=
    State.regWrite_reg (src := ctxSrc x) v (locate_plain x.eng.part (n := .sysUpdMask) (by decide)) (addrOf_aligned _ _ _ _) hp rfl
  have hwrite (had : Bool) : (u.writeReg x.eng.part (ctxSrc x) (.one .sysUpdMask) v had).code = .ok ∧
      (u.writeReg x.eng.part (ctxSrc x) (.one .sysUpdMask) v had).s =
        u.wr x.eng.part .sysUpdMask (merged (u.rd x.eng.part .sysUpdMask) v 0xFFFFFFFF) := by
    cases x.eng.part <;> exact ⟨rfl, rfl⟩
  rw [(hwrite _).1] at hcode
  rw [(hwrite _).2] at hafter
  have hopened : StillRuns x s (s.opened x.eng.part (ctxSrc x)) := s.mod_runs x _
  have hwr : StillRuns x u (u.wr x.eng.part .sysUpdMask (merged (u.rd x.eng.part .sysUpdMask) v 0xFFFFFFFF)) :=
    ⟨congrArg (fld · 2 0) (u.rdA_wr_other _ _ _ _ (.inr (ctxState_ne_engineBook x.eng x.ctx).1)),
      by rw [State.ctx_congr (u.eng_wr _ _ _ _ _ _)]⟩
  exact ⟨_, Prod.ext hcode rfl, hopened.trans ((Books.runs hbefore).trans (hwr.trans (Books.runs hafter))), State.writeAt_updMask v hp⟩

variable {d a : Fin 32} {imm : BitVec 16} (hi : CanIssue s x 2) (ha : s.ctlAddr x a imm = some (addrOf x.eng.part .sysUpdMask))
include hi ha

theorem execGetc_updMask (hp : s.permits x.eng.part { cls := .engine } (some 0) false = true) :
    Completes (.getc x d a imm) s fun t => Reports x d (outWord .ok (s.rd x.eng.part .sysUpdMask).toNat) s t := by
  obtain ⟨t, hread, hruns⟩ := State.regRead_updMask hp
  exact completes_outcome rfl (divides_wFI _ _ _) hi (by simp only [ha, hread, if_true, State.reportQuiet_eq]) hruns

theorem execPutc_updMask {v : Word} (hp : s.permits x.eng.part { cls := .engine } (some 0) true = true)
    (hv : (s.g x.eng x.ctx d).setWidth 32 = v) :
    Completes (.putc x d a imm) s fun t => Reports x d (outWord .ok v.toNat) s t ∧ t.rd x.eng.part .sysUpdMask = v := by
  obtain ⟨t, hwrite, hruns, hrd⟩ := State.regWrite_updMask v hp
  refine completes_reports rfl (divides_wFI _ _ _) hi ?_ hruns fun u hu => hu.rd_updMask.trans hrd
  simp only [ha, hv, hwrite, State.reportQuiet_eq]

end

/-! ### JNL (R250, R366) -/

theorem count_spillScan (rd size room : Nat) (rs : List JRec) (j : Journal) : (spillScan rd size room rs j).1.count = j.count := by
  induction rs generalizing j with
  | nil => rfl
  | cons r rs ih =>
    unfold spillScan
    split_ifs
    · exact ih j
    · rfl
    · exact ih _
    · rfl

/-- Spilling takes no number. -/
theorem State.count_spillPump (s : State) : s.spillPump.tsu.jnl.count = s.tsu.jnl.count := by
  unfold State.spillPump
  split
  · dsimp only
    split
    · exact (congrArg Journal.count (State.jnl_wrA _ .tsu .tsu _ _)).trans (count_spillScan _ _ _ _ _)
    · exact count_spillScan _ _ _ _ _
  · rfl

/-- A record of the TSU's for which there is room, with no loss to tell of, takes the next number. -/
theorem State.count_jnl_tsu {s : State} {w : Who} (ty payload : Nat) (hp : w.p = .tsu) (hw : s.wiping .tsu = false)
    (hloss : s.tsu.jnl.loss = none) (hroom : s.tsu.jnl.recs.length < ringSize) :
    (s.jnl w ty payload).tsu.jnl.count = s.tsu.jnl.count + 1 := by
  obtain ⟨p, tile, blk, ctx⟩ := w
  subst hp
  have hflush : s.flushLoss = s := by simp only [State.flushLoss, hloss]
  rw [State.jnl, State.jnlAt, if_neg (by rw [hw]; decide)]
  show (State.spillPump _).tsu.jnl.count = _
  rw [State.count_spillPump, hflush]
  simp [State.pushRec, pushTsu, hroom]

theorem execJnl_room {s : State} {x : CtxRef} {d a b : Fin 32} {code : Byte} {n : Nat} (hi : CanIssue s x 0) (hbusy : s.jnlBusy x.eng = false)
    (hw : s.wiping x.eng.part = false) (hx : x.eng = .tsu) (hloss : s.tsu.jnl.loss = none) (hn : s.tsu.jnl.count = n) :
    Completes (.jnl x d a b code) s fun t => Reports x d (outWord .ok (n % 65536)) s t ∧ t.tsu.jnl.count = n + 1 := by
  have hroom : s.tsu.jnl.recs.length < ringSize := by
    rw [hx] at hbusy
    simp only [State.jnlBusy, decide_eq_false_iff_not] at hbusy
    omega
  let t := s.jnl (senWho x.eng x.ctx) (0xFF00 + code.toNat) ((s.g x.eng x.ctx a).toNat + 2 ^ 64 * (s.g x.eng x.ctx b).toNat)
  have hpart : x.eng.part = .tsu := by rw [hx]; rfl
  have hcount : t.tsu.jnl.count = n + 1 := by
    rw [← hn]
    exact State.count_jnl_tsu _ _ hpart (by rw [← hpart]; exact hw) hloss hroom
  have hseq : t.lastSeq x.eng = n % 65536 := by
    rw [hx, State.lastSeq, hcount]
    omega
  refine completes_reports rfl (divides_wF3 _ _ _ _) hi (t := t) ?_ (s.jnl_runs x _ _ _ rfl) fun u hu => ?_
  · simp only [hbusy, Bool.false_eq_true, if_false]
    rw [← hseq]
  · exact (congrArg Journal.count (hu.outside.part .tsu Part.jnl)).trans hcount

/-- Settles O33: what each instruction does to its wick, slot, register or journal, which its issue leaves alone. -/
theorem wickAndGuardInstructions : Obligations.WickAndGuardInstructions := by
  unfold Obligations.WickAndGuardInstructions
  refine ⟨?_, ?_, ?_, ?_, ?_, ?_, ?_⟩
  · exact fun x obj a consume oneshot plgrp n thr s => execBind_unmet
  · exact fun x obj a consume oneshot plgrp n s => execBindUnbind_ok
  · exact fun x ta a mask k h h0 sl rest s => execPrelit_held
  · exact fun x obj a n v s hi hx hg hv hs hcg hm hc hle => execCguard_binds hi hx hg hv hs hcg hm hc hle
  · exact fun x d a imm s hi ha hp => execGetc_updMask hi ha hp
  · intro x d a imm v s hi ha hp hv
    obtain ⟨t, ht, ⟨hret, hg⟩, hrd⟩ := execPutc_updMask hi ha hp hv
    exact ⟨t, ht, hret, hg, hrd⟩
  · exact fun x d a b code n s => execJnl_room

end Sys2Proof.Machine
end

section
/-!
PROOFS. Integer and FP64 instructions and comparisons: O24, O25, O27 and O28 (R197, R218–R223).
-/
namespace Sys2Proof.Machine
set_option Elab.async false

/-! ### Words that divide -/

/-- Of the words of opcode 0x10 only FDIV's and FSQRT's divide (R197, R221). -/
theorem divides_wF3_fp (d a b fn : Nat) (h3 : fn % 256 ≠ 3) (h4 : fn % 256 ≠ 4) (h : fn < 2048) : divides (wF3 0x10 d a b fn) = false := by
  have hd := Nat.mod_lt d (show 0 < 32 by decide)
  have ha := Nat.mod_lt a (show 0 < 32 by decide)
  have hb := Nat.mod_lt b (show 0 < 32 by decide)
  have hop : (wF3 0x10 d a b fn).toNat / 2 ^ 26 = 0x10 := by
    rw [wF3, BitVec.toNat_ofNat]
    omega
  have hfn : (wF3 0x10 d a b fn).toNat % 2 ^ 11 = fn := by
    rw [wF3, BitVec.toNat_ofNat]
    omega
  unfold divides issueInterval
  simp only [hop, hfn]
  split
  case h_6 h => exact absurd h h3
  case h_7 h => exact absurd h h4
  all_goals rfl

/-- An operation of opcode 0x10 in a rounding mode that is neither FDIV nor FSQRT does not divide. -/
theorem divides_wF3_rounded (md : Rnd) (d a b fn : Nat) (h : fn < 3 := by decide) : divides (wF3 0x10 d a b (256 * md.num + fn)) = false := by
  have hmd : md.num < 4 := by cases md <;> decide
  exact divides_wF3_fp d a b _ (by omega) (by omega) (by omega)

/-! ### Instructions that write one register -/

section
variable {c : Instr} {s : State} {x : CtxRef} {n : Nat} {word : Word} {prefixed : Bool} {body : Nat → Ends}

/-- An instruction that may divide, with the divide unit free, and that writes a g register and nothing else. -/
theorem completes_divides_writesG {d : Fin 32} {v : DWord} (hx : exec c s = .next (s.issue x word prefixed 0 body)) (hfree : DivideFree s x)
    (hi : CanIssue s x n) (hb : body (s.pc x.eng x.ctx) = .done (s.setG x.eng x.ctx d v)) (hn : n ≤ if prefixed then 2 else 0 := by decide) :
    Completes c s fun u => WritesG x d v s u :=
  ⟨_, hx, (State.issue_done hi hn (fun _ => hfree) hb (s.setG_runs x d v).cst (s.setG_runs x d v).stepping).writesG⟩

/-- One that writes a predicate and nothing else. -/
theorem completes_writesP {d : Fin 8} {v : Bool} (hx : exec c s = .next (s.issue x word prefixed 0 body)) (hd : divides word = false)
    (hi : CanIssue s x n) (hb : body (s.pc x.eng x.ctx) = .done (s.setP x.eng x.ctx d v)) (hn : n ≤ if prefixed then 2 else 0 := by decide) :
    Completes c s fun u => WritesP x d v s u := by
  have hruns := s.setP_runs x d v
  exact ⟨_, hx, (State.issue_done hi hn (fun h => by rw [hd] at h; cases h) hb hruns.cst hruns.stepping).writesP⟩

end

/-- The greater of two signed words, whichever of them is taken where they are equal. -/
theorem max_word_comm (u v : DWord) : (if u.toInt > v.toInt then u else v) = if u.toInt < v.toInt then v else u := by
  obtain h | h | h := lt_trichotomy u.toInt v.toInt
  · rw [if_neg (by omega), if_pos h]
  · rw [if_neg (by omega), if_neg (by omega), BitVec.eq_of_toInt_eq h]
  · rw [if_pos h, if_neg (by omega)]

/-! ### The obligations -/

/-- Settles O24. -/
theorem integerRegisterInstructions : Obligations.IntegerRegisterInstructions := by
  unfold Obligations.IntegerRegisterInstructions
  refine ⟨fun x d a b s hi => completes_writesG rfl (divides_wF3 _ _ _ _) hi rfl,
    fun x d a b s hi => completes_writesG rfl (divides_wF3 _ _ _ _) hi rfl,
    fun x d a b s hi => completes_writesG rfl (divides_wF3 _ _ _ _) hi rfl,
    fun x d a b s hi => completes_writesG rfl (divides_wF3 _ _ _ _) hi rfl,
    fun x d a b s hi => completes_writesG rfl (divides_wF3 _ _ _ _) hi rfl,
    fun x d a b s hi => completes_writesG rfl (divides_wF3 _ _ _ _) hi rfl,
    fun x d a b s hi => completes_writesG rfl (divides_wF3 _ _ _ _) hi rfl,
    fun x d a b s hi => completes_writesG rfl (divides_wF3 _ _ _ _) hi rfl,
    fun x d a b s hi => completes_writesG rfl (divides_wF3 _ _ _ _) hi rfl,
    fun x d a b s hi => completes_writesG rfl (divides_wF3 _ _ _ _) hi ?_,
    fun x d a b s hi => completes_writesG rfl (divides_wF3 _ _ _ _) hi rfl,
    fun x d a b s hi => completes_writesG rfl (divides_wF3 _ _ _ _) hi rfl,
    fun x d a s hi => completes_writesG rfl (divides_wF3 _ _ _ _) hi rfl⟩
  exact congrArg (fun v => Ends.done (s.setG x.eng x.ctx d v)) (max_word_comm _ _)

/-- Settles O25. -/
theorem integerComparisons : Obligations.IntegerComparisons := by
  unfold Obligations.IntegerComparisons
  exact ⟨fun x d a b s hi => completes_writesP rfl (divides_wF3 _ _ _ _) hi rfl,
    fun x d a b s hi => completes_writesP rfl (divides_wF3 _ _ _ _) hi rfl,
    fun x d a b s hi => completes_writesP rfl (divides_wF3 _ _ _ _) hi rfl⟩

/-- Settles O27: FDIV and FSQRT take the divide unit, which is free; no other word divides. -/
theorem floatingPointInstructions : Obligations.FloatingPointInstructions := by
  unfold Obligations.FloatingPointInstructions
  exact ⟨fun x md d a b s hi => completes_writesG rfl (divides_wF3_rounded md _ _ _ _) hi rfl,
    fun x md d a b s hi => completes_writesG rfl (divides_wF3_rounded md _ _ _ _) hi rfl,
    fun x md d a b s hi => completes_writesG rfl (divides_wF3_rounded md _ _ _ _) hi rfl,
    fun x md d a b s hi hfree => completes_divides_writesG rfl hfree hi rfl,
    fun x md d a s hi hfree => completes_divides_writesG rfl hfree hi rfl,
    fun x d a b s hi => completes_writesG rfl (divides_wF3_fp _ _ _ 5 (by decide) (by decide) (by decide)) hi rfl,
    fun x d a b s hi => completes_writesG rfl (divides_wF3_fp _ _ _ 6 (by decide) (by decide) (by decide)) hi rfl,
    fun x md d a b s hi => completes_writesG rfl (divides_wF3 _ _ _ _) hi rfl,
    fun x md d a s hi => completes_writesG rfl (divides_wF3 _ _ _ _) hi rfl,
    fun x md d a s hi => completes_writesG rfl (divides_wF3 _ _ _ _) hi rfl,
    fun x md d a s hi => completes_writesG rfl (divides_wF3 _ _ _ _) hi rfl,
    fun x md d a s hi => completes_writesG rfl (divides_wF3 _ _ _ _) hi rfl,
    fun x md d a s hi => completes_writesG rfl (divides_wF3 _ _ _ _) hi rfl⟩

/-- Settles O28. -/
theorem floatingPointComparisons : Obligations.FloatingPointComparisons := by
  unfold Obligations.FloatingPointComparisons
  exact ⟨fun x d a b s hi => completes_writesP rfl (divides_wF3 _ _ _ _) hi rfl,
    fun x d a b s hi => completes_writesP rfl (divides_wF3 _ _ _ _) hi rfl,
    fun x d a b s hi => completes_writesP rfl (divides_wF3 _ _ _ _) hi rfl,
    fun x d a b s hi => completes_writesP rfl (divides_wF3 _ _ _ _) hi rfl⟩

end Sys2Proof.Machine
end

section
/-!
PROOFS. Loads and stores, and O30 (R202–R204, R226, R227).
-/
namespace Sys2Proof.Machine
set_option Elab.async false

/-- The issue leaves of a state that an error correction left what it leaves of the state before it. -/
theorem Issued.of_aside {x : CtxRef} {pc : Nat} {s t0 t u : State} (ha : Aside x t0 t) (h : Issued x pc s t u) : Issued x pc s t0 u where
  inside := ha.inside.trans h.inside
  last := h.last
  cycle := h.cycle
  ctx := by rw [h.ctx, ha.ctx]
  dmem := h.dmem.trans ha.dmem
  retired := h.retired

theorem Aside.runs {x : CtxRef} {s t : State} (h : Aside x s t) : StillRuns x s t := ⟨h.cst, congrArg Ctx.stepping h.ctx⟩

/-- An access in the DWIN passes the checks (R226, R238). -/
theorem State.dmemCheck_inDwin {s : State} {x : CtxRef} {off w : Nat} (h : InDwin s x off w) :
    s.dmemCheck x.eng x.ctx off w w = .inl (s.dwinBase x.eng x.ctx + off) := by
  obtain ⟨hal, hsz⟩ := h
  rw [State.dmemCheck, if_neg (not_not.2 hal), if_neg (by omega)]

theorem natLe_getD : ∀ (n v i : Nat), i < n → (natLe n v).getD i 0 = BitVec.ofNat 8 (v / 256 ^ i)
  | 0, _, _, h => absurd h (Nat.not_lt_zero _)
  | n + 1, v, 0, _ => by simp [natLe]
  | n + 1, v, i + 1, h => by
    rw [natLe, List.getD_cons_succ, natLe_getD n (v / 256) i (by omega), Nat.div_div_eq_div_mul, Nat.pow_succ, Nat.mul_comm]

section
variable {c : Instr} {s : State} {x : CtxRef} {n w o : Nat} {word : Word} {prefixed : Bool} {d a : Fin 32} {ext : Int}

/-- A load writes gd alone. -/
theorem completes_load (hx : exec c s = .next (opLoad x word prefixed w d a ext s)) (hd : divides word = false) (hi : CanIssue s x n)
    (ho : (s.g x.eng x.ctx a + BitVec.ofInt 64 ext).toNat = o) (hw : InDwin s x o w) (hb : s.badDmem x.eng (s.dwinBase x.eng x.ctx + o) w = false)
    (hn : n ≤ if prefixed then 2 else 0 := by decide) :
    Completes c s fun t => WritesG x d (BitVec.ofNat 64 (s.dmemRead x.eng (s.dwinBase x.eng x.ctx + o) w)) s t := by
  let t0 := s.setG x.eng x.ctx d (BitVec.ofNat 64 (s.dmemRead x.eng (s.dwinBase x.eng x.ctx + o) w))
  let t := t0.dmemSeen x.eng (s.dwinBase x.eng x.ctx + o) w
  have hseen : Aside x t0 t := t0.eccCorrect_aside x _ false
  have hruns := (s.setG_runs x d _).trans hseen.runs
  exact ⟨_, hx, (Issued.of_aside hseen (State.issue_done hi hn (fun h => by rw [hd] at h; cases h)
    (by simp only [ho, State.dmemCheck_inDwin hw, hb, Bool.false_eq_true, if_false, t, t0]) hruns.cst hruns.stepping)).writesG⟩

/-- What a store leaves of the context's engine before the rest of its first and last words has been read. -/
theorem State.dmemWrite_inside (s : State) (x : CtxRef) (a w v : Nat) : Inside x s (s.dmemWrite x.eng a w v) ∧
    (s.dmemWrite x.eng a w v).ctx x.eng x.ctx = s.ctx x.eng x.ctx ∧ StillRuns x s (s.dmemWrite x.eng a w v) := by
  unfold State.dmemWrite State.dmemBlock
  extract_lets n full
  generalize hu : s.modEng x.eng (fun g => { g with
    dmem := (List.range n).foldl (fun m k => mset (fun _ => 0) m (a + k) ((natLe w v).getD k 0)) g.dmem
    badD := g.badD.filter (!full ·), oneD := g.oneD.filter (!full ·) }) = u
  have hseen : Aside x u (u.dmemSeen x.eng a n) := u.eccCorrect_aside x _ false
  have hone (l : List Nat) : l.filter (!full ·) ≠ [] → l ≠ [] := fun h hl => h (by rw [hl, List.filter_nil])
  have hin : Inside x s u := hu ▸ s.modEng_inside x _ rfl (Or.imp id (hone _))
  have hctx : u.ctx x.eng x.ctx = s.ctx x.eng x.ctx := by
    rw [← hu, State.ctx, State.modEng, State.eng_setEng_same]
    rfl
  have hreg : u.cst x.eng x.ctx = s.cst x.eng x.ctx := by
    rw [← hu]
    cases x.eng <;> rfl
  exact ⟨hin.trans hseen.inside, hseen.ctx.trans hctx, StillRuns.trans ⟨hreg, by rw [hctx]⟩ hseen.runs⟩

/-- A store writes the bytes of gd alone. -/
theorem completes_store (hx : exec c s = .next (opStore x word prefixed w d a ext s)) (hd : divides word = false) (hi : CanIssue s x n)
    (ho : (s.g x.eng x.ctx a + BitVec.ofInt 64 ext).toNat = o) (hw : InDwin s x o w)
    (hb : w = 8 ∨ s.badDmem x.eng (s.dwinBase x.eng x.ctx + o) w = false) (hn : n ≤ if prefixed then 2 else 0 := by decide) :
    Completes c s fun t => StoresD x (s.dwinBase x.eng x.ctx + o) w (s.g x.eng x.ctx d) s t := by
  let t := s.dmemWrite x.eng (s.dwinBase x.eng x.ctx + o) w (s.g x.eng x.ctx d).toNat
  obtain ⟨hin, hctx, hruns⟩ : Inside x s t ∧ t.ctx x.eng x.ctx = s.ctx x.eng x.ctx ∧ StillRuns x s t := s.dmemWrite_inside x _ w _
  have hbody : ¬ (w ≠ 8 ∧ s.badDmem x.eng (s.dwinBase x.eng x.ctx + o) w = true) := by
    rintro ⟨h8, hbad⟩
    obtain h | h := hb
    · exact h8 h
    · rw [h] at hbad; cases hbad
  have hu : Issued x (nextPc x s) s t (opStore x word prefixed w d a ext s) := State.issue_done hi hn (fun h => by rw [hd] at h; cases h)
    (by simp only [ho, State.dmemCheck_inDwin hw, if_neg hbody, t]) hruns.cst hruns.stepping
  refine ⟨_, hx, hu.onlyContext hin, hu.retired, hu.keepsOps (by rw [hctx]) (by rw [hctx]) (by rw [hctx]),
    ⟨fun r => (hu.tReg r).trans (State.t_congr (by rw [hctx]) r), by rw [hu.ctx, hctx]⟩,
    fun r => (hu.gReg r).trans (State.g_congr (by rw [hctx]) r), fun b => ?_⟩
  rw [Engine.byte, hu.dmem]
  refine (s.byte_dmemWrite x.eng _ w _ b).trans ?_
  split
  · exact natLe_getD _ _ _ (by omega)
  · rfl

end

/-- Settles O30. -/
theorem loadsAndStores : Obligations.LoadsAndStores := by
  unfold Obligations.LoadsAndStores
  exact ⟨fun x d a imm o s hi ho hw hb => completes_load rfl (divides_wFI _ _ _) hi ho hw hb,
    fun x d a imm o s hi ho hw hb => completes_load rfl (divides_wFI _ _ _) hi ho hw hb,
    fun x d a off o s hi ho hw hb => completes_load rfl (divides_wF3 _ _ _ _) hi ho hw hb,
    fun x d a off o s hi ho hw hb => completes_load rfl (divides_wF3 _ _ _ _) hi ho hw hb,
    fun x d a imm o s hi ho hw => completes_store rfl (divides_wFI _ _ _) hi ho hw (.inl rfl),
    fun x d a imm o s hi ho hw hb => completes_store rfl (divides_wFI _ _ _) hi ho hw (.inr hb),
    fun x d a off o s hi ho hw hb => completes_store rfl (divides_wF3 _ _ _ _) hi ho hw (.inr hb),
    fun x d a off o s hi ho hw hb => completes_store rfl (divides_wF3 _ _ _ _) hi ho hw (.inr hb)⟩

end Sys2Proof.Machine
end

section
/-!
PROOFS. Faults of an issuing context, and O47 (R203, R204, R207, R214, R217, R233).
-/
namespace Sys2Proof.Machine
set_option Elab.async false

/-! ### A fault -/

/-- FADDR lies apart from the PC and the state of its context. -/
theorem ctxFaddr_ne (e : EngSel) (c : Fin 16) : ∀ n ∈ ctxRegs, addrOf e.part n (ctxInst e c) ≠ addrOf e.part .ctxFaddr (ctxInst e c) := by
  cases e with
  | tsu => revert c; decide
  | tile t => revert c t; decide

/-- The context is FAULTED with cause `k`, and its PC is as it was unless a chain was open (R207, R216). -/
abbrev Faulted (x : CtxRef) (k : Nat) (s t : State) : Prop :=
  t.cst x.eng x.ctx = 4 ∧ t.fd x.eng.part .ctxState 15 4 (ctxInst x.eng x.ctx) = k ∧
    ((s.ctx x.eng x.ctx).fx = [] → t.pc x.eng x.ctx = s.pc x.eng x.ctx)

/-- What does not count for the context leaves it FAULTED. -/
theorem Faulted.of_aside {x : CtxRef} {k : Nat} {s t u : State} (h : Faulted x k s t) (ha : Aside x t u) : Faulted x k s u := by
  obtain ⟨hst, hcause, hpc⟩ := h
  exact ⟨ha.cst.trans hst, (congrArg (fld · 15 4) (ha.rd _ (by decide))).trans hcause, fun hfx => ha.pc.trans (hpc hfx)⟩

/-- A PC is at most one past the last index of an IMEM. -/
theorem State.pcAt_pc (s : State) (e : EngSel) (c : Nat) : pcAt (s.pc e c) = s.pc e c := by
  have hlt : s.fd e.part .ctxPc 15 0 (ctxInst e c) < 65536 := Nat.mod_lt _ (by decide)
  unfold State.pc
  split <;> simp only [pcAt] <;> split <;> omega

/-- The word of SEN_CTXc_STATE after a fault. -/
theorem fld_faultWord {cause : Nat} (hc : cause < 256) :
    fld (BitVec.ofNat 32 (16 * (cause % 256) + 4)) 2 0 = 4 ∧ fld (BitVec.ofNat 32 (16 * (cause % 256) + 4)) 15 4 = cause := by
  simp only [fld, bits, BitVec.toNat_ofNat, Nat.shiftRight_eq_div_pow]
  omega

/-- A fault takes the context to FAULTED (R207, R209, R216, R233). -/
theorem State.faultCtx_faulted (s : State) (x : CtxRef) (cause faddr : Nat) (word : Word) (hc : cause < 256) :
    Faulted x cause s (s.faultCtx x.eng x.ctx cause faddr word) := by
  unfold State.faultCtx
  extract_lets y i pc first pkg s0 s1 s2
  have h0 : s0.ctx x.eng x.ctx = s.ctx x.eng x.ctx := by unfold s0; split <;> rfl
  have hpc1 : s1.rd x.eng.part .ctxPc i = BitVec.ofNat 32 (pc % 65536) :=
    (State.rdA_modCtx _ _ _ _ _ _).trans ((State.rdA_modCtx _ _ _ _ _ _).trans (s0.rd_wr_ctx_same x.eng x.ctx _))
  have hctx1 : s1.ctx x.eng x.ctx = { s.ctx x.eng x.ctx with pastEnd := decide (65536 ≤ pc), fx := [], stepping := false, wait := none } := by
    rw [State.ctx_modCtx_same, s0.ctx_setPc, h0]
  generalize hu : (s2.setB x.eng.part .senStat 0 x.eng.inst).jnl (senWho x.eng x.ctx) 0x0500 _ = u
  have hrd (n : RegName) (hn : n ∈ ctxRegs) :
      u.rd x.eng.part n i = (s1.wr x.eng.part .ctxState (BitVec.ofNat 32 (16 * (cause % 256) + 4)) i).rd x.eng.part n i := by
    rw [← hu]
    exact (State.rd_ctx_jnl _ x.eng x.ctx _ _ _ hn rfl).trans ((s2.rd_ctx_wr_ecc x.eng x.ctx _ hn (by decide)).trans
      (State.rdA_wr_other _ _ _ _ _ (.inr (ctxFaddr_ne x.eng x.ctx n hn))))
  have hctx : u.ctx x.eng x.ctx = s1.ctx x.eng x.ctx := by
    rw [← hu]
    exact State.ctx_congr ((State.eng_jnl _ _ _ _ _).trans ((State.eng_wr _ _ _ _ _ _ _).trans ((State.eng_wr _ _ _ _ _ _ _).trans
      (State.eng_wr _ _ _ _ _ _ _)))) _
  have hst := (hrd .ctxState (by decide)).trans (s1.rd_wr_ctx_same x.eng x.ctx _)
  obtain ⟨h4, hk⟩ := fld_faultWord hc
  refine ⟨(congrArg (fld · 2 0) hst).trans h4, (congrArg (fld · 15 4) hst).trans hk, fun hfx => ?_⟩
  have hpc : pc = s.pc x.eng x.ctx := if_pos (by rw [hfx]; rfl)
  have hpcu := (hrd .ctxPc (by decide)).trans ((s1.rd_ctxPc_wr_ctxState x.eng x.ctx _).trans hpc1)
  rw [State.pc, State.fd, hpcu, hctx, hctx1, fld_word_low, hpc]
  exact (pcAt_eq _).symm.trans (s.pcAt_pc _ _)

/-- So does one whose error has been counted (R204). -/
theorem State.eccUncorr_faultCtx_faulted (s : State) (x : CtxRef) (cause faddr : Nat) (word : Word) (hc : cause < 256) :
    Faulted x cause s ((s.eccUncorr x.eng).faultCtx x.eng x.ctx cause faddr word) := by
  obtain ⟨hst, hcause, hpc⟩ := (s.eccUncorr x.eng).faultCtx_faulted x cause faddr word hc
  have hctx : (s.eccUncorr x.eng).ctx x.eng x.ctx = s.ctx x.eng x.ctx :=
    State.ctx_congr ((State.eng_wr _ _ _ _ _ _ _).trans (State.eng_wr _ _ _ _ _ _ _)) _
  have hrd : (s.eccUncorr x.eng).rd x.eng.part .ctxPc (ctxInst x.eng x.ctx) = s.rd x.eng.part .ctxPc (ctxInst x.eng x.ctx) :=
    (State.rd_ctx_wr_ecc _ x.eng x.ctx _ (by decide) (by decide)).trans (s.rd_ctx_wr_ecc x.eng x.ctx _ (by decide) (by decide))
  refine ⟨hst, hcause, fun hfx => (hpc (by rw [hctx, hfx])).trans ?_⟩
  rw [State.pc, State.pc, State.fd, State.fd, hrd, hctx]

/-! ### An issue that faults -/

/-- The context may issue, or its last instruction may end: it is STOPPING, or it is RUNNING, its turn, and the divide unit does not hold it
(R195, R197, R207). -/
abbrev MayEnd (s : State) (x : CtxRef) (word : Word) : Prop :=
  s.cst x.eng x.ctx = 3 ∨ (s.cst x.eng x.ctx = 1 ∧ s.turnAt x.eng (s.cycleOf x) = some x.ctx.val ∧ (divides word = false ∨ DivideFree s x))

/-- Of an instruction that faults the context is left FAULTED. -/
theorem State.issue_faulted {s t : State} {x : CtxRef} {word : Word} {here k : Nat} {body : Nat → Ends} (hm : MayEnd s x word)
    (hx : s.executes x word false here body = t) (h : Faulted x k s t) : Faulted x k s (s.issue x word false here body) := by
  have hecc := t.eccCorrect_aside x [s.iwinBase x.eng x.ctx + s.pc x.eng x.ctx] true
  unfold State.issue
  dsimp only
  rw [hx]
  obtain hstop | ⟨hrun, hturn, hdiv⟩ := hm
  · have hst := hecc.cst.trans h.1
    rw [if_neg (by simp [hstop]), State.inTurn, if_pos hstop, hst]
    exact h.of_aside hecc
  · have hfree : (divides word && decide (s.cycleOf x < (s.eng x.eng).divFree)) = false := by
      obtain hd | hd := hdiv
      · rw [hd, Bool.false_and]
      · rw [decide_eq_false (Nat.not_lt.2 hd), Bool.and_false]
    rw [if_neg (by simp [hrun]), State.inTurn, if_neg (by simp [hrun]), if_neg (by simp [hturn]), if_neg (by rw [hfree]; decide)]
    exact h.of_aside (hecc.trans (State.tookTurn_aside x _ _ _))

/-- A word that spells no instruction (R217). -/
theorem execIllegal_faulted {s : State} {x : CtxRef} {w : Word} (hm : MayEnd s x w) (hpc : s.pc x.eng x.ctx < s.iwinSize x.eng x.ctx)
    (hbad : (s.eng x.eng).badI.contains (s.iwinBase x.eng x.ctx + s.pc x.eng x.ctx) = false) (hdec : (decodeWord x w).isSome = false) :
    Completes (.illegal x w) s fun t => Faulted x 1 s t := by
  refine ⟨s.issue x w false 0x01 fun _ => .done s, ?_, State.issue_faulted hm ?_ (s.faultCtx_faulted x 0x01 0 w (by decide))⟩
  · show Host.Outcome.next (illegalWord x w s) = _
    rw [illegalWord, if_neg (by rw [hdec]; decide)]
  · unfold State.executes
    dsimp only
    rw [if_neg (by omega), if_neg (by rw [hbad]; decide), if_pos rfl]

/-- A fetch at or beyond the size of the IWIN (R203). -/
theorem execIfetch_out {s : State} {x : CtxRef}
    (hm : s.cst x.eng x.ctx = 3 ∨ (s.cst x.eng x.ctx = 1 ∧ s.turnAt x.eng (s.cycleOf x) = some x.ctx.val))
    (hpc : s.iwinSize x.eng x.ctx ≤ s.pc x.eng x.ctx) : Completes (.ifetch x) s fun t => Faulted x 5 s t := by
  refine ⟨s.issue x 0 false 0 fun _ => .done s, ?_,
    State.issue_faulted (hm.imp id fun ⟨hrun, hturn⟩ => ⟨hrun, hturn, .inl (by decide)⟩) ?_ (s.faultCtx_faulted x 0x05 (s.pc x.eng x.ctx) 0 (by decide))⟩
  · show Host.Outcome.next (fetchFault x s) = _
    simp [fetchFault, hpc]
  · unfold State.executes
    dsimp only
    rw [if_pos hpc]

/-- A fetch of a word with a stored double-bit error (R204). -/
theorem execIfetch_ecc {s : State} {x : CtxRef}
    (hm : MayEnd s x (mget (fun _ => 0) (s.eng x.eng).imem (s.iwinBase x.eng x.ctx + s.pc x.eng x.ctx)))
    (hpc : s.pc x.eng x.ctx < s.iwinSize x.eng x.ctx)
    (hbad : (s.eng x.eng).badI.contains (s.iwinBase x.eng x.ctx + s.pc x.eng x.ctx) = true) :
    Completes (.ifetch x) s fun t => Faulted x 9 s t := by
  let word := mget (fun _ => 0) (s.eng x.eng).imem (s.iwinBase x.eng x.ctx + s.pc x.eng x.ctx)
  refine ⟨s.issue x word false 0 fun _ => .done s, ?_,
    State.issue_faulted hm ?_ (s.eccUncorr_faultCtx_faulted x 0x09 (s.pc x.eng x.ctx) word (by decide))⟩
  · show Host.Outcome.next (fetchFault x s) = _
    simp only [fetchFault, hbad, Bool.or_true, if_true, decide_eq_false (Nat.not_le.2 hpc), Bool.false_eq_true, if_false, word]
  · unfold State.executes
    dsimp only
    rw [if_neg (by omega), if_pos hbad]

/-- Settles O47: each command's fault is an end of the issue, which leaves the context FAULTED. -/
theorem faultsOfAnIssuingContext : Obligations.FaultsOfAnIssuingContext := by
  unfold Obligations.FaultsOfAnIssuingContext
  refine ⟨?_, fun x w s _ hst hpc hbad hdec => execIllegal_faulted (.inl hst) hpc hbad hdec,
    fun x s _ hm hpc => execIfetch_out hm hpc, fun x s _ hm hpc hbad hdiv => execIfetch_ecc ?_ hpc hbad⟩
  · rintro x w s - ⟨hrun, hturn, hpc, hbad, -⟩ hdec hdiv
    exact execIllegal_faulted (.inr ⟨hrun, hturn, hdiv⟩) hpc hbad hdec
  · obtain hstop | ⟨hrun, hturn⟩ := hm
    · exact .inl hstop
    · exact .inr ⟨hrun, hturn, hdiv.resolve_left (by omega)⟩

end Sys2Proof.Machine
end

section
/-!
PROOFS. What keeps the invariant: the canonical forms and ring sizes of `Inv`, kept by every operation, and the memories of the engines, which an
operation leaves alone unless it stores. One lemma for each operation of the state; those of the plain updates first.
-/
namespace Sys2Proof.Machine
set_option Elab.async false

/-! ### The relation -/

/-- The records a part's journal ring has room for (R366, R370). -/
def ringCap : PartId → Nat
  | .tsu => ringSize
  | .dist => hbmRingSize

/-- What the invariant asks of a part: canonical register words, and a ring within its size. -/
structure Part.Canonical (p : PartId) (q : Part) : Prop where
  regs : mwf (resetAt p) q.regs = true
  ring : q.jnl.recs.length ≤ ringCap p

/-- What the invariant asks of an engine: canonical memories. -/
structure Engine.Canonical (v : Engine) : Prop where
  imem : mwf (fun _ => (0 : Word)) v.imem = true
  dmem : mwf (fun _ => (0 : Byte)) v.dmem = true

/-- From `s` to `t` what the invariant asks is kept; without `m` the engines' memories stay as they are besides. A lemma `Orderly.f` carries the
relation from a state across the model's operation `f`, so that a proof about an operation follows the order of its definition. -/
structure Orderly (m : Bool) (s t : State) : Prop where
  imem : m = false → ∀ e, (t.eng e).imem = (s.eng e).imem
  dmem : m = false → ∀ e, (t.eng e).dmem = (s.eng e).dmem
  eng : ∀ e, (s.eng e).Canonical → (t.eng e).Canonical
  part : ∀ p, (s.part p).Canonical p → (t.part p).Canonical p
  maps : Maps s → Maps t

variable {m : Bool} {s0 s t u : State}

/-- The invariant, by parts, engines and maps. -/
theorem inv_iff : Inv s ↔ (∀ p, (s.part p).Canonical p) ∧ (∀ e, (s.eng e).Canonical) ∧ Maps s := by
  constructor
  · rintro ⟨htsu, hdist, heng, hmaps, hring, hhbm⟩
    refine ⟨fun p => ?_, fun e => ⟨(heng e).1, (heng e).2⟩, hmaps⟩
    cases p
    · exact ⟨htsu, hring⟩
    · exact ⟨hdist, hhbm⟩
  · rintro ⟨hpart, heng, hmaps⟩
    exact ⟨(hpart .tsu).regs, (hpart .dist).regs, fun e => ⟨(heng e).imem, (heng e).dmem⟩, hmaps, (hpart .tsu).ring, (hpart .dist).ring⟩

theorem Orderly.inv (h : Orderly m s t) (hi : Inv s) : Inv t := by
  obtain ⟨hpart, heng, hmaps⟩ := inv_iff.1 hi
  exact inv_iff.2 ⟨fun p => h.part p (hpart p), fun e => h.eng e (heng e), h.maps hmaps⟩

theorem Orderly.refl : Orderly m s s := ⟨fun _ _ => rfl, fun _ _ => rfl, fun _ => id, fun _ => id, id⟩

theorem Orderly.trans (h : Orderly m s t) (k : Orderly m t u) : Orderly m s u where
  imem hm e := (k.imem hm e).trans (h.imem hm e)
  dmem hm e := (k.dmem hm e).trans (h.dmem hm e)
  eng e := k.eng e ∘ h.eng e
  part p := k.part p ∘ h.part p
  maps := k.maps ∘ h.maps

/-- A change that leaves every engine as it is. -/
theorem Orderly.of_engines (he : t.engines = s.engines) (hp : ∀ p, (s.part p).Canonical p → (t.part p).Canonical p) (hm : Maps s → Maps t) :
    Orderly m s t :=
  ⟨fun _ _ => by rw [State.eng_congr he], fun _ _ => by rw [State.eng_congr he], fun _ => by rw [State.eng_congr he]; exact id, hp, hm⟩

theorem Orderly.ite {c : Prop} [Decidable c] (h : Orderly m s0 t) (k : Orderly m s0 u) : Orderly m s0 (if c then t else u) := by
  split
  · exact h
  · exact k

section
variable {α β : Type}

theorem Orderly.ite2 {c : Prop} [Decidable c] {x y : α × State} (h : Orderly m s0 x.2) (k : Orderly m s0 y.2) : Orderly m s0 (if c then x else y).2 := by
  split
  · exact h
  · exact k

theorem Orderly.ite3 {c : Prop} [Decidable c] {x y : α × β × State} (h : Orderly m s0 x.2.2) (k : Orderly m s0 y.2.2) :
    Orderly m s0 (if c then x else y).2.2 := by
  split
  · exact h
  · exact k

theorem Orderly.ite1 {c : Prop} [Decidable c] {x y : State × α} (h : Orderly m s0 x.1) (k : Orderly m s0 y.1) : Orderly m s0 (if c then x else y).1 := by
  split
  · exact h
  · exact k

theorem Orderly.iteRes {c : Prop} [Decidable c] {x y : WRes} (h : Orderly m s0 x.s) (k : Orderly m s0 y.s) : Orderly m s0 (if c then x else y).s := by
  split
  · exact h
  · exact k

theorem Orderly.res {c : Code} {late flags : Nat} {quiet : Bool} {cfg : Option (Word × Word)} (h : Orderly m s0 t) :
    Orderly m s0 (WRes.mk t c late quiet cfg flags).s := h

theorem Orderly.fail {c : Code} (h : Orderly m s0 t) : Orderly m s0 (WRes.fail c t).s := h

theorem Orderly.of {r : Code × State} {cfg : Option (Word × Word)} (h : Orderly m s0 r.2) : Orderly m s0 (WRes.of r cfg).s := h

theorem Orderly.pair {a : α} (h : Orderly m s0 t) : Orderly m s0 (a, t).2 := h

theorem Orderly.fst {a : α} (h : Orderly m s0 t) : Orderly m s0 (t, a).1 := h

theorem Orderly.triple {a : α} {b : β} (h : Orderly m s0 t) : Orderly m s0 (a, b, t).2.2 := h

theorem Orderly.of_snd {x : α × State} {a : α} (h : Orderly m s0 x.2) (hx : x = (a, t)) : Orderly m s0 t := by
  subst hx
  exact h

theorem Orderly.of_fst {x : State × α} {a : α} (h : Orderly m s0 x.1) (hx : x = (t, a)) : Orderly m s0 t := by
  subst hx
  exact h

end

/-- A fold each of whose steps is orderly. -/
theorem Orderly.foldl {α : Type} {f : State → α → State} {l : List α} (h : Orderly m s0 s) (hf : ∀ t a, Orderly m s0 t → Orderly m s0 (f t a)) :
    Orderly m s0 (l.foldl f s) := by
  induction l generalizing s with
  | nil => exact h
  | cons a l ih => exact ih (hf s a h)

/-! ### How an instruction ends -/

/-- Every state in which the instruction can end has the property. -/
def Ends.All (P : State → Prop) : Ends → Prop
  | .done s | .jump _ s | .wait _ s | .halt s => P s
  | .fault .. | .held => True

section
variable {P : State → Prop}

theorem Ends.All.done (h : P s) : (Ends.done s).All P := h

theorem Ends.All.jump {g : Int} (h : P s) : (Ends.jump g s).All P := h

theorem Ends.All.wait {w : Waiting} (h : P s) : (Ends.wait w s).All P := h

theorem Ends.All.halt (h : P s) : (Ends.halt s).All P := h

theorem Ends.All.fault {cause faddr : Nat} : (Ends.fault cause faddr).All P := trivial

theorem Ends.All.held : Ends.held.All P := trivial

theorem Ends.All.ite {c : Prop} [Decidable c] {x y : Ends} (h : x.All P) (k : y.All P) : (if c then x else y).All P := by
  split
  · exact h
  · exact k

theorem Ends.All.also {f : State → State} {x : Ends} (h : x.All P) (hf : ∀ t, P t → P (f t)) : (x.also f).All P := by
  cases x with
  | done s => exact hf s h
  | jump g s => exact hf s h
  | wait w s => exact hf s h
  | halt s => exact hf s h
  | fault cause faddr => trivial
  | held => trivial

end

/-! ### How a command ends -/

/-- A command's outcome is a next state, which has the property. -/
def Lands (P : State → Prop) (o : Host.Outcome State Fault Refusal) : Prop := ∃ t, o = .next t ∧ P t

theorem Lands.next {P : State → Prop} (h : P s) : Lands P (.next s) := ⟨s, rfl, h⟩

/-! ### The plain updates -/

/-- A part changed in neither its register words nor the records of its ring. -/
theorem Orderly.mod {p : PartId} {f : Part → Part} (h : Orderly m s0 s) (hr : ∀ q, (f q).regs = q.regs := by intro _; rfl)
    (hj : ∀ q, (f q).jnl.recs = q.jnl.recs := by intro _; rfl) : Orderly m s0 (s.mod p f) := by
  refine h.trans (.of_engines (s.mod_engines p f) (fun q hq => ?_) ?_)
  · by_cases hp : q = p
    · subst hp
      rw [s.part_mod_same]
      exact ⟨by rw [hr]; exact hq.regs, by rw [hj]; exact hq.ring⟩
    · rwa [s.part_mod_other f hp]
  · simp only [Maps, s.mod_slots, s.mod_jobs, s.mod_chains, s.mod_nodes, imp_self]

theorem Orderly.wrA {p : PartId} {a : Nat} {v : Word} (h : Orderly m s0 s) : Orderly m s0 (s.wrA p a v) := by
  refine h.trans (.of_engines (s.wrA_engines p a v) (fun q hq => ?_) ?_)
  · refine ⟨s.wrA_wf p q a v hq.regs, ?_⟩
    rw [s.jnl_wrA]
    exact hq.ring
  · simp only [Maps, s.wrA_slots, s.wrA_jobs, s.wrA_chains, s.wrA_nodes, imp_self]

theorem Orderly.wr {p : PartId} {n : RegName} {v : Word} {i j : Nat} (h : Orderly m s0 s) : Orderly m s0 (s.wr p n v i j) := h.wrA

theorem Orderly.setF {p : PartId} {n : RegName} {hi lo v i j : Nat} (h : Orderly m s0 s) : Orderly m s0 (s.setF p n hi lo v i j) := h.wr

theorem Orderly.setB {p : PartId} {n : RegName} {b i : Nat} (h : Orderly m s0 s) : Orderly m s0 (s.setB p n b i) := h.setF

theorem Orderly.bump {p : PartId} {n : RegName} {hi lo k i j : Nat} (h : Orderly m s0 s) : Orderly m s0 (s.bump p n hi lo k i j) := h.setF

/-- A state that agrees in parts and engines, and has canonical maps where the other has. -/
theorem Orderly.of_maps (h : Orderly m s0 s) (hm : Maps s → Maps t) (ht : t.tsu = s.tsu := by rfl) (hd : t.dist = s.dist := by rfl)
    (he : t.engines = s.engines := by rfl) : Orderly m s0 t := by
  have hpart (p : PartId) : t.part p = s.part p := by
    cases p
    · exact ht
    · exact hd
  exact h.trans (.of_engines he (fun p => by rw [hpart]; exact id) hm)

section
variable {osc : OscState} {kc : KeeperCore} {wicks : List (Nat × Wick)} {taper : Nat × List (Nat × Nat)} {chans : List (Nat × Chan)}
  {copies : List JobCopy} {armGens : List (Nat × Nat)} {held : List Held} {ledger : Ledger} {relays : List (Nat × Relay)}
  {gateParts : List GatePart} {sentRes : List (Nat × Option Word)} {insts : List Inst} {rotation : List (Nat × Nat)}
  {spilled : Option (Inst × HT)} {chainCtxs : List (Nat × ChainCtx)} {rankNodes : List (Nat × Nat × Nat)} {hbm : Hbm} {fabricRd : List DWord}
  {hostBulk : List Delivered} {mreqs : List (Nat × Mreq)} {jnlFetch : Option Nat} {jnlReady jnlBad : Bool} {pkg : Pkg} {macroBad : Bool}
  {todo : List Deferred} {freeIdx : Nat} {pending : List Instr}

/-- A change outside the parts, the engines and the maps. -/
theorem Orderly.outside (h : Orderly m s0 s) : Orderly m s0 { s with
    osc := osc, kc := kc, wicks := wicks, taper := taper, chans := chans, copies := copies, armGens := armGens, held := held, ledger := ledger
    relays := relays, gateParts := gateParts, sentRes := sentRes, insts := insts, rotation := rotation, spilled := spilled
    chainCtxs := chainCtxs, rankNodes := rankNodes, hbm := hbm, fabricRd := fabricRd, hostBulk := hostBulk, mreqs := mreqs
    jnlFetch := jnlFetch, jnlReady := jnlReady, jnlBad := jnlBad, pkg := pkg, macroBad := macroBad, todo := todo, freeIdx := freeIdx
    pending := pending } := h.of_maps id

/-- A slot set, with a change of that kind. -/
theorem Orderly.slots {k : Nat} {v : Slot} (h : Orderly m s0 s) : Orderly m s0 { s with
    slots := mset (fun _ => {}) s.slots k v
    osc := osc, kc := kc, wicks := wicks, taper := taper, chans := chans, copies := copies, armGens := armGens, held := held, ledger := ledger
    relays := relays, gateParts := gateParts, sentRes := sentRes, insts := insts, rotation := rotation, spilled := spilled
    chainCtxs := chainCtxs, rankNodes := rankNodes, hbm := hbm, fabricRd := fabricRd, hostBulk := hostBulk, mreqs := mreqs
    jnlFetch := jnlFetch, jnlReady := jnlReady, jnlBad := jnlBad, pkg := pkg, macroBad := macroBad, todo := todo, freeIdx := freeIdx
    pending := pending } := h.of_maps fun ⟨hs, hj, hc, hn⟩ => ⟨mwf_mset k v hs, hj, hc, hn⟩

end

theorem Orderly.setJob {k : Nat} {j : Job} (h : Orderly m s0 s) : Orderly m s0 (s.setJob k j) :=
  h.of_maps fun ⟨hs, hj, hc, hn⟩ => ⟨hs, mwf_mset k j hj, hc, hn⟩

theorem Orderly.setChain {k : Nat} {v : ChainSlot} (h : Orderly m s0 s) : Orderly m s0 (s.setChain k v) :=
  h.of_maps fun ⟨hs, hj, hc, hn⟩ => ⟨hs, hj, mwf_mset k v hc, hn⟩

theorem Orderly.setNode {pos : Nat} {v : NodeSt} (h : Orderly m s0 s) : Orderly m s0 (s.setNode pos v) :=
  h.of_maps fun ⟨hs, hj, hc, hn⟩ => ⟨hs, hj, hc, mwf_mset pos v hn⟩

/-- An engine replaced. -/
theorem Orderly.engine {e : EngSel} {v : Engine} (h : Orderly m s0 s) (hi : m = false → v.imem = (s.eng e).imem)
    (hd : m = false → v.dmem = (s.eng e).dmem) (hc : (s.eng e).Canonical → v.Canonical) : Orderly m s0 (s.setEng e v) := by
  have hv (f : EngSel) : (s.setEng e v).eng f = if f = e then v else s.eng f := by
    split
    next hf => exact hf ▸ s.eng_setEng_same f v
    next hf => exact s.eng_setEng_other v hf
  refine h.trans ⟨fun hm f => ?_, fun hm f => ?_, fun f => ?_, fun p => by cases p <;> exact id, id⟩
  · rw [hv]
    split
    next hf => exact hf ▸ hi hm
    next => rfl
  · rw [hv]
    split
    next hf => exact hf ▸ hd hm
    next => rfl
  · rw [hv]
    split
    next hf => exact hf ▸ hc
    next => exact id

/-- An engine changed in neither memory. -/
theorem Orderly.setEng {e : EngSel} {v : Engine} (h : Orderly m s0 s) (hi : v.imem = (s.eng e).imem := by rfl)
    (hd : v.dmem = (s.eng e).dmem := by rfl) : Orderly m s0 (s.setEng e v) :=
  h.engine (fun _ => hi) (fun _ => hd) fun ⟨ki, kd⟩ => ⟨by rw [hi]; exact ki, by rw [hd]; exact kd⟩

theorem Orderly.modEng {e : EngSel} {f : Engine → Engine} (h : Orderly m s0 s) (hi : ∀ v, (f v).imem = v.imem := by intro _; rfl)
    (hd : ∀ v, (f v).dmem = v.dmem := by intro _; rfl) : Orderly m s0 (s.modEng e f) := h.setEng (hi _) (hd _)

end Sys2Proof.Machine
end

section
/-!
PROOFS. Journal records keep the rings within their sizes (R366–R370).
-/
namespace Sys2Proof.Machine
set_option Elab.async false

variable {m : Bool} {s0 s : State}

/-- A part replaced by one that keeps what the invariant asks of it. -/
theorem Orderly.setPart {p : PartId} {q : Part} (h : Orderly m s0 s) (hq : (s.part p).Canonical p → q.Canonical p) : Orderly m s0 (s.setPart p q) := by
  refine h.trans (.of_engines (s.setPart_engines p q) (fun r hr => ?_) ?_)
  · by_cases hp : r = p
    · subst hp
      rw [s.part_setPart_same]
      exact hq hr
    · rwa [s.part_setPart_other q hp]
  · simp only [Maps, s.setPart_slots, s.setPart_jobs, s.setPart_chains, s.setPart_nodes, imp_self]

/-- The TSU changed in neither its register words nor the records of its ring. -/
theorem Orderly.tsu {q : Part} (h : Orderly m s0 s) (hr : q.regs = s.tsu.regs := by rfl) (hj : q.jnl.recs = s.tsu.jnl.recs := by rfl) :
    Orderly m s0 { s with tsu := q } := h.setPart (p := .tsu) fun hq => ⟨by rw [hr]; exact hq.regs, by rw [hj]; exact hq.ring⟩

/-- The distributor so changed. -/
theorem Orderly.dist {q : Part} (h : Orderly m s0 s) (hr : q.regs = s.dist.regs := by rfl) (hj : q.jnl.recs = s.dist.jnl.recs := by rfl) :
    Orderly m s0 { s with dist := q } := h.setPart (p := .dist) fun hq => ⟨by rw [hr]; exact hq.regs, by rw [hj]; exact hq.ring⟩

/-- The TSU's journal replaced by one with as few records. -/
theorem Orderly.tsuJnl {j : Journal} (h : Orderly m s0 s) (hj : s.tsu.jnl.recs.length ≤ ringSize → j.recs.length ≤ ringSize) :
    Orderly m s0 { s with tsu := { s.tsu with jnl := j } } := h.setPart (p := .tsu) fun hq => ⟨hq.regs, hj hq.ring⟩

/-- The distributor's journal replaced by one with as few records. -/
theorem Orderly.distJnl {j : Journal} (h : Orderly m s0 s) (hj : s.dist.jnl.recs.length ≤ hbmRingSize → j.recs.length ≤ hbmRingSize) :
    Orderly m s0 { s with dist := { s.dist with jnl := j } } := h.setPart (p := .dist) fun hq => ⟨hq.regs, hj hq.ring⟩

theorem Orderly.spillPump (h : Orderly m s0 s) : Orderly m s0 s.spillPump := by
  unfold State.spillPump
  extract_lets r part s1
  have h1 : Orderly m s0 s1 := h.tsuJnl (by rw [recs_spillScan]; exact id)
  exact .ite (.ite h1.setB h1) h

theorem Orderly.savePump (h : Orderly m s0 s) : Orderly m s0 s.savePump := by
  unfold State.savePump
  exact h.mod

theorem Orderly.pushRec {w : Who} {at_ : HT} {ty payload : Nat} (h : Orderly m s0 s) : Orderly m s0 (s.pushRec w at_ ty payload) := by
  unfold State.pushRec
  extract_lets r part s1
  have h1 : Orderly m s0 s1 := h.tsuJnl fun hl => by
    unfold r pushTsu
    split
    · rw [List.length_append, List.length_singleton]
      exact Nat.succ_le_of_lt ‹_›
    · exact hl
  exact .ite h1.bump.setB h1

theorem Orderly.flushLoss (h : Orderly m s0 s) : Orderly m s0 s.flushLoss := by
  unfold State.flushLoss
  split
  · refine .ite ?_ h
    exact (h.tsuJnl (j := { s.tsu.jnl with loss := none }) id).pushRec
  · exact h

/-- A list of at most `n` that loses its first before it takes another at `n` stays at most `n`. -/
theorem length_append_full {α : Type} {l : List α} {r : α} {n : Nat} (h : l.length ≤ n) (hn : 0 < n) :
    ((if n ≤ l.length then l.drop 1 else l) ++ [r]).length ≤ n := by
  rw [List.length_append, List.length_singleton]
  split
  · rw [List.length_drop]
    omega
  · omega

theorem Orderly.pushRing {tile : Nat} {r : JRec} (h : Orderly m s0 s) : Orderly m s0 (s.pushRing tile r) := by
  unfold State.pushRing
  extract_lets j full lost j1 part s1
  have h1 : Orderly m s0 s1 := h.distJnl fun hl => length_append_full hl (Nat.two_pow_pos 29)
  exact .ite h1.bump.setB h1

theorem Orderly.pushHbm {w : Who} {at_ : HT} {ty payload : Nat} (h : Orderly m s0 s) : Orderly m s0 (s.pushHbm w at_ ty payload) := by
  unfold State.pushHbm
  exact h.pushRing.mod

/-- A record, which goes into the ring of its writer's part. -/
theorem Orderly.jnlAt {w : Who} {at_ : HT} {ty payload : Nat} (h : Orderly m s0 s) : Orderly m s0 (s.jnlAt w at_ ty payload) := by
  unfold State.jnlAt
  refine .ite h ?_
  split
  · exact h.flushLoss.pushRec.spillPump
  · exact h.pushHbm

theorem Orderly.jnl {w : Who} {ty payload : Nat} (h : Orderly m s0 s) : Orderly m s0 (s.jnl w ty payload) := h.jnlAt

end Sys2Proof.Machine
end

section
/-!
PROOFS. The operations of the engine, of time and of the links keep what the invariant asks; a store into an engine's memory keeps it canonical.
-/
namespace Sys2Proof.Machine
set_option Elab.async false

variable {m : Bool} {s0 s t : State}

/-! ### Outcomes, configuration records and the order of an instant -/

theorem Orderly.draw (h : Orderly m s0 s) : Orderly m s0 (s.draw).2 := by
  unfold State.draw
  exact .pair h.outside

theorem Orderly.completeOp {op c v late extra results} (h : Orderly m s0 s) : Orderly m s0 (s.completeOp op c v late extra results) := by
  unfold State.completeOp
  split
  · exact h.outside
  · exact h

theorem Orderly.completeTold {op c} (h : Orderly m s0 s) : Orderly m s0 (s.completeTold op c) := by
  unfold State.completeTold
  split
  · exact h.outside
  · exact h

theorem Orderly.outcome {w c op pc late} (h : Orderly m s0 s) : Orderly m s0 (s.outcome w c op pc late) := by
  unfold State.outcome
  exact h.jnl

theorem Orderly.frameOutcome {p blk c cls ty late tile} (h : Orderly m s0 s) : Orderly m s0 (s.frameOutcome p blk c cls ty late tile) := by
  unfold State.frameOutcome
  exact h.outcome

theorem Orderly.spareRec {p tile kind unit oldI newI trig c trend left} (h : Orderly m s0 s) :
    Orderly m s0 (s.spareRec p tile kind unit oldI newI trig c trend left) := by
  unfold State.spareRec
  exact .jnl (.ite h.setB h)

theorem Orderly.endReplays (h : Orderly m s0 s) : Orderly m s0 s.endReplays := by
  unfold State.endReplays
  exact .ite h (h.foldl fun _ _ h => .ite h (.ite h.slots.setF h.slots.setF))

theorem Orderly.send {p d f lane} (h : Orderly m s0 s) : Orderly m s0 (s.send p d f lane) := by
  unfold State.send
  exact h.mod

theorem Orderly.sendFlit {p port sub fields} (h : Orderly m s0 s) : Orderly m s0 (s.sendFlit p port sub fields) := by
  unfold State.sendFlit
  exact h.mod

theorem Orderly.setAnchor {p h' sec ns rate} (h : Orderly m s0 s) : Orderly m s0 (s.setAnchor p h' sec ns rate) := by
  unfold State.setAnchor
  exact h.foldl fun _ _ h => h.wr

theorem Orderly.rebase {p h' rate} (h : Orderly m s0 s) : Orderly m s0 (s.rebase p h' rate) := by
  unfold State.rebase
  exact h.setAnchor

theorem Orderly.serveDown {p f} (h : Orderly m s0 s) : Orderly m s0 (s.serveDown p f) := by
  unfold State.serveDown
  exact h.foldl fun _ _ h => h.send

theorem Orderly.endCalTerm (h : Orderly m s0 s) : Orderly m s0 s.endCalTerm := by
  unfold State.endCalTerm
  split
  · exact .ite h.rebase.outside.serveDown h
  · exact h

theorem Orderly.passed {p tb} (h : Orderly m s0 s) : Orderly m s0 (s.passed p tb) := by
  unfold State.passed
  extract_lets _ s1 s2
  have h1 : Orderly m s0 s1 := h.mod
  have h2 : Orderly m s0 s2 := .ite h1.setB h1
  split
  · exact h2.endReplays
  · exact h2.endCalTerm

theorem Orderly.reach {p target} (h : Orderly m s0 s) : Orderly m s0 (s.reach p target) := by
  unfold State.reach
  exact .ite h h.passed

theorem Orderly.edge {p} (h : Orderly m s0 s) : Orderly m s0 (s.edge p) := by
  unfold State.edge
  exact h.passed

theorem Orderly.stepHt {p h' sub w} (h : Orderly m s0 s) : Orderly m s0 (s.stepHt p h' sub w) := by
  unfold State.stepHt
  exact h.mod.jnl

theorem Orderly.setQual {p code} (h : Orderly m s0 s) : Orderly m s0 (s.setQual p code) := by
  unfold State.setQual
  exact .ite h (.jnl (.ite h.setF.setB.setB h.setF.setB.wr))

theorem Orderly.timeEvent {p reg bitNo port v} (h : Orderly m s0 s) : Orderly m s0 (s.timeEvent p reg bitNo port v) := by
  unfold State.timeEvent
  exact h.jnl

theorem Orderly.lifCount {p off n} (h : Orderly m s0 s) : Orderly m s0 (s.lifCount p off n) := by
  unfold State.lifCount
  exact h.mod

theorem Orderly.cfgRec {p src a old new flags h' c} (h : Orderly m s0 s) : Orderly m s0 (s.cfgRec p src a old new flags h' c) := by
  unfold State.cfgRec
  exact h.jnlAt

theorem Orderly.accessOutcome {p src a c late} (h : Orderly m s0 s) : Orderly m s0 (s.accessOutcome p src a c late) := by
  unfold State.accessOutcome
  exact h.outcome

/-! ### Condition bins (R327) -/

theorem Orderly.sendCond {b clear} (h : Orderly m s0 s) : Orderly m s0 (s.sendCond b clear) := by
  unfold State.sendCond
  exact h.send.send

theorem Orderly.binEvent {b lo} (h : Orderly m s0 s) : Orderly m s0 (s.binEvent b lo) := by
  unfold State.binEvent
  exact .ite h.bump.bump.setB h.bump.bump.setB.setF.setB.jnl.sendCond

/-! ### Sync objects and signals (R169–R181) -/

theorem Orderly.setObj {e i o} (h : Orderly m s0 s) : Orderly m s0 (s.setObj e i o) := by
  unfold State.setObj
  exact h.modEng

theorem Orderly.objEvent {e g c kind} (h : Orderly m s0 s) : Orderly m s0 (s.objEvent e g c kind) := by
  unfold State.objEvent
  exact h.jnl

theorem Orderly.judge {e g} (h : Orderly m s0 s) : Orderly m s0 (s.judge e g).2 := by
  unfold State.judge
  extract_lets _ s1 _ _ s1' s2
  have h1 : Orderly m s0 s1 := h.bump.setB
  have h1' : Orderly m s0 s1' := h.setObj
  have h2 : Orderly m s0 s2 := h1'.modEng
  refine .ite2 (.pair h1.objEvent) ?_
  split
  · exact h2
  · exact .pair h2.setB.objEvent
  · exact .pair h2.setB.objEvent

theorem Orderly.sendSignal {e g} (h : Orderly m s0 s) : Orderly m s0 (s.sendSignal e g) := by
  unfold State.sendSignal
  exact h.modEng

theorem Orderly.signalAccept {e} (h : Orderly m s0 s) : Orderly m s0 (Machine.signalAccept e s) := by
  unfold Machine.signalAccept
  split
  · exact h
  · exact h.modEng.judge

theorem Orderly.drainSignals {n e} (h : Orderly m s0 s) : Orderly m s0 (Machine.drainSignals n e s) := by
  induction n generalizing s with
  | zero => exact h
  | succ n ih => exact ih h.signalAccept

theorem Orderly.signalNow {e g} (h : Orderly m s0 s) : Orderly m s0 (s.signalNow e g).2 := by
  unfold State.signalNow
  exact h.drainSignals.judge

theorem Orderly.slotDrop {c} (h : Orderly m s0 s) : Orderly m s0 (s.slotDrop c) := by
  unfold State.slotDrop
  exact h.bump.setB

theorem Orderly.freeDrop {h'} (h : Orderly m s0 s) : Orderly m s0 (s.freeDrop h') := by
  unfold State.freeDrop
  split
  · exact h.slotDrop
  · exact h

theorem Orderly.sigFrame {handle gen epoch entries} (h : Orderly m s0 s) : Orderly m s0 (Machine.sigFrame handle gen epoch entries s) := by
  unfold Machine.sigFrame
  split
  · exact h.foldl fun _ _ h => h.sendSignal
  · exact .ite h.slotDrop (h.foldl fun _ _ h => h.sendSignal)

theorem Orderly.fabricBeat {b} (h : Orderly m s0 s) : Orderly m s0 (Machine.fabricBeat b s) := by
  unfold Machine.fabricBeat
  split
  · exact h.outside
  · exact h.foldl fun _ _ h => h.sendSignal

theorem Orderly.sigHiWrite {e lo hi src} (h : Orderly m s0 s) : Orderly m s0 (s.sigHiWrite e lo hi src).2 := by
  unfold State.sigHiWrite
  exact h.signalNow

theorem Orderly.objset {e slot i img} (h : Orderly m s0 s) : Orderly m s0 (s.objset e slot i img).2.2 := by
  unfold State.objset
  exact .ite3 h (.ite3 (.triple h.setObj.modEng) (.triple h.setObj.modEng))

theorem Orderly.dirtyRec {i o} (h : Orderly m s0 s) : Orderly m s0 (s.dirtyRec i o) := by
  unfold State.dirtyRec
  exact h.jnl

theorem Orderly.makeDirty {i} (h : Orderly m s0 s) : Orderly m s0 (s.makeDirty i) := by
  unfold State.makeDirty
  exact .ite h h.setObj.setB.modEng.dirtyRec

theorem Orderly.sobReset {e v} (h : Orderly m s0 s) : Orderly m s0 (s.sobReset e v).2 := by
  unfold State.sobReset
  exact .ite2 h (.pair h.modEng.setF.setF)

theorem Orderly.sobResetDone {e} (h : Orderly m s0 s) : Orderly m s0 (Machine.sobResetDone e s) := by
  unfold Machine.sobResetDone
  split
  · exact h
  · exact h.modEng.setF.setF

theorem Orderly.consume {e i thr c} (h : Orderly m s0 s) : Orderly m s0 (s.consume e i thr c) := by
  unfold State.consume
  exact .ite h.setObj h

theorem Orderly.objWinRead {e off src} (h : Orderly m s0 s) : Orderly m s0 (s.objWinRead e off src).2 := by
  unfold State.objWinRead
  dsimp only
  split
  · exact .pair h.modEng
  · exact h

theorem Orderly.objWinWrite {e off v src} (h : Orderly m s0 s) : Orderly m s0 (s.objWinWrite e off v src).2.2 := by
  unfold State.objWinWrite
  dsimp only
  split
  · exact .triple h.modEng
  · exact h.modEng.objset
  · exact h

/-! ### The step engine (R193–R212, R231–R239) -/

theorem Orderly.setCtx {e c v} (h : Orderly m s0 s) : Orderly m s0 (s.setCtx e c v) := by
  unfold State.setCtx
  exact h.modEng

theorem Orderly.modCtx {e c f} (h : Orderly m s0 s) : Orderly m s0 (s.modCtx e c f) := by
  unfold State.modCtx
  exact h.setCtx

theorem Orderly.setCst {e c v} (h : Orderly m s0 s) : Orderly m s0 (s.setCst e c v) := by
  unfold State.setCst
  exact h.setF

theorem Orderly.setPc {e c v} (h : Orderly m s0 s) : Orderly m s0 (s.setPc e c v) := by
  unfold State.setPc
  exact h.wr.modCtx

theorem Orderly.setG {e c r v} (h : Orderly m s0 s) : Orderly m s0 (s.setG e c r v) := by
  unfold State.setG
  exact .ite h h.modCtx

theorem Orderly.setT {e c r v} (h : Orderly m s0 s) : Orderly m s0 (s.setT e c r v) := by
  unfold State.setT
  exact h.modCtx

theorem Orderly.setP {e c r v} (h : Orderly m s0 s) : Orderly m s0 (s.setP e c r v) := by
  unfold State.setP
  exact h.modCtx

theorem Orderly.faultCtx {e c cause faddr word} (h : Orderly m s0 s) : Orderly m s0 (s.faultCtx e c cause faddr word) := by
  unfold State.faultCtx
  exact .jnl (.setB (.wr (.wr (.modCtx (.setPc (.ite h.outside h))))))

theorem Orderly.eccCorrect {e ws imem} (h : Orderly m s0 s) : Orderly m s0 (s.eccCorrect e ws imem) := by
  unfold State.eccCorrect
  exact .ite h (h.modEng (fun _ => by split <;> rfl) (fun _ => by split <;> rfl)).bump.setB

theorem Orderly.dmemSeen {e a n} (h : Orderly m s0 s) : Orderly m s0 (s.dmemSeen e a n) := by
  unfold State.dmemSeen
  exact h.eccCorrect

theorem Orderly.eccUncorr {e} (h : Orderly m s0 s) : Orderly m s0 (s.eccUncorr e) := by
  unfold State.eccUncorr
  exact h.bump.setB

theorem Orderly.retire {e c pc} (h : Orderly m s0 s) : Orderly m s0 (s.retire e c pc) := by
  unfold State.retire
  exact .ite h.setPc.modCtx.setCst h.setPc.modCtx

theorem Orderly.checkFault {e c parity word} (h : Orderly m s0 s) : Orderly m s0 (s.checkFault e c parity word) := by
  unfold State.checkFault
  exact .ite h.setB.faultCtx.binEvent h.setB.faultCtx

theorem Orderly.tookTurn {x y word} (h : Orderly m s0 s) : Orderly m s0 (s.tookTurn x y word) := by
  unfold State.tookTurn
  exact h.modEng

theorem Orderly.backOut {e c} (h : Orderly m s0 s) : Orderly m s0 (s.backOut e c) := by
  unfold State.backOut
  exact .modCtx (.ite h h.setPc)

theorem Orderly.inTurn {x word t} (h : Orderly m s0 s) (k : Orderly m s0 t) : Orderly m s0 (s.inTurn x word t) := by
  unfold State.inTurn
  extract_lets _
  refine .ite ?_ (.ite h (.ite h.modEng k.tookTurn))
  split
  · exact k
  · exact h.backOut.setCst
  · exact k.backOut.setCst

theorem Orderly.executes {x word prefixed here body} (h : Orderly m s0 s) (hbody : ∀ pc, (body pc).All (Orderly m s0)) :
    Orderly m s0 (s.executes x word prefixed here body) := by
  unfold State.executes
  refine .ite h.faultCtx (.ite h.eccUncorr.faultCtx (.ite h.faultCtx (.ite h.faultCtx (.ite h.faultCtx (.ite h.checkFault ?_)))))
  have hb := hbody (s.pc x.eng x.ctx.val)
  split
  · exact (Orderly.ite h.eccUncorr h).faultCtx
  next he => rw [he] at hb; exact .ite h.checkFault (Orderly.retire hb)
  next he => rw [he] at hb; exact .ite h.checkFault (.ite h.faultCtx (Orderly.retire hb))
  next he => rw [he] at hb; exact (Orderly.modCtx hb).setCst
  · exact h.modCtx.setCst
  next he => rw [he] at hb; exact (Orderly.retire hb).setCst

theorem Orderly.issue {x word prefixed here body} (h : Orderly m s0 s) (hbody : ∀ pc, (body pc).All (Orderly m s0)) :
    Orderly m s0 (s.issue x word prefixed here body) := by
  unfold State.issue
  exact .ite h (h.inTurn (h.executes hbody).eccCorrect)

theorem Orderly.issueFx {y imm word} (h : Orderly m s0 s) : Orderly m s0 (Machine.issueFx y imm word s) := by
  unfold Machine.issueFx
  exact .ite h (h.inTurn (.ite h.faultCtx (.ite h.eccUncorr.faultCtx h.setPc.modCtx.eccCorrect)))

theorem Orderly.resume {e c a out} (h : Orderly m s0 s) : Orderly m s0 (s.resume e c a out) := by
  unfold State.resume
  exact h.modCtx.setG.setCst.retire

theorem Orderly.dmemBlock {e a bs} (h : Orderly true s0 s) : Orderly true s0 (s.dmemBlock e a bs) := by
  unfold State.dmemBlock
  exact Orderly.dmemSeen (h.engine nofun nofun fun ⟨hi, hd⟩ => ⟨hi, mwf_storeBytes a bs.length bs hd⟩)

theorem Orderly.dmemWrite {e a n v} (h : Orderly true s0 s) : Orderly true s0 (s.dmemWrite e a n v) := by
  unfold State.dmemWrite
  exact h.dmemBlock

theorem Orderly.accept {e c opcode sub pc obj job args o} (h : Orderly m s0 s) (ho : s.accept e c opcode sub pc obj job args = some (o, t)) :
    Orderly m s0 t := by
  unfold State.accept at ho
  dsimp only at ho
  split at ho
  · cases ho
  · cases ho
    exact h.setCtx

theorem Orderly.report {e c a code data opcode pc} (h : Orderly m s0 s) : Orderly m s0 (s.report e c a code data opcode pc) := by
  unfold State.report
  exact .ite h.setG h.setG.outcome

theorem Orderly.reportQuiet {e c a code data} (h : Orderly m s0 s) : Orderly m s0 (s.reportQuiet e c a code data) := by
  unfold State.reportQuiet
  exact h.setG

theorem Orderly.unhold {e c} (h : Orderly m s0 s) : Orderly m s0 (s.unhold e c) := by
  unfold State.unhold
  exact .ite h.modCtx.setCst h

theorem Orderly.asyncCompletion {e ids} (h : Orderly m s0 s) : Orderly m s0 (Machine.asyncCompletion e ids s) := by
  unfold Machine.asyncCompletion
  split
  · exact h
  · extract_lets s0'
    have h0' : Orderly m s0 s0' := h.outside
    split
    · exact h0'
    · exact .ite h0' (.ite h0'.modCtx.sendSignal.unhold h0'.modCtx.sendSignal.unhold.outcome)

theorem Orderly.ctxCmdRec {e c cmd code src} (h : Orderly m s0 s) : Orderly m s0 (s.ctxCmdRec e c cmd code src) := by
  unfold State.ctxCmdRec
  exact h.jnl

theorem Orderly.ctxStart {e c} (h : Orderly m s0 s) : Orderly m s0 (s.ctxStart e c).2 := by
  unfold State.ctxStart
  exact .ite2 h (.pair h.setCst)

theorem Orderly.ctxStop {e c} (h : Orderly m s0 s) : Orderly m s0 (s.ctxStop e c).2 := by
  unfold State.ctxStop
  split
  · exact .pair h.setCst
  · exact .pair h.backOut.setCst
  · exact h

theorem Orderly.ctxClear {e c} (h : Orderly m s0 s) : Orderly m s0 (s.ctxClear e c).2 := by
  unfold State.ctxClear
  exact .ite2 (.pair h.wr) h

theorem Orderly.ctxStep {e c} (h : Orderly m s0 s) : Orderly m s0 (s.ctxStep e c).2 := by
  unfold State.ctxStep
  exact .ite2 h (.pair h.modCtx.setCst)

theorem Orderly.ctxCommand {e c v src} (h : Orderly m s0 s) : Orderly m s0 (s.ctxCommand e c v src).2 := by
  unfold State.ctxCommand
  extract_lets cmd r
  have hr : Orderly m s0 r.2 := by
    unfold r
    clear_value cmd
    split
    · exact h.ctxStart
    · exact h.ctxStop
    · exact h.ctxClear
    · exact h.ctxStep
    · exact h
  exact .ite2 hr.ctxCmdRec hr

theorem Orderly.stopComplete {e c} (h : Orderly m s0 s) : Orderly m s0 (Machine.stopComplete e c s) := by
  unfold Machine.stopComplete
  exact .ite h.backOut.setCst h

theorem Orderly.senEnable {e en} (h : Orderly m s0 s) : Orderly m s0 (s.senEnable e en).2 := by
  unfold State.senEnable
  exact .ite2 h (.pair (.ite h.wr h.wr.setF))

theorem Orderly.pllLock {e} (h : Orderly m s0 s) : Orderly m s0 (Machine.pllLock e s) := by
  unfold Machine.pllLock
  exact .ite h.setF h

theorem Engine.upset_memories (v : Engine) (u : Upset) : (v.upset u).imem = v.imem ∧ (v.upset u).dmem = v.dmem := by
  unfold Engine.upset
  dsimp only
  split
  · exact ⟨rfl, rfl⟩
  · exact ⟨rfl, rfl⟩

theorem Engine.upsets_memories (us : List Upset) (v : Engine) :
    (us.foldl Engine.upset v).imem = v.imem ∧ (us.foldl Engine.upset v).dmem = v.dmem := by
  induction us generalizing v with
  | nil => exact ⟨rfl, rfl⟩
  | cons u us ih => exact ⟨(ih _).1.trans (v.upset_memories u).1, (ih _).2.trans (v.upset_memories u).2⟩

theorem Orderly.scrubRead {e upsets} (h : Orderly m s0 s) : Orderly m s0 (Machine.scrubRead e upsets s) := by
  unfold Machine.scrubRead
  extract_lets s1 n total k inI w s2
  have h1 : Orderly m s0 s1 := h.modEng (fun v => (v.upsets_memories upsets).1) fun v => (v.upsets_memories upsets).2
  have h2 : Orderly m s0 s2 := h1.modEng.eccCorrect
  exact .ite h1 (.ite h2.eccUncorr.jnl h2)

theorem Orderly.imemWrite {e w v} (h : Orderly true s0 s) : Orderly true s0 (s.imemWrite e w v).2 := by
  unfold State.imemWrite
  exact .ite2 h (.ite2 h (.pair (h.engine nofun nofun fun ⟨hi, hd⟩ => ⟨mwf_mset w v hi, hd⟩)))

theorem Orderly.imemRead {e w} (h : Orderly m s0 s) : Orderly m s0 (s.imemRead e w).2.2 := by
  unfold State.imemRead
  exact .ite3 h (.ite3 (.triple h.eccUncorr) (.triple h.eccCorrect))

theorem Orderly.dmemWinRead {e a} (h : Orderly m s0 s) : Orderly m s0 (s.dmemWinRead e a).2.2 := by
  unfold State.dmemWinRead
  exact .ite3 h (.ite3 (.triple h.eccUncorr) (.triple h.dmemSeen))

theorem Orderly.dmemWinWrite {e a v} (h : Orderly true s0 s) : Orderly true s0 (s.dmemWinWrite e a v).2 := by
  unfold State.dmemWinWrite
  exact .ite2 h (.ite2 (.pair h.eccUncorr) (.pair h.dmemWrite))

theorem Orderly.ctxWinWrite {e off lo v} (h : Orderly m s0 s) : Orderly m s0 (s.ctxWinWrite e off lo v).2 := by
  unfold State.ctxWinWrite
  exact .ite2 h (.ite2 (.pair (.ite h.setG h)) (.ite2 (.pair (.ite h.setT h)) (.ite2 (.pair h.modCtx) h)))

/-! ### Integer, FP64 and memory instructions (R213–R227) -/

theorem Orderly.opRRR {x op fn d a b f} (h : Orderly m s0 s) : Orderly m s0 (Machine.opRRR x op fn d a b f s) := by
  unfold Machine.opRRR
  exact h.issue (fun _ => .done h.setG)

theorem Orderly.opCmp {x op fn d a b f} (h : Orderly m s0 s) : Orderly m s0 (Machine.opCmp x op fn d a b f s) := by
  unfold Machine.opCmp
  exact h.issue (fun _ => .done h.setP)

theorem Orderly.opRR {x op fn d a f} (h : Orderly m s0 s) : Orderly m s0 (Machine.opRR x op fn d a f s) := by
  unfold Machine.opRR
  exact h.issue (fun _ => .done h.setG)

theorem Orderly.opImmU {x op d a imm f} (h : Orderly m s0 s) : Orderly m s0 (Machine.opImmU x op d a imm f s) := by
  unfold Machine.opImmU
  exact h.issue (fun _ => .done h.setG)

theorem Orderly.opBranch {x op a b off f} (h : Orderly m s0 s) : Orderly m s0 (Machine.opBranch x op a b off f s) := by
  unfold Machine.opBranch
  exact h.issue (fun _ => .ite (.jump h) (.done h))

theorem Ends.All.of_dmemCheck {P : State → Prop} {e c off w len x} (hx : s.dmemCheck e c off w len = .inr x) : x.All P := by
  unfold State.dmemCheck at hx
  split at hx
  · cases hx
    trivial
  · split at hx
    · cases hx
      trivial
    · cases hx

theorem Orderly.opLoad {x word prefixed w d a ext} (h : Orderly m s0 s) : Orderly m s0 (Machine.opLoad x word prefixed w d a ext s) := by
  unfold Machine.opLoad
  refine h.issue fun _ => ?_
  dsimp only
  split
  next hx => exact .of_dmemCheck hx
  · exact .ite .fault (.done h.setG.dmemSeen)

theorem Orderly.opStore {x word prefixed w d a ext} (h : Orderly true s0 s) : Orderly true s0 (Machine.opStore x word prefixed w d a ext s) := by
  unfold Machine.opStore
  refine h.issue fun _ => ?_
  dsimp only
  split
  next hx => exact .of_dmemCheck hx
  · exact .ite .fault (.done h.dmemWrite)

/-! ### Hall time and the reference (R33–R72) -/

theorem Orderly.queueStrobe {p src kind target mask} (h : Orderly m s0 s) : Orderly m s0 (s.queueStrobe p src kind target mask).2.2 := by
  unfold State.queueStrobe
  exact .ite3 h (.ite3 h (.ite3 (.triple h.mod) (.triple h.mod)))

theorem Orderly.immediateStrobe {p src mask} (h : Orderly m s0 s) : Orderly m s0 (s.immediateStrobe p src mask) := by
  unfold State.immediateStrobe
  exact h.mod

theorem Orderly.strobeRemoved {p r} (h : Orderly m s0 s) : Orderly m s0 (s.strobeRemoved p r) := by
  unfold State.strobeRemoved
  dsimp only
  split
  · exact h.outcome.completeTold
  · exact h.outcome
  · exact h.outcome
  · exact h

theorem Orderly.removeStrobes {p f} (h : Orderly m s0 s) : Orderly m s0 (s.removeStrobes p f) := by
  unfold State.removeStrobes
  exact h.mod.foldl fun _ _ h => h.strobeRemoved

theorem Orderly.enterHoldover {p} (h : Orderly m s0 s) : Orderly m s0 (s.enterHoldover p) := by
  unfold State.enterHoldover
  exact .setQual (.wr (.setF (.ite h.mod.outside h.mod)))

theorem Orderly.refreshQual {p} (h : Orderly m s0 s) : Orderly m s0 (s.refreshQual p) := by
  unfold State.refreshQual
  extract_lets _ _ _ s1 _ s1'
  have h1 : Orderly m s0 s1 := h.mod
  have h1' : Orderly m s0 s1' := h.mod
  refine .ite (.ite h1.enterHoldover h1.setQual) (.ite h (.ite h1'.setF.setQual (.ite h ?_)))
  split
  · exact h.setQual
  · exact .ite h.setQual h

theorem Orderly.acceptHtSet {p v src} (h : Orderly m s0 s) : Orderly m s0 (s.acceptHtSet p v src) := by
  unfold State.acceptHtSet
  exact h.mod.setB

theorem Orderly.loadHtSet {p} (h : Orderly m s0 s) : Orderly m s0 (Machine.loadHtSet p s) := by
  unfold Machine.loadHtSet
  split
  · exact h
  · exact .removeStrobes (.ite h.reach.stepHt.mod.setF.outside h.reach.stepHt.mod.setF)

theorem Orderly.loadCalendar {p vals h'} (h : Orderly m s0 s) : Orderly m s0 (s.loadCalendar p vals h') := by
  unfold State.loadCalendar
  exact h.foldl fun _ _ h => .ite h h.wr.cfgRec

theorem Orderly.recvCalinfo {port eff calHt sec ns rate utc} (h : Orderly m s0 s) :
    Orderly m s0 (Machine.recvCalinfo port eff calHt sec ns rate utc s) := by
  unfold Machine.recvCalinfo
  exact .ite h (.ite (.frameOutcome (.loadCalendar (.ite h.serveDown h))) (.mod (.ite h.serveDown h)))

theorem Orderly.calendarLoad {p} (h : Orderly m s0 s) : Orderly m s0 (Machine.calendarLoad p s) := by
  unfold Machine.calendarLoad
  split
  · exact h
  · exact h.reach.loadCalendar.mod

theorem Orderly.calinfoInterval (h : Orderly m s0 s) : Orderly m s0 (Machine.calinfoInterval s) := by
  unfold Machine.calinfoInterval
  exact .ite h.serveDown h

theorem Orderly.refreshRef (h : Orderly m s0 s) : Orderly m s0 s.refreshRef := by
  unfold State.refreshRef
  exact .ite (.ite h.setF.setF.setB (.ite h.setF.setF.setB.mod.setF.setQual h.setF.setF.setB.mod.setF)) (.ite (.ite h.setF.setF.setB.enterHoldover
    h.setF.setF.setB) h.setF.setF)

theorem Orderly.refChanges {r on} (h : Orderly m s0 s) : Orderly m s0 (s.refChanges r on) := by
  unfold State.refChanges
  exact .ite h h.outside.timeEvent.refreshRef

theorem Orderly.referenceQualifies {r} (h : Orderly m s0 s) : Orderly m s0 (Machine.referenceQualifies r s) := by
  unfold Machine.referenceQualifies
  split
  · exact h.setF.refChanges
  · exact .ite h.refChanges h
  · exact .ite h.refChanges h

theorem Orderly.referenceLost {r} (h : Orderly m s0 s) : Orderly m s0 (Machine.referenceLost r s) := by
  unfold Machine.referenceLost
  split
  · exact h.refChanges
  · exact .ite h h.outside.setF.refChanges
  · exact h.reach.outside.refChanges

theorem Orderly.ovenSample {pin ext10m} (h : Orderly m s0 s) : Orderly m s0 (Machine.ovenSample pin ext10m s) := by
  unfold Machine.ovenSample
  extract_lets _ _ _ _ _ s1 s2 s3 s4 s3'
  have h1 : Orderly m s0 s1 := h.outside
  have h2 : Orderly m s0 s2 := h1.setF.setF.setF.setF
  have h3 : Orderly m s0 s3 := .ite h2.setQual h2
  have h4 : Orderly m s0 s4 := .ite h3.setB.setQual h3
  have h3' : Orderly m s0 s3' := .ite h2.setB h2
  exact .ite (.ite h2 (.ite h4.setQual h4)) h3'.refreshQual

theorem Orderly.oscLost (h : Orderly m s0 s) : Orderly m s0 (Machine.oscLost s) := by
  unfold Machine.oscLost
  exact .ite h.outside.setF.setB.timeEvent.setQual h.outside.setF.setB.timeEvent

theorem Orderly.holdoverSecond {p bound} (h : Orderly m s0 s) : Orderly m s0 (Machine.holdoverSecond p bound s) := by
  unfold Machine.holdoverSecond
  exact .ite h (.ite h.setF (.ite (.wr (.ite h.setF.outside h.setF)) (.ite h.setF.outside h.setF)))

theorem Orderly.holdoverExpiry {p} (h : Orderly m s0 s) : Orderly m s0 (Machine.holdoverExpiry p s) := by
  unfold Machine.holdoverExpiry
  exact .ite h.setQual h

theorem Orderly.dacPut {code} (h : Orderly m s0 s) : Orderly m s0 (s.dacPut code) := by
  unfold State.dacPut
  exact h.outside

theorem Orderly.dacAsk {asked} (h : Orderly m s0 s) : Orderly m s0 (s.dacAsk asked) := by
  unfold State.dacAsk
  exact .ite h.dacPut.setB h.dacPut

theorem Orderly.dacUpdate {asked} (h : Orderly m s0 s) : Orderly m s0 (Machine.dacUpdate asked s) := by
  unfold Machine.dacUpdate
  exact .ite h.dacPut (.ite h.dacAsk (.ite h.dacAsk h.dacPut))

theorem Orderly.correctCalendar {h' tai} (h : Orderly m s0 s) : Orderly m s0 (s.correctCalendar h' tai) := by
  unfold State.correctCalendar
  exact .ite (.ite (.ite h h.rebase.outside) h.setAnchor.outside.setB.timeEvent) (.serveDown (.ite (.ite h h.rebase.outside)
    h.setAnchor.outside.setB.timeEvent))

theorem Orderly.ppsMissed (h : Orderly m s0 s) : Orderly m s0 s.ppsMissed := by
  unfold State.ppsMissed
  exact h.setB.outside

theorem Orderly.ppsEdge {stamp} (h : Orderly m s0 s) : Orderly m s0 (Machine.ppsEdge stamp s) := by
  unfold Machine.ppsEdge
  exact .ite h.ppsMissed.outside (.ite h.outside.wr.setF.setF.correctCalendar h.outside.wr.setF.setF)

theorem Orderly.ppsMissing (h : Orderly m s0 s) : Orderly m s0 (Machine.ppsMissing s) := by
  unfold Machine.ppsMissing
  exact h.ppsMissed.outside

theorem Orderly.ptpSync {stamp t1} (h : Orderly m s0 s) : Orderly m s0 (s.ptpSync stamp t1) := by
  unfold State.ptpSync
  exact .ite h.outside.correctCalendar h.outside

theorem Orderly.ptpMessage {port1 domain stamp m'} (h : Orderly m s0 s) : Orderly m s0 (Machine.ptpMessage port1 domain stamp m' s) := by
  unfold Machine.ptpMessage
  refine .ite h ?_
  dsimp only
  split
  · exact .ite h.outside (.ite h.outside h)
  · refine .ite h ?_
    split
    · exact h.outside.ptpSync
    · exact h.outside
  · split
    · exact .ite h.ptpSync h
    · exact h
  · split
    · exact .ite h.outside h
    · exact h
  · refine .ite h ?_
    split
    · exact h.outside
    · exact h.outside
  · split
    · exact .ite h.outside h
    · exact h

/-! ### Interval measurement (R73–R85) -/

theorem Orderly.setTdc {p i u} (h : Orderly m s0 s) : Orderly m s0 (s.setTdc p i u) := by
  unfold State.setTdc
  exact h.mod

theorem Orderly.tdcMiss {p i} (h : Orderly m s0 s) : Orderly m s0 (s.tdcMiss p i) := by
  unfold State.tdcMiss
  exact h.bump.setB

theorem Orderly.tdcQueue {p i c r} (h : Orderly m s0 s) : Orderly m s0 (s.tdcQueue p i c r) := by
  unfold State.tdcQueue
  exact .ite h.setB h.setTdc

theorem Orderly.tdcWrapped {p i} (h : Orderly m s0 s) : Orderly m s0 (s.tdcWrapped p i) := by
  unfold State.tdcWrapped
  dsimp only
  split
  · exact .ite h h.setTdc.setB
  · exact h

theorem Orderly.tdcDeliver {p i c r} (h : Orderly m s0 s) : Orderly m s0 (s.tdcDeliver p i c r) := by
  unfold State.tdcDeliver
  exact .ite h.setTdc h.setTdc.tdcQueue

theorem Orderly.tdcAccept {p i c raw falling} (h : Orderly m s0 s) : Orderly m s0 (s.tdcAccept p i c raw falling) := by
  unfold State.tdcAccept
  extract_lets _ _ _ _ s'
  have h' : Orderly m s0 s' := h.setTdc
  refine .ite h'.tdcMiss (.ite h'.setTdc.tdcDeliver (.ite h'.setTdc ?_))
  split
  · exact h'.bump.setB
  · exact h'.setTdc.tdcDeliver

theorem Orderly.tdcHit {p i c raw} (h : Orderly m s0 s) : Orderly m s0 (s.tdcHit p i c raw) := by
  unfold State.tdcHit
  exact h.setTdc

theorem Orderly.tdcEvent {e un ch src raw falling k level} (h : Orderly m s0 s) :
    Orderly m s0 (Machine.tdcEvent e un ch src raw falling k level s) := by
  unfold Machine.tdcEvent
  extract_lets _ _ _ s1 s' _ _ s2
  have h1 : Orderly m s0 s1 := h.passed.tdcWrapped
  have h' : Orderly m s0 s' := .ite h1.tdcHit h1
  have h2 : Orderly m s0 s2 := h'.setTdc
  refine .ite h (.ite h' (.ite (.ite h'.tdcMiss h') ?_))
  split
  · exact .ite h2.tdcAccept h2
  · exact .ite h' h'.tdcAccept
  · exact h'.tdcAccept

theorem Orderly.coarseWrap {e un} (h : Orderly m s0 s) : Orderly m s0 (Machine.coarseWrap e un s) := by
  unfold Machine.coarseWrap
  extract_lets _
  refine .ite h ?_
  split
  · exact h
  · exact h.passed.tdcWrapped

theorem Orderly.tdcTake {p i c} (h : Orderly m s0 s) : Orderly m s0 (s.tdcTake p i c).2 := by
  unfold State.tdcTake
  dsimp only
  split
  · exact h
  · exact .pair h.setTdc

theorem Orderly.tdcReadRstat {p i} (h : Orderly m s0 s) : Orderly m s0 (s.tdcReadRstat p i).2 := by
  unfold State.tdcReadRstat
  split
  · exact .pair (h.tdcTake.of_snd ‹_›)
  · exact .pair (h.tdcTake.of_snd ‹_›).wr.wr

theorem Orderly.tdcBegin {p i} (h : Orderly m s0 s) : Orderly m s0 (s.tdcBegin p i) := by
  unfold State.tdcBegin
  exact h.setTdc.setF

theorem Orderly.tdcStart {p i} (h : Orderly m s0 s) : Orderly m s0 (s.tdcStart p i).2 := by
  unfold State.tdcStart
  exact .ite2 h (.ite2 h (.pair h.tdcBegin))

theorem Orderly.tdcAuto {p i} (h : Orderly m s0 s) : Orderly m s0 (s.tdcAuto p i) := by
  unfold State.tdcAuto
  exact .ite h (.ite h.setTdc h.tdcBegin)

theorem Orderly.lineSpares {p tile unit old new} (h : Orderly m s0 s) : Orderly m s0 (s.lineSpares p tile unit old new) := by
  unfold State.lineSpares
  exact .ite h h.lifCount.spareRec

theorem Orderly.tdcCalDone {e un hits taps} (h : Orderly m s0 s) : Orderly m s0 (Machine.tdcCalDone e un hits taps s) := by
  unfold Machine.tdcCalDone
  extract_lets _ _ _ _ _ _ _ _ _ s1 _ _ _ _ _ s2 s3 s4
  have h1 : Orderly m s0 s1 := h.setTdc.setF
  have h2 : Orderly m s0 s2 := h1.setTdc.wr.setB
  have h3 : Orderly m s0 s3 := h2.jnl
  have h4 : Orderly m s0 s4 := .ite h1.setB.jnl (h3.foldl fun _ _ h => h.lineSpares)
  exact .ite h (.ite h4.setTdc.tdcAuto h4)

theorem Orderly.tdcBandChange {p tile} (h : Orderly m s0 s) : Orderly m s0 (s.tdcBandChange p tile) := by
  unfold State.tdcBandChange
  exact h.foldl fun _ _ h => .ite h.setF.setTdc.tdcAuto h.setF.setTdc

theorem Orderly.tdcCtrlActive {p i old new} (h : Orderly m s0 s) : Orderly m s0 (s.tdcCtrlActive p i old new) := by
  unfold State.tdcCtrlActive
  exact .ite h.setTdc (.ite (.ite h.setTdc.tdcAuto h.setTdc) h)

theorem Orderly.tdcCfgActive {p i c} (h : Orderly m s0 s) : Orderly m s0 (s.tdcCfgActive p i c) := by
  unfold State.tdcCfgActive
  exact h.setTdc

theorem Orderly.holdUnit {p i} (h : Orderly m s0 s) : Orderly m s0 (s.holdUnit p i) := by
  unfold State.holdUnit
  exact .ite h.setTdc.setTdc.tdcAuto h.setTdc

theorem Orderly.linkEnable {p n} (h : Orderly m s0 s) : Orderly m s0 (s.linkEnable p n) := by
  unfold State.linkEnable
  exact .ite h h.wr.tdcCtrlActive

theorem Orderly.linkSelect {p n} (h : Orderly m s0 s) : Orderly m s0 (s.linkSelect p n) := by
  unfold State.linkSelect
  exact h.setF.setF.setF.holdUnit

/-! ### Fine triggers (R86–R90) -/

theorem Orderly.setDtc {p i o} (h : Orderly m s0 s) : Orderly m s0 (s.setDtc p i o) := by
  unfold State.setDtc
  exact h.mod

theorem Orderly.armFine {p i target jctx} (h : Orderly m s0 s) : Orderly m s0 (s.armFine p i target jctx).2 := by
  unfold State.armFine
  exact .ite2 (.pair h.setDtc) h

theorem Orderly.trigRec {p tile jctx kind out keeper c target late} (h : Orderly m s0 s) :
    Orderly m s0 (s.trigRec p tile jctx kind out keeper c target late) := by
  unfold State.trigRec
  exact h.jnl

theorem Orderly.dropFine {p i c} (h : Orderly m s0 s) : Orderly m s0 (s.dropFine p i c) := by
  unfold State.dropFine
  exact .ite h (h.setDtc.setB.foldl fun _ _ h => h.trigRec)

theorem Orderly.dropAllFine {p c} (h : Orderly m s0 s) : Orderly m s0 (s.dropAllFine p c) := by
  unfold State.dropAllFine
  exact h.foldl fun _ _ h => h.dropFine

theorem Orderly.triggerFire {e n} (h : Orderly m s0 s) : Orderly m s0 (Machine.triggerFire e n s) := by
  unfold Machine.triggerFire
  dsimp only
  split
  · exact h
  · exact .ite h (.ite h.reach.setDtc.setB.wr.wr.wr.setB.trigRec h.reach.setDtc.setB.wr.wr)

theorem Orderly.cancelFine {p i} (h : Orderly m s0 s) : Orderly m s0 (s.cancelFine p i) := by
  unfold State.cancelFine
  exact h.setDtc

theorem Orderly.dtcStartOne {p tile n jctx} (h : Orderly m s0 s) : Orderly m s0 (s.dtcStartOne p tile n jctx).2 := by
  unfold State.dtcStartOne
  exact .ite2 (.pair h.outcome) (.pair h.dropFine.setF.setDtc)

theorem Orderly.dtcNext {p tile ns} (h : Orderly m s0 s) : Orderly m s0 (Machine.dtcNext p tile ns s) := by
  induction ns generalizing s with
  | nil => exact h.mod
  | cons n ns ih => exact .ite h.dtcStartOne.mod (ih h.dtcStartOne)

theorem Orderly.dtcCalWrite {p tile mask jctx} (h : Orderly m s0 s) : Orderly m s0 (s.dtcCalWrite p tile mask jctx) := by
  unfold State.dtcCalWrite
  exact .ite h.mod h.dtcNext

theorem Orderly.dtcCalDone {e n d} (h : Orderly m s0 s) : Orderly m s0 (Machine.dtcCalDone e n d s) := by
  unfold Machine.dtcCalDone
  exact .ite h (.dtcNext (.ite h.setF.setDtc.jnl h.setF.setDtc.setDtc.wr.setF.jnl.lineSpares))

theorem Orderly.dtcCfgActive {p i old new} (h : Orderly m s0 s) : Orderly m s0 (s.dtcCfgActive p i old new) := by
  unfold State.dtcCfgActive
  exact .ite h.dropFine h

/-! ### Region keepers (R150–R168) -/

theorem Orderly.setKeeper {k v} (h : Orderly m s0 s) : Orderly m s0 (s.setKeeper k v) := by
  unfold State.setKeeper
  exact h.outside

theorem Orderly.setHop {h' v} (h : Orderly m s0 s) : Orderly m s0 (s.setHop h' v) := by
  unfold State.setHop
  exact h.outside

theorem Orderly.ringStep {h'} (h : Orderly m s0 s) : Orderly m s0 (s.ringStep h') := by
  unfold State.ringStep
  refine .ite h ?_
  dsimp only
  split
  · exact h
  · exact h.outside.setHop

theorem Orderly.ringPump {h'} (h : Orderly m s0 s) : Orderly m s0 (s.ringPump h') := by
  unfold State.ringPump
  exact h.ringStep.ringStep

theorem Orderly.ringPut {h' own f} (h : Orderly m s0 s) : Orderly m s0 (s.ringPut h' own f) := by
  unfold State.ringPut
  exact h.outside.ringPump

theorem Orderly.ringSend {cmd addr bcn arg} (h : Orderly m s0 s) : Orderly m s0 (s.ringSend cmd addr bcn arg) := by
  unfold State.ringSend
  exact .ite h.ringPut (.ite h.ringPut (.ite h.ringPut (h.foldl fun _ _ h => h.ringPut)))

theorem Orderly.keeperRec {code keeper beacon} (h : Orderly m s0 s) : Orderly m s0 (s.keeperRec code keeper beacon) := by
  unfold State.keeperRec
  exact h.jnl

theorem Orderly.ringResend {h'} (h : Orderly m s0 s) : Orderly m s0 (s.ringResend h') := by
  unfold State.ringResend
  exact .ite (.keeperRec (.setB (.ite h.outside.setKeeper h.outside))) (.ite h.outside.setKeeper h.outside)

theorem Orderly.ringIn {from_ rx h' f fwd act} (h : Orderly m s0 s) (hact : ∀ a0, Orderly m s0 a0 → Orderly m s0 (act a0)) :
    Orderly m s0 (s.ringIn from_ rx h' f fwd act) := by
  unfold State.ringIn
  extract_lets _ s1 _ s2 s3
  have h1 : Orderly m s0 s1 := h.setHop
  have h2 : Orderly m s0 s2 := h1.outside.ringPump
  have h3 : Orderly m s0 s3 := .ite (hact _ h2) h2
  exact .ite h.ringResend (.ite (.ite (hact _ h2) h2) (.ite h2 (.ite h2.ringPut (.ite h3 h3.ringPut))))

theorem Orderly.ringRecv {rx h' cmd bcn arg act} (h : Orderly m s0 s) (hact : ∀ a0, Orderly m s0 a0 → Orderly m s0 (act a0)) :
    Orderly m s0 (s.ringRecv rx h' cmd bcn arg act) := by
  unfold State.ringRecv
  exact h.ringIn (fun _ h => hact _ h)

theorem Orderly.changeAtEdge {i m'} (h : Orderly m s0 s) : Orderly m s0 (s.changeAtEdge i m') := by
  unfold State.changeAtEdge
  dsimp only
  split
  · exact h
  · exact .ite h (.ite h.setKeeper.ringSend h.setKeeper.ringSend)

theorem Orderly.keeperBeaconEdge {i phi n str} (h : Orderly m s0 s) : Orderly m s0 (Machine.keeperBeaconEdge i phi n str s) := by
  unfold Machine.keeperBeaconEdge
  exact .changeAtEdge (.ite h.setKeeper.setB h.setKeeper)

theorem Orderly.beaconFrame {rx h' n bht} (h : Orderly m s0 s) : Orderly m s0 (Machine.beaconFrame rx h' n bht s) := by
  unfold Machine.beaconFrame
  exact h.ringRecv (fun _ h => h.setKeeper)

theorem Orderly.keeperFprep {rx h' k inc chgid init} (h : Orderly m s0 s) : Orderly m s0 (Machine.keeperFprep rx h' k inc chgid init s) := by
  unfold Machine.keeperFprep
  exact h.ringRecv (fun _ h => .ite h.setKeeper.ringSend h)

theorem Orderly.keeperFcommit {rx h' k chgid cancel} (h : Orderly m s0 s) : Orderly m s0 (Machine.keeperFcommit rx h' k chgid cancel s) := by
  unfold Machine.keeperFcommit
  refine h.ringRecv (fun _ h => ?_)
  dsimp only
  split
  · exact .ite h h.setKeeper
  · exact h

theorem Orderly.tarmOne {i out target lht} (h : Orderly m s0 s) : Orderly m s0 (s.tarmOne i out target lht) := by
  unfold State.tarmOne
  exact .ite h.setKeeper h.setKeeper.ringSend

theorem Orderly.keeperTarm {rx h' mask target n str} (h : Orderly m s0 s) : Orderly m s0 (Machine.keeperTarm rx h' mask target n str s) := by
  unfold Machine.keeperTarm
  exact h.ringRecv (fun _ h => h.foldl fun _ _ h => h.tarmOne)

theorem Orderly.keeperTcan {rx h' mask} (h : Orderly m s0 s) : Orderly m s0 (Machine.keeperTcan rx h' mask s) := by
  unfold Machine.keeperTcan
  exact h.ringRecv (fun _ h => h.setKeeper)

theorem Orderly.keeperFire {i out n str} (h : Orderly m s0 s) : Orderly m s0 (Machine.keeperFire i out n str s) := by
  unfold Machine.keeperFire
  dsimp only
  split
  · exact h
  · exact .ite h (.ite h.setKeeper.ringSend h.setKeeper)

theorem Orderly.keeperWrite {rx h' w data} (h : Orderly m s0 s) : Orderly m s0 (Machine.keeperWrite rx h' w data s) := by
  unfold Machine.keeperWrite
  refine h.ringRecv (fun _ h => ?_)
  dsimp only
  split
  · exact h.setKeeper
  · exact h.setKeeper
  · exact h

theorem Orderly.keeperRead {rx h' w n str} (h : Orderly m s0 s) : Orderly m s0 (Machine.keeperRead rx h' w n str s) := by
  unfold Machine.keeperRead
  exact h.ringRecv (fun _ h => h.setKeeper.ringSend)

theorem Orderly.chgEnds {c bitNo} (h : Orderly m s0 s) : Orderly m s0 (s.chgEnds c bitNo) := by
  unfold State.chgEnds
  exact h.setF.setF.setB.keeperRec

theorem Orderly.chgAtBeacon {n} (h : Orderly m s0 s) : Orderly m s0 (s.chgAtBeacon n) := by
  unfold State.chgAtBeacon
  exact .ite (.ite h.setF.ringSend h.ringSend.chgEnds) (.ite (.ite h.wr.outside.chgEnds h.chgEnds) h)

theorem Orderly.beacon {bht} (h : Orderly m s0 s) : Orderly m s0 (Machine.beacon bht s) := by
  unfold Machine.beacon
  exact .ite h h.reach.wr.wr.wr.outside.ringSend.chgAtBeacon

theorem Orderly.enumCount {news} (h : Orderly m s0 s) : Orderly m s0 (s.enumCount news) := by
  unfold State.enumCount
  exact .ite h.setF.draw.setB.keeperRec h.setF

theorem Orderly.enumFrame {b count h' at_} (h : Orderly m s0 s) : Orderly m s0 (Machine.enumFrame b count h' at_ s) := by
  unfold Machine.enumFrame
  dsimp only
  split
  · exact h.ringIn (fun _ h => h.setKeeper)
  · exact .ite h.ringResend (h.ringIn (fun _ h => h)).wr.outside.enumCount

theorem Orderly.recvRdata {rx h' w data} (h : Orderly m s0 s) : Orderly m s0 (Machine.recvRdata rx h' w data s) := by
  unfold Machine.recvRdata
  exact h.ringRecv (fun _ h => .ite h.outside h)

theorem Orderly.recvFack {rx h' k chgid} (h : Orderly m s0 s) : Orderly m s0 (Machine.recvFack rx h' k chgid s) := by
  unfold Machine.recvFack
  exact h.ringRecv (fun _ h => .ite h.bump h)

theorem Orderly.recvFdone {rx h' k chgid miss} (h : Orderly m s0 s) : Orderly m s0 (Machine.recvFdone rx h' k chgid miss s) := by
  unfold Machine.recvFdone
  exact h.ringRecv (fun _ h => .ite h.outside h)

theorem Orderly.recvTevt {rx h' cmd out code t'} (h : Orderly m s0 s) : Orderly m s0 (Machine.recvTevt rx h' cmd out code t' s) := by
  unfold Machine.recvTevt
  exact .ite h (h.ringRecv (fun _ h => .ite h (.ite h.setB.trigRec h.setB.trigRec)))

theorem Orderly.ringResendRow {hop} (h : Orderly m s0 s) : Orderly m s0 (Machine.ringResend hop s) := by
  unfold Machine.ringResend
  exact h.ringResend

theorem Orderly.crossingOverrun {rx} (h : Orderly m s0 s) : Orderly m s0 (Machine.crossingOverrun rx s) := by
  unfold Machine.crossingOverrun
  exact .ringResend (.ite h.setB h.setKeeper)

theorem Orderly.kprEnable {en} (h : Orderly m s0 s) : Orderly m s0 (s.kprEnable en) := by
  unfold State.kprEnable
  exact .ite ((h.wr.outside.foldl fun _ _ h => h.wr).foldl fun _ _ h => h.ringSend).enumCount (.ite h.wr.setF.outside h.wr)

theorem Orderly.kprGo {v} (h : Orderly m s0 s) : Orderly m s0 (s.kprGo v).2 := by
  unfold State.kprGo
  exact .ite2 h (.ite2 h (.ite2 h (.pair h.wr.outside.ringSend)))

theorem Orderly.sendTarm {addr mask target trig} (h : Orderly m s0 s) : Orderly m s0 (s.sendTarm addr mask target trig).2 := by
  unfold State.sendTarm
  exact .ite2 (.pair h.ringSend) h

theorem Orderly.kprTcanGo {v} (h : Orderly m s0 s) : Orderly m s0 (s.kprTcanGo v) := by
  unfold State.kprTcanGo
  exact .ite h.ringSend h

theorem Orderly.kprFetch {idx} (h : Orderly m s0 s) : Orderly m s0 (s.kprFetch idx) := by
  unfold State.kprFetch
  exact h.outside.ringSend

/-! ### Time transfer (R125–R149) -/

theorem Orderly.setPsrv {p n v} (h : Orderly m s0 s) : Orderly m s0 (s.setPsrv p n v) := by
  unfold State.setPsrv
  exact h.mod

theorem Orderly.modSrv {p f} (h : Orderly m s0 s) : Orderly m s0 (s.modSrv p f) := by
  unfold State.modSrv
  exact h.mod

theorem Orderly.srvPortUp {p n} (h : Orderly m s0 s) : Orderly m s0 (s.srvPortUp p n) := by
  unfold State.srvPortUp
  exact h.setPsrv.setF

theorem Orderly.stepBy {p c} (h : Orderly m s0 s) : Orderly m s0 (s.stepBy p c) := by
  unfold State.stepBy
  exact h.reach.stepHt

theorem Orderly.slewBy {p port c} (h : Orderly m s0 s) : Orderly m s0 (s.slewBy p port c) := by
  unfold State.slewBy
  exact .ite h.mod.setB.timeEvent h.mod

theorem Orderly.refChange {p port c} (h : Orderly m s0 s) : Orderly m s0 (s.refChange p port c) := by
  unfold State.refChange
  exact .ite (.ite h.mod h.mod.stepBy) h.slewBy

theorem Orderly.moveRef {p d} (h : Orderly m s0 s) : Orderly m s0 (s.moveRef p d) := by
  unfold State.moveRef
  extract_lets sv ports0 ports t s1
  have h1 : Orderly m s0 s1 := h.modSrv
  refine .ite h ?_
  clear_value t
  split
  · exact h1
  · exact .ite h1 (.refChange (.ite h1 h1.setB.timeEvent))

theorem Orderly.selectRef {p} (h : Orderly m s0 s) : Orderly m s0 (s.selectRef p) := by
  unfold State.selectRef
  exact h.moveRef.modSrv.refreshQual

theorem Orderly.srvPortDown {p n} (h : Orderly m s0 s) : Orderly m s0 (s.srvPortDown p n) := by
  unfold State.srvPortDown
  exact .selectRef (.ite h.setF.setPsrv.setB.timeEvent h.setF.setPsrv)

theorem Orderly.publishSurvey {p n} (h : Orderly m s0 s) : Orderly m s0 (s.publishSurvey p n) := by
  unfold State.publishSurvey
  exact (h.foldl fun _ _ h => h.wr.wr).setF

theorem Orderly.surveyCal {p n lane txts rxts} (h : Orderly m s0 s) : Orderly m s0 (s.surveyCal p n lane txts rxts) := by
  unfold State.surveyCal
  exact h.setPsrv.publishSurvey

theorem Orderly.surveyMapIn {p n rx tx} (h : Orderly m s0 s) : Orderly m s0 (s.surveyMapIn p n rx tx) := by
  unfold State.surveyMapIn
  exact h.setPsrv

theorem Orderly.servoUpdate {p n theta} (h : Orderly m s0 s) : Orderly m s0 (s.servoUpdate p n theta) := by
  unfold State.servoUpdate
  exact h.modSrv.mod

theorem Orderly.servoStep {p n theta} (h : Orderly m s0 s) : Orderly m s0 (s.servoStep p n theta).1 := by
  unfold State.servoStep
  exact .ite1 (.fst h.stepBy.setB) (.ite1 (.ite1 (.fst h.stepBy.setB) (.fst h.slewBy)) h)

theorem Orderly.asymCheck {p n} (h : Orderly m s0 s) : Orderly m s0 (s.asymCheck p n) := by
  unfold State.asymCheck
  exact h.foldl fun _ _ h => h.setB.timeEvent.timeEvent

theorem Orderly.lockLost {p n theta} (h : Orderly m s0 s) : Orderly m s0 (s.lockLost p n theta) := by
  unfold State.lockLost
  exact h.setB.timeEvent

theorem Orderly.loopCount {n theta} (h : Orderly m s0 s) : Orderly m s0 (s.loopCount n theta) := by
  unfold State.loopCount
  exact .ite h (.ite h h.modSrv.setF)

theorem Orderly.exchangeLost {p n} (h : Orderly m s0 s) : Orderly m s0 (s.exchangeLost p n) := by
  unfold State.exchangeLost
  exact h.bump.loopCount

theorem Orderly.exchangeDone {p n x t3 t4} (h : Orderly m s0 s) : Orderly m s0 (s.exchangeDone p n x t3 t4) := by
  unfold State.exchangeDone
  extract_lets _
  split
  extract_lets _ _ _ _ s1 s2 s3 z
  have h1 : Orderly m s0 s1 := h.setPsrv.bump.loopCount.setF.publishSurvey
  have h2 : Orderly m s0 s2 := .ite h1.lockLost h1
  have h3 : Orderly m s0 s3 := h2.selectRef.asymCheck
  have hz : Orderly m s0 z.1 := h3.servoStep
  exact .ite h.setPsrv.publishSurvey (.ite h.setPsrv.exchangeLost.setB.publishSurvey (.ite h3 (.ite hz.servoUpdate h3.servoUpdate)))

theorem Orderly.twinFound {p n source} (h : Orderly m s0 s) : Orderly m s0 (s.twinFound p n source) := by
  unfold State.twinFound
  exact .ite h (h.modSrv.setB.timeEvent.foldl fun _ _ h => .ite h.srvPortUp h)

theorem Orderly.recvSync {port m'} (h : Orderly m s0 s) : Orderly m s0 (Machine.recvSync port m' s) := by
  unfold Machine.recvSync
  extract_lets p n s1 v tsc word rx tx x down late kept gone done wrong v1 dreq s2 s3 s4 s5 s6
  have h1 : Orderly m s0 s1 := h.twinFound
  have h2 : Orderly m s0 s2 := h1.wr.setPsrv.send
  have h3 : Orderly m s0 s3 := .ite h2.modSrv h2
  have h4 : Orderly m s0 s4 := h3.foldl fun _ _ h => h.exchangeLost
  have h5 : Orderly m s0 s5 := .ite h4.setF.lockLost h4
  have h6 : Orderly m s0 s6 := by
    unfold s6
    clear_value done
    split
    · exact h5.exchangeDone
    · exact h5
  exact .ite h h6.selectRef

theorem Orderly.recvDreq {port xn rxts} (h : Orderly m s0 s) : Orderly m s0 (Machine.recvDreq port xn rxts s) := by
  unfold Machine.recvDreq
  exact h.setPsrv

theorem Orderly.syncInterval {port} (h : Orderly m s0 s) : Orderly m s0 (Machine.syncInterval port s) := by
  unfold Machine.syncInterval
  exact .ite h h.setPsrv.send

theorem Orderly.servoHoldTimeout {port} (h : Orderly m s0 s) : Orderly m s0 (Machine.servoHoldTimeout port s) := by
  unfold Machine.servoHoldTimeout
  extract_lets _ _ _ s1 s2
  have h1 : Orderly m s0 s1 := by
    unfold s1
    split
    · exact h.reach
    · exact h
  have h2 : Orderly m s0 s2 := h1.setF
  exact .ite (.selectRef (.ite h2.lockLost h2)) h

theorem Orderly.revertTimeout {p} (h : Orderly m s0 s) : Orderly m s0 (Machine.revertTimeout p s) := by
  unfold Machine.revertTimeout
  split
  · exact .ite h.reach.moveRef.modSrv.refreshQual h
  · exact h

theorem Orderly.slewEnd {p} (h : Orderly m s0 s) : Orderly m s0 (Machine.slewEnd p s) := by
  unfold Machine.slewEnd
  exact .ite h h.passed

theorem Orderly.twinSourceTimeout (h : Orderly m s0 s) : Orderly m s0 (Machine.twinSourceTimeout s) := by
  unfold Machine.twinSourceTimeout
  split
  · exact h
  · exact .ite h h.reach.modSrv.setB.timeEvent.enterHoldover

theorem Orderly.offsetRec {p other code off} (h : Orderly m s0 s) : Orderly m s0 (s.offsetRec p other code off) := by
  unfold State.offsetRec
  exact h.jnl

theorem Orderly.diffInterval {p} (h : Orderly m s0 s) : Orderly m s0 (Machine.diffInterval p s) := by
  unfold Machine.diffInterval
  split
  · exact h
  · exact .ite ((h.foldl fun _ _ h => h.offsetRec).foldl fun _ _ h => h.send) (h.foldl fun _ _ h => h.offsetRec)

theorem Orderly.recvDiff {offs} (h : Orderly m s0 s) : Orderly m s0 (Machine.recvDiff offs s) := by
  unfold Machine.recvDiff
  exact h.modSrv.foldl fun _ _ h => h.offsetRec

theorem Orderly.lcalWrite {t' v} (h : Orderly m s0 s) : Orderly m s0 (s.lcalWrite t' v).2 := by
  unfold State.lcalWrite
  exact .ite2 h (.ite2 (.pair h.wr.wr.modSrv.holdUnit) (.pair h.wr))

theorem Orderly.loopbackDone {t'} (h : Orderly m s0 s) : Orderly m s0 (Machine.loopbackDone t' s) := by
  unfold Machine.loopbackDone
  exact .ite h (.holdUnit (.ite h.wr.jnl h.wr.wr.jnl))

/-! ### Step links (R95–R124) -/

theorem Orderly.setPrt {p n v} (h : Orderly m s0 s) : Orderly m s0 (s.setPrt p n v) := by
  unfold State.setPrt
  exact h.mod

theorem Orderly.modPrt {p n f} (h : Orderly m s0 s) : Orderly m s0 (s.modPrt p n f) := by
  unfold State.modPrt
  exact h.setPrt

theorem Orderly.portEvent {p n bitNo} (h : Orderly m s0 s) : Orderly m s0 (s.portEvent p n bitNo) := by
  unfold State.portEvent
  exact h.jnl

theorem Orderly.noteDreq {p n f} (h : Orderly m s0 s) : Orderly m s0 (s.noteDreq p n f) := by
  unfold State.noteDreq
  exact .ite h.setPsrv h

theorem Orderly.startFrame {p n i} (h : Orderly m s0 s) : Orderly m s0 (s.startFrame p n i) := by
  unfold State.startFrame
  split
  · exact h
  · exact h.mod.setPrt.noteDreq

theorem Orderly.bulkFill {n} (h : Orderly m s0 s) : Orderly m s0 (s.bulkFill n) := by
  unfold State.bulkFill
  dsimp only
  split
  · exact h
  · split
    · exact h
    · exact .ite h h.mod.setPrt

theorem Orderly.bulkRefill {p n} (h : Orderly m s0 s) : Orderly m s0 (s.bulkRefill p n) := by
  unfold State.bulkRefill
  exact .ite h.bulkFill.bulkFill h

theorem Orderly.calQueue {p n} (h : Orderly m s0 s) : Orderly m s0 (s.calQueue p n) := by
  unfold State.calQueue
  dsimp only
  split
  · exact .ite h h.send.setPrt
  · exact h

theorem Orderly.wireN {fuel p n lim} (h : Orderly m s0 s) : Orderly m s0 (Machine.wireN fuel p n lim s) := by
  induction fuel generalizing s with
  | zero => exact h
  | succ fuel ih =>
    unfold Machine.wireN
    extract_lets s1 v k
    have h1 : Orderly m s0 s1 := h.calQueue
    refine .ite h1 (.ite (ih h1.setPrt) ?_)
    split
    · exact ih h1.startFrame
    · refine .ite (ih h1.setPrt) ?_
      split
      · exact ih h1.startFrame.bulkRefill
      · exact ih h1.setPrt

theorem Orderly.pump {p n} (h : Orderly m s0 s) : Orderly m s0 (s.pump p n) := by
  unfold State.pump
  exact .ite h.bulkRefill.wireN h

theorem Orderly.pumpAll {p} (h : Orderly m s0 s) : Orderly m s0 (s.pumpAll p) := by
  unfold State.pumpAll
  exact h.foldl fun _ _ h => h.pump

theorem Orderly.swapRec {p n dir ln trig c} (h : Orderly m s0 s) : Orderly m s0 (s.swapRec p n dir ln trig c) := by
  unfold State.swapRec
  exact h.spareRec

theorem Orderly.linkEnds {p n} (h : Orderly m s0 s) : Orderly m s0 (s.linkEnds p n) := by
  unfold State.linkEnds
  exact h.mod.modPrt

theorem Orderly.pathGone {p n} (h : Orderly m s0 s) : Orderly m s0 (s.pathGone p n) := by
  unfold State.pathGone
  exact .ite h (h.foldl fun _ _ h => h.send)

theorem Orderly.spillsLost {p n} (h : Orderly m s0 s) : Orderly m s0 (s.spillsLost p n) := by
  unfold State.spillsLost
  exact .ite h h.outside

theorem Orderly.leaveUp {p n} (h : Orderly m s0 s) : Orderly m s0 (s.leaveUp p n) := by
  unfold State.leaveUp
  extract_lets _ _ s1 s2 s3 s5 s4
  have h1 : Orderly m s0 s1 := h.setB.bump.linkEnds
  have h2 : Orderly m s0 s2 := h1.mod
  have h3 : Orderly m s0 s3 := h2.modPrt
  have h5 : Orderly m s0 s5 := h3.setF.portEvent
  have h4 : Orderly m s0 s4 := by
    unfold s4
    split
    · exact .ite h5 h5.swapRec
    · exact h3
  exact h4.srvPortDown.pathGone.spillsLost

theorem Orderly.portTo {p n st} (h : Orderly m s0 s) : Orderly m s0 (s.portTo p n st) := by
  unfold State.portTo
  extract_lets _ _ s1 s2 s3 s4 s5 s6
  have h1 : Orderly m s0 s1 := h.setF
  have h2 : Orderly m s0 s2 := .ite h1.leaveUp (.ite h1.linkEnds h1)
  have h3 : Orderly m s0 s3 := .ite h2.setF.setF h2
  have h4 : Orderly m s0 s4 := .ite h3.holdUnit (.ite h3.linkEnable h3)
  have h5 : Orderly m s0 s5 := .ite h4.setF.modPrt h4
  have h6 : Orderly m s0 s6 := .ite h5.send h5
  exact .ite h (.ite h6.dropAllFine h6)

theorem Orderly.portFault {p n code} (h : Orderly m s0 s) : Orderly m s0 (s.portFault p n code) := by
  unfold State.portFault
  exact h.portTo.setF.setB.portEvent

theorem Orderly.toDetect {p n full} (h : Orderly m s0 s) : Orderly m s0 (s.toDetect p n full) := by
  unfold State.toDetect
  exact .ite h.portTo.setF.setF.setF.modPrt h.portTo.setF.setF.setF

theorem Orderly.portsRecheck {p} (h : Orderly m s0 s) : Orderly m s0 (s.portsRecheck p) := by
  unfold State.portsRecheck
  exact h.foldl fun _ _ h => .ite h.portTo (.ite h.toDetect h)

theorem Orderly.portUp {p n} (h : Orderly m s0 s) : Orderly m s0 (s.portUp p n) := by
  unfold State.portUp
  exact h.portTo.setB.modPrt.holdUnit.srvPortUp.pump

theorem Orderly.trainFail {p n} (h : Orderly m s0 s) : Orderly m s0 (s.trainFail p n) := by
  unfold State.trainFail
  exact .ite h.modPrt.portFault h.modPrt.toDetect

theorem Orderly.laneFail {p n} (h : Orderly m s0 s) : Orderly m s0 (s.laneFail p n) := by
  unfold State.laneFail
  exact .ite h.modPrt.portFault h.modPrt

theorem Orderly.prtCtrlWrite {p n v} (h : Orderly m s0 s) : Orderly m s0 (s.prtCtrlWrite p n v).2 := by
  unfold State.prtCtrlWrite
  exact .ite2 h (.pair (.ite h.wr.portTo (.ite (.ite h.wr.toDetect h.wr) (.ite h.wr.sendFlit.toDetect (.ite h.wr.toDetect h.wr)))))

theorem Orderly.farEndSignal {port mask} (h : Orderly m s0 s) : Orderly m s0 (Machine.farEndSignal port mask s) := by
  unfold Machine.farEndSignal
  exact .ite h (.ite h.laneFail h.portTo.modPrt.setF)

theorem Orderly.equalised {port rx tx} (h : Orderly m s0 s) : Orderly m s0 (Machine.equalised port rx tx s) := by
  unfold Machine.equalised
  exact .ite h (.ite h.laneFail h.modPrt.setF.setF.surveyMapIn.setF.portTo)

theorem Orderly.codewordLock {port} (h : Orderly m s0 s) : Orderly m s0 (Machine.codewordLock port s) := by
  unfold Machine.codewordLock
  exact .ite h h.portTo.modPrt

theorem Orderly.trainingTimeout {port} (h : Orderly m s0 s) : Orderly m s0 (Machine.trainingTimeout port s) := by
  unfold Machine.trainingTimeout
  exact .ite h.trainFail h

theorem Orderly.codewordLockLoss {port k} (h : Orderly m s0 s) : Orderly m s0 (Machine.codewordLockLoss port k s) := by
  unfold Machine.codewordLockLoss
  exact .ite h (.ite h.bump h.bump.toDetect)

theorem Orderly.retireLane {p n l} (h : Orderly m s0 s) : Orderly m s0 (s.retireLane p n l) := by
  unfold State.retireLane
  exact h.mod.lifCount

theorem Orderly.laneLoss {port lane} (h : Orderly m s0 s) : Orderly m s0 (Machine.laneLoss port lane s) := by
  unfold Machine.laneLoss
  exact .ite h (.ite h.retireLane.portFault h.retireLane.modPrt.toDetect)

theorem Orderly.protoDrop {p n} (h : Orderly m s0 s) : Orderly m s0 (s.protoDrop p n) := by
  unfold State.protoDrop
  exact h.bump.setB

theorem Orderly.negInterval {port} (h : Orderly m s0 s) : Orderly m s0 (Machine.negInterval port s) := by
  unfold Machine.negInterval
  exact .ite h h.sendFlit

theorem Orderly.recvNeg {port f crcOk} (h : Orderly m s0 s) : Orderly m s0 (Machine.recvNeg port f crcOk s) := by
  unfold Machine.recvNeg
  exact .ite h.protoDrop (.ite h (.ite h.wr.portFault (.ite h.wr.sendFlit.portFault h.wr.setF.portTo.modPrt)))

theorem Orderly.ackSpace {p n ack express} (h : Orderly m s0 s) : Orderly m s0 (s.ackSpace p n ack express) := by
  unfold State.ackSpace
  exact .ite h h.mod.modPrt

theorem Orderly.acks {p n ackE ackN credit} (h : Orderly m s0 s) : Orderly m s0 (s.acks p n ackE ackN credit) := by
  unfold State.acks
  exact h.pump.ackSpace.ackSpace.modPrt.pump

theorem Orderly.recvIdle {port ackE ackN credit spare crcOk} (h : Orderly m s0 s) :
    Orderly m s0 (Machine.recvIdle port ackE ackN credit spare crcOk s) := by
  unfold Machine.recvIdle
  exact .ite h.protoDrop (.ite h h.setF.acks)

theorem Orderly.recvAck {port ackE ackN credit crcOk} (h : Orderly m s0 s) : Orderly m s0 (Machine.recvAck port ackE ackN credit crcOk s) := by
  unfold Machine.recvAck
  exact .ite h.protoDrop (.ite h h.acks)

theorem Orderly.replay {p n express from_} (h : Orderly m s0 s) : Orderly m s0 (s.replay p n express from_) := by
  unfold State.replay
  exact .ite (.ite h.mod.bump.setB.portEvent.toDetect h.mod.bump.setB.portEvent) h.mod.bump.pump

theorem Orderly.recvNak {port express seq crcOk} (h : Orderly m s0 s) : Orderly m s0 (Machine.recvNak port express seq crcOk s) := by
  unfold Machine.recvNak
  exact .ite h.protoDrop (.ite h h.pump.modPrt.replay)

theorem Orderly.recvRetrain {port sub crcOk} (h : Orderly m s0 s) : Orderly m s0 (Machine.recvRetrain port sub crcOk s) := by
  unfold Machine.recvRetrain
  exact .ite h.protoDrop (.ite h (.ite h.toDetect h))

theorem Orderly.replayTimeout {port express} (h : Orderly m s0 s) : Orderly m s0 (Machine.replayTimeout port express s) := by
  unfold Machine.replayTimeout
  extract_lets _ _ s' _ _ s1
  have h' : Orderly m s0 s' := h.pump
  have h1 : Orderly m s0 s1 := h'.reach
  refine .ite h ?_
  split
  · exact h'
  · exact h1.modPrt.replay

theorem Orderly.ackFields {p n} (h : Orderly m s0 s) : Orderly m s0 (s.ackFields p n).2 := by
  unfold State.ackFields
  exact .pair h.draw

theorem Orderly.idleFlit {p n} (h : Orderly m s0 s) : Orderly m s0 (s.idleFlit p n) := by
  unfold State.idleFlit
  exact h.ackFields.sendFlit

theorem Orderly.heartbeatDue {port} (h : Orderly m s0 s) : Orderly m s0 (Machine.heartbeatDue port s) := by
  unfold Machine.heartbeatDue
  exact .ite h h.pump.reach.pump.reach.modPrt.idleFlit

theorem Orderly.ackDueFlit {port} (h : Orderly m s0 s) : Orderly m s0 (Machine.ackDueFlit port s) := by
  unfold Machine.ackDueFlit
  exact .ite h h.ackFields.sendFlit.modPrt

theorem Orderly.sendNak {p n express} (h : Orderly m s0 s) : Orderly m s0 (s.sendNak p n express) := by
  unfold State.sendNak
  exact h.sendFlit

theorem Orderly.nakRepeat {port express} (h : Orderly m s0 s) : Orderly m s0 (Machine.nakRepeat port express s) := by
  unfold Machine.nakRepeat
  exact .ite h.sendNak h

theorem Orderly.rejectFrame {p n express} (h : Orderly m s0 s) : Orderly m s0 (s.rejectFrame p n express) := by
  unfold State.rejectFrame
  exact .ite h h.modPrt.sendNak

theorem Orderly.rxMark {p n hdr} (h : Orderly m s0 s) : Orderly m s0 (s.rxMark p n hdr) := by
  unfold State.rxMark
  exact .ite h.modPrt h

theorem Orderly.frameIn {p n exp hdr body crc tdec d drop} (h : Orderly m s0 s) : Orderly m s0 (s.frameIn p n exp hdr body crc tdec d drop) := by
  unfold State.frameIn
  exact .ite h (.ite h.rxMark.bump.rejectFrame (.ite h.rxMark.rejectFrame (.ite h.rxMark.setPrt.protoDrop (.ite h.rxMark.setPrt.bump (.ite (.ite
    h.rxMark.setPrt.surveyCal h.rxMark.setPrt) (.ite h.rxMark.setPrt.bump h.rxMark.setPrt.mod))))))

theorem Orderly.calDue {p unit} (h : Orderly m s0 s) : Orderly m s0 (s.calDue p unit) := by
  unfold State.calDue
  exact h.foldl fun _ _ h => .ite h.modPrt h

theorem Orderly.latencyCalibration {port} (h : Orderly m s0 s) : Orderly m s0 (Machine.latencyCalibration port s) := by
  unfold Machine.latencyCalibration
  exact .ite h (.ite (.ite h.modPrt.setF.portUp h.modPrt) h.modPrt.linkSelect.pump)

theorem Orderly.latencyDone {port tx rx} (h : Orderly m s0 s) : Orderly m s0 (Machine.latencyDone port tx rx s) := by
  unfold Machine.latencyDone
  extract_lets p n s1 put s2 s3 s4
  have hput {name t l o} (ht : Orderly m s0 t) : Orderly m s0 (put name t l o) := by
    unfold put
    split
    · exact ht.wr
    · exact ht
  have h1 : Orderly m s0 s1 := h.reach.pump
  have h2 : Orderly m s0 s2 := h1.foldl fun _ _ h => hput (hput h)
  have h3 : Orderly m s0 s3 := h2.setF.setB.modPrt
  have h4 : Orderly m s0 s4 := h3.holdUnit.jnl
  exact .ite h (.ite h4.portUp h4)

theorem Orderly.beginSwap {p n w} (h : Orderly m s0 s) : Orderly m s0 (s.beginSwap p n w) := by
  unfold State.beginSwap
  exact h.modPrt.setF

theorem Orderly.requestSwap {p n dir ln trig} (h : Orderly m s0 s) : Orderly m s0 (s.requestSwap p n dir ln trig).2 := by
  unfold State.requestSwap
  exact .ite2 (.pair (.ite h.swapRec.portEvent h.swapRec)) (.pair h.beginSwap.sendFlit)

theorem Orderly.prtSwapWrite {p n v} (h : Orderly m s0 s) : Orderly m s0 (s.prtSwapWrite p n v).2 := by
  unfold State.prtSwapWrite
  exact h.requestSwap

theorem Orderly.recvSwapReq {port farDir ln block crcOk} (h : Orderly m s0 s) : Orderly m s0 (Machine.recvSwapReq port farDir ln block crcOk s) := by
  unfold Machine.recvSwapReq
  exact .ite h.protoDrop (.ite h (.ite h.portEvent h.beginSwap))

theorem Orderly.swapEnds {p n w late} (h : Orderly m s0 s) : Orderly m s0 (s.swapEnds p n w late) := by
  unfold State.swapEnds
  extract_lets _ _ s0' _ s1 s2 s3 s4 s5
  have h0' : Orderly m s0 s0' := .ite h h.swapRec
  have h1 : Orderly m s0 s1 := .ite h0'.setF.surveyMapIn h0'.setF.surveyMapIn
  have h2 : Orderly m s0 s2 := h1.setB.setF
  have h3 : Orderly m s0 s3 := .ite h2 h2.setB.wr
  have h4 : Orderly m s0 s4 := h3.modPrt
  have h5 : Orderly m s0 s5 := h4.setF
  exact h5.retireLane.lifCount.pump

theorem Orderly.swapSwitch {port ready} (h : Orderly m s0 s) : Orderly m s0 (Machine.swapSwitch port ready s) := by
  unfold Machine.swapSwitch
  dsimp only
  split
  · exact h
  · exact .ite h h.reach.sendFlit.swapEnds

theorem Orderly.recvSwapAck {port block crcOk} (h : Orderly m s0 s) : Orderly m s0 (Machine.recvSwapAck port block crcOk s) := by
  unfold Machine.recvSwapAck
  extract_lets _
  refine .ite h.protoDrop ?_
  split
  · exact h
  · exact .ite h h.swapEnds

theorem Orderly.bulkReport {n tag c} (h : Orderly m s0 s) : Orderly m s0 (s.bulkReport n tag c) := by
  unfold State.bulkReport
  exact h.tsu

theorem Orderly.bulkQueue {n tag slot ty addr handle gen epoch d} (h : Orderly m s0 s) :
    Orderly m s0 (s.bulkQueue n tag slot ty addr handle gen epoch d) := by
  unfold State.bulkQueue
  exact h.modPrt.pump

theorem Orderly.bulkDone {n tag} (h : Orderly m s0 s) : Orderly m s0 (Machine.bulkDone n tag s) := by
  unfold Machine.bulkDone
  dsimp only
  split
  · exact h.setPrt.bulkReport
  · exact h

theorem Orderly.bulkFenced (h : Orderly m s0 s) : Orderly m s0 s.bulkFenced := by
  unfold State.bulkFenced
  exact h.foldl fun _ _ h => h.setPrt.mod.foldl fun _ _ h => h.bulkReport

end Sys2Proof.Machine
end

section
/-!
PROOFS. The operations of jobs, of the tree and of the continuity store keep what the invariant asks, and leave the engines' memories alone.
-/
namespace Sys2Proof.Machine
set_option Elab.async false

variable {m : Bool} {s0 s t : State}

/-! ### Wicks and pre-light (R182–R190) -/

theorem Orderly.setWick {n w} (h : Orderly m s0 s) : Orderly m s0 (s.setWick n w) := by
  unfold State.setWick
  exact h.outside

theorem Orderly.showUnbound {n st} (h : Orderly m s0 s) : Orderly m s0 (s.showUnbound n st) := by
  unfold State.showUnbound
  exact .ite h.setF h

theorem Orderly.wickEvent {n kind} (h : Orderly m s0 s) : Orderly m s0 (s.wickEvent n kind) := by
  unfold State.wickEvent
  exact h.jnl

theorem Orderly.evalWick {n} (h : Orderly m s0 s) : Orderly m s0 (s.evalWick n) := by
  unfold State.evalWick
  exact .ite h (.ite h.consume.setWick h.consume.setWick.showUnbound)

theorem Orderly.enterWick {n} (h : Orderly m s0 s) : Orderly m s0 (s.enterWick n) := by
  unfold State.enterWick
  exact h.evalWick.evalWick

theorem Orderly.evalCtx {e c i} (h : Orderly m s0 s) : Orderly m s0 (s.evalCtx e c i) := by
  unfold State.evalCtx
  refine .ite h ?_
  split
  · exact .ite h (.ite h.resume.outcome (.ite h.consume.resume h))
  · exact h

theorem Orderly.evalObject {e i} (h : Orderly m s0 s) : Orderly m s0 (s.evalObject e i) := by
  unfold State.evalObject
  exact .foldl (.ite (h.foldl fun _ _ h => .ite h.enterWick h.evalWick) h) fun _ _ h => h.evalCtx

theorem Orderly.conditionEvaluation {e} (h : Orderly m s0 s) : Orderly m s0 (Machine.conditionEvaluation e s) := by
  unfold Machine.conditionEvaluation
  split
  · exact h
  · exact h.modEng.evalObject

theorem Orderly.timerSatisfied {e i} (h : Orderly m s0 s) : Orderly m s0 (Machine.timerSatisfied e i s) := by
  unfold Machine.timerSatisfied
  exact .ite h (.ite h.reach.setObj.evalObject (.evalObject (.ite h.reach h)))

theorem Orderly.bindWick {n slot i thr consume oneshot region plgrp instr} (h : Orderly m s0 s) :
    Orderly m s0 (s.bindWick n slot i thr consume oneshot region plgrp instr).2 := by
  unfold State.bindWick
  exact .ite2 h (.pair h.wr.wr.setF.setWick.enterWick)

theorem Orderly.unbindWick {n slot instr} (h : Orderly m s0 s) : Orderly m s0 (s.unbindWick n slot instr).2 := by
  unfold State.unbindWick
  exact .ite2 h (.pair h.setWick.showUnbound)

theorem Orderly.wickCfgWrite {n v} (h : Orderly m s0 s) : Orderly m s0 (s.wickCfgWrite n v).2 := by
  unfold State.wickCfgWrite
  exact .ite2 (.pair (.wr (.ite2 h.bindWick h.unbindWick))) (.ite2 h.bindWick h.unbindWick)

theorem Orderly.releaseWicks {slot} (h : Orderly m s0 s) : Orderly m s0 (s.releaseWicks slot) := by
  unfold State.releaseWicks
  exact h.foldl fun _ _ h => .ite h.setWick.showUnbound.makeDirty h.setWick.showUnbound

theorem Orderly.tryAssert {n} (h : Orderly m s0 s) : Orderly m s0 (s.tryAssert n) := by
  unfold State.tryAssert
  exact .ite h (.ite (.ite h h.setB) (.ite (.ite h h.setWick.bump.setB) (.ite h.outside.setWick.setB.slots h.outside.setWick)))

theorem Orderly.endPrelits {slot} (h : Orderly m s0 s) : Orderly m s0 (s.endPrelits slot) := by
  unfold State.endPrelits
  exact .ite h (h.slots.foldl fun _ _ h => h.wickEvent)

theorem Orderly.dropPrelits {slot} (h : Orderly m s0 s) : Orderly m s0 (s.dropPrelits slot) := by
  unfold State.dropPrelits
  exact h.slots.endPrelits

theorem Orderly.wickAssert (h : Orderly m s0 s) : Orderly m s0 (Machine.wickAssert s) := by
  unfold Machine.wickAssert
  exact .ite h (.foldl (.foldl (.ite h h.outside) fun _ _ h => h.tryAssert) fun _ _ h => h.endPrelits)

theorem Orderly.wickAck {n held} (h : Orderly m s0 s) : Orderly m s0 (Machine.wickAck n held s) := by
  unfold Machine.wickAck
  exact .ite h (.ite h.setWick.showUnbound.enterWick (.ite h.setWick h.setWick.setB.wickEvent))

theorem Orderly.plHoldExpiry {n} (h : Orderly m s0 s) : Orderly m s0 (Machine.plHoldExpiry n s) := by
  unfold Machine.plHoldExpiry
  exact .ite h h.reach.setWick.setB.wickEvent.enterWick

theorem Orderly.plBegin {slot group pl} (h : Orderly m s0 s) : Orderly m s0 (s.plBegin slot group pl) := by
  unfold State.plBegin
  exact h.foldl fun _ _ h => h.setWick

theorem Orderly.plDue {k slot} (h : Orderly m s0 s) : Orderly m s0 (Machine.plDue k slot s) := by
  induction k generalizing s with
  | zero => exact h
  | succ k ih =>
    unfold Machine.plDue
    dsimp only
    split
    · split
      · exact .ite (ih (.ite h.slots h.slots.plBegin)) h
      · exact h
    · exact h

theorem Orderly.prelight {slot l mask} (h : Orderly m s0 s) : Orderly m s0 (s.prelight slot l mask).2.2 := by
  unfold State.prelight
  extract_lets sl now waiting held c groups st s1 s2
  have h2 : Orderly m s0 s2 := Orderly.plDue h.slots
  refine .ite3 h ?_
  clear_value st
  split
  · exact .ite3 h2 h2
  · exact h2

theorem Orderly.prelightStage {slot} (h : Orderly m s0 s) : Orderly m s0 (Machine.prelightStage slot s) := by
  unfold Machine.prelightStage
  dsimp only
  split
  · split
    · exact h.reach.plDue
    · exact h
  · exact h

theorem Orderly.balanceDone {slot} (h : Orderly m s0 s) : Orderly m s0 (Machine.balanceDone slot s) := by
  unfold Machine.balanceDone
  exact .ite h (h.releaseWicks.dropPrelits.foldl fun _ _ h => .ite h (.ite h.setObj.modEng h.makeDirty)).slots

/-! ### Job slots and job contexts (R252–R277) -/

theorem Orderly.sendNodes {nodes f} (h : Orderly m s0 s) : Orderly m s0 (s.sendNodes nodes f) := by
  unfold State.sendNodes
  exact h.foldl fun _ _ h => h.send

theorem Orderly.setSlot {c v} (h : Orderly m s0 s) : Orderly m s0 (s.setSlot c v) := by
  unfold State.setSlot
  exact h.slots

theorem Orderly.modSlot {c f} (h : Orderly m s0 s) : Orderly m s0 (s.modSlot c f) := by
  unfold State.modSlot
  exact h.setSlot

theorem Orderly.setSlotSt {c v} (h : Orderly m s0 s) : Orderly m s0 (s.setSlotSt c v) := by
  unfold State.setSlotSt
  exact .ite h.setF h.setF.setF

theorem Orderly.endOps {e c code f} (h : Orderly m s0 s) : Orderly m s0 (s.endOps e c code f) := by
  unfold State.endOps
  exact h.foldl fun _ _ h => h.completeOp

theorem Orderly.endJobOps {k code f} (h : Orderly m s0 s) : Orderly m s0 (s.endJobOps k code f) := by
  unfold State.endJobOps
  exact h.foldl fun _ _ h => h.foldl fun _ _ h => h.completeOp

theorem Orderly.async {e c opcode sub pc obj job a args fenced range epoch state busy act} (h : Orderly m s0 s)
    (hact : ∀ a0 a1, Orderly m s0 a1 → Orderly m s0 (act a0 a1)) :
    (s.async e c opcode sub pc obj job a args fenced range epoch state busy act).All (Orderly m s0) := by
  unfold State.async
  refine .ite (.done h.report) ?_
  split
  · exact .held
  next ho => exact .done (hact _ _ (h.accept ho).setG)

/-! ### Time and sync instructions (R242–R245) -/

theorem Orderly.armDest {e jctx d t'} (h : Orderly m s0 s) : Orderly m s0 (s.armDest e jctx d t').2.2 := by
  unfold State.armDest
  dsimp only
  split
  · exact .ite3 (.triple h.armFine) (.triple h.armFine.trigRec)
  · exact .ite3 (.triple h.sendTarm.trigRec) (.ite3 (.triple h.sendTarm) (.triple h.sendTarm))

theorem Orderly.sigRemote {j i v dst} (h : Orderly m s0 s) : Orderly m s0 (s.sigRemote j i v dst).2 := by
  unfold State.sigRemote
  dsimp only
  split
  · split
    · exact .pair h.send
    · exact h
  · exact .pair h.sendNodes

theorem Orderly.copyGuard {slot obj wick v} (h : Orderly m s0 s) : Orderly m s0 (s.copyGuard slot obj wick v).2 := by
  unfold State.copyGuard
  exact .ite2 h (.ite2 h (.ite2 h h.bindWick))

/-! ### A member's side of a job (R252–R277, R299–R301) -/

theorem Orderly.slotFree {c} (h : Orderly m s0 s) : Orderly m s0 (s.slotFree c) := by
  unfold State.slotFree
  exact h.wr.wr.wr.modSlot

theorem Orderly.slotLateness {c late} (h : Orderly m s0 s) : Orderly m s0 (s.slotLateness c late) := by
  unfold State.slotLateness
  exact h.wr.setB

theorem Orderly.stepFrame {handle gen epoch newer act} (h : Orderly m s0 s) (hact : ∀ a0, Orderly m s0 (act a0)) :
    Orderly m s0 (s.stepFrame handle gen epoch newer act) := by
  unfold State.stepFrame
  split
  · exact h.freeDrop
  · exact .ite h.slotDrop (hact _)

theorem Orderly.slotEpochTo {c e} (h : Orderly m s0 s) : Orderly m s0 (s.slotEpochTo c e) := by
  unfold State.slotEpochTo
  exact h.wr.endOps.modSlot

theorem Orderly.enterReplan {c e} (h : Orderly m s0 s) : Orderly m s0 (s.enterReplan c e) := by
  unfold State.enterReplan
  exact h.slotEpochTo.modSlot.setSlotSt.setB

theorem Orderly.slotSend {c leaf f} (h : Orderly m s0 s) : Orderly m s0 (s.slotSend c leaf f) := by
  unfold State.slotSend
  exact h.send

theorem Ends.All.of_block {P : State → Prop} {e c off w len x} (hx : s.block e c off w len = .inr x) : x.All P := by
  unfold State.block at hx
  split at hx
  next hc => cases hx; exact .of_dmemCheck hc
  · split at hx
    · cases hx
      trivial
    · cases hx

theorem Ends.All.withBlock {e c off w len act} (hact : ∀ a, (act a).All (Orderly m s0)) :
    (s.withBlock e c off w len act).All (Orderly m s0) := by
  unfold State.withBlock
  split
  next hx => exact .of_block hx
  · exact (hact _).also fun _ h => h.dmemSeen

theorem Orderly.armTsu {c obj a off timed pc} (h : Orderly m s0 s) : (s.armTsu c obj a off timed pc).All (Orderly m s0) := by
  unfold State.armTsu
  exact .withBlock (fun _ => .withBlock (fun _ => h.async (fun _ _ h => h.setSlot.wr.wr.slotSend)))

theorem Orderly.completeKind {c opcode code v late extra results} (h : Orderly m s0 s) :
    Orderly m s0 (s.completeKind c opcode code v late extra results) := by
  unfold State.completeKind
  split
  · exact h.completeOp
  · exact h

theorem Orderly.armStray {h'} (h : Orderly m s0 s) : Orderly m s0 (s.armStray h') := by
  unfold State.armStray
  split
  · exact h.slotDrop
  · exact h.freeDrop

theorem Orderly.armAckTsu {handle gen epoch l floor pre} (h : Orderly m s0 s) : Orderly m s0 (Machine.armAckTsu handle gen epoch l floor pre s) := by
  unfold Machine.armAckTsu
  split
  · exact h.armStray
  · exact .ite h.slotDrop h.wr.wr.wr.modSlot.completeKind

theorem Orderly.armRefuse {handle gen code} (h : Orderly m s0 s) : Orderly m s0 (Machine.armRefuse handle gen code s) := by
  unfold Machine.armRefuse
  split
  · exact h.armStray
  · exact .ite h.slotDrop h.slotFree.completeKind

theorem Orderly.releaseTsu {c obj a pc} (h : Orderly m s0 s) : (s.releaseTsu c obj a pc).All (Orderly m s0) := by
  unfold State.releaseTsu
  exact h.async (fun _ _ h => .ite (h.foldl fun _ _ h => h.completeOp).releaseWicks.setSlotSt.modSlot.slotSend (h.foldl fun _ _ h =>
    h.completeOp).releaseWicks.setSlotSt.modSlot)

theorem Orderly.releaseAt {handle gen epoch f} (h : Orderly m s0 s) : Orderly m s0 (Machine.releaseAt handle gen epoch f s) := by
  unfold Machine.releaseAt
  exact h.stepFrame (fun _ => .ite h.modSlot h.slotDrop)

theorem Orderly.releaseEnd {c extra} (h : Orderly m s0 s) : Orderly m s0 (s.releaseEnd c extra) := by
  unfold State.releaseEnd
  exact h.slotFree.completeKind

theorem Orderly.releaseTick {c} (h : Orderly m s0 s) : Orderly m s0 (Machine.releaseTick c s) := by
  unfold Machine.releaseTick
  dsimp only
  split
  · exact .ite h.reach.releaseEnd h
  · exact h

theorem Orderly.releaseAtTimeout {c} (h : Orderly m s0 s) : Orderly m s0 (Machine.releaseAtTimeout c s) := by
  unfold Machine.releaseAtTimeout
  exact .ite h h.reach.balanceDone.releaseEnd.jnl

theorem Orderly.contribute {c seq status ds} (h : Orderly m s0 s) : Orderly m s0 (s.contribute c seq status ds) := by
  unfold State.contribute
  extract_lets _ _ _ s1 s2 _ s3
  have h1 : Orderly m s0 s1 := by
    unfold s1
    split
    · exact .ite h h.slotSend
    · exact h
  have h2 : Orderly m s0 s2 := .ite h1 (h1.foldl fun _ _ h => h.foldl fun _ _ h => h.slotSend)
  have h3 : Orderly m s0 s3 := h2.modSlot
  exact .ite h2 h3.slotSend

theorem Orderly.openOp {c o status ds} (h : Orderly m s0 s) : Orderly m s0 (s.openOp c o status ds) := by
  unfold State.openOp
  exact h.setSlot.contribute

theorem Orderly.redSeen {e c offs ds} (h : Orderly m s0 s) : Orderly m s0 (s.redSeen e c offs ds) := by
  unfold State.redSeen
  exact (h.foldl fun _ _ h => h.dmemSeen).foldl fun _ _ h => .ite h.dmemSeen h

theorem Ends.All.of_redDescs {P : State → Prop} {e c offs x} (hx : s.redDescs e c offs = .inr x) : x.All P := by
  induction offs with
  | nil => cases hx
  | cons off rest ih =>
    unfold State.redDescs at hx
    split at hx
    next hb => cases hx; exact .of_block hb
    · split at hx
      next hr => cases hx; exact ih hr
      · cases hx

theorem Ends.All.of_redElems {P : State → Prop} {e c ds x} (hx : s.redElems e c ds = .inr x) : x.All P := by
  induction ds with
  | nil => cases hx
  | cons d rest ih =>
    unfold State.redElems at hx
    extract_lets w n here at hx
    have hhere {y} (hy : here = .inr y) : y.All P := by
      unfold here at hy
      split at hy
      · cases hy
      · split at hy
        next hb => cases hy; exact .of_block hb
        · cases hy
    clear_value here
    split at hx
    next hh => cases hx; exact hhere rfl
    · split at hx
      next hr => cases hx; exact ih hr
      · cases hx

theorem Orderly.gateTsu {c obj a off n pc} (h : Orderly m s0 s) : (s.gateTsu c obj a off n pc).All (Orderly m s0) := by
  unfold State.gateTsu
  refine .withBlock fun _ => ?_
  dsimp only
  split
  next hx => exact .of_redDescs hx
  · split
    next hx => exact .of_redElems hx
    · exact (h.async fun _ _ h => h.setF.setSlotSt.openOp).also fun _ h => h.redSeen

theorem Orderly.contribTsu {c obj a off pc} (h : Orderly m s0 s) : (s.contribTsu c obj a off pc).All (Orderly m s0) := by
  unfold State.contribTsu
  split
  next hx => exact .of_redDescs hx
  · split
    next hx => exact .of_redElems hx
    · exact (h.async fun _ _ h => h.openOp).also fun _ h => h.redSeen

theorem Orderly.cmbOrphan (h : Orderly m s0 s) : Orderly m s0 s.cmbOrphan := by
  unfold State.cmbOrphan
  exact h.bump.setB

theorem Orderly.resultData {c coll seq idx last data} (h : Orderly m s0 s) : Orderly m s0 (s.resultData c coll seq idx last data) := by
  unfold State.resultData
  dsimp only
  split
  · exact h.cmbOrphan
  · exact .ite h.cmbOrphan (.ite h.cmbOrphan (.ite (.modSlot (.completeOp (.ite h.setSlot.setB h.setSlot))) (.ite h.setSlot.setB h.setSlot)))

theorem Orderly.resultFrame {handle gen epoch coll seq idx last data} (h : Orderly m s0 s) :
    Orderly m s0 (Machine.resultFrame handle gen epoch coll seq idx last data s) := by
  unfold Machine.resultFrame
  split
  · exact h.cmbOrphan
  · exact .ite h.slotDrop h.resultData

theorem Orderly.setChan {c v} (h : Orderly m s0 s) : Orderly m s0 (s.setChan c v) := by
  unfold State.setChan
  exact h.outside

theorem Orderly.offer {c seq bytes} (h : Orderly m s0 s) : Orderly m s0 (s.offer c seq bytes) := by
  unfold State.offer
  exact .ite h.setChan.setB h.setChan

theorem Orderly.rstatRead {c} (h : Orderly m s0 s) : Orderly m s0 (s.rstatRead c).2 := by
  unfold State.rstatRead
  dsimp only
  split
  · exact .pair h.setChan
  · exact h

theorem Orderly.asyncDone {e} (h : Orderly m s0 s) : Orderly m s0 (Machine.asyncDone e s) := by
  unfold Machine.asyncDone
  extract_lets s1
  have h1 : Orderly m s0 s1 := h.asyncCompletion
  split
  · exact h1
  · split
    · split
      · exact .ite h1.offer h1
      · exact h1
    · exact h1

theorem Orderly.resultInstr {x d a b td pc} (h : Orderly true s0 s) : (s.resultInstr x d a b td pc).All (Orderly true s0) := by
  unfold State.resultInstr
  dsimp only
  split
  · exact .done h.report
  · refine .ite (.done h.report) ?_
    split
    · exact .done h.report
    · split
      next hx => exact .of_dmemCheck hx
      · have h1 {a bs v} : Orderly true s0 ((s.dmemBlock x.eng a bs).setG x.eng x.ctx d v) := h.dmemBlock.setG
        cases td with
        | some t => exact .done (.ite h1.setT h1.setT.outcome)
        | none => exact .done (.ite h1 h1.outcome)

theorem Orderly.foldl_snd {α β : Type} {f : β × State → α → β × State} {l : List α} {x : β × State} (h : Orderly m s0 x.2)
    (hf : ∀ y a, Orderly m s0 y.2 → Orderly m s0 (f y a).2) : Orderly m s0 (l.foldl f x).2 := by
  induction l generalizing x with
  | nil => exact h
  | cons a l ih => exact ih (hf x a h)

theorem Orderly.armLaunch {c l} (h : Orderly m s0 s) : Orderly m s0 (s.armLaunch c l).2 := by
  unfold State.armLaunch
  refine .foldl_snd h fun _ _ h => ?_
  split
  · exact h
  · exact h.armDest

theorem Orderly.applyPhase {c m' rank e} (h : Orderly m s0 s) : Orderly m s0 (s.applyPhase c m' rank e) := by
  unfold State.applyPhase
  exact .ite (.setSlotSt (.setF (.setF (.ite h h.slotEpochTo)))) (.setF (.setF (.ite h h.slotEpochTo)))

theorem Orderly.launchRec {p} (h : Orderly m s0 s) : Orderly m s0 (s.launchRec p) := by
  unfold State.launchRec
  exact h.jnl

theorem Orderly.slotPhases {n c} (h : Orderly m s0 s) : Orderly m s0 (State.slotPhases n c s) := by
  induction n generalizing s with
  | zero => exact h
  | succ n ih =>
    unfold State.slotPhases
    split
    · exact .ite (ih h.modSlot.applyPhase) h
    · exact h

theorem Orderly.doLaunch {c p} (h : Orderly m s0 s) : Orderly m s0 (s.doLaunch c p) := by
  unfold State.doLaunch
  exact .ite h.setB.launchRec (.ite h.setSlotSt.setB.modSlot.launchRec.slotPhases.enterReplan h.setSlotSt.setB.modSlot.launchRec.slotPhases)

theorem Orderly.launchTsu {handle gen epoch l gateSeq forGate resSeq status} (h : Orderly m s0 s) :
    Orderly m s0 (Machine.launchTsu handle gen epoch l gateSeq forGate resSeq status s) := by
  unfold Machine.launchTsu
  refine h.stepFrame (fun _ => .ite h.slotDrop (.ite (.doLaunch ?_) (.modSlot ?_)))
  · split
    · exact .modSlot (.completeOp (.ite h.armLaunch.wr.wr.slotLateness h.armLaunch.wr.wr))
    · exact .ite h.armLaunch.wr.wr.slotLateness h.armLaunch.wr.wr
  · split
    · exact .modSlot (.completeOp (.ite h.armLaunch.wr.wr.slotLateness h.armLaunch.wr.wr))
    · exact .ite h.armLaunch.wr.wr.slotLateness h.armLaunch.wr.wr

theorem Orderly.launchInstant {c} (h : Orderly m s0 s) : Orderly m s0 (Machine.launchInstant c s) := by
  unfold Machine.launchInstant
  split
  · exact h
  · exact .ite h.reach.modSlot.launchRec h.reach.modSlot.doLaunch

theorem Orderly.abortFrame {handle gen epoch} (h : Orderly m s0 s) : Orderly m s0 (Machine.abortFrame handle gen epoch s) := by
  unfold Machine.abortFrame
  exact h.stepFrame (fun _ => .ite h.enterReplan h.slotDrop)

theorem Orderly.replanTsu {handle gen epoch dom} (h : Orderly m s0 s) : Orderly m s0 (Machine.replanTsu handle gen epoch dom s) := by
  unfold Machine.replanTsu
  exact h.stepFrame (fun _ => .ite h.slotDrop (.ite (.ite h.modSlot.endOps h) (.ite (.slotEpochTo (.ite h.modSlot.endOps h)) (.ite (.enterReplan
    (.ite h.modSlot.endOps h)) (.modSlot (.slotEpochTo (.ite h.modSlot.endOps h)))))))

theorem Orderly.phaseTsu {handle gen epoch t' map rank} (h : Orderly m s0 s) : Orderly m s0 (Machine.phaseTsu handle gen epoch t' map rank s) := by
  unfold Machine.phaseTsu
  exact h.stepFrame (fun _ => .ite h.slotDrop (.ite h.modSlot (.ite (.ite h.modSlot h.applyPhase) (.frameOutcome (.slotLateness (.ite h.modSlot
    h.applyPhase))))))

theorem Orderly.phaseTick {c} (h : Orderly m s0 s) : Orderly m s0 (Machine.phaseTick c s) := by
  unfold Machine.phaseTick
  split
  · exact .ite h h.reach.slotPhases
  · exact h

theorem Orderly.enterReplay {c} (h : Orderly m s0 s) : Orderly m s0 (s.enterReplay c) := by
  unfold State.enterReplay
  exact .ite h.endOps.setSlotSt h

theorem Orderly.restoreFrame {handle gen epoch tr gateSeq} (h : Orderly m s0 s) :
    Orderly m s0 (Machine.restoreFrame handle gen epoch tr gateSeq s) := by
  unfold Machine.restoreFrame
  exact h.stepFrame (fun _ => .ite h.slotDrop (.ite h.modSlot.modSlot (.ite h.modSlot.enterReplay h.modSlot.enterReplay.slotLateness)))

theorem Orderly.trReached {c} (h : Orderly m s0 s) : Orderly m s0 (Machine.trReached c s) := by
  unfold Machine.trReached
  split
  · exact .ite h h.reach.modSlot.enterReplay
  · exact h

theorem Orderly.replayEnd {handle gen epoch tick} (h : Orderly m s0 s) : Orderly m s0 (Machine.replayEnd handle gen epoch tick s) := by
  unfold Machine.replayEnd
  exact h.stepFrame (fun _ => .ite h.slotDrop h.modSlot.endReplays)

theorem Orderly.forward {c o opcode sub operand tick} (h : Orderly m s0 s) : Orderly m s0 (s.forward c o opcode sub operand tick) := by
  unfold State.forward
  exact h.slotSend

theorem Orderly.jobCmdTsu {c opcode sub pc obj a range operand tick} (h : Orderly m s0 s) :
    (s.jobCmdTsu c opcode sub pc obj a range operand tick).All (Orderly m s0) := by
  unfold State.jobCmdTsu
  exact h.async (fun _ _ h => h.forward)

theorem Orderly.jobcmdDone {handle gen epoch tag code value late} (h : Orderly m s0 s) :
    Orderly m s0 (Machine.jobcmdDone handle gen epoch tag code value late s) := by
  unfold Machine.jobcmdDone
  refine h.stepFrame (fun _ => ?_)
  split
  · exact h.completeOp
  · exact h.slotDrop

theorem Orderly.strobeFrame {handle gen epoch mask tick} (h : Orderly m s0 s) : Orderly m s0 (Machine.strobeFrame handle gen epoch mask tick s) := by
  unfold Machine.strobeFrame
  exact h.stepFrame (fun _ => .ite h.queueStrobe h.queueStrobe.frameOutcome)

/-! ### The health of a TSU (R313–R329) -/

theorem Orderly.fenceRec {entry reason jctx} (h : Orderly m s0 s) : Orderly m s0 (s.fenceRec entry reason jctx) := by
  unfold State.fenceRec
  exact h.jnl

theorem Orderly.enterFenced {reason} (h : Orderly m s0 s) : Orderly m s0 (s.enterFenced reason) := by
  unfold State.enterFenced
  exact .ite h (h.setF.setF.setB.fenceRec.lifCount.dropAllFine.ringSend.bulkFenced.foldl fun _ _ h => .ite h.endOps.slotFree h.endOps)

theorem Orderly.fenceFrame (h : Orderly m s0 s) : Orderly m s0 (Machine.fenceFrame s) := by
  unfold Machine.fenceFrame
  exact h.enterFenced

theorem Orderly.selfFence (h : Orderly m s0 s) : Orderly m s0 (Machine.selfFence s) := by
  unfold Machine.selfFence
  split
  · exact h
  · exact h.reach.enterFenced

theorem Orderly.unfenceFrame (h : Orderly m s0 s) : Orderly m s0 (Machine.unfenceFrame s) := by
  unfold Machine.unfenceFrame
  exact .ite h (h.foldl fun _ _ h => .ite h h.setSlotSt.modSlot.balanceDone.slotFree).setF.setF.setB.fenceRec

theorem Orderly.shadowOnTsu {handle gen epoch shadow partner} (h : Orderly m s0 s) :
    Orderly m s0 (Machine.shadowOnTsu handle gen epoch shadow partner s) := by
  unfold Machine.shadowOnTsu
  exact h.stepFrame (fun _ => .ite h.modSlot.setF h.modSlot)

theorem Orderly.shadowOffTsu {handle gen epoch admitted rank} (h : Orderly m s0 s) :
    Orderly m s0 (Machine.shadowOffTsu handle gen epoch admitted rank s) := by
  unfold Machine.shadowOffTsu
  exact h.stepFrame (fun _ => .ite h.modSlot.setF.setF h.modSlot.setF)

theorem Orderly.mismatchFrame {handle gen epoch seq coll} (h : Orderly m s0 s) :
    Orderly m s0 (Machine.mismatchFrame handle gen epoch seq coll s) := by
  unfold Machine.mismatchFrame
  exact .ite h.setB.binEvent (h.stepFrame (fun _ => h.setB.binEvent))

theorem Orderly.sentStage {src w v} (h : Orderly m s0 s) : Orderly m s0 (s.sentStage src w v) := by
  unfold State.sentStage
  exact h.outside

theorem Orderly.sentCompare {src v} (h : Orderly m s0 s) : Orderly m s0 (s.sentCompare src v).2 := by
  unfold State.sentCompare
  dsimp only
  split
  · exact .ite2 (.pair h.outside) (.pair h.outside.setB.binEvent)
  · exact h

theorem Orderly.binClear {mask src} (h : Orderly m s0 s) : Orderly m s0 (s.binClear mask src) := by
  unfold State.binClear
  exact h.foldl fun _ _ h => .ite h h.wr.setF.jnl.sendCond

/-! ### The job root (R253–R278) -/

theorem Orderly.modJob {k f} (h : Orderly m s0 s) : Orderly m s0 (s.modJob k f) := by
  unfold State.modJob
  exact h.setJob

theorem Orderly.tellTwin {what handle gen epoch fields} (h : Orderly m s0 s) : Orderly m s0 (s.tellTwin what handle gen epoch fields) := by
  unfold State.tellTwin
  exact h.send

theorem Orderly.sendCopy {c} (h : Orderly m s0 s) : Orderly m s0 (s.sendCopy c) := by
  unfold State.sendCopy
  exact h.tellTwin

theorem Orderly.mirrorJob {k} (h : Orderly m s0 s) : Orderly m s0 (s.mirrorJob k) := by
  unfold State.mirrorJob
  exact .ite h.sendCopy h

theorem Orderly.jobJnl {w j ty payload} (h : Orderly m s0 s) : Orderly m s0 (s.jobJnl w j ty payload) := by
  unfold State.jobJnl
  exact .ite h.jnl.tellTwin h.jnl

theorem Orderly.jobRec {j kind st value} (h : Orderly m s0 s) : Orderly m s0 (s.jobRec j kind st value) := by
  unfold State.jobRec
  exact h.jobJnl

theorem Orderly.jobTo {k st} (h : Orderly m s0 s) : Orderly m s0 (s.jobTo k st) := by
  unfold State.jobTo
  exact .ite h h.setJob.jobRec.mirrorJob

theorem Orderly.answer {k r c v late} (h : Orderly m s0 s) : Orderly m s0 (s.answer k r c v late) := by
  unfold State.answer
  split
  · exact h.completeOp
  · exact h.send

theorem Orderly.answerAll {k rs c v} (h : Orderly m s0 s) : Orderly m s0 (s.answerAll k rs c v) := by
  unfold State.answerAll
  exact h.foldl fun _ _ h => h.answer

theorem Orderly.jobEvent {k kind rank node} (h : Orderly m s0 s) : Orderly m s0 (s.jobEvent k kind rank node) := by
  unfold State.jobEvent
  exact .ite h.setJob.sendSignal h.setJob

theorem Orderly.jobReplan {k} (h : Orderly m s0 s) : Orderly m s0 (s.jobReplan k) := by
  unfold State.jobReplan
  exact .ite h h.setJob.jobTo

theorem Orderly.rootLaunched {k l} (h : Orderly m s0 s) : Orderly m s0 (s.rootLaunched k l) := by
  unfold State.rootLaunched
  extract_lets _ _ s0' s1
  have h0' : Orderly m s0 s0' := h.setJob.jobTo
  have h1 : Orderly m s0 s1 := .ite h0'.sendNodes h0'
  split
  · exact h1.answer
  · exact h1

theorem Orderly.sendLaunch {k l forGate gateSeq resSeq req ends} (h : Orderly m s0 s) :
    Orderly m s0 (s.sendLaunch k l forGate gateSeq resSeq req ends) := by
  unfold State.sendLaunch
  exact .ite h.sendNodes.jobJnl.modJob.modJob h.sendNodes.jobJnl.modJob.rootLaunched

theorem Orderly.plan {k e op} (h : Orderly m s0 s) : Orderly m s0 (s.plan k e op) := by
  unfold State.plan
  exact h.setJob.foldl fun _ _ h => h.send

theorem Orderly.armFails {k c} (h : Orderly m s0 s) : Orderly m s0 (s.armFails k c) := by
  unfold State.armFails
  exact h.sendNodes.completeOp.jobTo.setJob

theorem Orderly.planFails {k c} (h : Orderly m s0 s) : Orderly m s0 (s.planFails k c) := by
  unfold State.planFails
  dsimp only
  split
  · exact h
  · split
    · exact .completeOp (.ite h.setJob.setB h.setJob)
    · exact .ite (.armFails (.ite h.setJob.setB h.setJob)) (.ite h.setJob.setB h.setJob)

theorem Orderly.planDone {k l pres} (h : Orderly m s0 s) : Orderly m s0 (s.planDone k l pres) := by
  unfold State.planDone
  dsimp only
  split
  · exact h
  · split
    · exact h.setJob.completeOp
    · exact .ite h.setJob (h.setJob.foldl fun _ _ h => h.send).completeOp.jobTo

theorem Orderly.planFix {k} (h : Orderly m s0 s) : Orderly m s0 (s.planFix k) := by
  unfold State.planFix
  dsimp only
  split
  · exact h
  · refine .ite h.planFails ?_
    split
    · exact h
    · exact h.setJob.foldl fun _ _ h => h.send

theorem Orderly.rampOffer {handle leaf offer} (h : Orderly m s0 s) : Orderly m s0 (Machine.rampOffer handle leaf offer s) := by
  unfold Machine.rampOffer
  split
  · exact h
  · dsimp only
    split
    · exact h
    · refine .ite h ?_
      split
      · exact h.planFails
      · exact .ite h.setJob (.ite h.setJob.setJob h.setJob.planFix)

theorem Orderly.rampConfirm {handle leaf l pre} (h : Orderly m s0 s) : Orderly m s0 (Machine.rampConfirm handle leaf l pre s) := by
  unfold Machine.rampConfirm
  split
  · exact h
  · dsimp only
    split
    · exact h
    · exact .ite h (.ite h.setJob (.ite h.setJob.planDone h.setJob.planFix))

theorem Orderly.epochRec {j cause node} (h : Orderly m s0 s) : Orderly m s0 (s.epochRec j cause node) := by
  unfold State.epochRec
  exact h.jobJnl

theorem Orderly.dropInsts {handle} (h : Orderly m s0 s) : Orderly m s0 (s.dropInsts handle) := by
  unfold State.dropInsts
  exact h.outside

theorem Orderly.endForEpoch {k keep} (h : Orderly m s0 s) : Orderly m s0 (s.endForEpoch k keep) := by
  unfold State.endForEpoch
  exact (h.foldl fun _ _ h => h.completeOp).answerAll.modJob.dropInsts

theorem Orderly.sendPhase {j ph e} (h : Orderly m s0 s) : Orderly m s0 (s.sendPhase j ph e) := by
  unfold State.sendPhase
  exact h.foldl fun _ _ h => .ite h h.send

theorem Orderly.rootPhase {k ph late} (h : Orderly m s0 s) : Orderly m s0 (s.rootPhase k ph late) := by
  unfold State.rootPhase
  extract_lets _ _ _ _ s1 t s2 s3 s4 s5
  have h1 : Orderly m s0 s1 := h.setJob
  have ht : Orderly m s0 t := h1.endForEpoch.foldl fun _ _ h => h.epochRec
  have h2 : Orderly m s0 s2 := by
    unfold s2
    refine .ite h1 (ht.foldl fun _ _ h => ?_)
    dsimp only
    split
    · refine .answer ?_
      split
      · exact h.sendNodes.sendNodes
      · exact h.sendNodes
    · split
      · exact h.sendNodes.sendNodes
      · exact h.sendNodes
  have h3 : Orderly m s0 s3 := h2.answer
  have h4 : Orderly m s0 s4 := .ite h3 h3.jobRec
  have h5 : Orderly m s0 s5 := .ite (.ite h4.jobTo.plan h4.jobTo) h4.mirrorJob
  exact .ite h5.sendCopy.modJob h5

theorem Orderly.duePhases {n k} (h : Orderly m s0 s) : Orderly m s0 (State.duePhases n k s) := by
  induction n generalizing s with
  | zero => exact h
  | succ n ih =>
    unfold State.duePhases
    dsimp only
    split
    · exact .ite (ih h.rootPhase) h
    · exact h

theorem Orderly.rootInstant {k} (h : Orderly m s0 s) : Orderly m s0 (s.rootInstant k) := by
  unfold State.rootInstant
  split
  · exact h
  · exact .duePhases (.ite h.reach.modJob.rootLaunched.modJob.jobReplan h.reach.modJob.rootLaunched)

theorem Orderly.rootPhaseTick {k} (h : Orderly m s0 s) : Orderly m s0 (s.rootPhaseTick k) := by
  unfold State.rootPhaseTick
  split
  · exact h.reach.duePhases
  · exact h

theorem Orderly.discardSlot {k i c extra} (h : Orderly m s0 s) : Orderly m s0 (s.discardSlot k i c extra) := by
  unfold State.discardSlot
  exact .completeOp (.setJob (.ite h.sendNodes h.sendNodes.send.setB))

theorem Orderly.discardOpen {k c} (h : Orderly m s0 s) : Orderly m s0 (s.discardOpen k c) := by
  unfold State.discardOpen
  exact h.foldl fun _ _ h => .ite h.discardSlot h

theorem Orderly.evictsDone {k node} (h : Orderly m s0 s) : Orderly m s0 (s.evictsDone k node) := by
  unfold State.evictsDone
  exact h.answerAll.modJob

theorem Orderly.advanceGo {k cause node} (h : Orderly m s0 s) : Orderly m s0 (s.advanceGo k cause node) := by
  unfold State.advanceGo
  extract_lets _ _ _ s1 s2 _ s3 s4 s5
  have h1 : Orderly m s0 s1 := by
    unfold s1
    split
    · exact h.sendNodes
    · exact h
  have h2 : Orderly m s0 s2 := h1.evictsDone
  have h3 : Orderly m s0 s3 := h2.endForEpoch.sendNodes.discardOpen
  have h4 : Orderly m s0 s4 := h3.foldl fun _ _ h => h.sendPhase
  have h5 : Orderly m s0 s5 := .ite h4.jobReplan h4.modJob
  exact h5.jobEvent.mirrorJob

theorem Orderly.jobFree {k} (h : Orderly m s0 s) : Orderly m s0 (s.jobFree k) := by
  unfold State.jobFree
  exact h.jobTo.setJob.dropInsts

theorem Orderly.jobDrained {k} (h : Orderly m s0 s) : Orderly m s0 (s.jobDrained k) := by
  unfold State.jobDrained
  exact .ite h.completeOp.jobFree h

theorem Orderly.handOver {k} (h : Orderly m s0 s) : Orderly m s0 (s.handOver k) := by
  unfold State.handOver
  exact h.endForEpoch.endJobOps.outside.setJob.jobRec

theorem Orderly.takeSlot {k x} (h : Orderly m s0 s) : Orderly m s0 (s.takeSlot k x) := by
  unfold State.takeSlot
  exact .ite h.send.sendNodes.setB h.discardSlot

theorem Orderly.takeOver {c} (h : Orderly m s0 s) : Orderly m s0 (s.takeOver c) := by
  unfold State.takeOver
  split
  · exact h
  · exact .ite h (.foldl (.jobTo (.sendNodes (.ite (.sendNodes (.ite h.outside.setJob h.outside.setJob.epochRec)) (.ite h.outside.setJob
      h.outside.setJob.epochRec)))) fun _ _ h => h.takeSlot)

theorem Orderly.advance {k cause node} (h : Orderly m s0 s) : Orderly m s0 (s.advance k cause node) := by
  unfold State.advance
  exact h.setJob.epochRec.sendCopy

theorem Orderly.memberDead {k cause node} (h : Orderly m s0 s) : Orderly m s0 (s.memberDead k cause node) := by
  unfold State.memberDead
  extract_lets j rank own s1 s2
  have h2 : Orderly m s0 s2 := Orderly.foldl h.answerAll.modJob fun _ _ h => h.jobEvent
  clear_value rank
  split
  · exact h2
  · exact (h2.modJob.foldl fun _ _ h => h.jobEvent).advance.jobDrained

theorem Orderly.armRoot {t' c obj a off timed pc} (h : Orderly m s0 s) : (s.armRoot t' c obj a off timed pc).All (Orderly m s0) := by
  unfold State.armRoot
  exact .withBlock (fun _ => .withBlock (fun _ => .ite (h.async (fun _ _ h => h.outside.setJob.jobTo)) (.withBlock (fun _ => h.async (fun _ _ h =>
    h.outside.setJob.jobTo)))))

theorem Orderly.armMatched {k} (h : Orderly m s0 s) : Orderly m s0 (s.armMatched k) := by
  unfold State.armMatched
  exact .ite h.setJob.armFails h.setJob.plan

theorem Orderly.actArm {node handle gen rank earliest leaf v3} (h : Orderly m s0 s) :
    Orderly m s0 (s.actArm node handle gen rank earliest leaf v3) := by
  unfold State.actArm
  dsimp only
  split
  · exact h.send
  · refine .ite (.ite h.send (.ite h.setJob.armMatched h.setJob)) ?_
    split
    · exact h.send
    · exact .ite h.send.answerAll.modJob h.send.sendNodes.sendNodes.answerAll.modJob

theorem Orderly.armTimeout {k} (h : Orderly m s0 s) : Orderly m s0 (Machine.armTimeout k s) := by
  unfold Machine.armTimeout
  exact .ite h h.reach.setB.armFails

theorem Orderly.releaseRoot {t' c obj a pc} (h : Orderly m s0 s) : (s.releaseRoot t' c obj a pc).All (Orderly m s0) := by
  unfold State.releaseRoot
  exact h.async (fun _ _ h => (h.foldl fun _ _ h => h.completeOp).answerAll.discardOpen.modJob.jobTo.jobDrained)

theorem Orderly.actRelease {k node} (h : Orderly m s0 s) : Orderly m s0 (s.actRelease k node) := by
  unfold State.actRelease
  exact h.modJob.jobDrained

theorem Orderly.cmdAct {k opcode sub operand tick req} (h : Orderly m s0 s) : Orderly m s0 (s.cmdAct k opcode sub operand tick req) := by
  unfold State.cmdAct
  dsimp only
  split
  · exact h.sendLaunch
  · exact h.sendPhase.modJob.duePhases
  · split
    · exact h.send.modJob
    · exact .ite h.modJob.send.modJob h.modJob
    · exact h.modJob
    · exact h.sendNodes.answerAll.modJob.answer
  · exact h.sendNodes.modJob

theorem Orderly.staleDrop (h : Orderly m s0 s) : Orderly m s0 s.staleDrop := by
  unfold State.staleDrop
  exact h.bump.setB

theorem Orderly.takeCmd {node handle gen epoch opcode sub operand tick tag} (h : Orderly m s0 s) :
    Orderly m s0 (s.takeCmd node handle gen epoch opcode sub operand tick tag) := by
  unfold State.takeCmd
  split
  · exact h
  · exact .ite h.staleDrop (.ite h.staleDrop.answer (.ite h.cmdAct h.answer))

theorem Orderly.takeHeld {h'} (h : Orderly m s0 s) : Orderly m s0 (s.takeHeld h') := by
  unfold State.takeHeld
  split
  · exact h.takeCmd
  · exact h

theorem Orderly.takeBefore {n handle h'} (h : Orderly m s0 s) : Orderly m s0 (State.takeBefore n handle h' s) := by
  induction n generalizing s with
  | zero => exact h
  | succ n ih =>
    unfold State.takeBefore
    split
    · exact h
    · exact ih h.outside.takeHeld

theorem Orderly.jobCmdTile {t' c opcode sub pc obj a range operand tick} (h : Orderly m s0 s) :
    (s.jobCmdTile t' c opcode sub pc obj a range operand tick).All (Orderly m s0) := by
  unfold State.jobCmdTile
  dsimp only
  split
  · exact h.async (fun _ _ h => h)
  · exact h.takeBefore.async (fun _ _ h => h.cmdAct)

theorem Orderly.planInstr {t' c obj a e pc} (h : Orderly m s0 s) : (s.planInstr t' c obj a e pc).All (Orderly m s0) := by
  unfold State.planInstr
  exact h.async (fun _ _ h => h.plan)

theorem Orderly.judgeShadow {k node seq coll done} (h : Orderly m s0 s) : Orderly m s0 (s.judgeShadow k node seq coll done) := by
  unfold State.judgeShadow
  dsimp only
  split
  · exact h
  · refine .ite h ?_
    split
    · refine .ite (.ite h.modJob.jobEvent h.modJob) ?_
      split
      · exact h.modJob.sendNodes.jobEvent
      · exact h.modJob.sendNodes.jobEvent.answerAll.answer.modJob
    · exact .ite h.modJob h
    · exact .ite h.modJob h
    · exact .ite h.modJob h

theorem Orderly.judgeAll {k seq coll} (h : Orderly m s0 s) : Orderly m s0 (s.judgeAll k seq coll) := by
  unfold State.judgeAll
  exact h.foldl fun _ _ h => h.judgeShadow

theorem Orderly.setLedger {l} (h : Orderly m s0 s) : Orderly m s0 (s.setLedger l) := by
  unfold State.setLedger
  exact .ite h.outside.tellTwin h.outside

theorem Orderly.rampOfferFrom {handle r L} (h : Orderly m s0 s) : Orderly m s0 (s.rampOfferFrom handle r L).1 := by
  unfold State.rampOfferFrom
  dsimp only
  split
  · exact h.setLedger
  · exact h.setLedger

theorem Orderly.sendOffer {handle l c} (h : Orderly m s0 s) : Orderly m s0 (s.sendOffer handle l c) := by
  unfold State.sendOffer
  exact h.send

theorem Orderly.actRamp {handle e plw span pre ranks} (h : Orderly m s0 s) : Orderly m s0 (s.actRamp handle e plw span pre ranks) := by
  unfold State.actRamp
  refine .ite h.sendOffer ?_
  split
  next hx => exact (h.rampOfferFrom.of_fst hx).sendOffer
  next hx => exact (h.rampOfferFrom.of_fst hx).sendOffer

theorem Orderly.pass {d f} (h : Orderly m s0 s) : Orderly m s0 (s.pass d f) := by
  unfold State.pass
  exact h.mod

theorem Orderly.rampFix {handle l} (h : Orderly m s0 s) : Orderly m s0 (Machine.rampFix handle l s) := by
  unfold Machine.rampFix
  refine .ite h.pass ?_
  split
  · exact h
  · split
    next hx => exact (h.rampOfferFrom.of_fst hx).sendOffer
    next hx =>
      have h1 := h.rampOfferFrom.of_fst hx
      exact .ite h1.sendOffer h1.setLedger.send

theorem Orderly.rampHoldLapse {handle} (h : Orderly m s0 s) : Orderly m s0 (Machine.rampHoldLapse handle s) := by
  unfold Machine.rampHoldLapse
  split
  · exact h
  · exact h.reach.setLedger

theorem Orderly.actFall {node handle gen rank} (h : Orderly m s0 s) : Orderly m s0 (s.actFall node handle gen rank) := by
  unfold State.actFall
  exact h.setLedger.send

theorem Orderly.actHeld {h'} (h : Orderly m s0 s) : Orderly m s0 (s.actHeld h') := by
  unfold State.actHeld
  split
  · exact h.actArm
  · split
    · exact .ite h.actRelease h
    · exact .ite h.actFall h
  · exact h.actRamp
  · exact (h.foldl fun _ _ h => .ite h.memberDead h).foldl fun _ _ h => h.memberDead
  · exact (h.foldl fun _ _ h => h.modJob.advance).foldl fun _ _ h => h.advance
  · exact h.takeHeld

theorem Orderly.hold {h'} (h : Orderly m s0 s) : Orderly m s0 (s.hold h') := by
  unfold State.hold
  extract_lets _
  refine .ite h.outside ?_
  split
  · exact h.takeBefore.takeHeld
  · exact h.setB.bump.jobRec.actHeld

theorem Orderly.orderHoldRelease (h : Orderly m s0 s) : Orderly m s0 (Machine.orderHoldRelease s) := by
  unfold Machine.orderHoldRelease
  split
  · exact h
  · exact h.reach.outside.actHeld

theorem Orderly.jobcmd {origin node handle gen epoch opcode sub operand tick tag} (h : Orderly m s0 s) :
    Orderly m s0 (Machine.jobcmd origin node handle gen epoch opcode sub operand tick tag s) := by
  unfold Machine.jobcmd
  exact .ite h h.hold

theorem Orderly.armReq {origin node root handle gen rank earliest leaf v3} (h : Orderly m s0 s) :
    Orderly m s0 (Machine.armReq origin node root handle gen rank earliest leaf v3 s) := by
  unfold Machine.armReq
  exact .ite h.hold h.outside.pass

theorem Orderly.releaseReq {origin node handle gen rank} (h : Orderly m s0 s) : Orderly m s0 (Machine.releaseReq origin node handle gen rank s) := by
  unfold Machine.releaseReq
  exact .ite h.hold (.ite h.hold (.ite h.pass.outside.pass (.ite h.pass.outside.hold h.pass.outside)))

theorem Orderly.rampReq {origin node handle e plw span pre ranks} (h : Orderly m s0 s) :
    Orderly m s0 (Machine.rampReq origin node handle e plw span pre ranks s) := by
  unfold Machine.rampReq
  exact .ite h.pass h.hold

theorem Orderly.relayLearn {handle gen epoch root node} (h : Orderly m s0 s) : Orderly m s0 (s.relayLearn handle gen epoch root node) := by
  unfold State.relayLearn
  exact .ite h.outside.dropInsts h.outside

theorem Orderly.relayComing {handle gen t' epoch} (h : Orderly m s0 s) : Orderly m s0 (s.relayComing handle gen t' epoch) := by
  unfold State.relayComing
  exact h.outside

theorem Orderly.relayDead {node} (h : Orderly m s0 s) : Orderly m s0 (s.relayDead node) := by
  unfold State.relayDead
  exact h.outside

/-! ### Gates and collectives in the tree (R262–R302) -/

theorem Orderly.voidOld {handle epoch} (h : Orderly m s0 s) : Orderly m s0 (s.voidOld handle epoch) := by
  unfold State.voidOld
  exact h.outside

theorem Orderly.combineAt {handle gen epoch relayed act} (h : Orderly m s0 s) (hact : ∀ a0, Orderly m s0 a0 → Orderly m s0 (act a0)) :
    Orderly m s0 (s.combineAt handle gen epoch relayed act) := by
  unfold State.combineAt
  exact .ite h.pass (.ite (hact _ h.voidOld) h.staleDrop)

theorem Orderly.plnDrop (h : Orderly m s0 s) : Orderly m s0 s.plnDrop := by
  unfold State.plnDrop
  exact h.bump

theorem Orderly.cmbRec {tile kind handle seq idx rank} (h : Orderly m s0 s) : Orderly m s0 (s.cmbRec tile kind handle seq idx rank) := by
  unfold State.cmbRec
  exact h.jnl

theorem Orderly.sendResult {k i own} (h : Orderly m s0 s) : Orderly m s0 (s.sendResult k i own) := by
  unfold State.sendResult
  exact .ite (h.foldl fun _ _ h => h.foldl fun _ _ h => h.send) (h.foldl fun _ _ h => h.foldl fun _ _ h => h.send)

theorem Orderly.resultEvents {i own} (h : Orderly m s0 s) : Orderly m s0 (s.resultEvents i own) := by
  unfold State.resultEvents
  split
  · exact h.setB.cmbRec
  · exact h.cmbRec
  · exact h

theorem Orderly.replayCheck {k seq dig} (h : Orderly m s0 s) : Orderly m s0 (s.replayCheck k seq dig) := by
  unfold State.replayCheck
  dsimp only
  split
  · exact h.bump
  · exact .ite h.bump (.ite h (.jobJnl (.setB (.bump (.ite h h.wr)))))

theorem Orderly.openEpoch {k l} (h : Orderly m s0 s) : Orderly m s0 (s.openEpoch k l) := by
  unfold State.openEpoch
  extract_lets _
  refine .ite h ?_
  split
  · exact h
  · split
    · exact h
    · exact h.send.sendNodes.setJob.mirrorJob

theorem Orderly.gateTry {k} (h : Orderly m s0 s) : Orderly m s0 (s.gateTry k) := by
  unfold State.gateTry
  dsimp only
  split
  · exact h
  · exact .ite h (.mirrorJob (.judgeAll (.completeOp (.sendLaunch (.openEpoch (.dropInsts (.modJob (.jobJnl (.ite (h.foldl fun _ _ h =>
      h.sendResult.resultEvents).replayCheck (h.foldl fun _ _ h => h.sendResult.resultEvents))))))))))

theorem Orderly.collDone {k c i} (h : Orderly m s0 s) : Orderly m s0 (s.collDone k c i) := by
  unfold State.collDone
  exact h.sendResult.resultEvents.completeOp.judgeAll.modJob.outside

theorem Orderly.qpeak {tile} (h : Orderly m s0 s) : Orderly m s0 (s.qpeak tile) := by
  unfold State.qpeak
  exact .ite h.setF h

theorem Orderly.putInst {old new} (h : Orderly m s0 s) : Orderly m s0 (s.putInst old new) := by
  unfold State.putInst
  exact h.outside

theorem Orderly.readout {i check} (h : Orderly m s0 s) : Orderly m s0 (s.readout i check) := by
  unfold State.readout
  extract_lets _ _ s1 _ s2
  have h1 : Orderly m s0 s1 := .ite h h.setB
  have h2 : Orderly m s0 s2 := h1.putInst
  split
  · refine .ite ?_ h2.gateTry
    split
    · exact h2.collDone
    · exact h2
  · exact h1.outside.foldl fun _ _ h => h.send

theorem Orderly.instTry {i check} (h : Orderly m s0 s) : Orderly m s0 (s.instTry i check) := by
  unfold State.instTry
  exact .ite h.readout h

theorem Orderly.instInput {q r n rank check} (h : Orderly m s0 s) : Orderly m s0 (s.instInput q r n rank check) := by
  unfold State.instInput
  split
  extract_lets _
  refine .instTry (.putInst (.of_snd ?_ ‹_›))
  split
  · exact h
  · exact .pair h.outside.qpeak

theorem Orderly.queueGrant {t' check} (h : Orderly m s0 s) : Orderly m s0 (Machine.queueGrant t' check s) := by
  unfold Machine.queueGrant
  refine .ite h ?_
  split
  · exact h
  · exact h.putInst.instTry

theorem Orderly.sendSpill {i port last rank contributors r x} (h : Orderly m s0 s) :
    Orderly m s0 (s.sendSpill i port last rank contributors r x) := by
  unfold State.sendSpill
  exact h.send

theorem Orderly.fallBack {i check} (h : Orderly m s0 s) : Orderly m s0 (s.fallBack i check) := by
  unfold State.fallBack
  split
  · exact h
  · exact h.putInst.bump.setB.qpeak.instTry

theorem Orderly.spillInput {i sp r n rank check x} (h : Orderly m s0 s) : Orderly m s0 (s.spillInput i sp r n rank check x) := by
  unfold State.spillInput
  dsimp only
  split
  · exact h.putInst.fallBack
  · exact .ite h.putInst.sendSpill.sendSpill h.putInst.sendSpill

theorem Orderly.contribAt {q r n rank check x} (h : Orderly m s0 s) : Orderly m s0 (s.contribAt q r n rank check x) := by
  unfold State.contribAt
  refine .ite h.plnDrop ?_
  split
  · split
    · exact h.spillInput
    · exact h.instInput
  · exact .ite h.outside.bump.setB.spillInput h.instInput

theorem Orderly.contribFrame {origin handle gen epoch seq coll idx shape nspill spill rank first elems last check} (h : Orderly m s0 s) :
    Orderly m s0 (Machine.contribFrame origin handle gen epoch seq coll idx shape nspill spill rank first elems last check s) := by
  unfold Machine.contribFrame
  exact h.combineAt (fun _ h => h.contribAt)

theorem Orderly.partialFrame {handle gen epoch seq coll idx shape nspill spill poison integrity first elems contributors last check} (h : Orderly m
    s0 s) : Orderly m s0 (Machine.partialFrame handle gen epoch seq coll idx shape nspill spill poison integrity first elems contributors last check
    s) := by
  unfold Machine.partialFrame
  exact .ite h.staleDrop (.ite h.plnDrop h.voidOld.instInput)

theorem Orderly.spillOut {node handle gen epoch seq coll idx code poison integrity first elems last check} (h : Orderly m s0 s) :
    Orderly m s0 (Machine.spillOut node handle gen epoch seq coll idx code poison integrity first elems last check s) := by
  unfold Machine.spillOut
  extract_lets _
  refine .ite h.staleDrop ?_
  split
  · exact h.setB
  · exact .ite h.fallBack.setB (.ite h.fallBack (.ite h.cmbRec.fallBack (.ite h.putInst h.putInst.putInst.instTry)))

theorem Orderly.sendSpillOut {port q c r} (h : Orderly m s0 s) : Orderly m s0 (s.sendSpillOut port q c r) := by
  unfold State.sendSpillOut
  exact h.foldl fun _ _ h => h.send

theorem Orderly.spillIn {port handle gen epoch seq coll idx shape nspill spill rank first elems last contributors check} (h : Orderly m s0 s) :
    Orderly m s0 (Machine.spillIn port handle gen epoch seq coll idx shape nspill spill rank first elems last contributors check s) := by
  unfold Machine.spillIn
  exact .ite h.outside.setB.sendSpillOut (.ite h.outside.outside (.sendSpillOut (.ite h.outside.bump.outside h.outside.bump.outside.setB.binEvent)))

theorem Orderly.spillTimeout {p t' check} (h : Orderly m s0 s) : Orderly m s0 (Machine.spillTimeout p t' check s) := by
  unfold Machine.spillTimeout
  split
  · split
    · exact h
    · extract_lets s1
      have h1 : Orderly m s0 s1 := by
        unfold s1
        split
        · exact .ite h h.reach
        · exact h
      exact h1.fallBack
  · split
    · exact h
    · exact h.reach.bump.outside

theorem Orderly.gatePut {old g} (h : Orderly m s0 s) : Orderly m s0 (s.gatePut old g) := by
  unfold State.gatePut
  exact .ite h.outside.send h.outside

theorem Orderly.gateMerge {handle gen epoch seq n or_ and_} (h : Orderly m s0 s) : Orderly m s0 (s.gateMerge handle gen epoch seq n or_ and_) := by
  unfold State.gateMerge
  split
  · exact .ite h.plnDrop h.gatePut
  · exact h.outside.gatePut

theorem Orderly.gateAtRoot {k seq count n or_ and_} (h : Orderly m s0 s) : Orderly m s0 (s.gateAtRoot k seq count n or_ and_) := by
  unfold State.gateAtRoot
  dsimp only
  split
  · exact h.plnDrop
  · exact .ite h.plnDrop h.setJob.gateTry

theorem Orderly.gateFrame {origin handle gen epoch status seq n} (h : Orderly m s0 s) :
    Orderly m s0 (Machine.gateFrame origin handle gen epoch status seq n s) := by
  unfold Machine.gateFrame
  refine h.combineAt (fun _ h => ?_)
  split
  · exact h.gateAtRoot
  · exact h.gateMerge

theorem Orderly.gatePart {handle gen epoch or_ and_ count seq} (h : Orderly m s0 s) :
    Orderly m s0 (Machine.gatePart handle gen epoch or_ and_ count seq s) := by
  unfold Machine.gatePart
  refine .ite h.staleDrop ?_
  split
  · exact h.gateAtRoot
  · exact h.voidOld.gateMerge

theorem Orderly.gateDeadline {k missing} (h : Orderly m s0 s) : Orderly m s0 (Machine.gateDeadline k missing s) := by
  unfold Machine.gateDeadline
  dsimp only
  split
  · exact h
  · split
    · exact h
    · exact (h.reach.foldl fun _ _ h => h.send).setB.jobRec

theorem Orderly.gateRoot {t c obj a off n pc} (h : Orderly m s0 s) : (s.gateRoot t c obj a off n pc).All (Orderly m s0) := by
  unfold State.gateRoot
  refine .withBlock fun _ => ?_
  dsimp only
  split
  next hx => exact .of_redDescs hx
  · exact (h.async fun _ _ h => h.modJob.jobTo.gateTry).also fun _ h => h.redSeen

theorem Orderly.contribRoot {t c obj a off pc} (h : Orderly m s0 s) : (s.contribRoot t c obj a off pc).All (Orderly m s0) := by
  unfold State.contribRoot
  dsimp only
  split
  next hx => exact .of_redDescs hx
  · exact (h.async fun _ _ h => h.modJob).also fun _ h => h.redSeen

/-! ### Failure detection and fencing (R305–R332) -/

theorem Orderly.nodeTo {pos st cause} (h : Orderly m s0 s) : Orderly m s0 (s.nodeTo pos st cause) := by
  unfold State.nodeTo
  exact .ite h h.setNode.jnl

theorem Orderly.nodeRevive {pos} (h : Orderly m s0 s) : Orderly m s0 (s.nodeRevive pos) := by
  unfold State.nodeRevive
  exact .ite (h.nodeTo.foldl fun _ _ h => h.jobEvent) h

theorem Orderly.hear {p n} (h : Orderly m s0 s) : Orderly m s0 (s.hear p n) := by
  unfold State.hear
  refine .ite h ?_
  extract_lets s1
  have h1 : Orderly m s0 s1 := h.modPrt
  split
  · exact h1
  · exact h1.setNode.nodeRevive

theorem Orderly.heartbeat {n hb} (h : Orderly m s0 s) : Orderly m s0 (s.heartbeat n hb) := by
  unfold State.heartbeat
  split
  · exact h
  · exact .ite h (.ite h.setNode.jnl h.setNode)

theorem Orderly.nodeContributed {n} (h : Orderly m s0 s) : Orderly m s0 (s.nodeContributed n) := by
  unfold State.nodeContributed
  exact .ite h h.setNode.nodeRevive

theorem Orderly.tellRoots {node f} (h : Orderly m s0 s) : Orderly m s0 (s.tellRoots node f) := by
  unfold State.tellRoots
  exact h.send.foldl fun _ _ h => h.send

theorem Orderly.sendFence {pos ty} (h : Orderly m s0 s) : Orderly m s0 (s.sendFence pos ty) := by
  unfold State.sendFence
  exact .ite h (h.foldl fun _ _ h => h.send)

theorem Orderly.tellDead {node cause} (h : Orderly m s0 s) : Orderly m s0 (s.tellDead node cause) := by
  unfold State.tellDead
  exact .ite (h.foldl fun _ _ h => h.send) (h.foldl fun _ _ h => h.send).send

theorem Orderly.tellLeafLost {leaf} (h : Orderly m s0 s) : Orderly m s0 (s.tellLeafLost leaf) := by
  unfold State.tellLeafLost
  exact h.foldl fun _ _ h => h.send

theorem Orderly.fenceNode {pos cause decide_} (h : Orderly m s0 s) : Orderly m s0 (s.fenceNode pos cause decide_) := by
  unfold State.fenceNode
  extract_lets _ s1 s2 s3 s4
  have h1 : Orderly m s0 s1 := h.nodeTo.setB
  have h2 : Orderly m s0 s2 := .ite h1.setB h1
  have h3 : Orderly m s0 s3 := h2.sendFence
  have h4 : Orderly m s0 s4 := .ite h3.send h3
  exact .ite h (.ite (.ite h2 (h2.foldl fun _ _ h => h.takeOver)) (.ite h4.tellDead h4.tellLeafLost.hold))

theorem Orderly.suspectTimeout {pos} (h : Orderly m s0 s) : Orderly m s0 (Machine.suspectTimeout pos s) := by
  unfold Machine.suspectTimeout
  exact .ite h (.ite h.reach.nodeTo.setB h.reach.nodeTo.setB.tellRoots)

theorem Orderly.verdict {pos} (h : Orderly m s0 s) : Orderly m s0 (s.verdict pos) := by
  unfold State.verdict
  exact .ite h.fenceNode h

theorem Orderly.confirmTimeout {pos} (h : Orderly m s0 s) : Orderly m s0 (Machine.confirmTimeout pos s) := by
  unfold Machine.confirmTimeout
  exact .ite h (.verdict (.ite (.ite h.reach.setNode h.reach.setNode.send) (.ite h.reach.setNode.send h.reach.setNode)))

theorem Orderly.onesideTimeout {pos} (h : Orderly m s0 s) : Orderly m s0 (Machine.onesideTimeout pos s) := by
  unfold Machine.onesideTimeout
  exact .ite h h.reach.fenceNode

theorem Orderly.suspectFrame {node since} (h : Orderly m s0 s) : Orderly m s0 (Machine.suspectFrame node since s) := by
  unfold Machine.suspectFrame
  extract_lets s1
  have h1 : Orderly m s0 s1 := by
    unfold s1
    split
    · exact .ite h.setNode.nodeTo.setB h.setNode
    · exact h
  exact h1.foldl fun _ _ h => h.jobEvent

theorem Orderly.confirmFrame {node heard} (h : Orderly m s0 s) : Orderly m s0 (Machine.confirmFrame node heard s) := by
  unfold Machine.confirmFrame
  split
  · exact .ite h h.send
  · exact .ite h.setNode.nodeRevive (.ite h.setNode.verdict (.ite h.setNode.send h.setNode))

theorem Orderly.deadFrame {origin src node cause dies} (h : Orderly m s0 s) : Orderly m s0 (Machine.deadFrame origin src node cause dies s) := by
  unfold Machine.deadFrame
  extract_lets _ _ s1 s2
  have h1 : Orderly m s0 s1 := by
    unfold s1
    split
    · exact h.fenceNode
    · exact .ite h (.ite h.tellLeafLost (.relayDead (.tellDead (.ite h h.bump))))
  have h2 : Orderly m s0 s2 := .ite h1 (h1.foldl fun _ _ h => .ite (.hold (.relayDead (.tellDead (.ite h h.bump)))) (.relayDead (.tellDead (.ite h
    h.bump))))
  exact .ite h2.hold h2

theorem Orderly.popMirror {k} (h : Orderly m s0 s) : Orderly m s0 (s.popMirror k).2 := by
  unfold State.popMirror
  split
  · exact .pair h.modJob
  · exact h

theorem Orderly.fstateFrame {n fenced} (h : Orderly m s0 s) : Orderly m s0 (Machine.fstateFrame n fenced s) := by
  unfold Machine.fstateFrame
  exact .ite h.sendFence (.ite h.sendFence h)

theorem Orderly.suspectRpt {node} (h : Orderly m s0 s) : Orderly m s0 (Machine.suspectRpt node s) := by
  unfold Machine.suspectRpt
  split
  · exact h
  · exact .ite h h.nodeTo.setB.setNode

theorem Orderly.mbrOutcome {ty c} (h : Orderly m s0 s) : Orderly m s0 (s.mbrOutcome ty c) := by
  unfold State.mbrOutcome
  exact h.frameOutcome

theorem Orderly.evictReq {node} (h : Orderly m s0 s) : Orderly m s0 (Machine.evictReq node s) := by
  unfold Machine.evictReq
  split
  · exact h
  · exact .ite h.mbrOutcome h.fenceNode

theorem Orderly.unfenceNode {pos} (h : Orderly m s0 s) : Orderly m s0 (s.unfenceNode pos).2 := by
  unfold State.unfenceNode
  exact .ite2 h (.ite2 (.pair h.nodeTo.sendFence) h)

theorem Orderly.unfenceReq {node} (h : Orderly m s0 s) : Orderly m s0 (Machine.unfenceReq node s) := by
  unfold Machine.unfenceReq
  split
  · exact h
  · exact .ite h.unfenceNode h.unfenceNode.mbrOutcome

theorem Orderly.mbrFence {v} (h : Orderly m s0 s) : Orderly m s0 (s.mbrFence v).2 := by
  unfold State.mbrFence
  exact .ite2 h (.ite2 h.unfenceNode (.ite2 (.ite2 h (.pair h.fenceNode)) h))

theorem Orderly.pathLost {node} (h : Orderly m s0 s) : Orderly m s0 (Machine.pathLost node s) := by
  unfold Machine.pathLost
  exact h.foldl fun _ _ h => h.modJob.jobEvent

theorem Orderly.leafLost {origin src leaf twin} (h : Orderly m s0 s) : Orderly m s0 (Machine.leafLost origin src leaf twin s) := by
  unfold Machine.leafLost
  exact h.hold

theorem Orderly.digestFrame {handle gen epoch node seq coll shadow digest} (h : Orderly m s0 s) :
    Orderly m s0 (Machine.digestFrame handle gen epoch node seq coll shadow digest s) := by
  unfold Machine.digestFrame
  split
  · exact h
  · exact .ite h.staleDrop (h.modJob.foldl fun _ _ h => h.judgeShadow)

theorem Orderly.condsuspFrame {node bin clear} (h : Orderly m s0 s) : Orderly m s0 (Machine.condsuspFrame node bin clear s) := by
  unfold Machine.condsuspFrame
  extract_lets s1
  have h1 : Orderly m s0 s1 := by
    unfold s1
    split
    · exact .foldl (.ite h.setNode.jnl.setB h.setNode.jnl) fun _ _ h => h.send
    · exact h
  exact .ite h1 (h1.foldl fun _ _ h => h.jobEvent)

theorem Orderly.frPeriod {liveSeconds} (h : Orderly m s0 s) : Orderly m s0 (Machine.frPeriod liveSeconds s) := by
  unfold Machine.frPeriod
  exact .ite h h.wr.wr.wr

theorem Orderly.jevtRead {k} (h : Orderly m s0 s) : Orderly m s0 (s.jevtRead k).2 := by
  unfold State.jevtRead
  dsimp only
  split
  · exact .pair h.setJob
  · exact .pair h.setJob.wr

/-! ### The continuity store (R335–R360) -/

theorem Orderly.snapTsu {c obj a off pc} (h : Orderly m s0 s) : (s.snapTsu c obj a off pc).All (Orderly m s0) := by
  unfold State.snapTsu
  exact .withBlock (fun _ => .ite (.done h.report) (h.async (fun _ _ h => h.slotSend)))

theorem Orderly.windowTsu {c obj a k t' pc} (h : Orderly m s0 s) : (s.windowTsu c obj a k t' pc).All (Orderly m s0) := by
  unfold State.windowTsu
  exact h.async (fun _ _ h => .ite h h.completeOp)

theorem Orderly.signalOpen {c} (h : Orderly m s0 s) : Orderly m s0 (s.signalOpen c) := by
  unfold State.signalOpen
  split
  · exact h
  · refine .ite h ?_
    extract_lets s1
    have h1 : Orderly m s0 s1 := h.modSlot
    split
    · exact h1.sendSignal
    · exact h1

theorem Orderly.launchTick {c} (h : Orderly m s0 s) : Orderly m s0 (Machine.launchTick c s) := by
  unfold Machine.launchTick
  exact h.launchInstant.signalOpen

theorem Orderly.openTsu {handle gen epoch slot l b wofs wlen} (h : Orderly m s0 s) :
    Orderly m s0 (Machine.openTsu handle gen epoch slot l b wofs wlen s) := by
  unfold Machine.openTsu
  refine h.stepFrame (fun _ => ?_)
  dsimp only
  split
  · exact h.slotDrop
  · exact h.modSlot.signalOpen

theorem Orderly.snapEnds {c slot code} (h : Orderly m s0 s) : Orderly m s0 (s.snapEnds c slot code) := by
  unfold State.snapEnds
  split
  · exact h.slotDrop
  · exact .completeOp (.ite h.modSlot h)

theorem Orderly.openRefuse {handle gen epoch slot code} (h : Orderly m s0 s) : Orderly m s0 (Machine.openRefuse handle gen epoch slot code s) := by
  unfold Machine.openRefuse
  exact h.stepFrame (fun _ => h.snapEnds)

theorem Orderly.snapDone {handle gen epoch slot code} (h : Orderly m s0 s) : Orderly m s0 (Machine.snapDone handle gen epoch slot code s) := by
  unfold Machine.snapDone
  exact h.stepFrame (fun _ => h.snapEnds)

theorem Orderly.syndTsu {port handle gen epoch addr off data} (h : Orderly m s0 s) :
    Orderly m s0 (Machine.syndTsu port handle gen epoch addr off data s) := by
  unfold Machine.syndTsu
  refine .ite h ?_
  split
  · exact h.mod.pump
  · exact h.bump

theorem Orderly.bulkRestore {port handle gen epoch addr off data} (h : Orderly m s0 s) :
    Orderly m s0 (Machine.bulkRestore port handle gen epoch addr off data s) := by
  unfold Machine.bulkRestore
  split
  · exact h.freeDrop
  · exact .ite h.outside h.slotDrop

theorem Orderly.bulkTransfer {n slot ty tag addr data} (h : Orderly m s0 s) : Orderly m s0 (Machine.bulkTransfer n slot ty tag addr data s) := by
  unfold Machine.bulkTransfer
  exact .ite h (.ite h.bulkReport h.bulkQueue)

theorem Orderly.jobMsg {handle gen epoch act} (h : Orderly m s0 s) (hact : ∀ a0, Orderly m s0 (act a0)) :
    Orderly m s0 (s.jobMsg handle gen epoch act) := by
  unfold State.jobMsg
  split
  · exact h
  · exact .ite (hact _) h.staleDrop

theorem Orderly.setEpochSlot {k i v} (h : Orderly m s0 s) : Orderly m s0 (s.setEpochSlot k i v) := by
  unfold State.setEpochSlot
  exact h.modJob

theorem Orderly.snapReq {handle gen epoch node slot b wofs wlen} (h : Orderly m s0 s) :
    Orderly m s0 (Machine.snapReq handle gen epoch node slot b wofs wlen s) := by
  unfold Machine.snapReq
  exact h.jobMsg (fun _ => .ite h.setEpochSlot.sendNodes h.setEpochSlot.mirrorJob)

theorem Orderly.commitRoot {t' c obj a x pc} (h : Orderly m s0 s) : (s.commitRoot t' c obj a x pc).All (Orderly m s0) := by
  unfold State.commitRoot
  exact h.async (fun _ _ h => h.setEpochSlot.send)

theorem Orderly.commitGo {k i} (h : Orderly m s0 s) : Orderly m s0 (s.commitGo k i) := by
  unfold State.commitGo
  exact h.send.sendNodes.setB.setEpochSlot.modJob.completeOp.mirrorJob

theorem Orderly.commitRecord {k i} (h : Orderly m s0 s) : Orderly m s0 (s.commitRecord k i) := by
  unfold State.commitRecord
  exact h.setEpochSlot.jobJnl.sendCopy.modJob

theorem Orderly.prepared {handle gen epoch leaf slot answer} (h : Orderly m s0 s) :
    Orderly m s0 (Machine.prepared handle gen epoch leaf slot answer s) := by
  unfold Machine.prepared
  exact h.jobMsg (fun _ => .ite h.setEpochSlot.commitGo (.ite h (.ite h.discardSlot (.ite h.setEpochSlot.commitRecord h.setEpochSlot))))

theorem Orderly.mirrorGo {k timeout} (h : Orderly m s0 s) : Orderly m s0 (s.mirrorGo k timeout) := by
  unfold State.mirrorGo
  split
  · exact h
  · extract_lets s2
    have h2 : Orderly m s0 s2 := .ite (h.popMirror.of_snd ‹_›).reach (h.popMirror.of_snd ‹_›)
    split
    · exact .ite h2.setB.advanceGo (.ite h2.evictsDone.handOver h2.advanceGo)
    · exact .ite h2.setB h2.handOver
    · exact .commitGo (.ite h2.setB h2)

theorem Orderly.mirrorTimeout {k} (h : Orderly m s0 s) : Orderly m s0 (Machine.mirrorTimeout k s) := by
  unfold Machine.mirrorTimeout
  exact h.mirrorGo

theorem Orderly.rebuildRoot {t' c obj a off pc} (h : Orderly m s0 s) : (s.rebuildRoot t' c obj a off pc).All (Orderly m s0) := by
  unfold State.rebuildRoot
  exact .withBlock (fun _ => .withBlock (fun _ => h.async (fun _ _ h => h.modJob.send)))

theorem Orderly.rootReplay {k r late} (h : Orderly m s0 s) : Orderly m s0 (s.rootReplay k r late) := by
  unfold State.rootReplay
  extract_lets s0' s1 s2
  have h0' : Orderly m s0 s0' := by
    unfold s0'
    split
    · exact h.completeOp
    · exact h
  have h1 : Orderly m s0 s1 := h0'.modJob
  have h2 : Orderly m s0 s2 := .ite h1 h1.jobTo
  exact h2.completeOp

theorem Orderly.rebuilt {handle gen epoch leaf code erasures} (h : Orderly m s0 s) :
    Orderly m s0 (Machine.rebuilt handle gen epoch leaf code erasures s) := by
  unfold Machine.rebuilt
  refine h.jobMsg (fun _ => ?_)
  dsimp only
  split
  · exact h
  · exact .ite h.setJob.completeOp (.ite h.setJob (.ite h.sendNodes.modJob h.sendNodes.modJob.rootReplay))

theorem Orderly.rootTr {k} (h : Orderly m s0 s) : Orderly m s0 (s.rootTr k) := by
  unfold State.rootTr
  split
  · exact h.reach.rootReplay
  · exact h

theorem Orderly.chainCtxFree (h : Orderly m s0 s) : Orderly m s0 s.chainCtxFree := by
  unfold State.chainCtxFree
  exact h.outside

theorem Orderly.chainRec {key old new c} (h : Orderly m s0 s) : Orderly m s0 (s.chainRec key old new c) := by
  unfold State.chainRec
  exact h.jnl

theorem Orderly.chainTo {key st c} (h : Orderly m s0 s) : Orderly m s0 (s.chainTo key st c) := by
  unfold State.chainTo
  exact .ite h h.setChain.chainRec.chainCtxFree

theorem Orderly.chainFreeWith {key c} (h : Orderly m s0 s) : Orderly m s0 (s.chainFreeWith key c) := by
  unfold State.chainFreeWith
  exact h.chainTo.completeOp

theorem Orderly.setUpSlot {x op} (h : Orderly m s0 s) : Orderly m s0 (s.setUpSlot x op) := by
  unfold State.setUpSlot
  exact .chainRec (.setChain (.outside (.ite (h.foldl fun _ _ h => h.chainFreeWith) h)))

theorem Orderly.chainsFreed {handle} (h : Orderly m s0 s) : Orderly m s0 (s.chainsFreed handle) := by
  unfold State.chainsFreed
  split
  · exact h
  · exact h.foldl fun _ _ h => h.chainFreeWith

theorem Orderly.sendChain {x} (h : Orderly m s0 s) : Orderly m s0 (s.sendChain x) := by
  unfold State.sendChain
  exact .ite h.tellTwin h

theorem Orderly.snapLeaf {t' c obj a off pc} (h : Orderly m s0 s) : (s.snapLeaf t' c obj a off pc).All (Orderly m s0) := by
  unfold State.snapLeaf
  exact .withBlock (fun _ => .withBlock (fun _ => h.async (fun _ _ h => h.setUpSlot.sendChain)))

theorem Orderly.releaseFrame {origin node handle gen rank} (h : Orderly m s0 s) :
    Orderly m s0 (Machine.releaseFrame origin node handle gen rank s) := by
  unfold Machine.releaseFrame
  exact .ite h.releaseReq.chainsFreed.sendChain h.releaseReq

theorem Orderly.copyIn {c} (h : Orderly m s0 s) : Orderly m s0 (s.copyIn c) := by
  unfold State.copyIn
  exact .ite (.tellTwin (.ite h.outside (.ite h.takeOver h.outside))) (.ite h.outside (.ite h.takeOver h.outside))

theorem Orderly.chainIn {x} (h : Orderly m s0 s) : Orderly m s0 (s.chainIn x) := by
  unfold State.chainIn
  exact .ite h.chainsFreed (.ite h h.setUpSlot)

theorem Orderly.mirrorAck {m'} (h : Orderly m s0 s) : Orderly m s0 (Machine.mirrorAck m' s) := by
  unfold Machine.mirrorAck
  split
  · exact h.mirrorGo
  · exact h.copyIn
  · exact h.pushRing
  · exact h.chainIn
  · exact h.outside

theorem Orderly.leafMsg {bulk handle gen epoch act t} (h : Orderly m s0 s) (k : Orderly m s0 t) (hact : ∀ a0, Orderly m s0 a0 → Orderly m s0 (act
    a0)) : Orderly m s0 (s.leafMsg bulk handle gen epoch act t) := by
  unfold State.leafMsg
  dsimp only
  split
  · exact k
  · exact .ite h.staleDrop (hact _ h.outside)

theorem Orderly.leafAnswer {handle fields} (h : Orderly m s0 s) : Orderly m s0 (s.leafAnswer handle fields) := by
  unfold State.leafAnswer
  exact h.send

theorem Orderly.noSlot (h : Orderly m s0 s) : Orderly m s0 s.noSlot := by
  unfold State.noSlot
  exact h.bump

theorem Orderly.openLeaf {handle gen epoch slot l b wofs wlen} (h : Orderly m s0 s) :
    Orderly m s0 (Machine.openLeaf handle gen epoch slot l b wofs wlen s) := by
  unfold Machine.openLeaf
  exact h.leafMsg h (fun _ h => h.foldl fun _ _ h => .ite h (h.foldl fun _ _ h => .ite h.chainTo h).setChain.chainTo)

theorem Orderly.leafWindowOpen {set slot} (h : Orderly m s0 s) : Orderly m s0 (Machine.leafWindowOpen set slot s) := by
  unfold Machine.leafWindowOpen
  exact .ite h h.reach.setChain

theorem Orderly.prepTry {key} (h : Orderly m s0 s) : Orderly m s0 (s.prepTry key) := by
  unfold State.prepTry
  exact .ite h.chainTo h

theorem Orderly.prepAnswer {handle slot} (h : Orderly m s0 s) : Orderly m s0 (s.prepAnswer handle slot) := by
  unfold State.prepAnswer
  exact .ite h (h.foldl fun _ _ h => h.setChain).leafAnswer

theorem Orderly.prepCheck {key} (h : Orderly m s0 s) : Orderly m s0 (s.prepCheck key) := by
  unfold State.prepCheck
  exact h.prepTry.prepAnswer

theorem Orderly.leafWindowClose {set slot} (h : Orderly m s0 s) : Orderly m s0 (Machine.leafWindowClose set slot s) := by
  unfold Machine.leafWindowClose
  exact .ite h (.ite h.reach.setChain.chainTo.prepCheck h.reach.setChain)

theorem Orderly.slowMark {key pos block} (h : Orderly m s0 s) : Orderly m s0 (s.slowMark key pos block) := by
  unfold State.slowMark
  exact .setChain (.ite (.ite h h.bump) (.setB (.ite h h.bump)))

theorem Orderly.absorbChunk {key e resend chunk data} (h : Orderly m s0 s) : Orderly m s0 (s.absorbChunk key e resend chunk data) := by
  unfold State.absorbChunk
  exact .ite (.ite h.setChain h.setChain) (.ite h.setChain.slowMark (.ite h.setChain h.setChain))

theorem Orderly.dupFrame (h : Orderly m s0 s) : Orderly m s0 s.dupFrame := by
  unfold State.dupFrame
  exact h.bump.setB

theorem Orderly.bulkAbsorb {resend n handle gen epoch slot half block off data} (h : Orderly m s0 s) :
    Orderly m s0 (Machine.bulkAbsorb resend n handle gen epoch slot half block off data s) := by
  unfold Machine.bulkAbsorb
  refine h.leafMsg h.noSlot (fun _ h => .ite h.bump ?_)
  split
  · exact h.noSlot
  · exact .ite h.noSlot (.ite h.dupFrame h.absorbChunk.prepCheck)

theorem Orderly.bulkZero {n handle gen epoch slot half block} (h : Orderly m s0 s) :
    Orderly m s0 (Machine.bulkZero n handle gen epoch slot half block s) := by
  unfold Machine.bulkZero
  refine h.leafMsg h.noSlot (fun _ h => ?_)
  dsimp only
  split
  · exact h.noSlot
  · exact .ite h.noSlot (.ite h.dupFrame (h.foldl fun _ _ h => h.absorbChunk).prepCheck)

theorem Orderly.setRebuild {ctx r} (h : Orderly m s0 s) : Orderly m s0 (s.setRebuild ctx r) := by
  unfold State.setRebuild
  exact h.outside

theorem Orderly.rebuildEnd {ctx r c tell} (h : Orderly m s0 s) : Orderly m s0 (s.rebuildEnd ctx r c tell) := by
  unfold State.rebuildEnd
  extract_lets s1 s2
  have h1 : Orderly m s0 s1 := h.foldl fun _ _ h => h.setChain.chainTo
  have h2 : Orderly m s0 s2 := h1.setRebuild.setB
  split
  · exact h2.completeOp
  · exact .ite h2.leafAnswer h2

theorem Orderly.sendRestore {ctx key rank target chunk data} (h : Orderly m s0 s) : Orderly m s0 (s.sendRestore ctx key rank target chunk data) := by
  unfold State.sendRestore
  split
  · exact h
  · exact h.send

theorem Orderly.recover {key ch} (h : Orderly m s0 s) : Orderly m s0 (s.recover key ch) := by
  unfold State.recover
  extract_lets v ps handle xs pend syn fin out
  have hfin {t} (ht : Orderly m s0 t) : Orderly m s0 (fin t) := ht.setChain
  have hout {t x d} (ht : Orderly m s0 t) : Orderly m s0 (out t x d) := ht.sendRestore
  refine .ite h ?_
  clear_value xs fin out
  split
  · exact .ite (hfin (hout h)) (.ite (hfin h) (hfin (hout h)))
  · refine .ite ?_ ?_
    · split
      · exact h
      · exact hfin (hout (hout h))
    · extract_lets
      split
      · exact hfin h.send
      · exact h
  · exact hfin h

theorem Orderly.streamMirrors {key} (h : Orderly m s0 s) : Orderly m s0 (s.streamMirrors key) := by
  unfold State.streamMirrors
  exact .ite h (h.foldl fun _ _ h => h.foldl fun _ _ h => h.sendRestore)

theorem Orderly.rebuildBegin {fuel ctx} (h : Orderly m s0 s) : Orderly m s0 (State.rebuildBegin fuel ctx s) := by
  induction fuel generalizing s with
  | zero => exact h
  | succ fuel ih =>
    unfold State.rebuildBegin
    split
    · exact h
    · extract_lets aff most s1 bad handle s2 s3 s4
      have h1 : Orderly m s0 s1 := h.setRebuild.foldl fun _ _ h => h.setChain
      have h2 : Orderly m s0 s2 := h1.foldl fun _ _ h => h.setChain.jnl
      have h3 : Orderly m s0 s3 := h1.foldl fun _ _ h => h.chainTo.streamMirrors
      have h4 : Orderly m s0 s4 := h3.foldl fun _ _ h => h.chainTo
      exact .ite h.rebuildEnd (.ite (ih h.setRebuild) (.ite h2.setB.rebuildEnd (.ite (ih h4.setRebuild) h3)))

theorem Orderly.rebuildStartAt {ctx mask ts pairs op} (h : Orderly m s0 s) : Orderly m s0 (s.rebuildStartAt ctx mask ts pairs op) := by
  unfold State.rebuildStartAt
  exact h.setRebuild.rebuildBegin

theorem Orderly.rebuildReq {handle gen epoch mask ts pairs} (h : Orderly m s0 s) :
    Orderly m s0 (Machine.rebuildReq handle gen epoch mask ts pairs s) := by
  unfold Machine.rebuildReq
  refine h.leafMsg h.send (fun _ h => ?_)
  split
  · exact h.rebuildStartAt
  · exact h

theorem Orderly.rebuildLeaf {t' c obj a off pc} (h : Orderly m s0 s) : (s.rebuildLeaf t' c obj a off pc).All (Orderly m s0) := by
  unfold State.rebuildLeaf
  exact .withBlock (fun _ => .withBlock (fun _ => h.async (fun _ _ h => h.rebuildStartAt)))

theorem Orderly.rebuildNext {ctx} (h : Orderly m s0 s) : Orderly m s0 (s.rebuildNext ctx) := by
  unfold State.rebuildNext
  split
  · exact h
  · dsimp only
    split
    · exact h
    · exact .ite h (h.foldl fun _ _ h => h.setChain.chainTo).setRebuild.rebuildBegin

theorem Orderly.rebuildWindow {handle} (h : Orderly m s0 s) : Orderly m s0 (Machine.rebuildWindow handle s) := by
  unfold Machine.rebuildWindow
  split
  · exact h
  · split
    · exact h
    · dsimp only
      split
      · exact h
      · exact .ite h (.ite (.ite (h.reach.foldl fun _ _ h => h.setChain).setRebuild.rebuildBegin h.reach.rebuildEnd) (h.reach.setRebuild.foldl fun _
          _ h => h.foldl fun _ _ h => h.recover).rebuildNext)

theorem Orderly.rebuildPrepTo {handle} (h : Orderly m s0 s) : Orderly m s0 (Machine.rebuildPrepTo handle s) := by
  unfold Machine.rebuildPrepTo
  split
  · exact h
  · split
    · exact h
    · split
      · exact h
      · exact .ite h h.reach.rebuildEnd

theorem Orderly.syndLeaf {handle gen epoch set slot half block off data} (h : Orderly m s0 s) :
    Orderly m s0 (Machine.syndLeaf handle gen epoch set slot half block off data s) := by
  unfold Machine.syndLeaf
  exact h.leafMsg h.noSlot (fun _ h => .ite h.bump (.ite h.noSlot (.ite h.dupFrame (.ite h.setChain.recover.rebuildNext h.setChain))))

theorem Orderly.slowMerge {set slot} (h : Orderly m s0 s) : Orderly m s0 (Machine.slowMerge set slot s) := by
  unfold Machine.slowMerge
  dsimp only
  split
  · exact h
  · exact .ite (.ite h.setChain.recover.rebuildNext h.setChain) h.setChain.prepCheck

theorem Orderly.prepareLeaf {handle gen epoch slot} (h : Orderly m s0 s) : Orderly m s0 (Machine.prepareLeaf handle gen epoch slot s) := by
  unfold Machine.prepareLeaf
  exact h.leafMsg h.send (fun _ h => .ite h.leafAnswer (.ite h.send (h.foldl fun _ _ h => h.setChain.prepTry).prepAnswer))

theorem Orderly.prepareTimeout {handle slot} (h : Orderly m s0 s) : Orderly m s0 (Machine.prepareTimeout handle slot s) := by
  unfold Machine.prepareTimeout
  dsimp only
  split
  · exact h
  · exact h.reach.leafAnswer.foldl fun _ _ h => h.chainFreeWith

theorem Orderly.commitLeaf {handle gen epoch slot} (h : Orderly m s0 s) : Orderly m s0 (Machine.commitLeaf handle gen epoch slot s) := by
  unfold Machine.commitLeaf
  exact h.leafMsg h.noSlot (fun _ h => .ite h.noSlot (h.foldl fun _ _ h => .ite h.chainTo.setChain.setB.completeOp (.ite h h.noSlot.chainRec)))

theorem Orderly.discardLeaf {handle gen epoch slot code} (h : Orderly m s0 s) : Orderly m s0 (Machine.discardLeaf handle gen epoch slot code s) := by
  unfold Machine.discardLeaf
  exact h.leafMsg h (fun _ h => h.foldl fun _ _ h => .ite h.chainFreeWith.setB (.ite h.leafAnswer h))

end Sys2Proof.Machine
end

section
/-!
PROOFS. Accesses, the journal and the life-cycle keep what the invariant asks: a register write may store into a memory, a wipe empties it.
-/
namespace Sys2Proof.Machine
set_option Elab.async false

variable {m : Bool} {s0 s t : State}

/-! ### Journal and lifetime record (R362–R380) -/

theorem Orderly.jflushCheck (h : Orderly m s0 s) : Orderly m s0 s.jflushCheck := by
  unfold State.jflushCheck
  exact h.foldl fun _ _ h => h.completeOp

theorem Orderly.jflushTile {t'} (h : Orderly m s0 s) : Orderly m s0 (s.jflushTile t') := by
  unfold State.jflushTile
  exact .ite h (h.dist.foldl fun _ _ h => h.completeOp)

theorem Orderly.asyncNext {e} (h : Orderly m s0 s) : Orderly m s0 (Machine.asyncNext e s) := by
  unfold Machine.asyncNext
  extract_lets s1
  have h1 : Orderly m s0 s1 := by
    unfold s1
    split
    · exact h.jflushCheck
    · exact h.jflushTile
  refine .ite h1.asyncDone (.ite h1 ?_)
  split
  · exact h1.reach.completeOp.asyncDone
  · exact h1

theorem Orderly.lifeRec {p kind c} (h : Orderly m s0 s) : Orderly m s0 (s.lifeRec p kind c) := by
  unfold State.lifeRec
  exact h.jnl

theorem Orderly.modLif {p f} (h : Orderly m s0 s) : Orderly m s0 (s.modLif p f) := by
  unfold State.modLif
  exact h.mod

theorem Orderly.lifFresh {p} (h : Orderly m s0 s) : Orderly m s0 (s.lifFresh p) := by
  unfold State.lifFresh
  exact h.modLif.setF.setF.lifeRec

theorem Orderly.lifLoaded {p ws} (h : Orderly m s0 s) : Orderly m s0 (s.lifLoaded p ws) := by
  unfold State.lifLoaded
  exact h.modLif.setF.setF.setB.lifeRec

theorem Orderly.lifLoadFail {p} (h : Orderly m s0 s) : Orderly m s0 (s.lifLoadFail p) := by
  unfold State.lifLoadFail
  exact h.setB.lifeRec

theorem Orderly.lifLoad (h : Orderly m s0 s) : Orderly m s0 (s.lifLoad).2 := by
  unfold State.lifLoad
  exact .ite2 (.pair h.lifLoaded) (.pair h.lifLoadFail)

theorem Orderly.lifSave {p} (h : Orderly m s0 s) : Orderly m s0 (s.lifSave p) := by
  unfold State.lifSave
  exact .ite h (.ite h.modLif.setF.setF.modLif.savePump h.modLif.setF.setF.modLif)

theorem Orderly.lifSaved {p ok} (h : Orderly m s0 s) : Orderly m s0 (s.lifSaved p ok) := by
  unfold State.lifSaved
  exact .ite h (.ite h.modLif.setF.setB.lifeRec (.ite h.modLif.setF.setB.lifeRec h.modLif.setF.setB.modLif.setF.lifeRec))

theorem Orderly.lifCtrl {p v unlocked} (h : Orderly m s0 s) : Orderly m s0 (s.lifCtrl p v unlocked).2 := by
  unfold State.lifCtrl
  extract_lets _ _ _ _ s1 r
  have h1 : Orderly m s0 s1 := .ite h.lifFresh h
  have hr : Orderly m s0 r.2 := .ite2 h1.lifLoad h1
  exact .ite2 h (.ite2 hr (.pair (.ite hr.lifSave hr)))

theorem Orderly.saveInterval {p} (h : Orderly m s0 s) : Orderly m s0 (Machine.saveInterval p s) := by
  unfold Machine.saveInterval
  exact .ite h h.lifSave

theorem Orderly.saveDone {p ok} (h : Orderly m s0 s) : Orderly m s0 (Machine.saveDone p ok s) := by
  unfold Machine.saveDone
  exact h.lifSaved

theorem Orderly.lifBoot {norOk} (h : Orderly m s0 s) : Orderly m s0 (s.lifBoot norOk) := by
  unfold State.lifBoot
  dsimp only
  split
  · exact h.setF.lifLoaded
  · exact h.setB.lifFresh

theorem Orderly.thermalBand {p band} (h : Orderly m s0 s) : Orderly m s0 (s.thermalBand p band) := by
  unfold State.thermalBand
  exact .ite h.modLif (.ite h.modLif.lifCount h)

theorem Orderly.spillDone {err} (h : Orderly m s0 s) : Orderly m s0 (s.spillDone err) := by
  unfold State.spillDone
  dsimp only
  split
  · exact h
  · refine .ite (Orderly.setB ?_) (Orderly.jflushCheck (Orderly.savePump (Orderly.spillPump (Orderly.flushLoss ?_))))
    · exact h.tsuJnl id
    · exact h.tsuJnl fun hl => (List.length_filter_le _ _).trans hl

theorem Orderly.saveBeat {err} (h : Orderly m s0 s) : Orderly m s0 (s.saveBeat err) := by
  unfold State.saveBeat
  exact .ite h (.savePump (.spillPump (.ite h.modLif (.ite h.modLif.modLif.lifSaved (.ite h.modLif.lifSaved h.modLif.modLif)))))

theorem Orderly.fabricCompletion {lifetime err} (h : Orderly m s0 s) : Orderly m s0 (Machine.fabricCompletion lifetime err s) := by
  unfold Machine.fabricCompletion
  exact .ite h.saveBeat h.spillDone

theorem Orderly.spillRetry (h : Orderly m s0 s) : Orderly m s0 (Machine.spillRetry s) := by
  unfold Machine.spillRetry
  dsimp only
  split
  · exact h
  · exact .ite h.tsu h

theorem Orderly.takeSpare {p kind unit} (h : Orderly m s0 s) : Orderly m s0 (s.takeSpare p kind unit) := by
  unfold State.takeSpare
  exact h.modLif

theorem Orderly.noSpare {p tile kind unit old trig trend} (h : Orderly m s0 s) : Orderly m s0 (s.noSpare p tile kind unit old trig trend) := by
  unfold State.noSpare
  exact h.setB.spareRec

theorem Orderly.laneSpare {p g trig} (h : Orderly m s0 s) : Orderly m s0 (s.laneSpare p g trig) := by
  unfold State.laneSpare
  extract_lets _
  refine .ite h ?_
  split
  · exact h
  · exact .ite h.noSpare h.requestSwap

theorem Orderly.rowSpare {p u mem row trend} (h : Orderly m s0 s) : Orderly m s0 (s.rowSpare p u mem row trend) := by
  unfold State.rowSpare
  exact .ite h.noSpare h.takeSpare.lifCount.modLif.spareRec

theorem Orderly.cmbSpare {p u tile lane trend} (h : Orderly m s0 s) : Orderly m s0 (s.cmbSpare p u tile lane trend) := by
  unfold State.cmbSpare
  exact .ite h.noSpare (.spareRec (.ite h.takeSpare.lifCount.modLif.setF h.takeSpare.lifCount.modLif.setF))

theorem Orderly.channelSpare {c trig trend} (h : Orderly m s0 s) : Orderly m s0 (s.channelSpare c trig trend) := by
  unfold State.channelSpare
  exact .ite h (.ite h.noSpare h.outside)

theorem Orderly.moveDone {c} (h : Orderly m s0 s) : Orderly m s0 (Machine.moveDone c s) := by
  unfold Machine.moveDone
  exact .ite h h.outside.setB.setB.lifCount.spareRec

theorem Orderly.hbmRowSpare {u stack row trend} (h : Orderly m s0 s) : Orderly m s0 (s.hbmRowSpare u stack row trend) := by
  unfold State.hbmRowSpare
  exact .ite h.noSpare h.outside.setB.lifCount.modLif.spareRec

theorem Orderly.unitTrigger {p u} (h : Orderly m s0 s) : Orderly m s0 (s.unitTrigger p u) := by
  unfold State.unitTrigger
  dsimp only
  split
  · exact .ite h.laneSpare h
  · exact .ite h.rowSpare h
  · exact .ite h.cmbSpare h
  · exact .ite h.channelSpare h
  · exact .ite h.hbmRowSpare h

theorem Orderly.laneErrors {p g n} (h : Orderly m s0 s) : Orderly m s0 (s.laneErrors p g n) := by
  unfold State.laneErrors
  exact h.bump.bump

theorem Orderly.trendUpdate {p events} (h : Orderly m s0 s) : Orderly m s0 (Machine.trendUpdate p events s) := by
  unfold Machine.trendUpdate
  extract_lets _ _ _ _ _ _ _ s1 s2 s3 s4 s5
  have h1 : Orderly m s0 s1 := h.modLif
  have h2 : Orderly m s0 s2 := by
    unfold s2
    refine h1.foldl fun _ _ h => ?_
    split
    · exact h.laneErrors
    · exact h
  have h3 : Orderly m s0 s3 := h2.lifCount.lifCount
  have h4 : Orderly m s0 s4 := h3.foldl fun _ _ h => h.lifCount
  have h5 : Orderly m s0 s5 := h4.foldl fun _ _ h => h.unitTrigger
  exact .ite h5 (h5.foldl fun _ _ h => .ite h.laneSpare h)

/-! ### Indirect spaces (R40) -/

theorem Orderly.setSel {src n v} (h : Orderly m s0 s) : Orderly m s0 (s.setSel src n v) := by
  unfold State.setSel
  exact h.mod

/-! ### Writes that act in the package (R420, R423) -/

theorem Orderly.hkpTakeover {trig} (h : Orderly m s0 s) (ht : s.hkpTakeover trig = some t) : Orderly m s0 t := by
  unfold State.hkpTakeover at ht
  split at ht
  · cases ht
  · cases ht
    exact h.setF.setF.setF.outside.setB.lifCount.spareRec

theorem Orderly.mailGo {t'} (h : Orderly m s0 s) : Orderly m s0 (s.mailGo t').2 := by
  unfold State.mailGo
  exact .ite2 h (.pair h.draw.wr.send.outside.pump)

theorem Orderly.mailEnd {t' c n ws} (h : Orderly m s0 s) : Orderly m s0 (s.mailEnd t' c n ws) := by
  unfold State.mailEnd
  exact (h.foldl fun _ _ h => h.wr).wr.setB.outside

theorem Orderly.hbmError {stack ch row uncorr} (h : Orderly m s0 s) : Orderly m s0 (s.hbmError stack ch row uncorr) := by
  unfold State.hbmError
  exact .ite (.jnl (.ite h.wr.setB.bump h.wr.setB.bump)) (.ite (.channelSpare (.outside (.jnl (.ite h.wr.setB.bump h.wr.setB.bump)))) (.outside (.jnl
    (.ite h.wr.setB.bump h.wr.setB.bump))))

/-! ### Register accesses (R23–R49) -/

theorem Orderly.respond {p src addr c data} (h : Orderly m s0 s) : Orderly m s0 (s.respond p src addr c data) := by
  unfold State.respond
  exact .ite (.ite h h.wr) (.mod (.ite h h.wr))

theorem Orderly.setPend {p a v} (h : Orderly m s0 s) : Orderly m s0 (s.setPend p a v) := by
  unfold State.setPend
  exact h.mod

theorem Orderly.setStage {p src a v} (h : Orderly m s0 s) : Orderly m s0 (s.setStage p src a v) := by
  unfold State.setStage
  exact h.mod

theorem Orderly.store {p l v c} (h : Orderly m s0 s) : Orderly m s0 (s.store p l v c).s := by
  unfold State.store
  exact .iteRes (.fail h) (.res h.wrA)

theorem Orderly.buffer {p l v c} (h : Orderly m s0 s) : Orderly m s0 (s.buffer p l v c).s := by
  unfold State.buffer
  exact .iteRes (.fail h) (.res h.setPend)

theorem Orderly.bwWrite {p l v} (h : Orderly m s0 s) : Orderly m s0 (s.bwWrite p l v).s := by
  unfold State.bwWrite
  exact .iteRes (.res h) h.buffer

theorem Orderly.loWrite {p src l v} (h : Orderly m s0 s) : Orderly m s0 (s.loWrite p src l v).s := by
  unfold State.loWrite
  exact .iteRes (.fail h) (.res h.setStage)

theorem Orderly.putPair {p l lo lv hv} (h : Orderly m s0 s) : Orderly m s0 (s.putPair p l lo lv hv) := by
  unfold State.putPair
  exact h.wr.wr

theorem Orderly.dtcAtWrite {p src l lv v} (h : Orderly m s0 s) : Orderly m s0 (s.dtcAtWrite p src l lv v).s := by
  unfold State.dtcAtWrite
  extract_lets _ _ _ r _ _ s1
  have hr : Orderly m s0 r.2.2 := h.armDest
  have h1 : Orderly m s0 s1 := hr.putPair
  refine .iteRes (.res hr) ?_
  split
  · exact .res h1
  · exact .res h1

theorem Orderly.kprTatWrite {src l lv v} (h : Orderly m s0 s) : Orderly m s0 (s.kprTatWrite src l lv v).s := by
  unfold State.kprTatWrite
  exact .iteRes (.res (.ite h.sendTarm h.sendTarm.trigRec)) (.res (.putPair (.ite h.sendTarm h.sendTarm.trigRec)))

theorem Orderly.updAtWrite {p src l lv v} (h : Orderly m s0 s) : Orderly m s0 (s.updAtWrite p src l lv v).s := by
  unfold State.updAtWrite
  exact .iteRes (.res h.queueStrobe.putPair) (.fail h)

theorem Orderly.hiWrite {p src l lo v} (h : Orderly m s0 s) : Orderly m s0 (s.hiWrite p src l lo v).s := by
  unfold State.hiWrite
  extract_lets _ _ _ _ _ x _ r
  have hx : Orderly m s0 x.2 := h.sigHiWrite
  have hr : Orderly m s0 r.s := by
    unfold r
    split
    · exact h.updAtWrite
    · exact h.dtcAtWrite
    · exact h.kprTatWrite
    · exact .res hx
    · exact .iteRes (.fail h) (.res h.putPair)
    · exact .iteRes (.iteRes (.fail h) (.res h.setPend.setPend)) (.res h.putPair)
  exact .iteRes hr (.res hr.setStage)

theorem Orderly.cancelGuard {p} (h : Orderly m s0 s) : Orderly m s0 (s.cancelGuard p) := by
  unfold State.cancelGuard
  split
  · exact h
  · exact h.mod.accessOutcome

theorem Orderly.guardWrite {p src l v} (h : Orderly m s0 s) : Orderly m s0 (s.guardWrite p src l v).s := by
  unfold State.guardWrite
  exact .res h.mod

theorem Orderly.mateWrite {p l v} (h : Orderly m s0 s) : Orderly m s0 (s.mateWrite p l v).s := by
  unfold State.mateWrite
  split
  · exact .fail h
  · exact .iteRes (.fail h.mod) (.iteRes (.iteRes (.fail h.mod.setStage) (.res h.mod.setStage.wrA.wrA.wrA.acceptHtSet)) (.iteRes (.fail
      h.mod.sobReset) (.res h.mod.sobReset.wrA.wrA)))

theorem Orderly.gkWrite {p src l v} (h : Orderly m s0 s) : Orderly m s0 (s.gkWrite p src l v).s := by
  unfold State.gkWrite
  dsimp only
  split
  · exact h.store
  · exact .iteRes (.fail h) (.res h.mod)
  · exact .of h.lcalWrite
  · exact .iteRes (.fail h.kprGo) h.kprGo.store
  · exact .of h.prtCtrlWrite
  · exact .iteRes (.res h.prtSwapWrite) h.prtSwapWrite.store
  · exact .res h.binClear
  · exact .res (.ite h.mbrFence.wrA h.mbrFence)
  · refine .iteRes (.res h) (.iteRes (.res h) ?_)
    split
    next ht => exact .res (h.hkpTakeover ht)
    · exact .res h.noSpare
  · exact h.store

theorem Orderly.indFetch {p src n} (h : Orderly m s0 s) : Orderly m s0 (s.indFetch p src n) := by
  unfold State.indFetch
  dsimp only
  split
  · exact .ite h.kprFetch h.outside
  · exact .ite h h.outside
  · exact h

theorem Orderly.indAdvance {p src n} (h : Orderly m s0 s) : Orderly m s0 (s.indAdvance p src n) := by
  unfold State.indAdvance
  exact .ite h.setF.indFetch h

theorem Orderly.idataRead {p src d} (h : Orderly m s0 s) : Orderly m s0 (s.idataRead p src d).2.2 := by
  unfold State.idataRead
  extract_lets _ _ _ s1
  have h1 : Orderly m s0 s1 := h.indAdvance
  refine .ite3 h ?_
  split
  · exact h1
  · exact .ite3 h1 (.ite3 h1 h1)
  · exact h1

theorem Orderly.idataWrite {p src d v} (h : Orderly m s0 s) : Orderly m s0 (s.idataWrite p src d v).s := by
  unfold State.idataWrite
  exact .iteRes (.res h) (.iteRes (.fail h) (.iteRes (.res h.ringSend.indAdvance) (.iteRes (.res h.indAdvance) (.iteRes (.fail h) (.res
    h.modLif.indAdvance)))))

theorem Orderly.actWrite {p src l v r} (h : Orderly m s0 s) (hr : s.actWrite p src l v = some r) : Orderly m s0 r.s := by
  unfold State.actWrite at hr
  dsimp only at hr
  split at hr
  · cases hr; exact .iteRes (.fail h) (.res h.setF.jnl.portsRecheck)
  · cases hr; exact .iteRes (.res h.mod) (.fail h)
  · cases hr; exact .res h.immediateStrobe
  · cases hr; exact .res (.ite h.removeStrobes h)
  · cases hr; exact .iteRes (.res h.store.portsRecheck) h.store
  · cases hr; exact .iteRes (.of h.tdcStart) (.res h)
  · cases hr; exact h.store
  · cases hr; exact .res (.ite h.cancelFine h)
  · cases hr; exact .iteRes (.fail h) (.res h.dtcCalWrite)
  · split at hr
    · cases hr; exact .fail h
    · cases hr; exact .res (.ite h.kprEnable h.kprEnable.wr)
  · cases hr; exact .res h.kprTcanGo
  · cases hr; exact .of h.senEnable
  · cases hr; exact .of h.ctxCommand
  · cases hr; exact .iteRes (.res h.store.setPc) h.store
  · cases hr; exact h.store
  · cases hr; exact h.store
  · cases hr; exact .of h.wickCfgWrite
  · cases hr; exact .iteRes (.res h.sentStage) (.of h.sentCompare)
  · cases hr; exact .res h.store.indFetch
  · cases hr; exact .res h.store.indFetch
  · cases hr; exact .res h.store.indFetch
  · cases hr; exact h.idataWrite
  · cases hr; exact h.idataWrite
  · cases hr; exact h.idataWrite
  · cases hr; exact .res (.ite h.store.spillPump h.store.jflushCheck)
  · cases hr; exact h.store
  · cases hr; exact .res h.store.spillPump
  · cases hr; exact .iteRes h.store (.fail h)
  · cases hr; exact .iteRes h.store (.fail h)
  · cases hr

theorem Orderly.distWrite {src l v r} (h : Orderly m s0 s) (hr : s.distWrite src l v = some r) : Orderly m s0 r.s := by
  unfold State.distWrite at hr
  extract_lets i p mail new sel new' k r1 r2 at hr
  have hsel {c r} (hr : sel c = some r) : Orderly m s0 r.s := by
    cases hr
    exact .iteRes (.fail h) (.res h.setSel)
  split at hr
  · exact hsel hr
  · exact hsel hr
  · exact hsel hr
  · exact hsel hr
  · exact hsel hr
  · cases hr; exact .res h.modJob
  · cases hr; exact h.store
  · cases hr; exact .iteRes (.res h.outside) (.fail h)
  · cases hr; exact .iteRes (.res h.store.setB.outside) h.store
  · cases hr; exact .iteRes (.res h.store.setB) h.store
  · cases hr; exact h.store
  · cases hr; exact h.store
  · cases hr; exact h.store
  · cases hr; exact .of h.mailGo
  · cases hr

theorem Orderly.lifCtrlReg {p v had} (h : Orderly m s0 s) : Orderly m s0 (s.lifCtrlReg p v had).s := by
  unfold State.lifCtrlReg
  exact .res (.of h.lifCtrl)

/-- The write of a register with an effect of its own, or else what another write leaves. -/
theorem Orderly.writeEffect {p src l v} {r : WRes} (h : Orderly m s0 s) (hr : Orderly m s0 r.s) : Orderly m s0
    (((s.actWrite p src l v).orElse fun _ => if p = .dist then s.distWrite src l v else none).getD r).s := by
  cases ha : s.actWrite p src l v with
  | some x => exact h.actWrite ha
  | none =>
    show Orderly m s0 ((if p = .dist then s.distWrite src l v else none).getD r).s
    split
    · cases hd : s.distWrite src l v with
      | some x => exact h.distWrite hd
      | none => exact hr
    · exact hr

theorem Orderly.writeReg {p src l v had} (h : Orderly m s0 s) : Orderly m s0 (s.writeReg p src l v had).s := by
  unfold State.writeReg
  refine .iteRes (.res h) (.iteRes h.lifCtrlReg ?_)
  split
  · exact .iteRes h.guardWrite h.hiWrite
  · refine .iteRes h.loWrite ?_
    have hplain : Orderly m s0 (if (row l.name).acc = .wo then { s := s } else s.store p l v).s := .iteRes (.res h) h.store
    split
    · exact .res h
    · exact .res h
    · exact .res h
    · exact h.bwWrite
    · exact h.guardWrite
    · exact h.mateWrite
    · exact .iteRes h.gkWrite (.fail h)
    · exact h.writeEffect hplain
    · exact h.writeEffect hplain
    · exact h.writeEffect hplain

theorem Orderly.ctxWinReg {p src e off a v} (h : Orderly m s0 s) : Orderly m s0 (s.ctxWinReg p src e off a v).s := by
  unfold State.ctxWinReg
  exact .iteRes (.iteRes (.fail h) (.res h.setStage)) (.of (.pair (.ite h.ctxWinWrite.setStage h.ctxWinWrite)))

theorem Orderly.writeTarget {p src t' a v had} (h : Orderly true s0 s) : Orderly true s0 (s.writeTarget p src t' a v had).s := by
  unfold State.writeTarget
  split
  · exact h.writeReg
  · exact .of h.imemWrite
  · exact .of h.dmemWinWrite
  · exact h.ctxWinReg
  · exact .iteRes (.fail h) (.res h.objWinWrite)
  · exact .res h
  · exact .res h
  · exact .res h

theorem Orderly.readReg {p src l} (h : Orderly m s0 s) : Orderly m s0 (s.readReg p src l).2.2 := by
  unfold State.readReg
  extract_lets _
  refine .ite3 h ?_
  split
  · exact h.rstatRead
  · exact h.tdcReadRstat
  · exact h.jevtRead
  · exact h.idataRead
  · exact h.idataRead
  · exact h.idataRead
  · exact .triple (.ite h.wrA h)

theorem Orderly.readTarget {p src t'} (h : Orderly m s0 s) : Orderly m s0 (s.readTarget p src t').2.2 := by
  unfold State.readTarget
  split
  · exact h.readReg
  · exact h.imemRead
  · exact h.dmemWinRead
  · exact h
  · exact .ite3 h h.objWinRead
  · exact .ite3 h h
  · exact h
  · exact h

theorem Orderly.regRead {p src addr whole} (h : Orderly m s0 s) : Orderly m s0 (s.regRead p src addr whole).2.2 := by
  unfold State.regRead
  exact .triple (.respond (.ite (.ite3 h h.readTarget) (.accessOutcome (.ite3 h h.readTarget))))

theorem Orderly.regWrite {p src addr v whole} (h : Orderly true s0 s) : Orderly true s0 (s.regWrite p src addr v whole).2 := by
  unfold State.regWrite
  extract_lets _ _ s1 _ _ _ s2 r s3 s4
  have h1 : Orderly true s0 s1 := h.mod
  have h2 : Orderly true s0 s2 := .ite h1 h1.cancelGuard
  have hr : Orderly true s0 r.s := .iteRes (.fail h2) h2.writeTarget
  have h3 : Orderly true s0 s3 := by
    unfold s3
    split
    · exact .ite hr.cfgRec hr
    · exact hr
  have h4 : Orderly true s0 s4 := .ite h3 h3.accessOutcome
  exact .pair h4.respond

/-! ### The update strobe (R33–R37) -/

theorem Orderly.applyPend {p due t' a v} (h : Orderly m s0 s) : Orderly m s0 (s.applyPend p due t' a v) := by
  unfold State.applyPend
  extract_lets _
  refine .ite h ?_
  split
  · exact h.wrA.cfgRec
  · exact h

theorem Orderly.refSelChanged {old new} (h : Orderly m s0 s) : Orderly m s0 (s.refSelChanged old new) := by
  unfold State.refSelChanged
  exact .ite h (.refreshRef (.ite h (.ite h.setQual (.ite h.setQual h))))

theorem Orderly.afterStrobe {p c} (h : Orderly m s0 s) : Orderly m s0 (s.afterStrobe p c) := by
  unfold State.afterStrobe
  split
  · split
    · exact h.tdcCtrlActive
    · exact h.tdcCfgActive
    · exact h.dtcCfgActive
    · exact h.refSelChanged
    · exact h.selectRef.refreshQual
    · exact h.selectRef.refreshQual
    · exact h.outside
    · exact h
  · exact h

theorem Orderly.strobeDone {t' r} (h : Orderly m s0 s) : Orderly m s0 (s.strobeDone t' r) := by
  unfold State.strobeDone
  split
  · exact .ite h.completeOp h.completeOp
  · exact h

theorem Orderly.jobStrobes {k t'} (h : Orderly m s0 s) : Orderly m s0 (s.jobStrobes k t') := by
  unfold State.jobStrobes
  exact h.modJob.foldl fun _ _ h => h.answer

theorem Orderly.updateStrobe {p} (h : Orderly m s0 s) : Orderly m s0 (Machine.updateStrobe p s) := by
  unfold Machine.updateStrobe
  split
  · exact h
  · extract_lets _ _ s1 _ _ _ _ s2 s3 s4 s5 s6
    have h1 : Orderly m s0 s1 := h.reach
    have h2 : Orderly m s0 s2 := h1.mod
    have h3 : Orderly m s0 s3 := h2.foldl fun _ _ h => h.applyPend
    have h4 : Orderly m s0 s4 := h3.foldl fun _ _ h => h.afterStrobe
    have h5 : Orderly m s0 s5 := .ite h4.serveDown h4
    have h6 : Orderly m s0 s6 := h5.foldl fun _ _ h => h.strobeDone
    exact .ite (h6.foldl fun _ _ h => h.jobStrobes) h6

/-! ### Management accesses and test ports (R413, R442, R465) -/

theorem Orderly.readWords {n p src a ws} (h : Orderly m s0 s) : Orderly m s0 (Machine.readWords n p src a ws s).2.2 := by
  induction n generalizing a ws s with
  | zero => exact h
  | succ n ih => exact .ite3 (ih h.regRead) h.regRead

theorem Orderly.writeWords {ws p src a k} (h : Orderly true s0 s) : Orderly true s0 (Machine.writeWords ws p src a k s).2.2 := by
  induction ws generalizing a k s with
  | nil => exact h
  | cons w ws ih => exact .ite3 (ih h.regWrite) h.regWrite

theorem Orderly.sendRsp {p n tag c done ws} (h : Orderly m s0 s) : Orderly m s0 (s.sendRsp p n tag c done ws) := by
  unfold State.sendRsp
  exact h.send.pump

theorem Orderly.mgmtRead {port addr n1 tag} (h : Orderly m s0 s) : Orderly m s0 (Machine.mgmtRead port addr n1 tag s) := by
  unfold Machine.mgmtRead
  exact .ite h.protoDrop h.readWords.sendRsp

theorem Orderly.mgmtWrite {port addr tag words} (h : Orderly true s0 s) : Orderly true s0 (Machine.mgmtWrite port addr tag words s) := by
  unfold Machine.mgmtWrite
  exact .ite h.protoDrop h.writeWords.sendRsp

theorem Orderly.recvRsp {port tag code done words} (h : Orderly m s0 s) : Orderly m s0 (Machine.recvRsp port tag code done words s) := by
  unfold Machine.recvRsp
  extract_lets _
  refine .ite h.protoDrop ?_
  split
  · exact h.mailEnd
  · exact h.protoDrop.setB

theorem Orderly.mreqTimeout {t'} (h : Orderly m s0 s) : Orderly m s0 (Machine.mreqTimeout t' s) := by
  unfold Machine.mreqTimeout
  exact .ite h.mailEnd h

theorem Orderly.wsRegacc {p write word data} (h : Orderly true s0 s) : Orderly true s0 (Machine.wsRegacc p write word data s) := by
  unfold Machine.wsRegacc
  exact .ite h.regWrite h.regRead

theorem mwfFrom_mapFilter {α : Type} [DecidableEq α] {d : α} (f : α → α) {lo : Nat} {l : List (Nat × α)} (h : mwfFrom (fun _ => d) lo l = true) :
    mwfFrom (fun _ => d) lo ((l.map fun kv => (kv.1, f kv.2)).filter (·.2 ≠ d)) = true := by
  induction l generalizing lo with
  | nil => rfl
  | cons kv l ih =>
    obtain ⟨k, v⟩ := kv
    simp only [mwfFrom, Bool.and_eq_true, decide_eq_true_eq] at h
    obtain ⟨⟨hk, -⟩, hl⟩ := h
    rw [List.map_cons, List.filter_cons]
    split
    next hv =>
      simp only [mwfFrom, Bool.and_eq_true, decide_eq_true_eq]
      exact ⟨⟨hk, of_decide_eq_true hv⟩, ih hl⟩
    next => exact mwfFrom_mono (Nat.le_succ_of_le hk) (ih hl)

/-- Entries changed, and those that take the default dropped: still canonical. -/
theorem mwf_mapFilter {α : Type} [DecidableEq α] {d : α} {f : α → α} {l : List (Nat × α)} (h : mwf (fun _ => d) l = true) :
    mwf (fun _ => d) ((l.map fun kv => (kv.1, f kv.2)).filter (·.2 ≠ d)) = true := mwfFrom_mapFilter f h

theorem Orderly.wsMbist {p go fail} (h : Orderly true s0 s) : Orderly true s0 (Machine.wsMbist p go fail s) := by
  unfold Machine.wsMbist
  extract_lets d s1 j
  have h1 : Orderly true s0 s1 := h.mod.foldl fun _ _ h => h.engine nofun nofun fun _ => ⟨mwf_nil _, mwf_nil _⟩
  refine .ite h ?_
  clear_value s1
  split
  · have h2 : Orderly true s0 { s1 with tsu := { s1.tsu with jnl := { j with recs := j.recs.map JRec.zeroed } } } :=
      h1.tsuJnl fun hl => (List.length_map JRec.zeroed).le.trans hl
    exact h2.outside
  · exact h1.of_maps fun ⟨hs, hj, hc, hn⟩ => ⟨hs, hj, mwf_mapFilter (f := fun x => { x with acc := [] }) hc, hn⟩

theorem Orderly.i3cWrite {seven addr words} (h : Orderly true s0 s) : Orderly true s0 (Machine.i3cWrite seven addr words s) := by
  unfold Machine.i3cWrite
  exact h.outside.foldl fun _ _ h => h.regWrite

theorem Orderly.i3cRead {seven n} (h : Orderly m s0 s) : Orderly m s0 (Machine.i3cRead seven n s) := by
  unfold Machine.i3cRead
  exact Orderly.outside (.foldl_snd h fun _ _ h => .pair h.regRead)

theorem Orderly.journalFetched {err} (h : Orderly m s0 s) : Orderly m s0 (Machine.journalFetched err s) := by
  unfold Machine.journalFetched
  split
  · exact h
  · extract_lets s1
    have h1 : Orderly m s0 s1 := h.outside
    split
    · exact h1
    · exact h1.hbmError.outside

theorem Orderly.patrolScrub {err} (h : Orderly m s0 s) : Orderly m s0 (Machine.patrolScrub err s) := by
  unfold Machine.patrolScrub
  refine .ite h ?_
  split
  · exact h
  · exact h.hbmError

/-! ### Reset, life-cycle and the wipe (R45–R48, R425, R457) -/

theorem Orderly.stopAll {e} (h : Orderly m s0 s) : Orderly m s0 (s.stopAll e) := by
  unfold State.stopAll
  exact h.foldl fun _ _ h => h.setPc.wr

theorem Orderly.wipeEngine {e} (h : Orderly true s0 s) : Orderly true s0 (s.wipeEngine e) := by
  unfold State.wipeEngine
  exact (h.engine nofun nofun fun _ => ⟨rfl, rfl⟩).stopAll.outside

theorem Orderly.wipeTsu (h : Orderly m s0 s) : Orderly m s0 s.wipeTsu := by
  unfold State.wipeTsu
  extract_lets s1 s2 s3
  have h1 : Orderly m s0 s1 := h.foldl fun _ _ h => h.wr.wr.wr
  have h2 : Orderly m s0 s2 := .ite h1.setF.setB h1
  have h3 : Orderly m s0 s3 := h2.foldl fun _ _ h => h.setWick.showUnbound
  exact h3.of_maps fun ⟨_, hj, hc, hn⟩ => ⟨mwf_nil _, hj, hc, hn⟩

theorem Orderly.wipeDist (h : Orderly m s0 s) : Orderly m s0 s.wipeDist :=
  h.of_maps fun ⟨hs, _, _, hn⟩ => ⟨hs, mwf_nil _, mwf_nil _, hn⟩

theorem Orderly.wipe {p} (h : Orderly true s0 s) : Orderly true s0 (s.wipe p) := by
  unfold State.wipe
  extract_lets s1 s2 s3
  have h1 : Orderly true s0 s1 := h.foldl fun _ _ h => h.wipeEngine
  have h2 : Orderly true s0 s2 := h1.setPart fun hq => ⟨hq.regs, Nat.zero_le _⟩
  have h3 : Orderly true s0 s3 := by
    unfold s3
    split
    · exact h2.wipeTsu
    · exact h2.wipeDist
  exact h3.setF

theorem Orderly.wipeEnd {p} (h : Orderly m s0 s) : Orderly m s0 (Machine.wipeEnd p s) := by
  unfold Machine.wipeEnd
  exact .ite h h.setF.jnl

theorem Orderly.lcsAck {p} (h : Orderly true s0 s) : Orderly true s0 (Machine.lcsAck p s) := by
  unfold Machine.lcsAck
  split
  · exact h
  · exact .portsRecheck (.ite h.mod.setF.lifCount.wipe.lifSave h.mod.setF.lifCount.wipe)

theorem Orderly.lcsFail {p} (h : Orderly m s0 s) : Orderly m s0 (Machine.lcsFail p s) := by
  unfold Machine.lcsFail
  split
  · exact h
  · exact h.mod.accessOutcome

theorem Orderly.sampled {p node} (h : Orderly true s0 s) : Orderly true s0 (s.sampled p node) := by
  unfold State.sampled
  exact h.setF.setF.lifCount.wipe

theorem Part.afterReset_canonical (p : PartId) (q : Part) : q.afterReset.Canonical p := ⟨mwf_nil _, Nat.zero_le _⟩

theorem Orderly.rstTsu {node macrosOk} (h : Orderly true s0 s) : Orderly true s0 (Machine.rstTsu node macrosOk s) := by
  have hq : Orderly true s0 (s.setPart .tsu s.tsu.afterReset) := h.setPart fun _ => Part.afterReset_canonical _ _
  unfold Machine.rstTsu
  exact hq.outside.sampled.setF

theorem Orderly.showBands (h : Orderly m s0 s) : Orderly m s0 s.showBands := by
  unfold State.showBands
  exact h.foldl fun _ _ h => h.setF

/-- The distributor reset, with its nodes gone. -/
theorem Orderly.distReset (h : Orderly m s0 s) : Orderly m s0 { s with dist := s.dist.afterReset, nodes := [] } :=
  (h.setPart (p := .dist) fun _ => Part.afterReset_canonical .dist s.dist).of_maps fun ⟨hs, hj, hc, _⟩ => ⟨hs, hj, hc, mwf_nil _⟩

theorem Orderly.bootDist {f oscIn norOk} (h : Orderly true s0 s) : Orderly true s0 (s.bootDist f oscIn norOk) := by
  have hq := h.distReset
  unfold State.bootDist
  exact hq.outside.sampled.lifBoot.showBands.setF.setF

theorem Orderly.rstDist {f oscIn norOk} (h : Orderly true s0 s) : Orderly true s0 (Machine.rstDist f oscIn norOk s) := by
  unfold Machine.rstDist
  exact .ite h.outside h.bootDist

theorem Orderly.heldReset (h : Orderly true s0 s) : Orderly true s0 s.heldReset := by
  have hq := h.distReset
  unfold State.heldReset
  exact hq.outside.wipe.showBands

theorem Orderly.supplyFault (h : Orderly true s0 s) : Orderly true s0 (Machine.supplyFault s) := by
  unfold Machine.supplyFault
  exact h.outside.heldReset

theorem Orderly.thermtrip (h : Orderly true s0 s) : Orderly true s0 (Machine.thermtrip s) := by
  unfold Machine.thermtrip
  exact h.outside.heldReset

theorem Orderly.heldRelease {f oscIn norOk} (h : Orderly true s0 s) : Orderly true s0 (Machine.heldRelease f oscIn norOk s) := by
  unfold Machine.heldRelease
  exact .ite h.bootDist h

theorem Orderly.hbmTrained {stks} (h : Orderly m s0 s) : Orderly m s0 (Machine.hbmTrained stks s) := by
  have hq : Orderly m s0 { s with dist := { s.dist with jnl := {} } } := h.distJnl fun _ => Nat.zero_le _
  unfold Machine.hbmTrained
  exact hq.of_maps fun ⟨hs, hj, _, hn⟩ => ⟨hs, hj, mwf_nil _, hn⟩

theorem Orderly.bootRom {a0 b0 a7 b7} (h : Orderly m s0 s) : Orderly m s0 (Machine.bootRom a0 b0 a7 b7 s) := by
  unfold Machine.bootRom
  extract_lets _ _ s1 _ s1'
  have h1 : Orderly m s0 s1 := h.wr
  have h1' : Orderly m s0 s1' := h.wr
  refine .ite h ?_
  split
  · exact h1.outside
  · exact h1'.outside

theorem Orderly.perst {seven} (h : Orderly m s0 s) : Orderly m s0 (Machine.perst seven s) := by
  unfold Machine.perst
  exact h.mod.outside

theorem Orderly.bandChanged {p tile} (h : Orderly m s0 s) : Orderly m s0 (s.bandChanged p tile) := by
  unfold State.bandChanged
  exact h.tdcBandChange.calDue

theorem Orderly.tileBand {t' temp} (h : Orderly m s0 s) : Orderly m s0 (s.tileBand t' temp) := by
  unfold State.tileBand
  exact .ite h h.setF.setB.outside.bandChanged

theorem Orderly.stackBand {k temp} (h : Orderly m s0 s) : Orderly m s0 (s.stackBand k temp) := by
  unfold State.stackBand
  exact h.outside

theorem Orderly.bandSample {tiles stks} (h : Orderly m s0 s) : Orderly m s0 (Machine.bandSample tiles stks s) := by
  unfold Machine.bandSample
  exact ((h.foldl fun _ _ h => h.tileBand).foldl fun _ _ h => h.stackBand).thermalBand

theorem Orderly.tempBandChange {band load} (h : Orderly m s0 s) : Orderly m s0 (Machine.tempBandChange band load s) := by
  unfold Machine.tempBandChange
  exact .ite h.setF h.setF.bandChanged.thermalBand

theorem Orderly.meshEdgeDown {t' u} (h : Orderly m s0 s) : Orderly m s0 (Machine.meshEdgeDown t' u s) := by
  unfold Machine.meshEdgeDown
  exact .ite h h.setF.setF.draw.jnl

theorem Orderly.meshEdgeUp {t' u} (h : Orderly m s0 s) : Orderly m s0 (Machine.meshEdgeUp t' u s) := by
  unfold Machine.meshEdgeUp
  exact .ite h h.setF.setF.outside.portsRecheck

theorem Orderly.meshIsolation {t'} (h : Orderly m s0 s) : Orderly m s0 (Machine.meshIsolation t' s) := by
  unfold Machine.meshIsolation
  exact .ite h (h.outside.foldl fun _ _ h => .ite h.portTo h)

theorem Orderly.watchdogExpiry (h : Orderly m s0 s) : Orderly m s0 (Machine.watchdogExpiry s) := by
  unfold Machine.watchdogExpiry
  extract_lets s1
  have h1 : Orderly m s0 s1 := h.reach.setB
  refine .ite h ?_
  cases ht : s1.hkpTakeover 4 with
  | none => exact h1.noSpare
  | some t => exact h1.hkpTakeover ht

/-! ### What the rows share -/

theorem Orderly.writeAt {p src n i j v} (h : Orderly true s0 s) : Orderly true s0 (s.writeAt p src n i j v) := by
  unfold State.writeAt
  exact h.regWrite

theorem Orderly.readAt {p src n i j} (h : Orderly m s0 s) : Orderly m s0 (s.readAt p src n i j) := by
  unfold State.readAt
  exact h.regRead

theorem Orderly.fetchDone {d} (h : Orderly m s0 s) : Orderly m s0 (Machine.fetchDone d s) := by
  unfold Machine.fetchDone
  split
  · exact h.journalFetched
  · exact .ite h.outside h

theorem Orderly.takeSlope {slope} (h : Orderly m s0 s) : Orderly m s0 (s.takeSlope slope) := by
  unfold State.takeSlope
  split
  · exact h.modLif
  · exact h

theorem Orderly.heard {port crcOk} (h : Orderly m s0 s) : Orderly m s0 (s.heard port crcOk) := by
  unfold State.heard
  exact .ite h.hear h

theorem Orderly.frameArrives {port express hdr body crc tdec place} (h : Orderly m s0 s) :
    Orderly m s0 (Machine.frameArrives port express hdr body crc tdec place s) := by
  unfold Machine.frameArrives
  extract_lets _ _ s1 s2
  have h1 : Orderly m s0 s1 := h.heard
  have h2 : Orderly m s0 s2 := h1.frameIn
  refine .ite ?_ h2
  split
  · exact .ite h2.nodeContributed h2
  · exact h2

theorem Orderly.relay {q newer learn f} (h : Orderly m s0 s) : Orderly m s0 (s.relay q newer learn f) := by
  unfold State.relay
  extract_lets _ s1
  have h1 : Orderly m s0 s1 := by
    unfold s1
    split
    · exact h.relayLearn
    · exact h
  exact .ite h.staleDrop h1.pass

theorem Orderly.relayPhase {q f rank} (h : Orderly m s0 s) : Orderly m s0 (s.relayPhase q f rank) := by
  unfold State.relayPhase
  exact h.outside.relay.relayComing

theorem Orderly.relayShadow {q out in_ f} (h : Orderly m s0 s) : Orderly m s0 (s.relayShadow q out in_ f) := by
  unfold State.relayShadow
  exact h.outside.relay

theorem Orderly.windowTile {t' c obj a k target pc} (h : Orderly m s0 s) : (s.windowTile t' c obj a k target pc).All (Orderly m s0) := by
  unfold State.windowTile
  exact h.async (fun _ _ h => h)

theorem Orderly.illegalWord {x word} (h : Orderly m s0 s) : Orderly m s0 (Machine.illegalWord x word s) := by
  unfold Machine.illegalWord
  exact .ite h (h.issue (fun _ => .done h))

theorem Orderly.fetchFault {x} (h : Orderly m s0 s) : Orderly m s0 (Machine.fetchFault x s) := by
  unfold Machine.fetchFault
  exact .ite (h.issue (fun _ => .done h)) h

end Sys2Proof.Machine
end

section
/-!
PROOFS. Every command keeps what the invariant asks, and a command that stores nothing leaves the memories alone.
-/
namespace Sys2Proof.Machine
set_option Elab.async false

variable {m : Bool} {s0 s t : State}

/-! ### Commands whose meaning has several cases -/

theorem Orderly.execWaittTarget {e c} (h : Orderly m s0 s) : Lands (Orderly m s0) (Machine.execWaittTarget e c s) := by
  unfold Machine.execWaittTarget
  refine .next (.ite h ?_)
  split
  · exact h.reach.resume
  · exact h

theorem Orderly.execTrig {x ta a imm} (h : Orderly m s0 s) : Lands (Orderly m s0) (Machine.execTrig x ta a imm s) := by
  unfold Machine.execTrig
  refine .next (h.issue (fun _ => ?_))
  dsimp only
  split
  · exact .done h.report
  · split
    · exact .done h.armDest.reportQuiet
    · exact .done h.armDest.reportQuiet

theorem Orderly.execCapt {x td a ch} (h : Orderly m s0 s) : Lands (Orderly m s0) (Machine.execCapt x td a ch s) := by
  unfold Machine.execCapt
  refine .next (h.issue (fun _ => .ite (.done h.report) ?_))
  split
  · exact .done (h.tdcTake.of_snd ‹_›).report
  · exact .done (h.tdcTake.of_snd ‹_›).setT.report

theorem Orderly.execSig {x obj a dst} (h : Orderly m s0 s) : Lands (Orderly m s0) (Machine.execSig x obj a dst s) := by
  unfold Machine.execSig
  refine .next (h.issue (fun _ => ?_))
  dsimp only
  split
  · exact .ite (.done h.report) (.done h.signalNow.reportQuiet)
  · split
    · exact .done h.report
    · exact .done h.sigRemote.report

theorem Orderly.execWaitDeadline {e c} (h : Orderly m s0 s) : Lands (Orderly m s0) (Machine.execWaitDeadline e c s) := by
  unfold Machine.execWaitDeadline
  refine .next (.ite h ?_)
  split
  · exact h.reach.resume.outcome
  · exact h

theorem Orderly.execJflush {x obj a} (h : Orderly m s0 s) : Lands (Orderly m s0) (Machine.execJflush x obj a s) := by
  unfold Machine.execJflush
  refine .next (h.issue (fun _ => h.async (fun _ _ h => ?_)))
  split
  · exact h.jflushCheck
  · exact h

theorem Orderly.execUpd {x a ta obj job} (h : Orderly m s0 s) : Lands (Orderly m s0) (Machine.execUpd x a ta obj job s) := by
  unfold Machine.execUpd
  refine .next (h.issue (fun _ => .ite ?_ (h.async (fun _ _ h => h.queueStrobe))))
  split
  · exact h.jobCmdTsu
  · exact h.jobCmdTile

theorem Orderly.execGetc {x d a imm} (h : Orderly m s0 s) : Lands (Orderly m s0) (Machine.execGetc x d a imm s) := by
  unfold Machine.execGetc
  refine .next (h.issue (fun _ => ?_))
  dsimp only
  split
  · exact .done h.report
  · exact .done h.regRead.reportQuiet

theorem Orderly.execPutc {x d a imm} (h : Orderly true s0 s) : Lands (Orderly true s0) (Machine.execPutc x d a imm s) := by
  unfold Machine.execPutc
  refine .next (h.issue (fun _ => ?_))
  dsimp only
  split
  · exact .done h.report
  · exact .done h.regWrite.reportQuiet

theorem Orderly.execArmAck {dst handle gen epoch l floor pre} (h : Orderly m s0 s) :
    Lands (Orderly m s0) (Machine.execArmAck dst handle gen epoch l floor pre s) := by
  unfold Machine.execArmAck
  refine .next ?_
  split
  · exact h.armAckTsu
  · exact h.relay

theorem Orderly.execLaunchFrame {handle gen epoch l gateSeq forGate resSeq status} (h : Orderly m s0 s) :
    Lands (Orderly m s0) (Machine.execLaunchFrame handle gen epoch l gateSeq forGate resSeq status s) := by
  unfold Machine.execLaunchFrame
  refine .next ?_
  extract_lets t
  have ht : Orderly m s0 t := h.launchTsu
  split
  · exact ht.signalOpen
  · exact ht

theorem Orderly.execLaunchInstant {j} (h : Orderly m s0 s) : Lands (Orderly m s0) (Machine.execLaunchInstant j s) := by
  unfold Machine.execLaunchInstant
  refine .next ?_
  split
  · exact h.launchTick
  · exact h.rootInstant

theorem Orderly.execReplan {dst handle gen epoch dom} (h : Orderly m s0 s) :
    Lands (Orderly m s0) (Machine.execReplan dst handle gen epoch dom s) := by
  unfold Machine.execReplan
  refine .next ?_
  split
  · exact h.replanTsu
  · exact h.relay

theorem Orderly.execPhaseFrame {dst handle gen epoch t' map rank} (h : Orderly m s0 s) :
    Lands (Orderly m s0) (Machine.execPhaseFrame dst handle gen epoch t' map rank s) := by
  unfold Machine.execPhaseFrame
  refine .next ?_
  split
  · exact h.phaseTsu
  · exact h.relayPhase

theorem Orderly.execPhaseTick {j} (h : Orderly m s0 s) : Lands (Orderly m s0) (Machine.execPhaseTick j s) := by
  unfold Machine.execPhaseTick
  refine .next ?_
  split
  · exact h.phaseTick
  · exact h.rootPhaseTick

theorem Orderly.execTRReached {j} (h : Orderly m s0 s) : Lands (Orderly m s0) (Machine.execTRReached j s) := by
  unfold Machine.execTRReached
  refine .next ?_
  split
  · exact h.trReached
  · exact h.rootTr

theorem Orderly.execArm {x obj a timed td} (h : Orderly m s0 s) : Lands (Orderly m s0) (Machine.execArm x obj a timed td s) := by
  unfold Machine.execArm
  refine .next (h.issue (fun _ => ?_))
  split
  · exact h.armTsu
  · exact h.armRoot

theorem Orderly.execRelease {x obj a} (h : Orderly m s0 s) : Lands (Orderly m s0) (Machine.execRelease x obj a s) := by
  unfold Machine.execRelease
  refine .next (h.issue (fun _ => ?_))
  split
  · exact h.releaseTsu
  · exact h.releaseRoot

theorem Orderly.execGate {x obj a n} (h : Orderly m s0 s) : Lands (Orderly m s0) (Machine.execGate x obj a n s) := by
  unfold Machine.execGate
  refine .next (h.issue (fun _ => ?_))
  split
  · exact h.gateTsu
  · exact h.gateRoot

theorem Orderly.execContrib {x obj a} (h : Orderly m s0 s) : Lands (Orderly m s0) (Machine.execContrib x obj a s) := by
  unfold Machine.execContrib
  refine .next (h.issue (fun _ => ?_))
  split
  · exact h.contribTsu
  · exact h.contribRoot

theorem Orderly.execLaunch {x a ta obj} (h : Orderly m s0 s) : Lands (Orderly m s0) (Machine.execLaunch x a ta obj s) := by
  unfold Machine.execLaunch
  refine .next (h.issue (fun _ => ?_))
  split
  · exact h.jobCmdTsu
  · exact h.jobCmdTile

theorem Orderly.execPhase {x a ta obj} (h : Orderly m s0 s) : Lands (Orderly m s0) (Machine.execPhase x a ta obj s) := by
  unfold Machine.execPhase
  refine .next (h.issue (fun _ => ?_))
  split
  · exact h.jobCmdTsu
  · exact h.jobCmdTile

theorem Orderly.execPlan {x a ta obj} (h : Orderly m s0 s) : Lands (Orderly m s0) (Machine.execPlan x a ta obj s) := by
  unfold Machine.execPlan
  refine .next (h.issue (fun _ => ?_))
  split
  · exact .done h
  · exact h.planInstr

theorem Orderly.execSnap {x obj a} (h : Orderly m s0 s) : Lands (Orderly m s0) (Machine.execSnap x obj a s) := by
  unfold Machine.execSnap
  refine .next (h.issue (fun _ => ?_))
  split
  · exact h.snapTsu
  · exact h.snapLeaf

theorem Orderly.execWindow {x a ta obj} (h : Orderly m s0 s) : Lands (Orderly m s0) (Machine.execWindow x a ta obj s) := by
  unfold Machine.execWindow
  refine .next (h.issue (fun _ => ?_))
  split
  · exact h.windowTsu
  · exact h.windowTile

theorem Orderly.execCommit {x obj a} (h : Orderly m s0 s) : Lands (Orderly m s0) (Machine.execCommit x obj a s) := by
  unfold Machine.execCommit
  refine .next (h.issue (fun _ => ?_))
  split
  · exact .done h
  · exact h.commitRoot

theorem Orderly.execRebuild {x obj a} (h : Orderly m s0 s) : Lands (Orderly m s0) (Machine.execRebuild x obj a s) := by
  unfold Machine.execRebuild
  refine .next (h.issue (fun _ => ?_))
  split
  · exact .done h
  · exact .ite h.rebuildLeaf h.rebuildRoot

theorem Orderly.execEvict {x obj a} (h : Orderly m s0 s) : Lands (Orderly m s0) (Machine.execEvict x obj a s) := by
  unfold Machine.execEvict
  refine .next (h.issue (fun _ => ?_))
  split
  · exact h.jobCmdTsu
  · exact h.jobCmdTile

theorem Orderly.execShadowStart {x obj a} (h : Orderly m s0 s) : Lands (Orderly m s0) (Machine.execShadowStart x obj a s) := by
  unfold Machine.execShadowStart
  refine .next (h.issue (fun _ => ?_))
  split
  · exact h.jobCmdTsu
  · exact h.jobCmdTile

theorem Orderly.execShadowAdmit {x obj a} (h : Orderly m s0 s) : Lands (Orderly m s0) (Machine.execShadowAdmit x obj a s) := by
  unfold Machine.execShadowAdmit
  refine .next (h.issue (fun _ => ?_))
  split
  · exact h.jobCmdTsu
  · exact h.jobCmdTile

theorem Orderly.execShadowAbandon {x obj a} (h : Orderly m s0 s) : Lands (Orderly m s0) (Machine.execShadowAbandon x obj a s) := by
  unfold Machine.execShadowAbandon
  refine .next (h.issue (fun _ => ?_))
  split
  · exact h.jobCmdTsu
  · exact h.jobCmdTile

theorem Orderly.execRstN {r} (h : Orderly true s0 s) : Lands (Orderly true s0) (Machine.execRstN r s) := by
  unfold Machine.execRstN
  refine .next ?_
  split
  · exact h.rstTsu
  · exact h.rstDist

theorem Orderly.execShadowOn {dst handle gen epoch shadow partner} (h : Orderly m s0 s) :
    Lands (Orderly m s0) (Machine.execShadowOn dst handle gen epoch shadow partner s) := by
  unfold Machine.execShadowOn
  refine .next ?_
  split
  · exact h.shadowOnTsu
  · exact h.relayShadow

theorem Orderly.execShadowOff {dst handle gen epoch admitted rank} (h : Orderly m s0 s) :
    Lands (Orderly m s0) (Machine.execShadowOff dst handle gen epoch admitted rank s) := by
  unfold Machine.execShadowOff
  refine .next ?_
  split
  · exact h.shadowOffTsu
  · exact h.relayShadow

theorem Orderly.execIdataAccess {p src sp write} (h : Orderly true s0 s) : Lands (Orderly true s0) (Machine.execIdataAccess p src sp write s) := by
  unfold Machine.execIdataAccess
  refine .next ?_
  split
  · exact h.regWrite
  · exact h.regRead

theorem Orderly.execOpenEpoch {p handle gen epoch slot l b wofs wlen} (h : Orderly m s0 s) :
    Lands (Orderly m s0) (Machine.execOpenEpoch p handle gen epoch slot l b wofs wlen s) := by
  unfold Machine.execOpenEpoch
  refine .next ?_
  split
  · exact h.openTsu
  · exact h.openLeaf

theorem Orderly.execSynd {at_ handle gen epoch off data} (h : Orderly m s0 s) :
    Lands (Orderly m s0) (Machine.execSynd at_ handle gen epoch off data s) := by
  unfold Machine.execSynd
  refine .next ?_
  split
  · exact h.syndTsu
  · exact h.syndLeaf

theorem Orderly.execCommitMessage {p handle gen epoch slot} (h : Orderly m s0 s) :
    Lands (Orderly m s0) (Machine.execCommitMessage p handle gen epoch slot s) := by
  unfold Machine.execCommitMessage
  refine .next ?_
  split
  · exact h.snapDone
  · exact h.commitLeaf

theorem Orderly.execDiscard {p handle gen epoch slot code} (h : Orderly m s0 s) :
    Lands (Orderly m s0) (Machine.execDiscard p handle gen epoch slot code s) := by
  unfold Machine.execDiscard
  refine .next ?_
  split
  · exact h.snapDone
  · exact h.discardLeaf

/-! ### Every command, and a step -/

/-- A command other than those that store, write registers, test memories or reset leaves the memories as they are, and every command keeps what
the invariant asks. -/
theorem Orderly.exec {c : Instr} (h : Orderly m s0 s) (hc : (c.writesMemory || c.writesRegister || c.resets) = true → m = true) :
    Lands (Orderly m s0) (Machine.exec c s) := by
  cases c with
  | registerWrite | stagingLoWrite | guardedPair | iaddrWrite | objectWindowWrite | imemWindowWrite | dmemWindowWrite | contextRegisterWindowWrite =>
    obtain rfl := hc rfl; exact .next h.regWrite
  | statRead | objectWindowRead => exact .next h.regRead
  | sysUpdate | sysUpdAtHi | sysUpdCancel | sysUnlock | sysSeal | sysLcreq | tdcCalGo | dtcOutAtHi | dtcOutCancel | dtcCal | prtCtrlEn
  | prtCtrlRetrain | prtSwap | srvLcalArm | srvLcalGo | kprCtrlEn | kprFcmdGo | kprTatHi | kprTcan | sobSigHi | wickBind | wickUnbind | senCtrlEn
  | ctxStart | ctxStop | ctxClear | ctxStep | mbrFenceFence | mbrFenceUnfence | hltSentRes3 | hltBinClr | lifCtrlLoad | lifCtrlSave | lifCtrlFresh
  | tilMreqGo | hkpKick | hkpCtrlTakeover | hkpH2p3 | hkpP2h3 => obtain rfl := hc rfl; exact .next h.writeAt
  | updateStrobe => exact .next h.updateStrobe
  | strobe => exact .next h.strobeFrame
  | idataAccess => obtain rfl := hc rfl; exact h.execIdataAccess
  | idataFetchDone => exact .next h.fetchDone
  | cmbRstatRead | tdcRstatRead | mbrJevtRead => exact .next h.readAt
  | lcsAck => obtain rfl := hc rfl; exact .next h.lcsAck
  | lcsErr | lcsTimeout => exact .next h.lcsFail
  | wipeEnd => exact .next h.wipeEnd
  | rstN => obtain rfl := hc rfl; exact h.execRstN
  | htSetLoad => exact .next h.loadHtSet
  | calinfo => exact .next h.recvCalinfo.pumpAll
  | calendarLoad => exact .next h.calendarLoad
  | ovenSample => exact .next h.ovenSample
  | oscLost => exact .next h.oscLost
  | referenceQualifies => exact .next h.referenceQualifies
  | referenceLost => exact .next h.referenceLost
  | holdoverSecond => exact .next h.holdoverSecond
  | holdoverExpiry => exact .next h.holdoverExpiry
  | dacUpdate => exact .next h.takeSlope.dacUpdate
  | ppsEdge => exact .next h.ppsEdge
  | ppsMissing => exact .next h.ppsMissing
  | ptpMessage => exact .next h.ptpMessage
  | tdcEvent => exact .next h.tdcEvent
  | coarseWrap => exact .next h.coarseWrap
  | tdcCalDone => exact .next (.ite h.tdcCalDone.calDue h.tdcCalDone)
  | tempBandChange => exact .next h.tempBandChange
  | triggerFire => exact .next h.triggerFire
  | dtcCalDone => exact .next h.dtcCalDone
  | farEndSignal => exact .next h.farEndSignal
  | equalisationConverged => exact .next h.equalised
  | codewordLock => exact .next h.codewordLock
  | trainingTimeout => exact .next h.trainingTimeout
  | codewordLockLoss => exact .next h.codewordLockLoss
  | laneLoss => exact .next h.laneLoss
  | neg => exact .next h.recvNeg
  | negInterval => exact .next h.negInterval
  | idle => exact .next (.ite h.heard.recvIdle.heartbeat h.heard.recvIdle)
  | ack => exact .next h.heard.recvAck
  | nak => exact .next h.heard.recvNak
  | retrain => exact .next h.heard.recvRetrain
  | frameReceive => exact .next h.frameArrives
  | heartbeatDue => exact .next h.heartbeatDue
  | ackDue => exact .next h.ackDueFlit
  | nakRepeat => exact .next h.nakRepeat
  | replayTimeout => exact .next h.replayTimeout
  | latencyCalibration => exact .next h.latencyCalibration
  | latencyCalibrationDone => exact .next h.latencyDone
  | swapReq => exact .next h.heard.recvSwapReq
  | swapSwitch => exact .next h.swapSwitch
  | swapAck => exact .next h.heard.recvSwapAck
  | bulkTransfer => exact .next h.bulkTransfer
  | bulkTransferDone => exact .next h.bulkDone
  | syncInterval => exact .next h.syncInterval.pump
  | sync => exact .next h.pump.recvSync.pump
  | dreq => exact .next h.recvDreq
  | servoHoldTimeout => exact .next h.servoHoldTimeout
  | revertTimeout => exact .next h.revertTimeout
  | slewEnd => exact .next h.slewEnd
  | twinSourceTimeout => exact .next h.twinSourceTimeout
  | diffInterval => exact .next h.diffInterval.pumpAll
  | diff => exact .next h.recvDiff
  | loopbackCalibrationDone => exact .next h.loopbackDone
  | beacon => exact .next h.beacon
  | keeperBeaconEdge => exact .next h.keeperBeaconEdge
  | keeperTriggerFire => exact .next h.keeperFire
  | enum => exact .next h.enumFrame
  | beaconFrame => exact .next h.beaconFrame
  | keeperWrite => exact .next h.keeperWrite
  | keeperRead => exact .next h.keeperRead
  | tarm => exact .next h.keeperTarm
  | tcan => exact .next h.keeperTcan
  | fprep => exact .next h.keeperFprep
  | fcommit => exact .next h.keeperFcommit
  | rdata => exact .next h.recvRdata
  | fack => exact .next h.recvFack
  | fdone => exact .next h.recvFdone
  | tevt => exact .next h.recvTevt
  | ringFrameResend => exact .next h.ringResendRow
  | sigFrame => exact .next h.sigFrame
  | fabricSignalWrite => exact .next h.fabricBeat
  | signalAccept => exact .next h.signalAccept
  | conditionEvaluation => exact .next h.conditionEvaluation
  | timerSatisfied => exact .next h.timerSatisfied
  | sobReset => obtain rfl := hc rfl; exact .next h.writeAt.writeAt
  | sobResetDone => exact .next h.sobResetDone
  | balanceCheckDone => exact .next h.balanceDone
  | wickAssert => exact .next h.wickAssert
  | wickAck => exact .next h.wickAck
  | plHoldExpiry => exact .next h.plHoldExpiry
  | prelightStage => exact .next h.prelightStage
  | pllLock => exact .next h.pllLock
  | scrubRead => exact .next h.scrubRead
  | stopComplete => exact .next h.stopComplete
  | asyncCompletion => exact .next h.asyncNext
  | fx => exact .next h.issueFx
  | add | sub | and | or | xor | shl | shr | sar | min | max | mul | mulh | fadd | fsub | fmul | fdiv | fmin | fmax | ffma => exact .next h.opRRR
  | mov | fsqrt | fcvtF2i | fcvtF2u | fcvtI2f | fcvtU2f | fcvtRi => exact .next h.opRR
  | cmpeq | cmplt | cmpltu | fcmpEq | fcmpLt | fcmpLe | fcmpUn => exact .next h.opCmp
  | addi | lui | tdiff | objget => exact .next (h.issue (fun _ => .done h.setG))
  | andi | ori | xori => exact .next h.opImmU
  | br => exact .next (h.issue (fun _ => .ite (.jump h) (.done h)))
  | beq | bne | blt | bge | bltu | bgeu => exact .next h.opBranch
  | call => exact .next (h.issue (fun _ => .jump h.setG))
  | ret => exact .next (h.issue (fun _ => .jump h))
  | halt => exact .next (h.issue (fun _ => .halt h))
  | ld | ldw | ldh | ldb => exact .next h.opLoad
  | st | stw | sth | stb => obtain rfl := hc rfl; exact .next h.opStore
  | getc => exact h.execGetc
  | putc => obtain rfl := hc rfl; exact h.execPutc
  | htr | tadd => exact .next (h.issue (fun _ => .done h.setT))
  | tcmp => exact .next (h.issue (fun _ => .done h.setP))
  | waitt => exact .next (h.issue (fun _ => .ite (.done h.report) (.ite (.done h.report) (.wait h))))
  | waittTarget => exact h.execWaittTarget
  | trig => exact h.execTrig
  | capt => exact h.execCapt
  | sig => exact h.execSig
  | wait => exact .next (h.issue (fun _ => .ite (.done h.report) (.ite (.done h.consume.report) (.ite (.done h.report) (.wait h)))))
  | waitDeadline => exact h.execWaitDeadline
  | poll => exact .next (h.issue (fun _ => .ite (.done h.report) (.ite (.done h.consume.report) (.done h.report))))
  | objset => exact .next (h.issue (fun _ => .done h.objset.report))
  | bind => exact .next (h.issue (fun _ => .done h.bindWick.report))
  | bindUnbind => exact .next (h.issue (fun _ => .done h.unbindWick.report))
  | prelit => exact .next (h.issue (fun _ => .done h.prelight.report))
  | cguard => exact .next (h.issue (fun _ => .done h.copyGuard.report))
  | arm => exact h.execArm
  | release => exact h.execRelease
  | gate => exact h.execGate
  | contrib => exact h.execContrib
  | result => obtain rfl := hc rfl; exact .next (h.issue (fun _ => h.resultInstr))
  | launch => exact h.execLaunch
  | phase => exact h.execPhase
  | plan => exact h.execPlan
  | snap => exact h.execSnap
  | window => exact h.execWindow
  | commit => exact h.execCommit
  | rebuild => exact h.execRebuild
  | evict => exact h.execEvict
  | shadowStart => exact h.execShadowStart
  | shadowAdmit => exact h.execShadowAdmit
  | shadowAbandon => exact h.execShadowAbandon
  | jnl => exact .next (h.issue (fun _ => .ite (.done h.setB.report) (.done h.jnl.setG)))
  | jflush => exact h.execJflush
  | upd => exact h.execUpd
  | jobcmd => exact .next h.jobcmd
  | jobcmdDone => exact .next h.jobcmdDone
  | armReq => exact .next h.armReq
  | orderHoldRelease => exact .next h.orderHoldRelease
  | armTimeout => exact .next h.armTimeout
  | armAck => exact h.execArmAck
  | armRefuse => exact .next h.armRefuse
  | releaseReq => exact .next h.releaseFrame
  | releaseAt => exact .next h.releaseAt
  | releaseTick => exact .next h.releaseTick
  | releaseAtTimeout => exact .next h.releaseAtTimeout
  | gateFrame => exact .next h.gateFrame
  | gatePart => exact .next h.gatePart
  | gateDeadline => exact .next h.gateDeadline
  | launchFrame => exact h.execLaunchFrame
  | launchInstant => exact h.execLaunchInstant
  | abort => exact .next h.abortFrame
  | replan => exact h.execReplan
  | phaseFrame => exact h.execPhaseFrame
  | phaseTick => exact h.execPhaseTick
  | restore => exact .next h.restoreFrame
  | replayEnd => exact .next h.replayEnd
  | rampReq => exact .next h.rampReq
  | rampOffer => exact .next h.rampOffer
  | rampFix => exact .next h.rampFix
  | rampConfirm => exact .next h.rampConfirm
  | rampHoldLapse => exact .next h.rampHoldLapse
  | contribFrame => exact .next h.contribFrame
  | partialFrame => exact .next h.partialFrame
  | resultFrame | scanResult => exact .next h.resultFrame
  | spillIn => exact .next h.spillIn
  | spillOut => exact .next h.spillOut
  | spillTimeout => exact .next h.spillTimeout
  | queueGrant => exact .next h.queueGrant
  | suspectTimeout => exact .next h.suspectTimeout
  | confirmTimeout => exact .next h.confirmTimeout
  | onesideTimeout => exact .next h.onesideTimeout
  | suspect => exact .next h.suspectFrame
  | confirm => exact .next h.confirmFrame
  | dead => exact .next h.deadFrame
  | mirrorAck => exact .next h.mirrorAck
  | mirrorTimeout => exact .next h.mirrorTimeout
  | fence => exact .next h.fenceFrame
  | selfFence => exact .next h.selfFence
  | unfence => exact .next h.unfenceFrame
  | fstate => exact .next h.fstateFrame
  | suspectRpt => exact .next h.suspectRpt
  | evictReq => exact .next h.evictReq
  | unfenceReq => exact .next h.unfenceReq
  | pathLost => exact .next h.pathLost
  | leafLost => exact .next h.leafLost
  | shadowOn => exact h.execShadowOn
  | shadowOff => exact h.execShadowOff
  | digest => exact .next h.digestFrame
  | mismatch => exact .next h.mismatchFrame
  | condsusp => exact .next h.condsuspFrame
  | frPeriod => exact .next h.frPeriod
  | snapReq => exact .next h.snapReq
  | openEpoch => exact h.execOpenEpoch
  | openRefuse => exact .next h.openRefuse
  | leafWindowOpen => exact .next h.leafWindowOpen
  | leafWindowClose => exact .next h.leafWindowClose
  | bulkData | bulkResend => exact .next h.bulkAbsorb
  | bulkZero => exact .next h.bulkZero
  | slowPathMerge => exact .next h.slowMerge
  | synd => exact h.execSynd
  | bulkRestore => exact .next h.bulkRestore
  | prepare => exact .next h.prepareLeaf
  | prepareTimeout => exact .next h.prepareTimeout
  | prepared => exact .next h.prepared
  | commitMessage => exact h.execCommitMessage
  | discard => exact h.execDiscard
  | rebuildReq => exact .next h.rebuildReq
  | rebuildWindow => exact .next h.rebuildWindow
  | rebuilt => exact .next h.rebuilt
  | fabricCompletion => exact .next h.fabricCompletion
  | spillRetry => exact .next h.spillRetry
  | saveInterval => exact .next h.saveInterval
  | lifetimeSaveDone => exact .next h.saveDone
  | trendUpdate => exact .next h.trendUpdate
  | hbmChannelMoveDone => exact .next h.moveDone
  | mgmtRead => exact .next h.mgmtRead
  | mgmtWrite => obtain rfl := hc rfl; exact .next h.mgmtWrite
  | rsp => exact .next h.recvRsp
  | mreqTimeout => exact .next h.mreqTimeout
  | wsRegacc => obtain rfl := hc rfl; exact .next h.wsRegacc
  | wsMbist => obtain rfl := hc rfl; exact .next h.wsMbist
  | perstN => exact .next h.perst
  | supplyFault => obtain rfl := hc rfl; exact .next h.supplyFault
  | heldResetRelease => obtain rfl := hc rfl; exact .next h.heldRelease
  | thermtrip => obtain rfl := hc rfl; exact .next h.thermtrip
  | bandSample => exact .next h.bandSample
  | hbmTrained => exact .next h.hbmTrained
  | bootRom => exact .next h.bootRom
  | meshEdgeDown => exact .next h.meshEdgeDown
  | meshIsolation => exact .next h.meshIsolation
  | hkpWatchdogExpiry => exact .next h.watchdogExpiry
  | i3cPrivateWrite => obtain rfl := hc rfl; exact .next h.i3cWrite
  | i3cPrivateRead => exact .next h.i3cRead
  | calinfoInterval => exact .next h.calinfoInterval.pumpAll
  | meshEdgeUp => exact .next h.meshEdgeUp
  | rebuildPrepTo => exact .next h.rebuildPrepTo
  | tRReached => exact h.execTRReached
  | crossingFifoOverrun => exact .next h.crossingOverrun
  | patrolScrub => exact .next h.patrolScrub
  | illegal => exact .next h.illegalWord
  | ifetch => exact .next h.fetchFault

theorem Orderly.idle (h : Orderly m s0 s) : Orderly m s0 s.idle := by
  unfold State.idle
  exact h.edge.edge

theorem Orderly.step (h : Orderly true s0 s) : Lands (Orderly true s0) (Machine.step s) := by
  unfold Machine.step
  split
  · exact .next h.idle
  · exact h.outside.exec fun _ => rfl

/-- Settles O57: of the engines' memories, only these commands' meanings write one. -/
theorem onlyStoresChangeTheMemories : Obligations.OnlyStoresChangeTheMemories := by
  unfold Obligations.OnlyStoresChangeTheMemories
  intro c s hmem hreg hres
  obtain ⟨t, he, ht⟩ := Orderly.exec (m := false) (c := c) (Orderly.refl (s := s)) (by rw [hmem, hreg, hres]; nofun)
  refine ⟨t, he, fun e => ⟨fun a => ?_, ht.imem rfl e⟩⟩
  rw [Engine.byte, ht.dmem rfl e, Engine.byte]

/-- Settles O54: each operation keeps what the invariant asks of the parts, the engines and the maps. -/
theorem everyStepKeepsTheInvariant : Obligations.EveryStepKeepsTheInvariant := by
  unfold Obligations.EveryStepKeepsTheInvariant
  intro s t hi hs
  obtain ⟨u, hu, ho⟩ := (Orderly.refl (s := s)).step
  rw [hu] at hs
  cases hs
  exact ho.inv hi

end Sys2Proof.Machine
end
